-- ==== Sys2Proof/Machine/Tbl.lean ====
section
/-! DEFINITION. Sparse tables: a list of key and value pairs in one canonical form (keys strictly rising, no entry equal
to what an unlisted key reads as), so that equal tables are equal data. Register fields, counters, memory bytes,
coefficients, zones, heads and beams are all held in such tables. -/

namespace Sys2Proof

/-- A sparse table from natural-number keys. -/
abbrev Tbl (α : Type) := List (Nat × α)

/-- The listed value of key `i`, if any. -/
def Tbl.find {α : Type} : Tbl α → Nat → Option α
  | [], _ => none
  | (k, v) :: t, i => if i = k then some v else Tbl.find t i

/-- The value of key `i`; `d` is what an unlisted key reads as. -/
def Tbl.look {α : Type} (d : α) (t : Tbl α) (i : Nat) : α := (Tbl.find t i).getD d

/-- List `v` at key `i`, keeping the keys rising. -/
def Tbl.list {α : Type} : Tbl α → Nat → α → Tbl α
  | [], i, v => [(i, v)]
  | (k, w) :: t, i, v =>
    if i < k then (i, v) :: (k, w) :: t
    else if i = k then (i, v) :: t
    else (k, w) :: Tbl.list t i v

/-- Drop every entry of key `i`. -/
def Tbl.drop {α : Type} : Tbl α → Nat → Tbl α
  | [], _ => []
  | (k, w) :: t, i => if i = k then Tbl.drop t i else (k, w) :: Tbl.drop t i

/-- Key `i` reads `v` from now on: a value equal to the default `d` unlists the key. -/
def Tbl.put {α : Type} [DecidableEq α] (d : α) (t : Tbl α) (i : Nat) (v : α) : Tbl α :=
  if v = d then Tbl.drop t i else Tbl.list t i v

/-- Change the value of key `i` by `f`. -/
def Tbl.upd {α : Type} [DecidableEq α] (d : α) (t : Tbl α) (i : Nat) (f : α → α) : Tbl α :=
  Tbl.put d t i (f (Tbl.look d t i))

/-- Every key is above `b` and the keys rise strictly. -/
def Tbl.rising {α : Type} : Option Nat → Tbl α → Bool
  | _, [] => true
  | b, (k, _) :: t => (match b with | none => true | some m => decide (m < k)) && Tbl.rising (some k) t

/-- The canonical form: keys strictly rising, no entry equal to the default of its key. -/
def Tbl.wf {α : Type} [DecidableEq α] (d : Nat → α) (t : Tbl α) : Bool :=
  Tbl.rising none t && t.all (fun e => decide (e.2 ≠ d e.1))

end Sys2Proof
end

