-- ==== Sys2Proof/Machine/Units.lean ====
section
/-! DEFINITION. Units and pods (R33 to R35), where each lies in the 4 MiB window (R45), its kind, its event source number
(R438) and the unit in which its LOCKVIOL is raised (R44). -/

namespace Sys2Proof.Machine

/-- The units and pods of one device (R45). `remote r` is the event block of remote source 384 + r (R442), which is no
unit but has an event block of its own. -/
inductive UnitId where
  | device | system | time | thermal | identity | nor | power | key | event
  | remote (r : Nat)
  | host | pcie | nvme | sas | guest (g : Nat)
  | corePod | keeper | core (n : Nat) | l2 | mover | hash
  | bufPod | dram | channel (n : Nat)
  | loopPod | engine | slot (n : Nat)
  | drive | spindle | stepper (n : Nat) | vcm (n : Nat) | fan | vmot
  | media | tray | outer | deep
  | head (h : Nat) | laser (h : Nat) | beam (b : Nat)
  | ringPod | ring | join | pair
  | counterPod
deriving DecidableEq, Repr

/-- The window offset of Head[h] (R45). -/
def headBase (h : Nat) : Nat := 0x100000 + h * 0x40000

/-- The window offset of a unit's header (R45). A remote event block has no header: its base is set so that the offsets
of R43 reach its registers, EVRAW at 0x3000 + r × 0x20 (R442). -/
def UnitId.base : UnitId → Nat
  | .device => 0 | .system => 0x1000 | .time => 0x1100 | .thermal => 0x1200 | .identity => 0x1300 | .nor => 0x1400
  | .power => 0x1500 | .key => 0x1600 | .event => 0x2000
  | .remote r => 0x2FE0 + 0x20 * r
  | .host => 0x10000 | .pcie => 0x10100 | .nvme => 0x11000 | .sas => 0x12000 | .guest g => 0x14000 + 0x400 * g
  | .corePod => 0x20000 | .keeper => 0x21000 | .core n => 0x22000 + 0x1000 * n | .l2 => 0x2A000 | .mover => 0x2B000
  | .hash => 0x2C000
  | .bufPod => 0x30000 | .dram => 0x30100 | .channel n => 0x31000 + 0x400 * n
  | .loopPod => 0x40000 | .engine => 0x40100 | .slot n => 0x41000 + 0x200 * n
  | .drive => 0x50000 | .spindle => 0x50100 | .stepper n => 0x51000 + 0x200 * n | .vcm n => 0x52000 + 0x100 * n
  | .fan => 0x53000 | .vmot => 0x53100
  | .media => 0x108000 | .tray => 0x108100 | .outer => 0x108200 | .deep => 0x108300
  | .head h => headBase h | .laser h => headBase h + 0x1000
  | .beam b => headBase (b / 12) + 0x10000 + (b % 12) * 0x1000
  | .ringPod => 0x200000 | .ring => 0x200100 | .join => 0x200200 | .pair => 0x200300
  | .counterPod => 0x310000

/-- The unit kind of UKIND (R38, R45). -/
def UnitId.kind : UnitId → Nat
  | .device => 0x0001 | .system => 0x0010 | .time => 0x0011 | .thermal => 0x0012 | .identity => 0x0013 | .nor => 0x0014
  | .power => 0x0015 | .key => 0x0016 | .event => 0x0017 | .remote _ => 0
  | .host => 0x0020 | .pcie => 0x0021 | .nvme => 0x0022 | .sas => 0x0023 | .guest _ => 0x0024
  | .corePod => 0x0030 | .keeper => 0x0031 | .core _ => 0x0032 | .l2 => 0x0033 | .mover => 0x0034 | .hash => 0x0035
  | .bufPod => 0x0040 | .dram => 0x0041 | .channel _ => 0x0042
  | .loopPod => 0x0050 | .engine => 0x0051 | .slot _ => 0x0052
  | .drive => 0x0060 | .spindle => 0x0061 | .stepper _ => 0x0062 | .vcm _ => 0x0063 | .fan => 0x0064 | .vmot => 0x0065
  | .media => 0x0070 | .head _ => 0x0072 | .laser _ => 0x0074 | .beam _ => 0x0075 | .tray => 0x0076 | .outer => 0x0077
  | .deep => 0x0078
  | .ringPod => 0x0080 | .ring => 0x0081 | .join => 0x0082 | .pair => 0x0083
  | .counterPod => 0x0090

/-- The event source number of a unit (R438); a unit without an event block has none. -/
def UnitId.src : UnitId → Option Nat
  | .device => some 0 | .system => some 1 | .time => some 2 | .thermal => some 3 | .identity => none | .nor => some 5
  | .power => some 6 | .key => some 7 | .event => some 8
  | .remote r => some (384 + r)
  | .host => some 16 | .pcie => some 17 | .nvme => some 18 | .sas => some 19 | .guest _ => none
  | .corePod => some 32 | .keeper => some 33 | .core n => some (34 + n) | .l2 => some 42 | .mover => some 43
  | .hash => some 44
  | .bufPod => some 48 | .dram => some 49 | .channel n => some (50 + n)
  | .loopPod => some 64 | .engine => some 65 | .slot n => some (66 + n)
  | .drive => some 168 | .spindle => some 169 | .stepper n => some (170 + n) | .vcm n => some (175 + n)
  | .fan => some 191 | .vmot => some 192
  | .media => some 200 | .tray => some 201 | .outer => some 202 | .deep => some 203
  | .head h => some (208 + h) | .laser h => some (212 + h) | .beam b => some (216 + b)
  | .ringPod => some 272 | .ring => some 273 | .join => some 274 | .pair => some 275
  | .counterPod => some 280

/-- The number that crumbs and UEVSUM give a unit: its source number, or the number R438 reserves for it. -/
def UnitId.number : UnitId → Nat
  | .identity => 4 | .guest g => 20 + g
  | u => u.src.getD 0

/-- The direct children of a pod, in ascending offset (R34, R45). -/
def UnitId.children : UnitId → List UnitId
  | .device => [.system, .host, .corePod, .bufPod, .loopPod, .drive, .media, .ringPod, .counterPod]
  | .system => [.time, .thermal, .identity, .nor, .power, .key, .event]
  | .host => [.pcie, .nvme, .sas] ++ (List.range 8).map .guest
  | .corePod => [.keeper] ++ (List.range 8).map .core ++ [.l2, .mover, .hash]
  | .bufPod => .dram :: (List.range 8).map .channel
  | .loopPod => .engine :: (List.range 96).map .slot
  | .drive => [.spindle] ++ (List.range 5).map .stepper ++ (List.range 16).map .vcm ++ [.fan, .vmot]
  | .media => [.head 0, .tray, .outer, .deep, .head 1, .head 2, .head 3]
  | .head h => .laser h :: (List.range 12).map (fun k => .beam (12 * h + k))
  | .ringPod => [.ring, .join, .pair]
  | _ => []

/-- The pod that holds a unit (R45). -/
def UnitId.parent : UnitId → Option UnitId
  | .device => none | .remote _ => some .event
  | .system | .host | .corePod | .bufPod | .loopPod | .drive | .media | .ringPod | .counterPod => some .device
  | .time | .thermal | .identity | .nor | .power | .key | .event => some .system
  | .pcie | .nvme | .sas | .guest _ => some .host
  | .keeper | .core _ | .l2 | .mover | .hash => some .corePod
  | .dram | .channel _ => some .bufPod
  | .engine | .slot _ => some .loopPod
  | .spindle | .stepper _ | .vcm _ | .fan | .vmot => some .drive
  | .tray | .outer | .deep | .head _ => some .media
  | .laser h => some (.head h) | .beam b => some (.head (b / 12))
  | .ring | .join | .pair => some .ringPod

/-- A pod's descendants and itself, in depth-first order (R47); the tree is three pods deep. -/
def UnitId.subtree (u : UnitId) : List UnitId :=
  u :: u.children.flatMap (fun a => a :: a.children.flatMap (fun b => b :: b.children))

/-- 1 in UKIND.pod (R38). -/
def UnitId.isPod (u : UnitId) : Bool := u.kind != 0x0090 && !u.children.isEmpty || u == .counterPod

/-- The instance number of UINST (R14, R39). -/
def UnitId.inst : UnitId → Nat
  | .guest n | .core n | .channel n | .slot n | .stepper n | .vcm n | .head n | .laser n | .beam n | .remote n => n
  | _ => 0

/-- Where a unit's LOCKVIOL is raised: the unit itself, or the nearest enclosing pod with an event block (R44). -/
def UnitId.evUnit (u : UnitId) : UnitId :=
  match u.src with
  | some _ => u
  | none => u.parent.getD .device

/-- The unit of an event source number (R438). -/
def UnitId.ofSrc (n : Nat) : Option UnitId :=
  if n ≤ 8 then [UnitId.device, .system, .time, .thermal, .identity, .nor, .power, .key, .event][n]?
  else if n < 16 then none
  else if n ≤ 19 then [UnitId.host, .pcie, .nvme, .sas][n - 16]?
  else if n ≤ 27 then some (.guest (n - 20))
  else if n < 32 then none
  else if n ≤ 33 then [UnitId.corePod, .keeper][n - 32]?
  else if n ≤ 41 then some (.core (n - 34))
  else if n ≤ 44 then [UnitId.l2, .mover, .hash][n - 42]?
  else if n < 48 then none
  else if n ≤ 49 then [UnitId.bufPod, .dram][n - 48]?
  else if n ≤ 57 then some (.channel (n - 50))
  else if n < 64 then none
  else if n ≤ 65 then [UnitId.loopPod, .engine][n - 64]?
  else if n ≤ 161 then some (.slot (n - 66))
  else if n < 168 then none
  else if n ≤ 169 then [UnitId.drive, .spindle][n - 168]?
  else if n ≤ 174 then some (.stepper (n - 170))
  else if n ≤ 190 then some (.vcm (n - 175))
  else if n ≤ 192 then [UnitId.fan, .vmot][n - 191]?
  else if n < 200 then none
  else if n ≤ 203 then [UnitId.media, .tray, .outer, .deep][n - 200]?
  else if n < 208 then none
  else if n ≤ 211 then some (.head (n - 208))
  else if n ≤ 215 then some (.laser (n - 212))
  else if n ≤ 263 then some (.beam (n - 216))
  else if n < 272 then none
  else if n ≤ 275 then [UnitId.ringPod, .ring, .join, .pair][n - 272]?
  else if n == 280 then some .counterPod
  else if 384 ≤ n && n ≤ 511 then some (.remote (n - 384))
  else none

/-- The unit whose register space holds window offset `o` (R33, R45): the unit with the highest base at or below it
whose space is not past. -/
def UnitId.ofOffset (o : Nat) : Option UnitId :=
  if o < 0x1000 then some .device
  else if o < 0x2000 then [UnitId.system, .time, .thermal, .identity, .nor, .power, .key][(o - 0x1000) / 0x100]?
  else if o < 0x3000 then (if o < 0x2100 then some .event else none)
  else if o < 0x4000 then some (.remote ((o - 0x3000) / 0x20))
  else if o < 0x10000 then none
  else if o < 0x10100 then some .host
  else if o < 0x11000 then (if o < 0x10200 then some .pcie else none)
  else if o < 0x12000 then some .nvme
  else if o < 0x13000 then some .sas
  else if o < 0x14000 then none
  else if o < 0x16000 then some (.guest ((o - 0x14000) / 0x400))
  else if o < 0x20000 then none
  else if o < 0x21000 then some .corePod
  else if o < 0x22000 then some .keeper
  else if o < 0x2A000 then some (.core ((o - 0x22000) / 0x1000))
  else if o < 0x2D000 then [UnitId.l2, .mover, .hash][(o - 0x2A000) / 0x1000]?
  else if o < 0x30000 then none
  else if o < 0x31000 then (if o < 0x30100 then some .bufPod else if o < 0x30200 then some .dram else none)
  else if o < 0x33000 then some (.channel ((o - 0x31000) / 0x400))
  else if o < 0x40000 then none
  else if o < 0x41000 then (if o < 0x40100 then some .loopPod else if o < 0x40200 then some .engine else none)
  else if o < 0x4D000 then some (.slot ((o - 0x41000) / 0x200))
  else if o < 0x50000 then none
  else if o < 0x51000 then (if o < 0x50100 then some .drive else if o < 0x50200 then some .spindle else none)
  else if o < 0x51A00 then some (.stepper ((o - 0x51000) / 0x200))
  else if o < 0x52000 then none
  else if o < 0x53000 then some (.vcm ((o - 0x52000) / 0x100))
  else if o < 0x53200 then (if o < 0x53100 then some .fan else some .vmot)
  else if o < 0x100000 then none
  else if 0x108000 ≤ o && o < 0x108400 then [UnitId.media, .tray, .outer, .deep][(o - 0x108000) / 0x100]?
  else if o < 0x200000 then
    let h := (o - 0x100000) / 0x40000
    let r := (o - 0x100000) % 0x40000
    if r < 0x1000 then some (.head h)
    else if r < 0x2000 then some (.laser h)
    else if r < 0x10000 then none
    else if r < 0x1C000 then some (.beam (12 * h + (r - 0x10000) / 0x1000))
    else none
  else if o < 0x200400 then [UnitId.ringPod, .ring, .join, .pair][(o - 0x200000) / 0x100]?
  else if 0x310000 ≤ o && o < 0x311000 then some .counterPod
  else none

end Sys2Proof.Machine
end

