-- ==== Sys2Proof/Syntax.lean ====
section
/-! DEFINITION. The commands the device takes from outside: one constructor of `Instr` per row of the table of operations
and events, with the types of their operands. -/

namespace Sys2Proof.Machine

/-- A requester of register accesses (R51). -/
inductive Requester where
  | keeper
  | core (n : Fin 8)
  | host
  | ring
deriving DecidableEq, Repr

/-- The number of a requester (R51). -/
def Requester.num : Requester → Nat
  | .keeper => 0
  | .core n => n.val + 1
  | .host => 9
  | .ring => 10

/-! ## The medium (03) -/

/-- A codeword (R82): pool index or 0x3F map or 0x3E journal, kind, lba field, CRC-24, and the 4,096 user bytes as one
little-endian number. -/
structure Cw where
  nsid : Nat
  kind : Nat
  lba : Nat
  crc : Nat
  data : Nat
deriving DecidableEq, Repr

/-- A beam block as recorded (R77, R78): the header fields and the codewords of the payload in position order. A parity
block holds its parity payloads as user bytes with kind 4, which no data codeword carries. -/
structure Block where
  seq : Nat
  timens : Nat
  timecode : Nat
  beam : Nat
  layer : Nat
  zone : Nat
  cwcount : Nat
  parity : Nat
  flags : Nat
  cws : List Cw
deriving DecidableEq, Repr

/-- A tray position (R75). An abandoned position keeps the blocks written before its gate was removed, which carry no
meaning. -/
inductive Pos where
  | blank
  | abandoned (blocks : List Block)
  | written (blocks : List Block)
deriving DecidableEq, Repr

/-- What a lead-in table says (R70), as one of its copies that passes its CRC-32C gives it. -/
structure LeadIn where
  ident : Nat
  version : Nat
  disc : Nat
  layers : Nat
  serial : Nat
  date : Nat
  depth : List Nat
  wpower : List Nat
  rpower : List Nat
  rc : List (Nat × Nat × Nat)
deriving DecidableEq, Repr

/-- A cartridge (R63, R70, R97): the lead-in table of each disc (none where no copy passes its CRC-32C), the greatest
distance of a disc's index from that of D0 in marks (R65), whether the cartridge memory answers, its 256 bytes, and the
tray positions recorded. -/
structure Cartridge where
  lead : List (Option LeadIn)
  indexOff : Nat
  cmAnswers : Bool
  cm : Tbl Nat
  pos : Tbl Pos
deriving DecidableEq, Repr

/-- What the inline decoder shows of a block (R127, R147, R148, R153): the offset at which sync was found, the header copy
accepted (1 to 3, 4 the majority, 0 none), for each codeword position the iterations used (0: not decoded), the most
differing positions of a codeword and their sum over the decoded codewords, and the positions whose CRC-24 failed. -/
structure Seen where
  ofs : Option Int
  copy : Nat
  iters : List Nat
  maxerr : Nat
  corr : Nat
  crcBad : List Nat
deriving DecidableEq, Repr

/-! ## Host commands (11, 12) -/

/-- A submission queue entry as fetched (R352), with what lies behind its data pointer: `pages` are the 4 KiB pages of host
data as little-endian numbers, `dlen` the bytes the data pointer describes, `prpBad` a PRP with a wrong offset and `dmaBad`
a transfer answered with an error (R384). -/
structure SqEntry where
  opc : Nat
  cid : Nat
  nsid : Nat
  dw2 : Nat
  dw3 : Nat
  dw10 : Nat
  dw11 : Nat
  dw12 : Nat
  dw13 : Nat
  dw14 : Nat
  dw15 : Nat
  dlen : Nat
  flags : Nat
  mptr : Nat
  pages : List Nat
  prpBad : Bool
  dmaBad : Bool
deriving DecidableEq, Repr

/-- A COMMAND frame (R390): initiator address, tag, LUN, task attribute, the CDB bytes, the additional CDB length and the
expected data transfer length; `bad` says that its CRC or length is bad (R406). -/
structure CmdFrame where
  init : Nat
  tag : Nat
  lun : Nat
  attr : Nat
  cdb : List Nat
  addLen : Nat
  dlen : Nat
  bad : Bool
deriving DecidableEq, Repr

/-! ## Ring and pair link (18) -/

/-- A cycle frame (R536): whether its CRC is good, the error flag, epoch, cycle number, member mask, the master's device number,
the records of the members in ascending station order as little-endian numbers of 16 bytes, and the stations that have written. -/
structure CycleFrame where
  crcOk : Bool
  err : Bool
  epoch : Nat
  cycle : Nat
  mask : Nat
  master : Nat
  recs : List Nat
  wrote : Nat
deriving DecidableEq, Repr

/-- What stock recorders tell each other by ring messages (R548) and by kind 3 mirror descriptors (R552, R553), whose payload the
spec leaves to them: a session's start or end with its time, a bake, a timecode set, a flush with the number of the waiting
command, the answer to it with a status code (0 success), the station that records from now on, that the recording station is
full, a namespace created or deleted, an attachment, and the zone write pointers at a split and now. -/
inductive Coord where
  | session (isEnd : Bool) (t id : Nat)
  | bake (id : Nat)
  | timecode (base epoch id : Nat)
  | flush (id : Nat)
  | done (id : Nat) (ok : Bool) (code : Nat)
  | record (station : Nat)
  | full (station : Nat)
  | ns (create : Bool) (nsid zones : Nat)
  | zones (ws : List (Nat × Nat × Nat))
deriving DecidableEq, Repr


/-! ## Fleran instructions (09) -/

/-- The register operations of op 0x00 (R282). -/
inductive AluOp where
  | add | sub | and | or | xor | andn | sll | srl | sra | clt | cltu | mul | mulh | mulhu | div | divu | rem | remu
  | clz | popc | bswap
deriving DecidableEq, Repr

/-- The immediate operations (R283). -/
inductive ImmOp where
  | addi | andi | ori | xori | clti | cltiu
deriving DecidableEq, Repr

/-- The loads (R284). -/
inductive LoadOp where
  | lb | lbu | lh | lhu | lw | lwu
deriving DecidableEq, Repr

/-- The stores (R284). -/
inductive StoreOp where
  | sb | sh | sw
deriving DecidableEq, Repr

/-- The atomics (R284). -/
inductive AmoOp where
  | swap | amoadd | amoand | amoor | cas
deriving DecidableEq, Repr

/-- The conditional branches (R285). -/
inductive BrOp where
  | beq | bne | blt | bge | bltu | bgeu
deriving DecidableEq, Repr

/-- A Fleran instruction (R280 to R293). The shift of SHI is its kind (0 SLL, 1 SRL, 2 SRA) and its amount. -/
inductive FInstr where
  | alu (op : AluOp) (rd ra rb : Fin 32)
  | imm (op : ImmOp) (rd ra : Fin 32) (v : BitVec 16)
  | shi (kind : Fin 3) (rd ra : Fin 32) (n : Fin 32)
  | ldhi (rd : Fin 32) (v : BitVec 16)
  | addpch (rd : Fin 32) (v : BitVec 16)
  | pref (ra : Fin 32) (v : BitVec 16)
  | load (op : LoadOp) (rd ra : Fin 32) (v : BitVec 16)
  | store (op : StoreOp) (rs ra : Fin 32) (v : BitVec 16)
  | amo (op : AmoOp) (rd ra rb : Fin 32)
  | branch (op : BrOp) (ra rb : Fin 32) (off : BitVec 16)
  | j (off : BitVec 26)
  | jal (off : BitVec 26)
  | jalr (rd ra : Fin 32) (v : BitVec 16)
  | rdc (rd : Fin 32) (k : Fin 16)
  | wrc (ra : Fin 32) (k : Fin 16)
  | tret
  | trap (v : BitVec 16)
  | inv (n : Fin 3)
  | halt
  | post (rd ra : Fin 32) (q : BitVec 11)
  | take (rd ra : Fin 32) (q : Fin 128)
  | give (rd ra : Fin 32) (q : Fin 128)
  | wait (rd ra rb : Fin 32) (kind : Fin 3)
  | stamp (rd : Fin 32)
  | raise (n : Fin 8)
  | fence
  | yield (ra : Fin 32)
deriving DecidableEq, Repr

/-- A wrong-path instruction (R306, R309): its fetch address, the data address it reads, the stage at which it is squashed (1 F1 to 7
M2), and its cycles from fetch to issue and from issue to squash. -/
structure WrongPath where
  pc : Nat
  data : Option Nat
  stage : Nat
  fetchCycles : Nat
  runCycles : Nat
deriving DecidableEq, Repr

/-- A memory error met by an instruction (R295, R303, R304): a parity error in the L1I or side-buffer line fetched, in the L1D or
side-buffer line read, in the L2 line, in a local SRAM word read, or data the buffer controller cannot correct. -/
inductive MemErr where
  | none
  | lineI
  | lineD
  | l2
  | sram
  | buffer
deriving DecidableEq, Repr

/-- What the pipeline shows of an instruction (R298, R308, R309): cycles since the last commit, from fetch to issue and from issue to
commit, whether it issued with another and as the younger, a memory error, and the wrong-path instructions squashed behind it. -/
structure Pipe where
  cycles : Nat
  fetchCycles : Nat
  runCycles : Nat
  dual : Bool
  younger : Bool
  err : MemErr
  wrong : List WrongPath
deriving DecidableEq, Repr

end Sys2Proof.Machine

namespace Sys2Proof

open Machine

/-- The commands: one constructor per row of spec/opcode_table.json, in its order, with the operands the row's rule
names. A measurement, a decoding outcome or data from outside is an operand. -/
inductive Instr where
  /-- REGISTER_WRITE (R54): A requester writes a register that has no row of its own; the write is checked for width, permission, lock and one-time state and then applied or refused. `bytes` is the width of the write in bytes. -/
  | registerWrite (r : Requester) (off : Nat) (bytes : Nat) (v : Word)
  /-- EVFORCE_WRITE (R43): Each bit written as 1 to EVFORCE sets that EVRAW bit as its source would, without a crumb. -/
  | evforceWrite (r : Requester) (u : UnitId) (v : Word)
  /-- EVCLR_WRITE (R44): Each bit written as 1 to EVCLR clears that EVRAW bit unless its source occurs in the same cycle. `occ`: sources occurring in the same cycle; `present`: sources whose condition is still present. -/
  | evclrWrite (r : Requester) (u : UnitId) (v : Word) (occ : Word) (present : Word)
  /-- ULOCK_WRITE (R56): Writing 1 to ULOCK.locked locks the unit and, for a pod, every descendant in the same cycle. -/
  | ulockWrite (r : Requester) (u : UnitId) (v : Word)
  /-- TBSEQLO_READ (R113): A read of TBSEQLO returns the low word and latches TBSEQHI. -/
  | tbseqloRead (r : Requester)
  /-- TRGTLO_READ (R331): A read of TRGTLOn returns the low capture time and latches TRGTHIn. -/
  | trgtloRead (r : Requester) (n : Fin 4)
  /-- TMLO_READ (R463): A read of TMLO returns TIMENS bits [31:0] and latches TMHI for the reading requester. -/
  | tmloRead (r : Requester)
  /-- TMPPSLO_READ (R475): A read of TMPPSLO returns the last capture's low word and latches TMPPSHI. -/
  | tmppsloRead (r : Requester)
  /-- CTLO_READ (R454): A read of CTLO returns the low count and latches CTHI and CTWRAP of the entry for the reading requester. Places 0 to 7 are the guest views, 8 the counter pod. -/
  | ctloRead (r : Requester) (place : Fin 9) (entry : Fin 320)
  /-- EBMCLO_READ (R264): A read of EBMCLO returns the low half of the selected microcode word and latches its high half for EBMCHI. -/
  | ebmcloRead (r : Requester)
  /-- HCLKSTAT_READ (R171): A read of HCLKSTAT returns the missed-mark count and then clears it. -/
  | hclkstatRead (r : Requester) (h : Fin 4)
  /-- TRAY_SEAL (R103): The tray builder seals the next tray when fewer than four wait and it is full, needed closed or timed out, fixing slots, heads, beams, sequence number and parity beams. -/
  | traySeal
  /-- SEAL_TIMEOUT (R103): TBSEALTO elapses since the oldest waiting codeword was taken, calling for the tray being filled to be sealed. -/
  | sealTimeout
  /-- TBCTRL_SEALNOW (R113): A write of 1 to TBCTRL.sealnow closes the tray being filled as for a flush, or does nothing if no codeword waits. `v`: the word written to TBCTRL. -/
  | tbctrlSealnow (r : Requester) (v : Word)
  /-- TRAY_UNIT_TAKE (R112): The tray builder takes the next data unit of a descriptor into a slot after the capacity, order, high-water and CRC-24 checks, or refuses it and completes the descriptor. `eccFail`: the unit's read and its repeat both failed link ECC (R413). -/
  | trayUnitTake (eccFail : Bool)
  /-- TRAY_PAGE_TAKE (R111): The tray builder takes the next map or journal page of a descriptor into a slot and forms its codeword header. `journal`: the journal queue, else the map queue. -/
  | trayPageTake (journal : Bool) (eccFail : Bool)
  /-- OUTER_PARITY_DONE (R102): The outer-code engine completes the tray's Reed-Solomon parity in tray staging. `seq`: the tray's sequence number. -/
  | outerParityDone (seq : Nat)
  /-- TRAY_READINESS_CHECK (R121): One window before a tray starts, every named head's readiness is checked and the tray is held and unsealed if one is not ready. -/
  | trayReadinessCheck
  /-- HEAD_READY_TIMEOUT (R121): A named head not ready within two revolutions is cleared from TBHEADS.present and later trays omit it. -/
  | headReadyTimeout
  /-- TRAY_WINDOW_WRITE (R119): At bit 0 of the tray's window each active beam's write gate opens and its block is written. -/
  | trayWindowWrite
  /-- BLOCK_PAYLOAD_END (R119): After a block's last payload bit the beam's write gate closes. -/
  | blockPayloadEnd (b : Fin 48)
  /-- DRAW_VERDICT (R127): The trailing-spot read of a written block is judged pass or fail under the read-after-write criteria. `pos`: the tray position of the block. -/
  | drawVerdict (pos : Nat) (b : Fin 48) (seen : Seen)
  /-- BEAM_UNDERRUN (R118): A feeder lacking the next payload byte removes the beam's write gate and raises BEAM_UNDERRUN. -/
  | beamUnderrun (b : Fin 48)
  /-- HOLD_KICKBACK (R197): At wedge 992 of a held revolution the head either advances into the held group or steps back one group pitch by the index. -/
  | holdKickback (h : Fin 4)
  /-- TBZID_WRITE (R114): A write to TBZID sets or clears the selected zone table entry, refused with TRAY_OUTORDER when the entry is valid or the pointer differs from the high-water mark. -/
  | tbzidWrite (r : Requester) (v : Word)
  /-- TBZWP_WRITE (R114): A write to TBZWP sets an invalid entry's write pointer, and is refused with TRAY_OUTORDER for a valid entry. -/
  | tbzwpWrite (r : Requester) (v : Word)
  /-- TBHWCTRL_ZERO (R109): A keeper write of 1 to TBHWCTRL.zero, while valid is 0, starts setting every high-water entry to 0. -/
  | tbhwctrlZero (r : Requester)
  /-- HW_ZERO_DONE (R109): The high-water zeroing ends and the held TBHWDATA writes and any held valid write are applied. -/
  | hwZeroDone
  /-- TBHWCTRL_VALID (R109): A keeper write of 1 to TBHWCTRL.valid marks the high-water table loaded, held while zeroing runs. -/
  | tbhwctrlValid (r : Requester)
  /-- TBHWDATA_WRITE (R109): A keeper write to TBHWDATA sets the selected high-water entry, refused if above 262,144 or lowering once valid. -/
  | tbhwdataWrite (r : Requester) (v : Word)
  /-- FLUSH_COMPLETE (R116): A flush completes once every codeword accepted before it, its journal flush record and that record's tray have passed. -/
  | flushComplete
  /-- BWCTRL_RETIRE (R133): Writing 1 to BWCTRL.retire retires the beam from the next sealed tray and posts a beam-retired record, or is refused. -/
  | bwctrlRetire (r : Requester) (b : Fin 48)
  /-- DRAW_INTERVAL_END (R132): At the end of each 1-s TIMENS interval a beam's failure rate updates BDRAWWIN.over, making it a candidate at 10. -/
  | drawIntervalEnd (b : Fin 48)
  /-- CM_UPDATE (R99): The device writes a new state record to the other cartridge-memory slot, abandoning it with MEDIA_CMFAIL if it fails after the retry. `fail`: the update still fails after the retry; true: a readback mismatch, false: a write; with the offset of the failing transfer. -/
  | cmUpdate (fail : Option (Bool × Nat))
  /-- DRAIN_COMPLETE (R31): The drain of all accepted writes ends, letting bake, shutdown, eject or entry to PS3 or PS4 proceed. `failed`: for an extended self-test, the first of the segments 3, 4, 7 and 8 that fails, 0 if none. -/
  | drainComplete (failed : Nat)
  /-- MEDIA_STATE_DECIDE (R100): At load the device decides blank, open or baked from the medium, loads the map and high-water table and rolls forward when needed. `lost`: slot addresses of map and journal codewords that end at step 6; `hidden`: written positions where a block shows no accepted header; `fails`: blocks of the last eight written trays that fail the criteria of R127, position × 64 + beam. -/
  | mediaStateDecide (lost : List Nat) (hidden : List Nat) (fails : List Nat)
  /-- LEADIN_READ_DONE (R70): A head's lead-in read completes and its table is checked for CRC, identity, version and serial. -/
  | leadinReadDone (h : Fin 4)
  /-- READ_DESCRIPTOR_START (R157): The device starts serving the next media read descriptor, seeking unless the tray lies later in the same layer. -/
  | readDescriptorStart
  /-- READ_QUEUE_EMPTY_RESUME (R157): When the media read queue empties, the heads seek back and sealing and recording resume at the next position. -/
  | readQueueEmptyResume
  /-- INLINE_VERDICT (R154): The inline decoder finishes a block read and gives each codeword's step-1 result. `pos`: the tray position; `peak`, `mean`: the run-in samples' peak-to-peak amplitude in LSB and mean in 1/256 LSB. -/
  | inlineVerdict (pos : Nat) (b : Fin 48) (seen : Seen) (peak : Nat) (mean : Int)
  /-- DEEP_DECODE_DONE (R160): A pool engine finishes a step-2 deep decode of one codeword. -/
  | deepDecodeDone (pos : Nat) (b : Fin 48) (p : Fin 24) (ok : Bool)
  /-- STEP3_PASS_END (R161): A step-3 re-read pass with adjusted offsets ends and its codewords are decoded with summed ratios. `seens`: for each beam what the inline decoder shows and the positions the deep decode of the summed ratios decodes. -/
  | step3PassEnd (pos : Nat) (seens : List (Nat × Seen × List Nat))
  /-- OUTER_RECOVERY (R162): At step 4 the outer-code engine recomputes the erased symbols of a codeword position when erasures do not exceed parity. `bad`: beams whose recovered codeword fails its parity checks or CRC-24. -/
  | outerRecovery (pos : Nat) (p : Fin 24) (bad : List Nat)
  /-- STEP5_GATHER_TIMEOUT (R163): MRLADDER.batch elapses after the first tray awaiting step 5, and the batch is re-read at 4,500 rpm. -/
  | step5GatherTimeout
  /-- POSITION_BLANK (R158): No sync in two successive revolutions marks the position blank and completes the descriptor with kind 2, code 2. -/
  | positionBlank (pos : Nat)
  /-- MRSTAIL_WRITE (R166): Software advances MRSTAIL, freeing records and letting a stalled status ring resume. -/
  | mrstailWrite (r : Requester) (v : Word)
  /-- READ_TABLE_SWAP (R150): In the gap before a window of another layer or zone a beam writes back its live entry and loads the new one. From layer `l0` and zone `z0` to layer `l` and zone `z`. -/
  | readTableSwap (b : Fin 48) (l0 : Fin 16) (z0 : Fin 32) (l : Fin 16) (z : Fin 32)
  /-- BRLIVE_WRITE (R170): A write to BRLIVE0 to BRLIVE3 sets live read-channel values, taking effect in the next gap. -/
  | brliveWrite (r : Requester) (b : Fin 48) (w : Fin 4) (v : Word)
  /-- MRBASEHI_WRITE (R172): A write to MRBASEHI commits the read work area base, or holds it with basewait while descriptors are pending. -/
  | mrbasehiWrite (r : Requester) (v : Word)
  /-- MRBASE_APPLY (R172): A held read work area base takes effect once no earlier descriptor remains pending. -/
  | mrbaseApply
  /-- SYNTH_LOCK (R144): A head's synthesiser holds phase within 1/16 position over 1,024 marks, locks and raises HEAD_CLKLOCK. `err`: the mean phase error in 1/256 of a position. -/
  | synthLock (h : Fin 4) (err : Int)
  /-- SYNTH_LOST (R144): Sixteen missing clock marks or 64 large phase errors lose the synthesiser, raising HEAD_CLKLOST and removing write gates. -/
  | synthLost (h : Fin 4)
  /-- SINK_OVERFLOW (R418): A read sink's FIFO overflows, discarding the codeword being delivered and raising BUF_SINKOVER. -/
  | sinkOverflow (pos : Nat) (b : Fin 48) (p : Fin 24)
  /-- WEDGE_POSITION (R184): At each wedge the head decodes its radial position and tracking error and checks the off-track condition. `num`: the wedge number read; `dj`: the times from stripe A j to stripe B j in 1/256 position, four where all stripes are present; `gray`: the radial address cells. -/
  | wedgePosition (h : Fin 4) (num : Fin 1024) (parityOk : Bool) (dj : List Nat) (gray : Nat)
  /-- SERVO_CONVERSION_DONE (R178): A servo ADC conversion ends and delivers its tagged sample word to the triggering slots and HADCLASTc. `raw`: the code before dither removal; `plus`: the dither was +1 LSB. -/
  | servoConversionDone (h : Fin 4) (c : Fin 6) (raw : BitVec 12) (plus : Bool)
  /-- ADC_FREEZE_TRIP (R179): Sixty-four identical raw codes under dither trip the freeze detector, raising HEAD_ADCFREEZE and removing write gates. -/
  | adcFreezeTrip (h : Fin 4) (c : Fin 6)
  /-- HADCCFG_GAIN_WRITE (R180): A write to HADCCFGc.gain takes effect at the next conversion and tags the next two conversions hold. -/
  | hadccfgGainWrite (r : Requester) (h : Fin 4) (c : Fin 6) (v : Word)
  /-- COMPARATOR_TRIP (R191): A focus-sum comparator trips while its focus is closed, removing the head's write gates within 200 ns and raising HEAD_WGDROP. `lay`: the layer comparator; `level`: FS or LFS as an ADC code at ×1. -/
  | comparatorTrip (h : Fin 4) (lay : Bool) (level : Nat)
  /-- COMPARATOR_RELEASE (R191): At a tray boundary a latched comparator trip releases after its signal stayed above threshold plus hysteresis for a window. `level`: the lowest level of the previous window. -/
  | comparatorRelease (h : Fin 4) (lay : Bool) (level : Nat)
  /-- SEQ_ACQUIRE (R194): HSEQCMD command 1 starts the acquire sequence to a group and layer, or is refused. -/
  | seqAcquire (r : Requester) (h : Fin 4) (pair : Bool) (layer : Fin 16) (group : Fin 16384)
  /-- SEQ_SEEK (R195): HSEQCMD command 2 moves the head to a group on the same layer, or is refused. -/
  | seqSeek (r : Requester) (h : Fin 4) (pair : Bool) (layer : Fin 16) (group : Fin 16384)
  /-- SEQ_LAYER (R196): HSEQCMD command 3 jumps the head to another layer on its current group, or is refused. -/
  | seqLayer (r : Requester) (h : Fin 4) (pair : Bool) (layer : Fin 16) (group : Fin 16384)
  /-- SEQ_SEEK_LAYER (R193): HSEQCMD command 4 seeks and jumps layer at once, or is refused. -/
  | seqSeekLayer (r : Requester) (h : Fin 4) (pair : Bool) (layer : Fin 16) (group : Fin 16384)
  /-- SEQ_HOLD (R197): HSEQCMD command 5 holds the head on its current group, or is refused. -/
  | seqHold (r : Requester) (h : Fin 4) (pair : Bool) (layer : Fin 16) (group : Fin 16384)
  /-- SEQ_LEADIN (R193): HSEQCMD command 6 seeks to the lead-in band and reads one revolution of lead-in bits, or is refused. -/
  | seqLeadin (r : Requester) (h : Fin 4) (pair : Bool) (layer : Fin 16) (group : Fin 16384)
  /-- SEQ_RELEASE (R193): HSEQCMD command 7 aborts any running sequence, retracts the head and turns the servo emitter off. -/
  | seqRelease (r : Requester) (h : Fin 4) (pair : Bool) (layer : Fin 16) (group : Fin 16384)
  /-- SEQ_STEP_DONE (R194): A step of a running sequence completes and the next begins, or the sequence ends in its end state with HEAD_SEQDONE. `thr`: the laser thresholds the keeper reads at the end of the first acquire after start (R491): those of the head's 12 beams and of its servo emitter. -/
  | seqStepDone (h : Fin 4) (thr : List Nat)
  /-- SEQ_STEP_TIMEOUT (R194): A sequence step exceeds its bound, ending the sequence in fault with its result and HEAD_SEQFAIL. -/
  | seqStepTimeout (h : Fin 4)
  /-- LAYER_JUMP_AUTO (R198): At the index ending revolution 11,775 with autojump set, all heads start the layer jump in the new direction. -/
  | layerJumpAuto
  /-- LAYER_JUMP_TIMEOUT (R198): A head not ready within the jump bound ends it in fault and its partner reports ready alone. -/
  | layerJumpTimeout (h : Fin 4)
  /-- FOCUS_REACQUIRE_TIMER (R199): Fifty ms after a focus loss the sequencer acquires again, until HSVCFG.retries is used up and the head faults. -/
  | focusReacquireTimer (h : Fin 4)
  /-- SPIN_START (R207): SPCMD command 1 starts the spindle from rest through checking, alignment, acceleration and clock take, or is refused. `slow`: SPCMD.speed, 4,500 rpm. -/
  | spinStart (r : Requester) (slow : Bool)
  /-- SPIN_CHANGE (R212): SPCMD command 2 ramps the spindle to the other speed keeping its angle source. -/
  | spinChange (r : Requester) (slow : Bool)
  /-- SPIN_STOP (R213): SPCMD command 3 ramps the spindle down with limited returned power, then short-brakes to rest. -/
  | spinStop (r : Requester)
  /-- SPIN_SHORT_BRAKE (R214): SPCMD command 4 holds V0 until the rotor rests, then turns the bridge off. -/
  | spinShortBrake (r : Requester)
  /-- SPIN_COAST (R214): SPCMD command 5 turns all six bridge switches off at once. -/
  | spinCoast (r : Requester)
  /-- SPINDLE_TICK (R204): Every 416.7 ns the spindle unit samples currents, estimates flux and torque and applies the chosen voltage vector. The shunt currents in mA, the encoder count, the measured speed in 1/16 rpm and the disc angle. -/
  | spindleTick (ia ib ic : Int) (count : Fin 4096) (speed : Nat) (angle : Option (Fin 262144))
  /-- SPIN_REST_DETECTED (R207): The encoder shows no count for 200 ms, ending checking or a brake to rest. -/
  | spinRestDetected
  /-- SPIN_ALIGN_DONE (R208): A set of 12 alignment pulses completes and the rotor angle is found, another set is taken, or the spindle faults with SPIN_ALIGNFAIL. `cs`: the currents of the 12 directions 0° to 330°. -/
  | spinAlignDone (cs : List Nat)
  /-- SPIN_ENCODER_TIMEOUT (R207): No encoder count within 100 ms of acceleration at torque limit, or repeated reverse counting, faults the spindle with SPIN_ENCFAULT. `reverse`: the encoder counted backwards by more than 16 counts. -/
  | spinEncoderTimeout (reverse : Bool)
  /-- SPIN_SPEED_REACHED (R207): The spindle holds its target within 0.1 % for 64 samples and starts the clock take. -/
  | spinSpeedReached
  /-- CLOCK_TAKE_DONE (R209): The clock-take head locks its synthesiser and becomes the angle source, or the next head is tried and SPIN_CLOCKFAIL follows after all four. `index`: the encoder count at the head's index. -/
  | clockTakeDone (ok : Bool) (index : Fin 4096)
  /-- SPEED_ERROR_PERSIST (R211): A speed error above 1 % for 9,600 consecutive samples raises SPIN_SPEEDERR. -/
  | speedErrorPersist
  /-- SPEED_CHANGE_DONE (R212): A spindle speed change reaches its target and relocking of the heads follows. `relocked`: the heads relocked within 150 ms. -/
  | speedChangeDone (relocked : Bool)
  /-- VMOT_REGENCUT (R216): VMOT rising through 14.0 V turns torque-down demands into hold and raises VMOT_REGENCUT. -/
  | vmotRegencut (mv : Nat)
  /-- VMOT_BRAKE (R216): VMOT rising through 14.3 V puts the spindle in short brake and raises VMOT_BRAKE. -/
  | vmotBrake (mv : Nat)
  /-- VMOT_WATCH_RELEASE (R216): VMOT falling through 13.6 V ends the regeneration cut and brake and the command in progress continues. -/
  | vmotWatchRelease (mv : Nat)
  /-- VMOT_OVER (R216): VMOT rising through 14.5 V sets VMSTAT.over and raises VMOT_OVER. -/
  | vmotOver (mv : Nat)
  /-- VMOT_UVWARN (R216): VMOT falling below VMUVT.warn raises VMOT_UVWARN. -/
  | vmotUvwarn (mv : Nat)
  /-- VMOT_UVFAULT (R216): VMOT falling below VMUVT.fault coasts the spindle, turns steppers off, releases heads and ramps every Vcm. -/
  | vmotUvfault (mv : Nat)
  /-- STEP_MODE_STOP (R223): A write of mode 0 to STCTRL decelerates any move at STACC and stops the channel. -/
  | stepModeStop (r : Requester) (n : Fin 5) (enable : Bool)
  /-- STEP_MODE_MOVE (R223): A write of mode 1 to STCTRL moves the channel to STTARGET on a trapezoidal profile, subject to the loader interlock. -/
  | stepModeMove (r : Requester) (n : Fin 5) (enable : Bool)
  /-- STEP_MODE_GEAR (R224): A write of mode 2 to STCTRL makes the sled follow disc angle through the gear accumulator. -/
  | stepModeGear (r : Requester) (n : Fin 5) (enable : Bool)
  /-- STTARGET_WRITE (R223): A new STTARGET during a move replans the profile from the present position and velocity. -/
  | sttargetWrite (r : Requester) (n : Fin 5) (v : Word)
  /-- STPOS_WRITE (R224): A write to STPOS in mode 0 sets the integer position and clears the fraction, otherwise changes nothing. -/
  | stposWrite (r : Requester) (n : Fin 5) (v : Word)
  /-- STTDATA_WRITE (R220): A write to STTDATA changes the microstep table entry while stopped, or raises STEP_TABLEBUSY. -/
  | sttdataWrite (r : Requester) (n : Fin 5) (v : Word)
  /-- STFOLLOW_WRITE (R224): A write to STFOLLOW adds a signed correction to the gear accumulator once. -/
  | stfollowWrite (r : Requester) (n : Fin 5) (v : Word)
  /-- STEP_DONE (R223): A stepper move arrives at its target and raises STEP_DONE. `pos`: where a stopped move came to rest. -/
  | stepDone (n : Fin 5) (pos : Word)
  /-- STEP_OVERCURRENT (R221): Four consecutive PWM periods at 2.0 A coil current stop the channel in fault and raise STEP_OVERCURRENT. -/
  | stepOvercurrent (n : Fin 5)
  /-- STEP_STANDSTILL (R222): After STSTILL.delay with no microstep the coils go off or shorted as STSTILL.short selects. -/
  | stepStandstill (n : Fin 5)
  /-- STEP_LIMIT (R226): A loader limit input going low stops the move toward it, raises STEP_LIMIT and zeroes STPOS at LDOUT_N. `out`: LDOUT_N, else LDIN_N. -/
  | stepLimit (out : Bool)
  /-- VCCTRL_RETRACT (R229): Writing VCCTRL.retract ramps the Vcm output to VCSAFE at VCRAMP in the drive die. -/
  | vcctrlRetract (r : Requester) (n : Fin 16)
  /-- VCM_RAMP_DONE (R229): A Vcm retract ramp completes and clears VCCTRL.retract. -/
  | vcmRampDone (n : Fin 16)
  /-- VCM_COIL_FAULT (R230): An open or shorted coil persisting 100 µs zeroes the output, faults the Vcm and raises VCM_OPEN or VCM_SHORT. -/
  | vcmCoilFault (n : Fin 16) (short : Bool)
  /-- SLOT_SAMPLE_INSTANT (R240): A slot's sample instant arrives, triggering its conversions and latching its inputs. `k`: the count of the tick or wedge; `ext`: the values of ports bound to monitors, setpoints, the speed profile or a collimator base; `prof`: the acceleration of the profile SLFF names; `same`: in the cycle in which the running conversions started. -/
  | slotSampleInstant (n : Fin 96) (k : Nat) (ext : List Int) (prof : Int) (same : Bool)
  /-- SLOT_DISPATCH (R237): A free lane takes the first eligible slot and runs, repeats or faults its sample after examining input tags. `par`: a memory error the sample meets (0 microcode, 1 coefficient, 2 context; both copies; the word); `capLost`: the capture port cannot take the sample's record. -/
  | slotDispatch (lane : Fin 4) (par : Option (Fin 3 × Bool × Nat)) (capLost : Bool)
  /-- SLOT_RUN_WRITE (R246): Writing SLCTRL.run 0 to 1 clears context and starts the slot; 1 to 0 stops it at the end of its sample. -/
  | slotRunWrite (r : Requester) (n : Fin 96) (v : Word)
  /-- SLOT_CONFIG_WRITE (R247): A write to slot configuration is applied while stopped or in fault, otherwise refused with SLOT_CFGBUSY. `w`: the register at 0x44 + 4w. -/
  | slotConfigWrite (r : Requester) (n : Fin 96) (w : Fin 13) (v : Word)
  /-- SLCDATA_WRITE (R254): A write to SLCDATA sets the selected coefficient word at the next sample start, or holds it in a batch. -/
  | slcdataWrite (r : Requester) (n : Fin 96) (v : Word)
  /-- SLCSEL_WRITE (R254): Writing SLCSEL.batch to 0 applies the held coefficient writes together at the next sample start. -/
  | slcselWrite (r : Requester) (n : Fin 96) (v : Word)
  /-- SLBANK_SWAP (R255): Writing SLBANK.swap toggles the active coefficient bank at the next sample start. -/
  | slbankSwap (r : Requester) (n : Fin 96)
  /-- TUNE_RELAY (R259): SLTUNE.mode 1 starts relay tuning on o0. -/
  | tuneRelay (r : Requester) (n : Fin 96) (v : Word)
  /-- TUNE_SINE (R260): SLTUNE.mode 2 starts sine injection. -/
  | tuneSine (r : Requester) (n : Fin 96) (v : Word)
  /-- TUNE_CHIRP (R260): SLTUNE.mode 3 starts chirp injection. -/
  | tuneChirp (r : Requester) (n : Fin 96) (v : Word)
  /-- TUNE_PRBS (R260): SLTUNE.mode 4 starts PRBS injection. -/
  | tunePrbs (r : Requester) (n : Fin 96) (v : Word)
  /-- TUNE_OFF (R258): SLTUNE.mode 0 ends the running tuning helper at the next sample start. -/
  | tuneOff (r : Requester) (n : Fin 96) (v : Word)
  /-- SLOT_TUNEDONE (R259): Relay measurement ends after its periods or 4,096 samples without a switch and raises SLOT_TUNEDONE. -/
  | slotTunedone (n : Fin 96)
  /-- SLOT_CAPDONE (R261): Capture reaches SLCAPLEN records, ends the mode and raises SLOT_CAPDONE. -/
  | slotCapdone (n : Fin 96)
  /-- EBMCHI_WRITE (R264): A write to EBMCHI commits the 64-bit microcode word to both copies and advances EBMCSEL. -/
  | ebmchiWrite (r : Requester) (v : Word)
  /-- SLXDATA_WRITE (R266): A write to SLXDATA sets the selected context word, subject to R247, and advances SLXSEL. -/
  | slxdataWrite (r : Requester) (n : Fin 96) (v : Word)
  /-- LOOP_LOAD_WINDOW (R264): At the end of each 10 ms the engine load is recorded and LOOP_OVERLOAD is raised above 75 %. -/
  | loopLoadWindow
  /-- MC_NOP (R250): Microcode NOP does nothing for one cycle. -/
  | mcNop (n : Fin 96)
  /-- MC_LDI (R250): Microcode LDI loads an immediate into a data register. -/
  | mcLdi (n : Fin 96) (d : Fin 16) (imm : Fin 16777216)
  /-- MC_MOV (R250): Microcode MOV copies a data register. -/
  | mcMov (n : Fin 96) (d a : Fin 16)
  /-- MC_IN (R250): Microcode IN reads a latched input port. -/
  | mcIn (n : Fin 96) (d : Fin 16) (a : Fin 6)
  /-- MC_OUT (R243): Microcode OUT applies a value to an output port at once. -/
  | mcOut (n : Fin 96) (d : Fin 2) (a : Fin 16)
  /-- MC_LDS (R250): Microcode LDS loads a state word. -/
  | mcLds (n : Fin 96) (d : Fin 16) (w : Fin 64)
  /-- MC_STS (R250): Microcode STS stores a state word. -/
  | mcSts (n : Fin 96) (w : Fin 64) (a : Fin 16)
  /-- MC_LDC (R250): Microcode LDC loads a coefficient. -/
  | mcLdc (n : Fin 96) (d : Fin 16) (c : Fin 64)
  /-- MC_LDA (R250): Microcode LDA loads an accumulator from a data register. -/
  | mcLda (n : Fin 96) (d : Fin 4) (a : Fin 16)
  /-- MC_LDSA (R250): Microcode LDSA loads an accumulator from two state words. The index is 2w. -/
  | mcLdsa (n : Fin 96) (d : Fin 4) (w : Fin 32)
  /-- MC_STSA (R250): Microcode STSA stores an accumulator into two state words. The index is 2w. -/
  | mcStsa (n : Fin 96) (w : Fin 32) (a : Fin 4)
  /-- MC_ADD (R250): Microcode ADD adds two registers with saturation. -/
  | mcAdd (n : Fin 96) (d a b : Fin 16)
  /-- MC_SUB (R250): Microcode SUB subtracts with saturation. -/
  | mcSub (n : Fin 96) (d a b : Fin 16)
  /-- MC_NEG (R250): Microcode NEG negates with saturation. -/
  | mcNeg (n : Fin 96) (d a : Fin 16)
  /-- MC_ABS (R250): Microcode ABS takes the absolute value with saturation. -/
  | mcAbs (n : Fin 96) (d a : Fin 16)
  /-- MC_MIN (R250): Microcode MIN takes the smaller of two registers. -/
  | mcMin (n : Fin 96) (d a b : Fin 16)
  /-- MC_MAX (R250): Microcode MAX takes the larger of two registers. -/
  | mcMax (n : Fin 96) (d a b : Fin 16)
  /-- MC_CLP (R250): Microcode CLP clips a register to a coefficient magnitude. -/
  | mcClp (n : Fin 96) (d a : Fin 16) (c : Fin 64)
  /-- MC_SHL (R250): Microcode SHL shifts left with saturation. -/
  | mcShl (n : Fin 96) (d a : Fin 16) (sh : Fin 16)
  /-- MC_SHR (R250): Microcode SHR shifts right with rounding. -/
  | mcShr (n : Fin 96) (d a : Fin 16) (sh : Fin 16)
  /-- MC_MUL (R250): Microcode MUL multiplies two fractions with rounding and saturation. -/
  | mcMul (n : Fin 96) (d a b : Fin 16) (sh : Fin 16)
  /-- MC_DIV (R250): Microcode DIV divides two fractions, with defined results for a zero divisor. -/
  | mcDiv (n : Fin 96) (d a b : Fin 16)
  /-- MC_CLR (R250): Microcode CLR clears an accumulator. -/
  | mcClr (n : Fin 96) (d : Fin 4)
  /-- MC_MAC (R250): Microcode MAC adds a register times a coefficient to an accumulator. -/
  | mcMac (n : Fin 96) (d : Fin 4) (a : Fin 16) (c : Fin 64)
  /-- MC_MSU (R250): Microcode MSU subtracts a register times a coefficient from an accumulator. -/
  | mcMsu (n : Fin 96) (d : Fin 4) (a : Fin 16) (c : Fin 64)
  /-- MC_MACX (R250): Microcode MACX adds the product of two registers to an accumulator. -/
  | mcMacx (n : Fin 96) (d : Fin 4) (a b : Fin 16)
  /-- MC_ADDA (R250): Microcode ADDA adds two accumulators. -/
  | mcAdda (n : Fin 96) (d b : Fin 4)
  /-- MC_RND (R250): Microcode RND rounds a shifted accumulator into a data register. -/
  | mcRnd (n : Fin 96) (d : Fin 16) (a : Fin 4) (sh : Fin 16)
  /-- MC_BR (R250): Microcode BR branches relative to the program start when its condition holds. -/
  | mcBr (n : Fin 96) (dest : Fin 16384) (cond : Fin 8) (a : Fin 16)
  /-- MC_END (R250): Microcode END ends the sample. -/
  | mcEnd (n : Fin 96)
  /-- MC_FAULT (R245): Microcode FAULT ends the sample and puts the slot in fault with cause 1. -/
  | mcFault (n : Fin 96)
  /-- MC_FF (R257): Microcode FF reads the slot's latched feed-forward value. -/
  | mcFf (n : Fin 96) (d : Fin 16)
  /-- MC_INJ (R250): Microcode INJ reads the tuning injection value. -/
  | mcInj (n : Fin 96) (d : Fin 16)
  /-- MC_EVT (R250): Microcode EVT raises SLOT_USERn. -/
  | mcEvt (n : Fin 96) (e : Fin 4)
  /-- ADD (R282): Fleran ADD writes A + B. -/
  | add (c : Fin 9) (x : Pipe) (rd ra rb : Fin 32)
  /-- SUB (R282): Fleran SUB writes A − B. -/
  | sub (c : Fin 9) (x : Pipe) (rd ra rb : Fin 32)
  /-- AND (R282): Fleran AND writes A and B. -/
  | and (c : Fin 9) (x : Pipe) (rd ra rb : Fin 32)
  /-- OR (R282): Fleran OR writes A or B. -/
  | or (c : Fin 9) (x : Pipe) (rd ra rb : Fin 32)
  /-- XOR (R282): Fleran XOR writes A xor B. -/
  | xor (c : Fin 9) (x : Pipe) (rd ra rb : Fin 32)
  /-- ANDN (R282): Fleran ANDN writes A and not B. -/
  | andn (c : Fin 9) (x : Pipe) (rd ra rb : Fin 32)
  /-- SLL (R282): Fleran SLL shifts left by B[4:0]. -/
  | sll (c : Fin 9) (x : Pipe) (rd ra rb : Fin 32)
  /-- SRL (R282): Fleran SRL shifts right with zero fill. -/
  | srl (c : Fin 9) (x : Pipe) (rd ra rb : Fin 32)
  /-- SRA (R282): Fleran SRA shifts right with sign fill. -/
  | sra (c : Fin 9) (x : Pipe) (rd ra rb : Fin 32)
  /-- CLT (R282): Fleran CLT sets 1 if A is signed less than B. -/
  | clt (c : Fin 9) (x : Pipe) (rd ra rb : Fin 32)
  /-- CLTU (R282): Fleran CLTU sets 1 if A is unsigned less than B. -/
  | cltu (c : Fin 9) (x : Pipe) (rd ra rb : Fin 32)
  /-- MUL (R282): Fleran MUL writes the low word of A × B. -/
  | mul (c : Fin 9) (x : Pipe) (rd ra rb : Fin 32)
  /-- MULH (R282): Fleran MULH writes the high word of the signed product. -/
  | mulh (c : Fin 9) (x : Pipe) (rd ra rb : Fin 32)
  /-- MULHU (R282): Fleran MULHU writes the high word of the unsigned product. -/
  | mulhu (c : Fin 9) (x : Pipe) (rd ra rb : Fin 32)
  /-- DIV (R282): Fleran DIV divides signed, truncating toward zero. -/
  | div (c : Fin 9) (x : Pipe) (rd ra rb : Fin 32)
  /-- DIVU (R282): Fleran DIVU divides unsigned. -/
  | divu (c : Fin 9) (x : Pipe) (rd ra rb : Fin 32)
  /-- REM (R282): Fleran REM writes the signed remainder. -/
  | rem (c : Fin 9) (x : Pipe) (rd ra rb : Fin 32)
  /-- REMU (R282): Fleran REMU writes the unsigned remainder. -/
  | remu (c : Fin 9) (x : Pipe) (rd ra rb : Fin 32)
  /-- CLZ (R282): Fleran CLZ counts leading zero bits. -/
  | clz (c : Fin 9) (x : Pipe) (rd ra : Fin 32)
  /-- POPC (R282): Fleran POPC counts 1 bits. -/
  | popc (c : Fin 9) (x : Pipe) (rd ra : Fin 32)
  /-- BSWAP (R282): Fleran BSWAP reverses byte order. -/
  | bswap (c : Fin 9) (x : Pipe) (rd ra : Fin 32)
  /-- ADDI (R283): Fleran ADDI adds a sign-extended immediate. -/
  | addi (c : Fin 9) (x : Pipe) (rd ra : Fin 32) (v : BitVec 16)
  /-- ANDI (R283): Fleran ANDI ands a zero-extended immediate. -/
  | andi (c : Fin 9) (x : Pipe) (rd ra : Fin 32) (v : BitVec 16)
  /-- ORI (R283): Fleran ORI ors a zero-extended immediate. -/
  | ori (c : Fin 9) (x : Pipe) (rd ra : Fin 32) (v : BitVec 16)
  /-- XORI (R283): Fleran XORI xors a zero-extended immediate. -/
  | xori (c : Fin 9) (x : Pipe) (rd ra : Fin 32) (v : BitVec 16)
  /-- CLTI (R283): Fleran CLTI compares signed with an immediate. -/
  | clti (c : Fin 9) (x : Pipe) (rd ra : Fin 32) (v : BitVec 16)
  /-- CLTIU (R283): Fleran CLTIU compares unsigned with a sign-extended immediate. -/
  | cltiu (c : Fin 9) (x : Pipe) (rd ra : Fin 32) (v : BitVec 16)
  /-- SHI (R283): Fleran SHI shifts by an immediate amount and kind. -/
  | shi (c : Fin 9) (x : Pipe) (kind : Fin 3) (rd ra : Fin 32) (n : Fin 32)
  /-- LDHI (R283): Fleran LDHI loads an immediate into the upper half. -/
  | ldhi (c : Fin 9) (x : Pipe) (rd : Fin 32) (v : BitVec 16)
  /-- ADDPCH (R283): Fleran ADDPCH adds an upper-half immediate to pc. -/
  | addpch (c : Fin 9) (x : Pipe) (rd : Fin 32) (v : BitVec 16)
  /-- PREF (R283): Fleran PREF prefetches a cacheable line into the side buffer. -/
  | pref (c : Fin 9) (x : Pipe) (ra : Fin 32) (v : BitVec 16)
  /-- LB (R284): Fleran LB loads a sign-extended byte. -/
  | lb (c : Fin 9) (x : Pipe) (rd ra : Fin 32) (v : BitVec 16)
  /-- LBU (R284): Fleran LBU loads a zero-extended byte. -/
  | lbu (c : Fin 9) (x : Pipe) (rd ra : Fin 32) (v : BitVec 16)
  /-- LH (R284): Fleran LH loads a sign-extended halfword. -/
  | lh (c : Fin 9) (x : Pipe) (rd ra : Fin 32) (v : BitVec 16)
  /-- LHU (R284): Fleran LHU loads a zero-extended halfword. -/
  | lhu (c : Fin 9) (x : Pipe) (rd ra : Fin 32) (v : BitVec 16)
  /-- LW (R284): Fleran LW loads a word. -/
  | lw (c : Fin 9) (x : Pipe) (rd ra : Fin 32) (v : BitVec 16)
  /-- LWU (R284): Fleran LWU loads a word from the L2 or DRAM without touching L1D. -/
  | lwu (c : Fin 9) (x : Pipe) (rd ra : Fin 32) (v : BitVec 16)
  /-- SB (R284): Fleran SB stores a byte. -/
  | sb (c : Fin 9) (x : Pipe) (rs ra : Fin 32) (v : BitVec 16)
  /-- SH (R284): Fleran SH stores a halfword. -/
  | sh (c : Fin 9) (x : Pipe) (rs ra : Fin 32) (v : BitVec 16)
  /-- SW (R284): Fleran SW stores a word. -/
  | sw (c : Fin 9) (x : Pipe) (rs ra : Fin 32) (v : BitVec 16)
  /-- SWAP (R284): Fleran atomic SWAP exchanges a memory word. -/
  | swap (c : Fin 9) (x : Pipe) (rd ra rb : Fin 32)
  /-- AMOADD (R284): Fleran atomic AMOADD adds to a memory word. -/
  | amoadd (c : Fin 9) (x : Pipe) (rd ra rb : Fin 32)
  /-- AMOAND (R284): Fleran atomic AMOAND ands into a memory word. -/
  | amoand (c : Fin 9) (x : Pipe) (rd ra rb : Fin 32)
  /-- AMOOR (R284): Fleran atomic AMOOR ors into a memory word. -/
  | amoor (c : Fin 9) (x : Pipe) (rd ra rb : Fin 32)
  /-- CAS (R284): Fleran atomic CAS compares and swaps a memory word. -/
  | cas (c : Fin 9) (x : Pipe) (rd ra rb : Fin 32)
  /-- BEQ (R285): Fleran BEQ branches if A equals B. -/
  | beq (c : Fin 9) (x : Pipe) (ra rb : Fin 32) (off : BitVec 16)
  /-- BNE (R285): Fleran BNE branches if A differs from B. -/
  | bne (c : Fin 9) (x : Pipe) (ra rb : Fin 32) (off : BitVec 16)
  /-- BLT (R285): Fleran BLT branches if A is signed less than B. -/
  | blt (c : Fin 9) (x : Pipe) (ra rb : Fin 32) (off : BitVec 16)
  /-- BGE (R285): Fleran BGE branches if A is signed at least B. -/
  | bge (c : Fin 9) (x : Pipe) (ra rb : Fin 32) (off : BitVec 16)
  /-- BLTU (R285): Fleran BLTU branches if A is unsigned less than B. -/
  | bltu (c : Fin 9) (x : Pipe) (ra rb : Fin 32) (off : BitVec 16)
  /-- BGEU (R285): Fleran BGEU branches if A is unsigned at least B. -/
  | bgeu (c : Fin 9) (x : Pipe) (ra rb : Fin 32) (off : BitVec 16)
  /-- J (R285): Fleran J jumps. -/
  | j (c : Fin 9) (x : Pipe) (off : BitVec 26)
  /-- JAL (R285): Fleran JAL jumps and links into g31. -/
  | jal (c : Fin 9) (x : Pipe) (off : BitVec 26)
  /-- JALR (R285): Fleran JALR jumps to a register plus offset and links. -/
  | jalr (c : Fin 9) (x : Pipe) (rd ra : Fin 32) (v : BitVec 16)
  /-- RDC (R286): Fleran RDC reads a control register. -/
  | rdc (c : Fin 9) (x : Pipe) (rd : Fin 32) (k : Fin 16)
  /-- WRC (R286): Fleran WRC writes a control register. -/
  | wrc (c : Fin 9) (x : Pipe) (ra : Fin 32) (k : Fin 16)
  /-- TRET (R296): Fleran TRET returns from the innermost trap frame. -/
  | tret (c : Fin 9) (x : Pipe)
  /-- TRAP (R296): Fleran TRAP raises a TRAP exception into the next trap frame, or a double fault at depth 2. -/
  | trap (c : Fin 9) (x : Pipe) (v : BitVec 16)
  /-- INV (R305): Fleran INV invalidates all of L1I, L1D or, in keeper mode, the L2. -/
  | inv (c : Fin 9) (x : Pipe) (n : Fin 3)
  /-- HALT (R296): Fleran HALT stops the core, raises CORE_HALTED and holds it. -/
  | halt (c : Fin 9) (x : Pipe)
  /-- POST (R288): Fleran POST copies a descriptor into an engine queue and returns posted, full or refused. -/
  | post (c : Fin 9) (x : Pipe) (rd ra : Fin 32) (q : BitVec 11)
  /-- TAKE (R289): Fleran TAKE moves the oldest entry of a host command queue to memory, or reports empty or unassigned. -/
  | take (c : Fin 9) (x : Pipe) (rd ra : Fin 32) (q : Fin 128)
  /-- GIVE (R290): Fleran GIVE copies a completion record to a host completion queue, or reports full or unassigned. -/
  | give (c : Fin 9) (x : Pipe) (rd ra : Fin 32) (q : Fin 128)
  /-- WAIT (R291): Fleran WAIT stops issue until a lane, queue or time condition holds. -/
  | wait (c : Fin 9) (x : Pipe) (rd ra rb : Fin 32) (kind : Fin 3)
  /-- WAIT_WAKE (R291): A waiting core's condition comes to hold and WAIT returns 0. `cycles`: cycles waited. -/
  | waitWake (c : Fin 9) (cycles : Nat)
  /-- WAIT_TIMEOUT (R291): CWAITMAX cycles pass in WAIT without the condition and WAIT returns 1. `cycles`: cycles waited. -/
  | waitTimeout (c : Fin 9) (cycles : Nat)
  /-- STAMP (R292): Fleran STAMP loads one TIMENS sample into a register pair. -/
  | stamp (c : Fin 9) (x : Pipe) (rd : Fin 32)
  /-- RAISE (R293): Fleran RAISE sets CORE_USERn in the core's own EVRAW. -/
  | raise (c : Fin 9) (x : Pipe) (n : Fin 8)
  /-- FENCE (R293): Fleran FENCE waits until all its stores and all prior engine and host buffer writes are visible. -/
  | fence (c : Fin 9) (x : Pipe)
  /-- YIELD (R293): Fleran YIELD stops issue for a number of cycles. -/
  | yield (c : Fin 9) (x : Pipe) (ra : Fin 32)
  /-- YIELD_END (R293): A YIELD's cycle count expires and issue resumes. `cycles`: cycles spent. -/
  | yieldEnd (c : Fin 9) (cycles : Nat)
  /-- INTERRUPT (R297): An enabled pending lane is taken as an interrupt into the next trap frame at a commit boundary. `cycles`: cycles since the last commit. -/
  | interrupt (c : Fin 9) (cycles : Nat)
  /-- CORE_RESET (R312): Writing KCCTRL.reset resets the core, completing begun verbs, invalidating caches and aborting its slice-mover channels. `v`: the word written to KCCTRL. -/
  | coreReset (r : Requester) (n : Fin 8) (v : Word)
  /-- CORE_HOLD (R311): Writing KCCTRL.hold stops the core at the next commit boundary with state kept, or lets it continue. `v`: the word written to KCCTRL. -/
  | coreHold (r : Requester) (n : Fin 8) (v : Word)
  /-- CORE_RUN (R311): Writing KCCTRL.run 0 to 1 starts a ready core at KCSTART. `v`: the word written to KCCTRL. -/
  | coreRun (r : Requester) (n : Fin 8) (v : Word)
  /-- SAMPLING_ENABLE (R308): Writing CSMPCTL.enable 1 seeds the sampling LFSR, resets CSMPHEAD and clears CSMPLOST. `v`: the word written to CSMPCTL. -/
  | samplingEnable (r : Requester) (c : Fin 9) (v : Word)
  /-- HEARTBEAT_TIMEOUT (R323): A stock core without a heartbeat for 100 ms is reset, checked and restarted by the keeper, or left stopped after three faults. `ok`: the SRAM segment checks against phash. -/
  | heartbeatTimeout (n : Fin 8) (ok : Bool)
  /-- TRIGGER_EDGE (R330): A filtered trigger edge is captured and set pending with TIME_TRIGn, or dropped with TIME_TRIGDROP. `held`: how long the input has held its new level, in ns. -/
  | triggerEdge (n : Fin 4) (rising : Bool) (held : Nat)
  /-- TRGACK_WRITE (R330): Writing TRGACK bit n clears the pending trigger of input n. -/
  | trgackWrite (r : Requester) (v : Word)
  /-- TRIGGER_TAKE (R333): The stock recorder takes a pending trigger and runs its action, or refuses it with a class 3 crumb. -/
  | triggerTake (n : Fin 4)
  /-- TIMED_SESSION_END (R333): TIMENS reaches a timed trigger's capture time plus duration and the session's end record is posted. -/
  | timedSessionEnd
  /-- AUTO_FLUSH (R324): The flushint interval elapses while writes arrive and the stock recorder requests a flush. -/
  | autoFlush
  /-- IDLE_PS3 (R324): idleps3 seconds pass without commands and the stock recorder enters PS3. -/
  | idlePs3
  /-- ROI_FRAME_READY (R338): A staged frame's LBAs are final and Core[5] posts the slice-mover gather of its rectangle. -/
  | roiFrameReady
  /-- EXTENSION_REPLY (R341): A kind 2 reply arrives from the extension and the forwarded command is completed from it. -/
  | extensionReply
  /-- FORWARD_TIMEOUT (R341): A forwarded command without reply for 5 s completes with the aborted status. `tag`: the reply tag of the forwarded command. -/
  | forwardTimeout (tag : Nat)
  /-- TCEPOCHHI_WRITE (R335): A write to TCEPOCHHI arms a timecode set for commit at the next window-start strobe. -/
  | tcepochhiWrite (r : Requester) (v : Word)
  /-- WINDOW_START_STROBE (R474): The angle source reaches 2,048 marks before a window and TIMENS and the timecode are sampled for it. -/
  | windowStartStrobe
  /-- PCIE_LINKUP (R343): The PCIe link trains and PCIE_LINKUP is raised. the code of PCLINK.speed and the lanes. -/
  | pcieLinkup (speed : Fin 6) (width : Fin 9)
  /-- PCIE_LINKDOWN (R382): The PCIe link goes down, acting as the reset of R382. -/
  | pcieLinkdown
  /-- FUNCTION_LEVEL_RESET (R382): A Function Level Reset stops fetching, empties command queues, discards taken slots and resets the controller. -/
  | functionLevelReset
  /-- HOT_RESET (R382): A hot reset acts as R382 and also resets configuration space. -/
  | hotReset
  /-- LINK_DISABLE (R382): A link disable acts as R382 and also resets configuration space. -/
  | linkDisable
  /-- PERST_DEASSERT (R508): PERST_N rising lets the link train and starts the 120 ms bound to configuration ready. -/
  | perstDeassert
  /-- CC_ENABLE (R346): CC.EN written 1 lets CSTS.RDY set once NVCTRL.ready is 1 and CC.CSS is valid. CC.CSS, and the entries of the admin queues less one. -/
  | ccEnable (css : Fin 8) (asq : Fin 4096) (acq : Fin 4096)
  /-- CC_DISABLE (R383): CC.EN written 1 to 0 carries out steps 1 to 4 of R382. -/
  | ccDisable
  /-- NORMAL_SHUTDOWN (R383): CC.SHN 0b01 drains accepted writes, writes a checkpoint and state record and sets SHST. -/
  | normalShutdown
  /-- ABRUPT_SHUTDOWN (R383): CC.SHN 0b10 sets SHST within 10 ms while draining continues. -/
  | abruptShutdown
  /-- NVCTRL_READY (R346): A job writes NVCTRL.ready, allowing CSTS.RDY. `v`: the word written to NVCTRL. -/
  | nvctrlReady (r : Requester) (v : Word)
  /-- NVCTRL_CFS (R346): A job writes NVCTRL.cfs, setting CSTS.CFS. `v`: the word written to NVCTRL. -/
  | nvctrlCfs (r : Requester) (v : Word)
  /-- SQ_TAIL_DOORBELL (R384): A host writes a submission queue tail doorbell, accepted or answered as a violation. -/
  | sqTailDoorbell (q : Nat) (v : Word)
  /-- CQ_HEAD_DOORBELL (R384): A host writes a completion queue head doorbell, accepted or answered as a violation. -/
  | cqHeadDoorbell (q : Nat) (v : Word)
  /-- COMMAND_FETCH (R350): The controller fetches an entry from a submission queue in round-robin order unless 8,192 commands are outstanding. -/
  | commandFetch (q : Fin 65) (e : SqEntry)
  /-- WRITE_DATA_LANDED (R351): A write's data lies in the burst buffer with CRC-24 tags and the entry enters its command queue. `addr`: where the controller places the data. -/
  | writeDataLanded (slot : Fin 8192) (addr : Nat)
  /-- PARKED_WRITE_RESUME (R351): Burst buffer space frees and a parked write's data moves, letting its queue fetch again. `addr`: where the controller places the data. -/
  | parkedWriteResume (slot : Fin 8192) (addr : Nat)
  /-- COMPLETION_POSTED (R353): The controller moves read data and posts the completion queue entry and vector for a given record. -/
  | completionPosted (q : Fin 65)
  /-- PS4_WAKE (R31): An entry arriving in PS4 raises NVME_WAKE or SAS_WAKE and the keeper wakes the buffer and stock cores. -/
  | ps4Wake
  /-- PS4_IDLE_TIMEOUT (R31): One second with no command outstanding in PS4 returns the buffer to self-refresh and holds the job cores. -/
  | ps4IdleTimeout
  /-- DELETE_IO_SQ (R348): Admin opcode 0x00 deletes an I/O submission queue. -/
  | deleteIoSq
  /-- CREATE_IO_SQ (R348): Admin opcode 0x01 creates an I/O submission queue. -/
  | createIoSq
  /-- GET_LOG_PAGE (R378): Admin opcode 0x02 returns a supported log page. -/
  | getLogPage
  /-- DELETE_IO_CQ (R348): Admin opcode 0x04 deletes an I/O completion queue. -/
  | deleteIoCq
  /-- CREATE_IO_CQ (R348): Admin opcode 0x05 creates an I/O completion queue. -/
  | createIoCq
  /-- IDENTIFY (R355): Admin opcode 0x06 returns the Identify data of a supported CNS. -/
  | identify
  /-- ABORT (R355): Admin opcode 0x08 removes an untaken entry or reports that a taken command is not aborted. -/
  | abort
  /-- SET_FEATURES (R375): Admin opcode 0x09 sets a supported feature, including power state, timecode and recording profile. -/
  | setFeatures
  /-- GET_FEATURES (R375): Admin opcode 0x0A returns a feature in effect. -/
  | getFeatures
  /-- ASYNC_EVENT_REQUEST (R379): Admin opcode 0x0C places an asynchronous event request, completed when an event is reported. -/
  | asyncEventRequest
  /-- NAMESPACE_MANAGEMENT (R358): Admin opcode 0x0D creates or deletes a namespace, completing when its checkpoint is valid. -/
  | namespaceManagement
  /-- FIRMWARE_COMMIT (R567): Admin opcode 0x10 runs the full image check and arms activation for actions 1 and 2. -/
  | firmwareCommit
  /-- FIRMWARE_IMAGE_DOWNLOAD (R565): Admin opcode 0x11 delivers package blocks that are checked, erased into and programmed in the target slot. -/
  | firmwareImageDownload
  /-- DEVICE_SELF_TEST (R380): Admin opcode 0x14 starts a short or extended self-test or aborts one. `failed`: the first of the segments 3 to 6 that fails, 0 if none. -/
  | deviceSelfTest (failed : Nat)
  /-- NAMESPACE_ATTACHMENT (R359): Admin opcode 0x15 attaches or detaches a namespace under the single-writer rule. -/
  | namespaceAttachment
  /-- NVME_BAKE (R336): Admin opcode 0xC0 bakes the cartridge, or is refused with session-busy. -/
  | nvmeBake
  /-- NVME_SESSION (R326): Admin opcode 0xC4 starts or ends a session. -/
  | nvmeSession
  /-- CARTRIDGE (R355): Admin opcode 0xC8 loads a cartridge, or drains and ejects it. `ins`: a cartridge just put into the loader. -/
  | cartridge (ins : Option Cartridge)
  /-- NVME_FORWARDED_ADMIN (R341): Admin opcodes 0xD0 to 0xDF are forwarded to the extension or refused. -/
  | nvmeForwardedAdmin
  /-- FLUSH (R367): I/O Flush requests sealnow and completes when all earlier completed writes are flushed under R116. -/
  | flush (q : Fin 65)
  /-- WRITE (R362): I/O Write is checked in order and placed into the burst buffer and tray builder or refused with a status. -/
  | write (q : Fin 65)
  /-- READ (R364): I/O Read returns data from the buffer or medium, zeros above the write pointer, or Unrecovered Read Error. -/
  | read (q : Fin 65)
  /-- VERIFY (R356): I/O Verify reads the LBAs with verify descriptors and moves no data. -/
  | verify (q : Fin 65)
  /-- ZONE_MGMT_SEND (R363): I/O Zone Management Send closes, finishes or opens zones and refuses reset, offline and descriptor extension. -/
  | zoneMgmtSend (q : Fin 65)
  /-- ZONE_MGMT_RECEIVE (R361): I/O Zone Management Receive reports zones. -/
  | zoneMgmtReceive (q : Fin 65)
  /-- ZONE_APPEND (R362): I/O Zone Append places data at the zone's write pointer and returns the first LBA written. -/
  | zoneAppend (q : Fin 65)
  /-- ROI_PULL (R357): I/O opcode 0x82 delivers whole region-of-interest rectangles up to 16 MiB. -/
  | roiPull (q : Fin 65)
  /-- NVME_FORWARDED_IO (R341): I/O opcodes 0xD0 to 0xDF are forwarded to the extension or refused. -/
  | nvmeForwardedIo (q : Fin 65)
  /-- SAS_LINKUP (R387): A SAS phy's link comes up after SNW-3 negotiation. `rate`: the code of SAPHYn.rate. -/
  | sasLinkup (phy : Fin 2) (rate : Fin 4)
  /-- SAS_LINKDOWN (R405): A SAS phy's link goes down, starting the I_T nexus loss time. -/
  | sasLinkdown (phy : Fin 2)
  /-- SAS_HARDRESET (R405): A hard reset received on a phy acts as I_T NEXUS RESET for every nexus of its port and resets their mode pages. -/
  | sasHardreset (phy : Fin 2)
  /-- I_T_NEXUS_LOSS (R405): A link loss beyond the I_T nexus loss time acts as I_T NEXUS RESET for the port's nexuses. -/
  | iTNexusLoss (phy : Fin 2)
  /-- SAS_COMMAND_FRAME (R389): A COMMAND frame is received and queued, or answered with TASK SET FULL or a violation status. -/
  | sasCommandFrame (port : Fin 2) (f : CmdFrame)
  /-- XFER_RDY_SEND (R393): With burst-buffer space reserved the controller sends the next XFER_RDY of a data-out command. -/
  | xferRdySend (slot : Fin 8192)
  /-- SAS_DATA_FRAME (R393): A DATA frame is received into reserved space, or discarded or aborts the command as a violation. `bad`: its CRC or length is bad; `addr`: where the controller places the data of the command once it is complete. -/
  | sasDataFrame (port : Fin 2) (init : Nat) (tag : Nat) (offset : Nat) (data : List Byte) (bad : Bool) (addr : Nat)
  /-- SAS_DATA_TIMEOUT (R406): No DATA within the initiator response timeout ends the command with ABORTED COMMAND. -/
  | sasDataTimeout (slot : Fin 8192)
  /-- RESPONSE_SEND (R391): For a given completion record the controller sends DATA and RESPONSE frames and ends the command on acknowledgement. -/
  | responseSend (port : Fin 2)
  /-- ABORT_TASK (R404): Task management ABORT TASK removes or discards one tagged command. `ref`: the tag of the task. -/
  | abortTask (port : Fin 2) (init : Nat) (tag : Nat) (ref : Nat)
  /-- ABORT_TASK_SET (R404): Task management ABORT TASK SET removes or discards the commands of the nexus and LUN. -/
  | abortTaskSet (port : Fin 2) (init : Nat) (tag : Nat) (lun : Nat)
  /-- CLEAR_TASK_SET (R404): Task management CLEAR TASK SET removes or discards the commands of the nexus and LUN. -/
  | clearTaskSet (port : Fin 2) (init : Nat) (tag : Nat) (lun : Nat)
  /-- LOGICAL_UNIT_RESET (R404): Task management LOGICAL UNIT RESET clears the LUN's commands on all nexuses and ends its ROI setups. -/
  | logicalUnitReset (port : Fin 2) (init : Nat) (tag : Nat) (lun : Nat)
  /-- I_T_NEXUS_RESET (R404): Task management I_T NEXUS RESET clears the nexus's commands on all LUNs and sets a unit attention. -/
  | iTNexusReset (port : Fin 2) (init : Nat) (tag : Nat)
  /-- QUERY_TASK (R404): Task management QUERY TASK reports whether a tag is outstanding. `ref`: the tag of the task. -/
  | queryTask (port : Fin 2) (init : Nat) (tag : Nat) (ref : Nat)
  /-- TEST_UNIT_READY (R394): SCSI TEST UNIT READY reports readiness. -/
  | testUnitReady (port : Fin 2)
  /-- REQUEST_SENSE (R394): SCSI REQUEST SENSE returns descriptor-format sense data. -/
  | requestSense (port : Fin 2)
  /-- INQUIRY (R394): SCSI INQUIRY returns standard data or a supported VPD page. -/
  | inquiry (port : Fin 2)
  /-- START_STOP_UNIT (R400): SCSI START STOP UNIT commands a power state, or loads or ejects the cartridge. `ins`: a cartridge just put into the loader. -/
  | startStopUnit (port : Fin 2) (ins : Option Cartridge)
  /-- SEND_DIAGNOSTIC (R394): SCSI SEND DIAGNOSTIC starts a short or extended self-test or aborts one. `failed`: the first of the segments 3 to 6 that fails, 0 if none. -/
  | sendDiagnostic (port : Fin 2) (failed : Nat)
  /-- READ_10 (R397): SCSI READ (10) returns data, zeros above the write pointer, or unrecovered-data. -/
  | read_10 (port : Fin 2)
  /-- READ_16 (R397): SCSI READ (16) returns data, zeros above the write pointer, or unrecovered-data. -/
  | read_16 (port : Fin 2)
  /-- WRITE_10 (R397): SCSI WRITE (10) is checked in the order of R362 and placed or refused. -/
  | write_10 (port : Fin 2)
  /-- WRITE_16 (R397): SCSI WRITE (16) is checked in the order of R362 and placed or refused. -/
  | write_16 (port : Fin 2)
  /-- VERIFY_10 (R394): SCSI VERIFY (10) verifies the LBAs with BYTCHK 0. -/
  | verify_10 (port : Fin 2)
  /-- VERIFY_16 (R394): SCSI VERIFY (16) verifies the LBAs with BYTCHK 0. -/
  | verify_16 (port : Fin 2)
  /-- SYNCHRONIZE_CACHE_10 (R399): SCSI SYNCHRONIZE CACHE (10) flushes the whole device. -/
  | synchronizeCache_10 (port : Fin 2)
  /-- SYNCHRONIZE_CACHE_16 (R399): SCSI SYNCHRONIZE CACHE (16) flushes the whole device. -/
  | synchronizeCache_16 (port : Fin 2)
  /-- WRITE_BUFFER (R566): SCSI WRITE BUFFER downloads package blocks in mode 0x0E or activates in mode 0x0F. -/
  | writeBuffer (port : Fin 2)
  /-- LOG_SENSE (R394): SCSI LOG SENSE returns a supported log page. -/
  | logSense (port : Fin 2)
  /-- MODE_SELECT_10 (R394): SCSI MODE SELECT (10) changes the changeable fields of supported mode pages. -/
  | modeSelect_10 (port : Fin 2)
  /-- MODE_SENSE_10 (R394): SCSI MODE SENSE (10) returns supported mode pages. -/
  | modeSense_10 (port : Fin 2)
  /-- CLOSE_ZONE (R394): SCSI CLOSE ZONE closes one zone or all. -/
  | closeZone (port : Fin 2)
  /-- FINISH_ZONE (R394): SCSI FINISH ZONE finishes a zone into Read Only. -/
  | finishZone (port : Fin 2)
  /-- OPEN_ZONE (R394): SCSI OPEN ZONE opens a zone within the 64-zone limit. -/
  | openZone (port : Fin 2)
  /-- RESET_WRITE_POINTER (R396): SCSI RESET WRITE POINTER is refused with reset-refused or full-zone. -/
  | resetWritePointer (port : Fin 2)
  /-- REPORT_ZONES (R396): SCSI REPORT ZONES reports zone conditions and write pointers. -/
  | reportZones (port : Fin 2)
  /-- READ_CAPACITY_16 (R394): SCSI READ CAPACITY (16) returns the partition's last LBA and block size. -/
  | readCapacity_16 (port : Fin 2)
  /-- REPORT_LUNS (R394): SCSI REPORT LUNS lists the logical units. -/
  | reportLuns (port : Fin 2)
  /-- REPORT_SUPPORTED_OPCODES (R394): SCSI REPORT SUPPORTED OPERATION CODES lists the supported commands. -/
  | reportSupportedOpcodes (port : Fin 2)
  /-- SAS_BAKE (R395): Vendor command 0xC0 bakes the cartridge. -/
  | sasBake (port : Fin 2)
  /-- PARTITION (R395): Vendor command 0xC1 creates, deletes, attaches, detaches or reports partitions. -/
  | partition (port : Fin 2)
  /-- SAS_SESSION (R395): Vendor command 0xC4 starts or ends a session. -/
  | sasSession (port : Fin 2)
  /-- RECORDING_PROFILE (R325): Vendor command 0xC5 gets or sets the parameter block. -/
  | recordingProfile (port : Fin 2)
  /-- TIMECODE (R373): Vendor command 0xC6 gets or sets the timecode base and epoch. -/
  | timecode (port : Fin 2)
  /-- ROI_SETUP (R398): Vendor command 0xCA holds a pull's parameters for the nexus and LUN. -/
  | roiSetup (port : Fin 2)
  /-- ROI_READ (R398): Vendor command 0xCB delivers whole rectangles of a held pull. -/
  | roiRead (port : Fin 2)
  /-- SAS_FORWARDED (R341): Vendor commands 0xD0 to 0xDF are forwarded to the extension or refused. -/
  | sasForwarded (port : Fin 2)
  /-- SLICE_CHANNEL_START (R424): The next slice-mover channel starts, is checked and runs its bursts or is refused with code 3. -/
  | sliceChannelStart
  /-- SLICE_CHANNEL_DONE (R427): A slice-mover channel's last write leaves the engine and its status record and event are written. Of an aborted channel, or one whose read failed (1 buffer, 2 on-chip memory), `bursts` were completed. -/
  | sliceChannelDone (bursts : Nat) (err : Fin 3)
  /-- SMABORT_WRITE (R428): A write to SMABORT aborts a queued or running channel with code 1, or is refused for another core's channel. -/
  | smabortWrite (r : Requester) (v : Word)
  /-- HASH_MESSAGE_START (R431): The hash engine starts the next queued message. -/
  | hashMessageStart
  /-- HASH_MESSAGE_DONE (R433): A hash message ends, writing the digest or comparing it, then its status. `err` as for a channel, with the bytes hashed before it. -/
  | hashMessageDone (err : Fin 3) (done : Nat)
  /-- DCTRAIN_GO (R419): Writing DCTRAIN.go runs training bursts on a channel, as a retraining step if the channel is in service. -/
  | dctrainGo (r : Requester) (v : Word)
  /-- TRAIN_DONE (R419): A training run ends, DCCMP is recorded and BUF_TRAINDONE is raised. -/
  | trainDone (fail : Fin 262144) (errors : Word)
  /-- RT_PORT_PANIC (R417): A real-time port's FIFO crosses its threshold, entering panic and raising BUF_PANIC. The FIFO's level, and for a feeder whether its beam has a block due or running. -/
  | rtPortPanic (p : Fin 97) (level : Fin 32769) (due : Bool)
  /-- LNREARM_WRITE (R441): A write to LNREARM re-arms a lane, sending an MSI-X message if it is still pending. `hi`: LNREARM1 (lanes 32 to 63). -/
  | lnrearmWrite (r : Requester) (hi : Bool) (v : Word)
  /-- CRSEL_WRITE (R448): A write to CRSEL latches the selected crumb entry into CRDATA0 to CRDATA7. -/
  | crselWrite (r : Requester) (v : Word)
  /-- CRSWCMD_WRITE (R449): A write to CRSWCMD commits a class 3 crumb with the requester's detail words. -/
  | crswcmdWrite (r : Requester) (v : Word)
  /-- CRUMB_ENTRY_WRITE (R446): The event unit writes the next queued crumb as a new entry, coalesces it in flood, and mirrors it. -/
  | crumbEntryWrite
  /-- CRUMB_INTERVAL_END (R447): At the end of each 1-ms interval the log enters or leaves the flood state by its crumb count. -/
  | crumbIntervalEnd
  /-- PPS_EDGE (R467): A filtered PPS_IN edge is captured and acts as candidate, confirmation, update, step or extra pulse by state. `held`: how long the input has held its new level, in ns; the first transition lies that far back. -/
  | ppsEdge (rising : Bool) (held : Nat)
  /-- PPS_MISSING (R468): No edge within the window of the expected second counts a missing pulse and may move the state to holdover or acquiring. -/
  | ppsMissing
  /-- TIME_LOAD_NOW (R470): TMCTRL command 1 sets TIMENS to TMSET at the next time tick, or is refused. -/
  | timeLoadNow (r : Requester)
  /-- TIME_LOAD_AT_EDGE (R470): TMCTRL command 2 arms a load of TMSET at the next edge taken, or is refused. -/
  | timeLoadAtEdge (r : Requester)
  /-- TIME_LOAD_CANCEL (R470): TMCTRL command 3 cancels an armed load. -/
  | timeLoadCancel (r : Requester)
  /-- TMRATE_WRITE (R464): A write to TMRATE sets the rate correction and integrator, clamped to ±100 ppm. -/
  | tmrateWrite (r : Requester) (v : Word)
  /-- RING_SYNC_FRAME (R471): A sync frame arrives, updating the station's time and being forwarded with its correction. `source`: TIMENS of the source at departure; `corr`: the correction as received, in 1/65,536 ns; `residence`: residence time here in 1/65,536 ns. -/
  | ringSyncFrame (source : Nat) (corr : Int) (residence : Nat)
  /-- REFERENCE_FAULT (R462): REFIN lost or a core PLL unlocked holds the device in reset and sets TMSTAT.refbad. -/
  | referenceFault
  /-- LINK_PLL_UNLOCK (R462): PLL_PCIE, PLL_SAS or PLL_PAIR losing lock takes its link down and raises TIME_PLLUNLOCK. `pll`: 0 PLL_PCIE, 1 PLL_SAS, 2 PLL_PAIR. -/
  | linkPllUnlock (pll : Fin 3)
  /-- GATHER_LATCH (R478): After BCALCTRL.blocks blocks a beam's gatherer latches its statistics and the background corrections follow. the statistics of R478 (`beta` of a read-after-write gather only), the mean magnitudes under +1/64 and −1/64 of the phase dither on read and on trailing-spot blocks, bytes 4 to 10 of the live entry as row 5 adapts them, and a row of the read dither with its means under +a and −a. -/
  | gatherLatch (b : Fin 48) (soft1 soft0 iter : Fin 65536) (beta : Option Int) (phase draw : Option (Nat × Nat)) (adapt : List Byte) (dith : Option (Fin 3 × Nat × Nat))
  /-- HBGREQ_GO (R481): The keeper posts a background step on a head by writing HBGREQ.go. `v`: the word written to HBGREQ. -/
  | hbgreqGo (r : Requester) (h : Fin 4) (v : Word)
  /-- BG_STEP_GRANT (R481): At the start of window W−1 the head grants a pending step for window W when no foreground work needs it. `pos`: the tray position of the window W. -/
  | bgStepGrant (h : Fin 4) (pos : Nat)
  /-- BG_STEP_END (R482): A granted step's window ends, or a fault ends it, and HBGRES and HEAD_BGDONE report the result. `p`, `n`: mean clock-mark peak of the two halves. -/
  | bgStepEnd (h : Fin 4) (fault : Bool) (p n : Fin 65536)
  /-- KEEP_STARVED (R484): A due step not granted within 10 minutes becomes starved and the keeper raises KEEP_STARVED. -/
  | keepStarved (h : Fin 4)
  /-- MBGSKIP_WRITE (R484): A write of MBGSKIP.skip requests one forced window for starved steps. -/
  | mbgskipWrite (r : Requester) (v : Word)
  /-- AGEING_MEASUREMENT (R487): The keeper measures an ageing quantity on its schedule and updates the ledger entry's health. `e`: the ledger entry; `slope`: an emitter's slope, else its threshold; `lpmax`: for an emitter whose bias and slope would exceed 90 % of its current range at P7, the level reachable within it. -/
  | ageingMeasurement (e : Fin 305) (slope : Bool) (v : Word) (lpmax : Option (Fin 256))
  /-- RECORD_WRITE_REQUEST (R495): A non-volatile record write is requested and queued, its snapshot taken when it starts. `k`: the kind's place in the table of R496. -/
  | recordWriteRequest (k : Fin 10)
  /-- RECORD_RETRY (R494): One second after a failed record update, the update is tried once more. -/
  | recordRetry
  /-- VAUX_UP (R502): VAUX comes up through its threshold, latching straps and causing a device reset of cause 0. the straps; `mstr`: MSTR_N low. -/
  | vauxUp (bootmd : Fin 4) (tsrc : Fin 4) (ppspol : Bool) (mstr : Bool)
  /-- RESET_N_LOW (R502): RESET_N held low for 1 µs causes a device reset of cause 1. -/
  | resetNLow
  /-- SUPPLY_FALL (R577): A logic rail below its falling threshold for 2 µs causes a device reset of cause 2. -/
  | supplyFall
  /-- THERMAL_SHUTDOWN (R597): A shutdown comparator trips at 125 °C, causing a device reset of cause 4. -/
  | thermalShutdown
  /-- PWCTRL_DEVRESET (R524): The keeper writes PWCTRL.devreset, causing a device reset of cause 5. `v`: the word written to PWCTRL. -/
  | pwctrlDevreset (r : Requester) (v : Word)
  /-- WATCHDOG_EXPIRE (R515): The start watchdog elapses without a kick, causing a device reset of cause 6 and recovery mode on the third in 60 s. -/
  | watchdogExpire
  /-- PWWDOG_KICK (R515): Writing 0x5A5A to PWWDOG.kick restarts the start watchdog. `v`: the word written to PWWDOG. -/
  | pwwdogKick (r : Requester) (v : Word)
  /-- START_EDGE (R502): Two ms after the last reset cause clears the device leaves reset and clocks its islands. `mstr`: MSTR_N low. -/
  | startEdge (mstr : Bool)
  /-- PROOFING_DONE (R509): Proofing of the selected memory groups completes. -/
  | proofingDone
  /-- LOADER_CHECK (R512): The resident loader's digest is compared with the fused one and the keeper is released or FAULT_N held low. -/
  | loaderCheck
  /-- KEEPER_IMAGE_START (R513): The loader checks the keeper image and starts it, or provides the minimum service. -/
  | keeperImageStart
  /-- DRAM_TRAINING_DONE (R516): The keeper finishes training the channels and settles full, half-buffer or no buffer. `pass`: the channels whose every bit passes; `eyes`: read and write eye of each in 1/64 UI. -/
  | dramTrainingDone (pass : Fin 256) (eyes : List (Nat × Nat))
  /-- JOB_LOAD (R320): The keeper checks and loads job images, microcode, slot configuration, routes and records and starts boot cores. -/
  | jobLoad
  /-- STARTUP_LINKS_ENABLE (R507): At stage 7 the keeper enables the SAS phys and the ring and the stock cores set their ready bits. `ins`: a cartridge found with LDIN_N low that the state does not yet hold. -/
  | startupLinksEnable (ins : Option Cartridge)
  /-- MEDIA_READY (R521): Heads acquired, cartridge state known and map rebuilt, PWR_MEDIAREADY is raised. -/
  | mediaReady
  /-- RING_BLOCK_LOCK (R530): A ring port gains block lock and, with the port enabled, its bypass opens in an idle interval. -/
  | ringBlockLock (portB : Bool)
  /-- RING_BLOCK_LOSS (R530): A ring port loses block lock and its bypass closes. -/
  | ringBlockLoss (portB : Bool)
  /-- CLAIM_SEND (R528): Every 100 µs a master claimant sends a claim frame with its serial. -/
  | claimSend
  /-- CLAIM_FRAME (R529): A claim frame is forwarded and a second serial within 1 ms puts the station in conflict. `bad`: bad CRC or block. -/
  | claimFrame (portB : Bool) (serial : Nat) (bad : Bool)
  /-- CONFLICT_END (R529): No second serial for 10 ms ends the conflict state. -/
  | conflictEnd (portB : Bool)
  /-- JOIN_FRAME (R532): The master receives a join frame and admits the station at a cycle start with an address, or refuses it. `hop`: place downstream; `wanted`: the station asked for, none with auto. -/
  | joinFrame (portB : Bool) (hop : Nat) (serial : Nat) (wanted : Option (Fin 64))
  /-- JOIN_REFUSED (R533): A refused station closes its bypass and raises JOIN_REFUSED. -/
  | joinRefused (result : Fin 4)
  /-- RING_CYCLE_START (R534): Every 10 µs the master sends a gather frame with the epoch and member mask, and a sync frame every 1,000th cycle. -/
  | ringCycleStart (portB : Bool)
  /-- GATHER_FRAME (R536): A station writes its gather record into the passing gather frame, completing its join if its slot appears. `admitted`: root station, station and whether it is to be held, of the admission frame received for this device's serial since it asked. -/
  | gatherFrame (f : CycleFrame) (admitted : Option (Fin 64 × Fin 64 × Bool))
  /-- GATHER_TIMEOUT (R539): The gather frame does not return by t0 + 4.5 µs and the cycle is open. -/
  | gatherTimeout (portB : Bool)
  /-- GATHER_RETURN (R536): The gather frame returns to the master, which stores records and sends the scatter frame at t0 + 5.0 µs. `trip`: the round trip in ns. -/
  | gatherReturn (portB : Bool) (f : CycleFrame) (trip : Nat)
  /-- SCATTER_FRAME (R537): A station applies and acknowledges its scatter record, or acts on release while held. -/
  | scatterFrame (f : CycleFrame)
  /-- SCATTER_RETURN (R539): The scatter frame returns and the master closes the cycle complete or stale. -/
  | scatterReturn (portB : Bool) (f : CycleFrame)
  /-- RING_LOST (R539): A member receiving no cycle frame for three periods enters lost and raises RING_LOST. -/
  | ringLost
  /-- RNREL_WRITE (R538): A write to RNREL marks held stations for release in their next scatter record. -/
  | rnrelWrite (r : Requester) (v : Word)
  /-- RING_MESSAGE_SEND (R541): The ring engine sends the next posted message to its destination device. -/
  | ringMessageSend
  /-- RING_MESSAGE_FRAME (R542): A message frame reaches its device, is written to the receive ring or refused, and is acknowledged. `bad`: bad CRC or block; `member`: the source is a member of the ring it came from. -/
  | ringMessageFrame (src : Nat) (dst : Nat) (seq : Nat) (tag : Nat) (data : List Byte) (coord : Option Coord) (bad : Bool) (member : Bool) (portB : Bool)
  /-- RING_MESSAGE_ACK (R542): The sender receives the acknowledgement or its returned frame and writes the status record. `code`: 0 delivered, 1 receive ring full, 2 the frame came back. -/
  | ringMessageAck (seq : Nat) (code : Fin 3)
  /-- RING_MESSAGE_TIMEOUT (R542): No acknowledgement within 1 ms resends, completing with code 3 after three sends. -/
  | ringMessageTimeout
  /-- REMOTE_ACCESS_REQUEST (R544): A remote access arrives and the target serves it as requester 10 and replies. -/
  | remoteAccessRequest (src : Nat) (off : Nat) (write : Option Word)
  /-- REMOTE_ACCESS_REPLY (R544): The reply of a remote access arrives and completes the window access. `q`: whose access it is. -/
  | remoteAccessReply (q : Requester) (v : Word)
  /-- REMOTE_ACCESS_TIMEOUT (R544): A remote access without reply within 1 ms returns 0xFFFF_FFFF or is lost and raises RING_RWTIMEOUT. `q`: whose access it is. -/
  | remoteAccessTimeout (q : Requester)
  /-- DELAY_REQUEST_SEND (R547): Once per second a station sends a delay request upstream. `t1`: departure in 0.1 ns. -/
  | delayRequestSend (t1 : Nat)
  /-- DELAY_REQUEST_FRAME (R547): An upstream station receives a delay request and replies with its residence time. in 0.1 ns. -/
  | delayRequestFrame (t2 : Nat) (t3 : Nat)
  /-- DELAY_REPLY_FRAME (R547): A station receives the delay reply and updates TMHOP. `turn`: t3 − t2 in 0.1 ns. -/
  | delayReplyFrame (t4 : Nat) (turn : Nat)
  /-- PAIR_UP (R549): The pair link trains and roles are checked, raising PAIR_ROLEERR if they do not pair. `peer`, `serial`: the peer's role and module serial. -/
  | pairUp (lanes : Fin 5) (peer : Fin 3) (serial : Nat)
  /-- PAIR_DOWN (R549): The pair link goes down and waiting mirror descriptors complete with code 2. -/
  | pairDown
  /-- PLCTRL_ROLE (R549): A write to PLCTRL.role sets the side's pair role, letting mirroring resume when both sides are written. `v`: the word written to PLCTRL; `peer`: the peer's role if it too has been written anew. -/
  | plctrlRole (r : Requester) (v : Word) (peer : Option (Fin 3))
  /-- MIRROR_SEND (R550): The primary sends the next mirror descriptor and its data to the peer when the peer has room. `room`: the peer has burst buffer space; `peerOk`: the units' tags match at the peer. -/
  | mirrorSend (room : Bool) (peerOk : Bool)
  /-- MIRROR_RECEIVE (R550): The secondary places mirrored data in its burst buffer, checks tags, writes a receive record and raises PAIR_RX. `words`: the descriptor; `tags`: the primary's CRC-24 tags; `addr`: where the secondary's hardware places the data. -/
  | mirrorReceive (words : List Nat) (pages : List Nat) (tags : List Nat) (addr : Nat) (coord : Option Coord)
  /-- HEARTBEAT_SEND (R551): Every PLHB.period each side sends a heartbeat with its alive bit. -/
  | heartbeatSend
  /-- HEARTBEAT_MISS (R551): A heartbeat period passes without a live heartbeat and three in a row put the side in peer lost or taken over. `after`: a live heartbeat arrived since the one missed before. -/
  | heartbeatMiss (after : Bool)
  /-- PLKICK_WRITE (R551): Writing 0x5A5A to PLKICK marks the job alive for the next heartbeat. -/
  | plkickWrite (r : Requester) (v : Word)
  /-- PLCTRL_TAKEOVER (R551): Writing PLCTRL.takeover in peer lost makes the secondary take over and raise PAIR_TAKEOVER. -/
  | plctrlTakeover (r : Requester) (v : Word)
  /-- NOR_PROGRAM (R562): A NORCMD program from the loader's code programs up to 256 bytes, refused below 0x0001_0000 or from elsewhere. `pc`: of the store. -/
  | norProgram (r : Requester) (pc : Word) (len : Fin 512)
  /-- NOR_ERASE (R562): A NORCMD sector erase from the loader's code erases 64 KiB, refused in the loader region or from elsewhere. `pc`: of the store. -/
  | norErase (r : Requester) (pc : Word)
  /-- NOR_COMMAND_DONE (R562): A NOR command ends, setting NORSTAT.result and raising NOR_DONE on success. `err`: the NOR part reports a device error. -/
  | norCommandDone (err : Bool)
  /-- LOADER_ERASE_CALL (R561): The loader's erase service erases a sector and checks it reads erased. `err`: the NOR part reports a device error. -/
  | loaderEraseCall (err : Bool)
  /-- LOADER_PROGRAM_CALL (R561): The loader's program service checks a page range is erased, programs it and compares the readback. `err`: the NOR part reports a device error. -/
  | loaderProgramCall (err : Bool)
  /-- ACTIVATION_DRAIN_DONE (R568): After armed activation the drain, checkpoint and record saves end and the device resets itself. -/
  | activationDrainDone
  /-- LOADER_ACTIVATION_RESET (R572): Ten ms after a level-1 loader activation completion, the loader resets the device in normal mode. -/
  | loaderActivationReset
  /-- THERMAL_SAMPLE (R597): Every 1 ms the thermal unit reads the die sensors and applies the throttle and stop-writing thresholds. the readings in 1/16 °C; none: the sensor did not update. -/
  | thermalSample (core front drive : Option Int)
  /-- FAN_TACH_PULSE (R600): A fan tach pulse updates FNTACH and can end a tach check. `us`: the interval from the pulse before, in µs. -/
  | fanTachPulse (us : Nat)
  /-- FAN_NOTACH (R601): A 3 s tach gap at adequate duty starts a tach check with forced drive and raises FAN_NOTACH. -/
  | fanNotach
  /-- FAN_FAULT (R601): No pulse within 3 s of a tach check sets the fan fault, lowers FAULT_N and starts the PS2 restriction. -/
  | fanFault
  /-- FAN_RECOVER (R601): Ten seconds of regular tach pulses end a tach check's forcing or the fan fault. -/
  | fanRecover
  /-- FAN_SHORT (R600): FANPWR held at its current limit for 10 ms turns off, sets FNSTAT.short and sets the fan fault. -/
  | fanShort
  /-- EMITTER_ENABLE (R595): One ms after HLDEN rises the device enables the head's emitter outputs. -/
  | emitterEnable (h : Fin 4)
  /-- VAUX_DOWN (R463): VAUX goes down: the device loses all power, TIMENS and refbad are lost, the lasers stay off and the bypass closes. -/
  | vauxDown
  /-- VMOT_ABOVE_WARN (R216): VMOT rises back above VMUVT.warn, clearing the under-voltage flags, re-enabling the motor outputs and turning FANPWR on. -/
  | vmotAboveWarn (mv : Nat)
  /-- INDEX (R117): The angle source reaches mark position 0 of a revolution, where a new zone's N_z and gear entry, laser levels and head trim changes take effect. -/
  | index
  /-- CLOCK_MARK (R144): A clock mark of the angle source is detected or missed, correcting synthesiser phase, advancing the gear accumulator and counting missing marks. `h`: the head whose reference path meets the mark; none: the encoder's angle. -/
  | clockMark (h : Option (Fin 4)) (missed : Bool)
  /-- ILLEGAL_INSTRUCTION (R281): A core reaches an instruction word with an unassigned op or func or a non-zero unused field, and takes exception 3. -/
  | illegalInstruction (c : Fin 9) (x : Pipe)
  /-- INSTRUCTION_FETCH_FAULT (R295): A core fetches at an address outside its regions, or meets a local SRAM parity error on fetch, and takes exception 1 or 2. `parity`: a local SRAM parity error on the fetch. -/
  | instructionFetchFault (c : Fin 9) (x : Pipe) (parity : Bool)
  /-- MC_ILLEGAL_INSTRUCTION (R251): A slot executes a microcode word that is not a valid instruction and enters fault with cause 3. -/
  | mcIllegalInstruction (n : Fin 96)
  /-- CONNECTION_REQUEST (R387): An OPEN for a connection arrives on a SAS phy and is accepted for SSP or answered OPEN_REJECT (PROTOCOL NOT SUPPORTED) for STP or SMP. `protocol`: 0 SMP, 1 SSP, 2 STP. -/
  | connectionRequest (phy : Fin 2) (protocol : Fin 3)
  /-- CONFIGURATION_REQUEST (R508): A PCIe configuration request arrives and is answered with Configuration Request Retry Status until configuration ready, or served. -/
  | configurationRequest
  /-- VCM_SAFE_HOLD_END (R229): After a reset or under-voltage ramp, the 5 ms hold at VCSAFE ends and the Vcm output goes to zero current. -/
  | vcmSafeHoldEnd (n : Fin 16)
deriving DecidableEq, Repr

end Sys2Proof
end

