-- ==== Sys2Proof/Config.lean ====
section
/-! DEFINITION. What the spec leaves open and the model leaves free: constants without a body. -/

namespace Sys2Proof

/-- The timecode of a base whose rate R334 does not allow: base, den × 65,536 + num, and the frame count (R334; log entry 6). -/
opaque Config.timecodeBadRate : Nat → Nat → Nat → Nat

/-- The design version of a unit other than the device pod, by its kind (R38): the spec names none. Free value (log entry 2). -/
opaque Config.unitVersion : Nat → Nat

/-- The serial of this module, fixed at manufacture (R50, R96). -/
opaque Config.moduleSerial : Nat

/-- The value field of a servo conversion whose code, with the dither removed, leaves 12 bits (R178, R179): the spec states
none. Free value (log entry 22). -/
opaque Config.adcBeyond : Nat → Nat

/-- The currents the spindle unit predicts when one shunt or none was measured (R204): the spec names what it predicts them
from, the previous currents, the vector applied, the VMOT sample and SPMOTOR, and not how. Free value (log entry 23). -/
opaque Config.predictCurrent : Int → Int → Nat → Nat → Nat → Int × Int

/-- The flux with its angle corrected to the one derived from the encoder, below 600 rpm (R204): from the flux, the encoder
count and the pole pairs. Free value (log entry 23). -/
opaque Config.fluxOnEncoder : Int → Int → Nat → Nat → Int × Int

/-- The flux of magnitude SPFLUX at the rotor angle found by alignment (R207). Free value (log entry 23). -/
opaque Config.fluxAtAngle : Nat → Nat → Int × Int

/-- A sine injection value between the quarters of its period (R260): amplitude and phase; the spec states no rounding. Free value
(log entry 24). -/
opaque Config.sineSample : Int → Nat → Int

/-- The bit value of the PRBS that gives +A (R260): the spec does not say which. Free value (log entry 24). -/
opaque Config.prbsPlus : Bool

/-- SLRLYPER after a relay measurement of 0 periods (R259). Free value (log entry 24). -/
opaque Config.relayNoPeriod : Nat

/-- The payload bytes of a record kind whose payload layout R496 leaves open (0x0303, 0x0304, 0x0401, 0x1002), from its place in
R496 and its values. Free value (log entry 25). -/
opaque Config.recordLayout : Nat → List Nat → List Byte

/-- A byte programmed over one that is not erased, and a byte of a range whose program or erase ended in a device error: old
byte, byte programmed (R561, R562). Free value (log entry 26). -/
opaque Config.norLeft : Byte → Byte → Byte

/-- The health of an entry whose baseline equals its limit (R487 divides by their difference): entry and latest. Free value
(log entry 27). -/
opaque Config.healthOpen : Nat → Nat → Nat

/-- KCAP0 to KCAP7 of the stock job table's entries, which R321 does not list: core and aperture. Free value (log entry 28). -/
opaque Config.stockAperture : Nat → Nat → Nat

/-- Byte `i` of the NOR default of the read-table entry of a beam, layer and zone (R151): the factory defaults' layout is not
given (R557). Free value (log entry 29). -/
opaque Config.readDefault : Nat → Nat → Nat

/-- The values a start takes from the factory defaults in NOR for a record kind that has no valid record (R498, R523): the layout
of the factory defaults is not given. Free value (log entry 29). -/
opaque Config.norDefault : Nat → List Nat

/-- The direction of the asymmetry correction (R479, row 4): true if a higher mean |LLR| of ones moves it up. Free value
(log entry 30). -/
opaque Config.asymmetryUp : Bool

/-- General register `n` of core `c` after its reset number `k` (R271: undefined). Free value (log entry 31). -/
opaque Config.coreReg : Nat → Nat → Nat → Nat

/-- Whether an ECDSA P-384 signature verifies: the public key (empty for the Lamlerno key, which lies in the resident loader), the
SHA-384 of the signed bytes, the signature (R316, R317). -/
opaque Config.sigVerifies : List Byte → List Byte → List Byte → Bool

/-- The SHA-384 of the resident loader held in the module (R510). -/
opaque Config.loaderDigest : List Byte

/-- The unsafe shutdowns after a power cycle (R376), from their count and that of power cycles before: the spec does not say how they are
told from others. Free value (log entry 37). -/
opaque Config.unsafeShutdowns : Nat → Nat → Nat

/-- Byte `i` of a structure returned to a host, by its key, where the spec names no value for it: Identify structures, log pages, mode
and VPD pages. Free value (log entry 33). -/
opaque Config.hostByte : Nat → Nat → Byte

/-- Byte `i` of the identity unit's blocks where the spec gives only its form: lots, dates, places and versions (R48, R49). Free value
(log entry 38). -/
opaque Config.identByte : Nat → Byte

/-- The grade is X rather than C (R4, R49). Free value (log entry 38). -/
opaque Config.gradeX : Bool

/-- The narrowest path-delay margin of an island in the second that ends now, in ps (R472, R475): a measurement. Free value (log entry
39). -/
opaque Config.islandMargin : Nat → Nat → Nat

/-- The refresh multiplier in force on a DRAM channel at a time (R415): it follows the rank's temperature. Free value (log entry
39). -/
opaque Config.refreshRate : Nat → Nat → Nat

end Sys2Proof
end

