-- ==== Sys2Proof/Machine/RegMap.lean ====
section
/-! DEFINITION. The register map: every field of every register table of the spec, unit kind by unit kind,
with its offset in the unit, its low bit, its width, its access code (R11) and its reset value (R13).
A field whose Reset is X or N reads 0 after reset here (DESIGN CHOICE, log entry 1); a field whose Reset is P or S keeps
its value through a device reset. The rule named beside each unit kind is the rule whose table it follows. -/

namespace Sys2Proof.Machine

/-- The access codes of R11. -/
inductive Acc where
  | rw | ro | wc | ws | wo | rwl | otw
deriving DecidableEq, Repr

/-- One field of one register: byte offset of its register in the unit, low bit, width, access, reset value, and
whether a device reset keeps it (Reset P or S of R13). -/
structure Field where
  off : Nat
  lo : Nat
  w : Nat
  acc : Acc
  rst : Nat
  kept : Bool
deriving DecidableEq, Repr

/-- header and event block (R37, R40, R42, R43) -/
abbrev F.ULOCK_locked : Field := ⟨0x10, 0, 1, .ws, 0, false⟩
/-- header and event block (R37, R40, R42, R43) -/
abbrev F.ULOCK_by_device : Field := ⟨0x10, 1, 1, .ro, 0, false⟩
/-- header and event block (R37, R40, R42, R43) -/
abbrev F.USTAT_state : Field := ⟨0x8, 0, 3, .ro, 0, false⟩
/-- header and event block (R37, R40, R42, R43) -/
abbrev F.UAGE_health : Field := ⟨0x1c, 16, 8, .ro, 255, false⟩
/-- header and event block (R37, R40, R42, R43) -/
abbrev F.UAGE_index : Field := ⟨0x1c, 0, 16, .ro, 65535, false⟩
/-- header and event block (R37, R40, R42, R43) -/
abbrev F.EVRAW : Field := ⟨0x20, 0, 32, .ro, 0, false⟩
/-- header and event block (R37, R40, R42, R43) -/
abbrev F.EVENA : Field := ⟨0x24, 0, 32, .rw, 0, false⟩
/-- counter pod (R456) -/
abbrev F.CTWRAPLAST_index : Field := ⟨0x40, 0, 9, .ro, 0, false⟩
/-- key unit (R58) -/
abbrev F.KEYSLOT (i : Nat) : Field := ⟨0x40 + 4 * i, 0, 32, .otw, 0, true⟩
/-- key unit (R58) -/
abbrev F.KEYMASK_mask : Field := ⟨0x70, 0, 12, .ro, 0, true⟩

/-! thermal: R602 -/
/-- R602 -/
abbrev F.THDIE_peak (i : Nat) : Field := ⟨0x40 + 4 * i, 16, 16, .rw, 0, false⟩
/-- R602 -/
abbrev F.THDIE_temp (i : Nat) : Field := ⟨0x40 + 4 * i, 0, 16, .ro, 0, false⟩
/-- R602 -/
abbrev F.THCOMP_comp : Field := ⟨0x4c, 0, 16, .ro, 0, false⟩
/-- R602 -/
abbrev F.THLIM_shut : Field := ⟨0x50, 16, 8, .ro, 125, false⟩
/-- R602 -/
abbrev F.THLIM_stop : Field := ⟨0x50, 8, 8, .ro, 110, false⟩
/-- R602 -/
abbrev F.THLIM_throttle : Field := ⟨0x50, 0, 8, .rw, 100, false⟩
/-- R602 (P) -/
abbrev F.THSTAT_shutdown : Field := ⟨0x54, 7, 1, .wc, 0, true⟩
/-- R602 -/
abbrev F.THSTAT_sensor : Field := ⟨0x54, 6, 1, .ro, 0, false⟩
/-- R602 -/
abbrev F.THSTAT_restrict : Field := ⟨0x54, 5, 1, .ro, 0, false⟩
/-- R602 -/
abbrev F.THSTAT_fanfault : Field := ⟨0x54, 4, 1, .ro, 0, false⟩
/-- R602 -/
abbrev F.THSTAT_stopwrite : Field := ⟨0x54, 3, 1, .ro, 0, false⟩
/-- R602 -/
abbrev F.THSTAT_throttle : Field := ⟨0x54, 2, 1, .ro, 0, false⟩

/-! time: R331, R335, R475 -/
/-- R331 -/
abbrev F.TRGCFG_enable (i : Nat) : Field := ⟨0x80 + 4 * i, 31, 1, .rw, 0, false⟩
/-- R331 -/
abbrev F.TRGCFG_edge (i : Nat) : Field := ⟨0x80 + 4 * i, 16, 2, .rw, 0, false⟩
/-- R331 -/
abbrev F.TRGCFG_filter (i : Nat) : Field := ⟨0x80 + 4 * i, 0, 16, .rw, 10, false⟩
/-- R331 -/
abbrev F.TRGTLO_time_lo (i : Nat) : Field := ⟨0x90 + 8 * i, 0, 32, .ro, 0, false⟩
/-- R331 -/
abbrev F.TRGTHI_time_hi (i : Nat) : Field := ⟨0x94 + 8 * i, 0, 32, .ro, 0, false⟩
/-- R331 -/
abbrev F.TRGSTAT_dropped (i : Nat) : Field := ⟨0xb0 + 4 * i, 16, 16, .ro, 0, false⟩
/-- R331 -/
abbrev F.TRGSTAT_level (i : Nat) : Field := ⟨0xb0 + 4 * i, 1, 1, .ro, 0, false⟩
/-- R331 -/
abbrev F.TRGSTAT_pending (i : Nat) : Field := ⟨0xb0 + 4 * i, 0, 1, .ro, 0, false⟩
/-- R331 -/
abbrev F.TRGACK_ack : Field := ⟨0xc0, 0, 4, .wo, 0, false⟩
/-- R335 -/
abbrev F.TCBASE_base : Field := ⟨0xd0, 0, 32, .rw, 0, false⟩
/-- R335 -/
abbrev F.TCEPOCHLO_epoch_lo : Field := ⟨0xd4, 0, 32, .rw, 0, false⟩
/-- R335 -/
abbrev F.TCEPOCHHI_epoch_hi : Field := ⟨0xd8, 0, 32, .rw, 0, false⟩
/-- R335 -/
abbrev F.TCRATE_den : Field := ⟨0xdc, 16, 16, .rw, 1, false⟩
/-- R335 -/
abbrev F.TCRATE_num : Field := ⟨0xdc, 0, 16, .rw, 24, false⟩
/-- R475 (P) -/
abbrev F.TMLO_time_lo : Field := ⟨0x40, 0, 32, .ro, 0, true⟩
/-- R475 (P) -/
abbrev F.TMHI_time_hi : Field := ⟨0x44, 0, 32, .ro, 0, true⟩
/-- R475 -/
abbrev F.TMSETLO_set_lo : Field := ⟨0x48, 0, 32, .rw, 0, false⟩
/-- R475 -/
abbrev F.TMSETHI_set_hi : Field := ⟨0x4c, 0, 32, .rw, 0, false⟩
/-- R475 -/
abbrev F.TMCTRL_cmd : Field := ⟨0x50, 0, 2, .wo, 0, false⟩
/-- R475 -/
abbrev F.TMCFG_allowstep : Field := ⟨0x54, 31, 1, .rw, 1, false⟩
/-- R475 (P) -/
abbrev F.TMCFG_src : Field := ⟨0x54, 28, 2, .rw, 0, true⟩
/-- R475 (P) -/
abbrev F.TMCFG_edge : Field := ⟨0x54, 27, 1, .rw, 0, true⟩
/-- R475 -/
abbrev F.TMCFG_kp : Field := ⟨0x54, 20, 4, .rw, 1, false⟩
/-- R475 -/
abbrev F.TMCFG_ki : Field := ⟨0x54, 16, 4, .rw, 4, false⟩
/-- R475 -/
abbrev F.TMCFG_stepthr : Field := ⟨0x54, 8, 8, .rw, 1, false⟩
/-- R475 -/
abbrev F.TMCFG_lockthr : Field := ⟨0x54, 0, 8, .rw, 50, false⟩
/-- R475 -/
abbrev F.TMPPSCFG_win : Field := ⟨0x58, 16, 16, .rw, 100, false⟩
/-- R475 -/
abbrev F.TMPPSCFG_ofs : Field := ⟨0x58, 0, 16, .rw, 0, false⟩
/-- R475 -/
abbrev F.TMSTAT_misses : Field := ⟨0x5c, 24, 8, .ro, 0, false⟩
/-- R475 -/
abbrev F.TMSTAT_extras : Field := ⟨0x5c, 16, 8, .ro, 0, false⟩
/-- R475 -/
abbrev F.TMSTAT_refused : Field := ⟨0x5c, 5, 1, .wc, 0, false⟩
/-- R475 -/
abbrev F.TMSTAT_armed : Field := ⟨0x5c, 4, 1, .ro, 0, false⟩
/-- R475 (P) -/
abbrev F.TMSTAT_refbad : Field := ⟨0x5c, 3, 1, .wc, 0, true⟩
/-- R475 -/
abbrev F.TMSTAT_state : Field := ⟨0x5c, 0, 3, .ro, 0, false⟩
/-- R475 -/
abbrev F.TMPPSLO_cap_lo : Field := ⟨0x60, 0, 32, .ro, 0, false⟩
/-- R475 -/
abbrev F.TMPPSHI_cap_hi : Field := ⟨0x64, 0, 32, .ro, 0, false⟩
/-- R475 -/
abbrev F.TMERR_error : Field := ⟨0x68, 0, 32, .ro, 0, false⟩
/-- R475 -/
abbrev F.TMRATE_rate : Field := ⟨0x6c, 0, 32, .rw, 0, false⟩
/-- R475 -/
abbrev F.TMHOP_hop : Field := ⟨0x70, 0, 16, .ro, 0, false⟩
/-- R475 -/
abbrev F.CISEL_island : Field := ⟨0x74, 0, 7, .rw, 0, false⟩
/-- R475 -/
abbrev F.CISTAT_margin : Field := ⟨0x78, 20, 12, .ro, 0, false⟩
/-- R475 (C) -/
abbrev F.CISTAT_clock : Field := ⟨0x78, 8, 4, .ro, 0, false⟩
/-- R475 -/
abbrev F.CISTAT_state : Field := ⟨0x78, 0, 2, .ro, 0, false⟩

/-! nor: R562 -/
/-- R562 -/
abbrev F.NORADDR_offset : Field := ⟨0x40, 0, 27, .rw, 0, false⟩
/-- R562 -/
abbrev F.NORSRC_addr : Field := ⟨0x44, 2, 17, .rw, 0, false⟩
/-- R562 -/
abbrev F.NORCMD_len : Field := ⟨0x48, 8, 9, .wo, 0, false⟩
/-- R562 -/
abbrev F.NORCMD_cmd : Field := ⟨0x48, 0, 2, .wo, 0, false⟩
/-- R562 -/
abbrev F.NORSTAT_busy : Field := ⟨0x4c, 8, 1, .ro, 0, false⟩
/-- R562 -/
abbrev F.NORSTAT_result : Field := ⟨0x4c, 0, 3, .ro, 0, false⟩

/-! power: R524 -/
/-- R524 -/
abbrev F.PWSTART_skipped : Field := ⟨0x40, 16, 8, .ro, 0, false⟩
/-- R524 -/
abbrev F.PWSTART_half : Field := ⟨0x40, 12, 1, .ro, 0, false⟩
/-- R524 -/
abbrev F.PWSTART_level : Field := ⟨0x40, 8, 4, .ro, 0, false⟩
/-- R524 -/
abbrev F.PWSTART_provider : Field := ⟨0x40, 7, 1, .ro, 0, false⟩
/-- R524 -/
abbrev F.PWSTART_stage : Field := ⟨0x40, 0, 4, .ro, 0, false⟩
/-- R524 (S) -/
abbrev F.PWMODE_mode : Field := ⟨0x44, 0, 2, .rw, 0, true⟩
/-- R524 (P) -/
abbrev F.PWSKIP_skip : Field := ⟨0x48, 0, 7, .rw, 0, true⟩
/-- R524 (P) -/
abbrev F.PWCAUSE_cause : Field := ⟨0x4c, 0, 7, .ro, 0, true⟩
/-- R524 (S) -/
abbrev F.PWSTRAP_mstr : Field := ⟨0x50, 5, 1, .ro, 0, true⟩
/-- R524 (S) -/
abbrev F.PWSTRAP_ppspol : Field := ⟨0x50, 4, 1, .ro, 0, true⟩
/-- R524 (S) -/
abbrev F.PWSTRAP_tsrc : Field := ⟨0x50, 2, 2, .ro, 0, true⟩
/-- R524 (S) -/
abbrev F.PWSTRAP_bootmd : Field := ⟨0x50, 0, 2, .ro, 0, true⟩
/-- R524 -/
abbrev F.PWCTRL_devreset : Field := ⟨0x54, 0, 1, .ws, 0, false⟩
/-- R524 -/
abbrev F.PWWDOG_timeout : Field := ⟨0x58, 16, 16, .rw, 2000, false⟩
/-- R524 -/
abbrev F.PWWDOG_kick : Field := ⟨0x58, 0, 16, .wo, 0, false⟩
/-- R524 (P) -/
abbrev F.PWWDCNT_count : Field := ⟨0x5c, 0, 8, .ro, 0, true⟩

/-! event: R455 -/
/-- R455 -/
abbrev F.EVRSEL_source : Field := ⟨0x40, 0, 9, .rw, 0, false⟩
/-- R455 (N) -/
abbrev F.EVRDATA_enable : Field := ⟨0x44, 31, 1, .rw, 0, false⟩
/-- R455 (N) -/
abbrev F.EVRDATA_lane : Field := ⟨0x44, 0, 6, .rw, 0, false⟩
/-- R455 -/
abbrev F.LNSEL_lane : Field := ⟨0x48, 0, 6, .rw, 0, false⟩
/-- R455 (N) -/
abbrev F.LNDEST_ring : Field := ⟨0x4c, 31, 1, .rw, 0, false⟩
/-- R455 (N) -/
abbrev F.LNDEST_vector : Field := ⟨0x4c, 24, 7, .rw, 0, false⟩
/-- R455 (N) -/
abbrev F.LNDEST_msix : Field := ⟨0x4c, 16, 1, .rw, 0, false⟩
/-- R455 (N) -/
abbrev F.LNDEST_cores : Field := ⟨0x4c, 0, 9, .rw, 0, false⟩
/-- R455 -/
abbrev F.LNPEND0_pend : Field := ⟨0x50, 0, 32, .ro, 0, false⟩
/-- R455 -/
abbrev F.LNPEND1_pend : Field := ⟨0x54, 0, 32, .ro, 0, false⟩
/-- R455 -/
abbrev F.LNREARM0_rearm : Field := ⟨0x58, 0, 32, .wo, 0, false⟩
/-- R455 -/
abbrev F.LNREARM1_rearm : Field := ⟨0x5c, 0, 32, .wo, 0, false⟩
/-- R455 -/
abbrev F.LNSRC_source : Field := ⟨0x60, 0, 10, .ro, 1023, false⟩
/-- R455 -/
abbrev F.CRSEL_entry : Field := ⟨0x80, 0, 12, .rw, 0, false⟩
/-- R455 -/
abbrev F.CRDATA_word (i : Nat) : Field := ⟨0x84 + 4 * i, 0, 32, .ro, 0, false⟩
/-- R455 -/
abbrev F.CRHEAD_valid : Field := ⟨0xa4, 16, 13, .ro, 0, false⟩
/-- R455 -/
abbrev F.CRHEAD_head : Field := ⟨0xa4, 0, 12, .ro, 0, false⟩
/-- R455 -/
abbrev F.CRSTAT_flood : Field := ⟨0xa8, 31, 1, .ro, 0, false⟩
/-- R455 -/
abbrev F.CRSTAT_queued : Field := ⟨0xa8, 0, 7, .ro, 0, false⟩
/-- R455 -/
abbrev F.CROVER_count : Field := ⟨0xac, 0, 32, .ro, 0, false⟩
/-- R455 -/
abbrev F.CRLOST_count : Field := ⟨0xb0, 0, 32, .ro, 0, false⟩
/-- R455 -/
abbrev F.CRFLOOD_enter : Field := ⟨0xb4, 16, 16, .rw, 256, false⟩
/-- R455 -/
abbrev F.CRFLOOD_leave : Field := ⟨0xb4, 0, 16, .rw, 64, false⟩
/-- R455 -/
abbrev F.CRMBASELO_base : Field := ⟨0xb8, 17, 15, .rw, 0, false⟩
/-- R455 -/
abbrev F.CRMBASELO_enable : Field := ⟨0xb8, 0, 1, .rw, 0, false⟩
/-- R455 -/
abbrev F.CRMBASEHI_base : Field := ⟨0xbc, 0, 32, .rw, 0, false⟩
/-- R455 -/
abbrev F.CRSWLO_detail : Field := ⟨0xc0, 0, 32, .rw, 0, false⟩
/-- R455 -/
abbrev F.CRSWHI_detail : Field := ⟨0xc4, 0, 32, .rw, 0, false⟩
/-- R455 -/
abbrev F.CRSWCMD_code : Field := ⟨0xc8, 0, 8, .wo, 0, false⟩
/-- R455 -/
abbrev F.CRSEQ_seq : Field := ⟨0xcc, 0, 32, .ro, 0, false⟩

/-! pcie: R385 -/
/-- R385 -/
abbrev F.PCLINK_up : Field := ⟨0x40, 8, 1, .ro, 0, false⟩
/-- R385 -/
abbrev F.PCLINK_width : Field := ⟨0x40, 4, 4, .ro, 0, false⟩
/-- R385 -/
abbrev F.PCLINK_speed : Field := ⟨0x40, 0, 4, .ro, 0, false⟩
/-- R385 -/
abbrev F.PCERR_uncorr : Field := ⟨0x44, 16, 16, .rw, 0, false⟩
/-- R385 -/
abbrev F.PCERR_corr : Field := ⟨0x44, 0, 16, .rw, 0, false⟩
/-- R385 -/
abbrev F.PCRESET_busy : Field := ⟨0x48, 16, 1, .ro, 0, false⟩
/-- R385 -/
abbrev F.PCRESET_count : Field := ⟨0x48, 0, 16, .rw, 0, false⟩

/-! nvme: R385 -/
/-- R385 -/
abbrev F.NVCTRL_cfs : Field := ⟨0x40, 1, 1, .ws, 0, false⟩
/-- R385 -/
abbrev F.NVCTRL_ready : Field := ⟨0x40, 0, 1, .rw, 0, false⟩
/-- R385 -/
abbrev F.NVSTAT_limit : Field := ⟨0x44, 18, 1, .ro, 0, false⟩
/-- R385 -/
abbrev F.NVSTAT_rdy : Field := ⟨0x44, 17, 1, .ro, 0, false⟩
/-- R385 -/
abbrev F.NVSTAT_en : Field := ⟨0x44, 16, 1, .ro, 0, false⟩
/-- R385 -/
abbrev F.NVSTAT_outst : Field := ⟨0x44, 0, 14, .ro, 0, false⟩
/-- R385 -/
abbrev F.NVQSEL_queue : Field := ⟨0x48, 0, 7, .rw, 0, false⟩
/-- R385 -/
abbrev F.NVQCFG_keeper : Field := ⟨0x4c, 8, 1, .rw, 0, false⟩
/-- R385 -/
abbrev F.NVQCFG_cores : Field := ⟨0x4c, 0, 8, .rw, 0, false⟩
/-- R385 -/
abbrev F.NVQSTAT_waiting : Field := ⟨0x50, 16, 13, .ro, 0, false⟩
/-- R385 -/
abbrev F.NVQSTAT_outst : Field := ⟨0x50, 0, 13, .ro, 0, false⟩
/-- R385 -/
abbrev F.NVVIOL_count : Field := ⟨0x54, 0, 16, .rw, 0, false⟩

/-! sas: R408 -/
/-- R408 -/
abbrev F.SACTRL_phyen : Field := ⟨0x40, 1, 2, .rw, 3, false⟩
/-- R408 -/
abbrev F.SACTRL_ready : Field := ⟨0x40, 0, 1, .rw, 0, false⟩
/-- R408 -/
abbrev F.SAPHY0_hreset : Field := ⟨0x44, 16, 16, .rw, 0, false⟩
/-- R408 -/
abbrev F.SAPHY1_hreset : Field := ⟨0x48, 16, 16, .rw, 0, false⟩
/-- R408 -/
abbrev F.SAPHY0_up : Field := ⟨0x44, 8, 1, .ro, 0, false⟩
/-- R408 -/
abbrev F.SAPHY1_up : Field := ⟨0x48, 8, 1, .ro, 0, false⟩
/-- R408 -/
abbrev F.SAPHY0_rate : Field := ⟨0x44, 0, 2, .ro, 0, false⟩
/-- R408 -/
abbrev F.SAPHY1_rate : Field := ⟨0x48, 0, 2, .ro, 0, false⟩
/-- R408 (P) -/
abbrev F.SAADDR0LO_addr : Field := ⟨0x50, 0, 32, .ro, 0, true⟩
/-- R408 (P) -/
abbrev F.SAADDR0HI_addr : Field := ⟨0x54, 0, 32, .ro, 0, true⟩
/-- R408 (P) -/
abbrev F.SAADDR1LO_addr : Field := ⟨0x58, 0, 32, .ro, 0, true⟩
/-- R408 (P) -/
abbrev F.SAADDR1HI_addr : Field := ⟨0x5c, 0, 32, .ro, 0, true⟩
/-- R408 -/
abbrev F.SAOUTST_portb : Field := ⟨0x60, 16, 11, .ro, 0, false⟩
/-- R408 -/
abbrev F.SAOUTST_porta : Field := ⟨0x60, 0, 11, .ro, 0, false⟩
/-- R408 -/
abbrev F.SAQSEL_queue : Field := ⟨0x64, 0, 7, .rw, 65, false⟩
/-- R408 -/
abbrev F.SAQCFG_keeper : Field := ⟨0x68, 8, 1, .rw, 0, false⟩
/-- R408 -/
abbrev F.SAQCFG_cores : Field := ⟨0x68, 0, 8, .rw, 0, false⟩
/-- R408 -/
abbrev F.SAINSEL_entry : Field := ⟨0x70, 0, 4, .rw, 0, false⟩
/-- R408 -/
abbrev F.SAINADLO_addr : Field := ⟨0x74, 0, 32, .rw, 0, false⟩
/-- R408 -/
abbrev F.SAINADHI_addr : Field := ⟨0x78, 0, 32, .rw, 0, false⟩
/-- R408 -/
abbrev F.SAINCFG_valid : Field := ⟨0x7c, 8, 1, .rw, 0, false⟩
/-- R408 -/
abbrev F.SAINCFG_guest : Field := ⟨0x7c, 0, 3, .rw, 0, false⟩
/-- R408 -/
abbrev F.SAVIOL_count : Field := ⟨0x80, 0, 16, .rw, 0, false⟩
/-- R408 -/
abbrev F.SAVIOLALO_addr : Field := ⟨0x84, 0, 32, .ro, 0, false⟩
/-- R408 -/
abbrev F.SAVIOLAHI_addr : Field := ⟨0x88, 0, 32, .ro, 0, false⟩

/-! guest: R381 -/
/-- R381 -/
abbrev F.GNVMELO_qp : Field := ⟨0x40, 0, 32, .rw, 0, false⟩
/-- R381 -/
abbrev F.GNVMEHI_qp : Field := ⟨0x44, 0, 32, .rw, 0, false⟩

/-! kc: R311 -/
/-- R311 -/
abbrev F.KCCTRL_hold : Field := ⟨0x0, 2, 1, .rw, 0, false⟩
/-- R311 -/
abbrev F.KCCTRL_reset : Field := ⟨0x0, 1, 1, .ws, 0, false⟩
/-- R311 -/
abbrev F.KCCTRL_run : Field := ⟨0x0, 0, 1, .rw, 0, false⟩
/-- R311 -/
abbrev F.KCSTART_start : Field := ⟨0x4, 2, 30, .rw, 0, false⟩
/-- R311 -/
abbrev F.KCGUEST_guest : Field := ⟨0x8, 0, 3, .rw, 0, false⟩
/-- R311 -/
abbrev F.KCAP_writable (i : Nat) : Field := ⟨0x10 + 4 * i, 10, 1, .rw, 0, false⟩
/-- R311 -/
abbrev F.KCAP_cacheable (i : Nat) : Field := ⟨0x10 + 4 * i, 9, 1, .rw, 0, false⟩
/-- R311 -/
abbrev F.KCAP_valid (i : Nat) : Field := ⟨0x10 + 4 * i, 8, 1, .rw, 0, false⟩
/-- R311 -/
abbrev F.KCAP_base (i : Nat) : Field := ⟨0x10 + 4 * i, 0, 8, .rw, 0, false⟩

/-! core: R313 -/
/-- R313 -/
abbrev F.CSTAT_doublefault : Field := ⟨0x40, 15, 1, .ro, 0, false⟩
/-- R313 -/
abbrev F.CSTAT_halted : Field := ⟨0x40, 14, 1, .ro, 0, false⟩
/-- R313 -/
abbrev F.CSTAT_waiting : Field := ⟨0x40, 13, 1, .ro, 0, false⟩
/-- R313 -/
abbrev F.CSTAT_yielding : Field := ⟨0x40, 12, 1, .ro, 0, false⟩
/-- R313 -/
abbrev F.CSTAT_lastcause : Field := ⟨0x40, 0, 5, .ro, 0, false⟩
/-- R313 -/
abbrev F.CPC_pc : Field := ⟨0x44, 0, 32, .ro, 0, false⟩
/-- R313 -/
abbrev F.CPARI_lines : Field := ⟨0x48, 16, 16, .rw, 0, false⟩
/-- R313 -/
abbrev F.CPARI_refetch : Field := ⟨0x48, 0, 16, .rw, 0, false⟩
/-- R313 -/
abbrev F.CPARD_lines : Field := ⟨0x4c, 16, 16, .rw, 0, false⟩
/-- R313 -/
abbrev F.CPARD_refetch : Field := ⟨0x4c, 0, 16, .rw, 0, false⟩
/-- R313 -/
abbrev F.CPARS_count : Field := ⟨0x50, 0, 16, .rw, 0, false⟩
/-- R313 -/
abbrev F.CPARSADR_addr : Field := ⟨0x54, 0, 32, .ro, 0, false⟩
/-- R313 -/
abbrev F.CSMPCTL_seed : Field := ⟨0x60, 8, 8, .rw, 90, false⟩
/-- R313 -/
abbrev F.CSMPCTL_enable : Field := ⟨0x60, 0, 1, .rw, 0, false⟩
/-- R313 -/
abbrev F.CSMPN_n : Field := ⟨0x64, 0, 17, .rw, 4096, false⟩
/-- R313 -/
abbrev F.CSMPBASE_base : Field := ⟨0x68, 5, 27, .rw, 0, false⟩
/-- R313 -/
abbrev F.CSMPLEN_k : Field := ⟨0x6c, 0, 5, .rw, 6, false⟩
/-- R313 -/
abbrev F.CSMPHEAD_head : Field := ⟨0x70, 0, 16, .ro, 0, false⟩
/-- R313 -/
abbrev F.CSMPTAIL_tail : Field := ⟨0x74, 0, 16, .rw, 0, false⟩
/-- R313 -/
abbrev F.CSMPLOST_skipped : Field := ⟨0x78, 16, 16, .ro, 0, false⟩
/-- R313 -/
abbrev F.CSMPLOST_dropped : Field := ⟨0x78, 0, 16, .ro, 0, false⟩

/-! l2: R314 -/
/-- R314 -/
abbrev F.L2PAR_lines : Field := ⟨0x40, 16, 16, .rw, 0, false⟩
/-- R314 -/
abbrev F.L2PAR_refetch : Field := ⟨0x40, 0, 16, .rw, 0, false⟩
/-- R314 -/
abbrev F.L2OFFER_count : Field := ⟨0x44, 0, 32, .ro, 0, false⟩
/-- R314 -/
abbrev F.L2DECL_count : Field := ⟨0x48, 0, 32, .ro, 0, false⟩

/-! mover: R436 -/
/-- R436 -/
abbrev F.SMSTAT_running : Field := ⟨0x40, 16, 5, .ro, 0, false⟩
/-- R436 -/
abbrev F.SMSTAT_busy : Field := ⟨0x40, 15, 1, .ro, 0, false⟩
/-- R436 -/
abbrev F.SMSTAT_queued : Field := ⟨0x40, 0, 6, .ro, 0, false⟩
/-- R436 -/
abbrev F.SMCHSEL_channel : Field := ⟨0x44, 0, 5, .rw, 0, false⟩
/-- R436 -/
abbrev F.SMCHSTAT_code : Field := ⟨0x48, 28, 4, .ro, 0, false⟩
/-- R436 -/
abbrev F.SMCHSTAT_owner : Field := ⟨0x48, 24, 4, .ro, 0, false⟩
/-- R436 -/
abbrev F.SMCHSTAT_state : Field := ⟨0x48, 0, 2, .ro, 0, false⟩
/-- R436 -/
abbrev F.SMRESLO_residue : Field := ⟨0x4c, 0, 32, .ro, 0, false⟩
/-- R436 -/
abbrev F.SMRESHI_residue : Field := ⟨0x50, 0, 4, .ro, 0, false⟩
/-- R436 -/
abbrev F.SMABORT_channel : Field := ⟨0x54, 0, 5, .wo, 0, false⟩
/-- R436 -/
abbrev F.SMDONECNT_count : Field := ⟨0x58, 0, 32, .ro, 0, false⟩

/-! hash: R436 -/
/-- R436 -/
abbrev F.HSSTAT_requester : Field := ⟨0x40, 24, 4, .ro, 0, false⟩
/-- R436 -/
abbrev F.HSSTAT_busy : Field := ⟨0x40, 15, 1, .ro, 0, false⟩
/-- R436 -/
abbrev F.HSSTAT_queued : Field := ⟨0x40, 0, 5, .ro, 0, false⟩
/-- R436 -/
abbrev F.HSCNT_count : Field := ⟨0x44, 0, 32, .ro, 0, false⟩
/-- R436 -/
abbrev F.HSMISCNT_count : Field := ⟨0x48, 0, 32, .ro, 0, false⟩

/-! dram: R434 -/
/-- R434 -/
abbrev F.DCCTRL_refresh : Field := ⟨0x40, 1, 1, .rw, 0, false⟩
/-- R434 -/
abbrev F.DCCTRL_enable : Field := ⟨0x40, 0, 1, .rw, 0, false⟩
/-- R434 -/
abbrev F.DCSTAT_ready : Field := ⟨0x44, 8, 8, .rw, 0, false⟩
/-- R434 -/
abbrev F.DCSTAT_step : Field := ⟨0x44, 0, 8, .ro, 0, false⟩
/-- R434 -/
abbrev F.DCRTSEL_port : Field := ⟨0x48, 0, 7, .rw, 0, false⟩
/-- R434 -/
abbrev F.DCRTSTAT_panics : Field := ⟨0x4c, 17, 15, .ro, 0, false⟩
/-- R434 -/
abbrev F.DCRTSTAT_panic : Field := ⟨0x4c, 16, 1, .ro, 0, false⟩
/-- R434 -/
abbrev F.DCRTSTAT_level : Field := ⟨0x4c, 0, 16, .ro, 0, false⟩
/-- R434 -/
abbrev F.DCRTPANIC_sink : Field := ⟨0x50, 16, 8, .rw, 24, false⟩
/-- R434 -/
abbrev F.DCRTPANIC_feed : Field := ⟨0x50, 0, 8, .rw, 8, false⟩
/-- R434 -/
abbrev F.DCTRAIN_go : Field := ⟨0x54, 31, 1, .ws, 0, false⟩
/-- R434 -/
abbrev F.DCTRAIN_channel : Field := ⟨0x54, 16, 3, .rw, 0, false⟩
/-- R434 -/
abbrev F.DCTRAIN_kind : Field := ⟨0x54, 8, 2, .rw, 0, false⟩
/-- R434 -/
abbrev F.DCTRAIN_bursts : Field := ⟨0x54, 0, 8, .rw, 0, false⟩
/-- R434 -/
abbrev F.DCPATCFG_pattern : Field := ⟨0x58, 0, 3, .rw, 0, false⟩
/-- R434 -/
abbrev F.DCPATUSER_user : Field := ⟨0x5c, 0, 32, .rw, 0, false⟩
/-- R434 -/
abbrev F.DCCMP_done : Field := ⟨0x60, 31, 1, .ro, 0, false⟩
/-- R434 -/
abbrev F.DCCMP_fail : Field := ⟨0x60, 0, 18, .ro, 0, false⟩
/-- R434 -/
abbrev F.DCCMPCNT_count : Field := ⟨0x64, 0, 32, .ro, 0, false⟩
/-- R434 -/
abbrev F.DCCRCFAIL_count : Field := ⟨0x68, 0, 32, .ro, 0, false⟩
/-- R434 -/
abbrev F.DCSRAMPAR_count : Field := ⟨0x6c, 0, 32, .ro, 0, false⟩

/-! channel: R435 -/
/-- R435 -/
abbrev F.DCHDQ_wdly (i : Nat) : Field := ⟨0x40 + 4 * i, 8, 8, .rw, 0, false⟩
/-- R435 -/
abbrev F.DCHDQ_rdly (i : Nat) : Field := ⟨0x40 + 4 * i, 0, 8, .rw, 0, false⟩
/-- R435 -/
abbrev F.DCHDQS_gate : Field := ⟨0x90, 0, 8, .rw, 0, false⟩
/-- R435 -/
abbrev F.DCHEYE_weye : Field := ⟨0x94, 8, 8, .rw, 0, false⟩
/-- R435 -/
abbrev F.DCHEYE_reye : Field := ⟨0x94, 0, 8, .rw, 0, false⟩
/-- R435 -/
abbrev F.DCHECC_fail : Field := ⟨0x98, 16, 16, .rw, 0, false⟩
/-- R435 -/
abbrev F.DCHECC_fix : Field := ⟨0x98, 0, 16, .rw, 0, false⟩
/-- R435 -/
abbrev F.DCHECCADR_addr_lo : Field := ⟨0x9c, 0, 32, .ro, 0, false⟩
/-- R435 -/
abbrev F.DCHECCAHI_addr_hi : Field := ⟨0xa0, 0, 4, .ro, 0, false⟩
/-- R435 -/
abbrev F.DCHTEMP_rate : Field := ⟨0xa4, 0, 2, .ro, 0, false⟩

/-! engine: R264 -/
/-- R264 -/
abbrev F.EBCTRL_enable : Field := ⟨0x40, 0, 1, .rw, 0, false⟩
/-- R264 -/
abbrev F.EBSTAT_busy : Field := ⟨0x44, 16, 4, .ro, 0, false⟩
/-- R264 -/
abbrev F.EBSTAT_overload : Field := ⟨0x44, 8, 1, .wc, 0, false⟩
/-- R264 -/
abbrev F.EBSTAT_running : Field := ⟨0x44, 0, 1, .ro, 0, false⟩
/-- R264 -/
abbrev F.EBLOAD_peak : Field := ⟨0x48, 16, 12, .rw, 0, false⟩
/-- R264 -/
abbrev F.EBLOAD_load : Field := ⟨0x48, 0, 12, .ro, 0, false⟩
/-- R264 -/
abbrev F.EBTICK_ticks : Field := ⟨0x4c, 0, 32, .ro, 0, false⟩
/-- R264 -/
abbrev F.EBMCSEL_index : Field := ⟨0x50, 0, 14, .rw, 0, false⟩
/-- R264 (X) -/
abbrev F.EBMCLO_lo : Field := ⟨0x54, 0, 32, .rw, 0, false⟩
/-- R264 (X) -/
abbrev F.EBMCHI_hi : Field := ⟨0x58, 0, 32, .rw, 0, false⟩
/-- R264 -/
abbrev F.EBPARCNT_coef : Field := ⟨0x5c, 16, 16, .rw, 0, false⟩
/-- R264 -/
abbrev F.EBPARCNT_code : Field := ⟨0x5c, 0, 16, .rw, 0, false⟩
/-- R264 -/
abbrev F.EBPARFAIL_mem : Field := ⟨0x60, 31, 1, .ro, 0, false⟩
/-- R264 -/
abbrev F.EBPARFAIL_addr : Field := ⟨0x60, 0, 15, .ro, 0, false⟩

/-! slot: R266 -/
/-- R266 (N) -/
abbrev F.SLCTRL_action : Field := ⟨0x40, 12, 2, .rw, 0, false⟩
/-- R266 (N) -/
abbrev F.SLCTRL_lane : Field := ⟨0x40, 8, 2, .rw, 0, false⟩
/-- R266 (N) -/
abbrev F.SLCTRL_class : Field := ⟨0x40, 4, 2, .rw, 0, false⟩
/-- R266 (N) -/
abbrev F.SLCTRL_cmode : Field := ⟨0x40, 2, 1, .rw, 0, false⟩
/-- R266 -/
abbrev F.SLCTRL_run : Field := ⟨0x40, 0, 1, .rw, 0, false⟩
/-- R266 (N) -/
abbrev F.SLRATE_src : Field := ⟨0x44, 30, 1, .rw, 0, false⟩
/-- R266 (N) -/
abbrev F.SLRATE_head : Field := ⟨0x44, 28, 2, .rw, 0, false⟩
/-- R266 (N) -/
abbrev F.SLRATE_phase : Field := ⟨0x44, 16, 12, .rw, 0, false⟩
/-- R266 (N) -/
abbrev F.SLRATE_div : Field := ⟨0x44, 0, 12, .rw, 0, false⟩
/-- R266 (N) -/
abbrev F.SLPROG_cycmax : Field := ⟨0x48, 16, 12, .rw, 0, false⟩
/-- R266 (N) -/
abbrev F.SLPROG_start : Field := ⟨0x48, 0, 14, .rw, 0, false⟩
/-- R266 (N) -/
abbrev F.SLIN01_i1 : Field := ⟨0x4c, 16, 13, .rw, 0, false⟩
/-- R266 (N) -/
abbrev F.SLIN01_i0 : Field := ⟨0x4c, 0, 13, .rw, 0, false⟩
/-- R266 (N) -/
abbrev F.SLIN23_i3 : Field := ⟨0x50, 16, 13, .rw, 0, false⟩
/-- R266 (N) -/
abbrev F.SLIN23_i2 : Field := ⟨0x50, 0, 13, .rw, 0, false⟩
/-- R266 (N) -/
abbrev F.SLIN45_i5 : Field := ⟨0x54, 16, 13, .rw, 0, false⟩
/-- R266 (N) -/
abbrev F.SLIN45_i4 : Field := ⟨0x54, 0, 13, .rw, 0, false⟩
/-- R266 (N) -/
abbrev F.SLOUT_o1 : Field := ⟨0x58, 16, 13, .rw, 0, false⟩
/-- R266 (N) -/
abbrev F.SLOUT_o0 : Field := ⟨0x58, 0, 13, .rw, 0, false⟩
/-- R266 (N) -/
abbrev F.SLFF_src : Field := ⟨0x5c, 8, 4, .rw, 0, false⟩
/-- R266 (N) -/
abbrev F.SLFF_index : Field := ⟨0x5c, 0, 8, .rw, 0, false⟩
/-- R266 (N) -/
abbrev F.SLFFK_sh : Field := ⟨0x60, 24, 4, .rw, 0, false⟩
/-- R266 (N) -/
abbrev F.SLFFK_k : Field := ⟨0x60, 0, 24, .rw, 0, false⟩
/-- R266 (N) -/
abbrev F.SLREGCFG_src : Field := ⟨0x64, 0, 3, .rw, 0, false⟩
/-- R266 (N) -/
abbrev F.SLREGBRK_thr (i : Nat) : Field := ⟨0x68 + 4 * i, 0, 32, .rw, 0, false⟩
/-- R266 -/
abbrev F.SLBANK_swap : Field := ⟨0x78, 1, 1, .ws, 0, false⟩
/-- R266 -/
abbrev F.SLBANK_active : Field := ⟨0x78, 0, 1, .ro, 0, false⟩
/-- R266 -/
abbrev F.SLTUNE_count : Field := ⟨0x7c, 8, 8, .rw, 8, false⟩
/-- R266 -/
abbrev F.SLTUNE_cin : Field := ⟨0x7c, 4, 3, .rw, 0, false⟩
/-- R266 -/
abbrev F.SLTUNE_point : Field := ⟨0x7c, 3, 1, .rw, 0, false⟩
/-- R266 -/
abbrev F.SLTUNE_mode : Field := ⟨0x7c, 0, 3, .rw, 0, false⟩
/-- R266 -/
abbrev F.SLTUNEA_amp : Field := ⟨0x80, 0, 24, .rw, 0, false⟩
/-- R266 -/
abbrev F.SLTUNEF_inc1 : Field := ⟨0x84, 16, 16, .rw, 0, false⟩
/-- R266 -/
abbrev F.SLTUNEF_inc0 : Field := ⟨0x84, 0, 16, .rw, 0, false⟩
/-- R266 -/
abbrev F.SLCAPLO_base : Field := ⟨0x88, 6, 26, .rw, 0, false⟩
/-- R266 -/
abbrev F.SLCAPHI_base : Field := ⟨0x8c, 0, 32, .rw, 0, false⟩
/-- R266 -/
abbrev F.SLCAPLEN_len : Field := ⟨0x90, 0, 24, .rw, 0, false⟩
/-- R266 -/
abbrev F.SLCAPCNT_lost : Field := ⟨0x94, 24, 8, .ro, 0, false⟩
/-- R266 -/
abbrev F.SLCAPCNT_written : Field := ⟨0x94, 0, 24, .ro, 0, false⟩
/-- R266 -/
abbrev F.SLRLYPER_period : Field := ⟨0x98, 0, 24, .ro, 0, false⟩
/-- R266 -/
abbrev F.SLRLYAMP_amp : Field := ⟨0x9c, 0, 24, .ro, 0, false⟩
/-- R266 -/
abbrev F.SLSTAT_cause : Field := ⟨0xa0, 24, 4, .ro, 0, false⟩
/-- R266 -/
abbrev F.SLSTAT_region : Field := ⟨0xa0, 16, 4, .ro, 0, false⟩
/-- R266 -/
abbrev F.SLSTAT_tuning : Field := ⟨0xa0, 9, 1, .ro, 0, false⟩
/-- R266 -/
abbrev F.SLSTAT_sat : Field := ⟨0xa0, 8, 1, .wc, 0, false⟩
/-- R266 -/
abbrev F.SLSTAT_state : Field := ⟨0xa0, 0, 3, .ro, 0, false⟩
/-- R266 -/
abbrev F.SLSMPCNT_count : Field := ⟨0xa4, 0, 32, .ro, 0, false⟩
/-- R266 -/
abbrev F.SLREPCNT_count : Field := ⟨0xa8, 0, 32, .ro, 0, false⟩
/-- R266 -/
abbrev F.SLMISCNT_count : Field := ⟨0xac, 0, 32, .ro, 0, false⟩
/-- R266 -/
abbrev F.SLMAXCYC_max : Field := ⟨0xb0, 0, 12, .rw, 0, false⟩
/-- R266 -/
abbrev F.SLOUTV0_o0 : Field := ⟨0xb4, 0, 24, .ro, 0, false⟩
/-- R266 -/
abbrev F.SLOUTV1_o1 : Field := ⟨0xb8, 0, 24, .ro, 0, false⟩
/-- R266 -/
abbrev F.SLCSEL_batch : Field := ⟨0xc0, 31, 1, .rw, 0, false⟩
/-- R266 -/
abbrev F.SLCSEL_index : Field := ⟨0xc0, 0, 8, .rw, 0, false⟩
/-- R266 (N) -/
abbrev F.SLCDATA_coef : Field := ⟨0xc4, 0, 24, .rw, 0, false⟩
/-- R266 -/
abbrev F.SLXSEL_index : Field := ⟨0xc8, 0, 7, .rw, 0, false⟩
/-- R266 (X) -/
abbrev F.SLXDATA_data : Field := ⟨0xcc, 0, 24, .rw, 0, false⟩

/-! spindle: R218 -/
/-- R218 -/
abbrev F.SPCMD_speed : Field := ⟨0x40, 4, 1, .wo, 0, false⟩
/-- R218 -/
abbrev F.SPCMD_cmd : Field := ⟨0x40, 0, 4, .wo, 0, false⟩
/-- R218 -/
abbrev F.SPSTAT_cause : Field := ⟨0x44, 20, 4, .ro, 0, false⟩
/-- R218 -/
abbrev F.SPSTAT_head : Field := ⟨0x44, 16, 2, .ro, 0, false⟩
/-- R218 -/
abbrev F.SPSTAT_clock : Field := ⟨0x44, 15, 1, .ro, 0, false⟩
/-- R218 -/
abbrev F.SPSTAT_speed : Field := ⟨0x44, 4, 1, .ro, 0, false⟩
/-- R218 -/
abbrev F.SPSTAT_state : Field := ⟨0x44, 0, 4, .ro, 0, false⟩
/-- R218 -/
abbrev F.SPSPEED_speed : Field := ⟨0x48, 0, 18, .ro, 0, false⟩
/-- R218 -/
abbrev F.SPANGLE_valid : Field := ⟨0x4c, 31, 1, .ro, 0, false⟩
/-- R218 -/
abbrev F.SPANGLE_angle : Field := ⟨0x4c, 0, 18, .ro, 0, false⟩
/-- R218 -/
abbrev F.SPENC_count : Field := ⟨0x50, 16, 12, .ro, 0, false⟩
/-- R218 -/
abbrev F.SPENC_offset : Field := ⟨0x50, 0, 12, .ro, 0, false⟩
/-- R218 (N) -/
abbrev F.SPMOTOR_pairs : Field := ⟨0x54, 28, 4, .rw, 0, false⟩
/-- R218 (N) -/
abbrev F.SPMOTOR_res : Field := ⟨0x54, 16, 12, .rw, 0, false⟩
/-- R218 (N) -/
abbrev F.SPMOTOR_ind : Field := ⟨0x54, 0, 16, .rw, 0, false⟩
/-- R218 (N) -/
abbrev F.SPSHUNT_shunt : Field := ⟨0x58, 0, 8, .rw, 0, false⟩
/-- R218 (N) -/
abbrev F.SPFLUX_flux : Field := ⟨0x5c, 0, 16, .rw, 0, false⟩
/-- R218 (N) -/
abbrev F.SPTMAX_tmax : Field := ⟨0x60, 0, 16, .rw, 0, false⟩
/-- R218 -/
abbrev F.SPTCMD_torque : Field := ⟨0x64, 0, 16, .rw, 0, false⟩
/-- R218 -/
abbrev F.SPHYST_fband : Field := ⟨0x68, 16, 8, .rw, 20, false⟩
/-- R218 -/
abbrev F.SPHYST_tband : Field := ⟨0x68, 0, 8, .rw, 30, false⟩
/-- R218 -/
abbrev F.SPACC_acc : Field := ⟨0x6c, 0, 16, .rw, 6000, false⟩
/-- R218 -/
abbrev F.SPILIM_limit : Field := ⟨0x70, 0, 8, .rw, 160, false⟩
/-- R218 -/
abbrev F.SPDECEL_pmax : Field := ⟨0x74, 0, 8, .rw, 24, false⟩
/-- R218 -/
abbrev F.SPALIGN_margin : Field := ⟨0x78, 8, 4, .rw, 3, false⟩
/-- R218 -/
abbrev F.SPALIGN_width : Field := ⟨0x78, 0, 8, .rw, 32, false⟩
/-- R218 -/
abbrev F.SPALRES_sets : Field := ⟨0x7c, 9, 7, .ro, 0, false⟩
/-- R218 -/
abbrev F.SPALRES_angle : Field := ⟨0x7c, 0, 9, .ro, 0, false⟩
/-- R218 -/
abbrev F.SPCFG_refhead : Field := ⟨0x80, 0, 2, .rw, 0, false⟩

/-! stepper: R227 -/
/-- R227 -/
abbrev F.STCTRL_enable : Field := ⟨0x40, 2, 1, .rw, 0, false⟩
/-- R227 -/
abbrev F.STCTRL_mode : Field := ⟨0x40, 0, 2, .rw, 0, false⟩
/-- R227 -/
abbrev F.STSTAT_gsign : Field := ⟨0x44, 8, 2, .ro, 0, false⟩
/-- R227 -/
abbrev F.STSTAT_limin : Field := ⟨0x44, 4, 1, .ro, 0, false⟩
/-- R227 -/
abbrev F.STSTAT_limout : Field := ⟨0x44, 3, 1, .ro, 0, false⟩
/-- R227 -/
abbrev F.STSTAT_fault : Field := ⟨0x44, 2, 1, .ro, 0, false⟩
/-- R227 -/
abbrev F.STSTAT_still : Field := ⟨0x44, 1, 1, .ro, 0, false⟩
/-- R227 -/
abbrev F.STSTAT_moving : Field := ⟨0x44, 0, 1, .ro, 0, false⟩
/-- R227 -/
abbrev F.STPOS_pos : Field := ⟨0x48, 0, 32, .rw, 0, false⟩
/-- R227 -/
abbrev F.STTARGET_target : Field := ⟨0x4c, 0, 32, .rw, 0, false⟩
/-- R227 (N) -/
abbrev F.STVMAX_vmax : Field := ⟨0x50, 0, 23, .rw, 0, false⟩
/-- R227 (N) -/
abbrev F.STACC_acc : Field := ⟨0x54, 0, 32, .rw, 0, false⟩
/-- R227 (N) -/
abbrev F.STVOLT_base : Field := ⟨0x58, 16, 16, .rw, 0, false⟩
/-- R227 (N) -/
abbrev F.STVOLT_ke : Field := ⟨0x58, 0, 16, .rw, 0, false⟩
/-- R227 (N) -/
abbrev F.STSTILL_short : Field := ⟨0x5c, 8, 1, .rw, 0, false⟩
/-- R227 -/
abbrev F.STSTILL_delay : Field := ⟨0x5c, 0, 8, .rw, 20, false⟩
/-- R227 -/
abbrev F.STTSEL_index : Field := ⟨0x60, 0, 8, .rw, 0, false⟩
/-- R227 (Sine) -/
abbrev F.STTDATA_value : Field := ⟨0x64, 0, 12, .rw, 0, false⟩
/-- R227 -/
abbrev F.STGSEL_zone : Field := ⟨0x68, 0, 5, .rw, 0, false⟩
/-- R227 (N) -/
abbrev F.STGDATA_ratio : Field := ⟨0x6c, 0, 24, .rw, 0, false⟩
/-- R227 -/
abbrev F.STGCFG_sign : Field := ⟨0x70, 1, 2, .rw, 0, false⟩
/-- R227 -/
abbrev F.STGCFG_auto : Field := ⟨0x70, 0, 1, .rw, 1, false⟩
/-- R227 -/
abbrev F.STFOLLOW_corr : Field := ⟨0x74, 0, 16, .wo, 0, false⟩

/-! vcm: R231 -/
/-- R231 -/
abbrev F.VCCTRL_retract : Field := ⟨0x40, 1, 1, .ws, 0, false⟩
/-- R231 -/
abbrev F.VCCTRL_enable : Field := ⟨0x40, 0, 1, .rw, 0, false⟩
/-- R231 -/
abbrev F.VCSTAT_current : Field := ⟨0x44, 16, 16, .ro, 0, false⟩
/-- R231 -/
abbrev F.VCSTAT_short : Field := ⟨0x44, 3, 1, .ro, 0, false⟩
/-- R231 -/
abbrev F.VCSTAT_open : Field := ⟨0x44, 2, 1, .ro, 0, false⟩
/-- R231 -/
abbrev F.VCSTAT_atlimit : Field := ⟨0x44, 1, 1, .ro, 0, false⟩
/-- R231 -/
abbrev F.VCSTAT_ramping : Field := ⟨0x44, 0, 1, .ro, 0, false⟩
/-- R231 -/
abbrev F.VCOUT_cmd : Field := ⟨0x48, 0, 16, .ro, 0, false⟩
/-- R231 (N) -/
abbrev F.VCLIM_limit : Field := ⟨0x4c, 0, 15, .rw, 0, false⟩
/-- R231 (N) -/
abbrev F.VCSAFE_safe : Field := ⟨0x50, 0, 16, .rw, 0, false⟩
/-- R231 (N) -/
abbrev F.VCRAMP_slope : Field := ⟨0x54, 0, 8, .rw, 0, false⟩

/-! vmot: R232 -/
/-- R232 -/
abbrev F.VMVOLT_volt : Field := ⟨0x40, 0, 16, .ro, 0, false⟩
/-- R232 -/
abbrev F.VMUVT_warn : Field := ⟨0x44, 16, 16, .rw, 10500, false⟩
/-- R232 -/
abbrev F.VMUVT_fault : Field := ⟨0x44, 0, 16, .rw, 9800, false⟩
/-- R232 -/
abbrev F.VMSTAT_over : Field := ⟨0x48, 4, 1, .wc, 0, false⟩
/-- R232 -/
abbrev F.VMSTAT_brake : Field := ⟨0x48, 3, 1, .ro, 0, false⟩
/-- R232 -/
abbrev F.VMSTAT_regen : Field := ⟨0x48, 2, 1, .ro, 0, false⟩
/-- R232 -/
abbrev F.VMSTAT_uvfault : Field := ⟨0x48, 1, 1, .ro, 0, false⟩
/-- R232 -/
abbrev F.VMSTAT_uvwarn : Field := ⟨0x48, 0, 1, .ro, 0, false⟩

/-! fan: R603 -/
/-- R603 -/
abbrev F.FNCTRL_force : Field := ⟨0x40, 0, 1, .rw, 0, false⟩
/-- R603 -/
abbrev F.FNCFG_mindu : Field := ⟨0x44, 0, 8, .rw, 20, false⟩
/-- R603 -/
abbrev F.FNDUTY_applied : Field := ⟨0x48, 16, 11, .ro, 1024, false⟩
/-- R603 -/
abbrev F.FNDUTY_cmd : Field := ⟨0x48, 0, 11, .ro, 0, false⟩
/-- R603 -/
abbrev F.FNTACH_rpm : Field := ⟨0x4c, 0, 16, .ro, 0, false⟩
/-- R603 -/
abbrev F.FNSTAT_short : Field := ⟨0x50, 3, 1, .ro, 0, false⟩
/-- R603 -/
abbrev F.FNSTAT_fault : Field := ⟨0x50, 2, 1, .ro, 0, false⟩
/-- R603 -/
abbrev F.FNSTAT_checking : Field := ⟨0x50, 1, 1, .ro, 0, false⟩
/-- R603 -/
abbrev F.FNSTAT_forced : Field := ⟨0x50, 0, 1, .ro, 0, false⟩

/-! tray: R113 -/
/-- R113 -/
abbrev F.TBCTRL_sealnow : Field := ⟨0x40, 2, 1, .wo, 0, false⟩
/-- R113 -/
abbrev F.TBCTRL_hold : Field := ⟨0x40, 1, 1, .rw, 0, false⟩
/-- R113 -/
abbrev F.TBCTRL_enable : Field := ⟨0x40, 0, 1, .rw, 0, false⟩
/-- R113 -/
abbrev F.TBSTAT_capacity : Field := ⟨0x44, 17, 1, .ro, 0, false⟩
/-- R113 -/
abbrev F.TBSTAT_holding : Field := ⟨0x44, 16, 1, .ro, 0, false⟩
/-- R113 -/
abbrev F.TBSTAT_sealed : Field := ⟨0x44, 12, 3, .ro, 0, false⟩
/-- R113 -/
abbrev F.TBSTAT_held : Field := ⟨0x44, 0, 9, .ro, 0, false⟩
/-- R113 (X) -/
abbrev F.TBPOS_pointer : Field := ⟨0x48, 0, 21, .ro, 0, false⟩
/-- R113 (X) -/
abbrev F.TBSEQLO_seq_lo : Field := ⟨0x4c, 0, 32, .ro, 0, false⟩
/-- R113 (X) -/
abbrev F.TBSEQHI_seq_hi : Field := ⟨0x50, 0, 16, .ro, 0, false⟩
/-- R113 -/
abbrev F.TBHEADS_ready : Field := ⟨0x54, 8, 4, .ro, 0, false⟩
/-- R113 -/
abbrev F.TBHEADS_present : Field := ⟨0x54, 4, 4, .ro, 0, false⟩
/-- R113 -/
abbrev F.TBHEADS_enable : Field := ⟨0x54, 0, 4, .rw, 15, false⟩
/-- R113 -/
abbrev F.TBSEALTO_timeout : Field := ⟨0x58, 0, 16, .rw, 0, false⟩
/-- R113 -/
abbrev F.TBRELCNT_count : Field := ⟨0x5c, 0, 32, .rw, 0, false⟩
/-- R113 -/
abbrev F.TBZSEL_entry : Field := ⟨0x60, 0, 6, .rw, 0, false⟩
/-- R113 -/
abbrev F.TBZID_valid : Field := ⟨0x64, 31, 1, .rw, 0, false⟩
/-- R113 -/
abbrev F.TBZID_nsid : Field := ⟨0x64, 24, 6, .rw, 0, false⟩
/-- R113 -/
abbrev F.TBZID_nszone : Field := ⟨0x64, 12, 12, .rw, 0, false⟩
/-- R113 -/
abbrev F.TBZID_gzone : Field := ⟨0x64, 0, 12, .rw, 0, false⟩
/-- R113 -/
abbrev F.TBZWP_wp : Field := ⟨0x68, 0, 19, .rw, 0, false⟩
/-- R113 -/
abbrev F.TBHWCTRL_zero : Field := ⟨0x6c, 1, 1, .wo, 0, false⟩
/-- R113 -/
abbrev F.TBHWCTRL_valid : Field := ⟨0x6c, 0, 1, .rw, 0, false⟩
/-- R113 -/
abbrev F.TBHWSEL_entry : Field := ⟨0x70, 0, 17, .rw, 0, false⟩
/-- R113 -/
abbrev F.TBHWDATA_mark : Field := ⟨0x74, 0, 19, .rw, 262144, false⟩

/-! outer: R173 -/
/-- R173 -/
abbrev F.OCCNT_count : Field := ⟨0x40, 0, 32, .ro, 0, false⟩
/-- R173 -/
abbrev F.OCFCNT_count : Field := ⟨0x44, 0, 32, .ro, 0, false⟩

/-! deep: R173 -/
/-- R173 -/
abbrev F.DPCFG_itlim : Field := ⟨0x40, 0, 7, .rw, 64, false⟩
/-- R173 -/
abbrev F.DPBUSY_engines : Field := ⟨0x44, 0, 8, .ro, 0, false⟩
/-- R173 -/
abbrev F.DPCNT_count : Field := ⟨0x48, 0, 32, .ro, 0, false⟩
/-- R173 -/
abbrev F.DPFCNT_count : Field := ⟨0x4c, 0, 32, .ro, 0, false⟩

/-! media: R172, R500 -/
/-- R172 (N) -/
abbrev F.MRBASELO_base : Field := ⟨0x40, 20, 12, .rw, 0, false⟩
/-- R172 (N) -/
abbrev F.MRBASEHI_base : Field := ⟨0x44, 0, 32, .rw, 0, false⟩
/-- R172 -/
abbrev F.MRLADDER_batch : Field := ⟨0x48, 16, 8, .rw, 50, false⟩
/-- R172 -/
abbrev F.MRLADDER_passes : Field := ⟨0x48, 8, 4, .rw, 8, false⟩
/-- R172 -/
abbrev F.MRLADDER_realloc : Field := ⟨0x48, 1, 1, .rw, 1, false⟩
/-- R172 -/
abbrev F.MRLADDER_deep : Field := ⟨0x48, 0, 1, .rw, 1, false⟩
/-- R172 -/
abbrev F.MRSHEAD_head : Field := ⟨0x4c, 0, 12, .ro, 0, false⟩
/-- R172 -/
abbrev F.MRSTAIL_tail : Field := ⟨0x50, 0, 12, .rw, 0, false⟩
/-- R172 -/
abbrev F.MRSTAT_basewait : Field := ⟨0x54, 29, 1, .ro, 0, false⟩
/-- R172 -/
abbrev F.MRSTAT_held : Field := ⟨0x54, 28, 1, .ro, 0, false⟩
/-- R172 -/
abbrev F.MRSTAT_step5 : Field := ⟨0x54, 27, 1, .ro, 0, false⟩
/-- R172 -/
abbrev F.MRSTAT_deep : Field := ⟨0x54, 16, 11, .ro, 0, false⟩
/-- R172 -/
abbrev F.MRSTAT_realloc : Field := ⟨0x54, 0, 9, .ro, 0, false⟩
/-- R500 -/
abbrev F.MBGSKIP_skip : Field := ⟨0x60, 31, 1, .ws, 0, false⟩
/-- R500 -/
abbrev F.MBGSKIP_count : Field := ⟨0x60, 0, 16, .ro, 0, false⟩

/-! head: R171, R201, R499 -/
/-- R171 -/
abbrev F.HCLKSTAT_missing : Field := ⟨0x200, 16, 16, .ro, 0, false⟩
/-- R171 -/
abbrev F.HCLKSTAT_lost : Field := ⟨0x200, 1, 1, .wc, 0, false⟩
/-- R171 -/
abbrev F.HCLKSTAT_locked : Field := ⟨0x200, 0, 1, .ro, 0, false⟩
/-- R171 -/
abbrev F.HCLKPHE_error : Field := ⟨0x204, 0, 16, .ro, 0, false⟩
/-- R201 -/
abbrev F.HSEQCMD_pair : Field := ⟨0x40, 31, 1, .wo, 0, false⟩
/-- R201 -/
abbrev F.HSEQCMD_cmd : Field := ⟨0x40, 24, 4, .wo, 0, false⟩
/-- R201 -/
abbrev F.HSEQCMD_layer : Field := ⟨0x40, 16, 4, .wo, 0, false⟩
/-- R201 -/
abbrev F.HSEQCMD_group : Field := ⟨0x40, 0, 14, .wo, 0, false⟩
/-- R201 -/
abbrev F.HSEQSTAT_group : Field := ⟨0x44, 16, 14, .ro, 0, false⟩
/-- R201 -/
abbrev F.HSEQSTAT_layer : Field := ⟨0x44, 12, 4, .ro, 0, false⟩
/-- R201 -/
abbrev F.HSEQSTAT_result : Field := ⟨0x44, 8, 4, .ro, 0, false⟩
/-- R201 -/
abbrev F.HSEQSTAT_ready : Field := ⟨0x44, 5, 1, .ro, 0, false⟩
/-- R201 -/
abbrev F.HSEQSTAT_busy : Field := ⟨0x44, 4, 1, .ro, 0, false⟩
/-- R201 -/
abbrev F.HSEQSTAT_state : Field := ⟨0x44, 0, 4, .ro, 0, false⟩
/-- R201 -/
abbrev F.HSVPOS_pos : Field := ⟨0x48, 0, 32, .ro, 0, false⟩
/-- R201 -/
abbrev F.HTRKERR_valid : Field := ⟨0x4c, 31, 1, .ro, 0, false⟩
/-- R201 -/
abbrev F.HTRKERR_wedge : Field := ⟨0x4c, 16, 10, .ro, 0, false⟩
/-- R201 -/
abbrev F.HTRKERR_error : Field := ⟨0x4c, 0, 16, .ro, 0, false⟩
/-- R201 -/
abbrev F.HTRKLIM_limit : Field := ⟨0x50, 0, 8, .rw, 16, false⟩
/-- R201 (N) -/
abbrev F.HSVOFS_offset : Field := ⟨0x54, 0, 16, .rw, 0, false⟩
/-- R201 -/
abbrev F.HFSTHR_hyst : Field := ⟨0x58, 28, 4, .rw, 8, false⟩
/-- R201 -/
abbrev F.HFSTHR_lwg : Field := ⟨0x58, 20, 4, .rw, 10, false⟩
/-- R201 -/
abbrev F.HFSTHR_lloss : Field := ⟨0x58, 16, 4, .rw, 6, false⟩
/-- R201 -/
abbrev F.HFSTHR_lacq : Field := ⟨0x58, 12, 4, .rw, 8, false⟩
/-- R201 -/
abbrev F.HFSTHR_wg : Field := ⟨0x58, 8, 4, .rw, 10, false⟩
/-- R201 -/
abbrev F.HFSTHR_loss : Field := ⟨0x58, 4, 4, .rw, 6, false⟩
/-- R201 -/
abbrev F.HFSTHR_acq : Field := ⟨0x58, 0, 4, .rw, 8, false⟩
/-- R201 (N) -/
abbrev F.HFSNOM_lfs : Field := ⟨0x5c, 16, 16, .rw, 0, false⟩
/-- R201 (N) -/
abbrev F.HFSNOM_fs : Field := ⟨0x5c, 0, 16, .rw, 0, false⟩
/-- R201 -/
abbrev F.HOFFSET_tilt : Field := ⟨0x60, 8, 8, .rw, 0, false⟩
/-- R201 -/
abbrev F.HOFFSET_focus : Field := ⟨0x60, 0, 8, .rw, 0, false⟩
/-- R201 -/
abbrev F.HLAYSEL_layer : Field := ⟨0x64, 0, 4, .rw, 0, false⟩
/-- R201 (N) -/
abbrev F.HLAYDATA_trim : Field := ⟨0x68, 16, 16, .rw, 0, false⟩
/-- R201 (X) -/
abbrev F.HLAYDATA_depth : Field := ⟨0x68, 0, 16, .ro, 0, false⟩
/-- R201 -/
abbrev F.HSVPWR_on : Field := ⟨0x6c, 8, 1, .ro, 0, false⟩
/-- R201 (N) -/
abbrev F.HSVPWR_power : Field := ⟨0x6c, 0, 8, .rw, 0, false⟩
/-- R201 -/
abbrev F.HSVCFG_autojump : Field := ⟨0x70, 8, 1, .rw, 1, false⟩
/-- R201 -/
abbrev F.HSVCFG_retries : Field := ⟨0x70, 0, 4, .rw, 3, false⟩
/-- R201 -/
abbrev F.HSVFLT_flags : Field := ⟨0x74, 0, 9, .wc, 0, false⟩
/-- R201 -/
abbrev F.HADCCFG_dither (i : Nat) : Field := ⟨0x80 + 4 * i, 8, 1, .rw, 1, false⟩
/-- R201 (N) -/
abbrev F.HADCCFG_gain (i : Nat) : Field := ⟨0x80 + 4 * i, 0, 2, .rw, 0, false⟩
/-- R201 -/
abbrev F.HADCSTAT_overruns (i : Nat) : Field := ⟨0xa0 + 4 * i, 16, 16, .ro, 0, false⟩
/-- R201 -/
abbrev F.HADCSTAT_run (i : Nat) : Field := ⟨0xa0 + 4 * i, 8, 8, .ro, 0, false⟩
/-- R201 -/
abbrev F.HADCSTAT_frozen (i : Nat) : Field := ⟨0xa0 + 4 * i, 0, 1, .ro, 0, false⟩
/-- R201 -/
abbrev F.HADCLAST_word (i : Nat) : Field := ⟨0xc0 + 4 * i, 0, 16, .ro, 0, false⟩
/-- R499 (N) -/
abbrev F.HCALFOC_trim : Field := ⟨0x100, 0, 8, .rw, 0, false⟩
/-- R499 (N) -/
abbrev F.HCALTLT_trim : Field := ⟨0x104, 0, 8, .rw, 0, false⟩
/-- R499 (N) -/
abbrev F.HCALLAY_trim : Field := ⟨0x108, 0, 8, .rw, 0, false⟩
/-- R499 -/
abbrev F.HBGREQ_go : Field := ⟨0x10c, 31, 1, .ws, 0, false⟩
/-- R499 -/
abbrev F.HBGREQ_kind : Field := ⟨0x10c, 24, 3, .rw, 0, false⟩
/-- R499 -/
abbrev F.HBGREQ_slot : Field := ⟨0x10c, 16, 7, .rw, 0, false⟩
/-- R499 -/
abbrev F.HBGREQ_mode : Field := ⟨0x10c, 12, 3, .rw, 0, false⟩
/-- R499 -/
abbrev F.HBGREQ_amp : Field := ⟨0x10c, 0, 8, .rw, 2, false⟩
/-- R499 -/
abbrev F.HBGRES_steps : Field := ⟨0x110, 16, 16, .ro, 0, false⟩
/-- R499 -/
abbrev F.HBGRES_result : Field := ⟨0x110, 0, 2, .ro, 0, false⟩
/-- R499 -/
abbrev F.HBGRESP_amp : Field := ⟨0x114, 0, 16, .ro, 0, false⟩
/-- R499 -/
abbrev F.HBGRESN_amp : Field := ⟨0x118, 0, 16, .ro, 0, false⟩

/-! laser: R126 -/
/-- R126 -/
abbrev F.LPTSEL_index : Field := ⟨0x40, 0, 8, .rw, 0, false⟩
/-- R126 (X) -/
abbrev F.LPTDATA_data : Field := ⟨0x44, 0, 32, .rw, 0, false⟩
/-- R126 (N) -/
abbrev F.LPMAX_max : Field := ⟨0x48, 0, 8, .rw, 0, false⟩

/-! beam: R124, R129, R170, R500 -/
/-- R124 (N) -/
abbrev F.BWSSHAPE0_wc : Field := ⟨0x50, 24, 6, .rw, 0, false⟩
/-- R124 (N) -/
abbrev F.BWSSHAPE0_wl : Field := ⟨0x50, 16, 6, .rw, 0, false⟩
/-- R124 (N) -/
abbrev F.BWSSHAPE0_wm : Field := ⟨0x50, 8, 6, .rw, 0, false⟩
/-- R124 (N) -/
abbrev F.BWSSHAPE0_wf : Field := ⟨0x50, 0, 6, .rw, 0, false⟩
/-- R124 (N) -/
abbrev F.BWSSHAPE1_w2 : Field := ⟨0x54, 8, 6, .rw, 0, false⟩
/-- R124 (N) -/
abbrev F.BWSSHAPE1_w1 : Field := ⟨0x54, 0, 6, .rw, 0, false⟩
/-- R124 (N) -/
abbrev F.BWSEDGE_e3 (i : Nat) : Field := ⟨0x60 + 4 * i, 24, 6, .rw, 0, false⟩
/-- R124 (N) -/
abbrev F.BWSEDGE_e2 (i : Nat) : Field := ⟨0x60 + 4 * i, 16, 6, .rw, 0, false⟩
/-- R124 (N) -/
abbrev F.BWSEDGE_e1 (i : Nat) : Field := ⟨0x60 + 4 * i, 8, 6, .rw, 0, false⟩
/-- R124 (N) -/
abbrev F.BWSEDGE_e0 (i : Nat) : Field := ⟨0x60 + 4 * i, 0, 6, .rw, 0, false⟩
/-- R129 -/
abbrev F.BWCTRL_retire : Field := ⟨0x40, 0, 1, .ws, 0, false⟩
/-- R129 -/
abbrev F.BWSTAT_cause : Field := ⟨0x44, 4, 4, .ro, 0, false⟩
/-- R129 (P) -/
abbrev F.BWSTAT_retired : Field := ⟨0x44, 3, 1, .ro, 0, true⟩
/-- R129 -/
abbrev F.BWSTAT_candidate : Field := ⟨0x44, 2, 1, .wc, 0, false⟩
/-- R129 -/
abbrev F.BWSTAT_active : Field := ⟨0x44, 1, 1, .ro, 0, false⟩
/-- R129 -/
abbrev F.BWSTAT_gate : Field := ⟨0x44, 0, 1, .ro, 0, false⟩
/-- R129 (N) -/
abbrev F.BWDELAY_offset : Field := ⟨0x48, 0, 16, .rw, 0, false⟩
/-- R129 (X) -/
abbrev F.BWPLEV0_p3_p0 : Field := ⟨0x58, 0, 32, .ro, 0, false⟩
/-- R129 (X) -/
abbrev F.BWPLEV1_p7_p4 : Field := ⟨0x5c, 0, 32, .ro, 0, false⟩
/-- R129 -/
abbrev F.BDRAWCFG_errlim : Field := ⟨0x80, 16, 12, .rw, 111, false⟩
/-- R129 -/
abbrev F.BDRAWCFG_itlim : Field := ⟨0x80, 0, 4, .rw, 12, false⟩
/-- R129 -/
abbrev F.BDRAWCNT_count : Field := ⟨0x84, 0, 32, .ro, 0, false⟩
/-- R129 -/
abbrev F.BDRAWFCNT_count : Field := ⟨0x88, 0, 32, .ro, 0, false⟩
/-- R129 -/
abbrev F.BDRAWLAST_verdict : Field := ⟨0x8c, 20, 4, .ro, 0, false⟩
/-- R129 -/
abbrev F.BDRAWLAST_maxit : Field := ⟨0x8c, 16, 4, .ro, 0, false⟩
/-- R129 -/
abbrev F.BDRAWLAST_maxerr : Field := ⟨0x8c, 0, 12, .ro, 0, false⟩
/-- R129 -/
abbrev F.BDRAWWIN_over : Field := ⟨0x90, 0, 8, .ro, 0, false⟩
/-- R170 -/
abbrev F.BRCTRL_trimhold : Field := ⟨0xa0, 1, 1, .rw, 0, false⟩
/-- R170 -/
abbrev F.BRCTRL_enable : Field := ⟨0xa0, 0, 1, .rw, 0, false⟩
/-- R170 -/
abbrev F.BRSTAT_hdrcopy : Field := ⟨0xa4, 24, 3, .ro, 0, false⟩
/-- R170 -/
abbrev F.BRSTAT_step : Field := ⟨0xa4, 16, 3, .ro, 0, false⟩
/-- R170 -/
abbrev F.BRSTAT_syncofs : Field := ⟨0xa4, 0, 11, .ro, 0, false⟩
/-- R170 (N) -/
abbrev F.BRLIVE0_bytes3_0 : Field := ⟨0xb0, 0, 32, .rw, 0, false⟩
/-- R170 (N) -/
abbrev F.BRLIVE1_bytes7_4 : Field := ⟨0xb4, 0, 32, .rw, 0, false⟩
/-- R170 (N) -/
abbrev F.BRLIVE2_bytes11_8 : Field := ⟨0xb8, 0, 32, .rw, 0, false⟩
/-- R170 (N) -/
abbrev F.BRLIVE3_bytes15_12 : Field := ⟨0xbc, 0, 32, .rw, 0, false⟩
/-- R170 (N) -/
abbrev F.BRPWR_trim : Field := ⟨0xc0, 0, 8, .rw, 0, false⟩
/-- R170 -/
abbrev F.BRSYNC_win : Field := ⟨0xc4, 8, 8, .rw, 64, false⟩
/-- R170 -/
abbrev F.BRSYNC_tol : Field := ⟨0xc4, 0, 4, .rw, 4, false⟩
/-- R170 -/
abbrev F.BRDECCNT_count : Field := ⟨0xc8, 0, 32, .ro, 0, false⟩
/-- R170 -/
abbrev F.BRDECFCNT_count : Field := ⟨0xcc, 0, 32, .ro, 0, false⟩
/-- R170 -/
abbrev F.BRCORR_count : Field := ⟨0xd0, 0, 32, .ro, 0, false⟩
/-- R500 -/
abbrev F.BCALCTRL_blocks : Field := ⟨0xe0, 16, 16, .rw, 1200, false⟩
/-- R500 (N) -/
abbrev F.BCALCTRL_adapt : Field := ⟨0xe0, 2, 1, .rw, 0, false⟩
/-- R500 (N) -/
abbrev F.BCALCTRL_dither : Field := ⟨0xe0, 1, 1, .rw, 0, false⟩
/-- R500 (N) -/
abbrev F.BCALCTRL_enable : Field := ⟨0xe0, 0, 1, .rw, 0, false⟩
/-- R500 -/
abbrev F.BCSOFT1_mean : Field := ⟨0xe4, 0, 16, .ro, 0, false⟩
/-- R500 -/
abbrev F.BCSOFT0_mean : Field := ⟨0xe8, 0, 16, .ro, 0, false⟩
/-- R500 -/
abbrev F.BCITER_mean : Field := ⟨0xec, 0, 16, .ro, 0, false⟩
/-- R500 -/
abbrev F.BCBETA_beta : Field := ⟨0xf0, 0, 16, .ro, 0, false⟩
/-- R500 (N) -/
abbrev F.BCDRAWOFS_ofs : Field := ⟨0xf4, 0, 8, .rw, 0, false⟩
/-- R500 -/
abbrev F.BCGATH_count : Field := ⟨0xf8, 0, 32, .ro, 0, false⟩

/-! ring: R554 -/
/-- R554 -/
abbrev F.RNCTRL_autorel : Field := ⟨0x40, 2, 1, .rw, 1, false⟩
/-- R554 -/
abbrev F.RNCTRL_portb : Field := ⟨0x40, 1, 1, .rw, 0, false⟩
/-- R554 -/
abbrev F.RNCTRL_porta : Field := ⟨0x40, 0, 1, .rw, 0, false⟩
/-- R554 -/
abbrev F.RNSTAT_members : Field := ⟨0x44, 16, 7, .ro, 0, false⟩
/-- R554 -/
abbrev F.RNSTAT_substate : Field := ⟨0x44, 8, 4, .ro, 0, false⟩
/-- R554 -/
abbrev F.RNSTAT_held : Field := ⟨0x44, 4, 1, .ro, 0, false⟩
/-- R554 -/
abbrev F.RNSTAT_state : Field := ⟨0x44, 0, 4, .ro, 0, false⟩
/-- R554 -/
abbrev F.RNEPOCH_epoch : Field := ⟨0x48, 0, 16, .ro, 0, false⟩
/-- R554 -/
abbrev F.RNCYCLE_cycle : Field := ⟨0x4c, 0, 32, .ro, 0, false⟩
/-- R554 -/
abbrev F.RNIN0_in : Field := ⟨0x50, 0, 32, .rw, 0, false⟩
/-- R554 -/
abbrev F.RNIN1_in : Field := ⟨0x54, 0, 32, .rw, 0, false⟩
/-- R554 -/
abbrev F.RNOUT0_out : Field := ⟨0x58, 0, 32, .ro, 0, false⟩
/-- R554 -/
abbrev F.RNOUT1_out : Field := ⟨0x5c, 0, 32, .ro, 0, false⟩
/-- R554 -/
abbrev F.RNGABASELO_base : Field := ⟨0x60, 11, 21, .rw, 0, false⟩
/-- R554 -/
abbrev F.RNGABASEHI_base : Field := ⟨0x64, 0, 32, .rw, 0, false⟩
/-- R554 -/
abbrev F.RNSCBASELO_base : Field := ⟨0x68, 11, 21, .rw, 0, false⟩
/-- R554 -/
abbrev F.RNSCBASEHI_base : Field := ⟨0x6c, 0, 32, .rw, 0, false⟩
/-- R554 -/
abbrev F.RNRES_result : Field := ⟨0x70, 30, 2, .ro, 0, false⟩
/-- R554 -/
abbrev F.RNRES_subres : Field := ⟨0x70, 28, 2, .ro, 0, false⟩
/-- R554 -/
abbrev F.RNSTALELO_mask : Field := ⟨0x74, 0, 32, .ro, 0, false⟩
/-- R554 -/
abbrev F.RNSTALEHI_mask : Field := ⟨0x78, 0, 32, .ro, 0, false⟩
/-- R554 -/
abbrev F.RNRSEL_ring : Field := ⟨0x7c, 0, 1, .rw, 0, false⟩
/-- R554 -/
abbrev F.RNMEMLO_mask : Field := ⟨0x80, 0, 32, .ro, 0, false⟩
/-- R554 -/
abbrev F.RNMEMHI_mask : Field := ⟨0x84, 0, 32, .ro, 0, false⟩
/-- R554 -/
abbrev F.RNHELDLO_mask : Field := ⟨0x88, 0, 32, .ro, 0, false⟩
/-- R554 -/
abbrev F.RNHELDHI_mask : Field := ⟨0x8c, 0, 32, .ro, 0, false⟩
/-- R554 -/
abbrev F.RNREL_all : Field := ⟨0x90, 31, 1, .wo, 0, false⟩
/-- R554 -/
abbrev F.RNREL_station : Field := ⟨0x90, 0, 6, .wo, 0, false⟩
/-- R554 -/
abbrev F.RNLOOP_loop : Field := ⟨0x94, 0, 16, .ro, 0, false⟩
/-- R554 -/
abbrev F.RNRXBASELO_base : Field := ⟨0x98, 18, 14, .rw, 0, false⟩
/-- R554 -/
abbrev F.RNRXBASEHI_base : Field := ⟨0x9c, 0, 32, .rw, 0, false⟩
/-- R554 -/
abbrev F.RNRXHEAD_head : Field := ⟨0xa0, 0, 8, .ro, 0, false⟩
/-- R554 -/
abbrev F.RNRXTAIL_tail : Field := ⟨0xa4, 0, 8, .rw, 0, false⟩
/-- R554 -/
abbrev F.RWSEL_window : Field := ⟨0xa8, 0, 4, .rw, 0, false⟩
/-- R554 -/
abbrev F.RWMAP_valid : Field := ⟨0xac, 31, 1, .rw, 0, false⟩
/-- R554 -/
abbrev F.RWMAP_device : Field := ⟨0xac, 16, 12, .rw, 0, false⟩
/-- R554 -/
abbrev F.RWMAP_block : Field := ⟨0xac, 0, 6, .rw, 0, false⟩
/-- R554 -/
abbrev F.RWSTAT_timeouts : Field := ⟨0xb0, 0, 16, .rw, 0, false⟩

/-! join: R555 -/
/-- R555 -/
abbrev F.STADDR_auto : Field := ⟨0x40, 31, 1, .rwl, 1, false⟩
/-- R555 -/
abbrev F.STADDR_root : Field := ⟨0x40, 12, 6, .ro, 0, false⟩
/-- R555 -/
abbrev F.STADDR_station : Field := ⟨0x40, 0, 6, .rwl, 0, false⟩
/-- R555 -/
abbrev F.JNSTAT_result : Field := ⟨0x44, 28, 4, .ro, 0, false⟩
/-- R555 -/
abbrev F.JNSTAT_device : Field := ⟨0x44, 0, 12, .ro, 0, false⟩

/-! pair: R555 -/
/-- R555 -/
abbrev F.PLCTRL_takeover : Field := ⟨0x40, 3, 1, .ws, 0, false⟩
/-- R555 -/
abbrev F.PLCTRL_manual : Field := ⟨0x40, 2, 1, .rw, 0, false⟩
/-- R555 -/
abbrev F.PLCTRL_role : Field := ⟨0x40, 0, 2, .rw, 0, false⟩
/-- R555 -/
abbrev F.PLSTAT_lanes : Field := ⟨0x44, 20, 4, .ro, 0, false⟩
/-- R555 -/
abbrev F.PLSTAT_missed : Field := ⟨0x44, 8, 8, .ro, 0, false⟩
/-- R555 -/
abbrev F.PLSTAT_peer : Field := ⟨0x44, 4, 2, .ro, 0, false⟩
/-- R555 -/
abbrev F.PLSTAT_state : Field := ⟨0x44, 0, 4, .ro, 0, false⟩
/-- R555 -/
abbrev F.PLHB_period : Field := ⟨0x48, 8, 8, .rw, 10, false⟩
/-- R555 -/
abbrev F.PLKICK_kick : Field := ⟨0x4c, 0, 16, .wo, 0, false⟩
/-- R555 -/
abbrev F.PLRXBASELO_base : Field := ⟨0x50, 16, 16, .rw, 0, false⟩
/-- R555 -/
abbrev F.PLRXBASEHI_base : Field := ⟨0x54, 0, 32, .rw, 0, false⟩
/-- R555 -/
abbrev F.PLRXHEAD_head : Field := ⟨0x58, 0, 10, .ro, 0, false⟩
/-- R555 -/
abbrev F.PLRXTAIL_tail : Field := ⟨0x5c, 0, 10, .rw, 0, false⟩

/-- The fields of the thermal registers. -/
def Fields.thermal : List Field :=
   [F.THCOMP_comp, F.THLIM_shut, F.THLIM_stop, F.THLIM_throttle, F.THSTAT_shutdown, F.THSTAT_sensor, F.THSTAT_restrict, F.THSTAT_fanfault] ++
   [F.THSTAT_stopwrite, F.THSTAT_throttle] ++
   (List.range 3).map F.THDIE_peak ++
   (List.range 3).map F.THDIE_temp

/-- The fields of the time registers. -/
def Fields.time : List Field :=
   [F.TRGACK_ack, F.TCBASE_base, F.TCEPOCHLO_epoch_lo, F.TCEPOCHHI_epoch_hi, F.TCRATE_den, F.TCRATE_num, F.TMLO_time_lo, F.TMHI_time_hi] ++
   [F.TMSETLO_set_lo, F.TMSETHI_set_hi, F.TMCTRL_cmd, F.TMCFG_allowstep, F.TMCFG_src, F.TMCFG_edge, F.TMCFG_kp, F.TMCFG_ki] ++
   [F.TMCFG_stepthr, F.TMCFG_lockthr, F.TMPPSCFG_win, F.TMPPSCFG_ofs, F.TMSTAT_misses, F.TMSTAT_extras, F.TMSTAT_refused, F.TMSTAT_armed] ++
   [F.TMSTAT_refbad, F.TMSTAT_state, F.TMPPSLO_cap_lo, F.TMPPSHI_cap_hi, F.TMERR_error, F.TMRATE_rate, F.TMHOP_hop, F.CISEL_island] ++
   [F.CISTAT_margin, F.CISTAT_clock, F.CISTAT_state] ++
   (List.range 4).map F.TRGCFG_enable ++
   (List.range 4).map F.TRGCFG_edge ++
   (List.range 4).map F.TRGCFG_filter ++
   (List.range 4).map F.TRGTLO_time_lo ++
   (List.range 4).map F.TRGTHI_time_hi ++
   (List.range 4).map F.TRGSTAT_dropped ++
   (List.range 4).map F.TRGSTAT_level ++
   (List.range 4).map F.TRGSTAT_pending

/-- The fields of the nor registers. -/
def Fields.nor : List Field :=
   [F.NORADDR_offset, F.NORSRC_addr, F.NORCMD_len, F.NORCMD_cmd, F.NORSTAT_busy, F.NORSTAT_result]

/-- The fields of the power registers. -/
def Fields.power : List Field :=
   [F.PWSTART_skipped, F.PWSTART_half, F.PWSTART_level, F.PWSTART_provider, F.PWSTART_stage, F.PWMODE_mode, F.PWSKIP_skip, F.PWCAUSE_cause] ++
   [F.PWSTRAP_mstr, F.PWSTRAP_ppspol, F.PWSTRAP_tsrc, F.PWSTRAP_bootmd, F.PWCTRL_devreset, F.PWWDOG_timeout, F.PWWDOG_kick, F.PWWDCNT_count]

/-- The fields of the event registers. -/
def Fields.event : List Field :=
   [F.EVRSEL_source, F.EVRDATA_enable, F.EVRDATA_lane, F.LNSEL_lane, F.LNDEST_ring, F.LNDEST_vector, F.LNDEST_msix, F.LNDEST_cores] ++
   [F.LNPEND0_pend, F.LNPEND1_pend, F.LNREARM0_rearm, F.LNREARM1_rearm, F.LNSRC_source, F.CRSEL_entry, F.CRHEAD_valid, F.CRHEAD_head] ++
   [F.CRSTAT_flood, F.CRSTAT_queued, F.CROVER_count, F.CRLOST_count, F.CRFLOOD_enter, F.CRFLOOD_leave, F.CRMBASELO_base, F.CRMBASELO_enable] ++
   [F.CRMBASEHI_base, F.CRSWLO_detail, F.CRSWHI_detail, F.CRSWCMD_code, F.CRSEQ_seq] ++
   (List.range 8).map F.CRDATA_word

/-- The fields of the pcie registers. -/
def Fields.pcie : List Field :=
   [F.PCLINK_up, F.PCLINK_width, F.PCLINK_speed, F.PCERR_uncorr, F.PCERR_corr, F.PCRESET_busy, F.PCRESET_count]

/-- The fields of the nvme registers. -/
def Fields.nvme : List Field :=
   [F.NVCTRL_cfs, F.NVCTRL_ready, F.NVSTAT_limit, F.NVSTAT_rdy, F.NVSTAT_en, F.NVSTAT_outst, F.NVQSEL_queue, F.NVQCFG_keeper] ++
   [F.NVQCFG_cores, F.NVQSTAT_waiting, F.NVQSTAT_outst, F.NVVIOL_count]

/-- The fields of the sas registers. -/
def Fields.sas : List Field :=
   [F.SACTRL_phyen, F.SACTRL_ready, F.SAPHY0_hreset, F.SAPHY1_hreset, F.SAPHY0_up, F.SAPHY1_up, F.SAPHY0_rate, F.SAPHY1_rate] ++
   [F.SAADDR0LO_addr, F.SAADDR0HI_addr, F.SAADDR1LO_addr, F.SAADDR1HI_addr, F.SAOUTST_portb, F.SAOUTST_porta, F.SAQSEL_queue, F.SAQCFG_keeper] ++
   [F.SAQCFG_cores, F.SAINSEL_entry, F.SAINADLO_addr, F.SAINADHI_addr, F.SAINCFG_valid, F.SAINCFG_guest, F.SAVIOL_count, F.SAVIOLALO_addr] ++
   [F.SAVIOLAHI_addr]

/-- The fields of the guest registers. -/
def Fields.guest : List Field :=
   [F.GNVMELO_qp, F.GNVMEHI_qp]

/-- The fields of the kc registers. -/
def Fields.kc : List Field :=
   [F.KCCTRL_hold, F.KCCTRL_reset, F.KCCTRL_run, F.KCSTART_start, F.KCGUEST_guest] ++
   (List.range 8).map F.KCAP_writable ++
   (List.range 8).map F.KCAP_cacheable ++
   (List.range 8).map F.KCAP_valid ++
   (List.range 8).map F.KCAP_base

/-- The fields of the core registers. -/
def Fields.core : List Field :=
   [F.CSTAT_doublefault, F.CSTAT_halted, F.CSTAT_waiting, F.CSTAT_yielding, F.CSTAT_lastcause, F.CPC_pc, F.CPARI_lines, F.CPARI_refetch] ++
   [F.CPARD_lines, F.CPARD_refetch, F.CPARS_count, F.CPARSADR_addr, F.CSMPCTL_seed, F.CSMPCTL_enable, F.CSMPN_n, F.CSMPBASE_base] ++
   [F.CSMPLEN_k, F.CSMPHEAD_head, F.CSMPTAIL_tail, F.CSMPLOST_skipped, F.CSMPLOST_dropped]

/-- The fields of the l2 registers. -/
def Fields.l2 : List Field :=
   [F.L2PAR_lines, F.L2PAR_refetch, F.L2OFFER_count, F.L2DECL_count]

/-- The fields of the mover registers. -/
def Fields.mover : List Field :=
   [F.SMSTAT_running, F.SMSTAT_busy, F.SMSTAT_queued, F.SMCHSEL_channel, F.SMCHSTAT_code, F.SMCHSTAT_owner, F.SMCHSTAT_state, F.SMRESLO_residue] ++
   [F.SMRESHI_residue, F.SMABORT_channel, F.SMDONECNT_count]

/-- The fields of the hash registers. -/
def Fields.hash : List Field :=
   [F.HSSTAT_requester, F.HSSTAT_busy, F.HSSTAT_queued, F.HSCNT_count, F.HSMISCNT_count]

/-- The fields of the dram registers. -/
def Fields.dram : List Field :=
   [F.DCCTRL_refresh, F.DCCTRL_enable, F.DCSTAT_ready, F.DCSTAT_step, F.DCRTSEL_port, F.DCRTSTAT_panics, F.DCRTSTAT_panic, F.DCRTSTAT_level] ++
   [F.DCRTPANIC_sink, F.DCRTPANIC_feed, F.DCTRAIN_go, F.DCTRAIN_channel, F.DCTRAIN_kind, F.DCTRAIN_bursts, F.DCPATCFG_pattern, F.DCPATUSER_user] ++
   [F.DCCMP_done, F.DCCMP_fail, F.DCCMPCNT_count, F.DCCRCFAIL_count, F.DCSRAMPAR_count]

/-- The fields of the channel registers. -/
def Fields.channel : List Field :=
   [F.DCHDQS_gate, F.DCHEYE_weye, F.DCHEYE_reye, F.DCHECC_fail, F.DCHECC_fix, F.DCHECCADR_addr_lo, F.DCHECCAHI_addr_hi, F.DCHTEMP_rate] ++
   (List.range 18).map F.DCHDQ_wdly ++
   (List.range 18).map F.DCHDQ_rdly

/-- The fields of the engine registers. -/
def Fields.engine : List Field :=
   [F.EBCTRL_enable, F.EBSTAT_busy, F.EBSTAT_overload, F.EBSTAT_running, F.EBLOAD_peak, F.EBLOAD_load, F.EBTICK_ticks, F.EBMCSEL_index] ++
   [F.EBMCLO_lo, F.EBMCHI_hi, F.EBPARCNT_coef, F.EBPARCNT_code, F.EBPARFAIL_mem, F.EBPARFAIL_addr]

/-- The fields of the slot registers. -/
def Fields.slot : List Field :=
   [F.SLCTRL_action, F.SLCTRL_lane, F.SLCTRL_class, F.SLCTRL_cmode, F.SLCTRL_run, F.SLRATE_src, F.SLRATE_head, F.SLRATE_phase] ++
   [F.SLRATE_div, F.SLPROG_cycmax, F.SLPROG_start, F.SLIN01_i1, F.SLIN01_i0, F.SLIN23_i3, F.SLIN23_i2, F.SLIN45_i5] ++
   [F.SLIN45_i4, F.SLOUT_o1, F.SLOUT_o0, F.SLFF_src, F.SLFF_index, F.SLFFK_sh, F.SLFFK_k, F.SLREGCFG_src] ++
   [F.SLBANK_swap, F.SLBANK_active, F.SLTUNE_count, F.SLTUNE_cin, F.SLTUNE_point, F.SLTUNE_mode, F.SLTUNEA_amp, F.SLTUNEF_inc1] ++
   [F.SLTUNEF_inc0, F.SLCAPLO_base, F.SLCAPHI_base, F.SLCAPLEN_len, F.SLCAPCNT_lost, F.SLCAPCNT_written, F.SLRLYPER_period, F.SLRLYAMP_amp] ++
   [F.SLSTAT_cause, F.SLSTAT_region, F.SLSTAT_tuning, F.SLSTAT_sat, F.SLSTAT_state, F.SLSMPCNT_count, F.SLREPCNT_count, F.SLMISCNT_count] ++
   [F.SLMAXCYC_max, F.SLOUTV0_o0, F.SLOUTV1_o1, F.SLCSEL_batch, F.SLCSEL_index, F.SLCDATA_coef, F.SLXSEL_index, F.SLXDATA_data] ++
   (List.range 4).map F.SLREGBRK_thr

/-- The fields of the spindle registers. -/
def Fields.spindle : List Field :=
   [F.SPCMD_speed, F.SPCMD_cmd, F.SPSTAT_cause, F.SPSTAT_head, F.SPSTAT_clock, F.SPSTAT_speed, F.SPSTAT_state, F.SPSPEED_speed] ++
   [F.SPANGLE_valid, F.SPANGLE_angle, F.SPENC_count, F.SPENC_offset, F.SPMOTOR_pairs, F.SPMOTOR_res, F.SPMOTOR_ind, F.SPSHUNT_shunt] ++
   [F.SPFLUX_flux, F.SPTMAX_tmax, F.SPTCMD_torque, F.SPHYST_fband, F.SPHYST_tband, F.SPACC_acc, F.SPILIM_limit, F.SPDECEL_pmax] ++
   [F.SPALIGN_margin, F.SPALIGN_width, F.SPALRES_sets, F.SPALRES_angle, F.SPCFG_refhead]

/-- The fields of the stepper registers. -/
def Fields.stepper : List Field :=
   [F.STCTRL_enable, F.STCTRL_mode, F.STSTAT_gsign, F.STSTAT_limin, F.STSTAT_limout, F.STSTAT_fault, F.STSTAT_still, F.STSTAT_moving] ++
   [F.STPOS_pos, F.STTARGET_target, F.STVMAX_vmax, F.STACC_acc, F.STVOLT_base, F.STVOLT_ke, F.STSTILL_short, F.STSTILL_delay] ++
   [F.STTSEL_index, F.STTDATA_value, F.STGSEL_zone, F.STGDATA_ratio, F.STGCFG_sign, F.STGCFG_auto, F.STFOLLOW_corr]

/-- The fields of the vcm registers. -/
def Fields.vcm : List Field :=
   [F.VCCTRL_retract, F.VCCTRL_enable, F.VCSTAT_current, F.VCSTAT_short, F.VCSTAT_open, F.VCSTAT_atlimit, F.VCSTAT_ramping, F.VCOUT_cmd] ++
   [F.VCLIM_limit, F.VCSAFE_safe, F.VCRAMP_slope]

/-- The fields of the vmot registers. -/
def Fields.vmot : List Field :=
   [F.VMVOLT_volt, F.VMUVT_warn, F.VMUVT_fault, F.VMSTAT_over, F.VMSTAT_brake, F.VMSTAT_regen, F.VMSTAT_uvfault, F.VMSTAT_uvwarn]

/-- The fields of the fan registers. -/
def Fields.fan : List Field :=
   [F.FNCTRL_force, F.FNCFG_mindu, F.FNDUTY_applied, F.FNDUTY_cmd, F.FNTACH_rpm, F.FNSTAT_short, F.FNSTAT_fault, F.FNSTAT_checking] ++
   [F.FNSTAT_forced]

/-- The fields of the tray registers. -/
def Fields.tray : List Field :=
   [F.TBCTRL_sealnow, F.TBCTRL_hold, F.TBCTRL_enable, F.TBSTAT_capacity, F.TBSTAT_holding, F.TBSTAT_sealed, F.TBSTAT_held, F.TBPOS_pointer] ++
   [F.TBSEQLO_seq_lo, F.TBSEQHI_seq_hi, F.TBHEADS_ready, F.TBHEADS_present, F.TBHEADS_enable, F.TBSEALTO_timeout, F.TBRELCNT_count, F.TBZSEL_entry] ++
   [F.TBZID_valid, F.TBZID_nsid, F.TBZID_nszone, F.TBZID_gzone, F.TBZWP_wp, F.TBHWCTRL_zero, F.TBHWCTRL_valid, F.TBHWSEL_entry] ++
   [F.TBHWDATA_mark]

/-- The fields of the outer registers. -/
def Fields.outer : List Field :=
   [F.OCCNT_count, F.OCFCNT_count]

/-- The fields of the deep registers. -/
def Fields.deep : List Field :=
   [F.DPCFG_itlim, F.DPBUSY_engines, F.DPCNT_count, F.DPFCNT_count]

/-- The fields of the media registers. -/
def Fields.media : List Field :=
   [F.MRBASELO_base, F.MRBASEHI_base, F.MRLADDER_batch, F.MRLADDER_passes, F.MRLADDER_realloc, F.MRLADDER_deep, F.MRSHEAD_head, F.MRSTAIL_tail] ++
   [F.MRSTAT_basewait, F.MRSTAT_held, F.MRSTAT_step5, F.MRSTAT_deep, F.MRSTAT_realloc, F.MBGSKIP_skip, F.MBGSKIP_count]

/-- The fields of the head registers. -/
def Fields.head : List Field :=
   [F.HCLKSTAT_missing, F.HCLKSTAT_lost, F.HCLKSTAT_locked, F.HCLKPHE_error, F.HSEQCMD_pair, F.HSEQCMD_cmd, F.HSEQCMD_layer, F.HSEQCMD_group] ++
   [F.HSEQSTAT_group, F.HSEQSTAT_layer, F.HSEQSTAT_result, F.HSEQSTAT_ready, F.HSEQSTAT_busy, F.HSEQSTAT_state, F.HSVPOS_pos, F.HTRKERR_valid] ++
   [F.HTRKERR_wedge, F.HTRKERR_error, F.HTRKLIM_limit, F.HSVOFS_offset, F.HFSTHR_hyst, F.HFSTHR_lwg, F.HFSTHR_lloss, F.HFSTHR_lacq] ++
   [F.HFSTHR_wg, F.HFSTHR_loss, F.HFSTHR_acq, F.HFSNOM_lfs, F.HFSNOM_fs, F.HOFFSET_tilt, F.HOFFSET_focus, F.HLAYSEL_layer] ++
   [F.HLAYDATA_trim, F.HLAYDATA_depth, F.HSVPWR_on, F.HSVPWR_power, F.HSVCFG_autojump, F.HSVCFG_retries, F.HSVFLT_flags, F.HCALFOC_trim] ++
   [F.HCALTLT_trim, F.HCALLAY_trim, F.HBGREQ_go, F.HBGREQ_kind, F.HBGREQ_slot, F.HBGREQ_mode, F.HBGREQ_amp, F.HBGRES_steps] ++
   [F.HBGRES_result, F.HBGRESP_amp, F.HBGRESN_amp] ++
   (List.range 6).map F.HADCCFG_dither ++
   (List.range 6).map F.HADCCFG_gain ++
   (List.range 6).map F.HADCSTAT_overruns ++
   (List.range 6).map F.HADCSTAT_run ++
   (List.range 6).map F.HADCSTAT_frozen ++
   (List.range 6).map F.HADCLAST_word

/-- The fields of the laser registers. -/
def Fields.laser : List Field :=
   [F.LPTSEL_index, F.LPTDATA_data, F.LPMAX_max]

/-- The fields of the beam registers. -/
def Fields.beam : List Field :=
   [F.BWSSHAPE0_wc, F.BWSSHAPE0_wl, F.BWSSHAPE0_wm, F.BWSSHAPE0_wf, F.BWSSHAPE1_w2, F.BWSSHAPE1_w1, F.BWCTRL_retire, F.BWSTAT_cause] ++
   [F.BWSTAT_retired, F.BWSTAT_candidate, F.BWSTAT_active, F.BWSTAT_gate, F.BWDELAY_offset, F.BWPLEV0_p3_p0, F.BWPLEV1_p7_p4, F.BDRAWCFG_errlim] ++
   [F.BDRAWCFG_itlim, F.BDRAWCNT_count, F.BDRAWFCNT_count, F.BDRAWLAST_verdict, F.BDRAWLAST_maxit, F.BDRAWLAST_maxerr, F.BDRAWWIN_over, F.BRCTRL_trimhold] ++
   [F.BRCTRL_enable, F.BRSTAT_hdrcopy, F.BRSTAT_step, F.BRSTAT_syncofs, F.BRLIVE0_bytes3_0, F.BRLIVE1_bytes7_4, F.BRLIVE2_bytes11_8, F.BRLIVE3_bytes15_12] ++
   [F.BRPWR_trim, F.BRSYNC_win, F.BRSYNC_tol, F.BRDECCNT_count, F.BRDECFCNT_count, F.BRCORR_count, F.BCALCTRL_blocks, F.BCALCTRL_adapt] ++
   [F.BCALCTRL_dither, F.BCALCTRL_enable, F.BCSOFT1_mean, F.BCSOFT0_mean, F.BCITER_mean, F.BCBETA_beta, F.BCDRAWOFS_ofs, F.BCGATH_count] ++
   (List.range 8).map F.BWSEDGE_e3 ++
   (List.range 8).map F.BWSEDGE_e2 ++
   (List.range 8).map F.BWSEDGE_e1 ++
   (List.range 8).map F.BWSEDGE_e0

/-- The fields of the ring registers. -/
def Fields.ring : List Field :=
   [F.RNCTRL_autorel, F.RNCTRL_portb, F.RNCTRL_porta, F.RNSTAT_members, F.RNSTAT_substate, F.RNSTAT_held, F.RNSTAT_state, F.RNEPOCH_epoch] ++
   [F.RNCYCLE_cycle, F.RNIN0_in, F.RNIN1_in, F.RNOUT0_out, F.RNOUT1_out, F.RNGABASELO_base, F.RNGABASEHI_base, F.RNSCBASELO_base] ++
   [F.RNSCBASEHI_base, F.RNRES_result, F.RNRES_subres, F.RNSTALELO_mask, F.RNSTALEHI_mask, F.RNRSEL_ring, F.RNMEMLO_mask, F.RNMEMHI_mask] ++
   [F.RNHELDLO_mask, F.RNHELDHI_mask, F.RNREL_all, F.RNREL_station, F.RNLOOP_loop, F.RNRXBASELO_base, F.RNRXBASEHI_base, F.RNRXHEAD_head] ++
   [F.RNRXTAIL_tail, F.RWSEL_window, F.RWMAP_valid, F.RWMAP_device, F.RWMAP_block, F.RWSTAT_timeouts]

/-- The fields of the join registers. -/
def Fields.join : List Field :=
   [F.STADDR_auto, F.STADDR_root, F.STADDR_station, F.JNSTAT_result, F.JNSTAT_device]

/-- The fields of the pair registers. -/
def Fields.pair : List Field :=
   [F.PLCTRL_takeover, F.PLCTRL_manual, F.PLCTRL_role, F.PLSTAT_lanes, F.PLSTAT_missed, F.PLSTAT_peer, F.PLSTAT_state, F.PLHB_period] ++
   [F.PLKICK_kick, F.PLRXBASELO_base, F.PLRXBASEHI_base, F.PLRXHEAD_head, F.PLRXTAIL_tail]

/-- The fields of every unit header (R37): those that are not constants of the unit. -/
def Fields.header : List Field :=
  [F.ULOCK_locked, F.ULOCK_by_device, F.USTAT_state, F.UAGE_health, F.UAGE_index]

/-- The stored fields of every event block (R43). -/
def Fields.evblock : List Field := [F.EVRAW, F.EVENA]

/-- The fields of the key unit (R58). -/
def Fields.key : List Field := F.KEYMASK_mask :: (List.range 12).map F.KEYSLOT

/-- The field of the counter pod (R456). -/
def Fields.counterPod : List Field := [F.CTWRAPLAST_index]

end Sys2Proof.Machine
end

