-- ==== Sys2Proof/Machine/State.lean ====
section
/-! DEFINITION. The state of the device: everything the spec gives it, as plain data. Register fields that software sees
are held in one sparse table `regs`, keyed by window offset and low bit; what lies behind index registers, in queues, in
memories, on the medium and inside the units is held in the structures of this file. -/

namespace Sys2Proof.Machine

/-! ## Events, crumbs, counters (14) -/

/-- One crumb as it is offered to the crumb log (R444), stamped with TIMENS when offered (R473);
`flood` says that the flood state treats it (R447). -/
structure Crumb where
  cls : Nat
  req : Nat
  src : Nat
  code : Nat
  d6 : Nat
  d7 : Nat
  t : Nat
  flood : Bool
deriving DecidableEq, Repr

/-- One entry of the crumb log (R444): the crumb that created it, its sequence number, its latest occurrence, its count
and whether a repeat has been counted into it. -/
structure CrumbEntry where
  crumb : Crumb
  seq : Nat
  last : Nat
  count : Nat
  coalesced : Bool
deriving DecidableEq, Repr

/-- The crumb unit (R444 to R449): the queue of at most 64, the log of 4,096 entries, the crumbs accepted in the 1-ms
interval under way, the words CRSEL latched, and each requester's CRSWLO and CRSWHI (key 2r and 2r + 1). -/
structure CrumbUnit where
  queue : List Crumb
  log : Tbl (Option CrumbEntry)
  accepted : Nat
  latched : List Nat
  sw : Tbl Nat
deriving DecidableEq, Repr

/-- A source's route entry (R440). -/
structure Route where
  enable : Bool
  lane : Nat
deriving DecidableEq, Repr

/-- A lane's destinations (R441, R455). -/
structure LaneDest where
  ring : Bool
  vector : Nat
  msix : Bool
  cores : Nat
deriving DecidableEq, Repr

/-- The lanes: routes by source number, destinations by lane, and the lanes that have sent their message and are not
re-armed (R441). -/
structure Lanes where
  route : Tbl Route
  dest : Tbl LaneDest
  sent : Tbl Bool
deriving DecidableEq, Repr

/-- The counters (R451, R452): values and wrap counts by physical index, and the sticky wrap flags, keyed 512 × place +
entry with guest view g at place g and the counter pod at place 8. -/
structure Counters where
  val : Tbl Nat
  wraps : Tbl Nat
  flag : Tbl Bool
  rem : Nat
deriving DecidableEq, Repr

/-- A CTLO latch (R454): the place (view or pod) and entry it belongs to, the count's high bits, the wrap flag and the
wrap count as latched. -/
structure CtLatch where
  place : Nat
  entry : Nat
  hi : Nat
  flag : Bool
  wraps : Nat
deriving DecidableEq, Repr

/-- What register reads latch (R53) and what the last read returned: the response the requester sees. Latches kept per
requester are keyed by requester number. -/
structure ReadPort where
  data : Nat
  tbSeqHi : Option Nat
  trgHi : Tbl (Option Nat)
  tmHi : Tbl (Option Nat)
  ppsHi : Option Nat
  ct : Tbl (Option CtLatch)
  mcHi : Option Nat
deriving DecidableEq, Repr

/-- What the device sends to the outside, oldest first: MSI-X vectors (R441). -/
structure Port where
  msix : List Nat
deriving DecidableEq, Repr

/-! ## Buffer memory (13) and the L2 (09) -/

/-- One set of the L2 (R300): the line numbers held by its 16 ways, and the 15 bits of its replacement tree. -/
structure L2Set where
  ways : Tbl (Option Nat)
  tree : Nat
deriving DecidableEq, Repr

/-- The L2 (R300): its sets by set number. Every line is clean and equal to DRAM (R277, R300), so only presence is held, and which lines
are flagged bad (R303). -/
structure L2Cache where
  sets : Tbl L2Set
  bad : List Nat
deriving DecidableEq, Repr

/-! ## Time (15) and triggers, timecode (10) -/

/-- The time unit (R463 to R471): TIMENS, the 32-bit fraction below it, the integrator i in 1/256 ppb (the rate
correction r is TMRATE), the candidate capture of acquiring, the TIMENS at which the next edge or sync is expected, the
run of missing edges, the runs of updates within and beyond lockthr, and the requester of an armed load. -/
structure TimeUnit where
  ns : Nat
  frac : Nat
  integ : Int
  cand : Option Int
  expect : Option Int
  missRun : Nat
  okRun : Nat
  badRun : Nat
  loadReq : Nat
deriving DecidableEq, Repr

/-- The timecode generator (R334, R335): the base and epoch in force, whether a set waits for the next strobe and which
requester wrote it, and the TIMENS and timecode field sampled by the last window-start strobe (R474). -/
structure Timecode where
  base : Nat
  epoch : Nat
  armed : Bool
  req : Nat
  stampNs : Nat
  stampTc : Nat
deriving DecidableEq, Repr

/-! ## The tray builder (04) -/

/-- What a journal codeword carries beside plain records: the flush record of a flush, or the bake record (R96). -/
inductive Mark where
  | none
  | flush (id : Nat)
  | bake
deriving DecidableEq, Repr

/-- A codeword taken by the tray builder: what is recorded, the number of its acceptance, the burst-buffer address it was
taken from (0: none), whether a journal codeword has its number (R89), and its mark. -/
structure PCw where
  cw : Cw
  acc : Nat
  src : Nat
  numbered : Bool
  mark : Mark
deriving DecidableEq, Repr

/-- A relocated copy (R130, R131): its number, its codewords, the beams it must avoid, the failed attempts of the original
block, whether its runs come from a read recovered hard (R167), the beams of its tray still to be judged and whether one
has failed. -/
structure Copy where
  id : Nat
  cws : List PCw
  avoid : List Nat
  fails : Nat
  read : Bool
  parts : List Nat
  failed : Bool
deriving DecidableEq, Repr

/-- A slot of a tray: its codeword and the copy it belongs to. -/
structure Slot where
  cw : PCw
  copy : Option Nat
deriving DecidableEq, Repr

/-- A sealed tray (R102): position, sequence number, the heads present, for each head the mask of its active beams and its
parity beam, the slots in order, whether outer parity is complete and whether readiness has been checked. -/
structure Tray where
  pos : Nat
  seq : Nat
  heads : List Nat
  masks : List Nat
  parity : List Nat
  slots : List Slot
  parityDone : Bool
  checked : Bool
deriving DecidableEq, Repr

/-- The tray being written: the beams whose gates are open, whether the position is abandoned, and TIMENS and timecode of
its strobe (R474). -/
structure Writing where
  tray : Tray
  gates : List Nat
  abandoned : Bool
  ns : Nat
  tc : Nat
deriving DecidableEq, Repr

/-- A written tray held in staging (R105): the beams whose verdict is due and the copies of its failed blocks not yet passed. -/
structure Held where
  tray : Tray
  due : List Nat
  copies : List Nat
deriving DecidableEq, Repr

/-- A descriptor of the data, map or journal queue (R112): its fields, the requester, whether a field is invalid, the pages
where the stock recorder posts them itself, the command of the recorder that waits for it (0: none), and the units taken. -/
structure Desc where
  notify : Bool
  entry : Nat
  count : Nat
  lba : Nat
  src : Nat
  tag : Nat
  status : Nat
  req : Nat
  bad : Bool
  pages : List (Nat × Mark)
  op : Nat
  taken : Nat
deriving DecidableEq, Repr

/-- An entry of the zone table (R107). -/
structure ZEnt where
  valid : Bool
  nsid : Nat
  nszone : Nat
  gzone : Nat
  wp : Nat
deriving DecidableEq, Repr

/-- The tray builder (R102 to R121, R130 to R134). `stash` holds trays unsealed at the readiness check while `awaited` heads
may still become ready; `closeUpTo` is the acceptance up to which a flush, checkpoint, bake or sealnow needs trays closed;
`forced` are the forced windows of R484 at or after the write pointer; `paused` are the reasons not to seal: 1 reads are
served (R157), 2 the spindle changes speed (R135), 3 a step-5 batch runs (R163), 4 the device leaves operation. -/
structure TrayBuilder where
  dataQ : List Desc
  mapQ : List Desc
  jourQ : List Desc
  wData : List PCw
  wMap : List PCw
  wJour : List PCw
  copiesDue : List Copy
  copiesOut : List Copy
  sealed : List Tray
  stash : List Tray
  awaited : List Nat
  writing : Option Writing
  staging : List Held
  cleared : List Nat
  zones : Tbl ZEnt
  hw : Tbl Nat
  hwDefault : Nat
  zeroing : Bool
  heldHw : List (Nat × Nat)
  heldValid : Bool
  journalNo : Nat
  nextAcc : Nat
  nextCopy : Nat
  closeUpTo : Nat
  timedOut : Bool
  retiring : List Nat
  nextPos : Nat
  forced : List Nat
  paused : List Nat
  lastSealed : Option Nat
  lastData : Option Nat
  writerDone : Bool
  judged : Tbl (Nat × Nat)
deriving DecidableEq, Repr

/-- The tray builder with nothing taken and every high-water mark at 262,144 (R109). -/
def TrayBuilder.empty : TrayBuilder where
  dataQ := []
  mapQ := []
  jourQ := []
  wData := []
  wMap := []
  wJour := []
  copiesDue := []
  copiesOut := []
  sealed := []
  stash := []
  awaited := []
  writing := none
  staging := []
  cleared := []
  zones := []
  hw := []
  hwDefault := 262144
  zeroing := false
  heldHw := []
  heldValid := false
  journalNo := 0
  nextAcc := 1
  nextCopy := 1
  closeUpTo := 0
  timedOut := false
  retiring := []
  nextPos := 0
  forced := []
  paused := []
  lastSealed := none
  lastData := none
  writerDone := false
  judged := []

/-! ## The host controller (11, 12) -/

/-- The statuses the spec names (R369, R402) and the ones it takes from the standards (R348, R355, R384, R406). -/
inductive Stat where
  | success
  | invalidOpcode
  | invalidField
  | invalidParam
  | internalError
  | aborted
  | busy
  | capacityExceeded
  | noCartridge
  | notAttached
  | writeProtected
  | zoneBoundary
  | fullZone
  | outOfOrder
  | openLimit
  | resetRefused
  | unrecovered
  | mediaIncompatible
  | baked
  | sessionBusy
  | notRecording
  | insufficientCapacity
  | identifierUnavailable
  | alreadyAttached
  | becomingReady
  | lbaRange
  | invalidQueue
  | invalidQueueSize
  | invalidVector
  | invalidQueueDelete
  | cqInvalid
  | abortRequested
  | sqDeleted
  | overlapRange
  | invalidLog
  | aerLimit
  | invalidNamespace
  | prpOffset
  | dataTransfer
  | nsAttached
  | nsNotAttached
  | ctrlListInvalid
  | invalidSlot
  | invalidImage
  | needsReset
  | selfTestBusy
  | noRoiSetup
  | roiResources
  | tooMuchData
  | wrongOffset
  | dataTimeout
  | tagOverlap
  | unitAttention (asc : Nat)
deriving DecidableEq, Repr

/-- How far a command has come in the controller (R350, R351, R393). -/
inductive HStage where
  | parked
  | moving
  | queued
  | taken
  | given
deriving DecidableEq, Repr

/-- A command outstanding in a controller slot (R352, R390): its queue (0 to 64 NVMe, 65 and 66 the SAS ports), CID or tag,
initiator, LUN, attribute, opcode, NSID, dwords 2, 3, 10 to 15 or the CDB bytes, the data length and where its data lies, the
host data still to come as 4 KiB pages, the guest, the stage, and whether it is discarded; for SAS the bytes asked for by
XFER_RDY and the bytes received. -/
structure HCmd where
  queue : Nat
  ident : Nat
  init : Nat
  lun : Nat
  attr : Nat
  opc : Nat
  nsid : Nat
  dw : List Nat
  dlen : Nat
  dbuf : Nat
  pages : List Nat
  guest : Nat
  stage : HStage
  discarded : Bool
  fail : Option Stat
  asked : Nat
  got : Nat
deriving DecidableEq, Repr

/-- A submission queue: its size, its completion queue, tail and head. -/
structure Sq where
  size : Nat
  cq : Nat
  tail : Nat
  head : Nat
deriving DecidableEq, Repr

/-- A completion queue: its size, its vector, whether interrupts are on, tail, head and phase. -/
structure Cq where
  size : Nat
  vector : Nat
  ien : Bool
  tail : Nat
  head : Nat
  phase : Bool
deriving DecidableEq, Repr

/-- A completion record given and not yet posted (R353, R391): the slot, its queue, the NVMe status field or the words 1 and
2 of R391, the two dwords, the information field, and the data as bytes. -/
structure CRec where
  queue : Nat
  slot : Nat
  status : Nat
  asc : Nat
  dw0 : Nat
  dw1 : Nat
  info : Nat
  data : List Byte
deriving DecidableEq, Repr

/-- An initiator table entry (R407). -/
structure InitEnt where
  addr : Nat
  valid : Bool
  guest : Nat
deriving DecidableEq, Repr

/-- A pull's parameters (R337). -/
structure Roi where
  first : Nat
  fstride : Nat
  step : Nat
  count : Nat
  lbytes : Nat
  x : Nat
  w : Nat
  y : Nat
  h : Nat
deriving DecidableEq, Repr

/-- An I_T nexus seen by a SAS port (R403, R394): the port (0 A, 1 B), the initiator, the unit attentions pending, oldest
first, and the maximum burst size of its disconnect-reconnect page. -/
structure Nexus where
  port : Nat
  init : Nat
  ua : List Nat
  burst : Nat
deriving DecidableEq, Repr

/-- The host controller: CC.EN, CC.CSS, CSTS.CFS, CSTS.SHST and the shutdown under way, the queues, the outstanding
commands by slot, the command queues' untaken slots in order, the records waiting, the queue assigned next turn and what is
left of its turn (R350), the features (R375), asynchronous event requests and events held (R379), the error log and the
changed zones, the core assignments of NVQCFG and SAQCFG, the initiator table, the nexuses, the times of each port's mode
page, the ROI setups, and the burst-buffer units in use. -/
structure HostCtl where
  en : Bool
  css : Nat
  shst : Nat
  confReady : Bool
  perst : Bool
  sqs : Tbl (Option Sq)
  cqs : Tbl (Option Cq)
  slots : Tbl (Option HCmd)
  waiting : Tbl (List Nat)
  recs : List CRec
  turn : Nat
  left : Nat
  limited : Bool
  feats : Tbl Nat
  aers : List Nat
  heldEvents : List (Nat × Nat × Nat)
  errLog : List (Nat × Nat × Nat × Nat)
  errCount : Nat
  zoneList : List Nat
  qcores : Tbl Nat
  inits : Tbl InitEnt
  nexuses : List Nexus
  lossTime : Tbl Nat
  respTime : Tbl Nat
  setups : List (Nat × Nat × Nat × Roi)
  unitsUsed : Tbl Bool
deriving DecidableEq, Repr

/-- What the controller sends to a host: an NVMe completion queue entry posted (R353), or a SAS frame (R391, R393, R404). -/
inductive HostMsg where
  | cqe (cq sq sqHead cid status dw0 dw1 : Nat) (phase : Bool) (data : List Byte)
  | xferRdy (port init tag offset len : Nat)
  | response (port init tag status key asc residual : Nat) (info : Option Nat) (data : List Byte)
  | tmResponse (port init tag code : Nat)
  | nak (port : Nat)
  | openReject (port : Nat)
  | openAccept (port : Nat)
  | retryStatus
  | config
deriving DecidableEq, Repr

/-! ## The stock recorder (10) and the medium (03) -/

/-- A namespace or partition of the pool (R358): its zones (0: the index is unused), whether it is live, and its attachments
(R395: bit 0 NVMe for writing, 1 NVMe read-only, 2 SAS for writing, 3 SAS read-only). -/
structure NsEnt where
  zones : Nat
  live : Bool
  att : Nat
deriving DecidableEq, Repr

/-- The states of a zone as the hosts see it (R360, R361). -/
inductive ZState where
  | empty
  | implicitOpen
  | explicitOpen
  | closed
  | readOnly
deriving DecidableEq, Repr

/-- A namespace zone: its state, write pointer offset, global zone and its zone table entry while it has one. -/
structure ZoneSt where
  st : ZState
  wp : Nat
  gzone : Nat
  entry : Nat
deriving DecidableEq, Repr

/-- A checkpoint in progress (R91 to R94): its number, its cut, its last page, whether that page is posted, and the slot
address of its open record once that has passed. -/
structure Ckpt where
  number : Nat
  cut : Nat
  lastIndex : Nat
  lastPage : Nat
  posted : Bool
  openSlot : Nat
deriving DecidableEq, Repr

/-- A flush in progress (R116, R367): its number, the last acceptance it covers, TIMENS when it was taken, the last tray that
holds its data, and whether the codeword of its record has been sealed, with the acceptance of that codeword. -/
structure FlushSt where
  id : Nat
  bound : Nat
  t : Nat
  seq : Option Nat
  recAcc : Option Nat
deriving DecidableEq, Repr

/-- What a taken command of the stock recorder waits for. -/
inductive OpKind where
  | write (nsid first count : Nat) (append fua : Bool)
  | fua (bound nsid first count : Nat) (append : Bool)
  | flush (id : Nat)
  | read (nsid first : Nat) (pages : List (Option Nat)) (verify : Bool) (failed : Option Nat)
  | roi (r : Roi) (nsid next todo : Nat) (done : List Byte) (pages : List (Option Nat)) (failed : Option Nat)
  | ckpt (number result : Nat) (data : Bool)
  | bake
  | load
  | eject
  | power (ps : Nat)
  | forwarded (tag : Nat)
deriving DecidableEq, Repr

/-- A command taken and not yet completed (R322): its number, slot and queue, the core that holds it, and what it waits for. -/
structure Op where
  id : Nat
  slot : Nat
  queue : Nat
  core : Nat
  kind : OpKind
deriving DecidableEq, Repr

/-- A media read descriptor (R156): its number in the order posted, tray, first slot, count, its flags, destination and tag,
whether it is invalid, and for a read of the stock recorder the command and for each slot the place of its LBA in the command
plus 1 (0: not wanted). -/
structure RDesc where
  num : Nat
  tray : Nat
  first : Nat
  count : Nat
  skip3 : Bool
  skip5 : Bool
  verify : Bool
  header : Bool
  dest : Nat
  tag : Nat
  bad : Bool
  op : Nat
  want : List Nat
deriving DecidableEq, Repr

/-- Why the device drains its accepted writes (R31, R101, R383, R355, R568). -/
inductive Drain where
  | power (ps : Nat)
  | bake
  | eject
  | shutdown (begun : Bool)
  | activation
deriving DecidableEq, Repr

/-- A trigger sequence under way (R333): its input, the TIMENS of its end and its session. -/
structure TrigSeq where
  input : Nat
  ends : Nat
  session : Nat
deriving DecidableEq, Repr

/-- The stock recorder and the keeper's hold on the cartridge: the cartridge state (R377: 0 none, 1 blank, 2 open, 3 baked,
4 rejected), its serial, pool, zones and placement map (key nsid × 2^32 + lba, value slot address + 1), what has changed since
the last checkpoint, the checkpoint under way, the last valid one (number, slot of its open record, cut), flushes, commands
waiting, journal pages not yet posted, drains, sessions, triggers, the parameter block in effect and one waiting, the interfaces
whose data R18 refused, the state record's owed update and its status, the power state, whether an extended self-test waits, and
the self-test results, newest first: code, result, segment, power-on hours in 0.1 h; the heads that have read their disc's lead-in; and
whether the cartridge counts as absent because no head found focus (R521). -/
structure Recorder where
  cart : Nat
  serial : Nat
  pool : Tbl NsEnt
  zones : Tbl ZoneSt
  gzones : Nat
  map : Tbl Nat
  dirty : Tbl Bool
  zoneDirty : List Nat
  nsDirty : List (Nat × Nat × Nat)
  ckptWanted : Bool
  ckpt : Option Ckpt
  nextCkpt : Nat
  lastCkpt : Option (Nat × Nat × Nat)
  flushes : List FlushSt
  nextFlush : Nat
  ops : List Op
  nextOp : Nat
  journal : List (Nat × Mark)
  drains : List Drain
  bake : Nat
  session : Nat
  sessionNo : Nat
  closing : Nat
  curSession : Nat
  seqs : List TrigSeq
  trigOver : Tbl Nat
  param : Tbl Nat
  paramNext : Option (Tbl Nat)
  r18 : Nat
  cmDue : Bool
  cmStatus : Nat
  cmNs : Nat
  ps : Nat
  psWant : Option Nat
  psLast : Nat
  media : Bool
  extRun : Bool
  selfTest : Nat
  diverged : Nat
  tests : List (Nat × Nat × Nat × Nat)
  leads : Nat
  absent : Bool
deriving DecidableEq, Repr

/-! ## The read path (05) -/

/-- A block of a tray being read (R159): its beam, whether it has an accepted header now and had one inline, whether a codeword failed
inline, the highest ladder step reached, and each codeword position: 0 due, 1 to 5 decoded at that step, 6 unrecovered, 12 in
the deep-decode pool, 13 to 15 failing and waiting for step 3, 4 or 5. -/
structure RBlk where
  beam : Nat
  hdr : Bool
  erased : Bool
  failed : Bool
  step : Nat
  st : List Nat
deriving DecidableEq, Repr

/-- A tray being read (R157 to R163): its descriptor, its blocks, the stage of the ladder (1 reading and steps 1 and 2, 3, 4, 5
waiting for step 5), the passes of step 3 made, and whether this is the re-read of step 5. -/
structure RTray where
  desc : RDesc
  blks : List RBlk
  stage : Nat
  pass : Nat
  re : Bool
deriving DecidableEq, Repr

/-- The read path (R156 to R172): descriptors posted, descriptors of the stock recorder that wait for the queue, trays being
read, status records to be written (words 0 to 2), the base in effect, a base held with the number of the first descriptor that
must wait for it, the number of the next descriptor, the last tray read, deep-decode records in order of export (tray, beam,
position), the engine of each running one, the step-5 batch (0 none, 1 slowing, 2 re-reading, 3 returning) and whether the ring
has stalled reading. -/
structure ReadPath where
  queue : List RDesc
  backlog : List RDesc
  trays : List RTray
  recs : List (Nat × Nat × Nat)
  base : Nat
  held : Option (Nat × Nat)
  nextNum : Nat
  last : Option Nat
  deepQ : List (Nat × Nat × Nat)
  engines : Tbl (Option (Nat × Nat × Nat))
  batch : Nat
  stalled : Bool
deriving DecidableEq, Repr

/-! ## The loop engine (08) -/

/-- A slot's context (R235): data registers x0 to x15, accumulators a0 to a3 and state words s0 to s63, two's complement. -/
structure Ctx where
  x : Tbl Nat
  a : Tbl Nat
  w : Tbl Nat
deriving DecidableEq, Repr

/-- A tuning helper that runs (R258 to R261): the mode, whether it ends at the next sample start, the samples begun, the phase of a
sine or chirp, the PRBS register and the samples until its next bit, the relay's sign, the switches from −d to +d, the sample
of the third of them and of the last, the samples since any switch, the extremes of the input since the third, and the value
q of the sample. -/
structure Tune where
  mode : Nat
  ending : Bool
  k : Nat
  phase : Nat
  prbs : Nat
  hold : Nat
  plus : Bool
  switches : Nat
  first : Nat
  last : Nat
  since : Nat
  lo : Int
  hi : Int
  q : Int
deriving DecidableEq, Repr

/-- A slot beside its registers (R234 to R261): its context and that at the end of its last sample, the program counter
relative to the program's start, the cycles of the sample, whether a sample is due and not yet ended, the channels whose words are
still to come, the latched inputs, their tags (bit 0 frozen, bit 1 hold, overrun or invalid), the latched feed-forward value,
TIMENS of the sample instant, the region, the lane, whether it stops at the end of its sample, coefficient writes for the next
sample start, those of an open batch, the tuning helper, the samples captured, and whether this sample's record is lost. -/
structure SlotSt where
  now : Ctx
  last : Ctx
  pc : Nat
  cyc : Nat
  due : Bool
  wait : List Nat
  ins : List Nat
  tags : Nat
  ff : Int
  ns : Nat
  lane : Option Nat
  stopping : Bool
  cpend : List (Nat × Nat)
  batch : List (Nat × Nat)
  tune : Option Tune
  captured : Nat
  capLost : Bool
deriving DecidableEq, Repr

/-- A context of zeros. -/
def Ctx.zero : Ctx := ⟨[], [], []⟩

/-- A slot at rest. -/
def SlotSt.none : SlotSt where
  now := Ctx.zero
  last := Ctx.zero
  pc := 0
  cyc := 0
  due := false
  wait := []
  ins := []
  tags := 0
  ff := 0
  ns := 0
  lane := Option.none
  stopping := false
  cpend := []
  batch := []
  tune := Option.none
  captured := 0
  capLost := false


/-! ## The slice mover, the hash engine and the DRAM controller (13) -/

/-- A slice-mover channel in use (R423, R425, R428, R429): its descriptor's 16 words, the posting requester, and why it is being
aborted (0 not, 1 by SMABORT, 2 by its owner's reset). -/
structure MoverChan where
  desc : List Nat
  owner : Nat
  abort : Nat
deriving DecidableEq, Repr

/-- The engines of chapter 13: the mover's channels in use, those in the order posted, the one that runs, each channel's last
completion (code, owner, residue), the bytes moved beyond whole 64-byte units; the hash messages that wait (words, requester), the
one that runs and the bytes hashed beyond whole units; the real-time ports (level, entries to panic, in panic); and for each DRAM
channel TIMENS at which its last training step ended. -/
structure Engines where
  chans : Tbl (Option MoverChan)
  order : List Nat
  running : Option Nat
  last : Tbl (Nat × Nat × Nat)
  moved : Nat
  hashQ : List (List Nat × Nat)
  hashRun : Option (List Nat × Nat)
  hashed : Nat
  ports : Tbl (Nat × Nat × Bool)
  trained : Tbl (Option Nat)
deriving DecidableEq, Repr

/-! ## Heads (06) -/

/-- A running servo ADC conversion (R177, R180, R181): the slots that wait for it, each with whether its trigger came late,
and whether it carries the hold tag. -/
structure Conv where
  slots : List (Nat × Bool)
  hold : Bool
deriving DecidableEq, Repr

/-- A head's sequencer and servo beside its registers (R182 to R200). `seq` is the running sequence: 0 none, 1 to 7 the
commands of R193, 8 a clock take, 9 re-tracking, 10 re-closing layer focus, 11 the automatic layer jump, 12 acquiring again
after focus loss; `step` its step: 1 to 8 those of R194, 11 hold, 12 and 13 lead-in, 14 retract; `endState` the state it
returns to. `body` says that it has reached its end and waits for its partner; `atClock` that a clock take left it at the
end of step 4. Then the target, the loops closed, the latched comparator trips, wedge numbers, the last valid position in
1/4,096 period, runs of invalid, valid and mismatching wedges, conversions still to be tagged hold by channel, running
conversions, last raw codes, focus retries used, whether the 50 ms wait runs, the automatic jump (1 jumping, 2 locked and
waiting for the partner, 3 failed), whether it has acquired since start, whether its emitter outputs are enabled, and whether the
lead-in is under it. -/
structure HeadSt where
  seq : Nat
  step : Nat
  endState : Nat
  pair : Bool
  body : Bool
  atClock : Bool
  tGroup : Nat
  tLayer : Nat
  focus : Bool
  tilt : Bool
  layer : Bool
  track : Bool
  refTrip : Bool
  layTrip : Bool
  num : Option Nat
  numCand : Option Nat
  pos : Option Int
  inv : Nat
  good : Nat
  mism : Nat
  gainHold : Tbl Nat
  conv : Tbl Conv
  raw : Tbl Nat
  retries : Nat
  wait : Bool
  jump : Nat
  acquired : Bool
  emitters : Bool
  leadin : Bool
deriving DecidableEq, Repr

/-- A head retracted, with nothing running. -/
def HeadSt.none : HeadSt where
  seq := 0
  step := 0
  endState := 0
  pair := false
  body := false
  atClock := false
  tGroup := 0
  tLayer := 0
  focus := false
  tilt := false
  layer := false
  track := false
  refTrip := false
  layTrip := false
  num := Option.none
  numCand := Option.none
  pos := Option.none
  inv := 0
  good := 0
  mism := 0
  gainHold := []
  conv := []
  raw := []
  retries := 0
  wait := false
  jump := 0
  acquired := false
  emitters := false
  leadin := false

/-! ## Motors (07) -/

/-- The spindle drive beside its registers (R204 to R216): the flux estimate as 3ψα and √3ψβ in µWb ÷ 2,400,000, the
currents as 3iα and √3iβ in mA, the vector applied (0 to 6, 7 all switches off), the flux demand, the ticks the bridge stays
off, the ages in ticks of recent trips, the alignment angles found (none: no agreed axis), whether it has realigned, whether
the clock take has been made, the heads tried by the running take, whether it failed on all four, and the state that a VMOT
brake interrupted. -/
structure SpinSt where
  fluxA : Int
  fluxB : Int
  curA : Int
  curB : Int
  vec : Nat
  fluxUp : Bool
  off : Nat
  trips : List Nat
  sets : List (Option Nat)
  realigned : Bool
  handed : Bool
  tried : Nat
  takeFailed : Bool
  saved : Option Nat
deriving DecidableEq, Repr

/-- A stepper channel beside its registers (R219 to R226): the fraction of the gear accumulator in 2^-34 microstep, whether its
coils are on, and the direction of a move. -/
structure StepSt where
  frac : Nat
  coils : Bool
  dir : Int
deriving DecidableEq, Repr

/-! ## Non-volatile records, the ledger and the NOR unit (16, 19) -/

/-- A ledger entry (R488): baseline, latest, hours in 0.1 h, health, flags ([0] retired, [1] candidate, [2] relocated) and the
number of measurements. -/
structure Age where
  base : Nat
  latest : Nat
  hours : Nat
  health : Nat
  flags : Nat
  count : Nat
deriving DecidableEq, Repr

/-- An entry without a measurement (R42). -/
def Age.none : Age := ⟨0, 0, 0, 255, 0, 0⟩

/-- A command the NOR unit runs (R562): erase or program, its NOR offset, the bytes to program, and whether a record write
issued it. -/
structure NorOp where
  erase : Bool
  addr : Nat
  data : List Byte
  rcd : Bool
deriving DecidableEq, Repr

/-- A record write under way (R494): the kind by its place in the table of R496, the slot (0 A, 1 B), its first sector, the
generation, the snapshot, the NOR operations still to issue and whether it is the second try. -/
structure RecJob where
  kind : Nat
  slot : Nat
  sector : Nat
  gen : Nat
  vals : List Nat
  ops : List NorOp
  again : Bool
deriving DecidableEq, Repr

/-- What the keeper holds of the records (R492 to R498): for each kind and slot (key 2 × kind + slot) the generation and what its
payload stands for; the slot map; kinds queued; the write under way; kinds whose retry waits; the ledger; a beam's threshold and
slope (key 2 × beam + slope) with their baselines; what a quantity was when it was last re-planned (key entry); the power-on
hours in 0.1 h, power cycles and unsafe shutdowns; the job table, key 16 × core + field; the attachments kept with the serial
of their cartridge; and the running NOR command. -/
structure Records where
  slots : Tbl (Nat × List Nat)
  slotMap : Tbl Nat
  queue : List Nat
  job : Option RecJob
  retry : List Nat
  ages : Tbl Age
  halves : Tbl (Nat × Nat × Nat)
  planned : Tbl Nat
  hours : Nat
  cycles : Nat
  shutdowns : Nat
  jobs : Tbl Nat
  attSerial : Nat
  atts : Tbl Nat
  nor : Option NorOp
deriving DecidableEq, Repr

/-! ## Background steps (16) -/

/-- The steps granted (R481, R482): for each head the tray position of the granted window plus 1 (0: none); HSEQCMD commands that
wait for a window's end (head, command, layer, group, pair); and the trims in force (R480), key 8 × head + (0 focus, 1 tilt, 2
layer focus, 3 tracking, 4 spherical aberration), as two's complement of 16 bits; and for each head the zone + 1,
the layer and the speed whose channel bits, gear entry and laser levels are in force (R117, R125, R225). -/
structure Background where
  running : Tbl Nat
  held : List (Nat × Nat × Nat × Nat × Bool)
  trims : Tbl Nat
  loaded : Tbl (Nat × Nat × Nat)
deriving DecidableEq, Repr

/-! ## The ring and the pair link (18) -/

/-- A message on its way (R541, R542): the descriptor's words and its poster, or a message of the stock recorder with its
destination (R548), the sequence number and the sends made. -/
structure RMsg where
  words : List Nat
  owner : Nat
  coord : Option (Nat × Coord)
  seq : Nat
  sends : Nat
deriving DecidableEq, Repr

/-- One port's ring (R526 to R539): block lock, whether the bypass is open, and on a master the epoch, the cycle number, members,
held members, releases marked, serials by station (serial + 1) of this run, joins to be admitted at the next cycle start (place
downstream, serial, station or 64 for auto), members to be removed, consecutive open cycles, and of the cycle under way the
stations that wrote, those that acknowledged, whether a frame came back flagged and whether the gather frame is out; the
mask of the last stale cycle and the gather round trip; the last serial claimed with its time, the time a second serial was seen
and whether the ring is in conflict; and the last gather record of each station, + 1. -/
structure RingSide where
  lock : Bool
  opened : Bool
  epoch : Nat
  cycle : Nat
  mask : Nat
  held : Nat
  rel : Nat
  serials : Tbl Nat
  joins : List (Nat × Nat × Nat)
  gone : Nat
  opens : Nat
  wrote : Nat
  flagged : Bool
  out : Bool
  stale : Nat
  loop : Nat
  claim : Option (Nat × Nat)
  second : Option Nat
  conflict : Bool
  views : Tbl Nat
deriving DecidableEq, Repr

/-- A port with no ring. -/
def RingSide.none : RingSide where
  lock := false
  opened := false
  epoch := 0
  cycle := 0
  mask := 0
  held := 0
  rel := 0
  serials := []
  joins := []
  gone := 0
  opens := 0
  wrote := 0
  flagged := false
  out := false
  stale := 0
  loop := 0
  claim := Option.none
  second := Option.none
  conflict := false
  views := []

/-- Frames a device sends on a ring port or on the pair link (R535, R542, R544, R546, R547, R550, R551). -/
inductive RingOut where
  | claim (portB : Bool) (serial : Nat)
  | gather (portB : Bool) (f : CycleFrame)
  | scatter (portB : Bool) (f : CycleFrame)
  | sync (portB : Bool) (source : Nat) (corr : Int)
  | join (serial station : Nat)
  | admission (portB : Bool) (serial station : Nat) (hold : Bool)
  | refuse (portB : Bool) (serial result : Nat)
  | message (dst seq tag : Nat) (data : List Byte)
  | coord (dst seq : Nat) (c : Coord)
  | ack (dst seq code : Nat)
  | request (device off : Nat) (write : Option Nat)
  | reply (dst : Nat) (value : Nat)
  | delayRequest
  | delayReply (turn : Nat)
  | forward
  | mirror (words : List Nat) (pages : List Nat)
  | mirrorStatus (tag code : Nat)
  | pairCoord (c : Coord)
  | heartbeat (alive : Bool)
deriving DecidableEq, Repr

/-- The ring unit (R526 to R548): the two ports' rings, whether this start's strap claims the master role, the device number
taken for the master, the epoch of the gather frame that carried this station's record in this cycle, messages posted and the
one on its way, the next sequence number, the last sequence number accepted from each source (+ 1), remote accesses outstanding
(requester, device, offset, the value of a write), the windows' RWMAP words, the departure of a delay request in 0.1 ns, the
frames sent, the station of a deepened group that records, and the host commands that wait for other devices: slot, devices
still to answer (4,096 the peer of the pair), the worst status so far and the record held back; and the flushes asked for by other
devices: flush number, device, and the number to answer with. -/
structure RingSt where
  a : RingSide
  b : RingSide
  claimant : Bool
  master : Option Nat
  mine : Option Nat
  msgQ : List RMsg
  cur : Option RMsg
  nextSeq : Nat
  seen : Tbl Nat
  remote : List (Nat × Nat × Nat × Option Nat)
  rwmap : Tbl Nat
  t1 : Option Nat
  out : List RingOut
  recorder : Nat
  gates : List (Nat × List Nat × Option Stat × Option CRec)
  owed : List (Nat × Nat × Nat)
deriving DecidableEq, Repr

/-- The ring unit at rest. -/
def RingSt.none : RingSt := ⟨RingSide.none, RingSide.none, false, Option.none, Option.none, [], Option.none, 0, [], [], [], Option.none, [], 0, [], []⟩

/-- The pair link (R549 to R553): mirror descriptors posted (words, poster, coordination of the stock recorder), whether the job
wrote PLKICK since the last heartbeat, whether the pairing stands (no loss since it was made), whether the peer has been lost since,
whether PLCTRL.role has been written on this side and on the peer since that loss, whether the first flush completed alone is
noted, zone write pointers at the split, key as the zones', whether the peer's zones are awaited, the burst buffer units released
while they were still to be mirrored, and the peer's module serial. -/
structure PairSt where
  queue : List (List Nat × Nat × Option Coord)
  kicked : Bool
  paired : Bool
  lost : Bool
  renewed : Bool
  peerRenewed : Bool
  alone : Bool
  split : Tbl Nat
  exch : Bool
  held : List Nat
  serial : Nat
deriving DecidableEq, Repr

/-! ## The Fleran cores (09) -/

/-- A line of an L1 or of the side buffer (R300, R303): its line number (buffer address ÷ 64), its 64 bytes as a little-endian
number, and whether it is flagged bad. -/
structure CLine where
  line : Nat
  data : Nat
  bad : Bool
deriving DecidableEq, Repr

/-- What a core waits for (R291, R293, R544): 0 to 2 the kinds of WAIT with its operands, 3 a YIELD of `a` cycles, 4 a remote access of
`b` bytes at byte `a` of the word, its sign extended if `b` is above 4 (then `b` − 4 bytes; 0: a store); and rd. -/
structure CWait where
  kind : Nat
  a : Nat
  b : Nat
  rd : Nat
deriving DecidableEq, Repr

/-- A core (R269 to R313): general registers (g0 never listed), pc, control registers k1 to k9 and k12 to k14, ien, depth, the sets
of L1I and L1D most recently used first, the side buffer oldest first, the branch counters (unlisted: 1), the target buffer most
recently used first, the wait under way, the sampling LFSR, its down-counter and the record sequence number, the words of local SRAM
with bad parity (buffer address ÷ 4), the TIMENS of its recent faults and whether it is left stopped (R323), and the resets so far. -/
structure CoreSt where
  g : Tbl Nat
  pc : Nat
  ctl : Tbl Nat
  ien : Bool
  depth : Nat
  l1i : Tbl (List CLine)
  l1d : Tbl (List CLine)
  side : List CLine
  bht : Tbl Nat
  btb : List (Nat × Nat)
  wait : Option CWait
  lfsr : Nat
  down : Nat
  seq : Nat
  badWords : List Nat
  faults : List Nat
  dead : Bool
  resets : Nat
deriving DecidableEq, Repr

/-- A core at reset. -/
def CoreSt.none : CoreSt where
  g := []
  pc := 0
  ctl := []
  ien := false
  depth := 0
  l1i := []
  l1d := []
  side := []
  bht := []
  btb := []
  wait := Option.none
  lfsr := 0
  down := 0
  seq := 0
  badWords := []
  faults := []
  dead := false
  resets := 0

/-! ## Power and start (17) -/

/-- The reset sequencer (R502, R515): whether the islands are clocked, whether VAUX is up, TIMENS of the watchdog resets, newest first,
and TIMENS at which the start watchdog was last restarted. -/
structure Power where
  clocked : Bool
  vaux : Bool
  wdog : List Nat
  kick : Nat
deriving DecidableEq, Repr

/-! ## The thermal unit and the fan drive (20) -/

/-- What the thermal unit and the fan drive hold beside their registers (R596 to R601): for each die the milliseconds since its
sensor updated and whether it is in fault; the milliseconds that the composite has stayed below the throttle and the stop-writing
release; TIMENS of the last tach pulse; and whether a check's forcing lasts on after its pulse. -/
structure Thermal where
  stale : Tbl Nat
  bad : Tbl Bool
  cool : Nat
  cold : Nat
  pulse : Option Nat
  hold : Bool
deriving DecidableEq, Repr

/-! ## Firmware update (19) -/

/-- A download session (R564, R565): whether SAS owns it, the target, image length and block count of the header, the CRC-32C of each
block, the blocks programmed, the sectors erased, and the blocks of an enrolment image as numbers. -/
structure FwSession where
  sas : Bool
  target : Nat
  len : Nat
  crcs : List Nat
  blocks : List Nat
  sectors : List Nat
  enrol : Tbl Nat
deriving DecidableEq, Repr

/-- The update's state: header blocks that have arrived on an interface (key 2 × SAS + block, + 1), the session, whether a check has
passed that a SAS activation may use, whether activation is armed, whether it is under way, the version shown for slot 1, whether
the loader resets the device after the completion is posted, and whether the last device reset activated new firmware (R564 to R572). -/
structure Firmware where
  heads : Tbl Nat
  session : Option FwSession
  passed : Bool
  armed : Bool
  going : Bool
  rev : Nat
  loaderReset : Bool
  activated : Bool
deriving DecidableEq, Repr

/-! ## The state -/

/-- Why the machine stops with a fault. No meaning of this model ends so: the spec gives every command an effect. -/
inductive Fault where
  /-- Raised by no meaning: the spec names no condition in which the device stops with no effect. Safe. -/
  | none
deriving DecidableEq, Repr

/-- Why a command is refused by the model. -/
inductive Refusal where
  /-- Raised by an arm of `exec` whose command has no meaning yet. Safe: nothing can be proved about a next state. -/
  | notModelled (mnemonic : String)
deriving DecidableEq, Repr

/-- The state of the device. -/
@[ext]
structure State where
  /-- commands waiting, first in first out -/
  pending : List Instr
  /-- register fields, keyed by 32 × window offset + low bit -/
  regs : Tbl Nat
  /-- read latches and the last read's data (R53) -/
  read : ReadPort
  /-- the crumb queue and log (R444 to R450) -/
  crumbs : CrumbUnit
  /-- lane routing (R440, R441) -/
  lanes : Lanes
  /-- the counters (R451, R452) -/
  ctr : Counters
  /-- messages sent to the host -/
  port : Port
  /-- buffer memory, local SRAMs and NOR, by buffer address (R410) -/
  mem : Tbl Byte
  /-- the shared L2 (R300) -/
  l2 : L2Cache
  /-- the time unit (R463 to R471) -/
  time : TimeUnit
  /-- the timecode generator (R334, R335) -/
  tc : Timecode
  /-- the tray builder (R102 to R134) -/
  tb : TrayBuilder
  /-- the host controller (R343 to R409) -/
  hc : HostCtl
  /-- what the device has sent to its hosts, oldest first (R353, R391) -/
  hostOut : List HostMsg
  /-- the stock recorder (R316 to R342, R358 to R400) and the cartridge state (R100) -/
  rcd : Recorder
  /-- the cartridge on the spindle (R63) -/
  medium : Option Cartridge
  /-- a cartridge in the loader, not clamped -/
  loader : Option Cartridge
  /-- the read path (R156 to R172) -/
  rp : ReadPath
  /-- the 96 slots (R234 to R261) -/
  slots : Tbl SlotSt
  /-- coefficient words in force, key 256 × slot + word (R252) -/
  coefs : Tbl Nat
  /-- microcode words of 64 bits (R249) -/
  micro : Tbl Nat
  /-- emitter DACs: bias at 2e, slope at 2e + 1 (R243) -/
  dac : Tbl Nat
  /-- slot-cycles executed in the present 10 ms (R264) -/
  winCycles : Nat
  /-- sample words delivered to slots, key 32 × slot + 8h + c, word + 65,536 (R178) -/
  adcIn : Tbl Nat
  /-- the slice mover, the hash engine, real-time ports and training (R417 to R433) -/
  eng : Engines
  /-- the sequencers and servos of the four heads (R182 to R200) -/
  heads : Tbl HeadSt
  /-- HLAYDATA.trim and depth of each head and layer, key 16 × head + layer, depth × 65,536 + trim (R201) -/
  layTrim : Tbl Nat
  /-- the spindle drive (R204 to R216) -/
  spin : SpinSt
  /-- the stepper channels (R219 to R226) -/
  steps : Tbl StepSt
  /-- stepper table entries changed from the sine of R219, key 256 × channel + index, value + 1 -/
  stepTab : Tbl Nat
  /-- gear table entries, key 32 × channel + zone (R224) -/
  gear : Tbl Nat
  /-- TIMENS at which VMOT last rose above VMUVT.warn (R216) -/
  vmotNs : Nat
  /-- the Vcm outputs hold VCSAFE for 5 ms after a reset or an under-voltage fault (R229) -/
  safeHold : Bool
  /-- records, the ledger and the NOR unit's running command (R487 to R498, R562) -/
  recs : Records
  /-- the laser units' tables of R126: words of four bytes, key 256 × head + word -/
  lpt : Tbl Nat
  /-- background steps and the trims in force (R480 to R482) -/
  bg : Background
  /-- the ring unit (R526 to R548) -/
  rg : RingSt
  /-- the pair link (R549 to R553) -/
  pl : PairSt
  /-- the cores: 0 to 7 the job cores, 8 the keeper (R269) -/
  cores : Tbl CoreSt
  /-- reset and start (R502, R507, R515) -/
  pw : Power
  /-- the thermal unit's intervals and the fan's tach (R596 to R601) -/
  th : Thermal
  /-- firmware update (R563 to R572) -/
  fw : Firmware
deriving DecidableEq, Repr

/-- The device right after reset (R13, R502): every register at its reset value, nothing queued, nothing listed in memory,
no cartridge, and the islands clocked. -/
def State.reset : State where
  pending := []
  regs := []
  read := ⟨0, none, [], [], none, [], none⟩
  crumbs := ⟨[], [], 0, [], []⟩
  lanes := ⟨[], [], []⟩
  ctr := ⟨[], [], [], 0⟩
  port := ⟨[]⟩
  mem := []
  l2 := ⟨[], []⟩
  time := ⟨0, 0, 0, none, none, 0, 0, 0, 0⟩
  tc := ⟨0, 0, false, 0, 0, 0⟩
  tb := TrayBuilder.empty
  hc := ⟨false, 0, 0, false, false, [], [], [], [], [], 0, 0, false, [], [], [], [], 0, [], [], [], [], [], [], [], []⟩
  hostOut := []
  rcd := ⟨0, 0, [], [], 0, [], [], [], [], false, none, 0, none, [], 1, [], 1, [], [], 0, 0, 0, 0, 0, [], [], [], none, 0, false, 0, 0, 0, none, 0, false, false, 0, 0, [], 0, false⟩
  medium := none
  loader := none
  rp := ⟨[], [], [], [], 0, none, 0, none, [], [], 0, false⟩
  slots := []
  coefs := []
  micro := []
  dac := []
  winCycles := 0
  adcIn := []
  eng := ⟨[], [], none, [], 0, [], none, 0, [], []⟩
  heads := []
  layTrim := []
  spin := ⟨0, 0, 0, 0, 7, false, 0, [], [], false, false, 0, false, none⟩
  steps := []
  stepTab := []
  gear := []
  vmotNs := 0
  safeHold := true
  recs := ⟨[], [], [], none, [], [], [], [], 0, 0, 0, [], 0, [], none⟩
  lpt := []
  bg := ⟨[], [], [], []⟩
  rg := RingSt.none
  pl := ⟨[], false, false, false, false, false, false, [], false, [], 0⟩
  cores := []
  pw := ⟨true, true, [], 0⟩
  th := ⟨[], [], 0, 0, none, false⟩
  fw := ⟨[], none, false, false, false, 0, false, false⟩

end Sys2Proof.Machine
end

