-- ==== Sys2Proof/Machine/Ops.lean ====
section
/-! DEFINITION. The named operations that every meaning is built from: reading and setting register fields, raising an
event (R43, R44), lanes and MSI-X (R440, R441), offering a crumb (R444, R445), counting (R451, R452), and reading and
writing buffer memory (R410). -/

namespace Sys2Proof.Machine

/-- The outcome of one command. -/
abbrev Out := Host.Outcome State Fault Refusal

/-- A command that arrives while the device is in reset finds no clocked unit (R460, R502): nothing happens. -/
def live (s t : State) : Out := .next (if s.pw.clocked then t else s)

/-! ### Register fields -/

/-- The key of a field of a unit in the register file: its window offset in bits. -/
def fieldKey (u : UnitId) (f : Field) : Nat := (u.base + f.off) * 32 + f.lo

/-- The value of a register field. -/
def State.rd (s : State) (u : UnitId) (f : Field) : Nat := Tbl.look f.rst s.regs (fieldKey u f)

/-- Set a register field, cut to its width. -/
def State.wr (s : State) (u : UnitId) (f : Field) (v : Nat) : State :=
  { s with regs := Tbl.put f.rst s.regs (fieldKey u f) (v % 2 ^ f.w) }

/-- A one-bit field as a Bool. -/
def State.flag (s : State) (u : UnitId) (f : Field) : Bool := s.rd u f == 1

/-- Set a one-bit field. -/
def State.setFlag (s : State) (u : UnitId) (f : Field) (b : Bool) : State := s.wr u f (b2n b)

/-- A counter field that wraps at its width. -/
def State.incWrap (s : State) (u : UnitId) (f : Field) (k : Nat := 1) : State := s.wr u f (s.rd u f + k)

/-- A counter field that saturates at its width. -/
def State.incSat (s : State) (u : UnitId) (f : Field) (k : Nat := 1) : State := s.wr u f (satAdd f.w (s.rd u f) k)

/-! ### Counters (R451, R452) -/

/-- The places that show physical counter `i`: each view showing it, and the counter pod (place 8), with its entry there. -/
def ctrPlaces (i : Nat) : List (Nat × Nat) :=
  if i < 256 then (List.range 8).map (fun g => (g, i)) ++ [(8, i)]
  else [((i - 256) / 8, 256 + (i - 256) % 8), (8, i)]

/-- Set the sticky wrap flag of counter `i` in every place that shows it. -/
def setWrapFlags (t : Tbl Bool) (i : Nat) : Tbl Bool :=
  (ctrPlaces i).foldl (fun t p => Tbl.put false t (512 * p.1 + p.2) true) t

/-- Add `n` to counter `i` without raising CTR_WRAP; a wrap advances the wrap count, sets the flags and CTWRAPLAST. -/
def State.bump (s : State) (i n : Nat) : State :=
  let v := Tbl.look 0 s.ctr.val i + n
  if v < 2 ^ 48 then { s with ctr := { s.ctr with val := Tbl.put 0 s.ctr.val i v } }
  else
    ({ s with ctr := { s.ctr with
        val := Tbl.put 0 s.ctr.val i (v % 2 ^ 48)
        wraps := Tbl.put 0 s.ctr.wraps i ((Tbl.look 0 s.ctr.wraps i + 1) % 65536)
        flag := setWrapFlags s.ctr.flag i } } : State).wr .counterPod F.CTWRAPLAST_index i

/-- Whether adding `n` to counter `i` wraps it. -/
def State.wraps (s : State) (i n : Nat) : Bool := 2 ^ 48 ≤ Tbl.look 0 s.ctr.val i + n

/-- EVRAW and EVENA of a unit: the event bits that are routed to the lanes (R43). -/
def State.evOut (s : State) (u : UnitId) : Nat := s.rd u F.EVRAW &&& s.rd u F.EVENA

/-- Set one EVRAW bit; a bit newly set counts in counter 186. -/
def State.setEvBit (s : State) (u : UnitId) (bit : Nat) : State :=
  if bitOf (s.rd u F.EVRAW) bit then s
  else (s.wr u F.EVRAW (s.rd u F.EVRAW ||| 2 ^ bit)).bump 186 1

/-! ### Lanes (R440, R441) -/

/-- The lane a unit's source is routed to, if its route is enabled. -/
def State.laneOf (s : State) (u : UnitId) : Option Nat :=
  match u.src with
  | none => none
  | some n =>
    let r := Tbl.look ⟨false, 0⟩ s.lanes.route n
    if r.enable then some r.lane else none

/-- A lane is pending while a source routed to it with its route enabled has a non-zero EVOUT (R440). -/
def State.lanePending (s : State) (lane : Nat) : Bool :=
  s.lanes.route.any (fun e => e.2.enable && e.2.lane == lane &&
    (match UnitId.ofSrc e.1 with
     | some u => s.evOut u != 0
     | none => false))

/-- The destinations of a lane. -/
def State.laneDest (s : State) (lane : Nat) : LaneDest := Tbl.look ⟨false, 0, false, 0⟩ s.lanes.dest lane

/-- Send one MSI-X message to vector `v` (R441, R353); counter 188. -/
def State.sendMsix (s : State) (v : Nat) : State :=
  ({ s with port := { s.port with msix := s.port.msix ++ [v] } } : State).bump 188 1

/-- Send the lane's message if its destination names MSI-X and a vector that exists; it is then not re-armed. -/
def State.laneMessage (s : State) (lane : Nat) : State :=
  let d := s.laneDest lane
  if d.msix && d.vector ≤ 64 then
    ({ s with lanes := { s.lanes with sent := Tbl.put false s.lanes.sent lane true } } : State).sendMsix d.vector
  else s

/-- What follows a change of the event registers of `u`: its lane, newly pending and armed, sends one message. -/
def State.afterEv (s0 s : State) (u : UnitId) : State :=
  match s.laneOf u with
  | none => s
  | some n =>
    if !s0.lanePending n && s.lanePending n && !Tbl.look false s.lanes.sent n then s.laneMessage n else s

/-- An event of a unit occurs: its EVRAW bit sets and its lane follows (R43, R441); a wrap of a counter this advances is
not yet reported. -/
def State.raise0 (s : State) (u : UnitId) (bit : Nat) : State := State.afterEv s (s.setEvBit u bit) u

/-- Raise CTR_WRAP if a counter has wrapped between `s` and `t` (R452). -/
def State.noteWrap (s t : State) : State := if t.ctr.wraps = s.ctr.wraps then t else t.raise0 .counterPod 1

/-- An event of a unit occurs (R43). -/
def State.raise (s : State) (u : UnitId) (bit : Nat) : State := State.noteWrap s (s.raise0 u bit)

/-- Count `n` in counter `i` (R451, R452). -/
def State.count (s : State) (i : Nat) (n : Nat := 1) : State := State.noteWrap s (s.bump i n)

/-- Raise the LOCKVIOL of a unit in the place R44 gives. -/
def State.lockviol (s : State) (u : UnitId) : State := s.raise u.evUnit 0

/-! ### Crumbs (R444 to R447) -/

/-- Requester number 15 of a crumb: hardware (R444). -/
def hwReq : Nat := 15

/-- The crumb is accepted into the queue; the one that passes CRFLOOD.enter in its interval starts the flood state. -/
def State.acceptCrumb (s : State) (c : Crumb) : State :=
  let s1 := s.count 187
  let n := s1.crumbs.accepted + 1
  let enter := !s1.flag .event F.CRSTAT_flood && s1.rd .event F.CRFLOOD_enter < n
  let s2 := if enter then (s1.setFlag .event F.CRSTAT_flood true).raise .event 1 else s1
  { s2 with crumbs := { s2.crumbs with
      queue := s2.crumbs.queue ++ [{ c with flood := s2.flag .event F.CRSTAT_flood }]
      accepted := n } }

/-- A crumb is offered to the log: a full queue drops it whole (R445). -/
def State.offerCrumb (s : State) (c : Crumb) : State :=
  if 64 ≤ s.crumbs.queue.length then (s.incWrap .event F.CRLOST_count).raise .event 2
  else s.acceptCrumb c

/-- A crumb of class `cls` from requester `req` about unit `u`, stamped now. -/
def State.crumb (s : State) (cls req : Nat) (u : UnitId) (code d6 d7 : Nat) : State :=
  s.offerCrumb ⟨cls, req, u.number, code % 256, d6 % 2 ^ 32, d7 % 2 ^ 32, s.time.ns, false⟩

/-- A class 1 crumb: a unit report by hardware (R444). -/
def State.report (s : State) (u : UnitId) (bit d6 d7 : Nat) : State := s.crumb 1 hwReq u bit d6 d7

/-- The crumb of cause `c` for a write of `v` at window offset `off` by requester `req` to a register of `u` (R57). -/
def State.refuse (s : State) (req : Nat) (u : UnitId) (c off v : Nat) : State := s.crumb 0 req u c off v

/-! ### Buffer memory (R410) -/

/-- What an unlisted buffer address reads as: an erased NOR byte in the NOR region, zero elsewhere (DESIGN CHOICE, log entry 3). -/
def memDefault (a : Nat) : Byte := if 0x4100000000 ≤ a then 0xFF else 0

/-- The canonical form of buffer memory: addresses strictly rising, and no byte listed that reads as an unlisted one does. -/
def Memory.wf (m : List Host.Cell) : Bool := Tbl.wf memDefault m

/-- The regions of the buffer address space that lie in DRAM (R410). -/
def inDram (a : Nat) : Bool := a < 0x1000000000

/-- The buffer addresses of R410. -/
def validAddr (a : Nat) : Bool :=
  inDram a || (0x4000000000 ≤ a && a < 0x4000280000) || (0x4100000000 ≤ a && a < 0x4108000000)

/-- One byte of buffer memory. -/
def State.byte (s : State) (a : Nat) : Byte := Tbl.look (memDefault a) s.mem a

/-- Store one byte. -/
def State.setByte (s : State) (a : Nat) (b : Byte) : State := { s with mem := Tbl.put (memDefault a) s.mem a b }

/-- `n` bytes from address `a`. -/
def State.readBytes (s : State) (a : Nat) : Nat → List Byte
  | 0 => []
  | n + 1 => s.byte a :: s.readBytes (a + 1) n

/-- Store bytes from address `a` on. -/
def State.storeBytes (s : State) (a : Nat) : List Byte → State
  | [] => s
  | b :: bs => State.storeBytes (s.setByte a b) (a + 1) bs

/-- The little-endian number in `n` bytes at `a`. -/
def State.readLE (s : State) (a n : Nat) : Nat := leNat (s.readBytes a n)

/-- Store `v` little-endian in `n` bytes at `a`. -/
def State.storeLE (s : State) (a n v : Nat) : State := s.storeBytes a (leBytes n v)

/-- A set of the L2 that holds nothing. -/
def L2Set.empty : L2Set := ⟨[], 0⟩

/-- The L2 without line number `n` (line `n` lies in set `n mod 2,048`, R300). -/
def L2Cache.drop (c : L2Cache) (n : Nat) : L2Cache :=
  ⟨Tbl.upd L2Set.empty c.sets (n % 2048) (fun t => { t with ways := t.ways.filter (fun e => e.2 != some n) }), c.bad.filter (· != n)⟩

/-- Drop the L2 lines that `n` bytes at buffer address `a` touch: an engine's write makes the L2 copy invalid (R279). -/
def State.dropL2 (s : State) (a n : Nat) : State :=
  if n = 0 then s
  else { s with l2 := (List.range ((a + n - 1) / 64 - a / 64 + 1)).foldl (fun c i => c.drop (a / 64 + i)) s.l2 }

/-- A write of `n` bytes at buffer address `a` renews the parity of the local SRAM words it touches (R304). -/
def State.heal (s : State) (a n : Nat) : State :=
  if a < 0x4000000000 || 0x4000280000 ≤ a then s
  else { s with cores := Tbl.upd CoreSt.none s.cores (min 8 ((a - 0x4000000000) / 0x40000)) (fun x => { x with
    badWords := x.badWords.filter (fun w => decide (4 * w + 4 ≤ a) || decide (a + n ≤ 4 * w)) }) }

/-- An engine writes bytes to the buffer (R279). -/
def State.engineStore (s : State) (a : Nat) (bs : List Byte) : State :=
  ((s.storeBytes a bs).dropL2 a bs.length).heal a bs.length

/-! ### Errors of buffer reads and on-chip memories (R413, R420, R421) -/

/-- The DRAM channel of a buffer address (R411). -/
def dramChannel (a : Nat) : Nat := bits a 8 3 ^^^ bits a 18 3

/-- Link ECC corrects an error at a buffer address (R413). -/
def State.eccFix (s : State) (a : Nat) : State := (s.incSat (.channel (dramChannel a)) F.DCHECC_fix).raise .dram 2

/-- Link ECC finds an uncorrectable error at a buffer address (R413). -/
def State.eccFail (s : State) (a : Nat) : State :=
  let u : UnitId := .channel (dramChannel a)
  (((s.incSat u F.DCHECC_fail).wr u F.DCHECCADR_addr_lo a).wr u F.DCHECCAHI_addr_hi (a / 2 ^ 32)).raise .dram 3

/-- A parity error in an on-chip memory of groups 3 to 6 (R421). -/
def State.sramPar (s : State) : State := (s.incWrap .dram F.DCSRAMPAR_count).raise .dram 7

/-- A CRC-24 check fails, with a crumb that names the LBA (R18, R420). -/
def State.crcFail (s : State) (lba : Nat) : State :=
  ((s.report .dram 1 lba 0).incWrap .dram F.DCCRCFAIL_count).raise .dram 1

end Sys2Proof.Machine
end

