-- ==== Sys2Proof/Machine/Access.lean ====
section
/-! DEFINITION. Register access: which fields a unit has, who may write what (R54), and the checks every write passes
before it takes effect (R52, R56, R57, R60). -/

namespace Sys2Proof.Machine

/-- The register fields of core-control block `n` of the keeper unit (R311), at +0x100 + n × 0x40. Block 8 has the
apertures alone. -/
def Fields.kcBlock (n : Nat) : List Field :=
  let fs := Fields.kc.map (fun f => { f with off := f.off + 0x100 + 0x40 * n })
  if n = 8 then fs.filter (fun f => 0x110 + 0x40 * n ≤ f.off) else fs

/-- A field of core-control block `n` (R311). -/
def F.kc (n : Nat) (f : Field) : Field := { f with off := f.off + 0x100 + 0x40 * n }

/-- The fields of a unit after its header and event block. -/
def UnitId.ownFields : UnitId → List Field
  | .thermal => Fields.thermal | .time => Fields.time | .nor => Fields.nor | .power => Fields.power
  | .key => Fields.key | .event => Fields.event
  | .pcie => Fields.pcie | .nvme => Fields.nvme | .sas => Fields.sas | .guest _ => Fields.guest
  | .keeper => Fields.core ++ (List.range 9).flatMap Fields.kcBlock
  | .core _ => Fields.core | .l2 => Fields.l2 | .mover => Fields.mover | .hash => Fields.hash
  | .dram => Fields.dram | .channel _ => Fields.channel
  | .engine => Fields.engine | .slot _ => Fields.slot
  | .spindle => Fields.spindle | .stepper _ => Fields.stepper | .vcm _ => Fields.vcm | .fan => Fields.fan
  | .vmot => Fields.vmot
  | .media => Fields.media | .tray => Fields.tray | .outer => Fields.outer | .deep => Fields.deep
  | .head _ => Fields.head | .laser _ => Fields.laser | .beam _ => Fields.beam
  | .ring => Fields.ring | .join => Fields.join | .pair => Fields.pair
  | .counterPod => Fields.counterPod
  | _ => []

/-- Every stored field of a unit (R37, R43 and the unit's own table). -/
def UnitId.fields (u : UnitId) : List Field :=
  match u with
  | .remote _ => Fields.evblock
  | _ => Fields.header ++ (if u.src.isSome then Fields.evblock else []) ++ u.ownFields

/-- The fields of the register at offset `o` of a unit. -/
def UnitId.fieldsAt (u : UnitId) (o : Nat) : List Field := u.fields.filter (fun f => f.off == o)

/-- Whether a register of a unit lies at offset `o` of it (R46): header, event block, directory, identity blocks, or a
register of its own table. -/
def UnitId.hasRegister (u : UnitId) (o : Nat) : Bool :=
  o % 4 == 0 &&
  match u with
  | .remote _ => 0x20 ≤ o && o ≤ 0x30
  | .device => o < 0x34 || (0x40 ≤ o && o < 0x1000)
  | .identity => o < 0x20 || (0x40 ≤ o && o < 0xE0)
  | _ => o < 0x20 || (u.src.isSome && o < 0x34) || u.ownFields.any (fun f => f.off == o)

/-- The counter view (place 0 to 7) or the counter pod's array (place 8) that holds a window offset, the entry and the
offset within it (R453). -/
def ctrPlaceOf (off : Nat) : Option (Nat × Nat × Nat) :=
  if 0x300000 ≤ off && off < 0x310000 then
    let g := (off - 0x300000) / 0x2000
    let r := (off - 0x300000) % 0x2000
    if r / 16 < 264 && r % 16 < 12 then some (g, r / 16, r % 16) else none
  else if 0x311000 ≤ off && off < 0x311000 + 16 * 320 then
    let r := off - 0x311000
    if r % 16 < 12 then some (8, r / 16, r % 16) else none
  else none

/-- The physical counter that entry `e` of a place shows (R453). -/
def ctrPhys (place e : Nat) : Nat := if place = 8 then e else if e < 256 then e else 256 + 8 * place + (e - 256)

/-- The event-block registers every requester may write: EVENA, EVFORCE, EVCLR (R54). -/
def isEventBlockReg (u : UnitId) (o : Nat) : Bool := u.src.isSome && (o == 0x24 || o == 0x2C || o == 0x30)

/-- The guest of job core `n` (R311). -/
def State.guestOfCore (s : State) (n : Nat) : Nat := s.rd .keeper (F.kc n F.KCGUEST_guest)

/-- The region of R54 a unit lies in. -/
inductive Region where
  | device | system | host | core | buffer | media | ring | counter
deriving DecidableEq, Repr

/-- The region of a unit (R54). -/
def UnitId.region : UnitId → Region
  | .device => .device
  | .system | .time | .thermal | .identity | .nor | .power | .key | .event | .remote _ => .system
  | .host | .pcie | .nvme | .sas | .guest _ => .host
  | .corePod | .keeper | .core _ | .l2 | .mover | .hash => .core
  | .bufPod | .dram | .channel _ => .buffer
  | .loopPod | .engine | .slot _ | .drive | .spindle | .stepper _ | .vcm _ | .fan | .vmot
  | .media | .tray | .outer | .deep | .head _ | .laser _ | .beam _ => .media
  | .ringPod | .ring | .join | .pair => .ring
  | .counterPod => .counter

/-- TBHWCTRL, TBHWSEL and TBHWDATA, which only the keeper may write (R54). -/
def isKeeperTrayReg (u : UnitId) (o : Nat) : Bool := u == .tray && (o == 0x6C || o == 0x70 || o == 0x74)

/-- Whether requester `r` may write the register at offset `o` of unit `u` (R54). -/
def mayWrite (r : Requester) (u : UnitId) (o : Nat) : Bool :=
  isEventBlockReg u o ||
  match u.region, r with
  | .device, _ => false
  | _, .keeper => true
  | .system, .core _ => u == .time || u == .event
  | .system, .host =>
    (u == .time && (o == 0x48 || o == 0x4C || o == 0x50)) ||
    (u == .event && (o == 0x58 || o == 0x5C || o == 0xC0 || o == 0xC4 || o == 0xC8))
  | .system, .ring => false
  | .host, .core _ => true
  | .host, _ => false
  | .core, .core n => u == .core n.val || u == .mover || u == .hash
  | .core, _ => false
  | .buffer, _ => false
  | .media, .host => false
  | .media, _ => !isKeeperTrayReg u o
  | .ring, .core _ => true
  | .ring, _ => false
  | .counter, _ => false

/-- A write to an RWL register of a locked unit (R56). -/
def State.lockedReg (s : State) (u : UnitId) (o : Nat) : Bool :=
  s.flag u F.ULOCK_locked && (u.fieldsAt o).any (fun f => f.acc == .rwl)

/-- A write to an OTW register already written: KEYMASK tells (R58). -/
def State.otwWritten (s : State) (u : UnitId) (o : Nat) : Bool :=
  u == .key && 0x40 ≤ o && o ≤ 0x6C && bitOf (s.rd .key F.KEYMASK_mask) ((o - 0x40) / 4)

/-- The cause that refuses an aligned 32-bit write, the first that applies in the order 3, 1, 2 (R57); 0 if none. -/
def State.refusal (s : State) (r : Requester) (u : UnitId) (o : Nat) : Nat :=
  if !mayWrite r u o then 3 else if s.lockedReg u o then 1 else if s.otwWritten u o then 2 else 0

/-- The crumb, and LOCKVIOL for causes 1 to 3, of a write that changes nothing (R57). -/
def State.violation (s : State) (r : Requester) (u : UnitId) (cause off v : Nat) : State :=
  let t := s.refuse r.num u cause off v
  if cause = 4 then t else t.lockviol u

/-- Whether any of `n` bytes from window offset `off` lies in a register of the device's units (R46, R52). -/
def touchesRegister (off n : Nat) : Bool :=
  (List.range n).any (fun i =>
    let a := (off + i) / 4 * 4
    match UnitId.ofOffset a with
    | some u => u.hasRegister (a - u.base)
    | none => (ctrPlaceOf a).isSome)

/-- The unit that a write of `n` bytes at `off` first touches a register of, for the crumb. -/
def unitTouched (off n : Nat) : UnitId :=
  ((List.range n).findSome? (fun i =>
    let a := (off + i) / 4 * 4
    match UnitId.ofOffset a with
    | some u => if u.hasRegister (a - u.base) then some u else none
    | none => if (ctrPlaceOf a).isSome then some .counterPod else none)).getD .counterPod

/-- A write of `n` bytes of value `v` at window offset `off` by requester `r`: the checks of R46, R52, R54, R56 and R57,
then the effect `f`. A write while the islands are not clocked is discarded without a crumb (R460). -/
def State.guard (s : State) (r : Requester) (off n v : Nat) (f : State → State) : State :=
  if !s.pw.clocked then s
  else if n ≠ 4 || off % 4 ≠ 0 then
    (if touchesRegister off n then s.violation r (unitTouched off n) 4 off v else s)
  else match UnitId.ofOffset off with
    | some u =>
      if !u.hasRegister (off - u.base) then s
      else
        let c := s.refusal r u (off - u.base)
        if c = 0 then f s else s.violation r u c off v
    | none => s

/-- `guard` for a whole-word write to the register at offset `o` of unit `u`, as the commands that write one named
register carry it. -/
def State.guardReg (s : State) (r : Requester) (u : UnitId) (o v : Nat) (f : State → State) : State :=
  if !s.pw.clocked || !u.hasRegister o then s
  else
    let c := s.refusal r u o
    if c = 0 then f s else s.violation r u c (u.base + o) v

/-- The value of field `f` in a word written. -/
def Field.of (f : Field) (v : Nat) : Nat := bits v f.lo f.w

/-- Store one field of a word written, by its access code (R11). -/
def State.storeField (s : State) (u : UnitId) (v : Nat) (f : Field) : State :=
  match f.acc with
  | .rw | .rwl | .otw => s.wr u f (f.of v)
  | .wc => s.wr u f (s.rd u f &&& (f.of v ^^^ (2 ^ f.w - 1)))
  | .ws => s.wr u f (s.rd u f ||| f.of v)
  | .ro | .wo => s

/-- Store a word written into the fields of the register at offset `o` of unit `u` (R11, R12). -/
def State.storeReg (s : State) (u : UnitId) (o v : Nat) : State :=
  (u.fieldsAt o).foldl (fun t f => t.storeField u v f) s

/-- The word made of the stored fields of the register at offset `o` of `u`; reserved bits and WO fields read zero. -/
def State.storedWord (s : State) (u : UnitId) (o : Nat) : Nat :=
  (u.fieldsAt o).foldl (fun w f => if f.acc = .wo then w else w + s.rd u f * 2 ^ f.lo) 0

end Sys2Proof.Machine
end

