-- ==== Sys2Proof/Machine/Codec.lean ====
section
/-! DEFINITION. What is recorded on a PM-4 medium, bit by bit: geometry (R22, R72 to R74), CRC-24 and CRC-32C (R78, R82),
block header bytes (R78), scrambling (R81), LDPC encoding (R84), the outer Reed-Solomon code (R85), slots (R88), the write
strategy (R122, R123) and map and journal records (R91, R92, R96). -/

namespace Sys2Proof.Machine

/-! ### Geometry -/

/-- Tray positions of one layer set (R28, R74). -/
def traysPerLayer : Nat := 94208

/-- Tray positions of a cartridge (R28). -/
def trayCount : Nat := 1507328

/-- The first position to which no data codeword is admitted (R90). -/
def capacityPos : Nat := 1507264

/-- The zone of a track group (R71). -/
def zoneOfGroup (g : Nat) : Nat := g / 368

/-- CW(z), the codewords of a beam block (R73). -/
def cwOfZone (z : Nat) : Nat := 10 + (14 * z + 15) / 31

/-- N_z, the channel bits of a track per revolution (R72, R73). -/
def nOfZone (z : Nat) : Nat :=
  ([3141592, 3280320, 3419056, 3557784, 3696520, 3835256, 3973984, 4112720, 4251448, 4390184, 4528912, 4667648, 4806384,
    4945112, 5083848, 5222576, 5361312, 5500048, 5638776, 5777512, 5916240, 6054976, 6193712, 6332440, 6471176, 6609904,
    6748640, 6887376, 7026104, 7164840, 7303568, 7442304][z]?).getD 0

/-- The layer index of a position (R74). -/
def layerOf (T : Nat) : Nat := T / traysPerLayer

/-- The revolution within the layer of a position (R74). -/
def revOf (T : Nat) : Nat := T % traysPerLayer / 8

/-- The window of a position (R74). -/
def windowOf (T : Nat) : Nat := T % 8

/-- Head `h` moves outward on layer `l` (R22). -/
def outward (l h : Nat) : Bool := l % 2 == h % 2

/-- The track group Head[h] writes at position `T` (R74). -/
def groupOf (T h : Nat) : Nat := if outward (layerOf T) h then revOf T else 11775 - revOf T

/-- The zone of Head[h] at position `T`. -/
def zoneAt (T h : Nat) : Nat := zoneOfGroup (groupOf T h)

/-- CW of Head[h]'s blocks at position `T`. -/
def cwAt (T h : Nat) : Nat := cwOfZone (zoneAt T h)

/-! ### Check codes -/

/-- One bit of a non-reflected CRC of width `w`. -/
def crcBit (w poly crc : Nat) (bit : Bool) : Nat :=
  let top := bitOf crc (w - 1) != bit
  let sh := crc * 2 % 2 ^ w
  if top then sh ^^^ poly else sh

/-- CRC-24 (R82): polynomial 0x864CFB, initial value 0xB704CE, not reflected, no final XOR. -/
def crc24 (bs : List Byte) : Nat :=
  bs.foldl (fun c b => [7, 6, 5, 4, 3, 2, 1, 0].foldl (fun c i => crcBit 24 0x864CFB c (bitOf b.toNat i)) c) 0xB704CE

/-- One bit of a reflected CRC-32 with the reversed Castagnoli polynomial. -/
def crc32cBit (c : Nat) : Nat := if c % 2 == 1 then (c / 2) ^^^ 0x82F63B78 else c / 2

/-- CRC-32C (R78): polynomial 0x1EDC6F41, reflected, initial value and final XOR all ones. -/
def crc32c (bs : List Byte) : Nat :=
  bs.foldl (fun c b => [0, 1, 2, 3, 4, 5, 6, 7].foldl (fun c _ => crc32cBit c) (c ^^^ b.toNat)) 0xFFFFFFFF ^^^ 0xFFFFFFFF

/-- The user bytes of a codeword, byte 0 first. -/
def Cw.bytes (c : Cw) : List Byte := leBytes 4096 c.data

/-! ### Blocks -/

/-- The first 28 bytes of a block header (R78), as one number, first bit recorded most significant. -/
def Block.headNum (b : Block) : Nat :=
  [(48, b.seq), (64, b.timens), (32, b.timecode), (6, b.beam), (4, b.layer), (5, b.zone), (5, b.cwcount), (4, b.parity),
    (16, b.flags), (40, 0)].foldl (fun acc f => acc * 2 ^ f.1 + f.2 % 2 ^ f.1) 0

/-- The 32 bytes of a block header, the CRC-32C last (R78). -/
def Block.header (b : Block) : List Byte :=
  beBytes 28 b.headNum ++ beBytes 4 (crc32c (beBytes 28 b.headNum))

/-- The payload of a codeword (R82): its 8-byte header, then its user bytes. A parity codeword has no header: all its
4,104 bytes are parity and stand in `data` (R83). -/
def Cw.payload (c : Cw) : List Byte :=
  if c.kind = 4 then leBytes 4104 c.data
  else beBytes 4 c.lba ++ [BitVec.ofNat 8 (c.nsid * 4 + c.kind)] ++ beBytes 3 c.crc ++ c.bytes

/-- Blocks of 513 bits of a codeword as numbers: bit t of block j is codeword bit 513j + t (R84). -/
abbrev LdpcBlock := Nat

/-- P^s v (R84): bit r of the result is bit (r + s) mod 513 of `v`. -/
def circ (s : Nat) (v : LdpcBlock) : LdpcBlock := v / 2 ^ s + v * 2 ^ (513 - s) % 2 ^ 513

/-- The information bits of a payload: byte m, bit 7 first (R84). -/
def payloadBits (bs : List Byte) : List Bool :=
  bs.flatMap (fun b => [7, 6, 5, 4, 3, 2, 1, 0].map (bitOf b.toNat))

/-- Information block j of a payload (R84). -/
def infoBlock (bits : List Bool) (j : Nat) : LdpcBlock :=
  ((bits.drop (513 * j)).take 513).foldr (fun b acc => acc * 2 + b2n b) 0

/-- The circulant of column j ≤ 63 in row i (R84), or none where the entry is zero. -/
def ldpcShift (i j : Nat) : Option Nat :=
  if i = j % 8 || i = (j + 1) % 8 || i = (j + 3) % 8 || i = (j + 6) % 8 then some ((i + 1) * (j + 1) * 17 % 513) else none

/-- λ_i of R84: the sum over the information columns. -/
def ldpcLambda (xs : List LdpcBlock) (i : Nat) : LdpcBlock :=
  (xs.zipIdx).foldl (fun acc p => match ldpcShift i p.2 with
    | some s => acc ^^^ circ s p.1
    | none => acc) 0

/-- The eight parity blocks of R84. -/
def ldpcParity (xs : List LdpcBlock) : List LdpcBlock :=
  let lam := (List.range 8).map (ldpcLambda xs)
  let l (i : Nat) : LdpcBlock := (lam[i]?).getD 0
  let x64 := lam.foldl (· ^^^ ·) 0
  let x65 := l 0 ^^^ circ 1 x64
  let x66 := x65 ^^^ l 1
  let x67 := x66 ^^^ l 2
  let x68 := x67 ^^^ l 3 ^^^ x64
  let x69 := x68 ^^^ l 4
  let x70 := x69 ^^^ l 5
  [x64, x65, x66, x67, x68, x69, x70, x70 ^^^ l 6]

/-- The 36,936 bits of the codeword of a payload (R84). -/
def ldpcEncode (payload : List Byte) : List Bool :=
  let bits := payloadBits payload
  let par := ldpcParity ((List.range 64).map (infoBlock bits))
  bits ++ par.flatMap (fun x => (List.range 513).map (bitOf x))

/-- The seed of the scrambler (R81). -/
def prbsSeed (beam seq : Nat) : Nat := 0x40000000 ||| (beam * 2 ^ 24) ||| (seq % 2 ^ 24)

/-- `n` bits of the scrambler from register `s` (R81). -/
def prbs : Nat → Nat → List Bool
  | 0, _ => []
  | n + 1, s =>
    bitOf s 30 :: prbs n (s * 2 % 2 ^ 31 + b2n (bitOf s 30 != bitOf s 27))

/-- The payload region of a block (R81): bit i is bit i div CW of codeword i mod CW, scrambled. -/
def Block.region (b : Block) : List Bool :=
  let cws := b.cws.map (fun c => ldpcEncode c.payload)
  let raw := (List.range (36936 * b.cwcount)).map (fun i => (((cws[i % b.cwcount]?).getD [])[i / b.cwcount]?).getD false)
  (raw.zip (prbs (36936 * b.cwcount) (prbsSeed b.beam b.seq))).map (fun p => p.1 != p.2)

/-- The channel bits of a block's frame (R77): run-in, sync word, three header copies, payload region; 1 is a mark. -/
def Block.frame (b : Block) : List Bool :=
  let word (w n : Nat) : List Bool := (List.range w).map (fun i => bitOf n (w - 1 - i))
  let head := b.header.flatMap (fun x => word 8 x.toNat)
  (List.range 64).flatMap (fun _ => [true, true, false, false]) ++ word 64 0xF0A53C960FC35A69 ++ head ++ head ++ head ++
    b.region

/-! ### The outer code (R85) -/

/-- α times `a` in GF(2^8) with primitive polynomial x^8 + x^4 + x^3 + x^2 + 1. -/
def gfTwice (a : Nat) : Nat := if 128 ≤ a then (a * 2 ^^^ 0x11D) % 256 else a * 2

/-- The product in GF(2^8). -/
def gfMul (a b : Nat) : Nat :=
  ((List.range 8).foldl (fun (st : Nat × Nat) i => (if bitOf b i then st.1 ^^^ st.2 else st.1, gfTwice st.2)) (0, a)).1

/-- g(x) of degree m, highest coefficient first (R85). -/
def rsGen (m : Nat) : List Nat :=
  ((List.range m).foldl (fun (st : List Nat × Nat) _ =>
    (List.zipWith (· ^^^ ·) (st.1 ++ [0]) (0 :: st.1.map (gfMul st.2)), gfTwice st.2)) ([1], 1)).1

/-- The parity symbols of data symbols `d`, highest degree first, for m parity symbols: the remainder of d(x)·x^m (R85). -/
def rsParity (m : Nat) (d : List Nat) : List Nat :=
  let g := (rsGen m).drop 1
  d.foldl (fun r x =>
    let f := x ^^^ (r[0]?).getD 0
    if f = 0 then r.drop 1 ++ [0]
    else List.zipWith (· ^^^ ·) (r.drop 1 ++ [0]) (g.map (gfMul f))) (List.replicate m 0)

/-- The parity symbols of `n` byte positions, from the data payloads (R85). -/
def outerColumns (m : Nat) : Nat → List (List Byte) → List (List Nat)
  | 0, _ => []
  | n + 1, ps => rsParity m (ps.map (fun p => (p.headD 0).toNat)) :: outerColumns m n (ps.map List.tail)

/-- The parity payloads at one codeword position: from the data payloads there in order, byte position by byte position,
`m` payloads of 4,104 bytes as little-endian numbers. -/
def outerParity (m : Nat) (payloads : List (List Byte)) : List Nat :=
  let cols := outerColumns m 4104 payloads
  (List.range m).map (fun q => leNat (cols.map (fun x => BitVec.ofNat 8 ((x[q]?).getD 0))))

/-! ### Write strategy (R122, R123) -/

/-- The settings of a beam's write strategy (R124): widths and the edge entries, signed. -/
structure Strategy where
  wf : Nat
  wm : Nat
  wl : Nat
  wc : Nat
  w1 : Nat
  w2 : Nat
  edge : List Int

/-- Edge entry 3c + d of the class c of a mark length and d of a space (R124); 15 more for the trailing edge. -/
def Strategy.edgeOf (p : Strategy) (n s : Nat) (trailing : Bool) : Int :=
  (p.edge[3 * (min n 5 - 1) + (min s 3 - 1) + if trailing then 15 else 0]?).getD 0

/-- The pulses of a mark of length n between spaces s and s' (R123): start and end in 1/32 bit from t0 and the level; a
later-starting one sets the level where two overlap, and time outside every pulse is at level 2 up to F, then at level 1
for wc. -/
def Strategy.pulses (p : Strategy) (n s s' : Nat) : List (Int × Int × Nat) :=
  let e := p.edgeOf n s false
  let f := 32 * (n : Int) + p.edgeOf n s' true
  (e, f, 2) ::
    (if n = 1 then [(e, e + p.w1, 6)]
     else if n = 2 then [(e, e + p.w2, 7)]
     else (e, e + p.wf, 3) :: (List.range (n - 2)).map (fun (j : Nat) => (((32 * (j + 1) : Nat) : Int), ((32 * (j + 1) + p.wm : Nat) : Int), 4)) ++
       [(f - p.wl, f, 5)]) ++ [(f, f + p.wc, 1)]

/-! ### Map and journal records -/

/-- A map record of type Run (R91). -/
def recRun (lba slot : Nat) : Nat := lba % 2 ^ 30 * 2 ^ 32 + slot % 2 ^ 32

/-- A Section record (R91). -/
def recSection (nsid n : Nat) : Nat := 0x4000000000000000 + nsid * 2 ^ 56 + n

/-- A Zone record (R91). -/
def recZone (gzone nsid nszone state wp : Nat) : Nat :=
  0x8000000000000000 + gzone * 2 ^ 50 + nsid * 2 ^ 44 + nszone * 2 ^ 32 + state * 2 ^ 30 + wp

/-- The control records of R92. -/
def recOpen (number prev : Nat) : Nat := 0xC000000000000000 + number % 2 ^ 24 * 2 ^ 32 + prev
def recCut (cut : Nat) : Nat := 0xC100000000000000 + cut % 2 ^ 48
def recPadding : Nat := 0xC200000000000000
def recClosing (number crc : Nat) : Nat := 0xC300000000000000 + number % 2 ^ 24 * 2 ^ 32 + crc
def recNamespace (nsid what zones : Nat) : Nat := 0xC400000000000000 + nsid * 2 ^ 50 + what * 2 ^ 48 + zones

/-- The user bytes that hold records of `w` bytes each, first byte most significant, as a little-endian number (R91, R96). -/
def packRecords (w : Nat) (rs : List Nat) : Nat := leNat (rs.flatMap (beBytes w))

/-- The records of `w` bytes each in user bytes (R91, R96). -/
def unpackRecords (w data : Nat) : List Nat :=
  (List.range (4096 / w)).map (fun i => leNat ((leBytes w (data / 256 ^ (w * i))).reverse))

/-- A journal record (R96) from its bytes 0, 1, 2–7 and 8–15. -/
def journalRec (type b1 mid last : Nat) : Nat :=
  (type * 256 + b1) * 2 ^ 112 + mid % 2 ^ 48 * 2 ^ 64 + last % 2 ^ 64

/-- The records of R96. -/
def jFlush (seq t : Nat) : Nat := journalRec 1 0 seq t
def jAbandoned (T t : Nat) : Nat := journalRec 2 0 T t
def jWriter (seq serial : Nat) : Nat := journalRec 3 0 seq serial
def jBake (seq t : Nat) : Nat := journalRec 4 0 seq t
def jSession (isEnd : Bool) (n t : Nat) : Nat := journalRec 5 (b2n isEnd) (n * 2 ^ 32) t
def jRetired (beam seq t : Nat) : Nat := journalRec 6 beam seq t
def jSplit (secondary : Bool) (seq serial : Nat) : Nat := journalRec 7 (b2n secondary) seq serial

/-- The user bytes of a journal codeword holding `rs`, padded to 256 records (R89, R96). -/
def journalPage (rs : List Nat) : Nat := packRecords 16 (rs ++ List.replicate (256 - rs.length) 0)

end Sys2Proof.Machine
end

