-- ==== Sys2Proof/Machine/Host.lean ====
section
/-! DEFINITION. What every host command shares: the status codes of both interfaces (R369, R402), outstanding slots (R350,
R392), giving completion records (R353, R354, R391), and the commands the stock recorder holds while they wait (R322). -/

namespace Sys2Proof.Machine

/-! ### Status codes -/

/-- SCT, SC and DNR of a status on NVMe (R369). Codes that R369 does not list are those of the NVM Express Base
Specification the spec refers to (PRESUMED, log entry 20). -/
def Stat.nvme : Stat → Nat × Nat × Bool
  | .success => (0, 0x00, false)
  | .invalidOpcode => (0, 0x01, true)
  | .invalidField | .invalidParam => (0, 0x02, true)
  | .internalError => (0, 0x06, false)
  | .aborted | .busy => (0, 0x21, false)
  | .capacityExceeded => (0, 0x81, true)
  | .noCartridge | .notAttached | .becomingReady => (0, 0x82, false)
  | .writeProtected => (0, 0x20, true)
  | .zoneBoundary => (1, 0xB8, true)
  | .fullZone => (1, 0xBA, true)
  | .outOfOrder => (1, 0xBC, true)
  | .openLimit => (1, 0xBE, false)
  | .resetRefused => (1, 0xBF, true)
  | .unrecovered => (2, 0x81, true)
  | .mediaIncompatible => (7, 0x01, true)
  | .baked => (7, 0x02, true)
  | .sessionBusy => (7, 0x03, false)
  | .notRecording => (7, 0x04, false)
  | .insufficientCapacity => (1, 0x15, true)
  | .identifierUnavailable => (1, 0x16, true)
  | .alreadyAttached | .nsAttached => (1, 0x18, true)
  | .lbaRange => (0, 0x80, true)
  | .invalidQueue => (1, 0x01, true)
  | .invalidQueueSize => (1, 0x02, true)
  | .invalidVector => (1, 0x08, true)
  | .invalidQueueDelete => (1, 0x0C, true)
  | .cqInvalid => (1, 0x00, true)
  | .abortRequested => (0, 0x07, true)
  | .sqDeleted => (0, 0x08, true)
  | .overlapRange => (0, 0x14, true)
  | .invalidLog => (1, 0x09, true)
  | .aerLimit => (1, 0x05, true)
  | .invalidNamespace => (0, 0x0B, true)
  | .prpOffset => (0, 0x13, true)
  | .dataTransfer => (0, 0x04, true)
  | .nsNotAttached => (1, 0x1A, true)
  | .ctrlListInvalid => (1, 0x1C, true)
  | .invalidSlot => (1, 0x06, true)
  | .invalidImage => (1, 0x07, true)
  | .needsReset => (1, 0x0B, true)
  | .selfTestBusy => (1, 0x1D, true)
  | .noRoiSetup | .roiResources | .tooMuchData | .wrongOffset | .dataTimeout | .tagOverlap | .unitAttention _ =>
    (0, 0x02, true)

/-- The status field of an NVMe completion record (R353): [15] DNR, [11:9] SCT, [8:1] SC. -/
def Stat.nvmeField (x : Stat) : Nat :=
  let c := x.nvme
  b2n c.2.2 * 32768 + c.1 * 512 + c.2.1 * 2

/-- SCSI status, sense key, and ASC and ASCQ of a status on SAS (R402, R403, R406). -/
def Stat.sas : Stat → Nat × Nat × Nat
  | .success => (0, 0, 0)
  | .invalidOpcode => (2, 0x5, 0x2000)
  | .invalidField => (2, 0x5, 0x2400)
  | .invalidParam => (2, 0x5, 0x2600)
  | .internalError => (2, 0x4, 0x4400)
  | .aborted => (2, 0xB, 0x0000)
  | .busy => (8, 0, 0)
  | .capacityExceeded => (2, 0x7, 0x2707)
  | .noCartridge => (2, 0x2, 0x3A00)
  | .notAttached => (2, 0x5, 0x2500)
  | .writeProtected => (2, 0x7, 0x2700)
  | .zoneBoundary => (2, 0x5, 0x2105)
  | .fullZone => (2, 0x7, 0x2708)
  | .outOfOrder => (2, 0x5, 0x2104)
  | .openLimit => (2, 0x7, 0x550E)
  | .resetRefused => (2, 0x7, 0x8005)
  | .unrecovered => (2, 0x3, 0x1100)
  | .mediaIncompatible => (2, 0x3, 0x3000)
  | .baked => (2, 0x7, 0x8002)
  | .sessionBusy => (2, 0x5, 0x8003)
  | .notRecording => (2, 0x2, 0x8004)
  | .insufficientCapacity => (2, 0x5, 0x8006)
  | .identifierUnavailable => (2, 0x5, 0x8007)
  | .alreadyAttached => (2, 0x5, 0x8008)
  | .becomingReady => (2, 0x2, 0x0401)
  | .lbaRange => (2, 0x5, 0x2100)
  | .noRoiSetup => (2, 0x5, 0x2C00)
  | .roiResources => (2, 0x5, 0x5503)
  | .tooMuchData => (2, 0xB, 0x4B02)
  | .wrongOffset => (2, 0xB, 0x4B05)
  | .dataTimeout => (2, 0xB, 0x4B06)
  | .tagOverlap => (2, 0xB, 0x4E00)
  | .unitAttention a => (2, 0x6, a)
  | .selfTestBusy => (2, 0x2, 0x0409)
  | _ => (2, 0x5, 0x2400)

/-- Words 1 and 2 of a SAS completion record (R391), the information bit left out. -/
def Stat.sasWord (x : Stat) : Nat := let c := x.sas; c.2.1 * 256 + c.1

/-! ### Slots -/

/-- The commands outstanding, by slot. -/
def State.cmd (s : State) (slot : Nat) : Option HCmd := Tbl.look none s.hc.slots slot

/-- Set what a slot holds. -/
def State.setCmd (s : State) (slot : Nat) (c : Option HCmd) : State :=
  { s with hc := { s.hc with slots := Tbl.put none s.hc.slots slot c } }

/-- Queues 65 and 66 are the SAS ports (R389). -/
def isSasQueue (q : Nat) : Bool := q == 65 || q == 66

/-- The outstanding commands of a queue. -/
def State.outstanding (s : State) (q : Nat) : Nat :=
  (s.hc.slots.filter (fun e => match e.2 with | some c => c.queue == q | none => false)).length

/-- All NVMe commands outstanding. -/
def State.nvmeOutstanding (s : State) : Nat :=
  (s.hc.slots.filter (fun e => match e.2 with | some c => decide (c.queue ≤ 64) | none => false)).length

/-- The outstanding commands of both interfaces (R350). -/
def State.allOutstanding (s : State) : Nat := s.hc.slots.length

/-- The lowest free slot number. -/
def State.freeSlot (s : State) : Nat :=
  ((List.range (s.hc.slots.length + 1)).find? (fun n => (s.cmd n).isNone)).getD s.hc.slots.length

/-- The untaken slots of a command queue, oldest first. -/
def State.waitingOn (s : State) (q : Nat) : List Nat := Tbl.look [] s.hc.waiting q

/-- Set the untaken slots of a command queue. -/
def State.setWaiting (s : State) (q : Nat) (l : List Nat) : State :=
  { s with hc := { s.hc with waiting := Tbl.put [] s.hc.waiting q l } }

/-- An entry enters its command queue; in PS4 it wakes the device (R31, R386, R409). -/
def State.enqueue (s : State) (slot : Nat) : State :=
  match s.cmd slot with
  | none => s
  | some c =>
    let t := (s.setCmd slot (some { c with stage := .queued })).setWaiting c.queue (s.waitingOn c.queue ++ [slot])
    if s.rcd.ps = 4 then (if isSasQueue c.queue then t.raise .sas 7 else t.raise .nvme 6) else t

/-! ### Completion -/

/-- A completion record is given for a queue (R353, R354, R391): one whose slot is not outstanding and taken on that queue
is dropped with a crumb and the bad-give event; one for a discarded slot frees the slot and posts nothing (R382, R404). -/
def State.giveRec (s : State) (r : CRec) : State :=
  match s.cmd r.slot with
  | some c =>
    if c.queue = r.queue && c.stage = .taken then
      if c.discarded then s.setCmd r.slot none
      else ({ s with hc := { s.hc with recs := s.hc.recs ++ [r] } } : State).setCmd r.slot (some { c with stage := .given })
    else if isSasQueue r.queue then (s.report .sas 5 r.slot r.queue).raise .sas 5
    else (s.report .nvme 4 r.slot r.queue).raise .nvme 4
  | none =>
    if isSasQueue r.queue then (s.report .sas 5 r.slot r.queue).raise .sas 5
    else (s.report .nvme 4 r.slot r.queue).raise .nvme 4

/-- The record with which the stock recorder completes a command (R353, R391). -/
def mkRec (q slot : Nat) (x : Stat) (dw0 dw1 : Nat) (info : Option Nat) (data : List Byte) : CRec :=
  if isSasQueue q then
    ⟨q, slot, x.sasWord + (if info.isSome then 4096 else 0), x.sas.2.2, dw0, dw1, info.getD 0, data⟩
  else ⟨q, slot, x.nvmeField, 0, dw0, dw1, info.getD 0, data⟩

/-- The wait of a command for other devices (R548, R552): the devices still to answer, the worst status so far, the record held. -/
def State.gate (s : State) (slot : Nat) : Option (List Nat × Option Stat × Option CRec) :=
  (s.rg.gates.find? (fun g => g.1 == slot)).map Prod.snd

/-- Set or end the wait of a command for other devices. -/
def State.setGate (s : State) (slot : Nat) (g : Option (List Nat × Option Stat × Option CRec)) : State :=
  { s with rg := { s.rg with gates := s.rg.gates.filter (fun x => x.1 != slot) ++ (g.map (fun x => (slot, x))).toList } }

/-- The stock recorder completes a taken command; one that waits for other devices keeps its record until all have answered,
and the status of one that refused replaces it (R548, R552). -/
def State.finish (s : State) (slot : Nat) (x : Stat) (dw0 : Nat := 0) (dw1 : Nat := 0) (info : Option Nat := none)
    (data : List Byte := []) : State :=
  match s.cmd slot with
  | some c =>
    let r := mkRec c.queue slot x dw0 dw1 info data
    (match s.gate slot with
    | none => s.giveRec r
    | some (devs, w, _) =>
      if devs.isEmpty then
        (s.setGate slot none).giveRec (match w with
          | some y => mkRec c.queue slot y 0 0 none []
          | none => r)
      else s.setGate slot (some (devs, w, some r)))
  | none => s

/-- A device has answered for a command (R548, R552). -/
def State.answerGate (s : State) (slot dev : Nat) (x : Stat) : State :=
  match s.gate slot with
  | none => s
  | some (devs, w, r) =>
    let devs := devs.filter (· != dev)
    let w := if w.isSome || x = .success then w else some x
    match r, devs with
    | some r, [] =>
      (s.setGate slot none).giveRec (match w with
        | some y => mkRec r.queue slot y 0 0 none []
        | none => r)
    | _, _ => s.setGate slot (some (devs, w, r))

/-- The stock core that serves a queue (R321, R349, R389): Core[0] queue 0, Core[1] to Core[3] the I/O queues in turn,
Core[4] the SAS ports. -/
def stockCore (q : Nat) : Nat := if q = 0 then 0 else if isSasQueue q then 4 else 1 + (q - 1) % 3

/-- A taken command waits in the stock recorder (R322, R323). -/
def State.addOp (s : State) (slot : Nat) (k : OpKind) : State :=
  match s.cmd slot with
  | some c => { s with rcd := { s.rcd with
      ops := s.rcd.ops ++ [⟨s.rcd.nextOp, slot, c.queue, stockCore c.queue, k⟩], nextOp := s.rcd.nextOp + 1 } }
  | none => s

/-- The command that waits as number `id`. -/
def State.op (s : State) (id : Nat) : Option Op := s.rcd.ops.find? (fun o => o.id == id)

/-- The command that waits as number `id` waits no more. -/
def State.dropOp (s : State) (id : Nat) : State :=
  { s with rcd := { s.rcd with ops := s.rcd.ops.filter (fun o => o.id != id) } }

/-- Replace what a command waits for. -/
def State.setOp (s : State) (id : Nat) (k : OpKind) : State :=
  { s with rcd := { s.rcd with ops := s.rcd.ops.map (fun o => if o.id == id then { o with kind := k } else o) } }

/-- A waiting command completes. -/
def State.endOp (s : State) (o : Op) (x : Stat) (dw0 : Nat := 0) (dw1 : Nat := 0) (info : Option Nat := none)
    (data : List Byte := []) : State :=
  (s.dropOp o.id).finish o.slot x dw0 dw1 info data

/-- An asynchronous event (R379): type, information and log page; it is reported on the oldest request, or held, one per
type and information. Dword 0 of the completion holds type, information and log page. -/
def State.asyncEvent (s : State) (ty info log : Nat) : State :=
  match s.hc.aers with
  | slot :: rest =>
    ({ s with hc := { s.hc with aers := rest } } : State).finish slot .success (ty + info * 256 + log * 65536)
  | [] =>
    if s.hc.heldEvents.any (fun e => e.1 == ty && e.2.1 == info) then s
    else { s with hc := { s.hc with heldEvents := s.hc.heldEvents ++ [(ty, info, log)] } }

/-- The vendor event of type 7 (R379), raised while the stock recorder runs (R518). -/
def State.vendorEvent (s : State) (info : Nat) : State :=
  if s.rd .power F.PWSTART_level < 2 then s else s.asyncEvent 7 info (if info = 1 then 0xC1 else 0xC0)

/-- A unit attention is established for every nexus for which `p` holds (R403). -/
def State.attention (s : State) (asc : Nat) (p : Nexus → Bool := fun _ => true) : State :=
  { s with hc := { s.hc with nexuses := s.hc.nexuses.map (fun n => if p n then { n with ua := n.ua ++ [asc] } else n) } }

/-- The guest of a command from queue pair `q` (R381): the lowest guest whose pair of registers names it, else 0. -/
def State.guestOfQueue (s : State) (q : Nat) : Nat :=
  if q = 0 then 0
  else ((List.range 8).find? (fun g =>
    if q ≤ 32 then bitOf (s.rd (.guest g) F.GNVMELO_qp) (q - 1) else bitOf (s.rd (.guest g) F.GNVMEHI_qp) (q - 33))).getD 0

/-- The guest of an initiator (R407): the lowest valid entry that names it, else 0. -/
def State.guestOfInit (s : State) (addr : Nat) : Nat :=
  (((List.range 16).map (fun i => Tbl.look ⟨0, false, 0⟩ s.hc.inits i)).find? (fun e => e.valid && e.addr == addr)).elim 0
    InitEnt.guest

/-- CDB byte `i` of a SAS command. -/
def HCmd.cb (c : HCmd) (i : Nat) : Nat := (c.dw[i]?).getD 0

/-- A big-endian field of `n` bytes at byte `i` of the CDB. -/
def HCmd.be (c : HCmd) (i n : Nat) : Nat := (List.range n).foldl (fun a k => a * 256 + c.cb (i + k)) 0

/-- The allocation length at CDB bytes 10 to 13 (R395). -/
def HCmd.alloc (c : HCmd) : Nat := c.be 10 4

/-! ### Burst buffer (R20, R351, R393, R420) -/

/-- The 4 KiB units of the burst buffer. -/
def burstUnits : Nat := 15728640

/-- Buffer address of burst-buffer unit `u`. -/
def unitAddr (u : Nat) : Nat := 0x100000000 + 4096 * u

/-- The address of the CRC-24 tag of the unit at buffer address `a` (R420). -/
def tagAddr (a : Nat) : Nat := 0x3C000000 + 4 * ((a - 0x100000000) / 4096)

/-- The units of the burst buffer: 28 GiB in half-buffer mode (R517). -/
def State.burstSize (s : State) : Nat := if s.flag .power F.PWSTART_half then 7340032 else burstUnits

/-- A buffer address lies in the burst buffer. -/
def inBurst (a : Nat) : Bool := decide (0x100000000 ≤ a) && decide (a < 0x100000000 + 4096 * burstUnits)

/-- Where the controller places data from the host at level 1 (R572): keeper SRAM. -/
def serviceData : Nat := 0x4000240000

/-- Whether `n` units from buffer address `a` are all free; at level 1 the place of R572. -/
def State.unitsFree (s : State) (a n : Nat) : Bool :=
  if s.rd .power F.PWSTART_level = 1 then a == serviceData
  else a % 4096 == 0 && decide (0x100000000 ≤ a) && decide ((a - 0x100000000) / 4096 + n ≤ s.burstSize) &&
  (List.range n).all (fun i => !Tbl.look false s.hc.unitsUsed ((a - 0x100000000) / 4096 + i))

/-- Mark `n` units from buffer address `a` as used or free. -/
def State.useUnits (s : State) (a n : Nat) (b : Bool) : State :=
  if !inBurst a then s
  else { s with hc := { s.hc with
      unitsUsed := (List.range n).foldl (fun t i => Tbl.put false t ((a - 0x100000000) / 4096 + i) b) s.hc.unitsUsed } }

/-- The host controller writes a page of data and its tag (R420). -/
def State.landPage (s : State) (a page : Nat) : State :=
  let bs := leBytes 4096 page
  if inBurst a then (s.engineStore a bs).engineStore (tagAddr a) (leBytes 4 (0x80000000 + crc24 bs)) else s.engineStore a bs

/-- Pages land at consecutive units from address `a`. -/
def State.landPages (s : State) (a : Nat) : List Nat → State
  | [] => s
  | p :: ps => State.landPages (s.landPage a p) (a + 4096) ps

/-- The unit at buffer address `a` belongs to a mirror descriptor not yet sent (R550). -/
def State.awaitsMirror (s : State) (a : Nat) : Bool :=
  s.pl.queue.any (fun m =>
    let w (i : Nat) : Nat := (m.1[i]?).getD 0
    let b := w 2 + w 3 * 2 ^ 32
    w 0 % 16 == 1 && decide (b ≤ a) && decide (a < b + 4096 * w 4))

/-- The unit at buffer address `a` is released: its tag's valid bit clears and its space is free (R420); a unit that is still to be
mirrored is held until then (R550). -/
def State.releaseUnit (s : State) (a : Nat) : State :=
  if !inBurst a then s
  else if s.awaitsMirror a then { s with pl := { s.pl with held := s.pl.held ++ [a] } }
  else (s.engineStore (tagAddr a) (leBytes 4 (s.readLE (tagAddr a) 4 % 0x80000000))).useUnits a 1 false

end Sys2Proof.Machine
end

