-- ==== Sys2Proof/Machine/Group.lean ====
section
/-! DEFINITION. The other devices of a ring or a pair as the stock recorder sees them: the parameter block (R324), group coordination
(R548) and mirroring (R552). -/

namespace Sys2Proof.Machine

/-! ### The parameter block (R324) -/

/-- Defaults of the parameter block (R324). -/
def paramDefault (i : Nat) : Nat :=
  ([1, 0, 0, 50, 0xD0, 0x07, 1, 0, 0, 0, 0, 0, 0x18, 0, 1, 0][i]?).getD 0

/-- A byte of the parameter block in effect (R324). -/
def State.param (s : State) (i : Nat) : Nat := Tbl.look (paramDefault i) s.rcd.param i

/-- A little-endian field of the parameter block in effect. -/
def State.paramLE (s : State) (i n : Nat) : Nat := (List.range n).foldl (fun a j => a + s.param (i + j) * 256 ^ j) 0

/-! ### The ring -/

/-- The states of RNSTAT (R554). -/
def rnOff : Nat := 0
def rnListening : Nat := 1
def rnJoining : Nat := 2
def rnMember : Nat := 3
def rnMaster : Nat := 4
def rnLost : Nat := 5
def rnConflict : Nat := 6
def rnNoMaster : Nat := 7
def rnRefused : Nat := 8

/-- RNSTAT.state or RNSTAT.substate. -/
def State.rnState (s : State) (portB : Bool) : Nat :=
  if portB then s.rd .ring F.RNSTAT_substate else s.rd .ring F.RNSTAT_state

/-- The bits set in a 64-bit mask. -/
def stationsOf (m : Nat) : List Nat := (List.range 64).filter (bitOf m)

/-- This device's station number on its port A ring: its root station, or its sub-ring station on a sub-ring (R527). -/
def State.station (s : State) : Nat :=
  let d := s.rd .join F.JNSTAT_device
  if d % 64 = 0 then d / 64 else d % 64

/-! ### Group and pair -/

/-- The stock recorder sends a coordination message (R548). -/
def State.postCoord (s : State) (dst : Nat) (c : Coord) : State :=
  { s with rg := { s.rg with msgQ := s.rg.msgQ ++ [⟨[], 7, some (dst, c), 0, 0⟩] } }

/-- The device number of the peer in a gate: no ring station has it. -/
def peerDevice : Nat := 4096

/-- A status in a coordination message (R548): 0 success. -/
def Stat.code : Stat → Nat
  | .success => 0
  | .sessionBusy => 1
  | .baked => 2
  | .capacityExceeded => 3
  | .noCartridge => 4
  | .mediaIncompatible => 5
  | .invalidField => 6
  | .aborted => 7
  | .busy => 8
  | .notRecording => 9
  | .unrecovered => 10
  | _ => 15

/-- The status of a code of a coordination message. -/
def Stat.ofCode (n : Nat) : Stat :=
  ([Stat.success, .sessionBusy, .baked, .capacityExceeded, .noCartridge, .mediaIncompatible, .invalidField, .aborted, .busy,
    .notRecording, .unrecovered][n]?).getD .internalError

/-- The other members of the rings this device masters, by device number (R527, R528). -/
def State.groupOthers (s : State) : List Nat :=
  let root := s.rd .join F.JNSTAT_device / 64
  (if s.rnState false = rnMaster then ((stationsOf s.rg.a.mask).filter (· != 0)).map (64 * ·) else []) ++
  (if s.rnState true = rnMaster then ((stationsOf s.rg.b.mask).filter (· != 0)).map (64 * root + ·) else [])

/-- This device coordinates a widen group (R548). -/
def State.widens (s : State) : Bool := s.param 0xA == 1 && !s.groupOthers.isEmpty

/-- The pair holds and this device is its primary (R549). -/
def State.mirrors (s : State) : Bool := s.rd .pair F.PLSTAT_state == 2 && s.rd .pair F.PLCTRL_role == 1

/-- A mirror descriptor of the stock recorder (R550, R552). -/
def State.mirror (s : State) (words : List Nat) (c : Option Coord) : State :=
  { s with pl := { s.pl with queue := s.pl.queue ++ [(words, 7, c)] } }

/-- A kind 3 descriptor of the stock recorder (R552). -/
def State.tellPeer (s : State) (c : Coord) : State := if s.mirrors then s.mirror [3] (some c) else s

/-- A coordination message to every other member of the group (R548). -/
def State.tellGroup (s : State) (c : Coord) : State :=
  if s.widens then s.groupOthers.foldl (fun t d => t.postCoord d c) s else s

/-- The command in `slot` waits until every member of the group, and with `peer` the peer, has answered (R548, R552). -/
def State.awaitOthers (s : State) (slot : Nat) (peer : Bool) : State :=
  let devs := (if s.widens then s.groupOthers else []) ++ (if peer && s.mirrors then [peerDevice] else [])
  if devs.isEmpty then s else s.setGate slot (some (devs, none, none))

/-- Whether a member of a deepened group records now (R548): one member at a time; a device on no ring records. -/
def State.recordsNow (s : State) : Bool :=
  s.param 0xA != 2 || !(s.rnState false == rnMember || s.rnState false == rnMaster) || s.rg.recorder == s.station

/-- The device number of the master of the ring on port A (R527, R528). -/
def State.masterDevice (s : State) : Nat :=
  let d := s.rd .join F.JNSTAT_device
  if d % 64 = 0 then 0 else d - d % 64

/-- In a deepened group that this device coordinates, the next member in station order records (R548). -/
def State.nextRecorder (s : State) : State :=
  let n := ((stationsOf s.rg.a.mask).find? (fun k => decide (s.rg.recorder < k))).getD 64
  let t := s.groupOthers.foldl (fun (t : State) d => t.postCoord d (.record n)) s
  ({ t with rg := { t.rg with recorder := n } } : State).vendorEvent 2

/-- The cartridge of the member that records is full or baked (R548): the coordinator is told. -/
def State.passRecording (s : State) : State :=
  if s.param 0xA != 2 || s.rg.recorder != s.station then s
  else if s.rnState false = rnMaster then s.nextRecorder
  else if s.rnState false = rnMember then s.postCoord s.masterDevice (.full s.station)
  else s

/-- This side of a pair is a secondary that has not taken over: its namespaces are read-only to its hosts (R552). -/
def State.secondary (s : State) : Bool := s.rd .pair F.PLCTRL_role == 2 && s.rd .pair F.PLSTAT_state != 5

/-- A device of the group or the peer answers what it was asked (R548, R552). -/
def State.answer (s : State) (dev id : Nat) (x : Stat) : State :=
  let c : Coord := .done id (x == .success) x.code
  if dev = peerDevice then s.mirror [3] (some c) else s.postCoord dev c

/-- A flush has completed: the devices that asked for it are answered (R548, R552). -/
def State.answerFlush (s : State) (flush : Nat) (x : Stat) : State :=
  (s.rg.owed.filter (fun o => o.1 == flush)).foldl (fun t o => t.answer o.2.1 o.2.2 x)
    { s with rg := { s.rg with owed := s.rg.owed.filter (fun o => o.1 != flush) } }

end Sys2Proof.Machine
end

