-- ==== Sys2Proof/Machine/Placement.lean ====
section
/-! DEFINITION. The placement map (R91, R115), runs (R29, R91), zones becoming Read Only (R107, R361), capacity (R29, R90)
and posting to the journal (R96, R111), flushes (R116, R367). -/

namespace Sys2Proof.Machine

/-! ### The cartridge's log -/

/-- What is recorded at tray position `T`. -/
def State.posAt (s : State) (T : Nat) : Pos := (s.medium.map (fun c => Tbl.look Pos.blank c.pos T)).getD .blank

/-- Set what is recorded at a tray position. -/
def State.setPos (s : State) (T : Nat) (p : Pos) : State :=
  { s with medium := s.medium.map (fun c => { c with pos := Tbl.put Pos.blank c.pos T p }) }

/-- The beam number within its head. -/
def Block.k (b : Block) : Nat := b.beam % 12

/-- The block is its head's parity block (R78, R86). -/
def Block.isParity (b : Block) : Bool := b.k == b.parity

/-- The codewords of a tray in slot order (R88): its blocks are kept in head and beam order. -/
def slotsOf (bs : List Block) : List Cw := (bs.filter (fun b => !b.isParity)).flatMap Block.cws

/-- The slot address of slot `q` at position `T` (R88). -/
def slotAddr (T q : Nat) : Nat := T * 816 + q

/-- The successor of a slot on this cartridge (R88): the next slot of the tray, or slot 0 of the next written tray. -/
def State.slotSucc (s : State) (a : Nat) : Nat :=
  let n := match s.posAt (a / 816) with
    | .written bs => (slotsOf bs).length
    | _ => 0
  if a % 816 + 1 < n then a + 1
  else match s.medium with
    | some c => ((c.pos.find? (fun e => decide (a / 816 < e.1) && (match e.2 with
        | .written _ => true
        | _ => false))).map (fun e => slotAddr e.1 0)).getD 0
    | none => 0

/-! ### The map -/

/-- The map's key of an LBA. -/
def mapKey (nsid lba : Nat) : Nat := nsid * 2 ^ 32 + lba

/-- The slot address of an LBA, if the map holds one. -/
def State.slotOfLba (s : State) (nsid lba : Nat) : Option Nat :=
  let v := Tbl.look 0 s.rcd.map (mapKey nsid lba)
  if v = 0 then none else some (v - 1)

/-- The keys at which a run begins (R91): the LBA before is not mapped, or not in the slot before. -/
def State.runStarts (s : State) : List Nat :=
  (s.rcd.map.filter (fun e =>
    let p := Tbl.look 0 s.rcd.map (e.1 - 1)
    e.1 % 2 ^ 32 == 0 || p == 0 || s.slotSucc (p - 1) != e.2 - 1)).map Prod.fst

/-! ### Zones -/

/-- A zone that is not in the pool reads empty. -/
def ZoneSt.none : ZoneSt := ⟨.empty, 0, 0, 0⟩

/-- The key of a namespace zone. -/
def zoneKey (nsid j : Nat) : Nat := nsid * 4096 + j

/-- A namespace zone. -/
def State.zone (s : State) (nsid j : Nat) : ZoneSt := Tbl.look ZoneSt.none s.rcd.zones (zoneKey nsid j)

/-- Set a namespace zone; the next checkpoint records it (R91). -/
def State.setZone (s : State) (nsid j : Nat) (z : ZoneSt) : State :=
  { s with rcd := { s.rcd with
      zones := Tbl.put ZoneSt.none s.rcd.zones (zoneKey nsid j) z
      zoneDirty := if s.rcd.zoneDirty.contains (zoneKey nsid j) then s.rcd.zoneDirty
        else s.rcd.zoneDirty ++ [zoneKey nsid j] } }

/-- A pool entry. -/
def State.pool (s : State) (nsid : Nat) : NsEnt := Tbl.look ⟨0, false, 0⟩ s.rcd.pool nsid

/-- Set a pool entry. -/
def State.setPool (s : State) (nsid : Nat) (e : NsEnt) : State :=
  { s with rcd := { s.rcd with pool := Tbl.put ⟨0, false, 0⟩ s.rcd.pool nsid e } }

/-- A zone enters Read Only (R361); an NVMe host learns of it through the Changed Zone List and, where it asked for it, a
notice (R379). -/
def State.zoneReadOnly (s : State) (nsid j : Nat) : State :=
  let z := s.zone nsid j
  if z.st = .readOnly then s
  else
    let t := s.setZone nsid j { z with st := .readOnly }
    if (t.pool nsid).att % 4 = 0 then t
    else
      let t : State := { t with hc := { t.hc with zoneList := t.hc.zoneList ++ [nsid * 2 ^ 32 + j * 262144] } }
      if bitOf (Tbl.look 0 t.hc.feats 0x0B) 27 then t.asyncEvent 2 0xEF 0xBF else t

/-- An unused entry of the zone table. -/
def ZEnt.none : ZEnt := ⟨false, 0, 0, 0, 0⟩

/-- Entry `e` of the zone table (R107). -/
def State.zent (s : State) (e : Nat) : ZEnt := Tbl.look ZEnt.none s.tb.zones e

/-- Set an entry of the zone table. -/
def State.setZent (s : State) (e : Nat) (z : ZEnt) : State :=
  { s with tb := { s.tb with zones := Tbl.put ZEnt.none s.tb.zones e z } }

/-- A zone table entry becomes invalid; its zone is full and never returns (R107, R361). -/
def State.closeEntry (s : State) (e : Nat) : State :=
  let z := s.zent e
  if z.valid then (s.setZent e { z with valid := false }).zoneReadOnly z.nsid z.nszone else s

/-- No further data codeword is admitted (R29, R90): every open zone becomes full. -/
def State.setCapacity (s : State) : State :=
  if s.flag .tray F.TBSTAT_capacity then s
  else
    ((List.range 64).foldl (fun t e => t.closeEntry e) ((s.setFlag .tray F.TBSTAT_capacity true).raise .tray 6)).passRecording

/-- The runs of a codeword enter the map (R115); at 268,435,456 runs the cartridge is full (R29). -/
def State.mapPut (s : State) (nsid lba slot : Nat) : State :=
  let t : State := { s with rcd := { s.rcd with
    map := Tbl.put 0 s.rcd.map (mapKey nsid lba) (slot + 1)
    dirty := Tbl.put false s.rcd.dirty (mapKey nsid lba) true } }
  if 268435456 ≤ t.runStarts.length then t.setCapacity else t

/-! ### High-water marks -/

/-- The high-water mark of namespace zone `j` of pool index `n`; indexes 32 to 63 have none, so no codeword carries one
(R109). -/
def State.hwMark (s : State) (n j : Nat) : Nat := Tbl.look s.tb.hwDefault s.tb.hw (4096 * n + j)

/-- Set a high-water mark. -/
def State.setHw (s : State) (e v : Nat) : State :=
  { s with tb := { s.tb with hw := Tbl.put s.tb.hwDefault s.tb.hw e v } }

/-- Unused reserve trays as a percentage of 105,456 (R28, R376): positions passed beyond those that the recorded LBAs fill are charged
to the reserve (DEDUCED, log entry 34). -/
def State.spare (s : State) : Nat :=
  let used := s.rd .tray F.TBPOS_pointer - s.rcd.map.length / 748
  (105456 - min used 105456) * 100 / 105456

/-- The spare falls below its threshold between two states: hosts that asked for it are told (R376, R379). -/
def State.noteSpare (s t : State) : State :=
  if 10 ≤ s.spare && t.spare < 10 && bitOf (Tbl.look 0 t.hc.feats 0x0B) 0 then t.asyncEvent 1 2 2 else t

/-! ### Journal and flush -/

/-- The stock recorder posts a journal page holding `recs` (R96, R111); a full queue makes it wait (R112). Without a blank
or open cartridge there is no journal. -/
def State.postJournal (s : State) (recs : List Nat) (m : Mark := .none) : State :=
  if s.rcd.cart ≠ 1 ∧ s.rcd.cart ≠ 2 then s
  else
    let page := journalPage recs
    if s.tb.jourQ.length < 64 ∧ s.rcd.journal = [] then
      { s with tb := { s.tb with
          jourQ := s.tb.jourQ ++ [⟨false, 0, 1, 0, 0, 0, 0, 6, false, [(page, m)], 0, 0⟩] } }
    else { s with rcd := { s.rcd with journal := s.rcd.journal ++ [(page, m)] } }

/-- Pages that waited for room are posted. -/
def State.flushBacklog (s : State) : State :=
  match s.rcd.journal with
  | (page, m) :: rest =>
    if s.tb.jourQ.length < 64 then
      { s with
        rcd := { s.rcd with journal := rest }
        tb := { s.tb with jourQ := s.tb.jourQ ++ [⟨false, 0, 1, 0, 0, 0, 0, 6, false, [(page, m)], 0, 0⟩] } }
    else s
  | [] => s

/-- Trays holding codewords accepted so far are to be closed (R103). -/
def State.closeAll (s : State) : State :=
  { s with tb := { s.tb with closeUpTo := max s.tb.closeUpTo (s.tb.nextAcc - 1) } }

/-- A flush is taken (R116, R367, R368): it covers every codeword taken so far, closes the tray being filled and posts its
record, whose seq is filled in when its tray is sealed (R96; DEDUCED, log entry 21). -/
def State.startFlush (s : State) : State :=
  if s.rcd.cart ≠ 1 ∧ s.rcd.cart ≠ 2 then s
  else
    let id := s.rcd.nextFlush
    let t : State := { s with rcd := { s.rcd with
      nextFlush := id + 1
      flushes := s.rcd.flushes ++ [⟨id, s.tb.nextAcc - 1, s.time.ns, s.tb.lastData, none⟩] } }
    t.closeAll.postJournal [] (.flush id)

/-- The number the next flush gets. -/
def State.flushId (s : State) : Nat := s.rcd.nextFlush

/-- The cartridge takes writes: blank or open. -/
def State.writable (s : State) : Bool := s.rcd.cart == 1 || s.rcd.cart == 2

/-! ### Power states (R371, R372) -/

/-- Commands that wait for the power state now reached complete (R400). -/
def State.psOps (s : State) : State :=
  s.rcd.ops.foldl (fun s o => match o.kind with
    | .power p => if p = s.rcd.ps then s.endOp o .success else s
    | _ => s) s

end Sys2Proof.Machine
end

