-- ==== Sys2Proof/Machine/Tray.lean ====
section
/-! DEFINITION. The tray pipeline: composing and filling a tray (R86, R88, R89, R130, R133, R134), sealing (R102 to R106),
unsealing and abandonment (R120, R121), writing a tray to the medium (R77, R78, R85), verdicts, relocated copies and staging
(R105, R115, R127, R130, R131), and checkpoints that become valid (R91 to R94). -/

namespace Sys2Proof.Machine

/-! ### Composition -/

/-- The active beams of a head in the next tray sealed (R133, R134). -/
def State.activeBeams (s : State) (h : Nat) : List Nat :=
  let ks := (List.range 12).filter (fun k =>
    !s.flag (.beam (12 * h + k)) F.BWSTAT_retired && !s.tb.retiring.contains (12 * h + k))
  if s.rcd.ps = 2 then ks.take 6 else ks

/-- The head reports ready to write (R192). -/
def State.headReady (s : State) (h : Nat) : Bool := bitOf (s.rd .tray F.TBHEADS_ready) h

/-- The heads of the next tray sealed: enabled, and ready again if they were cleared (R121). -/
def State.trayHeads (s : State) : List Nat :=
  (List.range 4).filter (fun h => bitOf (s.rd .tray F.TBHEADS_enable) h &&
    (!s.tb.cleared.contains h || s.headReady h) && !(s.activeBeams h).isEmpty)

/-- The mask of a list of bit numbers. -/
def maskOf (ks : List Nat) : Nat := ks.foldl (fun a k => a ||| 2 ^ k) 0

/-- The bit numbers of a 12-bit mask. -/
def beamsOf (mask : Nat) : List Nat := (List.range 12).filter (bitOf mask)

/-- The parity beam of a head with active beams `ks` in a tray with sequence number `seq` (R86). -/
def parityBeam (ks : List Nat) (seq : Nat) : Nat := (ks[seq % ks.length]?).getD 0

/-- The active beams of head `h` of a tray. -/
def Tray.beams (t : Tray) (h : Nat) : List Nat := beamsOf ((t.masks[h]?).getD 0)

/-- The parity beam of head `h` of a tray. -/
def Tray.parityOf (t : Tray) (h : Nat) : Nat := (t.parity[h]?).getD 0

/-- The global beams of a tray. -/
def Tray.allBeams (t : Tray) : List Nat := t.heads.flatMap (fun h => (t.beams h).map (fun k => 12 * h + k))

/-- The global beam of each slot of a tray, in slot order (R88). -/
def Tray.slotBeams (t : Tray) : List Nat :=
  t.heads.flatMap (fun h => ((t.beams h).filter (fun k => k != t.parityOf h)).flatMap
    (fun k => List.replicate (cwAt t.pos h) (12 * h + k)))

/-! ### Filling -/

/-- The lowest free slot from which a copy's slots all are free and none lies on a beam to avoid (R130). -/
def placeAt (beams : List Nat) (slots : List (Option Slot)) (c : Copy) : Option Nat :=
  (List.range (slots.length + 1 - c.cws.length)).find? (fun st =>
    (List.range c.cws.length).all (fun i =>
      ((slots[st + i]?).getD none).isNone && !c.avoid.contains ((beams[st + i]?).getD 0)))

/-- Put a copy's codewords into consecutive slots from `st`. -/
def putCopy (slots : List (Option Slot)) (c : Copy) (st : Nat) : List (Option Slot) :=
  (slots.zipIdx).map (fun p =>
    if st ≤ p.2 ∧ p.2 < st + c.cws.length then (c.cws[p.2 - st]?).map (fun w => ⟨w, some c.id⟩) else p.1)

/-- The beams on which a copy placed at `st` lies. -/
def copyBeams (beams : List Nat) (c : Copy) (st : Nat) : List Nat := ((beams.drop st).take c.cws.length).eraseDups

/-- Place the copies due in order of verdict; the first that finds no place and every later one stay due (R130). -/
def placeCopies (beams : List Nat) : List (Option Slot) → List Copy → List (Option Slot) × List Copy × List Copy
  | slots, [] => (slots, [], [])
  | slots, c :: cs =>
    match placeAt beams slots c with
    | none => (slots, [], c :: cs)
    | some st =>
      let r := placeCopies beams (putCopy slots c st) cs
      (r.1, { c with parts := copyBeams beams c st, failed := false } :: r.2.1, r.2.2)

/-- Fill free slots with codewords in order; what is left over is returned. -/
def fillFree : List (Option Slot) → List PCw → List (Option Slot) × List PCw
  | [], ws => ([], ws)
  | some x :: rest, ws => let r := fillFree rest ws; (some x :: r.1, r.2)
  | none :: rest, [] => let r := fillFree rest []; (none :: r.1, r.2)
  | none :: rest, w :: ws => let r := fillFree rest ws; (some ⟨w, none⟩ :: r.1, r.2)

/-- A padding codeword: 256 padding records (R89, R96). -/
def padCw (acc : Nat) : PCw := ⟨⟨0x3E, 2, 0, crc24 (leBytes 4096 0), 0⟩, acc, 0, false, .none⟩

/-! ### Waiting codewords -/

/-- The codewords waiting to be placed. -/
def TrayBuilder.waiting (b : TrayBuilder) : List PCw := b.copiesDue.flatMap Copy.cws ++ b.wMap ++ b.wData ++ b.wJour

/-- A flush, checkpoint, bake or sealnow needs the tray closed (R103): a codeword accepted up to the mark waits, a map
codeword waits, or a journal codeword that carries a flush or bake record waits. -/
def TrayBuilder.needClose (b : TrayBuilder) : Bool :=
  b.waiting.any (fun w => decide (w.acc ≤ b.closeUpTo)) || !b.wMap.isEmpty || b.wJour.any (fun w => w.mark != .none)

/-- Trays held in staging (R105, R113). -/
def TrayBuilder.held (b : TrayBuilder) : Nat := b.sealed.length + b.staging.length + (if b.writing.isSome then 1 else 0)

/-- The next tray sequence number, TBSEQLO and TBSEQHI (R113). -/
def State.tbSeq (s : State) : Nat := s.rd .tray F.TBSEQHI_seq_hi * 2 ^ 32 + s.rd .tray F.TBSEQLO_seq_lo

/-- Set the next tray sequence number. -/
def State.setTbSeq (s : State) (n : Nat) : State :=
  (s.wr .tray F.TBSEQLO_seq_lo n).wr .tray F.TBSEQHI_seq_hi (n / 2 ^ 32)

/-- The sequence number the next tray sealed takes (R76, R120). -/
def State.sealSeq (s : State) : Nat :=
  s.tbSeq + s.tb.sealed.length + (match s.tb.writing with
    | some w => if w.abandoned then 0 else 1
    | none => 0)

/-- Pass over forced windows (R484). -/
def skipForced (forced : List Nat) : Nat → Nat → Nat
  | 0, T => T
  | n + 1, T => if forced.contains T then skipForced forced n (T + 1) else T

/-- The next position after `T` that is not forced. -/
def TrayBuilder.after (b : TrayBuilder) (T : Nat) : Nat := skipForced b.forced b.forced.length (T + 1)

/-! ### Sealing -/

/-- The heads of a layer's first tray have completed the jump, or have failed it (R106, R198). -/
def State.layerReady (s : State) (T : Nat) : Bool :=
  s.trayHeads.all (fun h =>
    (s.headReady h && s.rd (.head h) F.HSEQSTAT_layer == layerOf T) || s.rd (.head h) F.HSEQSTAT_state == 8)

/-- The tray at position `T` may be sealed as far as its layer goes (R106). -/
def State.layerOk (s : State) (T : Nat) : Bool :=
  T % traysPerLayer != 0 || T == 0 || (s.tb.sealed.isEmpty && s.tb.writing.isNone && s.layerReady T)

/-- A forced window is placed at position `T` (R484): the position becomes abandoned, takes no number and gets its record. -/
def State.placeForced (s : State) (T : Nat) : State :=
  let t : State := { s with tb := { s.tb with
    forced := s.tb.forced ++ [T]
    nextPos := skipForced (s.tb.forced ++ [T]) (s.tb.forced.length + 1) (T + 1) } }
  let t := ((t.setFlag .media F.MBGSKIP_skip false).incSat .media F.MBGSKIP_count).raise .media 7
  (t.count 144).postJournal [jAbandoned T t.time.ns]

/-- A forced window is asked for and may lie at the next position to seal: never position 0, never adjacent to another. -/
def State.forceNow (s : State) : Bool :=
  s.flag .media F.MBGSKIP_skip && s.tb.nextPos != 0 && !s.tb.forced.contains (s.tb.nextPos - 1) &&
  decide (s.tb.nextPos + 1 < trayCount)

/-- The composition of the next tray: position, number, heads, masks and parity beams (R86, R102). -/
def State.composeTray (s : State) : Tray :=
  let hs := s.trayHeads
  ⟨s.tb.nextPos, s.sealSeq, hs,
    (List.range 4).map (fun h => if hs.contains h then maskOf (s.activeBeams h) else 0),
    (List.range 4).map (fun h => if hs.contains h then parityBeam (s.activeBeams h) s.sealSeq else 0), [], false, false⟩

/-- A tray is to be sealed (R103): enough codewords to fill it, or it is needed closed, or the timeout has run. -/
def State.sealDue (s : State) (slots : Nat) : Bool :=
  !s.tb.waiting.isEmpty && (decide (slots ≤ s.tb.waiting.length) || s.tb.needClose || s.tb.timedOut)

/-- Data codewords admitted to position `T` (R90). -/
def admitted (T : Nat) (ws : List PCw) : List PCw := if T < capacityPos then ws else []

/-- The record a marked journal codeword carries once its tray is fixed (R96). -/
def State.markRecord (s : State) (t : Tray) (m : Mark) : Option Nat :=
  match m with
  | .none => none
  | .bake => some (jBake t.seq s.time.ns)
  | .flush id => (s.rcd.flushes.find? (fun f => f.id == id)).map (fun f =>
      jFlush ((f.seq.orElse (fun _ => s.tb.lastSealed)).getD 0xFFFFFFFFFFFF) f.t)

/-- A journal codeword takes its number and its mark's record when it is first sealed (R89, R96). -/
def State.numberCw (s : State) (t : Tray) (n : Nat) (w : PCw) : PCw :=
  match s.markRecord t w.mark with
  | none => { w with cw := { w.cw with lba := n % 2 ^ 32 }, numbered := true }
  | some r =>
    let d := journalPage [r]
    { w with cw := { w.cw with lba := n % 2 ^ 32, data := d, crc := crc24 (leBytes 4096 d) }, numbered := true }

/-- Number the journal codewords of a tray in slot order. -/
def State.numberSlots (s : State) (t : Tray) : Nat → List Slot → List Slot × Nat
  | n, [] => ([], n)
  | n, x :: xs =>
    if x.cw.cw.nsid = 0x3E && !x.cw.numbered && x.copy.isNone then
      let r := s.numberSlots t (n + 1) xs
      ({ x with cw := s.numberCw t n x.cw } :: r.1, r.2)
    else
      let r := s.numberSlots t n xs
      (x :: r.1, r.2)

/-- A codeword of a data class: kind 0, not a copy. -/
def Slot.isData (x : Slot) : Bool := x.cw.cw.kind == 0 && x.copy.isNone

/-- Note for each flush the last tray that holds its data, and where its record lies (R96, R116). -/
def noteFlush (t : Tray) (f : FlushSt) : FlushSt :=
  let f := if t.slots.any (fun x => x.isData && decide (x.cw.acc ≤ f.bound)) then { f with seq := some t.seq } else f
  match t.slots.find? (fun x => x.cw.mark == .flush f.id) with
  | some x => { f with recAcc := some x.cw.acc }
  | none => f

/-- The tray is sealed with slots filled in the order of R89. -/
def State.fillTray (s : State) (t0 : Tray) : State :=
  let beams := t0.slotBeams
  let b := s.tb
  let r := placeCopies beams (List.replicate beams.length none) b.copiesDue
  let m := fillFree r.1 b.wMap
  let d := fillFree m.1 (admitted t0.pos b.wData)
  let j := fillFree d.1 b.wJour
  let full := (j.1).map (fun x => x.getD ⟨padCw b.nextAcc, none⟩)
  -- flushes learn of the data of this tray before the record of a flush in it is formed
  let s1 : State := { s with rcd := { s.rcd with flushes := s.rcd.flushes.map (noteFlush { t0 with slots := full }) } }
  let nb := s1.numberSlots t0 b.journalNo full
  let t : Tray := { t0 with slots := nb.1 }
  let hasData := t.slots.any Slot.isData
  { s1 with tb := { b with
      copiesDue := r.2.2
      copiesOut := b.copiesOut ++ r.2.1
      wMap := m.2
      wData := if t0.pos < capacityPos then d.2 else b.wData
      wJour := j.2
      sealed := b.sealed ++ [t]
      journalNo := nb.2
      nextPos := b.after t0.pos
      timedOut := false
      lastSealed := some t.seq
      lastData := if hasData then some t.seq else b.lastData } }

/-- Beams due to retire are retired from this tray on, with their record (R40, R133). -/
def State.applyRetiring (s : State) (seq : Nat) : State :=
  let t := s.tb.retiring.foldl (fun t b =>
    ((t.setFlag (.beam b) F.BWSTAT_retired true).wr (.beam b) F.USTAT_state 6).postJournal
      [jRetired b seq t.time.ns]) s
  { t with tb := { t.tb with retiring := [] } }

/-- The stock recorder forbids steps of the clock while any tray is sealed or being written, and allows them otherwise (R469). -/
def State.noteSteps (s : State) : State := s.setFlag .time F.TMCFG_allowstep (s.tb.sealed.isEmpty && s.tb.writing.isNone)

/-- Seal the next tray, its reason given: retirement takes effect, the heads present are shown and a cleared head that is
ready again counts as present (R113, R121). A blank cartridge is to be marked open before its first tray (R99). -/
def State.sealTray (s : State) : State :=
  let t0 := s.composeTray
  let t := (s.applyRetiring t0.seq).fillTray t0
  let t := t.wr .tray F.TBHEADS_present (maskOf t0.heads)
  let t : State := { t with tb := { t.tb with cleared := t.tb.cleared.filter (fun h => !t0.heads.contains h) } }
  let t : State := if t.rcd.cart = 1 then { t with rcd := { t.rcd with cmDue := true } } else t
  (if t.tb.held = 320 then t.raise .tray 5 else t).noteSteps

/-! ### Unsealing -/

/-- The codewords of trays that belong to no copy and whose class `p` accepts, in slot order. -/
def looseCws (ts : List Tray) (p : PCw → Bool) : List PCw :=
  (ts.flatMap Tray.slots).filterMap (fun x => if x.copy.isNone && p x.cw then some x.cw else none)

/-- The copies that lie in trays. -/
def copiesIn (ts : List Tray) : List Nat := ((ts.flatMap Tray.slots).filterMap Slot.copy).eraseDups

/-- The codewords of trays return ahead of everything taken later, class by class (R120, R121). -/
def TrayBuilder.giveBack (b : TrayBuilder) (ts : List Tray) : TrayBuilder :=
  let ids := copiesIn ts
  { b with
    copiesDue := ids.filterMap (fun i => b.copiesOut.find? (fun c => c.id == i)) ++ b.copiesDue
    copiesOut := b.copiesOut.filter (fun c => !ids.contains c.id)
    wMap := looseCws ts (fun w => w.cw.nsid == 0x3F) ++ b.wMap
    wData := looseCws ts (fun w => decide (w.cw.nsid < 0x3E)) ++ b.wData
    wJour := looseCws ts (fun w => w.cw.nsid == 0x3E) ++ b.wJour }

/-- The write pointer moves past position `T` (R75); forced windows behind it are forgotten. -/
def State.advance (s : State) (T : Nat) : State :=
  let n := s.tb.after T
  let t : State := { s with tb := { s.tb with
    forced := s.tb.forced.filter (fun f => decide (n ≤ f + 1))
    nextPos := max s.tb.nextPos n } }
  let t := t.wr .tray F.TBPOS_pointer n
  if capacityPos ≤ n then t.setCapacity else t

/-! ### Abandonment (R119, R120) -/

/-- The write gate of one beam of the tray being written is removed with cause `cause` (R119, R129). -/
def State.loseGate (s : State) (b cause : Nat) : State :=
  (((s.wr (.beam b) F.BWSTAT_cause cause).setFlag (.beam b) F.BWSTAT_gate false).raise (.beam b) 4).count (158 + 4 * (b / 12))

/-- The position being written is abandoned: trays that have not started are unsealed, and the codewords of the abandoned
tray come first, ahead of those (R120). -/
def State.abandonTray (s : State) : State :=
  match s.tb.writing with
  | none => s
  | some w =>
    if w.abandoned then s
    else
      let t : State := { s with tb := { s.tb.giveBack (w.tray :: s.tb.sealed) with
        sealed := []
        writing := some { w with abandoned := true }
        nextPos := s.tb.after w.tray.pos } }
      (t.raise .tray 3).postJournal [jAbandoned w.tray.pos t.time.ns]

/-! ### The medium -/

/-- The parity payloads of a tray (R85): for each head covered at a codeword position, in ascending order, its parity. -/
def Tray.parityAt (t : Tray) (p : Nat) : List (Nat × Nat) :=
  let hs := t.heads.filter (fun h => decide (p < cwAt t.pos h))
  let beams := t.slotBeams
  let data := hs.flatMap (fun h => ((t.beams h).filter (fun k => k != t.parityOf h)).filterMap (fun k =>
    ((((t.slots.zip beams).filter (fun x => x.2 == 12 * h + k)).map Prod.fst)[p]?).map (fun x => x.cw.cw.payload)))
  hs.zip (outerParity hs.length data)

/-- The parity payloads of a tray by codeword position; a block has at most 24. -/
def Tray.parityPays (t : Tray) : List (List (Nat × Nat)) := (List.range 24).map t.parityAt

/-- The codewords of one beam of a tray in position order: its slots, or for the parity beam the parity codewords `par`. -/
def Tray.cwsOf (t : Tray) (par : List (List (Nat × Nat))) (b : Nat) : List Cw :=
  let h := b / 12
  if b % 12 = t.parityOf h then
    (par.take (cwAt t.pos h)).map (fun l => ⟨0, 4, 0, 0, ((l.find? (fun e => e.1 == h)).map Prod.snd).getD 0⟩)
  else ((t.slots.zip t.slotBeams).filter (fun x => x.2 == b)).map (fun x => x.1.cw.cw)

/-- The block of one beam as recorded (R77, R78). -/
def Tray.block (t : Tray) (par : List (List (Nat × Nat))) (ns tc b : Nat) : Block :=
  let h := b / 12
  ⟨t.seq, ns, tc, b, layerOf t.pos, zoneAt t.pos h, cwAt t.pos h, t.parityOf h,
    (t.masks[h]?).getD 0 * 16 + maskOf t.heads, t.cwsOf par b⟩

/-- The blocks of a tray. -/
def Writing.blocks (w : Writing) : List Block :=
  let par := w.tray.parityPays
  w.tray.allBeams.map (w.tray.block par w.ns w.tc)

/-- The codewords of relocated copies in a tray. -/
def Tray.copyCount (t : Tray) : Nat := (t.slots.filter (fun x => x.copy.isSome)).length

/-- The counters of the beams of a tray: codewords written (R451). -/
def State.countBeams (s : State) (t : Tray) : State :=
  t.allBeams.foldl (fun s b => s.count (196 + b) (cwAt t.pos (b / 12))) s

/-- The first tray this device writes since load gets its writer record (R96). -/
def State.noteWriter (s : State) (seq serial : Nat) : State :=
  if s.tb.writerDone then s
  else ({ s with tb := { s.tb with writerDone := true } } : State).postJournal [jWriter seq serial]

/-! ### Verdicts -/

/-- A tray leaves staging once every block has passed or its copy has (R105); its units of the burst buffer are released
(R420). -/
def State.releaseTrays (s : State) : State :=
  let gone := s.tb.staging.filter (fun h => h.due.isEmpty && h.copies.isEmpty)
  let t : State := { s with tb := { s.tb with staging := s.tb.staging.filter (fun h => !(h.due.isEmpty && h.copies.isEmpty)) } }
  gone.foldl (fun t h => h.tray.slots.foldl (fun t x =>
    if x.isData && x.cw.src != 0 then t.releaseUnit x.cw.src else t) t) t

/-- The verdict of R127 on a block with `cw` codewords: 0 pass, 1 no sync, 2 no header, 3 no decode, 4 error limit, 5 CRC-24. -/
def drawVerdict (itlim errlim cw : Nat) (d : Seen) : Nat :=
  if d.ofs.isNone then 1
  else if d.copy = 0 then 2
  else if !((List.range cw).all (fun p => let i := (d.iters[p]?).getD 0; i != 0 && decide (i ≤ itlim))) then 3
  else if errlim ≠ 0xFFF && errlim < d.maxerr then 4
  else if !d.crcBad.isEmpty then 5
  else 0

/-- The runs of the codewords of passed slots enter the map (R115): data codewords and relocated copies of data. -/
def State.mapSlots (s : State) (T : Nat) : Nat → List Slot → (Slot → Bool) → State
  | _, [], _ => s
  | q, x :: xs, p =>
    State.mapSlots (if p x && decide (x.cw.cw.nsid < 32) then s.mapPut x.cw.cw.nsid x.cw.cw.lba (slotAddr T q) else s)
      T (q + 1) xs p

/-- The opening codeword of the checkpoint under way has passed at slot address `a`. -/
def State.noteOpen (s : State) (w : PCw) (a : Nat) : State :=
  match s.rcd.ckpt with
  | some c =>
    if w.cw.nsid = 0x3F && w.cw.lba == c.number % 4096 * 2 ^ 20 then
      { s with rcd := { s.rcd with ckpt := some { c with openSlot := a } } }
    else s
  | none => s

/-- What follows for the checkpoint from the codewords of passed slots. -/
def State.noteSlots (s : State) (T : Nat) : Nat → List Slot → (Slot → Bool) → State
  | _, [], _ => s
  | q, x :: xs, p => State.noteSlots (if p x then s.noteOpen x.cw (slotAddr T q) else s) T (q + 1) xs p

/-- A copy of codewords that failed on beam `b`: number `id`, with the failed attempts so far. -/
def mkCopy (id : Nat) (cws : List PCw) (avoid : List Nat) (fails : Nat) (read : Bool) : Copy :=
  ⟨id, cws.map (fun w => { w with cw := { w.cw with kind := 3 } }), avoid, fails, read, [], false⟩

/-- The fourth failed attempt of an original block is reported (R131). -/
def State.noteAttempts (s : State) (fails : Nat) : State := if fails = 4 then s.raise .tray 4 else s

/-- A copy has been judged on beam `b` of its tray: passed, or due again with one more failed attempt when its last part is
judged (R131). -/
def State.judgeCopy (s : State) (T b : Nat) (ok : Bool) (slots : List Slot) (id : Nat) : State :=
  match s.tb.copiesOut.find? (fun c => c.id == id) with
  | none => s
  | some c =>
    let c' : Copy := { c with
      parts := c.parts.filter (· != b)
      failed := c.failed || !ok
      avoid := if ok then c.avoid else c.avoid ++ [b] }
    let out := s.tb.copiesOut.map (fun x => if x.id == id then c' else x)
    if !c'.parts.isEmpty then { s with tb := { s.tb with copiesOut := out } }
    else
      let rest := s.tb.copiesOut.filter (fun x => x.id != id)
      if c'.failed then
        (({ s with tb := { s.tb with
            copiesOut := rest
            copiesDue := s.tb.copiesDue ++ [{ c' with fails := c.fails + 1, failed := false }] } } : State).noteAttempts
          (c.fails + 1))
      else
        let t : State := { s with tb := { s.tb with
          copiesOut := rest
          staging := s.tb.staging.map (fun h => { h with copies := h.copies.filter (· != id) }) } }
        let t := t.mapSlots T 0 slots (fun x => x.copy == some id)
        let t := t.noteSlots T 0 slots (fun x => x.copy == some id)
        if c.read then t.wr .media F.MRSTAT_realloc (t.rd .media F.MRSTAT_realloc - 1) else t

/-- The codewords of beam `b` of a tray that belong to no copy. -/
def Tray.looseOn (t : Tray) (b : Nat) : List PCw :=
  ((t.slots.zip t.slotBeams).filter (fun x => x.2 == b && x.1.copy.isNone)).map (fun x => x.1.cw)

/-- The copies with codewords on beam `b` of a tray. -/
def Tray.copiesOn (t : Tray) (b : Nat) : List Nat :=
  (((t.slots.zip t.slotBeams).filter (fun x => x.2 == b)).filterMap (fun x => x.1.copy)).eraseDups

/-- A block of a held tray is judged (R115, R127, R130, R131). -/
def State.judgeBlock (s : State) (h : Held) (b : Nat) (ok : Bool) : State :=
  let T := h.tray
  let beams := T.slotBeams
  let s : State := { s with tb := { s.tb with staging := s.tb.staging.map (fun x =>
    if x.tray.pos == T.pos then { x with due := x.due.filter (· != b) } else x) } }
  let s := (T.copiesOn b).foldl (fun s id => s.judgeCopy T.pos b ok T.slots id) s
  let loose := T.looseOn b
  let s :=
    if loose.isEmpty then s
    else if ok then
      let mine (x : Slot × Nat) : Bool := x.2 == b && x.1.copy.isNone
      ((T.slots.zip beams).zipIdx).foldl (fun s x =>
        if mine x.1 then
          let s := s.noteOpen x.1.1.cw (slotAddr T.pos x.2)
          if x.1.1.cw.cw.nsid < 32 then s.mapPut x.1.1.cw.cw.nsid x.1.1.cw.cw.lba (slotAddr T.pos x.2) else s
        else s) s
    else
      { s with tb := { s.tb with
          nextCopy := s.tb.nextCopy + 1
          copiesDue := s.tb.copiesDue ++ [mkCopy s.tb.nextCopy loose [b] 1 false]
          staging := s.tb.staging.map (fun x =>
            if x.tray.pos == T.pos then { x with copies := x.copies ++ [s.tb.nextCopy] } else x) } }
  s.releaseTrays

/-! ### What is still on its way -/

/-- The codewords taken and not yet passed: waiting, sealed or unsealed, being written, on beams still to be judged, or in
copies (R115, R116); `p` tells which copies count. -/
def TrayBuilder.pendingIf (b : TrayBuilder) (p : Copy → Bool) : List PCw :=
  b.wMap ++ b.wData ++ b.wJour ++ (b.copiesDue.filter p).flatMap Copy.cws ++ (b.copiesOut.filter p).flatMap Copy.cws ++
  (b.sealed ++ b.stash).flatMap (fun t => t.slots.filterMap (fun x => if x.copy.isNone then some x.cw else none)) ++
  (match b.writing with
    | some w => if w.abandoned then [] else w.tray.slots.filterMap (fun x => if x.copy.isNone then some x.cw else none)
    | none => []) ++
  b.staging.flatMap (fun h => h.due.flatMap h.tray.looseOn)

/-- Every codeword taken and not yet passed. -/
def TrayBuilder.pending (b : TrayBuilder) : List PCw := b.pendingIf (fun _ => true)

/-- Every codeword accepted up to `bound` lies in a passed block or a passed copy (first condition of R116). -/
def TrayBuilder.passed (b : TrayBuilder) (bound : Nat) : Bool := (b.pendingIf (fun c => !c.read)).all (fun w => decide (bound < w.acc))

/-- A codeword on its way carries the record of flush `id`, or lies in a tray still in staging (R116). -/
def TrayBuilder.recordPassed (b : TrayBuilder) (id : Nat) : Bool :=
  b.pending.all (fun w => w.mark != .flush id) &&
  b.staging.all (fun h => h.tray.slots.all (fun x => x.cw.mark != .flush id)) &&
  b.jourQ.all (fun d => d.pages.all (fun p => p.2 != .flush id))

/-- A flush is complete (R116). -/
def State.flushDone (s : State) (f : FlushSt) : Bool :=
  f.recAcc.isSome && s.tb.passed f.bound && s.tb.recordPassed f.id &&
  s.rcd.journal.all (fun p => p.2 != .flush f.id)

/-! ### Checkpoints -/

/-- The end of the prefix of a zone that the map holds, given the zone's keys in rising order. -/
def prefixEnd (base : Nat) : List Nat → Nat → Nat
  | [], o => o
  | k :: ks, o => if k = base + o then prefixEnd base ks (o + 1) else o

/-- The end of the LBAs of a zone that the map holds. -/
def State.mappedEnd (s : State) (n j : Nat) : Nat :=
  let base := mapKey n (j * 262144)
  prefixEnd base ((s.rcd.map.map Prod.fst).filter (fun k => decide (base ≤ k) && decide (k < base + 262144))) 0

/-- The zone record of a zone (R91): its write pointer is the end of the LBAs the map holds, where its last run ends (DEDUCED, log
entry 36). -/
def State.zoneRecord (s : State) (key : Nat) : Nat :=
  let z := Tbl.look ZoneSt.none s.rcd.zones key
  recZone z.gzone (key / 4096) (key % 4096)
    (match z.st with
      | .empty => 0
      | .readOnly => 2
      | _ => 1) (s.mappedEnd (key / 4096) (key % 4096))

/-- The keys at which run records of the LBAs changed since the last checkpoint are due: where a changed run begins, and at
the LBA after a changed run if that one is mapped elsewhere (R91). -/
def State.dirtyStarts (s : State) : List Nat :=
  let starts := s.runStarts
  let is (k : Nat) : Bool := Tbl.look false s.rcd.dirty k
  (s.rcd.map.map Prod.fst).filter (fun k =>
    (is k && (starts.contains k || !is (k - 1))) || (!is k && k % 2 ^ 32 != 0 && is (k - 1) && starts.contains k))

/-- The run section of one pool index. -/
def State.runSection (s : State) (keys : List Nat) (n : Nat) : List Nat :=
  let ks := keys.filter (fun k => k / 2 ^ 32 == n)
  if ks.isEmpty then []
  else recSection n ks.length :: ks.map (fun k => recRun (k % 2 ^ 32) (Tbl.look 0 s.rcd.map k - 1))

/-- The cut of a checkpoint formed now: every tray below it has passed (R92). -/
def State.cutNow (s : State) : Nat :=
  let b := s.tb
  let seqs := b.staging.map (fun h => h.tray.seq) ++ (b.sealed ++ b.stash).map Tray.seq ++
    (match b.writing with
      | some w => [w.tray.seq]
      | none => [])
  seqs.foldl min s.tbSeq

/-- The zones a checkpoint records: those changed, and those of LBAs newly mapped. -/
def State.zonesDue (s : State) : List Nat :=
  (s.rcd.zoneDirty ++ (s.rcd.dirty.map (fun e => zoneKey (e.1 / 2 ^ 32) (e.1 % 2 ^ 32 / 262144)))).eraseDups

/-- The records of the next checkpoint before its closing record (R91, R92). -/
def State.ckptRecords (s : State) : List Nat :=
  [recOpen s.rcd.nextCkpt ((s.rcd.lastCkpt.map (fun c => c.2.1)).getD 0xFFFFFFFF), recCut s.cutNow] ++
  s.zonesDue.map s.zoneRecord ++
  s.rcd.nsDirty.map (fun n => recNamespace n.1 n.2.1 n.2.2) ++
  (List.range 32).flatMap (s.runSection s.dirtyStarts)

/-- A page of at most 512 records of 8 bytes, padded (R92). -/
def ckptPage (rs : List Nat) : Nat := packRecords 8 (rs ++ List.replicate (512 - rs.length) recPadding)

/-- Cut records into pages of 512. -/
def ckptPages : Nat → List Nat → List (List Nat)
  | 0, _ => []
  | n + 1, rs => if rs.length ≤ 512 then [rs] else rs.take 512 :: ckptPages n (rs.drop 512)

/-- A map descriptor of the stock recorder. -/
def mapDesc (lba : Nat) (page : Nat) : Desc := ⟨false, 0, 1, lba, 0, 0, 0, 6, false, [(page, .none)], 0, 0⟩

/-- A checkpoint is begun (R94): every page but the last is posted; the last, with the closing record, follows once all the
others have passed (R93). One begun while another is under way follows it. -/
def State.startCkpt (s : State) : State :=
  if !s.writable then s
  else if s.rcd.ckpt.isSome then { s with rcd := { s.rcd with ckptWanted := true } }
  else
    let rs := s.ckptRecords
    let pages := ckptPages (rs.length + 1) (rs ++ [recClosing s.rcd.nextCkpt (crc32c (rs.flatMap (beBytes 8)))])
    let n := s.rcd.nextCkpt
    let base := n % 4096 * 2 ^ 20
    let early := pages.dropLast
    let last := ckptPage ((pages.getLast?).getD [])
    let t : State := { s with
      tb := { s.tb with mapQ := s.tb.mapQ ++ (early.zipIdx).map (fun p => mapDesc (base + p.2) (ckptPage p.1)) }
      rcd := { s.rcd with
        ckptWanted := false, dirty := [], zoneDirty := [], nsDirty := []
        nextCkpt := n + 1
        ckpt := some ⟨n, s.cutNow, early.length, last, early.isEmpty, 0xFFFFFFFF⟩ } }
    if early.isEmpty then { t with tb := { t.tb with mapQ := t.tb.mapQ ++ [mapDesc base last] } } else t

/-- No map codeword is on its way. -/
def State.mapIdle (s : State) : Bool := s.tb.mapQ.isEmpty && s.tb.pending.all (fun w => w.cw.nsid != 0x3F)

end Sys2Proof.Machine
end

