-- ==== Sys2Proof/Machine/Write.lean ====
section
/-! DEFINITION. The recording commands: descriptors and units (R108 to R112), sealing (R103), the tray pipeline (R102, R119 to
R121), verdicts (R127 to R132), zone and high-water tables (R107, R109, R114), flushes (R116), retirement (R133), the state
record (R98, R99) and drains (R31, R101). -/

namespace Sys2Proof.Machine

/-! ### Descriptors -/

/-- A write of the stock recorder whose descriptor has ended with `code` (R18, R110, R362, R365). -/
def State.opDesc (s : State) (id code taken : Nat) : State :=
  match s.op id with
  | none => s
  | some o =>
    match o.kind with
    | .write nsid first count append fua =>
      let g := ((s.cmd o.slot).map HCmd.guest).getD 0
      let s := (s.count (if isSasQueue o.queue then 182 else 179) taken).count (257 + 8 * g) taken
      if code = 0 then
        if fua then s.setOp id (.fua (s.tb.nextAcc - 1) nsid first count append)
        else s.endOp o .success (if append then first % 2 ^ 32 else 0) (if append then first / 2 ^ 32 else 0)
      else
        let s := ((List.range count).drop taken).foldl (fun (s : State) i =>
          s.releaseUnit (((s.cmd o.slot).map HCmd.dbuf).getD 0 + 4096 * i)) s
        let z := s.zone nsid (first / 262144)
        let s := if z.st = .readOnly then s
          else s.setZone nsid (first / 262144) { z with wp := (s.zent z.entry).wp }
        if code = 4 then
          s.endOp o .success (if append then first % 2 ^ 32 else 0) (if append then first / 2 ^ 32 else 0)
        else
          let st : Stat := if code = 5 then .capacityExceeded
            else if s.rcd.cart = 3 || s.rcd.bake ≠ 0 then .baked else .outOfOrder
          let s := if code = 5 then s else s.count (260 + 8 * g)
          s.endOp o st 0 0 (some (first / 262144 * 262144 + (s.zone nsid (first / 262144)).wp))
    | _ => s

/-- A descriptor completes with `code` after the units taken (R112): the status record is written, TRAY_DESCDONE raised on
notify and code 0, and the stock recorder's command goes on. `stop` is the LBA of the first unit not taken, or 0. -/
def State.completeDesc (s : State) (d : Desc) (code stop : Nat) : State :=
  let s := if d.status = 0 then s else
    s.engineStore d.status (leBytes 4 (code * 2 ^ 28 + d.req * 2 ^ 24 + d.taken) ++ leBytes 4 d.tag ++ leBytes 4 stop ++
      leBytes 4 0)
  let s := if d.notify && code = 0 then s.raise .tray 7 else s
  if d.op = 0 then s else s.opDesc d.op code d.taken

/-- A refusal of the tray builder with its event and its crumb, which names the nsid and the LBA (R108). -/
def State.refuseUnit (s : State) (bit nsid lba : Nat) : State := (s.report .tray bit nsid lba).raise .tray bit

/-- The fields of a descriptor are outside their ranges (code 3 of R112). -/
def Desc.invalid (d : Desc) (data : Bool) : Bool :=
  let most := if data then 4096 else 512
  let lo := if data then 0x100000000 else 0
  let hi := if data then 0x1000000000 else 0x40000000
  d.bad || d.count == 0 || decide (most < d.count) ||
  (d.pages.isEmpty && (d.src % 4096 != 0 || decide (d.src < lo) || decide (hi < d.src + 4096 * d.count))) ||
  d.status % 16 != 0

/-- The check of a data unit at `lba` against the zone table and the high-water table (R108, R109): 0, or code 1 or 2. -/
def State.unitCheck (s : State) (e lba : Nat) : Nat :=
  let z := s.zent e
  let j := lba / 262144
  let off := lba % 262144
  if !s.flag .tray F.TBHWCTRL_valid || !z.valid then 1
  else if off < s.hwMark z.nsid j then 1
  else if j ≠ z.nszone || off ≠ z.wp || s.hwMark z.nsid j < z.wp then 2
  else 0

/-- Take the head of the data queue off. -/
def State.popData (s : State) : State := { s with tb := { s.tb with dataQ := s.tb.dataQ.drop 1 } }

/-- The data unit at `src` is taken as codeword (R82, R108, R112): the pointer and the mark advance by one. -/
def State.takeUnit (s : State) (d : Desc) (lba src : Nat) : State :=
  let z := s.zent d.entry
  let bs := s.readBytes src 4096
  let w : PCw := ⟨⟨z.nsid, 0, lba, crc24 bs, leNat bs⟩, s.tb.nextAcc, src, false, .none⟩
  let s : State := { s with tb := { s.tb with wData := s.tb.wData ++ [w], nextAcc := s.tb.nextAcc + 1 } }
  let s := (s.setZent d.entry { z with wp := z.wp + 1 }).setHw (4096 * z.nsid + z.nszone) (z.wp + 1)
  if z.wp + 1 = 262144 then s.closeEntry d.entry else s

/-- TRAY_UNIT_TAKE (R18, R29, R90, R108 to R112): the checks in the order of R112. -/
def execTrayUnitTake (eccFail : Bool) (s : State) : Out :=
  match s.tb.dataQ with
  | [] => .next s
  | d :: _ =>
    if !s.flag .tray F.TBCTRL_enable then .next s
    else if d.taken = 0 && d.invalid true then live s (s.popData.completeDesc d 3 (d.lba % 2 ^ 32))
    else
      let lba := (d.lba + d.taken) % 2 ^ 32
      let src := d.src + 4096 * d.taken
      let z := s.zent d.entry
      let tag := s.readLE (tagAddr src) 4
      if s.rcd.cart = 3 || 2 ≤ s.rcd.bake then
        live s ((s.refuseUnit 1 z.nsid lba).popData.completeDesc d 1 lba)
      else if s.flag .tray F.TBSTAT_capacity then live s (s.popData.completeDesc d 5 lba)
      else
        let c := s.unitCheck d.entry lba
        if c ≠ 0 then live s ((s.refuseUnit c z.nsid lba).popData.completeDesc d c lba)
        else if eccFail || !bitOf tag 31 || tag % 2 ^ 24 ≠ crc24 (s.readBytes src 4096) then
          let t := (if eccFail then (s.eccFail src).eccFail src else s).crcFail lba
          let iface := match s.op d.op with
            | some o => if isSasQueue o.queue then 2 else 1
            | none => 0
          let t : State := { t with rcd := { t.rcd with r18 := t.rcd.r18 ||| iface } }
          live s (t.popData.completeDesc d 4 lba)
        else
          let t := s.takeUnit d lba src
          if d.taken + 1 = d.count then live s (t.popData.completeDesc { d with taken := d.count } 0 0)
          else live s { t with tb := { t.tb with dataQ := { d with taken := d.taken + 1 } :: t.tb.dataQ.drop 1 } }

/-- The head of the map or journal queue is replaced or taken off. -/
def State.setPageHead (s : State) (journal : Bool) (d : Option Desc) : State :=
  if journal then { s with tb := { s.tb with jourQ := d.toList ++ s.tb.jourQ.drop 1 } }
  else { s with tb := { s.tb with mapQ := d.toList ++ s.tb.mapQ.drop 1 } }

/-- TRAY_PAGE_TAKE (R110 to R112): the next page of a map or journal descriptor becomes a codeword; a page whose read fails
twice is refused as under R18 (R413). -/
def execTrayPageTake (journal eccFail : Bool) (s : State) : Out :=
  match (if journal then s.tb.jourQ else s.tb.mapQ) with
  | [] => .next s
  | d :: _ =>
    if !s.flag .tray F.TBCTRL_enable then .next s
    else if d.taken = 0 && d.invalid false then live s ((s.setPageHead journal none).completeDesc d 3 0)
    else if s.rcd.cart = 3 then
      live s (((s.refuseUnit 1 (if journal then 0x3E else 0x3F) (if journal then 0 else (d.lba + d.taken) % 2 ^ 32)).setPageHead
        journal none).completeDesc d 1 0)
    else if eccFail then
      let a := d.src + 4096 * d.taken
      live s (((((s.eccFail a).eccFail a).crcFail ((d.lba + d.taken) % 2 ^ 32)).setPageHead journal none).completeDesc d 4 0)
    else
      let src := d.src + 4096 * d.taken
      let p : Nat × Mark := (d.pages[d.taken]?).getD (leNat (s.readBytes src 4096), .none)
      let w : PCw := ⟨if journal then ⟨0x3E, 2, 0, crc24 (leBytes 4096 p.1), p.1⟩
        else ⟨0x3F, 1, (d.lba + d.taken) % 2 ^ 32, crc24 (leBytes 4096 p.1), p.1⟩, s.tb.nextAcc, 0, false, p.2⟩
      let t : State := { s with tb := { s.tb with
        nextAcc := s.tb.nextAcc + 1
        wMap := if journal then s.tb.wMap else s.tb.wMap ++ [w]
        wJour := if journal then s.tb.wJour ++ [w] else s.tb.wJour } }
      if d.taken + 1 = d.count then
        live s (((t.setPageHead journal none).completeDesc { d with taken := d.count } 0 0).flushBacklog)
      else live s (t.setPageHead journal (some { d with taken := d.taken + 1 }))

/-! ### Sealing and the window -/

/-- TRAY_SEAL (R102, R103, R105, R106, R484): the next tray is sealed if one is due; a forced window asked for is placed first. -/
def execTraySeal (s : State) : Out :=
  let b := s.tb
  if !s.writable || s.flag .tray F.TBCTRL_hold || !b.stash.isEmpty || !b.paused.isEmpty || 4 ≤ b.sealed.length ||
      320 ≤ b.held || trayCount ≤ b.nextPos then .next s
  else
    let t := if s.forceNow then s.placeForced b.nextPos else s
    if t.layerOk t.tb.nextPos && !t.trayHeads.isEmpty && t.sealDue t.composeTray.slotBeams.length then live s t.sealTray
    else live s t

/-- SEAL_TIMEOUT (R103): TBSEALTO, not 0, has elapsed since the oldest waiting codeword was taken. -/
def execSealTimeout (s : State) : Out :=
  if s.rd .tray F.TBSEALTO_timeout ≠ 0 && !s.tb.waiting.isEmpty then
    live s { s with tb := { s.tb with timedOut := true } }
  else .next s

/-- A write of TBCTRL (R103, R113). -/
def State.tbCtrl (t : State) (v : Nat) : State :=
    let t := t.storeReg .tray 0x40 v
    if bitOf v 2 && !t.tb.waiting.isEmpty then t.closeAll else t

/-- TBCTRL_SEALNOW (R103, R113): with a codeword waiting the tray being filled is to be closed; the fields of the word
written are stored. -/
def execTbctrlSealnow (r : Requester) (v : Word) (s : State) : Out :=
  live s (s.guardReg r .tray 0x40 v.toNat (fun t => t.tbCtrl v.toNat))

/-- OUTER_PARITY_DONE (R85, R102): the parity of a sealed tray is complete in staging. -/
def execOuterParityDone (seq : Nat) (s : State) : Out :=
  live s { s with tb := { s.tb with
    sealed := s.tb.sealed.map (fun t => if t.seq == seq then { t with parityDone := true } else t) } }

/-- The named heads of a tray that are not ready. -/
def State.unready (s : State) (t : Tray) : List Nat := t.heads.filter (fun h => !s.headReady h)

/-- TRAY_READINESS_CHECK (R121): one window ahead, the next tray is allowed to start, or the sealed trays are unsealed and
wait for the heads; trays so waiting are resealed unchanged once every head they wait for is ready. -/
def execTrayReadinessCheck (s : State) : Out :=
  if !s.tb.stash.isEmpty then
    if s.tb.awaited.all s.headReady then
      live s ({ s with tb := { s.tb with sealed := s.tb.stash, stash := [], awaited := [] } } : State).noteSteps
    else .next s
  else match s.tb.sealed with
    | [] => .next s
    | t :: ts =>
      if (s.unready t).isEmpty then live s { s with tb := { s.tb with sealed := { t with checked := true } :: ts } }
      else
        live s (({ s with tb := { s.tb with
          sealed := [], stash := t :: ts, awaited := s.unready t } } : State).setFlag .tray F.TBSTAT_holding true).noteSteps

/-- HEAD_READY_TIMEOUT (R121): after two revolutions the heads still not ready are cleared, and the trays are sealed anew
without them. -/
def execHeadReadyTimeout (s : State) : Out :=
  match s.tb.stash with
  | [] => .next s
  | t :: ts =>
    let late := s.tb.awaited.filter (fun h => !s.headReady h)
    if late.isEmpty then .next s
    else
      let u : State := { s with tb := { s.tb.giveBack (t :: ts) with
        stash := [], awaited := [], cleared := s.tb.cleared ++ late, nextPos := t.pos } }
      live s (u.wr .tray F.TBHEADS_present (maskOf ((List.range 4).filter (fun h =>
        bitOf (u.rd .tray F.TBHEADS_present) h && !late.contains h))))

/-- The cause that keeps the write gates of a head shut as its sensors stand (R119): 1 a comparator or freeze trip, 2 off
track, 0 none. -/
def State.gateBlock (s : State) (h : Nat) : Nat :=
  if s.headReady h then 0
  else if !s.flag (.head h) F.HCLKSTAT_locked || !s.flag (.head h) F.HTRKERR_valid then 2 else 1

/-- TRAY_WINDOW_WRITE (R119): the window of a tray that passed its readiness check begins; each active beam's gate opens.
At a junction of 110 °C no tray starts (cause 4). A head that lost a condition since the check loses its gates at bit 0. -/
def execTrayWindowWrite (s : State) : Out :=
  match s.tb.sealed, s.tb.writing with
  | t :: ts, none =>
    if !t.checked || !t.parityDone || (s.rcd.cart == 1 && s.rcd.cmDue) then .next s
    else if s.flag .thermal F.THSTAT_stopwrite then
      live s (({ s with tb := { s.tb with sealed := { t with checked := false } :: ts } } : State).setFlag .tray
        F.TBSTAT_holding true)
    else
      let u : State := { s with tb := { s.tb with
        sealed := ts, writing := some ⟨t, t.allBeams, false, s.tc.stampNs, s.tc.stampTc⟩ } }
      let u : State := if u.rcd.cart = 1 then { u with rcd := { u.rcd with cart := 2 } } else u
      let u := u.setFlag .tray F.TBSTAT_holding false
      let u := t.allBeams.foldl (fun u b =>
        (u.setFlag (.beam b) F.BWSTAT_active true).setFlag (.beam b) F.BWSTAT_gate true) u
      let bad := t.allBeams.filter (fun b => u.gateBlock (b / 12) != 0)
      if bad.isEmpty then live s u
      else
        let v := bad.foldl (fun v b => v.loseGate b (v.gateBlock (b / 12))) u
        let v : State := { v with tb := { v.tb with
          writing := v.tb.writing.map (fun w => { w with gates := w.gates.filter (fun b => !bad.contains b) }) } }
        live s v.abandonTray
  | _, _ => .next s

/-- A checkpoint begins in time for its cut to follow the previous cut by at most 4,032 trays (R94). -/
def State.ckptEvery (s : State) : State :=
  if s.rcd.ckpt.isNone && (s.rcd.lastCkpt.map (fun c => c.2.2)).getD 0 + 3968 ≤ s.tbSeq then s.startCkpt else s

/-- The last open gate of the window has closed (R75, R76, R131): a tray written in full takes its number and waits for its
verdicts; an abandoned position keeps what was written. -/
def State.endTray (s : State) (w : Writing) : State :=
  let t := w.tray
  let s : State := { s with tb := { s.tb with writing := none } }
  let s := t.allBeams.foldl (fun s b => s.setFlag (.beam b) F.BWSTAT_active false) s
  let s :=
    if w.abandoned then (s.setPos t.pos (.abandoned w.blocks)).count 144
    else
      let s := ((s.setPos t.pos (.written w.blocks)).setTbSeq (t.seq + 1)).count 143
      let s := s.ckptEvery.countBeams t |>.count 253 (t.slots.filter (fun x => x.cw.cw.nsid == 0x3E)).length
      let s := if t.copyCount = 0 then s
        else (s.incWrap .tray F.TBRELCNT_count t.copyCount).count 148 t.copyCount
      let s : State := { s with tb := { s.tb with
        staging := s.tb.staging ++ [⟨t, t.allBeams, []⟩] } }
      s.noteWriter t.seq Config.moduleSerial
  let s := State.noteSpare s (s.advance t.pos)
  (if s.tb.sealed.isEmpty then s.setFlag .tray F.TBSTAT_holding true else s).noteSteps

/-- A beam of the tray being written writes no further: its gate is shut, and with the last one the tray ends. -/
def State.shutGate (s : State) (b : Nat) : State :=
  match s.tb.writing with
  | none => s
  | some w =>
    let w' : Writing := { w with gates := w.gates.filter (· != b) }
    let s : State := { s with tb := { s.tb with writing := some w' } }
    if w'.gates.isEmpty then s.endTray w' else s

/-- BLOCK_PAYLOAD_END (R119): after the last payload bit the beam's gate closes. -/
def execBlockPayloadEnd (b : Fin 48) (s : State) : Out :=
  match s.tb.writing with
  | some w => if w.gates.contains b.val then live s ((s.setFlag (.beam b) F.BWSTAT_gate false).shutGate b) else .next s
  | none => .next s

/-- The gates of beams are removed during their blocks (R119, R120): each is reported, the position is abandoned and the
other beams finish. -/
def State.dropGates (s : State) (bs : List Nat) (cause : Nat) : State :=
  match s.tb.writing with
  | none => s
  | some w =>
    let open_ := bs.filter (fun b => w.gates.contains b)
    if open_.isEmpty then s
    else
      let t := (open_.foldl (fun t b => t.loseGate b cause) s).abandonTray
      open_.foldl (fun t b => t.shutGate b) t

/-- Every gate of a head is removed (R185, R191). -/
def State.dropHeadGates (s : State) (h cause : Nat) : State :=
  s.dropGates ((List.range 12).map (fun k => 12 * h + k)) cause

/-- BEAM_UNDERRUN (R118): the feeder lacks the next byte; the gate is removed with cause 3 and the tray abandoned. -/
def execBeamUnderrun (b : Fin 48) (s : State) : Out :=
  match s.tb.writing with
  | some w => if w.gates.contains b.val then live s ((s.raise (.beam b) 3).dropGates [b.val] 3) else .next s
  | none => .next s

/-! ### Verdicts and what they complete -/

/-- The stock recorder completes the commands that wait for checkpoint `n` (R358). -/
def State.ckptOps (s : State) (n : Nat) : State :=
  s.rcd.ops.foldl (fun s o => match o.kind with
    | .ckpt m r data => if m = n then s.endOp o .success r 0 none (if isSasQueue o.queue && data then (beBytes 4 r).take (((s.cmd o.slot).map HCmd.alloc).getD 4) else []) else s
    | _ => s) s

/-- What follows when a checkpoint is valid (R93, R94, R99, R101): it is counted, the state record is owed, the next one
starts if wanted, and a bake goes on to its record. -/
def State.ckptValid (s : State) (c : Ckpt) : State :=
  let s : State := { s with rcd := { s.rcd with
    ckpt := none, lastCkpt := some (c.number, c.openSlot, c.cut), cmDue := true } }
  let s := (s.count 252).ckptOps c.number
  let s := if s.rcd.bake = 2 && !s.rcd.ckptWanted then ({ s with rcd := { s.rcd with bake := 3 } } : State).postJournal [] .bake else s
  if s.rcd.ckptWanted then s.startCkpt else s

/-- The checkpoint under way moves on when no map codeword is on its way (R93). -/
def State.ckptStep (s : State) : State :=
  match s.rcd.ckpt with
  | none => s
  | some c =>
    if !s.mapIdle then s
    else if c.posted then s.ckptValid c
    else { s with
      tb := { s.tb with mapQ := s.tb.mapQ ++ [mapDesc (c.number % 4096 * 2 ^ 20 + c.lastIndex) c.lastPage] }
      rcd := { s.rcd with ckpt := some { c with posted := true } } }

/-- The bake record has passed: the state record is to be written (R101). -/
def State.bakeStep (s : State) : State :=
  if s.rcd.bake = 3 && s.tb.jourQ.all (fun d => d.pages.all (fun p => p.2 != .bake)) &&
      s.tb.pending.all (fun w => w.mark != .bake) && s.rcd.journal.all (fun p => p.2 != .bake) then
    { s with rcd := { s.rcd with bake := 4, cmDue := true } }
  else s

/-- Writes with FUA whose codewords have all passed complete (R365). -/
def State.fuaOps (s : State) : State :=
  s.rcd.ops.foldl (fun s o => match o.kind with
    | .fua bound _ first _ append =>
      if s.tb.passed bound then
        s.endOp o .success (if append then first % 2 ^ 32 else 0) (if append then first / 2 ^ 32 else 0)
      else s
    | _ => s) s

/-- The registers of a judged block (R129, R170). -/
def State.noteSeen (s : State) (b cw : Nat) (seen : Seen) : State :=
  let ok := (List.range cw).filter (fun p => (seen.iters[p]?).getD 0 != 0)
  let s := match seen.ofs with
    | some o => s.wr (.beam b) F.BRSTAT_syncofs (unsigned 11 o)
    | none => s.raise (.beam b) 6
  let s := s.wr (.beam b) F.BRSTAT_hdrcopy (if seen.ofs.isSome then seen.copy else 0)
  let s := if seen.ofs.isSome && seen.copy = 0 then s.raise (.beam b) 7 else s
  if seen.ofs.isNone || seen.copy = 0 then s
  else
    let s := (s.incWrap (.beam b) F.BRDECCNT_count ok.length).incWrap (.beam b) F.BRDECFCNT_count (cw - ok.length)
    (s.incWrap (.beam b) F.BRCORR_count seen.corr).count 149 ok.length |>.count 150 (cw - ok.length)

/-- DRAW_VERDICT (R115, R127, R129 to R132, R138): a block of a held tray is judged. -/
def execDrawVerdict (pos : Nat) (b : Fin 48) (seen : Seen) (s : State) : Out :=
  match s.tb.staging.find? (fun h => h.tray.pos == pos && h.due.contains b.val) with
  | none => .next s
  | some h =>
    let u : UnitId := .beam b
    let lim := s.rd u F.BDRAWCFG_itlim
    let itlim := if 1 ≤ lim && lim ≤ 12 then lim else 12
    let cw := cwAt pos (b.val / 12)
    let v := drawVerdict itlim (s.rd u F.BDRAWCFG_errlim) cw seen
    let t := s.noteSeen b cw seen
    let t := (t.wr u F.BDRAWLAST_verdict v).wr u F.BDRAWLAST_maxit (min itlim (seen.iters.foldl max 0))
    let t := (t.wr u F.BDRAWLAST_maxerr (min 0xFFF seen.maxerr)).incWrap u F.BDRAWCNT_count
    let t := t.count 146
    let c := Tbl.look (0, 0) t.tb.judged b.val
    let t : State := { t with tb := { t.tb with
      judged := Tbl.put (0, 0) t.tb.judged b.val (c.1 + 1, c.2 + (if v = 0 then 0 else 1)) } }
    let t := if v = 0 then t else ((t.incWrap u F.BDRAWFCNT_count).raise u 1).count 147
    live s ((t.judgeBlock h b (v = 0)).fuaOps.ckptStep.bakeStep)

/-- DRAW_INTERVAL_END (R132): the interval's failures set BDRAWWIN.over; at 10 the beam becomes a candidate. -/
def execDrawIntervalEnd (b : Fin 48) (s : State) : Out :=
  let u : UnitId := .beam b
  let c := Tbl.look (0, 0) s.tb.judged b.val
  let t : State := { s with tb := { s.tb with judged := Tbl.put (0, 0) s.tb.judged b.val (0, 0) } }
  live s (if c.1 < 600 then t
    else if c.1 < 100 * c.2 then
      let t := t.incSat u F.BDRAWWIN_over
      if t.rd u F.BDRAWWIN_over = 10 && s.rd u F.BDRAWWIN_over = 9 then (t.setFlag u F.BWSTAT_candidate true).raise u 2
      else t
    else t.wr u F.BDRAWWIN_over 0)

/-! ### Tables -/

/-- A write of TBZID (R109, R114). -/
def State.tbZid (t : State) (v : Nat) : State :=
    let e := t.rd .tray F.TBZSEL_entry
    let z := t.zent e
    let n : ZEnt := ⟨F.TBZID_valid.of v == 1, F.TBZID_nsid.of v, F.TBZID_nszone.of v,
      F.TBZID_gzone.of v, z.wp⟩
    if z.valid then
      if n.valid then t.raise .tray 2 else (t.closeEntry e).setZent e n
    else if n.valid && (32 ≤ n.nsid || n.wp ≠ t.hwMark n.nsid n.nszone || n.wp = 262144) then t.raise .tray 2
    else t.setZent e n

/-- TBZID_WRITE (R107, R109, R114): an invalid entry is set, or made valid if its pointer equals the high-water mark; a valid
entry can only be made invalid. -/
def execTbzidWrite (r : Requester) (v : Word) (s : State) : Out :=
  live s (s.guardReg r .tray 0x64 v.toNat (fun t => t.tbZid v.toNat))

/-- A write of TBZWP (R114). -/
def State.tbZwp (t : State) (v : Nat) : State :=
    let e := t.rd .tray F.TBZSEL_entry
    let z := t.zent e
    if z.valid then t.raise .tray 2 else t.setZent e { z with wp := F.TBZWP_wp.of v }

/-- TBZWP_WRITE (R114): the pointer of an invalid entry is set; that of a valid one is not. -/
def execTbzwpWrite (r : Requester) (v : Word) (s : State) : Out :=
  live s (s.guardReg r .tray 0x68 v.toNat (fun t => t.tbZwp v.toNat))

/-- A write of 1 to TBHWCTRL.zero (R109). -/
def State.hwZero (t : State) : State :=
    if t.flag .tray F.TBHWCTRL_valid then t else { t with tb := { t.tb with zeroing := true } }

/-- TBHWCTRL_ZERO (R109): while valid is 0 the zeroing starts; afterwards the write is ignored. -/
def execTbhwctrlZero (r : Requester) (s : State) : Out :=
  live s (s.guardReg r .tray 0x6C 2 (fun t => t.hwZero))

/-- HW_ZERO_DONE (R109): every mark is 0, then the held writes are applied in order, then a held valid. -/
def execHwZeroDone (s : State) : Out :=
  if !s.tb.zeroing then .next s
  else
    let t : State := { s with tb := { s.tb with
      hw := [], hwDefault := 0, zeroing := false, heldHw := [], heldValid := false } }
    let t := s.tb.heldHw.foldl (fun t w => t.setHw w.1 w.2) t
    live s (if s.tb.heldValid then t.setFlag .tray F.TBHWCTRL_valid true else t)

/-- A write of 1 to TBHWCTRL.valid (R109). -/
def State.hwValid (t : State) : State :=
    if t.tb.zeroing then { t with tb := { t.tb with heldValid := true } }
    else t.setFlag .tray F.TBHWCTRL_valid true

/-- TBHWCTRL_VALID (R109): the table is loaded; during zeroing the write is held. -/
def execTbhwctrlValid (r : Requester) (s : State) : Out :=
  live s (s.guardReg r .tray 0x6C 1 (fun t => t.hwValid))

/-- A write of TBHWDATA (R109). -/
def State.tbHwData (t : State) (r : Requester) (v : Nat) : State :=
    let e := t.rd .tray F.TBHWSEL_entry
    let m := F.TBHWDATA_mark.of v
    let off := UnitId.tray.base + 0x74
    if 262144 < m then t.refuse r.num .tray 3 off v
    else if t.tb.zeroing then { t with tb := { t.tb with heldHw := t.tb.heldHw ++ [(e, m)] } }
    else if t.flag .tray F.TBHWCTRL_valid && m < Tbl.look t.tb.hwDefault t.tb.hw e then
      (t.refuse r.num .tray 3 off v).raise .tray 2
    else t.setHw e m

/-- TBHWDATA_WRITE (R109): the selected mark is set; one above 262,144 leaves a crumb of cause 3, and once valid is 1 one that
would lower an entry also raises TRAY_OUTORDER; during zeroing the write is held. -/
def execTbhwdataWrite (r : Requester) (v : Word) (s : State) : Out :=
  live s (s.guardReg r .tray 0x74 v.toNat (fun t => t.tbHwData r v.toNat))

/-! ### Flush, retirement, state record, drain -/

/-- A parameter block takes effect (R324, R325, R333, R334): its values are loaded into TBSEALTO, MRLADDER.realloc, TCRATE and
TRGCFGn; every input whose action is not 0 is enabled. -/
def State.useParams (s : State) (p : Tbl Nat) : State :=
  let t : State := { s with rcd := { s.rcd with param := p, paramNext := none } }
  let t := (t.wr .tray F.TBSEALTO_timeout (t.paramLE 4 2)).wr .media F.MRLADDER_realloc (t.param 6)
  let t := (t.wr .time F.TCRATE_num (t.paramLE 0xC 2)).wr .time F.TCRATE_den (t.paramLE 0xE 2)
  (List.range 4).foldl (fun t n =>
    ((t.wr .time (F.TRGCFG_edge n) (t.param (0x11 + 8 * n))).wr .time (F.TRGCFG_filter n) (t.paramLE (0x12 + 8 * n) 2)).setFlag
      .time (F.TRGCFG_enable n) (t.param (0x10 + 8 * n) != 0)) t

/-- A change of the parameter block that waits takes effect when the device is idle (R325). -/
def State.paramsDue (s : State) : State :=
  match s.rcd.paramNext with
  | some p => if s.rcd.session = 0 && s.rcd.seqs.isEmpty then s.useParams p else s
  | none => s

/-- A flush has completed (R116, R326, R367, R399): its command ends, with internal-error if data its interface accepted was
refused under R18 since the last one; a session closing with it becomes idle; a checkpoint follows (R94). -/
def State.endFlush (s : State) (f : FlushSt) : State :=
  let s : State := { s with rcd := { s.rcd with flushes := s.rcd.flushes.filter (fun g => g.id != f.id) } }
  let s := (s.count 251).answerFlush f.id .success
  let s := s.rcd.ops.foldl (fun s o => match o.kind with
    | .flush id =>
      if id = f.id then
        let bit := if isSasQueue o.queue then 1 else 0
        let g := ((s.cmd o.slot).map HCmd.guest).getD 0
        let bad := bitOf s.rcd.r18 bit
        let s : State := { s with rcd := { s.rcd with r18 := if bad then s.rcd.r18 - 2 ^ bit else s.rcd.r18 } }
        (s.count (261 + 8 * g)).endOp o (if bad then .internalError else .success)
      else s
    | _ => s) s
  let s : State := if s.rcd.session = 2 && s.rcd.closing = f.id then { s with rcd := { s.rcd with session := 0 } } else s
  s.paramsDue.startCkpt

/-- FLUSH_COMPLETE (R116): the oldest flush whose three conditions hold completes. -/
def execFlushComplete (s : State) : Out :=
  match s.rcd.flushes.find? s.flushDone with
  | some f => live s (s.endFlush f)
  | none => .next s

/-- A beam is retired or due to retire. -/
def State.beamGone (s : State) (b : Nat) : Bool := s.flag (.beam b) F.BWSTAT_retired || s.tb.retiring.contains b

/-- Another beam of the head of `b` may retire (R133): three at most. -/
def State.mayRetire (s : State) (b : Nat) : Bool :=
  decide (((List.range 12).filter (fun k => s.beamGone (12 * (b / 12) + k))).length < 3)

/-- BWCTRL.retire (R133): the beam is due to retire from the next tray sealed; a fourth beam of a head is refused, and a beam
retired or due to retire changes nothing. -/
def State.retireBeam (s : State) (b : Nat) : State :=
  if s.beamGone b then s
  else if s.mayRetire b then
    ({ s with tb := { s.tb with retiring := s.tb.retiring ++ [b] } } : State).setFlag (.beam b) F.BWCTRL_retire true
  else s.raise (.beam b) 5

/-- BWCTRL_RETIRE (R133). -/
def execBwctrlRetire (r : Requester) (b : Fin 48) (s : State) : Out :=
  live s (s.guardReg r (.beam b) 0x40 1 (fun t => t.retireBeam b))

/-- A byte of the cartridge memory. -/
def Cartridge.cmByte (c : Cartridge) (i : Nat) : Nat := Tbl.look 0 c.cm i

/-- Store bytes into the cartridge memory from offset `i` on. -/
def Cartridge.cmStore (c : Cartridge) (i : Nat) : List Byte → Cartridge
  | [] => c
  | b :: bs => Cartridge.cmStore { c with cm := Tbl.put 0 c.cm i b.toNat } (i + 1) bs

/-- Bytes of the cartridge memory. -/
def Cartridge.cmBytes (c : Cartridge) (i n : Nat) : List Byte :=
  (List.range n).map (fun j => BitVec.ofNat 8 (c.cmByte (i + j)))

/-- A big-endian number in the cartridge memory. -/
def Cartridge.cmNum (c : Cartridge) (i n : Nat) : Nat := leNat (c.cmBytes i n).reverse

/-- The slot at offset `i` holds a valid state record (R98, R493). -/
def Cartridge.slotValid (c : Cartridge) (i : Nat) : Bool :=
  c.cmNum (i + 0x3C) 4 == 0x5A3CC3A5 && c.cmNum i 2 == 0x0C01 && c.cmNum (i + 0x38) 4 == crc32c (c.cmBytes i 0x38)

/-- The slot that holds the current state record (R98, R493). -/
def Cartridge.curSlot (c : Cartridge) : Option Nat :=
  match c.slotValid 0x40, c.slotValid 0x80 with
  | true, true => if c.cmNum 0x44 4 < c.cmNum 0x84 4 then some 0x80 else some 0x40
  | true, false => some 0x40
  | false, true => some 0x80
  | false, false => none

/-- The first 56 bytes of the state record that the device writes now (R98). -/
def State.cmRecord (s : State) (gen : Nat) : List Byte :=
  let st := if s.rcd.bake = 4 || s.rcd.cart = 3 then 2 else 1
  beBytes 2 0x0C01 ++ beBytes 2 48 ++ beBytes 4 gen ++ beBytes 1 st ++ beBytes 3 0 ++
  beBytes 4 ((s.rcd.lastCkpt.map (fun c => c.2.1)).getD 0xFFFFFFFF) ++
  beBytes 4 ((s.rcd.lastCkpt.map (fun c => c.1)).getD 0) ++ beBytes 8 (s.tbSeq - 1) ++
  beBytes 4 (s.rd .tray F.TBPOS_pointer) ++ beBytes 4 (s.rd .tray F.TBRELCNT_count) ++ beBytes 8 Config.moduleSerial ++
  beBytes 8 s.time.ns ++ beBytes 4 0

/-- A bake ends when its state record has been written or given up (R99, R101, R336). -/
def State.endBake (s : State) : State :=
  if s.rcd.bake = 4 then
    let s : State := { s with rcd := { s.rcd with bake := 0, cart := 3 } }
    let s := (s.asyncEvent 7 0x00 0xC0).passRecording
    s.rcd.ops.foldl (fun s o => match o.kind with
      | .bake => s.endOp o .success
      | _ => s) s
  else s

/-- CM_UPDATE (R98, R99, R494, R605): the state record is written to the slot that is not current, check word and crust word
last; an update that fails after the retry is abandoned with MEDIA_CMFAIL. -/
def execCmUpdate (fail : Option (Bool × Nat)) (s : State) : Out :=
  match s.medium with
  | none => .next s
  | some c =>
    if !s.rcd.cmDue then .next s
    else
      let s1 : State := { s with rcd := { s.rcd with cmDue := false } }
      match fail with
      | some f =>
        let t : State := { s1 with rcd := { s1.rcd with cmStatus := 1 } }
        live s (((t.report .media 8 (if f.1 then 4 else 3) f.2).raise .media 8).endBake)
      | none =>
        let cur := c.curSlot
        let gen := (cur.map (fun i => c.cmNum (i + 4) 4 + 1)).getD 1
        let dst := if cur = some 0x40 then 0x80 else 0x40
        let r := s.cmRecord gen
        let c1 := (c.cmStore (dst + 0x3C) (beBytes 4 0)).cmStore dst (r ++ beBytes 4 (crc32c r))
        let t : State := { s1 with
          medium := some (c1.cmStore (dst + 0x3C) (beBytes 4 0x5A3CC3A5))
          rcd := { s1.rcd with cmStatus := 0, cmNs := s.time.ns } }
        live s t.endBake

/-- Every accepted write has been recorded and has passed. -/
def State.drained (s : State) : Bool :=
  s.tb.dataQ.isEmpty && s.tb.mapQ.isEmpty && s.tb.jourQ.isEmpty && s.rcd.journal.isEmpty && s.tb.pending.isEmpty

end Sys2Proof.Machine
end

