-- ==== Sys2Proof/Machine/Slots.lean ====
section
/-! DEFINITION. Slots of the loop engine: what they hold, starting and stopping them (R246), the saturating arithmetic (R248), and
the applied outputs (R243). -/

namespace Sys2Proof.Machine

/-- What slot `n` holds. -/
def State.slot (s : State) (n : Nat) : SlotSt := Tbl.look SlotSt.none s.slots n

/-- Change what slot `n` holds. -/
def State.updSlot (s : State) (n : Nat) (f : SlotSt → SlotSt) : State :=
  { s with slots := Tbl.upd SlotSt.none s.slots n f }

/-- SLSTAT.state: 0 stopped, 1 waiting, 2 executing, 3 preempted, 4 fault (R266). -/
def State.slState (s : State) (n : Nat) : Nat := s.rd (.slot n) F.SLSTAT_state

/-- A slot starts (R246): x0 to x15, a0 to a3, the saturation flag and any fault are cleared, and the state words kept. -/
def State.slotStart (s : State) (n : Nat) : State :=
  let t := (s.setFlag (.slot n) F.SLCTRL_run true).wr (.slot n) F.SLSTAT_state 1
  let t := ((t.wr (.slot n) F.SLSTAT_cause 0).setFlag (.slot n) F.SLSTAT_sat false).wr (.slot n) F.USTAT_state 3
  t.updSlot n (fun p => { p with
    now := ⟨[], [], p.now.w⟩
    last := ⟨[], [], p.now.w⟩
    pc := 0
    cyc := 0
    due := false
    wait := []
    lane := none
    stopping := false })

/-- A slot stops (R246): at once if it is not executing, else at the end of its sample; a slot in fault stays in fault. -/
def State.slotStop (s : State) (n : Nat) : State :=
  let t := s.setFlag (.slot n) F.SLCTRL_run false
  match s.slState n with
  | 2 | 3 => t.updSlot n (fun p => { p with stopping := true })
  | 4 => t.updSlot n (fun p => { p with due := false, wait := [] })
  | _ => ((t.wr (.slot n) F.SLSTAT_state 0).wr (.slot n) F.USTAT_state 0).updSlot n (fun p => { p with due := false, wait := [] })

/-- The hardware starts a stock slot that is not already running (R246, R262). -/
def State.runSlot (s : State) (n : Nat) : State := if s.flag (.slot n) F.SLCTRL_run && s.slState n != 4 then s else s.slotStart n

/-- The hardware stops stock slots (R246, R262). -/
def State.stopSlots (s : State) (ns : List Nat) : State := ns.foldl State.slotStop s

/-! ### Arithmetic (R248) -/

/-- sat24: the value saturated to 24 bits, and whether it was. -/
def sat24 (v : Int) : Int × Bool := if 8388607 < v then (8388607, true) else if v < -8388608 then (-8388608, true) else (v, false)

/-- sat48: the same with 2^47. -/
def sat48 (v : Int) : Int × Bool :=
  if 140737488355327 < v then (140737488355327, true)
  else if v < -140737488355328 then (-140737488355328, true) else (v, false)

/-- rnd(v, k) (R248). -/
def rnd (v : Int) (k : Nat) : Int := if k = 0 then v else (v + (2 ^ (k - 1) : Nat)) / (2 ^ k : Nat)

/-- Data register x`i` of slot `n`, signed. -/
def State.mx (s : State) (n i : Nat) : Int := signed 24 (Tbl.look 0 (s.slot n).now.x i)

/-- Accumulator a`i`, signed. -/
def State.ma (s : State) (n i : Nat) : Int := signed 48 (Tbl.look 0 (s.slot n).now.a i)

/-- State word s`i`, signed. -/
def State.mw (s : State) (n i : Nat) : Int := signed 24 (Tbl.look 0 (s.slot n).now.w i)

/-- Set x`i`. -/
def State.setMx (s : State) (n i : Nat) (v : Int) : State :=
  s.updSlot n (fun p => { p with now := { p.now with x := Tbl.put 0 p.now.x i (unsigned 24 v) } })

/-- Set a`i`. -/
def State.setMa (s : State) (n i : Nat) (v : Int) : State :=
  s.updSlot n (fun p => { p with now := { p.now with a := Tbl.put 0 p.now.a i (unsigned 48 v) } })

/-- Set s`i`. -/
def State.setMw (s : State) (n i : Nat) (v : Int) : State :=
  s.updSlot n (fun p => { p with now := { p.now with w := Tbl.put 0 p.now.w i (unsigned 24 v) } })

/-- A saturation sets SLSTAT.sat; its first setting after a clear raises SLOT_SAT (R248). -/
def State.noteSat (s : State) (n : Nat) (b : Bool) : State :=
  if b && !s.flag (.slot n) F.SLSTAT_sat then (s.setFlag (.slot n) F.SLSTAT_sat true).raise (.slot n) 2 else s

end Sys2Proof.Machine
end

