-- ==== Sys2Proof/Machine/Heads.lean ====
section
/-! DEFINITION. The heads: readiness (R192), the sequencer's sequences (R193 to R199), write-gate removal by a head (R119,
R185, R191), the loops' fault actions (R199), and the spindle's angle source (R210). -/

namespace Sys2Proof.Machine

/-! ### State of a head -/

/-- What head `h` holds. -/
def State.hd (s : State) (h : Nat) : HeadSt := Tbl.look HeadSt.none s.heads h

/-- Change what head `h` holds. -/
def State.updHd (s : State) (h : Nat) (f : HeadSt → HeadSt) : State :=
  { s with heads := Tbl.upd HeadSt.none s.heads h f }

/-- HSEQSTAT.state of head `h`. -/
def State.hState (s : State) (h : Nat) : Nat := s.rd (.head h) F.HSEQSTAT_state

/-- The states of HSEQSTAT.state (R201). -/
def hRetracted : Nat := 0
def hAcquiring : Nat := 1
def hLocked : Nat := 2
def hSeeking : Nat := 3
def hJumping : Nat := 4
def hHolding : Nat := 5
def hLeadin : Nat := 6
def hRetracting : Nat := 7
def hFault : Nat := 8

/-- Set HSEQSTAT.state. -/
def State.setHState (s : State) (h st : Nat) : State := s.wr (.head h) F.HSEQSTAT_state st

/-- Some channel of head `h` is frozen (R179). -/
def State.anyFrozen (s : State) (h : Nat) : Bool :=
  (List.range 6).any (fun c => s.flag (.head h) (F.HADCSTAT_frozen c))

/-- The head is ready to write (R192, R198): the tilt limit holds it only through its lock. -/
def State.readyNow (s : State) (h : Nat) : Bool :=
  let d := s.hd h
  d.focus && d.tilt && d.layer && s.flag (.head h) F.HCLKSTAT_locked && decide (64 ≤ d.good) && !d.refTrip && !d.layTrip &&
  !s.anyFrozen h && (s.hState h == hLocked || s.hState h == hHolding) && (d.jump == 0 || d.jump == 3)

/-- TBHEADS.ready and its copy follow (R192, R201). -/
def State.refresh (s : State) (h : Nat) : State :=
  let r := s.readyNow h
  let m := s.rd .tray F.TBHEADS_ready
  let t := s.setFlag (.head h) F.HSEQSTAT_ready r
  if r then t.wr .tray F.TBHEADS_ready (m ||| 2 ^ h)
  else if bitOf m h then t.wr .tray F.TBHEADS_ready (m - 2 ^ h) else t

/-- Set a bit of HSVFLT (R201). -/
def State.setFlt (s : State) (h b : Nat) : State :=
  s.wr (.head h) F.HSVFLT_flags (s.rd (.head h) F.HSVFLT_flags ||| 2 ^ b)

/-! ### The angle source -/

/-- The heads whose synthesiser is locked, lowest first. -/
def State.lockedHeads (s : State) : List Nat := (List.range 4).filter (fun h => s.flag (.head h) F.HCLKSTAT_locked)

/-- The angle source moves when its head's synthesiser is lost, and back to a head once any locks (R210). -/
def State.checkSource (s : State) : State :=
  if !s.spin.handed then s
  else if s.flag .spindle F.SPSTAT_clock then
    if s.flag (.head (s.rd .spindle F.SPSTAT_head)) F.HCLKSTAT_locked then s
    else match s.lockedHeads with
      | h :: _ => (s.wr .spindle F.SPSTAT_head h).raise .spindle 3
      | [] => ((s.setFlag .spindle F.SPSTAT_clock false).wr .spindle F.SPSTAT_head 0).raise .spindle 3
  else match s.lockedHeads with
    | h :: _ => ((s.setFlag .spindle F.SPSTAT_clock true).wr .spindle F.SPSTAT_head h).raise .spindle 3
    | [] => s

/-- A head's synthesiser locks (R144, R174). -/
def State.lockSynth (s : State) (h : Nat) : State :=
  if s.flag (.head h) F.HCLKSTAT_locked then s
  else (((s.setFlag (.head h) F.HCLKSTAT_locked true).raise (.head h) 13).checkSource).refresh h

/-- The condition of cause 2 fails (R185): every write gate of the head is removed and HEAD_OFFTRACK raised. -/
def State.offTrack (s : State) (h : Nat) : State :=
  ((s.dropHeadGates h 2).raise (.head h) 4).count (159 + 4 * h)

/-- A head's synthesiser is lost (R144, R174, R185, R210). -/
def State.loseSynth (s : State) (h : Nat) : State :=
  if !s.flag (.head h) F.HCLKSTAT_locked then s
  else
    let t := (s.setFlag (.head h) F.HCLKSTAT_locked false).setFlag (.head h) F.HCLKSTAT_lost true
    let t := (t.raise (.head h) 12).offTrack h
    ((t.updHd h (fun d => { d with good := 0 })).checkSource).refresh h

/-! ### Sequences -/

/-- A sequence runs from `step` with target group and layer: HSEQSTAT reads busy. -/
def State.beginSeq (s : State) (h seq step endState group layer : Nat) (pair : Bool) : State :=
  let t := (s.setFlag (.head h) F.HSEQSTAT_busy true).wr (.head h) F.HSEQSTAT_result 1
  (t.updHd h (fun d => { d with
    seq := seq
    step := step
    endState := endState
    pair := pair
    body := false
    tGroup := group
    tLayer := layer })).refresh h

/-- The freeze trips and overrun counts of a head clear (R179, R194). -/
def State.clearAdc (s : State) (h : Nat) : State :=
  (List.range 6).foldl (fun t c =>
    ((t.setFlag (.head h) (F.HADCSTAT_frozen c) false).wr (.head h) (F.HADCSTAT_run c) 0).wr (.head h)
      (F.HADCSTAT_overruns c) 0) s

/-- The servo emitter goes on or off (R189, R595); with it the head's emitter outputs go off. -/
def State.setEmitter (s : State) (h : Nat) (on : Bool) : State :=
  let t := s.setFlag (.head h) F.HSVPWR_on on
  if on then t else t.updHd h (fun d => { d with emitters := false })

/-- The stock slots of a head that its sequencer runs (R246, R262): focus, tracking, tilt, layer focus, servo emitter and
sled-follow. -/
def headSlots (h : Nat) : List Nat := [h, 4 + h, 8 + h, 12 + h, 64 + h, 69 + h]

/-- The acquire sequence starts at step 1 (R179, R189, R194). -/
def State.beginAcquire (s : State) (h seq group layer : Nat) (pair : Bool) : State :=
  let t := ((((s.clearAdc h).setEmitter h true).setHState h hAcquiring).stopSlots (headSlots h)).slotStart (64 + h)
  (t.updHd h (fun d => { d with
    focus := false
    tilt := false
    layer := false
    track := false
    atClock := false
    refTrip := false
    layTrip := false
    good := 0
    wait := false
    jump := 0
    leadin := false })).beginSeq h seq 1 hLocked group layer pair

/-- A sequence ends with result 0 in state `st`. -/
def State.seqDone (s : State) (h st : Nat) : State :=
  let t := ((s.setFlag (.head h) F.HSEQSTAT_busy false).wr (.head h) F.HSEQSTAT_result 0).setHState h st
  let t := t.updHd h (fun d => { d with seq := 0, step := 0, pair := false, body := false })
  (t.raise (.head h) 9).refresh h

/-- The service level changes (R518). -/
def State.setLevel (s : State) (n : Nat) : State :=
  if s.rd .power F.PWSTART_level = n then s else (s.wr .power F.PWSTART_level n).raise .power 1

/-- A head that does not acquire lowers the level reported (R520): to 3 while another head has acquired, else to 2. -/
def State.lowerLevel (s : State) : State :=
  let now := s.rd .power F.PWSTART_level
  let n := if (List.range 4).any (fun h => (s.hd h).acquired && s.hState h != hFault) then 3 else 2
  if n < now then (s.raise .power 3).setLevel n else s

/-- A sequence ends with a failure in state fault (R193); a head that fails to acquire lowers the level (R520). -/
def State.seqFault (s : State) (h result : Nat) : State :=
  let acquire : Bool := (s.hd h).seq == 1 || (s.hd h).seq == 12
  let t := ((s.setFlag (.head h) F.HSEQSTAT_busy false).wr (.head h) F.HSEQSTAT_result result).setHState h hFault
  let t := t.updHd h (fun d => { d with seq := 0, step := 0, pair := false, body := false, wait := false, track := false })
  let t := ((t.wr (.head h) F.USTAT_state 5).raise (.head h) 10).refresh h
  if acquire then t.lowerLevel else t

/-- The partner of a head (R193). -/
def partner (h : Nat) : Nat := if h % 2 = 0 then h + 1 else h - 1

/-- The end of a sequence's last step: with pair the two heads are done only together (R193). -/
def State.endSeq (s : State) (h st : Nat) : State :=
  let p := partner h
  if (s.hd h).pair && (s.hd p).pair && (s.hd p).seq != 0 && !(s.hd p).body then
    (s.setHState h st).updHd h (fun d => { d with body := true, endState := st })
  else
    let t := s.seqDone h st
    if (s.hd p).body && (s.hd p).seq != 0 then t.seqDone p (s.hd p).endState else t

/-- A running sequence fails: a partner that waits for it is done alone; the acquire after a focus loss is tried again while
retries are left (R193, R199). -/
def State.failSeq (s : State) (h result : Nat) : State :=
  let d := s.hd h
  if d.seq = 12 && d.retries < s.rd (.head h) F.HSVCFG_retries then
    ((s.setHState h hRetracted).updHd h (fun d => { d with wait := true, step := 0 })).refresh h
  else
    let p := partner h
    let t := s.seqFault h result
    if (s.hd p).body && (s.hd p).seq != 0 then t.seqDone p (s.hd p).endState else t

/-- A command is refused with `result`: nothing else changes (R193). -/
def State.refuseSeq (s : State) (h result : Nat) : State := (s.wr (.head h) F.HSEQSTAT_result result).raise (.head h) 10

/-- A tray that names head `h` is sealed or being written (R193). -/
def State.trayNames (s : State) (h : Nat) : Bool :=
  (s.tb.sealed ++ s.tb.stash).any (fun t => t.heads.contains h) ||
  (match s.tb.writing with
    | some w => w.tray.heads.contains h
    | none => false)

/-- The speed bit of the power state (R31): 4,500 rpm in PS1. -/
def State.psSpeed (s : State) : Nat := if s.rcd.ps = 1 then 1 else 0

/-- The spindle runs at the speed of the power state with its hand-over complete (R194). -/
def State.clockReady (s : State) : Bool :=
  s.rd .spindle F.SPSTAT_state == 6 && s.spin.handed && s.rd .spindle F.SPSTAT_speed == s.psSpeed

/-- Why head `h` refuses a command (R193, R194); 0 if it accepts. -/
def State.seqRefusal (s : State) (h cmd group : Nat) : Nat :=
  if cmd = 0 || 7 < cmd || 11775 < group then 6
  else if cmd = 7 then 0
  else if s.flag (.head h) F.HSEQSTAT_busy then 1
  else if cmd = 1 then (if s.clockReady then 0 else 4)
  else if s.hState h = hRetracted || s.hState h = hAcquiring || s.hState h = hRetracting || s.hState h = hFault then 6
  else if (cmd = 2 || cmd = 3 || cmd = 4) && s.trayNames h then 1
  else 0

/-- The head is released (R193, R199): a running sequence is aborted, the loops open, the objective retracts and the emitter
goes off; the freeze trips clear (R179). -/
def State.release (s : State) (h : Nat) (pair : Bool) : State :=
  let t := if s.flag (.head h) F.HSEQSTAT_busy then (s.wr (.head h) F.HSEQSTAT_result 7).raise (.head h) 10 else s
  let t := (t.dropHeadGates h 1).updHd h (fun d => { d with
    focus := false
    tilt := false
    layer := false
    track := false
    atClock := false
    refTrip := false
    layTrip := false
    good := 0
    wait := false
    jump := 0
    leadin := false })
  let t := ((t.clearAdc h).loseSynth h).stopSlots (headSlots h)
  (t.setHState h hRetracting).beginSeq h 7 14 hRetracted (t.rd (.head h) F.HSEQSTAT_group)
    (t.rd (.head h) F.HSEQSTAT_layer) pair

/-- Start an accepted command (R193 to R197). An acquire after a clock take continues at step 5 (R209). -/
def State.startSeq (s : State) (h cmd layer group : Nat) (pair : Bool) : State :=
  let g := s.rd (.head h) F.HSEQSTAT_group
  let l := s.rd (.head h) F.HSEQSTAT_layer
  if cmd = 7 then s.release h pair
  else if cmd = 1 then
    if (s.hd h).atClock then
      ((s.updHd h (fun d => { d with atClock := false })).setHState h hAcquiring).beginSeq h 1 5 hLocked group layer pair
    else s.beginAcquire h 1 group layer pair
  else if cmd = 2 then (s.setHState h hSeeking).beginSeq h 2 6 hLocked group l pair
  else if cmd = 3 then
    (((s.setHState h hJumping).updHd h (fun d => { d with layer := false, layTrip := false })).beginSeq h 3 7 hLocked g layer pair)
  else if cmd = 4 then
    ((s.setHState h hSeeking).updHd h (fun d => { d with layer := l == layer && d.layer })).beginSeq h 4 6 hLocked group layer pair
  else if cmd = 5 then s.beginSeq h 5 11 hHolding g l pair
  else (s.setHState h hSeeking).beginSeq h 6 12 hLeadin g l pair

/-- A command taken at once (R193): with pair, if either head would refuse, both refuse. -/
def State.seqNow (s : State) (h cmd layer group : Nat) (pair : Bool) : State :=
  let p := partner h
  let a := s.seqRefusal h cmd group
  let b := if pair then s.seqRefusal p cmd group else 0
  if a ≠ 0 || b ≠ 0 then
    let t := s.refuseSeq h (if a = 0 then b else a)
    if pair then t.refuseSeq p (if b = 0 then a else b) else t
  else
    let t := s.startSeq h cmd layer group pair
    if pair then t.startSeq p cmd layer group pair else t

/-- HSEQCMD (R193, R481): a command that arrives while a granted step holds the head, or its partner with pair, waits for the
window's end. -/
def State.seqCommand (s : State) (h cmd layer group : Nat) (pair : Bool) : State :=
  if Tbl.look 0 s.bg.running h ≠ 0 || (pair && Tbl.look 0 s.bg.running (partner h) ≠ 0) then
    { s with bg := { s.bg with held := s.bg.held ++ [(h, cmd, layer, group, pair)] } }
  else s.seqNow h cmd layer group pair

/-- The automatic jump's partner condition (R198): a head ready waits for its partner unless that one failed the jump. -/
def State.jumpDone (s : State) (h : Nat) : State :=
  let p := partner h
  let j := (s.hd p).jump
  if j = 1 then s.updHd h (fun d => { d with jump := 2 })
  else
    let t := (s.updHd h (fun d => { d with jump := 0 })).seqDone h hHolding
    if j = 2 then (t.updHd p (fun d => { d with jump := 0 })).seqDone p hHolding else t

/-- At the first acquire after start, nine or more changed laser thresholds mean that the head was replaced (R491). -/
def State.seekDone (s : State) (h : Nat) : State :=
  let d := s.hd h
  let moved := s.rd (.head h) F.HSEQSTAT_group != d.tGroup || d.leadin
  let t := s.wr (.head h) F.HSEQSTAT_group d.tGroup
  let t := t.updHd h (fun d => { d with track := true, good := 64, inv := 0, leadin := false })
  if moved then t.count 157 else t

/-- The running step of head `h` completes and the next begins, or the sequence ends (R194 to R197). A clock take's fourth
step ends with CLOCK_TAKE_DONE (R209). -/
def State.stepDone (s : State) (h : Nat) : State :=
  let d := s.hd h
  let next (t : State) (n : Nat) : State := (t.updHd h (fun d => { d with step := n })).refresh h
  match d.step with
  | 1 => next s 2
  | 2 => next ((s.updHd h (fun d => { d with focus := true })).runSlot h) 3
  | 3 => next ((s.updHd h (fun d => { d with tilt := true })).runSlot (8 + h)) 4
  | 4 => if d.seq = 8 then s else next (s.lockSynth h) 5
  | 5 => next (((s.updHd h (fun d => { d with track := true, inv := 0, mism := 0 })).slotStart (4 + h)).slotStart (69 + h)) 6
  | 6 =>
    let t := s.seekDone h
    if d.seq = 2 || d.seq = 9 || (d.seq = 4 && d.layer) then t.endSeq h d.endState else next t 7
  | 7 =>
    let t := s.wr (.head h) F.HSEQSTAT_layer d.tLayer
    let t := if (d.seq = 3 || d.seq = 4) && s.rd (.head h) F.HSEQSTAT_layer ≠ d.tLayer then t.count 156 else t
    next ((t.updHd h (fun d => { d with layer := true })).slotStart (12 + h)) 8
  | 8 =>
    if d.seq = 11 then s.jumpDone h
    else
      let t := if d.seq = 1 || d.seq = 12 then
          (s.updHd h (fun d => { d with retries := 0 })).wr (.head h) F.USTAT_state 3
        else s
      t.endSeq h d.endState
  | 11 => s.endSeq h hHolding
  | 12 => next ((s.setHState h hLeadin).updHd h (fun d => { d with leadin := true })) 13
  | 13 => s.endSeq h hLeadin
  | 14 => ((s.setEmitter h false).wr (.head h) F.USTAT_state 0).endSeq h hRetracted
  | _ => s

/-- The result of a step that exceeds its bound (R194 to R196). -/
def stepFailure (step : Nat) : Nat :=
  match step with
  | 1 => 8
  | 2 | 3 | 7 => 3
  | 4 => 4
  | 5 => 5
  | _ => 2

/-! ### Fault actions (R199) -/

/-- Reference focus loss: the objective retracts, and the sequencer acquires again after 50 ms; during a sequence the step in
progress counts as the first retry. -/
def State.focusLost (s : State) (h : Nat) : State :=
  let d := s.hd h
  if !d.focus then s
  else
    let t := ((s.dropHeadGates h 1).raise (.head h) 1).setFlt h 4 |>.count (160 + 4 * h)
    let t := (t.setHState h hRetracted).updHd h (fun d => { d with
      focus := false
      tilt := false
      layer := false
      track := false
      refTrip := false
      layTrip := false
      good := 0
      atClock := false
      jump := 0
      leadin := false
      retries := if d.seq = 0 then 0 else if d.seq = 12 then d.retries else 1 })
    let t := (t.stopSlots [4 + h, 8 + h, 12 + h, 69 + h]).beginSeq h 12 0 hLocked (t.rd (.head h) F.HSEQSTAT_group) (t.rd (.head h) F.HSEQSTAT_layer) false
    t.updHd h (fun d => { d with wait := true })

/-- The state to which a head returns after re-tracking or re-closing layer focus. -/
def State.restState (s : State) (h : Nat) : Nat := if s.hState h = hHolding then hHolding else hLocked

/-- Reference tracking or sled-follow loss: the sequencer repeats steps 5 and 6 toward the held group. -/
def State.trackLost (s : State) (h : Nat) : State :=
  let t := ((s.dropHeadGates h 2).raise (.head h) 3).setFlt h 5
  if !(s.hd h).focus then t
  else
    (t.updHd h (fun d => { d with track := false, good := 0 })).beginSeq h 9 5 (s.restState h)
      (s.rd (.head h) F.HSEQSTAT_group) (s.rd (.head h) F.HSEQSTAT_layer) false

/-- Layer focus loss: the sequencer repeats steps 7 and 8. -/
def State.layerLost (s : State) (h : Nat) : State :=
  let t := ((s.dropHeadGates h 1).raise (.head h) 8).setFlt h 6
  if !(s.hd h).focus then t
  else
    (t.updHd h (fun d => { d with layer := false, layTrip := false })).beginSeq h 10 7 (s.restState h)
      (s.rd (.head h) F.HSEQSTAT_group) (s.rd (.head h) F.HSEQSTAT_layer) false

/-- Tilt held at its range end: a limit hold keeps the head ready only if tilt relocks within 64 samples. -/
def State.tiltLimit (s : State) (h : Nat) : State :=
  ((((s.raise (.head h) 11).setFlt h 7).updHd h (fun d => { d with tilt := false })).refresh h)

/-- Servo emitter power fault: the loop opens and the emitter goes off; focus is lost next. -/
def State.svLaser (s : State) (h : Nat) : State :=
  ((((s.raise (.head h) 14).setFlt h 8).setEmitter h false).focusLost h)

end Sys2Proof.Machine
end

