-- ==== Sys2Proof/Machine/Time.lean ====
section
/-! DEFINITION. The time unit (R463 to R470), the camera triggers (R330) and the timecode generator (R334, R335, R474). -/

namespace Sys2Proof.Machine

/-- The states of TMSTAT.state (R475). -/
def tmFree : Nat := 0
def tmAcquiring : Nat := 1
def tmTracking : Nat := 2
def tmLocked : Nat := 3
def tmHoldover : Nat := 4

/-- The limit of r and i: 100,000 ppb in 1/256 ppb (R464). -/
def rateLimit : Int := 25600000

/-- `num / den` rounded to the nearest integer, an exact half upward (R464); `den` is positive. -/
def roundDiv (num den : Int) : Int := (2 * num + den) / (2 * den)

/-- Move TIMENS by `d` ns (a step or a load): the expected edge moves with it, TIME_STEP is raised (R467, R470, R476). -/
def State.stepTime (s : State) (d : Int) : State :=
  ({ s with time := { s.time with
      ns := unsigned 64 (s.time.ns + d)
      expect := s.time.expect.map (· + d) } } : State).raise .time 5

/-- Set r and i in 1/256 ppb, each within its limit (R464). -/
def State.setRate (s : State) (r i : Int) : State :=
  ({ s with time := { s.time with integ := clampInt (-rateLimit) rateLimit i } } : State).wr .time F.TMRATE_rate
    (unsigned 32 (clampInt (-rateLimit) rateLimit r))

/-- The rate correction r in 1/256 ppb. -/
def State.rate (s : State) : Int := signed 32 (s.rd .time F.TMRATE_rate)

/-- Enter a state of R467: the runs of updates start anew; entering locked clears the extra pulses. -/
def State.tmEnter (s : State) (st : Nat) : State :=
  let old := s.rd .time F.TMSTAT_state
  if old = st then s
  else
    let t : State := { s with time := { s.time with okRun := 0, badRun := 0 } }
    let t := t.wr .time F.TMSTAT_state st
    let t := if old = tmLocked then t.raise .time 2 else t
    let t := if st = tmAcquiring || st = tmFree then { t with time := { t.time with cand := none, expect := none } } else t
    if st = tmLocked then (t.wr .time F.TMSTAT_extras 0).raise .time 1 else t

/-- The error of a capture within a period of `p` ns (R466, R471). -/
def captureError (p c : Int) : Int := (c + p / 2) % p - p / 2

/-- The step rule of R467: with |e| beyond stepthr and steps allowed, TIMENS steps back by e. -/
def State.mustStep (s : State) (e : Int) : Bool :=
  s.rd .time F.TMCFG_stepthr != 0 && s.flag .time F.TMCFG_allowstep && decide ((s.rd .time F.TMCFG_stepthr * 1000 : Nat) < e.natAbs)

/-- The update of R464 with error e and interval `tauNum / tauDen` s. -/
def State.slew (s : State) (e : Int) (tauNum tauDen : Nat) : State :=
  let step (x : Int) (k : Nat) : Int := roundDiv (x * (tauNum * 2 ^ k : Nat) - 256 * e * (tauDen : Nat)) (tauNum * 2 ^ k : Nat)
  let i := clampInt (-rateLimit) rateLimit (step s.time.integ (s.rd .time F.TMCFG_ki))
  let r := clampInt (-rateLimit) rateLimit (step i (s.rd .time F.TMCFG_kp))
  let t := s.setRate r i
  if r = rateLimit || r = -rateLimit then t.raise .time 6 else t

/-- The edge's error is counted toward lock or loss of lock (R467). -/
def State.judgeLock (s : State) (e : Int) : State :=
  let within := decide (e.natAbs ≤ s.rd .time F.TMCFG_lockthr)
  let okRun := if within then s.time.okRun + 1 else 0
  let badRun := if within then 0 else s.time.badRun + 1
  let t : State := { s with time := { s.time with okRun := okRun, badRun := badRun } }
  let st := s.rd .time F.TMSTAT_state
  if st = tmTracking && 4 ≤ okRun then t.tmEnter tmLocked
  else if st = tmLocked && 4 ≤ badRun then t.tmEnter tmTracking
  else t

/-- An edge or sync taken as an update (R464, R467): counter 195 for a pulse, the capture, the step rule or the slew, the
next expectation one period on, and the judgement of lock. -/
def State.tmUpdate (s : State) (c e period : Int) (tauNum tauDen : Nat) (pulse : Bool) : State :=
  let t := if pulse then
      ((s.count 195).wr .time F.TMPPSLO_cap_lo (unsigned 64 c)).wr .time F.TMPPSHI_cap_hi (unsigned 64 c / 2 ^ 32)
    else s
  let t := t.wr .time F.TMERR_error (unsigned 32 (clampInt (-2147483648) 2147483647 e))
  let t : State := { t with time := { t.time with expect := some (c + period) } }
  let t := if t.mustStep e then t.stepTime (-e) else t.slew e tauNum tauDen
  t.judgeLock e

/-- A refused load (R470): a crumb of cause 3, TIME_STEP raised and TMSTAT.refused set. -/
def State.refuseLoad (s : State) (req cmd : Nat) : State :=
  ((s.refuse req .time 3 (UnitId.time.base + 0x50) cmd).setFlag .time F.TMSTAT_refused true).raise .time 5

/-- The value of TMSETHI and TMSETLO. -/
def State.tmSet (s : State) : Nat := s.rd .time F.TMSETHI_set_hi * 2 ^ 32 + s.rd .time F.TMSETLO_set_lo

/-- An armed load meets its edge (R470): a load that steps forbid is disarmed and refused. -/
def State.checkArmed (s : State) : State :=
  if s.flag .time F.TMSTAT_armed && !s.flag .time F.TMCFG_allowstep then
    (s.setFlag .time F.TMSTAT_armed false).refuseLoad s.time.loadReq 2
  else s

/-- The load at the edge captured at `c`: the pulse is at TMSET, in place of that edge's update (R470). -/
def State.loadAtEdge (s : State) (c : Int) : State :=
  ((s.setFlag .time F.TMSTAT_armed false).stepTime ((s.tmSet : Int) - c))

/-- An edge in acquiring, captured at `c` (R467). -/
def State.acquireEdge (s : State) (c : Int) : State :=
  let s := s.checkArmed
  if s.flag .time F.TMSTAT_armed then
    let t := s.loadAtEdge c
    { t with time := { t.time with cand := some (s.tmSet : Int) } }
  else
    match s.time.cand with
    | none => { s with time := { s.time with cand := some c } }
    | some a =>
      if (c - a - 1000000000).natAbs ≤ 100000 then
        let r := roundDiv ((1000000000 - (c - a)) * 1000000000 * 256) (c - a)
        let e := captureError 1000000000 c
        let t := (s.setRate r r).tmEnter tmTracking
        let t : State := { t with time := { t.time with expect := some (c + 1000000000) } }
        if t.mustStep e then t.stepTime (-e) else t
      else { s with time := { s.time with cand := some c } }

/-- An edge in tracking, locked or holdover, captured at `c` (R467, R468). -/
def State.trackEdge (s : State) (c : Int) : State :=
  let win : Int := (s.rd .time F.TMPPSCFG_win * 100 : Nat)
  let expect := s.time.expect.getD c
  if (c - expect).natAbs ≤ win.natAbs then
    let tau := s.time.missRun + 1
    let t : State := { s with time := { s.time with missRun := 0 } }
    let t := t.wr .time F.TMSTAT_misses 0
    let t := if t.rd .time F.TMSTAT_state = tmHoldover then t.tmEnter tmTracking else t
    let t := t.checkArmed
    if t.flag .time F.TMSTAT_armed then
      let u := t.loadAtEdge c
      { u with time := { u.time with expect := some ((t.tmSet : Int) + 1000000000) } }
    else t.tmUpdate c (captureError 1000000000 c) 1000000000 tau 1 true
  else (s.incSat .time F.TMSTAT_extras).raise .time 4

/-- PPS_EDGE (R465 to R468): an edge of the selected polarity whose new level has held for 50 ns. -/
def execPpsEdge (rising : Bool) (held : Nat) (s : State) : Out :=
  let polarity := rising != s.flag .time F.TMCFG_edge
  if s.rd .time F.TMCFG_src = 0 && polarity && 50 ≤ held then
    let c : Int := (s.time.ns : Int) - held - signed 16 (s.rd .time F.TMPPSCFG_ofs)
    let st := s.rd .time F.TMSTAT_state
    if st = tmFree || st = tmAcquiring then
      let t := (s.tmEnter tmAcquiring).wr .time F.TMSTAT_misses 0
      live s (({ t with time := { t.time with missRun := 0 } } : State).acquireEdge c)
    else live s (s.trackEdge c)
  else .next s

/-- A pulse or sync is missing in its period of `p` ns (R467, R468, R471). -/
def State.missEdge (s : State) (p : Int) : State :=
  let t := (s.incSat .time F.TMSTAT_misses).raise .time 3
  let t : State := { t with time := { t.time with missRun := t.time.missRun + 1, expect := t.time.expect.map (· + p) } }
  let st := t.rd .time F.TMSTAT_state
  if st = tmLocked then t.tmEnter tmHoldover
  else if st = tmHoldover && 64 ≤ t.time.missRun then t.tmEnter tmAcquiring
  else t

/-- PPS_MISSING (R468): no edge, or with source ring no sync (R471), within the window of its expectation. -/
def execPpsMissing (s : State) : Out :=
  let st := s.rd .time F.TMSTAT_state
  live s (if st = tmTracking || st = tmLocked || st = tmHoldover then
      s.missEdge (if s.rd .time F.TMCFG_src = 1 then 10000000 else 1000000000)
    else s)

/-- TMCTRL command 1 (R470). -/
def State.tmLoadNow (t : State) (r : Requester) : State :=
    if t.flag .time F.TMCFG_allowstep then
      let u := t.stepTime ((t.tmSet : Int) - t.time.ns)
      { u with time := { u.time with frac := 0 } }
    else t.refuseLoad r.num 1

/-- TIME_LOAD_NOW (R470): TMCTRL command 1. -/
def execTimeLoadNow (r : Requester) (s : State) : Out :=
  live s (s.guardReg r .time 0x50 1 (fun t => t.tmLoadNow r))

/-- TMCTRL command 2 (R470). -/
def State.tmLoadEdge (t : State) (r : Requester) : State :=
    if t.flag .time F.TMCFG_allowstep then
      ({ t with time := { t.time with loadReq := r.num } } : State).setFlag .time F.TMSTAT_armed true
    else t.refuseLoad r.num 2

/-- TIME_LOAD_AT_EDGE (R470): TMCTRL command 2. -/
def execTimeLoadAtEdge (r : Requester) (s : State) : Out :=
  live s (s.guardReg r .time 0x50 2 (fun t => t.tmLoadEdge r))

/-- TIME_LOAD_CANCEL (R470): TMCTRL command 3. -/
def execTimeLoadCancel (r : Requester) (s : State) : Out :=
  live s (s.guardReg r .time 0x50 3 (fun t => t.setFlag .time F.TMSTAT_armed false))

/-- TMRATE_WRITE (R464): both r and i take the value written, within ±100 ppm. -/
def execTmrateWrite (r : Requester) (v : Word) (s : State) : Out :=
  live s (s.guardReg r .time 0x6C v.toNat (fun t => t.setRate (signed 32 v.toNat) (signed 32 v.toNat)))

/-! ### Camera triggers -/

/-- The edge is of the polarity TRGCFGn.edge selects (R331): 0 and 3 rising, 1 falling, 2 both. -/
def edgeSelected (cfg : Nat) (rising : Bool) : Bool := if cfg = 2 then true else if cfg = 1 then !rising else rising

/-- TRIGGER_EDGE (R330, R379): the input has held its new level for `held` ns. -/
def execTriggerEdge (n : Fin 4) (rising : Bool) (held : Nat) (s : State) : Out :=
  let hold := max 1 (s.rd .time (F.TRGCFG_filter n)) * 10
  if held < hold then .next s
  else
    let t := s.setFlag .time (F.TRGSTAT_level n) rising
    if s.flag .time (F.TRGCFG_enable n) && edgeSelected (s.rd .time (F.TRGCFG_edge n)) rising then
      let t := t.count 255
      live s (if t.flag .time (F.TRGSTAT_pending n) then ((t.incWrap .time (F.TRGSTAT_dropped n)).raise .time 12).vendorEvent 1
        else
          let c := s.time.ns - held
          (((t.wr .time (F.TRGTLO_time_lo n) c).wr .time (F.TRGTHI_time_hi n) (c / 2 ^ 32)).setFlag .time
            (F.TRGSTAT_pending n) true).raise .time (8 + n.val))
    else live s t

/-- A write of TRGACK (R330). -/
def State.trgAck (t : State) (v : Nat) : State :=
    (List.range 4).foldl (fun t n => if bitOf v n then t.setFlag .time (F.TRGSTAT_pending n) false else t) t

/-- TRGACK_WRITE (R330): a write of 1 to bit n clears pending of input n. -/
def execTrgackWrite (r : Requester) (v : Word) (s : State) : Out :=
  live s (s.guardReg r .time 0xC0 v.toNat (fun t => t.trgAck v.toNat))

/-! ### Timecode (R334, R335) -/

/-- The value of a two-digit BCD byte. -/
def bcdVal (b : Nat) : Nat := b / 16 * 10 + b % 16

/-- The two-digit BCD form of a number below 100. -/
def toBcd (n : Nat) : Nat := n / 10 * 16 + n % 10

/-- R of R334: num ÷ den rounded to the nearest integer, an exact half upward. -/
def tcR (num den : Nat) : Nat := (2 * num + den) / (2 * den)

/-- The frame numbers skipped at the start of a minute not divisible by ten (R334): none without drop-frame. -/
def tcDrop (base R : Nat) : Nat := if bitOf base 7 then (if R = 60 then 4 else 2) else 0

/-- The frames since 00:00:00:00 of a timecode at R frames per second with `d` frame numbers dropped per minute. -/
def tcCount (base R d : Nat) : Nat :=
  let h := bcdVal (bits base 24 6)
  let m := bcdVal (bits base 16 7)
  let sec := bcdVal (bits base 8 7)
  let f := bcdVal (bits base 0 7)
  ((h * 60 + m) * 60 + sec) * R + f - d * (h * 60 + m - (h * 60 + m) / 10)

/-- The timecode of frame count `n`, with the flags of `base` (R79). -/
def tcField (base R d n : Nat) : Nat :=
  let ten := 600 * R - 9 * d
  let n := n % (144 * ten)
  let q := if n % ten < 60 * R then 0 else 1 + (n % ten - 60 * R) / (60 * R - d)
  let t := n + d * (9 * (n / ten) + q)
  let sec := t / R
  bits base 31 1 * 2 ^ 31 + bits base 7 1 * 128 +
    toBcd (sec / 3600) * 2 ^ 24 + toBcd (sec / 60 % 60) * 2 ^ 16 + toBcd (sec % 60) * 2 ^ 8 + toBcd (t % R)

/-- R334 allows this rate and drop-frame flag. -/
def tcRateOk (base R : Nat) : Bool := 1 ≤ R && R ≤ 60 && (!bitOf base 7 || R == 30 || R == 60)

/-- TCRATE.den; 0 acts as 1 (R335). -/
def State.tcDen (s : State) : Nat := max 1 (s.rd .time F.TCRATE_den)

/-- The timecode field at TIMENS `t` (R334). -/
def State.timecodeAt (s : State) (t : Nat) : Nat :=
  let base := s.tc.base
  let num := s.rd .time F.TCRATE_num
  if !bitOf base 31 then 0
  else if t < s.tc.epoch then base
  else
    let f := (t - s.tc.epoch) * num / (s.tcDen * 1000000000)
    let R := tcR num s.tcDen
    if tcRateOk base R then tcField base R (tcDrop base R) (tcCount base R (tcDrop base R) + f)
    else Config.timecodeBadRate base (s.tcDen * 65536 + num) f

/-- Every nibble of the timecode digits is at most 9. -/
def bcdOk (base : Nat) : Bool :=
  [bits base 0 4, bits base 4 3, bits base 8 4, bits base 12 3, bits base 16 4, bits base 20 3, bits base 24 4,
    bits base 28 2].all (· ≤ 9)

/-- A set may be committed (R335). -/
def tcSetOk (base R : Nat) : Bool :=
  tcRateOk base R && bcdOk base && bcdVal (bits base 24 6) ≤ 23 && bcdVal (bits base 16 7) ≤ 59 &&
  bcdVal (bits base 8 7) ≤ 59 && decide (bcdVal (bits base 0 7) < R) &&
  !bitOf base 30 && !bitOf base 23 && !bitOf base 15 &&
  !(bitOf base 7 && bcdVal (bits base 8 7) == 0 && bcdVal (bits base 16 7) % 10 != 0 &&
    decide (bcdVal (bits base 0 7) < tcDrop base R))

/-- A write of TCEPOCHHI (R335). -/
def State.tcEpochHi (t : State) (r : Requester) (v : Nat) : State :=
    ({ t with tc := { t.tc with armed := true, req := r.num } } : State).wr .time F.TCEPOCHHI_epoch_hi v

/-- TCEPOCHHI_WRITE (R335): the set TCBASE, TCEPOCHLO, TCEPOCHHI waits for the next window-start strobe. -/
def execTcepochhiWrite (r : Requester) (v : Word) (s : State) : Out :=
  live s (s.guardReg r .time 0xD8 v.toNat (fun t => t.tcEpochHi r v.toNat))

/-- The armed set is committed or refused (R335): a refusal changes nothing, leaves a crumb of cause 3 and raises
TIME_TCREFUSED. -/
def State.commitTimecode (s : State) : State :=
  if !s.tc.armed then s
  else
    let t : State := { s with tc := { s.tc with armed := false } }
    let base := s.rd .time F.TCBASE_base
    let hi := s.rd .time F.TCEPOCHHI_epoch_hi
    if tcSetOk base (tcR (s.rd .time F.TCRATE_num) s.tcDen) then
      { t with tc := { t.tc with base := base, epoch := hi * 2 ^ 32 + s.rd .time F.TCEPOCHLO_epoch_lo } }
    else (t.refuse s.tc.req .time 3 (UnitId.time.base + 0xD8) hi).raise .time 13

/-- WINDOW_START_STROBE (R474, R334): TIMENS and the timecode are sampled for the window that follows. -/
def execWindowStartStrobe (s : State) : Out :=
  let t := s.commitTimecode
  live s { t with tc := { t.tc with stampNs := t.time.ns, stampTc := t.timecodeAt t.time.ns } }

/-- One tick of the 125 MHz time clock (R463): TIMENS and its fraction advance by 8 × (1 + r × 10⁻⁹) ns, r in 1/256 ppb,
and counter 0 by the reference cycles of 8 ns at 1.2 GHz (R451): 48 in five ticks. -/
def State.tick (s : State) : State :=
  let adv : Int := 8 * 2 ^ 32 + 8 * 2 ^ 32 * s.rate / (256 * 1000000000)
  let total : Int := (s.time.ns : Int) * 2 ^ 32 + s.time.frac + adv
  let cyc := 48 + s.ctr.rem
  let t : State := { s with
    time := { s.time with ns := unsigned 64 (total / 2 ^ 32), frac := (total % 2 ^ 32).toNat }
    ctr := { s.ctr with rem := cyc % 5 } }
  if s.pw.clocked then t.count 0 (cyc / 5) else { s with time := t.time }

end Sys2Proof.Machine
end

