-- ==== Sys2Proof/Machine/Motors.lean ====
section
/-! DEFINITION. The drive pod: the spindle (R203 to R215), the VMOT watch (R216), the steppers (R219 to R226) and the voice
coils (R228 to R230). -/

namespace Sys2Proof.Machine

/-! ### The spindle's states -/

/-- SPSTAT.state (R218): 0 stopped, 1 checking, 2 aligning, 3 accelerating, 4 at speed on encoder, 5 taking clock, 6 at speed
on clock, 7 changing, 8 stopping, 9 short brake, 10 coast, 11 fault. -/
def State.spState (s : State) : Nat := s.rd .spindle F.SPSTAT_state

/-- The unit's state of R40 for a spindle state: fault, running or ready. -/
def spUnit (st : Nat) : Nat := if st = 11 then 5 else if st = 0 then 0 else 3

/-- Set SPSTAT.state. -/
def State.setSp (s : State) (st : Nat) : State := (s.wr .spindle F.SPSTAT_state st).wr .spindle F.USTAT_state (spUnit st)

/-- Change what the spindle drive holds. -/
def State.updSpin (s : State) (f : SpinSt → SpinSt) : State := { s with spin := f s.spin }

/-- A running clock take ends with its command; the head it held is free. -/
def State.endTake (s : State) : State :=
  (List.range 4).foldl (fun t h =>
    if (t.hd h).seq = 8 then
      ((t.setFlag (.head h) F.HSEQSTAT_busy false).updHd h (fun d => { d with seq := 0, step := 0 })).refresh h
    else t) s

/-- The angle source goes back to the encoder as the spindle leaves its speed. -/
def State.dropClock (s : State) : State :=
  ((s.updSpin (fun p => { p with handed := false })).setFlag .spindle F.SPSTAT_clock false).wr .spindle F.SPSTAT_head 0

/-- The bridge turns off and the spindle is in state `st`. -/
def State.spinOff (s : State) (st : Nat) : State :=
  ((s.endTake.dropClock).updSpin (fun p => { p with vec := 7, off := 0, saved := none })).setSp st |>.slotStop 68

/-- The spindle is in fault with a cause: the bridge is off (R205, R207, R208, R216). -/
def State.spinFault (s : State) (cause : Nat) : State := (s.spinOff 11).wr .spindle F.SPSTAT_cause cause

/-- A spindle command is refused (R215). -/
def State.spinRefuse (s : State) : State := s.raise .spindle 10

/-- The motor may be driven (R216, R505): VMOT is not below its warning level; after an under-voltage fault, for 100 ms. -/
def State.motorOk (s : State) : Bool :=
  !s.flag .vmot F.VMSTAT_uvwarn &&
  !(s.spState == 11 && s.rd .spindle F.SPSTAT_cause == 4 && decide (s.time.ns < s.vmotNs + 100000000))

/-- The pole pairs allow a start (R218). -/
def State.pairsOk (s : State) : Bool := let p := s.rd .spindle F.SPMOTOR_pairs; 1 ≤ p && p ≤ 8

/-- The loader moves (R215, R226). -/
def State.loaderMoves (s : State) : Bool := s.flag (.stepper 4) F.STSTAT_moving

/-- The spindle runs to the speed in SPSTAT.speed from its present one: as a change on the clock, else as an acceleration. -/
def State.spinRamp (s : State) : State :=
  let t := (s.endTake).updSpin (fun p => { p with saved := none })
  t.setSp (if s.spin.handed then 7 else 3)

/-- Spindle start from rest, step 1 (R207). -/
def State.spinCheck (s : State) : State :=
  ((s.spinOff 1).wr .spindle F.SPSTAT_cause 0).updSpin (fun p => { p with
    sets := [], realigned := false, tried := 0, takeFailed := false, trips := [] })

/-- SPCMD 1 (R215). -/
def State.spinStart (s : State) (slow : Bool) : State :=
  let st := s.spState
  if s.loaderMoves || !s.pairsOk || !s.motorOk || (1 ≤ st && st ≤ 7) then s.spinRefuse
  else
    let t := s.setFlag .spindle F.SPSTAT_speed slow
    if st = 8 then t.spinRamp else t.spinCheck

/-- SPCMD 2 (R212, R215). -/
def State.spinChange (s : State) (slow : Bool) : State :=
  let st := s.spState
  if (3 ≤ st && st ≤ 8) && s.motorOk then (s.setFlag .spindle F.SPSTAT_speed slow).spinRamp else s.spinRefuse

/-- SPCMD 3 (R213, R215). -/
def State.spinStop (s : State) : State :=
  let st := s.spState
  if st = 1 || st = 2 then s.spinOff 0
  else if 3 ≤ st && st ≤ 7 then (s.endTake).setSp 8 else s

/-- SPCMD 4 (R214, R215). -/
def State.spinBrake (s : State) : State :=
  if s.spState = 0 then s else (s.spinOff 9).updSpin (fun p => { p with vec := 0 })

/-- SPCMD 5 (R214, R215). -/
def State.spinCoast (s : State) : State := if s.spState = 0 then s else s.spinOff 10

/-- SPCMD (R215, R218). -/
def State.spCommand (s : State) (cmd : Nat) (slow : Bool) : State :=
  match cmd with
  | 1 => s.spinStart slow
  | 2 => s.spinChange slow
  | 3 => s.spinStop
  | 4 => s.spinBrake
  | 5 => s.spinCoast
  | _ => s.spinRefuse

/-- A write of SPCMD that passes the checks of R54 to R57. -/
def State.spWrite (s : State) (r : Requester) (cmd : Nat) (slow : Bool) : State :=
  s.guardReg r .spindle 0x40 (16 * b2n slow + cmd) (fun t => t.spCommand cmd slow)

/-- SPIN_START (R207, R215, R226). -/
def execSpinStart (r : Requester) (slow : Bool) (s : State) : Out := live s (s.spWrite r 1 slow)

/-- SPIN_CHANGE (R212, R215). -/
def execSpinChange (r : Requester) (slow : Bool) (s : State) : Out := live s (s.spWrite r 2 slow)

/-- SPIN_STOP (R213, R215). -/
def execSpinStop (r : Requester) (s : State) : Out := live s (s.spWrite r 3 false)

/-- SPIN_SHORT_BRAKE (R214, R215). -/
def execSpinShortBrake (r : Requester) (s : State) : Out := live s (s.spWrite r 4 false)

/-- SPIN_COAST (R214, R215). -/
def execSpinCoast (r : Requester) (s : State) : Out := live s (s.spWrite r 5 false)

/-! ### Torque and flux (R204) -/

/-- The high-side switches of a vector (R204): phases U, V, W. -/
def vecPhases (v : Nat) : Nat × Nat × Nat :=
  match v with
  | 1 => (1, 0, 0)
  | 2 => (1, 1, 0)
  | 3 => (0, 1, 0)
  | 4 => (0, 1, 1)
  | 5 => (0, 0, 1)
  | 6 => (1, 0, 1)
  | _ => (0, 0, 0)

/-- x × |x|: comparing these compares a multiple of a square root exactly. -/
def sgnSq (x : Int) : Int := x * x.natAbs

/-- The sector of the flux angle (R204), from 3ψα and √3ψβ: sector k spans (k − 1) × 60° ± 30°, its lower edge included. -/
def fluxSector (a b : Int) : Nat :=
  if 0 < a ∧ -a ≤ 3 * b ∧ 3 * b < a then 1
  else if a < 0 ∧ a < 3 * b ∧ 3 * b ≤ -a then 4
  else if 0 < b then (if 0 < a then 2 else 3) else if 0 ≤ a then 6 else 5

/-- Vector index `k + d` in the range 1 to 6 (R204). -/
def vecAt (k : Nat) (d : Int) : Nat := ((k : Int) - 1 + d).toNat % 6 + 1

/-- The table of R204: flux demand up or down, torque demand 1 up, 0 hold, −1 down. -/
def chosenVec (k : Nat) (fluxUp : Bool) (torque : Int) : Nat :=
  if torque = 0 then 0
  else if torque = 1 then vecAt k (if fluxUp then 1 else 2)
  else vecAt k (if fluxUp then 5 else 4)

/-- The currents as 3iα and √3iβ in mA (R204): measured on the legs whose low side conducted, a third one minus the sum of two;
with one or none measured they are predicted. -/
def State.currents (s : State) (ia ib ic : Int) : Int × Int :=
  let m := vecPhases s.spin.vec
  let n := 3 - (m.1 + m.2.1 + m.2.2)
  let clarke (a b c : Int) : Int × Int := (2 * a - b - c, b - c)
  if s.spin.vec = 7 then (0, 0)
  else if n = 3 then clarke ia ib ic
  else if n = 2 then
    if m.1 = 1 then clarke (-(ib + ic)) ib ic
    else if m.2.1 = 1 then clarke ia (-(ia + ic)) ic
    else clarke ia ib (-(ia + ib))
  else
    let p := Config.predictCurrent s.spin.curA s.spin.curB s.spin.vec (s.rd .vmot F.VMVOLT_volt) (s.storedWord .spindle 0x54)
    (p.1, p.2)

/-- A measured leg current exceeds `lim` mA (R205). -/
def State.legAbove (s : State) (ia ib ic lim : Int) : Bool :=
  let m := vecPhases s.spin.vec
  s.spin.vec != 7 &&
  ((m.1 == 0 && decide (lim < ia.natAbs)) || (m.2.1 == 0 && decide (lim < ib.natAbs)) || (m.2.2 == 0 && decide (lim < ic.natAbs)))

/-- The flux one tick on (R204): v − Rs × i of the vector applied, in µWb ÷ 2,400,000. -/
def State.nextFlux (s : State) (ia ib : Int) : Int × Int :=
  let m := vecPhases s.spin.vec
  let vm : Int := s.rd .vmot F.VMVOLT_volt
  let rs : Int := s.rd .spindle F.SPMOTOR_res
  (s.spin.fluxA + (1000 * vm * (2 * (m.1 : Int) - m.2.1 - m.2.2) - rs * ia),
   s.spin.fluxB + (1000 * vm * ((m.2.1 : Int) - m.2.2) - rs * ib))

/-- The torque demand (R204): 1 below the band of SPHYST.tband about SPTCMD, −1 above it, 0 inside. The torque is
p (3ψα √3iβ − √3ψβ 3iα) ÷ (2√3), here in nN·m ÷ 2,400,000. -/
def State.torqueDemand (s : State) (a b ia ib : Int) : Int :=
  let x := (s.rd .spindle F.SPMOTOR_pairs : Int) * (a * ib - b * ia)
  let full : Int := (s.rd .spindle F.SPTMAX_tmax : Nat) * 10000 * 2400000
  let cmd : Int := full * signed 16 (s.rd .spindle F.SPTCMD_torque)
  let band : Int := full * 32768 * (s.rd .spindle F.SPHYST_tband : Nat)
  -- cmd in 1/32,768 and band in 1/32,768,000 of full scale; both sides × 32,768,000
  if sgnSq (x * 32768000) < 12 * sgnSq (cmd * 1000 - band) then 1
  else if 12 * sgnSq (cmd * 1000 + band) < sgnSq (x * 32768000) then -1 else 0

/-- The flux demand (R204): up below the band of SPHYST.fband about SPFLUX, down above it, as it was inside. -/
def State.fluxDemand (s : State) (a b : Int) : Bool :=
  let m := (a * a + 3 * b * b) * 1000000
  let r : Int := (s.rd .spindle F.SPFLUX_flux : Nat) * 2400000
  let fb : Int := s.rd .spindle F.SPHYST_fband
  if m < 9 * (r * (1000 - fb)) * (r * (1000 - fb)) then true
  else if 9 * (r * (1000 + fb)) * (r * (1000 + fb)) < m then false else s.spin.fluxUp

/-- The spindle unit applies vectors in these states (R204, R207). -/
def spDriven (st : Nat) : Bool := 3 ≤ st && st ≤ 8

/-- What SPINDLE_TICK shows of the encoder, the speed and the angle (R218). -/
def State.spinShow (s : State) (count speed : Nat) (angle : Option Nat) : State :=
  let t := (s.wr .spindle F.SPENC_count count).wr .spindle F.SPSPEED_speed speed
  match angle with
  | some a => (t.setFlag .spindle F.SPANGLE_valid true).wr .spindle F.SPANGLE_angle a
  | none => t.setFlag .spindle F.SPANGLE_valid false

/-- SPINDLE_TICK (R204 to R206, R216, R218): the motor is evaluated once, from the leg currents in mA at the shunts. -/
def execSpindleTick (ia ib ic : Int) (count : Fin 4096) (speed : Nat) (angle : Option (Fin 262144)) (s : State) : Out :=
  let s0 := (s.spinShow count speed (angle.map Fin.val)).updSpin (fun p => { p with trips := p.trips.map (· + 1) })
  let st := s.spState
  if !spDriven st then
    live s (s0.updSpin (fun p => { p with vec := if st = 9 then 0 else 7 }))
  else
    let cur := s.currents ia ib ic
    let raw := s.nextFlux cur.1 cur.2
    let fl := if speed < 9600 then Config.fluxOnEncoder raw.1 raw.2 count (s.rd .spindle F.SPMOTOR_pairs) else raw
    let s1 := s0.updSpin (fun p => { p with fluxA := fl.1, fluxB := fl.2, curA := cur.1, curB := cur.2 })
    if 0 < s.spin.off then live s (s1.updSpin (fun p => { p with off := p.off - 1, vec := 7 }))
    else if s.legAbove ia ib ic 7999 then
      let recent := s1.spin.trips.filter (fun a => decide (a < 24000))
      let s2 := (s1.updSpin (fun p => { p with trips := 0 :: recent, vec := 7, off := 7 })).raise .spindle 7
      live s (if 2 ≤ recent.length then s2.spinFault 3 else s2)
    else
      let lim : Int := (min 240 (s.rd .spindle F.SPILIM_limit) * 25 : Nat)
      let td := if s.legAbove ia ib ic lim then 0 else s.torqueDemand fl.1 fl.2 cur.1 cur.2
      let td := if td = -1 && s.flag .vmot F.VMSTAT_regen then 0 else td
      let up := s.fluxDemand fl.1 fl.2
      let v := chosenVec (fluxSector fl.1 fl.2) up td
      live s (s1.updSpin (fun p => { p with fluxUp := up, vec := v }))

/-! ### The start sequence (R207 to R209) -/

/-- SPIN_REST_DETECTED (R207, R213, R214): checking goes on to aligning; a stop or a brake ends with the bridge off. -/
def execSpinRestDetected (s : State) : Out :=
  let st := s.spState
  if st = 1 then live s (s.setSp 2)
  else if st = 8 || st = 9 then live s ((s.spinOff 0).raise .spindle 9)
  else .next s

/-- The current of direction `30 k` degrees in a set of pulses. -/
def pulseAt (cs : List Nat) (k : Nat) : Int := ((cs[k % 12]?).getD 0 : Nat)

/-- The direction with the highest current. -/
def pulseTop (cs : List Nat) : Nat :=
  (List.range 12).foldl (fun b k => if pulseAt cs b < pulseAt cs k then k else b) 0

/-- The electrical angle a set of pulses gives (R208), in degrees; none without the saturation margin over the opposite
direction. The parabola through the top direction and its neighbours is read to the nearest degree. -/
def alignAngle (margin : Nat) (cs : List Nat) : Option Nat :=
  let k := pulseTop cs
  let y0 := pulseAt cs k
  let l := pulseAt cs (k + 11)
  let r := pulseAt cs (k + 1)
  if pulseAt cs (k + 6) * (100 + margin : Nat) ≤ y0 * 100 then
    let den := 2 * (2 * y0 - l - r)
    some (unsigned 32 ((30 * (k : Int) + (if 0 < den then roundDiv (30 * (r - l)) den else 0)) % 360) % 360)
  else none

/-- The difference of two angles, −180 to 179. -/
def angleDiff (a b : Nat) : Int := ((b : Int) - a + 180) % 360 - 180

/-- Two angles agree within 30°: their mean (R208). -/
def agree (a b : Nat) : Option Nat :=
  let d := angleDiff a b
  if d.natAbs ≤ 30 then some (unsigned 32 (((a : Int) + d / 2) % 360)) else none

/-- The result of the sets so far (R208). -/
def alignResult (sets : List (Option Nat)) : Option Nat :=
  match sets with
  | [some a, some b] => agree a b
  | [x, y, some c] => (x.bind (fun a => agree a c)).orElse (fun _ => y.bind (fun b => agree b c))
  | _ => none

/-- SPIN_ALIGN_DONE (R207, R208): a set of 12 pulses, its currents in mA by direction 0° to 330°. -/
def execSpinAlignDone (cs : List Nat) (s : State) : Out :=
  if s.spState ≠ 2 then .next s
  else
    let sets := s.spin.sets ++ [alignAngle (s.rd .spindle F.SPALIGN_margin) cs]
    let t := (s.updSpin (fun p => { p with sets := sets })).wr .spindle F.SPALRES_sets sets.length
    match alignResult sets with
    | some a =>
      let f := Config.fluxAtAngle (s.rd .spindle F.SPFLUX_flux) a
      let t := (t.wr .spindle F.SPALRES_angle a).updSpin (fun p => { p with fluxA := f.1, fluxB := f.2, fluxUp := false, vec := 0 })
      live s (((t.setSp 3).slotStart 68).count 194)
    | none => live s (if 3 ≤ sets.length then (t.raise .spindle 5).spinFault 1 else t)

/-- SPIN_ENCODER_TIMEOUT (R207): reverse counting realigns once; a second time, or no count in 100 ms, is a fault. -/
def execSpinEncoderTimeout (reverse : Bool) (s : State) : Out :=
  if s.spState ≠ 3 then .next s
  else if reverse && !s.spin.realigned then
    live s ((s.setSp 2).updSpin (fun p => { p with sets := [], realigned := true, vec := 7 }))
  else live s ((s.raise .spindle 6).spinFault 2)

/-- The clock take goes to head `h`, whose sequencer runs steps 1 to 4 of R194 (R209). -/
def State.takeWith (s : State) (h : Nat) : State :=
  (s.updSpin (fun p => { p with tried := p.tried + 1 })).beginAcquire h 8 (s.rd (.head h) F.HSEQSTAT_group)
    (s.rd (.head h) F.HSEQSTAT_layer) false

/-- SPIN_SPEED_REACHED (R207, R209): 64 samples within 0.1 % on the encoder; the clock take starts. -/
def execSpinSpeedReached (s : State) : Out :=
  if s.spState ≠ 3 then .next s
  else live s (((s.setSp 5).updSpin (fun p => { p with tried := 0 })).takeWith (s.rd .spindle F.SPCFG_refhead))

/-- The head of the running clock take. -/
def State.takeHead (s : State) : Nat := (s.rd .spindle F.SPCFG_refhead + s.spin.tried + 3) % 4

/-- The take has failed on its head: the next one is tried, and after four SPIN_CLOCKFAIL (R209); at a start with no head finding
focus the cartridge counts as absent and nothing is raised (R521). -/
def State.nextTake (s : State) : State :=
  if s.spin.tried < 4 then s.takeWith ((s.takeHead + 1) % 4)
  else
    let t := (s.setSp 4).updSpin (fun p => { p with takeFailed := true })
    if s.rd .power F.PWSTART_stage = 8 && (List.range 4).all (fun h => s.rd (.head h) F.HSEQSTAT_result == 3) then
      let t := t.spCommand 3 false
      let t : State := { t with rcd := { t.rcd with absent := true } }
      let t := t.rcd.ops.foldl (fun t o => match o.kind with
        | .load => t.endOp o .noCartridge
        | _ => t) t
      t.wr .power F.PWSTART_stage 9
    else t.raise .spindle 4

/-- CLOCK_TAKE_DONE (R209): the head's synthesiser is locked and becomes the angle source, the encoder count at its index is
kept, and its sequencer stays at the end of step 4; or its step failed and the next head is tried. -/
def execClockTakeDone (ok : Bool) (index : Fin 4096) (s : State) : Out :=
  let h := s.takeHead
  let d := s.hd h
  if s.spState ≠ 5 then .next s
  else if ok then
    if d.seq ≠ 8 || d.step ≠ 4 then .next s
    else
      let t := s.lockSynth h
      let t := ((t.setFlag (.head h) F.HSEQSTAT_busy false).wr (.head h) F.HSEQSTAT_result 0).updHd h (fun d => { d with
        seq := 0, step := 0, atClock := true })
      let t := ((t.updSpin (fun p => { p with handed := true })).setFlag .spindle F.SPSTAT_clock true).wr .spindle F.SPSTAT_head h
      live s ((((t.wr .spindle F.SPENC_offset index).raise .spindle 2).setSp 6).raise .spindle 1)
  else
    let t := if d.seq = 8 then s.seqFault h (stepFailure d.step) else s
    live s t.nextTake

/-- SPEED_ERROR_PERSIST (R211): the error exceeded 1 % for 9,600 samples at speed on the clock. -/
def execSpeedErrorPersist (s : State) : Out := if s.spState = 6 then live s (s.raise .spindle 8) else .next s

/-! ### The VMOT watch (R216) -/

/-- The VMOT monitor samples `mv`. -/
def State.vmotSample (s : State) (mv : Nat) : State := s.wr .vmot F.VMVOLT_volt (min mv 65535)

/-- VMOT_REGENCUT (R216). -/
def execVmotRegencut (mv : Nat) (s : State) : Out :=
  if mv < 14000 then .next s
  else live s (((s.vmotSample mv).setFlag .vmot F.VMSTAT_regen true).raise .vmot 3)

/-- VMOT_BRAKE (R216): the spindle goes to short brake; what it was doing is kept. -/
def execVmotBrake (mv : Nat) (s : State) : Out :=
  if mv < 14300 then .next s
  else
    let st := s.spState
    let t := if s.spin.saved.isNone && 1 ≤ st && st ≤ 8 then
        (s.updSpin (fun p => { p with saved := some st, vec := 0 })).setSp 9 else s
    live s (((t.vmotSample mv).setFlag .vmot F.VMSTAT_brake true).raise .vmot 4)

/-- VMOT_WATCH_RELEASE (R216): both actions end and the command in progress continues. -/
def execVmotWatchRelease (mv : Nat) (s : State) : Out :=
  if 13600 ≤ mv then .next s
  else
    let t := ((s.vmotSample mv).setFlag .vmot F.VMSTAT_regen false).setFlag .vmot F.VMSTAT_brake false
    live s (match s.spin.saved with
      | some st => (t.updSpin (fun p => { p with saved := none })).setSp st
      | none => t)

/-- VMOT_OVER (R216). -/
def execVmotOver (mv : Nat) (s : State) : Out :=
  if mv < 14500 then .next s
  else live s (((s.vmotSample mv).setFlag .vmot F.VMSTAT_over true).raise .vmot 5)

/-- VMOT_UVWARN (R216). -/
def execVmotUvwarn (mv : Nat) (s : State) : Out :=
  if s.rd .vmot F.VMUVT_warn ≤ mv then .next s
  else live s (((s.vmotSample mv).setFlag .vmot F.VMSTAT_uvwarn true).raise .vmot 1)

/-- A Vcm output ramps to its safe current (R229). -/
def State.vcmRamp (s : State) (n : Nat) : State :=
  (s.setFlag (.vcm n) F.VCCTRL_retract true).setFlag (.vcm n) F.VCSTAT_ramping true

/-- Change what a stepper channel holds. -/
def State.updStep (s : State) (n : Nat) (f : StepSt → StepSt) : State :=
  { s with steps := Tbl.upd ⟨0, false, 0⟩ s.steps n f }

/-- A stepper's coils turn off and its motion ends. -/
def State.stepOff (s : State) (n : Nat) : State :=
  (s.updStep n (fun p => { p with coils := false })).setFlag (.stepper n) F.STSTAT_moving false

/-- VMOT_UVFAULT (R216, R229): the spindle coasts in fault, steppers turn off, every head is released, every Vcm ramps. -/
def execVmotUvfault (mv : Nat) (s : State) : Out :=
  if max 8000 (s.rd .vmot F.VMUVT_fault) ≤ mv then .next s
  else
    let t := (s.vmotSample mv).setFlag .vmot F.VMSTAT_uvfault true
    let t := (t.raise .vmot 2).spinFault 4
    let t := (List.range 5).foldl (fun t n => t.stepOff n) t
    let t := (List.range 4).foldl (fun t h => if t.hState h = hRetracted then t else t.release h false) t
    live s { (List.range 16).foldl (fun t n => t.vcmRamp n) t with safeHold := true }

/-! ### Steppers -/

/-- What a stepper channel holds. -/
def State.stp (s : State) (n : Nat) : StepSt := Tbl.look ⟨0, false, 0⟩ s.steps n

/-- STCTRL.mode, 3 acting as 0 (R227). -/
def State.stMode (s : State) (n : Nat) : Nat := let m := s.rd (.stepper n) F.STCTRL_mode; if m = 3 then 0 else m

/-- The fields of STCTRL are stored; a channel that gets enable 0 turns its bridges off. -/
def State.stStore (s : State) (n v : Nat) : State :=
  let t := s.storeReg (.stepper n) 0x40 v
  if bitOf v 2 then t else t.stepOff n

/-- STEP_MODE_STOP (R223): mode 0, or 3, which acts as 0; a move under way decelerates at STACC, and
STEP_DONE ends it. -/
def State.stModeStop (s : State) (n v : Nat) : State :=
  s.stStore n v

/-- A move begins towards STTARGET (R223): the direction is that of the target. -/
def State.beginMove (s : State) (n : Nat) : State :=
  let d := signed 32 (s.rd (.stepper n) F.STTARGET_target) - signed 32 (s.rd (.stepper n) F.STPOS_pos)
  if d = 0 then (s.setFlag (.stepper n) F.STSTAT_moving false).raise (.stepper n) 1
  else
    ((s.updStep n (fun p => { p with coils := true, dir := if 0 < d then 1 else -1 })).setFlag (.stepper n) F.STSTAT_moving
      true).setFlag (.stepper n) F.STSTAT_still false

/-- The loader may move (R226): spindle stopped and every head retracted. -/
def State.loaderFree (s : State) : Bool := s.spState == 0 && (List.range 4).all (fun h => s.hState h == hRetracted)

/-- STEP_MODE_MOVE (R223, R226). -/
def State.stModeMove (s : State) (n v : Nat) : State :=
  if n = 4 && !s.loaderFree then s.raise (.stepper 4) 4
  else
    let t := s.stStore n v
    if bitOf v 2 && !t.flag (.stepper n) F.STSTAT_fault then t.beginMove n else t

/-- STEP_MODE_GEAR (R224, R225, R226). -/
def State.stModeGear (s : State) (n v : Nat) : State :=
  if n = 4 then s.raise (.stepper 4) 4
  else
    let t := s.stStore n v
    if bitOf v 2 && !t.flag (.stepper n) F.STSTAT_fault then
      (t.updStep n (fun p => { p with coils := true })).setFlag (.stepper n) F.STSTAT_moving false else t

/-- A write of STCTRL (R223). -/
def State.stCtrl (s : State) (n v : Nat) : State :=
  match v % 4 with
  | 1 => s.stModeMove n v
  | 2 => s.stModeGear n v
  | _ => s.stModeStop n v

/-- The word of STCTRL. -/
def stWord (mode : Nat) (enable : Bool) : Nat := 4 * b2n enable + mode

/-- STEP_MODE_STOP (R223). -/
def execStepModeStop (r : Requester) (n : Fin 5) (enable : Bool) (s : State) : Out :=
  live s (s.guardReg r (.stepper n) 0x40 (stWord 0 enable) (fun t => t.stModeStop n (stWord 0 enable)))

/-- STEP_MODE_MOVE (R223, R226). -/
def execStepModeMove (r : Requester) (n : Fin 5) (enable : Bool) (s : State) : Out :=
  live s (s.guardReg r (.stepper n) 0x40 (stWord 1 enable) (fun t => t.stModeMove n (stWord 1 enable)))

/-- STEP_MODE_GEAR (R224, R226). -/
def execStepModeGear (r : Requester) (n : Fin 5) (enable : Bool) (s : State) : Out :=
  live s (s.guardReg r (.stepper n) 0x40 (stWord 2 enable) (fun t => t.stModeGear n (stWord 2 enable)))

/-- A write of STTARGET (R223): a move under way is replanned from the present position and velocity. -/
def State.stTarget (s : State) (n v : Nat) : State :=
  let t := s.wr (.stepper n) F.STTARGET_target v
  if t.stMode n = 1 && t.flag (.stepper n) F.STSTAT_moving then t.beginMove n else t

/-- STTARGET_WRITE (R223). -/
def execSttargetWrite (r : Requester) (n : Fin 5) (v : Word) (s : State) : Out :=
  live s (s.guardReg r (.stepper n) 0x4C v.toNat (fun t => t.stTarget n v.toNat))

/-- A write of STPOS (R223, R224). -/
def State.stPos (s : State) (n v : Nat) : State :=
  if s.stMode n = 0 then (s.wr (.stepper n) F.STPOS_pos v).updStep n (fun p => { p with frac := 0 }) else s

/-- STPOS_WRITE (R223, R224). -/
def execStposWrite (r : Requester) (n : Fin 5) (v : Word) (s : State) : Out :=
  live s (s.guardReg r (.stepper n) 0x48 v.toNat (fun t => t.stPos n v.toNat))

/-- The sine of R219 for indexes from 64 `q` on: round(4,095 × sin(90° × i ÷ 256)). -/
def sineQuarter : Nat → List Nat
  | 0 => [0, 25, 50, 75, 100, 126, 151, 176, 201, 226, 251, 276, 301, 326, 351, 376,
    401, 426, 451, 476, 501, 526, 551, 576, 601, 626, 651, 675, 700, 725, 750, 774,
    799, 824, 848, 873, 897, 922, 946, 971, 995, 1019, 1044, 1068, 1092, 1116, 1141, 1165,
    1189, 1213, 1237, 1261, 1285, 1308, 1332, 1356, 1380, 1403, 1427, 1450, 1474, 1497, 1521, 1544]
  | 1 => [1567, 1590, 1613, 1636, 1659, 1682, 1705, 1728, 1751, 1774, 1796, 1819, 1841, 1864, 1886, 1908,
    1930, 1952, 1975, 1997, 2018, 2040, 2062, 2084, 2105, 2127, 2148, 2170, 2191, 2212, 2233, 2254,
    2275, 2296, 2317, 2337, 2358, 2378, 2399, 2419, 2439, 2460, 2480, 2500, 2519, 2539, 2559, 2578,
    2598, 2617, 2636, 2656, 2675, 2694, 2713, 2731, 2750, 2769, 2787, 2805, 2824, 2842, 2860, 2878]
  | 2 => [2896, 2913, 2931, 2948, 2966, 2983, 3000, 3017, 3034, 3051, 3068, 3084, 3101, 3117, 3133, 3149,
    3165, 3181, 3197, 3213, 3228, 3244, 3259, 3274, 3289, 3304, 3319, 3333, 3348, 3362, 3377, 3391,
    3405, 3419, 3433, 3446, 3460, 3473, 3486, 3499, 3512, 3525, 3538, 3551, 3563, 3575, 3588, 3600,
    3611, 3623, 3635, 3646, 3658, 3669, 3680, 3691, 3702, 3713, 3723, 3733, 3744, 3754, 3764, 3774]
  | _ => [3783, 3793, 3802, 3811, 3821, 3830, 3838, 3847, 3856, 3864, 3872, 3880, 3888, 3896, 3904, 3911,
    3919, 3926, 3933, 3940, 3947, 3953, 3960, 3966, 3972, 3978, 3984, 3990, 3996, 4001, 4006, 4011,
    4016, 4021, 4026, 4030, 4035, 4039, 4043, 4047, 4051, 4054, 4058, 4061, 4064, 4067, 4070, 4073,
    4075, 4078, 4080, 4082, 4084, 4086, 4087, 4089, 4090, 4091, 4092, 4093, 4094, 4094, 4095, 4095]

/-- Entry `i` of a stepper channel's table (R219, R220): what was written, or the sine. -/
def State.tableEntry (s : State) (n i : Nat) : Nat :=
  match Tbl.look 0 s.stepTab (256 * n + i) with
  | 0 => ((sineQuarter (i / 64))[i % 64]?).getD 0
  | v + 1 => v

/-- A write of STTDATA (R220): accepted in mode 0 and at rest, and STTSEL then increments. -/
def State.stTable (s : State) (n v : Nat) : State :=
  let u : UnitId := .stepper n
  if s.stMode n = 0 && !s.flag u F.STSTAT_moving then
    let i := s.rd u F.STTSEL_index
    ({ s with stepTab := Tbl.put 0 s.stepTab (256 * n + i) (F.STTDATA_value.of v + 1) } : State).wr u F.STTSEL_index (i + 1)
  else s.raise u 5

/-- STTDATA_WRITE (R220). -/
def execSttdataWrite (r : Requester) (n : Fin 5) (v : Word) (s : State) : Out :=
  live s (s.guardReg r (.stepper n) 0x64 v.toNat (fun t => t.stTable n v.toNat))

/-- The gear accumulator of a channel moves by `d` of 2^-34 microstep (R224): its integer part is STPOS. -/
def State.gearAdd (s : State) (n : Nat) (d : Int) : State :=
  let acc := (s.rd (.stepper n) F.STPOS_pos * 2 ^ 34 + (s.stp n).frac : Int) + d
  let a := (acc % (2 ^ 66 : Nat)).toNat
  let t := (s.wr (.stepper n) F.STPOS_pos (a / 2 ^ 34)).updStep n (fun p => { p with frac := a % 2 ^ 34 })
  if t.rd (.stepper n) F.STPOS_pos = s.rd (.stepper n) F.STPOS_pos then t
  else (t.updStep n (fun p => { p with coils := true })).setFlag (.stepper n) F.STSTAT_still false

/-- A write of STFOLLOW (R224): a signed correction in 1/256 microstep, in gear mode. -/
def State.stFollow (s : State) (n v : Nat) : State :=
  if s.stMode n = 2 then s.gearAdd n (signed 16 (v % 65536) * (2 ^ 26 : Nat)) else s

/-- STFOLLOW_WRITE (R224). -/
def execStfollowWrite (r : Requester) (n : Fin 5) (v : Word) (s : State) : Out :=
  live s (s.guardReg r (.stepper n) 0x74 v.toNat (fun t => t.stFollow n v.toNat))

/-- STEP_DONE (R223): the move arrives at STTARGET, or a move that was stopped comes to rest at `pos`. -/
def execStepDone (n : Fin 5) (pos : Word) (s : State) : Out :=
  let u : UnitId := .stepper n
  if !s.flag u F.STSTAT_moving then .next s
  else
    let t := s.updStep n (fun p => { p with frac := 0, dir := 0 })
    let t := t.setFlag u F.STSTAT_moving false
    if s.stMode n = 1 then live s ((t.wr u F.STPOS_pos (s.rd u F.STTARGET_target)).raise u 1)
    else live s (t.wr u F.STPOS_pos pos.toNat)

/-- STEP_OVERCURRENT (R221): the channel stops in fault with its coils off. -/
def execStepOvercurrent (n : Fin 5) (s : State) : Out :=
  let u : UnitId := .stepper n
  if !(s.stp n).coils then .next s
  else live s ((((s.stepOff n).setFlag u F.STSTAT_fault true).wr u F.USTAT_state 5).raise u 2)

/-- STEP_STANDSTILL (R222): with no microstep and no commanded motion for STSTILL.delay the coils go off or shorted. -/
def execStepStandstill (n : Fin 5) (s : State) : Out :=
  let u : UnitId := .stepper n
  if s.flag u F.STSTAT_moving then .next s
  else live s ((s.updStep n (fun p => { p with coils := false })).setFlag u F.STSTAT_still true)

/-- STEP_LIMIT (R226): a loader limit input goes low; a move toward it stops, and at LDOUT_N STPOS is set to 0. -/
def execStepLimit (out : Bool) (s : State) : Out :=
  let u : UnitId := .stepper 4
  let t := s.setFlag u (if out then F.STSTAT_limout else F.STSTAT_limin) true
  let toward := s.flag u F.STSTAT_moving && (s.stp 4).dir == (if out then -1 else 1)
  let t := if toward then ((t.updStep 4 (fun p => { p with dir := 0 })).setFlag u F.STSTAT_moving false).raise u 3 else t
  live s (if out then (t.wr u F.STPOS_pos 0).updStep 4 (fun p => { p with frac := 0 }) else t)

/-! ### Voice coils -/

/-- VCCTRL_RETRACT (R229): the ramp starts. -/
def execVcctrlRetract (r : Requester) (n : Fin 16) (s : State) : Out :=
  live s (s.guardReg r (.vcm n) 0x40 2 (fun t => t.vcmRamp n))

/-- VCM_RAMP_DONE (R229): the output stands at VCSAFE and retract clears. -/
def execVcmRampDone (n : Fin 16) (s : State) : Out :=
  let u : UnitId := .vcm n
  if !s.flag u F.VCSTAT_ramping then .next s
  else
    let t := (s.setFlag u F.VCCTRL_retract false).setFlag u F.VCSTAT_ramping false
    live s (((t.wr u F.VCOUT_cmd (s.rd u F.VCSAFE_safe)).wr u F.VCSTAT_current (s.rd u F.VCSAFE_safe)))

/-- VCM_SAFE_HOLD_END (R229): after the ramp of a reset or an under-voltage fault, zero current. -/
def execVcmSafeHoldEnd (n : Fin 16) (s : State) : Out :=
  let u : UnitId := .vcm n
  if !s.safeHold || s.flag u F.VCSTAT_ramping then .next s
  else live s ((s.wr u F.VCOUT_cmd 0).wr u F.VCSTAT_current 0)

end Sys2Proof.Machine
end

