-- ==== Sys2Proof/Machine/Servo.lean ====
section
/-! DEFINITION. The servo commands: synthesisers (R144), wedge decoding (R182 to R185), servo conversions (R177 to R181),
comparators (R191), HSEQCMD (R193 to R197), the layer jump (R198), the reacquire timer (R199) and the kick-back (R104, R197). -/

namespace Sys2Proof.Machine

/-! ### Synthesisers -/

/-- SYNTH_LOCK (R144, R174): within 1/16 position over 1,024 marks; the mean phase error is shown. -/
def execSynthLock (h : Fin 4) (err : Int) (s : State) : Out :=
  if s.flag (.head h) F.HCLKSTAT_locked then .next s
  else live s ((s.wr (.head h) F.HCLKPHE_error (unsigned 16 err)).lockSynth h)

/-- SYNTH_LOST (R144, R185): the synthesiser loses the clock. -/
def execSynthLost (h : Fin 4) (s : State) : Out := live s (s.loseSynth h)

/-! ### Wedges -/

/-- The number of a Gray code of 12 bits. -/
def grayNum (c : Nat) : Nat := (List.range 12).foldl (fun n i => n ^^^ (c / 2 ^ i)) 0

/-- 4,096 (18 − Δ) ÷ 4 of four stripe distances in 1/256 of a position (R182), where the chevron decode is valid. -/
def chevron (dj : List Nat) : Option Nat :=
  let sum := dj.foldl (· + ·) 0
  if dj.length = 4 && decide (dj.foldl max 0 ≤ dj.foldl min 0xFFFFFFFF + 256) && decide (14336 < sum) && decide (sum ≤ 18432) then
    some (18432 - sum)
  else none

/-- The chevron period by continuity (R182): the one nearest to the last valid position; two equally near give none. -/
def nearestPeriod (f : Nat) (pos : Int) : Option Int :=
  if (pos - f) % 4096 = 2048 then none else some ((pos - f + 2048) / 4096)

/-- The position in 1/4,096 period (R182, R183). Where no wedge has yet been valid, n comes from the Gray code in its check
range. Beside it: whether the Gray check was made and failed. -/
def wedgePos (last : Option Int) (dj : List Nat) (gray : Nat) : Option Int × Bool :=
  match chevron dj with
  | none => (none, false)
  | some f =>
    let check := decide (1024 ≤ f) && decide (f ≤ 3072)
    match last with
    | none => if check then (some ((grayNum gray : Int) * 4096 + f), false) else (none, false)
    | some p =>
      match nearestPeriod f p with
      | none => (none, false)
      | some n => if check && n ≠ grayNum gray then (none, true) else (some (n * 4096 + f), false)

/-- 4P, P in 1/64 track pitch, of a position in 1/4,096 period (R182): P = (n − 128 + f) × 3,072. -/
def fourP (pos : Int) : Int := (pos - 128 * 4096) * 3

/-- 1,024 S of the tracking target (R184). -/
def targetS (out : Bool) (g w : Nat) (ofs : Int) : Int :=
  if out then ((g : Int) * 768 + ofs) * 1024 + 3 * (256 * w + 48 : Nat)
  else (((g : Int) + 1) * 768 + ofs) * 1024 - 3 * (256 * w + 48 : Nat)

/-- E = floor(P − S + 0.5), saturated to 24 bits (R184). -/
def trackError (p4 s1024 : Int) : Int :=
  clampInt (-8388608) 8388607 ((2 * (256 * p4 - s1024) + 1024) / 2048)

/-- The wedge number is accepted (R145): parity correct and one more than the last; after a loss, two that agree. -/
def numAccepted (d : HeadSt) (num : Nat) (parityOk : Bool) : Bool :=
  parityOk && (match d.num with
    | some n => num == (n + 1) % 1024
    | none => d.numCand == some ((num + 1023) % 1024))

/-- What one wedge shows: its number was accepted; a valid position was decoded; it is off track by more than HTRKLIM; the Gray code
contradicts the position, and now for the third time running, so that it anchors the count anew; the wedge number shown, the position in
1/4,096 period, the track error, and the position the Gray code gives. -/
structure Wedge where
  acc : Bool
  ok : Bool
  far : Bool
  mis : Bool
  anchor : Bool
  num : Nat
  pos : Int
  err : Int
  byGray : Int
deriving DecidableEq, Repr

/-- One wedge is decoded (R145, R182 to R185). -/
def State.wedge (s : State) (h : Fin 4) (num : Nat) (parityOk : Bool) (dj : List Nat) (gray : Nat) : Wedge :=
  let u : UnitId := .head h
  let d := s.hd h
  let acc := numAccepted d num parityOk
  let r := wedgePos d.pos dj gray
  let w := if acc then num else s.rd u F.HTRKERR_wedge
  let p := r.1.getD 0
  let e := trackError (fourP p) (targetS (outward (s.rd u F.HSEQSTAT_layer) h) (s.rd u F.HSEQSTAT_group) w
    (signed 16 (s.rd u F.HSVOFS_offset)))
  { acc := acc, ok := acc && r.1.isSome && s.flag u F.HCLKSTAT_locked, far := decide (s.rd u F.HTRKLIM_limit < e.natAbs), mis := r.2,
    anchor := r.2 && d.mism = 2, num := w, pos := p, err := e, byGray := (grayNum gray : Int) * 4096 + (chevron dj).getD 0 }

/-- What a head remembers of a wedge. -/
def HeadSt.sawWedge (d : HeadSt) (x : Wedge) (num : Nat) (parityOk : Bool) : HeadSt :=
  { d with
    num := if x.acc then some num else Option.none
    numCand := if parityOk then some num else Option.none
    pos := if x.anchor then some x.byGray else if x.ok then some x.pos else d.pos
    inv := if x.ok then 0 else d.inv + 1
    good := if x.ok && !x.far then min 64 (d.good + 1) else 0
    mism := if x.anchor then 0 else if x.mis then d.mism + 1 else if x.ok then 0 else d.mism }

/-- HTRKERR and HSVPOS after a wedge, and counter 161 (R184, R185). -/
def State.showWedge (s : State) (h : Fin 4) (x : Wedge) : State :=
  let u : UnitId := .head h
  let t := (s.setFlag u F.HTRKERR_valid x.ok).wr u F.HTRKERR_wedge x.num
  if x.ok then
    ((t.wr u F.HTRKERR_error (unsigned 16 (clampInt (-32767) 32767 x.err))).wr u F.HSVPOS_pos
      (unsigned 32 ((fourP x.pos + 2) / 4))).count (161 + 4 * h)
  else t

/-- The head tracks a group. -/
def State.tracks (s : State) (h : Nat) : Bool := s.hState h = hLocked || s.hState h = hHolding || s.hState h = hLeadin

/-- The write gate after a wedge (R199): off track, or two invalid wedges running. -/
def State.wedgeGate (s : State) (h : Fin 4) (x : Wedge) : State :=
  if (x.ok && x.far) || 2 ≤ (s.hd h).inv || !s.flag (.head h) F.HCLKSTAT_locked then s.offTrack h else s

/-- Track lock after a wedge (R199): lost on a count anchored anew, on eight invalid wedges, and beyond 384 units of error. -/
def State.wedgeLock (s : State) (h : Fin 4) (x : Wedge) (tracking : Bool) : State :=
  if tracking && (x.anchor || (s.hd h).inv = 8 || (x.ok && 384 < x.err.natAbs)) then s.trackLost h else s

/-- WEDGE_POSITION (R145, R182 to R185, R199): one wedge is decoded. -/
def execWedgePosition (h : Fin 4) (num : Fin 1024) (parityOk : Bool) (dj : List Nat) (gray : Nat) (s : State) : Out :=
  let x := s.wedge h num parityOk dj gray
  let t := (s.updHd h (fun d => d.sawWedge x num parityOk)).showWedge h x
  let t := if x.mis then t.raise (.head h) 5 else t
  live s (((t.wedgeGate h x).wedgeLock h x (s.tracks h)).refresh h)

/-! ### Servo ADCs -/

/-- The key of channel `c` of head `h`. -/
def chanKey (h c : Nat) : Nat := 6 * h + c

/-- The value field of a raw 12-bit code with its dither removed (R178, R179); the spec gives no value where the result leaves
12 bits. -/
def adcValue (raw : Nat) (d : Int) : Nat :=
  let v := signed 12 raw - d
  if -2048 ≤ v ∧ v ≤ 2047 then unsigned 12 v else Config.adcBeyond raw % 4096

/-- SERVO_CONVERSION_DONE (R177 to R181): the running conversion of a channel ends; its word goes to the slots that wait
(SLOT_DISPATCH reads it there) and to HADCLASTc, and the freeze detector counts identical raw codes. -/
def execServoConversionDone (h : Fin 4) (c : Fin 6) (raw : BitVec 12) (plus : Bool) (s : State) : Out :=
  let u : UnitId := .head h
  let cv := Tbl.look ⟨[], false⟩ (s.hd h).conv c
  if cv.slots.isEmpty then .next s
  else
    let dither := s.flag u (F.HADCCFG_dither c)
    let same := (s.hd h).raw.any (fun e => e.1 == c.val && e.2 == raw.toNat + 1)
    let run := if dither then (if same then min 64 (s.rd u (F.HADCSTAT_run c) + 1) else 1) else s.rd u (F.HADCSTAT_run c)
    let frozen := s.flag u (F.HADCSTAT_frozen c) || (dither && run == 64)
    let v := adcValue raw.toNat (if dither then (if plus then 1 else -1) else 0)
    let word (late : Bool) : Nat := v * 16 + b2n cv.hold * 8 + b2n late * 4 + b2n frozen * 2
    let t := (s.wr u (F.HADCSTAT_run c) run).wr u (F.HADCLAST_word c) (word false)
    let t := t.updHd h (fun d => { d with
      conv := Tbl.put ⟨[], false⟩ d.conv c ⟨[], false⟩
      raw := Tbl.put 0 d.raw c (raw.toNat + 1) })
    live s { t with adcIn := cv.slots.foldl (fun m x => Tbl.put 0 m (32 * x.1 + 8 * h.val + c.val) (65536 + word x.2)) t.adcIn }

/-- ADC_FREEZE_TRIP (R179, R191): the channel has held one raw code for 64 conversions. -/
def execAdcFreezeTrip (h : Fin 4) (c : Fin 6) (s : State) : Out :=
  let u : UnitId := .head h
  if s.flag u (F.HADCSTAT_frozen c) || s.rd u (F.HADCSTAT_run c) ≠ 64 then .next s
  else
    let t := ((s.setFlag u (F.HADCSTAT_frozen c) true).raise u 6).setFlt h 2
    live s (((t.dropHeadGates h 1).raise u 2).refresh h)

/-- A write of HADCCFG (R179). -/
def State.hadcCfg (t : State) (h : Nat) (c : Nat) (v : Nat) : State :=
    (t.storeReg (.head h) (0x80 + 4 * c) v).updHd h (fun d => { d with gainHold := Tbl.put 0 d.gainHold c 2 })

/-- HADCCFG_GAIN_WRITE (R180): the gain takes effect at the next conversion, and two conversions carry the hold tag. -/
def execHadccfgGainWrite (r : Requester) (h : Fin 4) (c : Fin 6) (v : Word) (s : State) : Out :=
  live s (s.guardReg r (.head h) (0x80 + 4 * c) v.toNat (fun t => t.hadcCfg h c v.toNat))

/-! ### Comparators -/

/-- The signal level `v` is below `n`/256 of the nominal value. -/
def State.below (s : State) (h : Nat) (lay : Bool) (n v : Nat) : Bool :=
  decide (v * 256 < n * s.rd (.head h) (if lay then F.HFSNOM_lfs else F.HFSNOM_fs))

/-- The comparator threshold in 1/256 of nominal (R191, R201). -/
def State.wgThr (s : State) (h : Nat) (lay : Bool) : Nat := 16 * s.rd (.head h) (if lay then F.HFSTHR_lwg else F.HFSTHR_wg)

/-- COMPARATOR_TRIP (R191): the level falls below its threshold while its focus is closed. -/
def execComparatorTrip (h : Fin 4) (lay : Bool) (level : Nat) (s : State) : Out :=
  let d := s.hd h
  let closed := if lay then d.layer else d.focus
  let latched := if lay then d.layTrip else d.refTrip
  if !closed || latched || !s.below h lay (s.wgThr h lay) level then .next s
  else
    let t := s.updHd h (fun d => if lay then { d with layTrip := true } else { d with refTrip := true })
    live s ((((t.setFlt h (if lay then 1 else 0)).dropHeadGates h 1).raise (.head h) 2).refresh h)

/-- COMPARATOR_RELEASE (R191): at a tray boundary the latch releases if the level stayed above the threshold plus the
hysteresis for the whole previous window; `level` is the lowest level of that window. -/
def execComparatorRelease (h : Fin 4) (lay : Bool) (level : Nat) (s : State) : Out :=
  let n := s.wgThr h lay + s.rd (.head h) F.HFSTHR_hyst
  let nom := s.rd (.head h) (if lay then F.HFSNOM_lfs else F.HFSNOM_fs)
  if n * nom < level * 256 then
    live s ((s.updHd h (fun d => if lay then { d with layTrip := false } else { d with refTrip := false })).refresh h)
  else .next s

/-! ### HSEQCMD -/

/-- The word of HSEQCMD for a command (R201). -/
def seqWord (cmd layer group : Nat) (pair : Bool) : Nat := b2n pair * 2 ^ 31 + cmd * 2 ^ 24 + layer * 2 ^ 16 + group

/-- A write of HSEQCMD that passes the checks of R54 to R57. -/
def State.seqWrite (s : State) (r : Requester) (h cmd layer group : Nat) (pair : Bool) : State :=
  s.guardReg r (.head h) 0x40 (seqWord cmd layer group pair) (fun t => t.seqCommand h cmd layer group pair)

/-- SEQ_ACQUIRE (R193, R194, R209). -/
def execSeqAcquire (r : Requester) (h : Fin 4) (pair : Bool) (layer : Fin 16) (group : Fin 16384) (s : State) : Out :=
  live s (s.seqWrite r h 1 layer group pair)

/-- SEQ_SEEK (R193, R195). -/
def execSeqSeek (r : Requester) (h : Fin 4) (pair : Bool) (layer : Fin 16) (group : Fin 16384) (s : State) : Out :=
  live s (s.seqWrite r h 2 layer group pair)

/-- SEQ_LAYER (R193, R196). -/
def execSeqLayer (r : Requester) (h : Fin 4) (pair : Bool) (layer : Fin 16) (group : Fin 16384) (s : State) : Out :=
  live s (s.seqWrite r h 3 layer group pair)

/-- SEQ_SEEK_LAYER (R193). -/
def execSeqSeekLayer (r : Requester) (h : Fin 4) (pair : Bool) (layer : Fin 16) (group : Fin 16384) (s : State) : Out :=
  live s (s.seqWrite r h 4 layer group pair)

/-- SEQ_HOLD (R193, R197). -/
def execSeqHold (r : Requester) (h : Fin 4) (pair : Bool) (layer : Fin 16) (group : Fin 16384) (s : State) : Out :=
  live s (s.seqWrite r h 5 layer group pair)

/-- SEQ_LEADIN (R193). -/
def execSeqLeadin (r : Requester) (h : Fin 4) (pair : Bool) (layer : Fin 16) (group : Fin 16384) (s : State) : Out :=
  live s (s.seqWrite r h 6 layer group pair)

/-- SEQ_RELEASE (R193, R199). -/
def execSeqRelease (r : Requester) (h : Fin 4) (pair : Bool) (layer : Fin 16) (group : Fin 16384) (s : State) : Out :=
  live s (s.seqWrite r h 7 layer group pair)

/-- SEQ_STEP_TIMEOUT (R194 to R196, R209): the step exceeds its bound. A step of a clock take leaves the next head to it
with CLOCK_TAKE_DONE. -/
def execSeqStepTimeout (h : Fin 4) (s : State) : Out :=
  let d := s.hd h
  if d.seq = 0 || d.step = 0 || d.body then .next s else live s (s.failSeq h (stepFailure d.step))

/-! ### Layer jump, reacquire, kick-back -/

/-- LAYER_JUMP_AUTO (R196, R198, R225): the heads with autojump start for the next layer, whose first group stands where they are;
the sled gearing of automatic channels goes to zero. -/
def execLayerJumpAuto (s : State) : Out :=
  let l := s.rd (.head 0) F.HSEQSTAT_layer
  let hs := (List.range 4).filter (fun h => s.flag (.head h) F.HSVCFG_autojump &&
    (s.hState h == hLocked || s.hState h == hHolding))
  if hs.isEmpty || 15 ≤ l then .next s
  else
    let t := hs.foldl (fun t h =>
      ((((t.setHState h hJumping).updHd h (fun d => { d with jump := 1, layer := false, layTrip := false })).beginSeq h 11 7
        hHolding (groupOf (94208 * (l + 1)) h) (l + 1) false).wr (.head h) F.HSEQSTAT_group
        (groupOf (94208 * (l + 1)) h))) s
    let t := (List.range 4).foldl (fun t n =>
      if t.flag (.stepper n) F.STGCFG_auto then t.wr (.stepper n) F.STSTAT_gsign 0 else t) t
    live s (t.count 156)

/-- LAYER_JUMP_TIMEOUT (R198): the head ends the jump in fault, and a partner that waits reports ready alone. -/
def execLayerJumpTimeout (h : Fin 4) (s : State) : Out :=
  let d := s.hd h
  if d.jump ≠ 1 || d.seq ≠ 11 then .next s
  else
    let p := partner h
    let t := (s.seqFault h (if d.step = 7 then 3 else 2)).updHd h (fun d => { d with jump := 3 })
    live s (if (s.hd p).jump = 2 then (t.updHd p (fun d => { d with jump := 0 })).seqDone p hHolding else t)

/-- FOCUS_REACQUIRE_TIMER (R199): 50 ms after a focus loss the sequencer acquires again, or with no retry left the head is in
fault. -/
def execFocusReacquireTimer (h : Fin 4) (s : State) : Out :=
  let d := s.hd h
  if !d.wait then .next s
  else if d.retries < s.rd (.head h) F.HSVCFG_retries then
    live s ((s.updHd h (fun d => { d with retries := d.retries + 1 })).beginAcquire h 12
      (s.rd (.head h) F.HSEQSTAT_group) (s.rd (.head h) F.HSEQSTAT_layer) false)
  else live s (s.seqFault h 3)

/-- The group of the next tray position to be written, for a head that stands on its layer (R197). -/
def State.heldGroup (s : State) (h : Nat) : Nat :=
  let T := s.rd .tray F.TBPOS_pointer
  if layerOf T = s.rd (.head h) F.HSEQSTAT_layer then groupOf T h else s.rd (.head h) F.HSEQSTAT_group

/-- HOLD_KICKBACK (R104, R197): at the index a head that holds position advances into the held group if that is the next
one, else steps back by one group pitch and stays on its group. -/
def execHoldKickback (h : Fin 4) (s : State) : Out :=
  if s.hState h = hHolding || (s.hState h = hLocked && s.flag .tray F.TBSTAT_holding) then
    live s (s.wr (.head h) F.HSEQSTAT_group (s.heldGroup h))
  else .next s

end Sys2Proof.Machine
end

