-- ==== Sys2Proof/Machine/Loop.lean ====
section
/-! DEFINITION. The loop engine: sample instants (R240 to R242), dispatch, preemption and repeats (R237, R238, R244), faults and
their actions (R245), configuration (R246, R247, R254, R255, R264 to R266), tuning and capture (R258 to R261), memory
errors (R267) and the engine's load (R264). -/

namespace Sys2Proof.Machine

/-! ### Outputs (R243) -/

/-- The binding of output port `j`: kind and index. -/
def State.outPort (s : State) (n j : Nat) : Nat × Nat :=
  let v := s.rd (.slot n) (if j = 0 then F.SLOUT_o0 else F.SLOUT_o1)
  (v / 256, v % 256)

/-- A current command for a voice coil (R228): clamped to VCLIM; a driver disabled, ramping or in fault takes none. -/
def State.driveVcm (s : State) (i : Nat) (c : Int) : State :=
  let u : UnitId := .vcm i
  if !s.flag u F.VCCTRL_enable || s.flag u F.VCSTAT_ramping || s.flag u F.VCSTAT_open || s.flag u F.VCSTAT_short then s
  else
    let lim : Int := s.rd u F.VCLIM_limit
    let v := clampInt (-lim) lim c
    let t := (s.wr u F.VCOUT_cmd (unsigned 16 v)).setFlag u F.VCSTAT_atlimit (v != c)
    if v ≠ c then t.raise u 3 else t

/-- The duty of a fan command (R243): value ÷ 2^23 in steps of 1/1,024. -/
def fanDuty (v : Int) : Nat := if v ≤ 0 then 0 else v.toNat / 8192

/-- Apply a 24-bit value to an output port (R243): its kind decides where it goes. -/
def State.applyOut (s : State) (n j : Nat) (v : Int) : State :=
  let t := s.wr (.slot n) (if j = 0 then F.SLOUTV0_o0 else F.SLOUTV1_o1) (unsigned 24 v)
  let p := s.outPort n j
  let top := (unsigned 24 v) / 256
  match p.1 with
  | 1 => t.driveVcm p.2 (signed 16 top)
  | 2 => { t with dac := Tbl.put 0 t.dac (2 * p.2) (unsigned 24 v / 4096) }
  | 3 => { t with dac := Tbl.put 0 t.dac (2 * p.2 + 1) (unsigned 24 v / 4096) }
  | 4 => t.wr .spindle F.SPTCMD_torque top
  | 5 => t.stFollow p.2 top
  | 6 =>
    let u := t.wr .fan F.FNDUTY_cmd (fanDuty v)
    if u.flag .fan F.FNSTAT_forced then u else u.wr .fan F.FNDUTY_applied (fanDuty v)
  | _ => t

/-- The last value of an output, signed. -/
def State.lastOut (s : State) (n j : Nat) : Int := signed 24 (s.rd (.slot n) (if j = 0 then F.SLOUTV0_o0 else F.SLOUTV1_o1))

/-- The last values of a slot's outputs of kinds other than 5 are applied again (R244). -/
def State.reapply (s : State) (n : Nat) : State :=
  [0, 1].foldl (fun t j => if (t.outPort n j).1 = 5 || (t.outPort n j).1 = 7 then t else t.applyOut n j (t.lastOut n j)) s

/-- EBSTAT.busy shows a lane. -/
def State.setBusy (s : State) (lane : Nat) (b : Bool) : State :=
  let m := s.rd .engine F.EBSTAT_busy
  s.wr .engine F.EBSTAT_busy (if b then m ||| 2 ^ lane else if bitOf m lane then m - 2 ^ lane else m)

/-! ### Faults (R245) -/

/-- The open value of o0 (R245). -/
def State.openValue (s : State) (n : Nat) : Int :=
  (sat24 (rnd ((s.slot n).ff * signed 24 (s.rd (.slot n) F.SLFFK_k) * (2 ^ s.rd (.slot n) F.SLFFK_sh : Nat)) 23)).1

/-- One output under the open action. -/
def State.openOut (s : State) (n j : Nat) : State :=
  if (s.outPort n j).1 = 5 then s else s.applyOut n j (if j = 0 then s.openValue n else 0)

/-- The outputs and the context take the action of SLCTRL.action, 3 acting as 0 (R245). -/
def State.slotAction (s : State) (n : Nat) : State :=
  let a := s.rd (.slot n) F.SLCTRL_action
  let clear (t : State) : State := t.updSlot n (fun p => { p with now := { p.now with a := [] }, last := { p.last with a := [] } })
  match a with
  | 1 => clear ((s.openOut n 0).openOut n 1)
  | 2 => clear ([0, 1].foldl (fun t j =>
      if (t.outPort n j).1 = 1 then t.vcmRamp (t.outPort n j).2 else t.openOut n j) s)
  | _ => s

/-- What the fault of a stock slot means for its head (R199, R262). -/
def State.stockFault (s : State) (n cause : Nat) : State :=
  if n < 4 then s.focusLost n
  else if n < 8 then s.trackLost (n - 4)
  else if n < 12 then
    (if cause = 2 then (s.updHd (n - 8) (fun d => { d with tilt := false })).refresh (n - 8) else s.tiltLimit (n - 8))
  else if n < 16 then s.layerLost (n - 12)
  else if 64 ≤ n && n < 68 then s.svLaser (n - 64)
  else if 69 ≤ n && n < 73 then s.trackLost (n - 69)
  else s

/-- A slot enters fault with a cause (R245, R268). -/
def State.slotFault (s : State) (n cause : Nat) : State :=
  let t := match (s.slot n).lane with
    | some l => s.setBusy l false
    | none => s
  let t := (t.wr (.slot n) F.SLSTAT_state 4).wr (.slot n) F.SLSTAT_cause cause
  let t := (t.wr (.slot n) F.USTAT_state 5).updSlot n (fun p => { p with
    due := false, wait := [], lane := none, last := p.now })
  ((t.raise (.slot n) 1).slotAction n).stockFault n cause

/-! ### Sample instants -/

/-- The binding of input port `i`: kind and index. -/
def State.inPort (s : State) (n i : Nat) : Nat × Nat :=
  let f := match i with
    | 0 => F.SLIN01_i0 | 1 => F.SLIN01_i1 | 2 => F.SLIN23_i2 | 3 => F.SLIN23_i3 | 4 => F.SLIN45_i4 | _ => F.SLIN45_i5
  let v := s.rd (.slot n) f
  (v / 256, v % 256)

/-- The value latched by a port at the sample instant (R242). Monitors, setpoints, the speed profile and the collimator base are
measured or derived outside and come as `ext`. -/
def State.portValue (s : State) (k ix : Nat) (ext : Int) : Int :=
  match k with
  | 2 => signed 16 (s.rd (.head ix) F.HTRKERR_error)
  | 6 => s.lastOut (ix / 2) (ix % 2)
  | 7 => (s.rd .spindle F.SPSPEED_speed : Nat) * 16
  | 9 =>
    let h := ix / 2
    let thr := if ix % 2 = 0 then s.rd (.head h) F.HFSTHR_loss * s.rd (.head h) F.HFSNOM_fs
      else s.rd (.head h) F.HFSTHR_lloss * s.rd (.head h) F.HFSNOM_lfs
    ((thr / 16 * 4096 : Nat) : Int)
  | 10 => signed 16 (s.rd .thermal (F.THDIE_temp ix)) * 4096
  | 11 => (s.rd .vmot F.VMVOLT_volt * 512 : Nat)
  | 12 => (s.rd .fan F.FNTACH_rpm * 256 : Nat)
  | 14 => signed 8 (s.rd (.head (ix / 2)) (if ix % 2 = 0 then F.HOFFSET_tilt else F.HOFFSET_focus)) * 65536
  | 3 | 4 | 5 | 8 | 13 => ext
  | _ => 0

/-- The feed-forward value of a slot (R257): profiles come as `prof`. -/
def State.ffValue (s : State) (n : Nat) (prof : Int) : Int :=
  match s.rd (.slot n) F.SLFF_src with
  | 1 => (s.rd .vmot F.VMVOLT_volt * 8388608 / 16000 : Nat)
  | 2 | 3 | 4 => prof
  | _ => 0

/-- The region variable (R253) and the region. -/
def State.regionOf (s : State) (n : Nat) : Nat :=
  let u : UnitId := .slot n
  let h := s.rd u F.SLRATE_head
  let thr (i : Nat) : Nat := s.rd u (F.SLREGBRK_thr (i / 4)) / 256 ^ (i % 4) % 256
  let count (m : Nat) (v : Nat) : Nat := ((List.range m).filter (fun i => decide (thr i ≤ v))).length
  let zone := zoneOfGroup (s.rd (.head h) F.HSEQSTAT_group)
  match s.rd u F.SLREGCFG_src with
  | 1 => count 15 zone
  | 2 => count 15 (s.rd (.head h) F.HSEQSTAT_layer)
  | 3 => count 15 (s.rd .spindle F.SPSTAT_speed)
  | 4 =>
    let v := signed 16 (s.rd .thermal (F.THDIE_temp 1)) / 16
    ((List.range 15).filter (fun i => decide (signed 8 (thr i) ≤ v))).length
  | 5 => 8 * s.rd .spindle F.SPSTAT_speed + count 7 zone
  | _ => 0

/-- The ports of a slot that are servo ADC channels: their indices 8h + c. -/
def State.adcPorts (s : State) (n : Nat) : List Nat :=
  ((List.range 6).filterMap (fun i => let p := s.inPort n i; if p.1 = 1 then some p.2 else none)).eraseDups

/-- A slot triggers a conversion (R177, R180, R181): one that arrives in the cycle that started the running conversion shares it;
a later one is late and counts as an overrun. -/
def State.trigger (s : State) (n ch : Nat) (same : Bool) : State :=
  let h := ch / 8
  let c := ch % 8
  let d := s.hd h
  let cv := Tbl.look ⟨[], false⟩ d.conv c
  if cv.slots.isEmpty then
    let g := Tbl.look 0 d.gainHold c
    s.updHd h (fun d => { d with
      conv := Tbl.put ⟨[], false⟩ d.conv c ⟨[(n, false)], decide (0 < g)⟩
      gainHold := Tbl.put 0 d.gainHold c (g - 1) })
  else
    let t := s.updHd h (fun d => { d with
      conv := Tbl.put ⟨[], false⟩ d.conv c { cv with slots := cv.slots ++ [(n, !same)] } })
    if same then t else ((t.incSat (.head h) (F.HADCSTAT_overruns c)).raise (.head h) 7).setFlt h 3

/-- Tick or wedge `k` is a sample instant of the slot (R240). -/
def State.isDue (s : State) (n k : Nat) : Bool :=
  let d := max 1 (s.rd (.slot n) F.SLRATE_div)
  k % d == s.rd (.slot n) F.SLRATE_phase % d

/-- The tick count shown by EBTICK (R264). -/
def State.showTick (s : State) (n k : Nat) : State :=
  if s.flag (.slot n) F.SLRATE_src then s else s.wr .engine F.EBTICK_ticks k

/-- SLOT_SAMPLE_INSTANT (R181, R240 to R242, R245, R253, R257): tick or wedge `k` of the slot's source. -/
def execSlotSampleInstant (n : Fin 96) (k : Nat) (ext : List Int) (prof : Int) (same : Bool) (s : State) : Out :=
  let p := s.slot n
  let st := s.slState n
  if !s.flag .engine F.EBCTRL_enable || !s.flag (.slot n) F.SLCTRL_run || st = 0 || !s.isDue n k then .next s
  else
    let s := s.showTick n k
    if st ≠ 4 && p.due then live s (((s.incWrap (.slot n) F.SLMISCNT_count).count 177).raise (.slot n) 3)
    else
      let chans := s.adcPorts n
      let t := chans.foldl (fun t ch => t.trigger n ch same) s
      if st = 4 then live s t
      else
        let ins := (List.range 6).map (fun i => let q := s.inPort n i; s.portValue q.1 q.2 ((ext[i]?).getD 0))
        let invalid := (List.range 6).any (fun i => let q := s.inPort n i; q.1 == 2 && !s.flag (.head q.2) F.HTRKERR_valid)
        let t := t.wr (.slot n) F.SLSTAT_region (s.regionOf n)
        let t : State := { t with adcIn := chans.foldl (fun m ch => Tbl.put 0 m (32 * n.val + ch) 0) t.adcIn }
        live s (t.updSlot n (fun p => { p with
          due := true
          wait := chans
          ins := ins.map (unsigned 24)
          tags := if invalid then 2 else 0
          ff := s.ffValue n prof
          ns := s.time.ns }))

/-! ### Coefficients -/

/-- A coefficient word in force (R252). -/
def State.coefWord (s : State) (n i : Nat) : Nat := Tbl.look 0 s.coefs (256 * n + i)

/-- The coefficient an index reads (R252), signed. -/
def State.coef (s : State) (n c : Nat) : Int :=
  signed 24 (s.coefWord n (if s.flag (.slot n) F.SLCTRL_cmode then 64 * s.rd (.slot n) F.SLBANK_active + c
    else 16 * s.rd (.slot n) F.SLSTAT_region + c))

/-- What waits for a sample start applies (R254, R255, R258): coefficient writes, a bank swap, the end of a tuning helper. -/
def State.sampleStart (s : State) (n : Nat) : State :=
  let p := s.slot n
  let t : State := { s with coefs := p.cpend.foldl (fun m w => Tbl.put 0 m (256 * n + w.1) w.2) s.coefs }
  let t := if t.flag (.slot n) F.SLBANK_swap then
      (t.wr (.slot n) F.SLBANK_active (1 - t.rd (.slot n) F.SLBANK_active)).setFlag (.slot n) F.SLBANK_swap false
    else t
  let ends := match p.tune with
    | some m => m.ending
    | none => false
  let t := if ends then (t.wr (.slot n) F.SLTUNE_mode 0).setFlag (.slot n) F.SLSTAT_tuning false else t
  t.updSlot n (fun p => { p with cpend := [], tune := if ends then none else p.tune })

/-! ### Tuning (R258 to R261) -/

/-- The value of the input port that SLTUNE.cin names, 6 and 7 acting as 0. -/
def State.tuneIn (s : State) (n : Nat) : Int :=
  let c := s.rd (.slot n) F.SLTUNE_cin
  signed 24 (((s.slot n).ins[if 6 ≤ c then 0 else c]?).getD 0)

/-- SLTUNEA. -/
def State.tuneAmp (s : State) (n : Nat) : Int := (s.rd (.slot n) F.SLTUNEA_amp : Nat)

/-- The relay at a sample start (R259). -/
def State.relayStart (s : State) (n : Nat) (m : Tune) : Tune :=
  let e := s.tuneIn n
  let h : Int := (s.rd (.slot n) F.SLTUNEF_inc0 * 256 : Nat)
  let plus := if e < -h then true else if h < e then false else m.plus
  let up := plus && !m.plus && 0 < m.k
  let sw := if up then m.switches + 1 else m.switches
  { m with
    plus := plus
    switches := sw
    since := if plus != m.plus then 0 else m.since + 1
    first := if up && sw = 3 then m.k else m.first
    last := if up then m.k else m.last
    lo := if sw < 3 || (up && sw = 3) then e else min m.lo e
    hi := if sw < 3 || (up && sw = 3) then e else max m.hi e
    k := m.k + 1
    q := if plus then s.tuneAmp n else -(s.tuneAmp n) }

/-- The sine of phase φ with amplitude A (R260): exact at the quarters; the spec states no rounding elsewhere. -/
def sineOf (a : Int) (phi : Nat) : Int :=
  if phi % 65536 = 0 || phi % 65536 = 32768 then 0
  else if phi % 65536 = 16384 then a
  else if phi % 65536 = 49152 then -a
  else Config.sineSample a (phi % 65536)

/-- A sine or chirp at a sample start (R260). -/
def State.sineStart (s : State) (n : Nat) (m : Tune) : Tune :=
  let i0 : Int := s.rd (.slot n) F.SLTUNEF_inc0
  let i1 : Int := s.rd (.slot n) F.SLTUNEF_inc1
  let len : Int := s.rd (.slot n) F.SLCAPLEN_len
  let inc : Int := if m.mode = 3 && len ≠ 0 then i0 + (i1 - i0) * m.k / len else i0
  { m with q := sineOf (s.tuneAmp n) m.phase, phase := unsigned 16 (m.phase + inc), k := m.k + 1 }

/-- PRBS at a sample start (R260): x^15 + x^14 + 1, a new bit every SLTUNE.count + 1 samples. -/
def State.prbsStart (s : State) (n : Nat) (m : Tune) : Tune :=
  let bit := bitOf m.prbs 14 != bitOf m.prbs 13
  let next := m.prbs * 2 % 32768 + b2n bit
  let r := if m.hold = 0 then next else m.prbs
  let a := s.tuneAmp n
  { m with
    prbs := r
    hold := if m.hold = 0 then s.rd (.slot n) F.SLTUNE_count else m.hold - 1
    k := m.k + 1
    q := if bitOf r 0 == Config.prbsPlus then a else -a }

/-- The tuning helper at a sample start. -/
def State.tuneStart (s : State) (n : Nat) : State :=
  match (s.slot n).tune with
  | none => s
  | some m =>
    let m' := if m.mode = 1 then s.relayStart n m else if m.mode = 4 then s.prbsStart n m else s.sineStart n m
    s.updSlot n (fun p => { p with tune := some m' })

/-- The capture record of a sample (R261). -/
def State.capture (s : State) (n : Nat) : State :=
  let p := s.slot n
  match p.tune with
  | none => s
  | some m =>
    let len := s.rd (.slot n) F.SLCAPLEN_len
    if len = 0 || len ≤ p.captured then s
    else
      let t := s.updSlot n (fun p => { p with captured := p.captured + 1 })
      if p.capLost then (t.incSat (.slot n) F.SLCAPCNT_lost).raise (.slot n) 7
      else
        let base := s.rd (.slot n) F.SLCAPHI_base * 2 ^ 32 + s.rd (.slot n) F.SLCAPLO_base * 64
        let rec_ := leBytes 4 p.ns ++ leBytes 4 (unsigned 32 m.q) ++ leBytes 4 (unsigned 32 (s.tuneIn n)) ++
          leBytes 4 (unsigned 32 (s.lastOut n 0))
        (t.engineStore (base + 16 * p.captured) rec_).incWrap (.slot n) F.SLCAPCNT_written

/-! ### Dispatch -/

/-- SLCTRL.class, 3 acting as 2 (R266). -/
def State.slClass (s : State) (n : Nat) : Nat := min 2 (s.rd (.slot n) F.SLCTRL_class)

/-- A slot is eligible (R237): due, its words delivered, waiting or preempted. -/
def State.eligible (s : State) (n : Nat) : Bool :=
  let p := s.slot n
  p.due && (s.slState n == 1 || s.slState n == 3) &&
  p.wait.all (fun ch => Tbl.look 0 s.adcIn (32 * n + ch) != 0)

/-- Slot `n` may run on a lane (R236). -/
def State.mayRun (s : State) (n lane : Nat) : Bool := s.slClass n != 0 || s.rd (.slot n) F.SLCTRL_lane == lane

/-- The first eligible slot a lane may run: by class, then by number (R62, R237). -/
def State.firstEligible (s : State) (lane : Nat) : Option Nat :=
  [0, 1, 2].findSome? (fun c => (List.range 96).find? (fun n => s.slClass n == c && s.eligible n && s.mayRun n lane))

/-- The slot that executes on a lane. -/
def State.onLane (s : State) (lane : Nat) : Option Nat :=
  (List.range 96).find? (fun n => (s.slot n).lane == some lane)

/-- The end of a sample: the slot waits for the next, or is stopped (R246). -/
def State.endSample (s : State) (n : Nat) : State :=
  let p := s.slot n
  let t := match p.lane with
    | some l => s.setBusy l false
    | none => s
  let t := t.capture n
  let t := t.updSlot n (fun p => { p with due := false, wait := [], lane := none, last := p.now, capLost := false, stopping := false })
  if p.stopping then (t.wr (.slot n) F.SLSTAT_state 0).wr (.slot n) F.USTAT_state 0 else t.wr (.slot n) F.SLSTAT_state 1

/-- The tags of a slot's inputs (R244): 0 none, 1 repeat, 2 frozen. -/
def State.inputTags (s : State) (n : Nat) : Nat :=
  let p := s.slot n
  let words := p.wait.map (fun ch => Tbl.look 0 s.adcIn (32 * n + ch))
  if words.any (fun w => bitOf w 1) then 2
  else if bitOf p.tags 1 || words.any (fun w => bitOf w 2 || bitOf w 3) then 1 else 0

/-- The words of the servo ADC ports are latched (R242): the value field × 2^12. -/
def State.latchAdc (s : State) (n : Nat) : State :=
  s.updSlot n (fun p => { p with
    ins := (p.ins.zipIdx).map (fun v =>
      let q := s.inPort n v.2
      if q.1 = 1 then Tbl.look 0 s.adcIn (32 * n + q.2) % 65536 / 16 * 4096 else v.1) })

/-- A memory error that a slot's sample meets (R267): kind 0 microcode, 1 coefficient, 2 context; whether both copies fail; and the
word. -/
def State.parity (s : State) (n kind : Nat) (fail : Bool) (addr : Nat) : State :=
  if kind = 2 then s.slotFault n 5
  else if fail then
    (((s.wr .engine F.EBPARFAIL_mem kind).wr .engine F.EBPARFAIL_addr addr).raise .engine 2).slotFault n 5
  else (s.incSat .engine (if kind = 0 then F.EBPARCNT_code else F.EBPARCNT_coef)).raise .engine 1

/-- A slot starts its sample on a lane (R244): it faults on a frozen input, repeats on a tagged one, or runs its program. -/
def State.startSample (s : State) (n lane : Nat) : State :=
  let t := ((s.latchAdc n).sampleStart n).tuneStart n
  match s.inputTags n with
  | 2 => t.slotFault n 2
  | 1 => (((t.reapply n).incWrap (.slot n) F.SLREPCNT_count).count 176).endSample n
  | _ =>
    ((t.wr (.slot n) F.SLSTAT_state 2).setBusy lane true).updSlot n (fun p => { p with pc := 0, cyc := 0, lane := some lane })

/-- SLOT_DISPATCH (R236 to R238, R244, R261, R267): a free lane takes the first eligible slot; a fast slot preempts a medium or slow
one on its lane. -/
def execSlotDispatch (lane : Fin 4) (par : Option (Fin 3 × Bool × Nat)) (capLost : Bool) (s : State) : Out :=
  if !s.flag .engine F.EBCTRL_enable then .next s
  else
    match s.firstEligible lane with
    | none => .next s
    | some n =>
      let go (t : State) : State :=
        let t := t.updSlot n (fun p => { p with capLost := capLost })
        if s.slState n = 3 then
          ((t.wr (.slot n) F.SLSTAT_state 2).setBusy lane true).updSlot n (fun p => { p with lane := some lane.val })
        else
          let t := t.startSample n lane
          match par with
          | some e => t.parity n e.1 e.2.1 e.2.2
          | none => t
      match s.onLane lane with
      | none => live s (go s)
      | some m =>
        if s.slClass n = 0 && s.slClass m ≠ 0 then
          live s (go ((s.wr (.slot m) F.SLSTAT_state 3).updSlot m (fun p => { p with lane := none })))
        else .next s

/-! ### Configuration -/

/-- A slot takes configuration writes (R247). -/
def State.cfgOpen (s : State) (n : Nat) : Bool := s.slState n == 0 || s.slState n == 4

/-- The run bit of an SLCTRL write (R246). -/
def State.runBit (s : State) (n : Nat) (b : Bool) : State :=
  let old := s.flag (.slot n) F.SLCTRL_run
  if b && !old then s.slotStart n else if !b && old then s.slotStop n else s

/-- A write of SLCTRL (R246, R247): the other fields only while stopped or in fault. -/
def State.slCtrl (s : State) (n v : Nat) : State :=
  let run := s.flag (.slot n) F.SLCTRL_run
  let t := if s.cfgOpen n then (s.storeReg (.slot n) 0x40 v).setFlag (.slot n) F.SLCTRL_run run else s.raise (.slot n) 4
  t.runBit n (bitOf v 0)

/-- SLOT_RUN_WRITE (R246, R247): a write of SLCTRL. -/
def execSlotRunWrite (r : Requester) (n : Fin 96) (v : Word) (s : State) : Out :=
  live s (s.guardReg r (.slot n) 0x40 v.toNat (fun t => t.slCtrl n v.toNat))

/-- The configuration registers of R247 beside SLCTRL and SLXDATA. -/
def isSlotConfig (o : Nat) : Bool := 0x44 ≤ o && o ≤ 0x74

/-- A port binding names a kind that exists (R242, R243, R247). -/
def bindingOk (o v : Nat) : Bool :=
  let k0 := bits v 8 5
  let k1 := bits v 24 5
  if o = 0x58 then decide (k0 ≤ 7) && decide (k1 ≤ 7)
  else if 0x4C ≤ o && o ≤ 0x54 then decide (k0 ≤ 14) && decide (k1 ≤ 14) else true

/-- A write of a configuration register (R247). -/
def State.slConfig (s : State) (n o v : Nat) : State :=
  if s.cfgOpen n && bindingOk o v then s.storeReg (.slot n) o v else s.raise (.slot n) 4

/-- SLOT_CONFIG_WRITE (R247): SLRATE to SLREGBRK3. -/
def execSlotConfigWrite (r : Requester) (n : Fin 96) (i : Fin 13) (v : Word) (s : State) : Out :=
  live s (s.guardReg r (.slot n) (0x44 + 4 * i) v.toNat (fun t => t.slConfig n (0x44 + 4 * i) v.toNat))

/-- A write of SLCDATA (R254). -/
def State.slCdata (s : State) (n v : Nat) : State :=
  let u : UnitId := .slot n
  let i := s.rd u F.SLCSEL_index
  let w := (i, v % 2 ^ 24)
  if s.flag u F.SLCSEL_batch then
    if 16 ≤ (s.slot n).batch.length then s.raise u 4
    else (s.updSlot n (fun p => { p with batch := p.batch ++ [w] })).wr u F.SLCSEL_index (i + 1)
  else (s.updSlot n (fun p => { p with cpend := p.cpend ++ [w] })).wr u F.SLCSEL_index (i + 1)

/-- SLCDATA_WRITE (R254). -/
def execSlcdataWrite (r : Requester) (n : Fin 96) (v : Word) (s : State) : Out :=
  live s (s.guardReg r (.slot n) 0xC4 v.toNat (fun t => t.slCdata n v.toNat))

/-- A write of SLCSEL (R254): batch written 0 lets the held writes apply at the next sample start. -/
def State.slCsel (s : State) (n v : Nat) : State :=
  let t := s.storeReg (.slot n) 0xC0 v
  if t.flag (.slot n) F.SLCSEL_batch then t
  else t.updSlot n (fun p => { p with cpend := p.cpend ++ p.batch, batch := [] })

/-- SLCSEL_WRITE (R254). -/
def execSlcselWrite (r : Requester) (n : Fin 96) (v : Word) (s : State) : Out :=
  live s (s.guardReg r (.slot n) 0xC0 v.toNat (fun t => t.slCsel n v.toNat))

/-- A write of 1 to SLBANK.swap (R255): at once while the slot is stopped or in fault. -/
def State.bankSwap (s : State) (n : Nat) : State :=
  if s.cfgOpen n then s.wr (.slot n) F.SLBANK_active (1 - s.rd (.slot n) F.SLBANK_active)
  else s.setFlag (.slot n) F.SLBANK_swap true

/-- SLBANK_SWAP (R255). -/
def execSlbankSwap (r : Requester) (n : Fin 96) (s : State) : Out :=
  live s (s.guardReg r (.slot n) 0x78 2 (fun t => t.bankSwap n))

/-- A write of SLTUNE (R258). -/
def State.slTune (s : State) (n v : Nat) : State :=
  let u : UnitId := .slot n
  let mode := if 5 ≤ v % 8 then 0 else v % 8
  match (s.slot n).tune with
  | some _ =>
    if mode = 0 then s.updSlot n (fun p => { p with tune := p.tune.map (fun m => { m with ending := true }) })
    else s.raise u 4
  | none =>
    let t := s.storeReg u 0x7C v
    if mode = 0 then t
    else
      let running := 1 ≤ s.slState n && s.slState n ≤ 3
      let t := (t.wr u F.SLCAPCNT_lost 0).wr u F.SLCAPCNT_written 0
      if running then
        (t.setFlag u F.SLSTAT_tuning true).updSlot n (fun p => { p with
          captured := 0
          tune := some ⟨mode, false, 0, 0, 0x7FFF, 0, true, 0, 0, 0, 0, 0, 0, 0⟩ })
      else t

/-- A write of SLTUNE that passes the checks of R54 to R57. -/
def State.tuneWrite (s : State) (r : Requester) (n : Nat) (v mode : Nat) : State :=
  s.guardReg r (.slot n) 0x7C (v / 8 * 8 + mode) (fun t => t.slTune n (v / 8 * 8 + mode))

/-- TUNE_RELAY (R258, R259). -/
def execTuneRelay (r : Requester) (n : Fin 96) (v : Word) (s : State) : Out := live s (s.tuneWrite r n v.toNat 1)

/-- TUNE_SINE (R258, R260). -/
def execTuneSine (r : Requester) (n : Fin 96) (v : Word) (s : State) : Out := live s (s.tuneWrite r n v.toNat 2)

/-- TUNE_CHIRP (R258, R260). -/
def execTuneChirp (r : Requester) (n : Fin 96) (v : Word) (s : State) : Out := live s (s.tuneWrite r n v.toNat 3)

/-- TUNE_PRBS (R258, R260). -/
def execTunePrbs (r : Requester) (n : Fin 96) (v : Word) (s : State) : Out := live s (s.tuneWrite r n v.toNat 4)

/-- TUNE_OFF (R258). -/
def execTuneOff (r : Requester) (n : Fin 96) (v : Word) (s : State) : Out := live s (s.tuneWrite r n v.toNat 0)

/-- The other tuning and capture registers take writes only while the mode is 0 (R258). -/
def State.tuneReg (s : State) (n o v : Nat) : State :=
  if (s.slot n).tune.isSome then s.raise (.slot n) 4 else s.storeReg (.slot n) o v

/-- The helper's mode returns to 0. -/
def State.tuneEnd (s : State) (n : Nat) : State :=
  ((s.wr (.slot n) F.SLTUNE_mode 0).setFlag (.slot n) F.SLSTAT_tuning false).updSlot n (fun p => { p with tune := none })

/-- SLOT_TUNEDONE (R259): the periods are measured, or no switch came for 4,096 samples. -/
def execSlotTunedone (n : Fin 96) (s : State) : Out :=
  let u : UnitId := .slot n
  match (s.slot n).tune with
  | none => .next s
  | some m =>
    let c := s.rd u F.SLTUNE_count
    if m.mode ≠ 1 then .next s
    else if 4096 ≤ m.since then live s (((s.wr u F.SLRLYPER_period 0).tuneEnd n).raise u 5)
    else if m.switches < 3 + c then .next s
    else
      let per : Nat := if c = 0 then Config.relayNoPeriod else 16 * (m.last - m.first) / c
      live s ((((s.wr u F.SLRLYPER_period per).wr u F.SLRLYAMP_amp (unsigned 24 ((m.hi - m.lo) / 2))).tuneEnd n).raise u 5)

/-- SLOT_CAPDONE (R261): SLCAPLEN samples have been captured. -/
def execSlotCapdone (n : Fin 96) (s : State) : Out :=
  let u : UnitId := .slot n
  let len := s.rd u F.SLCAPLEN_len
  if (s.slot n).tune.isNone || len = 0 || (s.slot n).captured < len then .next s
  else live s ((s.tuneEnd n).raise u 6)

/-- A running slot's program holds microcode word `i` (R265). -/
def State.mcBusy (s : State) (i : Nat) : Bool :=
  (List.range 96).any (fun n => s.flag (.slot n) F.SLCTRL_run &&
    (let st := s.rd (.slot n) F.SLPROG_start
     let c := s.rd (.slot n) F.SLPROG_cycmax
     decide ((i + 16384 - st) % 16384 < (if c = 0 then 4095 else c))))

/-- EBMCHI_WRITE (R264, R265): the word made of EBMCLO and this one is committed to both copies, and EBMCSEL increments. -/
def State.mcCommit (s : State) (v : Nat) : State :=
  let i := s.rd .engine F.EBMCSEL_index
  if s.mcBusy i then s.raise .engine 3
  else
    let t := s.wr .engine F.EBMCHI_hi v
    ({ t with micro := Tbl.put 0 t.micro i (v * 2 ^ 32 + t.rd .engine F.EBMCLO_lo) } : State).wr .engine F.EBMCSEL_index (i + 1)

/-- EBMCHI_WRITE (R264, R265). -/
def execEbmchiWrite (r : Requester) (v : Word) (s : State) : Out :=
  live s (s.guardReg r .engine 0x58 v.toNat (fun t => t.mcCommit v.toNat))

/-- Set a context word as SLXSEL numbers them (R266). -/
def Ctx.setWord (c : Ctx) (i v : Nat) : Ctx :=
  if i < 64 then { c with w := Tbl.put 0 c.w i v }
  else if i < 80 then { c with x := Tbl.put 0 c.x (i - 64) v }
  else if i < 88 then
    let k := (i - 80) / 2
    let a := Tbl.look 0 c.a k
    { c with a := Tbl.put 0 c.a k (if i % 2 = 0 then a / 2 ^ 24 * 2 ^ 24 + v else v * 2 ^ 24 + a % 2 ^ 24) }
  else c

/-- A context word as SLXSEL numbers them (R266). -/
def Ctx.word (c : Ctx) (i : Nat) : Nat :=
  if i < 64 then Tbl.look 0 c.w i
  else if i < 80 then Tbl.look 0 c.x (i - 64)
  else if i < 88 then
    let a := Tbl.look 0 c.a ((i - 80) / 2)
    if i % 2 = 0 then a % 2 ^ 24 else a / 2 ^ 24
  else 0

/-- A write of SLXDATA (R247, R266). -/
def State.slXdata (s : State) (n v : Nat) : State :=
  if s.cfgOpen n then
    let i := s.rd (.slot n) F.SLXSEL_index
    (s.updSlot n (fun p => { p with
      now := p.now.setWord i (v % 2 ^ 24), last := p.last.setWord i (v % 2 ^ 24) })).wr (.slot n) F.SLXSEL_index (i + 1)
  else s.raise (.slot n) 4

/-- SLXDATA_WRITE (R266). -/
def execSlxdataWrite (r : Requester) (n : Fin 96) (v : Word) (s : State) : Out :=
  live s (s.guardReg r (.slot n) 0xCC v.toNat (fun t => t.slXdata n v.toNat))

/-- LOOP_LOAD_WINDOW (R264, R268): the slot-cycles of 10 ms in 0.1 % of 1.6 × 10^7; above 75 % overload is raised. -/
def execLoopLoadWindow (s : State) : Out :=
  let load := s.winCycles / 16000
  let t : State := { s with winCycles := 0 }
  let t := (t.wr .engine F.EBLOAD_load load).wr .engine F.EBLOAD_peak (max (s.rd .engine F.EBLOAD_peak) (load % 4096))
  live s (if 12000000 < s.winCycles && !s.flag .engine F.EBSTAT_overload then
    (t.setFlag .engine F.EBSTAT_overload true).raise .engine 4 else t)

/-- VCM_COIL_FAULT (R230, R245): the output goes to zero current, the Vcm is in fault, and the slots that drive it fault. -/
def execVcmCoilFault (n : Fin 16) (short : Bool) (s : State) : Out :=
  let u : UnitId := .vcm n
  let t := s.setFlag u (if short then F.VCSTAT_short else F.VCSTAT_open) true
  let t := ((t.wr u F.VCOUT_cmd 0).wr u F.VCSTAT_current 0).wr u F.USTAT_state 5
  let t := t.raise u (if short then 2 else 1)
  let ns := (List.range 96).filter (fun m => s.flag (.slot m) F.SLCTRL_run && s.slState m != 4 &&
    [0, 1].any (fun j => s.outPort m j == (1, n.val)))
  live s (ns.foldl (fun t m => t.slotFault m 6) t)

end Sys2Proof.Machine
end

