-- ==== Sys2Proof/Machine/Read.lean ====
section
/-! DEFINITION. Reading: descriptors and status records (R156 to R158, R166, R172), the recovery ladder (R159 to R165, R418),
reallocation (R167, R168), gain control and the read table (R141, R150, R151, R170), and what completes the recorder's reads and
pulls (R337, R338). -/

namespace Sys2Proof.Machine

/-- Change what the read path holds. -/
def State.updRp (s : State) (f : ReadPath → ReadPath) : State := { s with rp := f s.rp }

/-! ### Status records (R166, R169) -/

/-- Write the status records that wait, as long as one is free; a full ring stalls reading with MEDIA_RINGFULL. -/
def State.flushRecs (s : State) : Nat → State
  | 0 => s
  | n + 1 =>
    match s.rp.recs with
    | [] =>
      let t := if s.rp.stalled then s.setFlag .media F.MRSTAT_held (s.rp.batch != 0 || s.rp.trays.any (fun r => r.stage == 3))
        else s
      t.updRp (fun p => { p with stalled := false })
    | r :: rest =>
      let h := s.rd .media F.MRSHEAD_head
      if (h + 1) % 4096 = s.rd .media F.MRSTAIL_tail then
        if s.rp.stalled then s
        else ((s.updRp (fun p => { p with stalled := true })).setFlag .media F.MRSTAT_held true).raise .media 3
      else
        let t := s.engineStore (s.rp.base + 16 * h)
          (leBytes 4 r.1 ++ leBytes 4 r.2.1 ++ leBytes 4 r.2.2 ++ leBytes 4 s.time.ns)
        State.flushRecs ((t.wr .media F.MRSHEAD_head (h + 1)).updRp (fun p => { p with recs := rest })) n

/-- A status record is due (R166). -/
def State.addRec (s : State) (w0 w1 tag : Nat) : State :=
  let t := s.updRp (fun p => { p with recs := p.recs ++ [(w0, w1, tag)] })
  t.flushRecs (t.rp.recs.length + 1)

/-- A descriptor's record of kind 1, or of kind 2 with its code (R166, R174). -/
def State.descRec (s : State) (d : RDesc) (kind code : Nat) : State :=
  (s.addRec (kind * 2 ^ 30 + code * 2 ^ 27 + d.tray % 2 ^ 21) 0 d.tag).raise .media 6

/-! ### What the recorder's reads wait for -/

/-- A descriptor of command `op` is posted and not complete. -/
def ReadPath.busy (p : ReadPath) (op : Nat) : Bool :=
  p.queue.any (fun d => d.op == op) || p.backlog.any (fun d => d.op == op) || p.trays.any (fun t => t.desc.op == op)

/-- A read by the recorder (R156): the slot of each LBA still to be fetched, grouped into descriptors of consecutive slots. -/
def groupSlots (verify : Bool) (skip op : Nat) : List (Nat × Nat) → List RDesc → List RDesc
  | [], acc => acc
  | (a, k) :: rest, acc =>
    match acc.getLast? with
    | some d =>
      if d.tray = a / 816 ∧ d.first + d.count = a % 816 then
        groupSlots verify skip op rest (acc.dropLast ++ [{ d with count := d.count + 1, want := d.want ++ [k + 1] }])
      else groupSlots verify skip op rest (acc ++ [⟨0, a / 816, a % 816, 1, bitOf skip 0, bitOf skip 1, verify, false, 0, 0, false, op, [k + 1]⟩])
    | none =>
      groupSlots verify skip op rest [⟨0, a / 816, a % 816, 1, bitOf skip 0, bitOf skip 1, verify, false, 0, 0, false, op, [k + 1]⟩]

/-- Descriptors of the recorder enter the media read queue as it has room (R61, R156). -/
def State.fillQueue (s : State) : State :=
  let n := 64 - s.rp.queue.length
  s.updRp (fun p => { p with queue := p.queue ++ p.backlog.take n, backlog := p.backlog.drop n })

/-- Number a descriptor in the order posted. -/
def State.numDesc (s : State) (d : RDesc) : State × RDesc :=
  (s.updRp (fun p => { p with nextNum := p.nextNum + 1 }), { d with num := s.rp.nextNum })

/-- The fields of a read descriptor are outside their ranges (R156). -/
def RDesc.invalid (d : RDesc) : Bool := d.bad || d.count == 0 || decide (816 < d.first + d.count) || decide (1507327 < d.tray)

/-- A read descriptor is posted (R156, R157): refused ones complete at once; while the queue holds descriptors the tray builder
does not seal. -/
def State.postRead (s : State) (d : RDesc) : State :=
  let r := s.numDesc d
  if d.invalid then r.1.descRec r.2 2 1
  else if s.rcd.cart = 0 || s.rcd.cart = 4 then r.1.descRec r.2 2 3
  else
    let t := r.1.updRp (fun p => { p with backlog := p.backlog ++ [r.2] })
    ({ t with tb := { t.tb with paused := if t.tb.paused.contains 1 then t.tb.paused else t.tb.paused ++ [1] } } : State).fillQueue

/-- The user bytes of an LBA that no run names (R115, R361): those of a codeword on its way to the medium, else zeros. -/
def State.pendingPage (s : State) (nsid lba : Nat) : Nat :=
  ((s.tb.pending.reverse.find? (fun w => w.cw.nsid == nsid && w.cw.lba == lba)).map (fun w => w.cw.data)).getD 0

/-- The pages of `n` LBAs from `lba`: those to be read from the medium are none. -/
def State.pagesOf (s : State) (nsid lba n : Nat) : List (Option Nat) :=
  (List.range n).map (fun k => if (s.slotOfLba nsid (lba + k)).isSome then none else some (s.pendingPage nsid (lba + k)))

/-- The slots to be read of `n` LBAs from `lba`, each with its place. -/
def State.slotsFor (s : State) (nsid lba n : Nat) : List (Nat × Nat) :=
  (List.range n).filterMap (fun k => (s.slotOfLba nsid (lba + k)).map (fun a => (a, k)))

/-- Post the descriptors for `n` LBAs on behalf of command `op`. -/
def State.postLbas (s : State) (op nsid lba n : Nat) (verify : Bool) (skip : Nat) : State :=
  (groupSlots verify skip op (s.slotsFor nsid lba n) []).foldl State.postRead s

/-- The first LBA of the range of frame `i` of a pull, and the LBAs of the range (R338). -/
def Roi.range (r : Roi) (i : Nat) : Nat × Nat :=
  let a := r.y * r.lbytes + r.x
  let b := (r.y + r.h - 1) * r.lbytes + r.x + r.w - 1
  (r.first + i * r.step * r.fstride + a / 4096, b / 4096 - a / 4096 + 1)

/-- The rectangle of a frame out of the bytes of its range (R337, R338). -/
def Roi.cut (r : Roi) (bytes : List Byte) : List Byte :=
  (List.range r.h).flatMap (fun j => (bytes.drop ((r.y * r.lbytes + r.x) % 4096 + j * r.lbytes)).take r.w)

/-- The bytes of pages that are all present. -/
def pageBytes (ps : List (Option Nat)) : List Byte := ps.flatMap (fun p => leBytes 4096 (p.getD 0))

/-- Count what a read of the recorder delivered. -/
def State.countRead (s : State) (o : Op) (n : Nat) : State :=
  let g := ((s.cmd o.slot).map HCmd.guest).getD 0
  (s.count (if isSasQueue o.queue then 183 else 180) n).count (258 + 8 * g) n

/-- The read skips of the parameter block in effect (R329): bit 0 skip3, bit 1 skip5. -/
def State.readSkip (s : State) : Nat := s.param 7

/-- A read whose pages are all final completes (R364, R397); a pull goes on with ROI_FRAME_READY. -/
def State.opReadStep (s : State) (id : Nat) : State :=
  match s.op id with
  | none => s
  | some o =>
    if s.rp.busy id then s
    else match o.kind with
      | .read _ first pages verify failed =>
        let n := failed.getD pages.length
        let t := if verify then s else s.countRead o n
        let out := if verify then [] else pageBytes (pages.take n)
        (match failed with
        | some k => t.endOp o .unrecovered 0 0 (some (first + k)) out
        | none => t.endOp o .success 0 0 none out)
      | _ => s

/-- Keep a page that has been read, or note that it could not be. -/
def State.opPage (s : State) (id k : Nat) (page : Option Nat) : State :=
  match s.op id with
  | none => s
  | some o =>
    let low (f : Option Nat) : Option Nat := if page.isSome then f else some (match f with | some j => min j k | none => k)
    match o.kind with
    | .read nsid first pages verify failed =>
      s.setOp id (.read nsid first (if page.isSome then pages.set k page else pages) verify (low failed))
    | .roi r nsid next todo done pages failed =>
      s.setOp id (.roi r nsid next todo done (if page.isSome then pages.set k page else pages) (low failed))
    | _ => s

/-- A descriptor of the recorder has completed. -/
def State.opDescDone (s : State) (d : RDesc) : State := if d.op = 0 then s else s.opReadStep d.op

/-! ### The tray being read -/

/-- The blocks recorded at a position. -/
def State.blocksAt (s : State) (T : Nat) : List Block :=
  match s.posAt T with
  | .blank => []
  | .abandoned bs => bs
  | .written bs => bs

/-- The beam and codeword position of each slot of a tray (R88). -/
def slotKeys (bs : List Block) : List (Nat × Nat) :=
  (bs.filter (fun b => !b.isParity)).flatMap (fun b => (List.range b.cwcount).map (fun p => (b.beam, p)))

/-- The slot of a codeword position of a beam. -/
def slotOf (bs : List Block) (b p : Nat) : Option Nat :=
  ((slotKeys bs).zipIdx.find? (fun x => x.1 == (b, p))).map Prod.snd

/-- The tray being read at position `T`. -/
def State.rtray (s : State) (T : Nat) : Option RTray := s.rp.trays.find? (fun t => t.desc.tray == T)

/-- Replace a tray being read. -/
def State.setRtray (s : State) (t : RTray) : State :=
  s.updRp (fun p => { p with trays := p.trays.map (fun x => if x.desc.num == t.desc.num then t else x) })

/-- Change one block of a tray. -/
def RTray.updBlk (t : RTray) (b : Nat) (f : RBlk → RBlk) : RTray :=
  { t with blks := t.blks.map (fun x => if x.beam == b then f x else x) }

/-- Deliver slot `q` of a tray as final: to memory, or to the recorder's command (R156, R157). -/
def State.deliver (s : State) (d : RDesc) (q : Nat) (c : Cw) : State :=
  if q < d.first || d.first + d.count ≤ q then s
  else if d.op ≠ 0 then
    let k := (d.want[q - d.first]?).getD 0
    if k = 0 then s else s.opPage d.op (k - 1) (some c.data)
  else if d.verify then s
  else if d.header then s.engineStore (d.dest + 4104 * (q - d.first)) c.payload
  else s.engineStore (d.dest + 4096 * (q - d.first)) c.bytes

/-- A codeword is decoded at a step: its position is final and its slot is delivered. -/
def State.cwOk (s : State) (t : RTray) (b p step : Nat) : State × RTray :=
  let t' := t.updBlk b (fun x => { x with st := x.st.set p step, step := max x.step step })
  let bs := s.blocksAt t.desc.tray
  match slotOf bs b p with
  | none => (s, t')
  | some q =>
    match (bs.find? (fun x => x.beam == b)).bind (fun x => x.cws[p]?) with
    | none => (s, t')
    | some c => (s.deliver t.desc q c, t')

/-- A codeword goes on to another step. -/
def RTray.cwTo (t : RTray) (b p code : Nat) : RTray := t.updBlk b (fun x => { x with st := x.st.set p code })

/-- The positions of a block with a code. -/
def RBlk.having (x : RBlk) (code : Nat) : List Nat := (List.range x.st.length).filter (fun p => (x.st[p]?).getD 0 == code)

/-- Some codeword of the tray has this code. -/
def RTray.any (t : RTray) (code : Nat) : Bool := t.blks.any (fun x => x.st.contains code)

/-- Every codeword with code `a` goes to code `b`. -/
def RTray.allTo (t : RTray) (a b : Nat) : RTray :=
  { t with blks := t.blks.map (fun x => { x with st := x.st.map (fun c => if c == a then b else c) }) }

/-! ### Reallocation and the end of a tray -/

/-- A block recovered hard queues copies of its decoded data and relocated-copy codewords, or is only reported (R167, R168). -/
def State.realloc (s : State) (T : Nat) (x : RBlk) : State × Bool :=
  let hard := x.st.any (fun c => 2 ≤ c && c ≤ 5)
  if !hard then (s, false)
  else
    let full := 256 ≤ s.rd .media F.MRSTAT_realloc
    let other := s.rcd.cart == 2 && s.rcd.bake == 0 && s.flag .media F.MRLADDER_realloc && !s.flag .tray F.TBSTAT_capacity
    if other && !full then
      let cws := ((s.blocksAt T).find? (fun b => b.beam == x.beam)).elim [] Block.cws
      let good := (cws.zipIdx).filter (fun p => (x.st[p.2]?).getD 6 ≠ 6 && (p.1.kind == 0 || p.1.kind == 3))
      let t : State := if good.isEmpty then s else { s with tb := { s.tb with
        nextAcc := s.tb.nextAcc + 1
        nextCopy := s.tb.nextCopy + 1
        copiesDue := s.tb.copiesDue ++
          [mkCopy s.tb.nextCopy (good.map (fun p => ⟨p.1, s.tb.nextAcc, 0, true, .none⟩)) [x.beam] 0 true] } }
      if good.isEmpty then (s, false) else (t.wr .media F.MRSTAT_realloc (t.rd .media F.MRSTAT_realloc + 1), true)
    else
      let t := s.raise .media 2
      (if full && other then t.raise .media 5 else t, false)

/-- A map or journal codeword of the block was recovered at step 2 or later (R166). -/
def State.metaBit (s : State) (T : Nat) (x : RBlk) : Bool :=
  (((s.blocksAt T).find? (fun b => b.beam == x.beam)).elim [] Block.cws).zipIdx.any (fun p =>
    (p.1.kind == 1 || p.1.kind == 2) && decide (2 ≤ (x.st[p.2]?).getD 0) && decide ((x.st[p.2]?).getD 0 ≤ 5))

/-- A block's status record (R166), with what step 6 and reallocation raise (R165, R168). -/
def State.blockRec (s : State) (d : RDesc) (x : RBlk) : State :=
  let T := d.tray
  let lost := maskOf (x.having 6)
  let s := if lost = 0 then s
    else ((s.report .media 1 T (x.beam * 2 ^ 24 + lost)).raise .media 1).count 155 (x.having 6).length
  let r := s.realloc T x
  let s := (r.1).wr (.beam x.beam) F.BRSTAT_step x.step
  if x.failed then
    s.addRec (x.step * 2 ^ 27 + x.beam * 2 ^ 21 + T)
      (b2n (s.metaBit T x) * 2 ^ 26 + b2n r.2 * 2 ^ 25 + b2n x.erased * 2 ^ 24 + lost) d.tag
  else s

/-- The slots of a descriptor that the recorder wants and that stayed unrecovered. -/
def State.missing (s : State) (t : RTray) : State :=
  if t.desc.op = 0 then s
  else
    (t.desc.want.zipIdx).foldl (fun s x =>
      if x.1 = 0 then s
      else
        let key := (slotKeys (s.blocksAt t.desc.tray))[t.desc.first + x.2]?
        let ok : Bool := match key with
          | some k => ((t.blks.find? (fun b => b.beam == k.1)).bind (fun b => b.st[k.2]?)).elim false (fun c => decide (1 ≤ c) && decide (c ≤ 5))
          | none => false
        if ok then s else s.opPage t.desc.op (x.1 - 1) none) s

/-- A tray's reading ends (R158, R165, R166): slots of a head without an accepted header are unrecovered; the block records, then
the descriptor's. -/
def State.endTrayRead (s : State) (t : RTray) : State :=
  let heads := (t.blks.filter RBlk.hdr).map (fun x => x.beam / 12)
  let t : RTray := { t with blks := t.blks.map (fun x =>
    let st := if heads.contains (x.beam / 12) then x.st.map (fun c => if c == 15 then 6 else c) else x.st.map (fun _ => 6)
    { x with st := st, step := if st.contains 6 then 6 else x.step }) }
  let s := s.updRp (fun p => { p with trays := p.trays.filter (fun x => x.desc.num != t.desc.num) })
  let s := t.blks.foldl (fun s x => s.blockRec t.desc x) s
  let s := (s.missing t).count 145
  ((s.descRec t.desc 1 0).opDescDone t.desc).fillQueue

/-- Step 5 may be taken (R163, R164). -/
def State.step5Ok (s : State) (t : RTray) : Bool := !t.desc.skip5 && s.rcd.ps != 1 && !t.re

/-- The device changes the spindle's speed (R163, R212); false if the spindle refuses (R215). -/
def State.changeSpeed (s : State) (slow : Bool) : State × Bool :=
  let ok : Bool := decide (3 ≤ s.spState) && decide (s.spState ≤ 8) && s.motorOk
  (s.spinChange slow, ok)

/-- The step-5 batch goes on: with no tray of it left the speed of the power state returns. -/
def State.batchStep (s : State) : State :=
  if s.rp.batch = 2 && s.rp.trays.all (fun t => !t.re) then
    (s.changeSpeed (s.rcd.ps = 1)).1.updRp (fun p => { p with batch := 3 })
  else s

/-- A tray moves on in the ladder as far as it can (R159 to R164). -/
def State.ladder (s : State) (num : Nat) : Nat → State
  | 0 => s
  | fuel + 1 =>
    match s.rp.trays.find? (fun t => t.desc.num == num) with
    | none => s
    | some t =>
      match t.stage with
      | 1 =>
        if t.any 0 || t.any 12 then s
        else if !t.any 13 then s.endTrayRead t
        else if t.desc.skip3 then State.ladder (s.setRtray { t.allTo 13 14 with stage := 4 }) num fuel
        else (s.setRtray { t with stage := 3, pass := 0 }).setFlag .media F.MRSTAT_held true
      | 3 =>
        let most := if t.re && t.desc.skip3 then 1 else max 1 (s.rd .media F.MRLADDER_passes)
        if t.any 13 && t.pass < most then s
        else
          let s := s.setFlag .media F.MRSTAT_held (s.rp.batch != 0 || s.rp.stalled)
          State.ladder (s.setRtray { t.allTo 13 14 with stage := 4 }) num fuel
      | 4 =>
        if t.any 14 then s
        else if !t.any 15 || !s.step5Ok t then (s.endTrayRead t).batchStep
        else (s.setRtray { t with stage := 5 }).setFlag .media F.MRSTAT_step5 true
      | _ => s

/-! ### Descriptors -/

/-- The heads go to the groups of tray position `T` (R74, R157, R195): a seek, unless they stand there. -/
def State.headsTo (s : State) (T : Nat) (seek : Bool) : State :=
  let t := (List.range 4).foldl (fun t h =>
    if t.hState h = hLocked || t.hState h = hHolding || t.hState h = hLeadin then
      (((t.wr (.head h) F.HSEQSTAT_group (groupOf T h)).wr (.head h) F.HSEQSTAT_layer (layerOf T)).setHState h hLocked).updHd h
        (fun d => { d with leadin := false })
    else t) s
  if seek then t.count 157 else t

/-- The fresh state of a tray's blocks. -/
def State.newTray (s : State) (d : RDesc) : RTray :=
  ⟨d, (s.blocksAt d.tray).map (fun b => ⟨b.beam, false, false, false, 0, List.replicate b.cwcount 0⟩), 1, 0, false⟩

/-- Reading is stalled (R159, R163, R166). -/
def State.readStalled (s : State) : Bool :=
  s.rp.stalled || s.rp.batch != 0 || s.rp.trays.any (fun t => t.stage == 3) || !s.rp.recs.isEmpty

/-- READ_DESCRIPTOR_START (R157, R172): the next descriptor is served; a tray later in the same layer needs no seek. -/
def execReadDescriptorStart (s : State) : Out :=
  match s.rp.queue with
  | [] => .next s
  | d :: rest =>
    let waits := match s.rp.held with
      | some h => decide (h.2 ≤ d.num)
      | none => false
    if s.readStalled || waits then .next s
    else
      let seek := match s.rp.last with
        | some T => !(layerOf T == layerOf d.tray && decide (T < d.tray))
        | none => true
      let t := s.updRp (fun p => { p with
        queue := rest, trays := p.trays ++ [s.newTray d], last := some d.tray })
      live s ((t.headsTo d.tray seek).fillQueue)

/-- READ_QUEUE_EMPTY_RESUME (R157): the heads seek back to the next position to write, and sealing resumes. -/
def execReadQueueEmptyResume (s : State) : Out :=
  if !s.rp.queue.isEmpty || !s.rp.backlog.isEmpty || !s.rp.trays.isEmpty || !s.tb.paused.contains 1 then .next s
  else
    let t := (s.updRp (fun p => { p with last := none })).headsTo (s.rd .tray F.TBPOS_pointer) true
    live s { t with tb := { t.tb with paused := t.tb.paused.filter (· != 1) } }

/-- POSITION_BLANK (R158): no block shows a sync word in two revolutions; the ladder is not entered. -/
def execPositionBlank (pos : Nat) (s : State) : Out :=
  match s.rtray pos with
  | none => .next s
  | some t =>
    if t.stage ≠ 1 || t.blks.any (fun x => x.hdr) then .next s
    else
      let u := s.updRp (fun p => { p with trays := p.trays.filter (fun x => x.desc.num != t.desc.num) })
      let u := u.missing { t with blks := [] }
      live s (((u.descRec t.desc 2 2).opDescDone t.desc).fillQueue)

/-! ### Steps 1 and 2 -/

/-- The 16 bytes of a beam's live entry (R149, R170). -/
def State.liveBytes (s : State) (b : Nat) : List Byte :=
  leBytes 4 (s.rd (.beam b) F.BRLIVE0_bytes3_0) ++ leBytes 4 (s.rd (.beam b) F.BRLIVE1_bytes7_4) ++
  leBytes 4 (s.rd (.beam b) F.BRLIVE2_bytes11_8) ++ leBytes 4 (s.rd (.beam b) F.BRLIVE3_bytes15_12)

/-- Set a beam's live entry. -/
def State.setLive (s : State) (b : Nat) (bs : List Byte) : State :=
  (((s.wr (.beam b) F.BRLIVE0_bytes3_0 (leNat (bs.take 4))).wr (.beam b) F.BRLIVE1_bytes7_4 (leNat ((bs.drop 4).take 4))).wr
    (.beam b) F.BRLIVE2_bytes11_8 (leNat ((bs.drop 8).take 4))).wr (.beam b) F.BRLIVE3_bytes15_12 (leNat ((bs.drop 12).take 4))

/-- A signed byte. -/
def sbyte (b : Byte) : Int := signed 8 b.toNat

/-- The gain control's correction after a block (R141): from the peak-to-peak amplitude in LSB and the mean in 1/256 LSB of the
run-in samples. -/
def State.agc (s : State) (b peak : Nat) (mean : Int) : State :=
  let u : UnitId := .beam b
  if s.flag u F.BRCTRL_trimhold then s
  else
    let bs := s.liveBytes b
    let g := ((bs[0]?).getD 0).toNat
    let o := sbyte ((bs[1]?).getD 0)
    let up := decide (peak + 4 < 96)
    let down := decide (100 < peak)
    let limit := (up && g == 255) || (down && g == 0)
    let g' := if up then min 255 (g + 1) else if down then g - 1 else g
    let o' := clampInt (-128) 127 (if 128 < mean then o - 1 else if mean < -128 then o + 1 else o)
    let t := s.setLive b (BitVec.ofNat 8 g' :: BitVec.ofNat 8 (unsigned 8 o') :: bs.drop 2)
    if limit then t.raise u 9 else t

/-- The codeword of position `p` is decoded in what the decoder shows, within the read limit of 12 iterations (R153). -/
def Seen.decodes (d : Seen) (p : Nat) : Bool :=
  let i := (d.iters[p]?).getD 0
  i != 0 && decide (i ≤ 12) && !d.crcBad.contains p

/-- A failing codeword is exported to the deep-decode ring, or goes on to step 3 (R160, R172). -/
def State.exportDeep (s : State) (t : RTray) (b p : Nat) : State × RTray :=
  if !s.flag .media F.MRLADDER_deep then (s, t.cwTo b p 13)
  else if 1024 ≤ s.rd .media F.MRSTAT_deep then (s.raise .media 4, t.cwTo b p 13)
  else
    let s1 := (s.wr .media F.MRSTAT_deep (s.rd .media F.MRSTAT_deep + 1)).updRp (fun q => { q with
      deepQ := q.deepQ ++ [(t.desc.num, b, p)] })
    (s1, t.cwTo b p 12)

/-- Free pool engines take the records in order of export, the lowest engine first (R160, R173). -/
def State.runPool (s : State) : State :=
  (List.range 8).foldl (fun s e =>
    match s.rp.deepQ with
    | [] => s
    | r :: rest =>
      if (Tbl.look none s.rp.engines e).isSome then s
      else
        (s.updRp (fun q => { q with deepQ := rest, engines := Tbl.put none q.engines e (some r) })).wr .deep F.DPBUSY_engines
          (s.rd .deep F.DPBUSY_engines ||| 2 ^ e)) s

/-- The inline results of one block (R148, R153, R159, R174). -/
def State.inlineBlock (s : State) (t : RTray) (b : Nat) (seen : Seen) : State × RTray :=
  let cw := ((t.blks.find? (fun x => x.beam == b)).map (fun x => x.st.length)).getD 0
  let s := (s.noteSeen b cw seen).count (196 + b) cw
  if seen.ofs.isNone || seen.copy = 0 then
    (s, t.updBlk b (fun x => { x with erased := true, failed := true, step := 3, st := x.st.map (fun _ => 13) }))
  else
    let t := t.updBlk b (fun x => { x with hdr := true })
    let bad := (List.range cw).filter (fun p => !seen.decodes p)
    let r := ((List.range cw).filter seen.decodes).foldl (fun a p => a.1.cwOk a.2 b p 1) (s, t)
    if bad.isEmpty then r
    else
      let r := (r.1.raise (.beam b) 8, r.2.updBlk b (fun x => { x with
        failed := true, step := max x.step (if s.flag .media F.MRLADDER_deep then 2 else 3) }))
      let r := bad.foldl (fun a p => a.1.exportDeep a.2 b p) r
      (r.1.runPool, r.2)

/-- INLINE_VERDICT (R141, R147, R148, R153, R154, R159): a block of a tray being read has passed the inline decoder. -/
def execInlineVerdict (pos : Nat) (b : Fin 48) (seen : Seen) (peak : Nat) (mean : Int) (s : State) : Out :=
  match s.rtray pos with
  | none => .next s
  | some t =>
    if t.stage ≠ 1 || !t.blks.any (fun x => x.beam == b.val && x.st.contains 0) then .next s
    else
      let r := s.inlineBlock t b seen
      live s (((r.1.agc b peak mean).setRtray r.2).ladder t.desc.num 8)

/-- The engine that runs a record. -/
def State.engineOf (s : State) (rcd : Nat × Nat × Nat) : Option Nat :=
  (List.range 8).find? (fun e => Tbl.look none s.rp.engines e == some rcd)

/-- DEEP_DECODE_DONE (R160, R173): a pool engine ends with its codeword decoded or failing; the next record starts. -/
def execDeepDecodeDone (pos : Nat) (b : Fin 48) (p : Fin 24) (ok : Bool) (s : State) : Out :=
  match s.rtray pos with
  | none => .next s
  | some t =>
    match s.engineOf (t.desc.num, b.val, p.val) with
    | none => .next s
    | some e =>
      let u := (s.updRp (fun q => { q with engines := Tbl.put none q.engines e none })).wr .deep F.DPBUSY_engines
        (s.rd .deep F.DPBUSY_engines - 2 ^ e)
      let u := u.wr .media F.MRSTAT_deep (u.rd .media F.MRSTAT_deep - 1)
      let r := if ok then (((u.incWrap .deep F.DPCNT_count).count 151)).cwOk t b p 2
        else (u.incWrap .deep F.DPFCNT_count, (t.cwTo b p 13).updBlk b (fun x => { x with step := max x.step 3 }))
      live s (((r.1.setRtray r.2).runPool).ladder t.desc.num 8)

/-- SINK_OVERFLOW (R418): the codeword being delivered is discarded, and while reading goes to step 3. -/
def execSinkOverflow (pos : Nat) (b : Fin 48) (p : Fin 24) (s : State) : Out :=
  let u := s.raise .dram 5
  match u.rtray pos with
  | none => live s u
  | some t =>
    if t.stage ≠ 1 || !t.blks.any (fun x => x.beam == b.val && (match x.st[p.val]? with
        | some c => decide (1 ≤ c) && decide (c ≤ 2)
        | none => false)) then live s u
    else
      let t := (t.cwTo b p 13).updBlk b (fun x => { x with failed := true, step := max x.step 3 })
      live s ((u.setRtray t).ladder t.desc.num 8)

/-! ### Steps 3 to 6 -/

/-- What a pass of step 3 gives one block (R161): an accepted header, the codewords decoded inline, and those the deep decode of
the summed ratios decodes. -/
def State.passBlock (s : State) (t : RTray) (x : Nat × Seen × List Nat) : State × RTray :=
  let b := x.1
  let seen := x.2.1
  match t.blks.find? (fun k => k.beam == b && k.st.contains 13) with
  | none => (s, t)
  | some k =>
    let s := s.noteSeen b k.st.length seen
    let hdr := seen.ofs.isSome && seen.copy != 0
    let t := if hdr then t.updBlk b (fun k => { k with hdr := true }) else t
    let good := (k.having 13).filter (fun p => (hdr && seen.decodes p) || ((hdr || k.hdr) && x.2.2.contains p))
    good.foldl (fun a p => a.1.cwOk a.2 b p (if t.re then 5 else 3)) (s, t)

/-- STEP3_PASS_END (R161, R163): a re-read pass of a tray ends. -/
def execStep3PassEnd (pos : Nat) (seens : List (Nat × Seen × List Nat)) (s : State) : Out :=
  match s.rtray pos with
  | none => .next s
  | some t =>
    if t.stage ≠ 3 then .next s
    else
      let r := seens.foldl (fun a x => a.1.passBlock a.2 x) (s.count 153, t)
      live s ((r.1.setRtray { r.2 with pass := t.pass + 1 }).ladder t.desc.num 8)

/-- The heads that cover position `p` of a tray (R85): the parity count there. -/
def State.parityCount (s : State) (T p : Nat) : Nat :=
  (((s.blocksAt T).filter (fun b => decide (p < b.cwcount))).map (fun b => b.beam / 12)).eraseDups.length

/-- OUTER_RECOVERY (R162, R163, R173): the engine treats one codeword position; `bad` are the beams whose recovered codeword fails
its checks. -/
def execOuterRecovery (pos : Nat) (p : Fin 24) (bad : List Nat) (s : State) : Out :=
  match s.rtray pos with
  | none => .next s
  | some t =>
    let er := t.blks.filter (fun x => (x.st[p.val]?).getD 0 == 14)
    if t.stage ≠ 4 || er.isEmpty then .next s
    else
      let t := er.foldl (fun t x => t.updBlk x.beam (fun x => { x with step := max x.step 4 })) t
      let up (t : RTray) (b : Nat) : RTray := (t.cwTo b p 15).updBlk b (fun x => { x with step := max x.step 5 })
      let r : State × RTray :=
        if s.parityCount pos p < er.length then
          (s.incWrap .outer F.OCFCNT_count, er.foldl (fun t x => up t x.beam) t)
        else er.foldl (fun a x =>
          if bad.contains x.beam then (a.1, up a.2 x.beam)
          else ((a.1.incWrap .outer F.OCCNT_count).count 152).cwOk a.2 x.beam p (if t.re then 5 else 4)) (s, t)
      live s ((r.1.setRtray r.2).ladder t.desc.num 8)

/-- The trays that wait for step 5 end at step 6 (R163). -/
def State.failBatch (s : State) : State :=
  (s.rp.trays.filter (fun t => t.stage == 5)).foldl (fun s t => s.endTrayRead t) s

/-- STEP5_GATHER_TIMEOUT (R163): the batch begins: sealing stops and the spindle slows, or refuses. -/
def execStep5GatherTimeout (s : State) : Out :=
  if s.rp.batch ≠ 0 || s.rp.trays.all (fun t => t.stage != 5) then .next s
  else
    let t : State := { s with tb := { s.tb with paused := s.tb.paused ++ [3] } }
    let r := (t.count 154).changeSpeed true
    if r.2 then live s ((r.1.updRp (fun p => { p with batch := 1 })).setFlag .media F.MRSTAT_held true)
    else
      let u := r.1.failBatch
      live s (({ u with tb := { u.tb with paused := u.tb.paused.filter (· != 3) } } : State).setFlag .media F.MRSTAT_step5 false)

/-- SPEED_CHANGE_DONE (R135, R163, R212): the target is reached on the clock, and the heads have relocked or have not. -/
def execSpeedChangeDone (relocked : Bool) (s : State) : Out :=
  if s.spState ≠ 7 then .next s
  else
    let t := (s.setSp 6).raise .spindle 1
    match s.rp.batch with
    | 1 =>
      if relocked then
        live s ((t.updRp (fun p => { p with
          batch := 2
          trays := p.trays.map (fun r => if r.stage == 5 then { r.allTo 15 13 with stage := 3, pass := 0, re := true } else r) })))
      else live s ((t.failBatch.changeSpeed (s.rcd.ps = 1)).1.updRp (fun p => { p with batch := 3 }))
    | 3 =>
      let u := ((t.updRp (fun p => { p with batch := 0 })).setFlag .media F.MRSTAT_step5 false).setFlag .media F.MRSTAT_held
        s.rp.stalled
      live s { u with tb := { u.tb with paused := u.tb.paused.filter (· != 3) } }
    | _ => live s ({ t with tb := { t.tb with paused := t.tb.paused.filter (· != 2) } } : State).psOps

/-! ### Registers of the read path -/

/-- A write of MRSTAIL (R164). -/
def State.mrsTail (t : State) (v : Nat) : State :=
    let t := t.storeReg .media 0x50 v
    t.flushRecs (t.rp.recs.length + 1)

/-- MRSTAIL_WRITE (R166): records are freed, and a stalled ring resumes. -/
def execMrstailWrite (r : Requester) (v : Word) (s : State) : Out :=
  live s (s.guardReg r .media 0x50 v.toNat (fun t => t.mrsTail v.toNat))

/-- The buffer address of a read table entry (R149). -/
def State.rtAddr (s : State) (b l z : Nat) : Nat := s.rp.base + 0x4900000 + 16 * (512 * b + 32 * l + z)

/-- READ_TABLE_SWAP (R149 to R151): the beam writes its live entry back to the layer and zone it leaves and loads that of the
ones it enters; with hits 0 the lead-in's defaults of its own disc give gain, offset and asymmetry. -/
def execReadTableSwap (b : Fin 48) (l0 : Fin 16) (z0 : Fin 32) (l : Fin 16) (z : Fin 32) (s : State) : Out :=
  let t := s.engineStore (s.rtAddr b l0 z0) (s.liveBytes b)
  let e := t.readBytes (t.rtAddr b l z) 16
  let rc := (s.medium.bind (fun c => ((c.lead[b.val / 12]?).getD none).bind (fun d => d.rc[32 * l.val + z.val]?)))
  let def_ (i n : Nat) : List Byte :=
    (List.range n).map (fun j => BitVec.ofNat 8 (Config.readDefault (512 * b.val + 32 * l.val + z.val) (i + j)))
  live s (t.setLive b (if leNat ((e.drop 12).take 2) = 0 then
    (match rc with
      | some x => [BitVec.ofNat 8 x.1, BitVec.ofNat 8 x.2.1, BitVec.ofNat 8 x.2.2] ++ def_ 3 8
      | none => def_ 0 11) ++ [0, 0, 0, 0, 0] else e))

/-- BRLIVE_WRITE (R150, R170): live values are set; they take effect in the next gap. -/
def execBrliveWrite (r : Requester) (b : Fin 48) (i : Fin 4) (v : Word) (s : State) : Out :=
  live s (s.guardReg r (.beam b) (0xB0 + 4 * i) v.toNat (fun t => t.storeReg (.beam b) (0xB0 + 4 * i) v.toNat))

/-- A read descriptor is pending (R172). -/
def ReadPath.pending (p : ReadPath) : Bool := !p.queue.isEmpty || !p.trays.isEmpty || !p.backlog.isEmpty

/-- A write of MRBASEHI (R172). -/
def State.mrBaseHi (t : State) (v : Nat) : State :=
    let t := t.storeReg .media 0x44 v
    let base := t.rd .media F.MRBASEHI_base * 2 ^ 32 + t.rd .media F.MRBASELO_base * 2 ^ 20
    if t.rp.pending then
      (t.updRp (fun p => { p with held := some (base, p.nextNum) })).setFlag .media F.MRSTAT_basewait true
    else t.updRp (fun p => { p with base := base, held := none })

/-- MRBASEHI_WRITE (R172): the base takes effect if no read descriptor is pending, else it is held. -/
def execMrbasehiWrite (r : Requester) (v : Word) (s : State) : Out :=
  live s (s.guardReg r .media 0x44 v.toNat (fun t => t.mrBaseHi v.toNat))

/-- MRBASE_APPLY (R172): no descriptor posted before the write is pending. -/
def execMrbaseApply (s : State) : Out :=
  match s.rp.held with
  | none => .next s
  | some h =>
    if (s.rp.queue ++ s.rp.backlog).any (fun d => d.num < h.2) || s.rp.trays.any (fun t => t.desc.num < h.2) then .next s
    else live s ((s.updRp (fun p => { p with base := h.1, held := none })).setFlag .media F.MRSTAT_basewait false)

end Sys2Proof.Machine
end

