-- ==== Sys2Proof/Machine/Records.lean ====
section
/-! DEFINITION. The parameter block (R324), the NOR unit (R560, R562), the ageing ledger (R487, R488) and non-volatile records
(R492 to R498). -/

namespace Sys2Proof.Machine

/-! ### NOR (R557, R560, R562) -/

/-- The buffer address of a NOR offset (R410). -/
def norAddr (off : Nat) : Nat := 0x4100000000 + off

/-- Every byte of a range of NOR reads 0xFF again. -/
def State.norErase (s : State) (off n : Nat) : State :=
  { s with mem := s.mem.filter (fun e => decide (e.1 < norAddr off) || decide (norAddr off + n ≤ e.1)) }

/-- Bytes are programmed from NOR offset `off` on; over a byte that is not erased the result is open. -/
def State.norProgram (s : State) (off : Nat) : List Byte → State
  | [] => s
  | b :: bs =>
    let old := s.byte (norAddr off)
    State.norProgram (s.setByte (norAddr off) (if old = 0xFF then b else Config.norLeft old b)) (off + 1) bs

/-- The bytes of a NOR range whose command ended in a device error. -/
def State.norFail (s : State) (off n : Nat) (data : List Byte) : State :=
  s.storeBytes (norAddr off)
    ((List.range n).map (fun i => Config.norLeft (s.byte (norAddr (off + i))) ((data[i]?).getD 0xFF)))

/-- The NOR unit starts a command. -/
def State.norIssue (s : State) (o : NorOp) : State :=
  ({ s with recs := { s.recs with nor := some o } } : State).setFlag .nor F.NORSTAT_busy true

/-- The effect of the running command on NOR. -/
def State.norEffect (s : State) (o : NorOp) (err : Bool) : State :=
  let n := if o.erase then 65536 else o.data.length
  if err then s.norFail o.addr n o.data else if o.erase then s.norErase o.addr n else s.norProgram o.addr o.data

/-- The running command ends (R562): result 0 raises NOR_DONE, a device error is result 4. -/
def State.norEnd (s : State) (o : NorOp) (err : Bool) : State :=
  let t : State := { s with recs := { s.recs with nor := none } }
  let t := ((t.norEffect o err).setFlag .nor F.NORSTAT_busy false).wr .nor F.NORSTAT_result (if err then 4 else 0)
  if err then t else t.raise .nor 1

/-- NORCMD (R560, R562): taken only from the loader's code in the keeper; a busy unit changes nothing and leaves a crumb. -/
def State.norCommand (s : State) (r : Requester) (pc v : Nat) : State :=
  let off := UnitId.nor.base + 0x48
  let inside : Bool := r == .keeper && decide (0x70000 ≤ pc) && decide (pc ≤ 0x7FFFF)
  if !mayWrite r .nor 0x48 then (s.violation r .nor 3 off v).raise .nor 2
  else if !inside then (s.refuse r.num .nor 3 off v).raise .nor 2
  else if s.flag .nor F.NORSTAT_busy then s.refuse r.num .nor 3 off v
  else
    let a := s.rd .nor F.NORADDR_offset
    let cmd := F.NORCMD_cmd.of v
    let len := F.NORCMD_len.of v
    if cmd = 1 then
      if a < 0x10000 then (s.wr .nor F.NORSTAT_result 1).raise .nor 2
      else if len = 0 || 256 < len || 256 < a % 256 + len then (s.wr .nor F.NORSTAT_result 3).raise .nor 2
      else s.norIssue ⟨false, a, s.readBytes (0x4000200000 + 4 * s.rd .nor F.NORSRC_addr) len, false⟩
    else if cmd = 2 then
      if a < 0x10000 then (s.wr .nor F.NORSTAT_result 1).raise .nor 2
      else if a % 65536 ≠ 0 then (s.wr .nor F.NORSTAT_result 3).raise .nor 2
      else s.norIssue ⟨true, a, [], false⟩
    else (s.wr .nor F.NORSTAT_result 3).raise .nor 2

/-- NOR_PROGRAM (R560, R562): a write to NORCMD of length `len`, command 1, by the store at `pc`. -/
def execNorProgram (r : Requester) (pc : Word) (len : Fin 512) (s : State) : Out :=
  live s (s.norCommand r pc.toNat (256 * len.val + 1))

/-- NOR_ERASE (R560, R562): a write to NORCMD of command 2 by the store at `pc`. -/
def execNorErase (r : Requester) (pc : Word) (s : State) : Out := live s (s.norCommand r pc.toNat 2)

/-! ### The ledger (R487, R488) -/

/-- A ledger entry. -/
def State.age (s : State) (e : Nat) : Age := Tbl.look Age.none s.recs.ages e

/-- Set a ledger entry. -/
def State.setAge (s : State) (e : Nat) (a : Age) : State :=
  { s with recs := { s.recs with ages := Tbl.put Age.none s.recs.ages e a } }

/-- 100 × num ÷ den clamped to 0 to 100; a zero divisor leaves the health open. -/
def healthRatio (e latest : Nat) (num den : Int) : Nat :=
  if den = 0 then Config.healthOpen e latest else (clampInt 0 100 (100 * num / den)).toNat

/-- The whole hundredths of a decibel in the ratio of two linear values, up to 6 dB: d such that (hi ÷ lo)^2000 ≥ 10^d. -/
def dbBetween (a b : Nat) : Nat :=
  let hi := max a b
  let lo := min a b
  ((List.range 600).filter (fun d => decide ((lo ^ 50) ^ 40 * 10 ^ (d + 1) ≤ (hi ^ 50) ^ 40))).length

/-- Health (R487): the remaining margin from baseline to limit; an actuator's is taken in decibels, in both directions. -/
def healthOf (e : Nat) (slope : Bool) (base latest : Nat) : Nat :=
  let b : Int := base
  let l : Int := latest
  if e < 48 && slope then healthRatio e latest (5 * l - 3 * b) (2 * b)
  else if e < 52 then healthRatio e latest (3 * b - 2 * l) b
  else if e < 68 then healthRatio e latest (600 - (dbBetween base latest : Int)) 600
  else if e = 68 then healthRatio e latest (2 * b - l) b
  else if e < 169 then healthRatio e latest (10 - l) (10 - b)
  else if e < 177 then healthRatio e latest (12 - l) (12 - b)
  else healthRatio e latest (100000 - l) (100000 - b)

/-- A measurement enters the ledger (R487, R488): the first is the baseline. Threshold and slope of a data emitter are kept
apart, and the entry shows the one of lower health. -/
def State.measure (s : State) (e : Nat) (slope : Bool) (v : Nat) : State :=
  let a := s.age e
  let n := satAdd 16 a.count 1
  if e < 48 then
    let old := Tbl.look (0, 0, 255) s.recs.halves (2 * e + b2n slope)
    let base := if old.2.2 = 255 then v else old.1
    let mine := (base, v, healthOf e slope base v)
    let s : State := { s with recs := { s.recs with
      halves := Tbl.put (0, 0, 255) s.recs.halves (2 * e + b2n slope) mine } }
    let other := Tbl.look (0, 0, 255) s.recs.halves (2 * e + b2n (!slope))
    let low := if other.2.2 < mine.2.2 then other else mine
    s.setAge e ⟨low.1, low.2.1, s.recs.hours, low.2.2, a.flags, n⟩
  else
    let base := if a.count = 0 then v else a.base
    s.setAge e ⟨base, v, s.recs.hours, healthOf e slope base v, a.flags, n⟩

/-! ### The form of a record (R492, R496) -/

/-- The kinds of R496 in table order. -/
def recKind (k : Nat) : Nat :=
  ([0x0201, 0x0202, 0x0301, 0x0302, 0x0303, 0x0304, 0x0305, 0x0401, 0x1001, 0x1002][k]?).getD 0

/-- The payload length of a kind (R496). -/
def recLen (k : Nat) : Nat := ([192, 1024, 4912, 393216, 2048, 512, 1024, 64, 64, 1024][k]?).getD 0

/-- Sectors per slot of a kind (R496). -/
def recSectors (k : Nat) : Nat := if k = 3 then 7 else 1

/-- The home of a slot (R496): the first sector of slot A or B. -/
def recHome (k slot : Nat) : Nat :=
  (([[0, 1], [2, 3], [4, 5], [6, 13], [20, 21], [22, 23], [24, 25], [26, 27], [28, 29], [30, 31]][k]?).getD [])[slot]?.getD 0

/-- The first sector of a slot through the slot map (R497): 0xFF names the home; kinds 0x0201 and 0x0301 never move. -/
def State.recSector (s : State) (k slot : Nat) : Nat :=
  let m := Tbl.look 255 s.recs.slotMap (2 * (k - 1) + slot)
  if k = 0 || k = 2 || m = 255 then recHome k slot else m

/-- The NOR offset of a record-area sector (R496). -/
def sectorOff (n : Nat) : Nat := 0x7800000 + n * 0x10000

/-- Values as little-endian bytes of given widths, the widths repeating. -/
def packWidths (ws : List Nat) : List Nat → Nat → List Byte
  | [], _ => []
  | v :: vs, i => leBytes ((ws[i % ws.length]?).getD 1) v ++ packWidths ws vs (i + 1)

/-- The payload of a record from its values (R488, R319, R324, R149), padded to its length. -/
def recPayload (k : Nat) (vals : List Nat) : List Byte :=
  let bs := if k = 0 then packWidths [1, 1, 2, 4, 2, 2, 2, 2, 2, 2, 2, 2] vals 0
    else if k = 2 then packWidths [4, 4, 4, 1, 1, 2] (vals.take 1830) 0 ++ packWidths [1] (vals.drop 1830) 0
    else if k = 1 || k = 3 || k = 8 then packWidths [1] vals 0
    else if k = 6 then packWidths [4] vals 0
    else Config.recordLayout k vals
  (bs ++ List.replicate (recLen k - bs.length) 0).take (recLen k)

/-- Header, payload and check word of a record in the long form (R492). -/
def recBody (k gen : Nat) (vals : List Nat) : List Byte :=
  let p := leBytes 2 (recKind k) ++ leBytes 2 2 ++ leBytes 4 gen ++ leBytes 4 (recLen k) ++ leBytes 4 0 ++ recPayload k vals
  p ++ leBytes 4 (crc32c p)

/-- The crust word (R492). -/
def crustWord : Nat := 0x5A3CC3A5

/-- The crust word of a slot stands (R493). -/
def State.recCrust (s : State) (k slot : Nat) : Bool :=
  s.readLE (norAddr (sectorOff (s.recSector k slot) + 20 + recLen k)) 4 == crustWord

/-- The header is that of the kind, and the check word matches (R493). -/
def State.recCheck (s : State) (k slot : Nat) : Bool :=
  let a := norAddr (sectorOff (s.recSector k slot))
  s.readLE a 2 == recKind k && s.readLE (a + 2) 2 == 2 &&
  s.readLE (a + 16 + recLen k) 4 == crc32c (s.readBytes a (16 + recLen k))

/-- The generation in a slot, with what its payload stands for, if the slot holds a valid record (R493). -/
def State.recSlot (s : State) (k slot : Nat) : Option (Nat × List Nat) :=
  if s.recCrust k slot && s.recCheck k slot then
    some (s.readLE (norAddr (sectorOff (s.recSector k slot)) + 4) 4, (Tbl.look (0, []) s.recs.slots (2 * k + slot)).2)
  else none

/-- The current record of a kind (R493): slot, generation and values; equal generations select slot A. -/
def State.recCurrent (s : State) (k : Nat) : Option (Nat × Nat × List Nat) :=
  match s.recSlot k 0, s.recSlot k 1 with
  | some a, some b => if a.1 < b.1 then some (1, b) else some (0, a)
  | some a, none => some (0, a)
  | none, some b => some (1, b)
  | none, none => none

/-! ### What the records hold (R496) -/

/-- The stock job table (R321): Core[0] to Core[6] run image 2, start at boot and restart on fault; Core[7] is unused. Fields of
an entry: image, guest, flags, start, KCAP0 to KCAP7. -/
def jobDefault (c f : Nat) : Nat :=
  if f = 0 then (if c < 7 then 2 else 255) else if f = 2 then (if c < 7 then 3 else 0)
  else if 4 ≤ f && c < 7 then Config.stockAperture c (f - 4) % 2048 else 0

/-- A field of the job table. -/
def State.job (s : State) (c f : Nat) : Nat := Tbl.look (jobDefault c f) s.recs.jobs (16 * c + f)

/-- The fields of the write calibration of a beam: BWDELAY, BWSSHAPE0 and 1, BWSEDGE0 to 7. -/
def writeCalFields : List Field :=
  [F.BWDELAY_offset, F.BWSSHAPE0_wc, F.BWSSHAPE0_wl, F.BWSSHAPE0_wm, F.BWSSHAPE0_wf, F.BWSSHAPE1_w2, F.BWSSHAPE1_w1] ++
  (List.range 8).flatMap (fun i => [F.BWSEDGE_e3 i, F.BWSEDGE_e2 i, F.BWSEDGE_e1 i, F.BWSEDGE_e0 i])

/-- The register fields a kind saves. -/
def recFields (k : Nat) : List (UnitId × Field) :=
  if k = 4 then
    (List.range 4).map (fun h => (UnitId.laser h, F.LPMAX_max)) ++
    (List.range 48).flatMap (fun b => writeCalFields.map (fun f => (UnitId.beam b, f)))
  else if k = 5 then
    (List.range 4).flatMap (fun h => ([F.HSVOFS_offset, F.HCALFOC_trim, F.HCALTLT_trim, F.HCALLAY_trim, F.HFSNOM_lfs, F.HFSNOM_fs] ++
      (List.range 6).map F.HADCCFG_gain).map (fun f => (UnitId.head h, f))) ++
    (List.range 48).map (fun b => (UnitId.beam b, F.BCDRAWOFS_ofs))
  else []

/-- The keys of the gain and scale tables of the four laser units (R126). -/
def lptKeys : List Nat := (List.range 4).flatMap (fun h => (List.range 112).map (fun w => 256 * h + 32 + w))

/-- The keys of word 15 of every region of stock slots 0 to 15. -/
def gainKeys : List Nat := (List.range 16).flatMap (fun n => (List.range 16).map (fun r => 256 * n + 16 * r + 15))

/-- What a record of kind `k` written now holds. -/
def State.recVals (s : State) (k : Nat) : List Nat :=
  if k = 0 then (List.range 8).flatMap (fun c => (List.range 12).map (fun f => s.job c f))
  else if k = 1 then (List.range 512).flatMap (fun n =>
    let r := Tbl.look ⟨false, 0⟩ s.lanes.route n
    [b2n r.enable, r.lane])
  else if k = 2 then
    (List.range 305).flatMap (fun e => let a := s.age e; [a.base, a.latest, a.hours, a.health, a.flags, a.count]) ++
    (List.range 32).map (fun i => Tbl.look 255 s.recs.slotMap i)
  else if k = 3 then (s.readBytes (s.rp.base + 0x4900000) 393216).map BitVec.toNat
  else if k = 4 then lptKeys.map (fun i => Tbl.look 0 s.lpt i) ++ (recFields 4).map (fun p => s.rd p.1 p.2)
  else if k = 5 then (List.range 64).map (fun i => Tbl.look 0 s.layTrim i % 65536) ++ (recFields 5).map (fun p => s.rd p.1 p.2)
  else if k = 6 then gainKeys.map (fun i => Tbl.look 0 s.coefs i)
  else if k = 7 then [s.recs.hours, s.recs.cycles, s.recs.shutdowns]
  else if k = 8 then (List.range 64).map (fun i => Tbl.look (paramDefault i) (s.rcd.paramNext.getD s.rcd.param) i)
  else s.recs.attSerial :: s.recs.atts.flatMap (fun e => [e.1, e.2])

/-- Set register fields from values in order. -/
def State.setFields (s : State) (fs : List (UnitId × Field)) (vals : List Nat) : State :=
  (fs.zip vals).foldl (fun t p => t.wr p.1.1 p.1.2 p.2) s

/-- Pairs of a list. -/
def pairsOf : List Nat → List (Nat × Nat)
  | a :: b :: r => (a, b) :: pairsOf r
  | _ => []

/-- What a valid record of kind `k` holds is loaded (R496, R507). -/
def State.recLoad (s : State) (k : Nat) (vals : List Nat) : State :=
  if k = 0 then { s with recs := { s.recs with
    jobs := (vals.zipIdx).foldl (fun t p => Tbl.put (jobDefault (p.2 / 12) (p.2 % 12)) t (16 * (p.2 / 12) + p.2 % 12) p.1) [] } }
  else if k = 1 then { s with lanes := { s.lanes with
    route := ((pairsOf vals).zipIdx).foldl (fun t p => Tbl.put ⟨false, 0⟩ t p.2 ⟨p.1.1 == 1, p.1.2⟩) [] } }
  else if k = 2 then { s with recs := { s.recs with
    ages := (List.range 305).foldl (fun t e =>
      let v (i : Nat) : Nat := (vals[6 * e + i]?).getD 0
      Tbl.put Age.none t e ⟨v 0, v 1, v 2, v 3, v 4, v 5⟩) []
    slotMap := ((vals.drop 1830).zipIdx).foldl (fun t p => Tbl.put 255 t p.2 p.1) [] } }
  else if k = 3 then s.engineStore (s.rp.base + 0x4900000) (vals.map (BitVec.ofNat 8))
  else if k = 4 then
    ({ s with lpt := (lptKeys.zip vals).foldl (fun t p => Tbl.put 0 t p.1 p.2) s.lpt } : State).setFields (recFields 4)
      (vals.drop 448)
  else if k = 5 then
    ({ s with layTrim := ((vals.take 64).zipIdx).foldl (fun t p =>
      Tbl.put 0 t p.2 (Tbl.look 0 t p.2 / 65536 * 65536 + p.1)) s.layTrim } : State).setFields (recFields 5) (vals.drop 64)
  else if k = 6 then { s with coefs := (gainKeys.zip vals).foldl (fun t p => Tbl.put 0 t p.1 p.2) s.coefs }
  else if k = 7 then { s with recs := { s.recs with
    hours := (vals[0]?).getD 0, cycles := (vals[1]?).getD 0, shutdowns := (vals[2]?).getD 0 } }
  else if k = 8 then { s with rcd := { s.rcd with
    param := (vals.zipIdx).foldl (fun t p => Tbl.put (paramDefault p.2) t p.2 p.1) [] } }
  else { s with recs := { s.recs with
    attSerial := (vals[0]?).getD 0
    atts := (pairsOf (vals.drop 1)).foldl (fun t p => Tbl.put 0 t p.1 p.2) [] } }

/-! ### Writing a record (R494, R495, R497) -/

/-- The pages of a body programmed from NOR offset `off`, each within one 256-byte page. -/
def pageOps (off : Nat) : Nat → List Byte → List NorOp
  | 0, _ => []
  | _, [] => []
  | n + 1, bs =>
    let k := 256 - off % 256
    ⟨false, off, bs.take k, true⟩ :: pageOps (off + k) n (bs.drop k)

/-- The NOR operations of a record update (R494): erase every sector of the target, program header, payload and check word,
then the crust word alone. -/
def recOps (k sector gen : Nat) (vals : List Nat) : List NorOp :=
  let off := sectorOff sector
  let body := recBody k gen vals
  (List.range (recSectors k)).map (fun i => ⟨true, off + 65536 * i, [], true⟩) ++ pageOps off 1600 body ++
    [⟨false, off + body.length, leBytes 4 crustWord, true⟩]

/-- A slot's sectors have reached 90,000 erases, and the slot may move (R489, R497). -/
def State.worn (s : State) (k sector : Nat) : Bool :=
  k != 0 && k != 2 && (List.range (recSectors k)).any (fun i => decide (90000 ≤ (s.age (177 + sector + i)).latest))

/-- The lowest free group of spare sectors 32 to 127 (R497). -/
def State.spareSector (s : State) (k : Nat) : Option Nat :=
  let used (n : Nat) : Bool := (List.range 10).any (fun j => (List.range 2).any (fun x =>
    decide (s.recSector j x ≤ n) && decide (n < s.recSector j x + recSectors j)))
  ((List.range 96).map (32 + ·)).find? (fun n => decide (n + recSectors k ≤ 128) &&
    (List.range (recSectors k)).all (fun i => !used (n + i)))

/-- The first operation of the write under way is issued. -/
def State.recIssue (s : State) : State :=
  match s.recs.job with
  | some j =>
    (match j.ops with
    | o :: _ => s.norIssue o
    | [] => s)
  | none => s

/-- The keeper starts writing a record of kind `k` (R494): snapshot, target slot, generation; a worn target moves to spares. -/
def State.recStart (s : State) (k : Nat) (again : Bool) : State :=
  let cur := s.recCurrent k
  let slot := if (cur.map (fun c => c.1)) = some 0 then 1 else 0
  let gen := (cur.map (fun c => c.2.1 + 1)).getD 1
  let home := s.recSector k slot
  let sector := if s.worn k home then (s.spareSector k).getD home else home
  let vals := s.recVals k
  ({ s with recs := { s.recs with job := some ⟨k, slot, sector, gen, vals, recOps k sector gen vals, again⟩ } } : State).recIssue

/-- The next queued record is started when the NOR unit is free (R495). -/
def State.recNext (s : State) : State :=
  if s.recs.job.isSome || s.recs.nor.isSome then s
  else match s.recs.queue with
    | k :: rest => ({ s with recs := { s.recs with queue := rest } } : State).recStart k false
    | [] => s

/-- A write of a record is requested (R495): a kind queued and not yet started adds nothing. -/
def State.recRequest (s : State) (k : Nat) : State :=
  if s.recs.queue.contains k then s
  else ({ s with recs := { s.recs with queue := s.recs.queue ++ [k] } } : State).recNext

/-- RECORD_WRITE_REQUEST (R495, R496). -/
def execRecordWriteRequest (k : Fin 10) (s : State) : Out := live s (s.recRequest k.val)

/-- RECORD_RETRY (R494): one second after a failed update it is tried once more. -/
def execRecordRetry (s : State) : Out :=
  match s.recs.retry with
  | k :: rest =>
    if s.recs.job.isSome || s.recs.nor.isSome then .next s
    else live s (({ s with recs := { s.recs with retry := rest } } : State).recStart k true)
  | [] => .next s

/-- An erase of a record-area sector is counted in the ledger (R487). -/
def State.countErase (s : State) (o : NorOp) : State :=
  if o.erase && 0x7800000 ≤ o.addr then
    let e := 177 + (o.addr - 0x7800000) / 65536
    s.measure e false ((s.age e).latest + 1)
  else s

/-- The record under way has been written: its slot holds it, and a slot that moved is noted in the ledger's slot map, which is
saved (R497). -/
def State.recDone (s : State) (j : RecJob) : State :=
  let moved : Bool := s.recSector j.kind j.slot != j.sector
  let s : State := { s with recs := { s.recs with
    job := none
    slots := Tbl.put (0, []) s.recs.slots (2 * j.kind + j.slot) (j.gen, j.vals)
    slotMap := if moved then Tbl.put 255 s.recs.slotMap (2 * (j.kind - 1) + j.slot) j.sector else s.recs.slotMap } }
  if moved then ((s.crumb 3 0 .keeper 23 (177 + j.sector) 0).raise .keeper 23).recRequest 2 else s

/-- NOR_COMMAND_DONE (R494, R562): the running command ends; a record write goes on to its next operation, or a failed one ends
with KEEP_RECFAIL and is tried once more. -/
def execNorCommandDone (err : Bool) (s : State) : Out :=
  match s.recs.nor with
  | none => .next s
  | some o =>
    let t := s.norEnd o err
    if !o.rcd then live s t.recNext
    else
      let t := if err then t else t.countErase o
      match t.recs.job with
      | none => live s t.recNext
      | some j =>
        if err then
          live s ((({ t with recs := { t.recs with
            job := none
            retry := if j.again then t.recs.retry else t.recs.retry ++ [j.kind] } } : State).raise .keeper 21).recNext)
        else
          match j.ops with
          | _ :: o2 :: rest =>
            live s ({ t with recs := { t.recs with job := some { j with ops := o2 :: rest } } } : State).recIssue
          | _ => live s (t.recDone j).recNext

end Sys2Proof.Machine
end

