-- ==== Sys2Proof/Machine/Power.lean ====
section
/-! DEFINITION. Power states (R31, R135, R371, R372), the restriction to PS2 (R598), the thermal unit (R596, R597) and the fan
drive (R600, R601). -/

namespace Sys2Proof.Machine

/-! ### Power states -/

/-- The device is in power state `ps` from now on; the entry is counted (R451). -/
def State.setPs (s : State) (ps : Nat) : State :=
  if s.rcd.ps = ps then s
  else
    (({ s with rcd := { s.rcd with ps := ps, psLast := if ps ≤ 2 then ps else s.rcd.psLast } } : State).count (244 + ps)).psOps

/-- The keeper holds the job cores, or lets them go on (R31). -/
def State.holdCores (s : State) (b : Bool) : State :=
  (List.range 8).foldl (fun t n => t.setFlag .keeper (F.kc n F.KCCTRL_hold) b) s

/-- Pending changes of power state are superseded by a new one. -/
def State.dropPower (s : State) : State :=
  { s with
    rcd := { s.rcd with drains := s.rcd.drains.filter (fun d => match d with
      | .power _ => false
      | _ => true) }
    tb := { s.tb with paused := s.tb.paused.filter (· != 2) } }

/-- The device returns from PS3 or PS4 to an operational state (R31, R372): the cores go on and the spindle starts. -/
def State.wakeTo (s : State) (ps : Nat) : State :=
  let t := (s.dropPower.holdCores false).setPs ps
  if t.medium.isSome then t.spCommand 1 (ps = 1) else t

/-- A change to power state `ps` begins (R31, R135, R372, R598). -/
def State.psBegin (s : State) (ps : Nat) : State :=
  let cur := s.rcd.ps
  if ps = cur then s.dropPower
  else if 3 ≤ cur then
    (if ps ≤ 2 then s.wakeTo ps
    else (s.dropPower.holdCores (ps = 4)).setPs ps)
  else if 3 ≤ ps then
    let t := s.dropPower.closeAll
    let first : List Drain := if cur = 1 && !s.flag .thermal F.THSTAT_restrict then [.power 0] else []
    let t : State := { t with rcd := { t.rcd with drains := t.rcd.drains ++ first ++ [.power ps] } }
    if first.isEmpty then t else { t with tb := { t.tb with paused := t.tb.paused ++ [2] } }
  else if cur = 1 || ps = 1 then
    let t := s.dropPower
    { t with
      rcd := { t.rcd with drains := t.rcd.drains ++ [.power ps] }
      tb := { t.tb with paused := t.tb.paused ++ [2] } }
  else s.dropPower.setPs ps

/-- A host asks for power state `ps` (R372): PS0 and PS1 wait while the restriction holds (R598). -/
def State.psRequest (s : State) (ps : Nat) : State :=
  if s.flag .thermal F.THSTAT_restrict && ps ≤ 1 then { s with rcd := { s.rcd with psWant := some ps } }
  else ({ s with rcd := { s.rcd with psWant := none } } : State).psBegin ps

/-- A command that needs the medium returns the device to its last operational state (R31, R372). -/
def State.needMedium (s : State) : State :=
  if s.rcd.ps < 3 then s
  else if s.flag .thermal F.THSTAT_restrict && s.rcd.psLast < 2 then
    ({ s with rcd := { s.rcd with psWant := some s.rcd.psLast } } : State).wakeTo 2
  else s.wakeTo s.rcd.psLast

/-- IDLE_PS3 (R324): idleps3 seconds have passed without commands. -/
def execIdlePs3 (s : State) : Out :=
  if s.paramLE 8 2 = 0 || 3 ≤ s.rcd.ps || s.allOutstanding ≠ 0 then .next s else live s (s.psRequest 3)

/-- PS4_WAKE (R31): the keeper releases the held cores for the entry that arrived. -/
def execPs4Wake (s : State) : Out := if s.rcd.ps = 4 && s.allOutstanding ≠ 0 then live s (s.holdCores false) else .next s

/-- PS4_IDLE_TIMEOUT (R31): one second with no command outstanding. -/
def execPs4IdleTimeout (s : State) : Out :=
  if s.rcd.ps = 4 && s.allOutstanding = 0 then live s (s.holdCores true) else .next s

/-- The drain before PS3 or PS4 is done (R31, R496): heads are released, the spindle stops, records are saved and PS4 holds the
job cores. -/
def State.enterIdle (s : State) (ps : Nat) : State :=
  let t := (List.range 4).foldl (fun t h => if t.hState h = hRetracted then t else t.release h false) s
  let t := if t.spState = 0 then t else t.spCommand 3 false
  let t := [3, 4, 5, 2, 7].foldl (fun t k => t.recRequest k) t
  (t.holdCores (ps = 4)).setPs ps

/-- The sealed trays are written before a change to or from PS1 (R135): the spindle changes speed, and sealing resumes with
SPEED_CHANGE_DONE; with the spindle not turning the change is made at once. -/
def State.changePs (s : State) (ps : Nat) : State :=
  let r := s.changeSpeed (ps = 1)
  if r.2 then { r.1 with rcd := { r.1.rcd with ps := ps, psLast := ps } }.count (244 + ps)
  else
    let t := s.setPs ps
    { t with tb := { t.tb with paused := t.tb.paused.filter (· != 2) } }

/-! ### The restriction (R598) -/

/-- The restriction follows throttle and fan fault (R598). -/
def State.restrictStep (s : State) : State :=
  let now := s.flag .thermal F.THSTAT_throttle || s.flag .thermal F.THSTAT_fanfault
  let was := s.flag .thermal F.THSTAT_restrict
  let t := s.setFlag .thermal F.THSTAT_restrict now
  if now && !was then
    (if t.rcd.ps ≤ 1 then ({ t with rcd := { t.rcd with psWant := some t.rcd.ps } } : State).psBegin 2 else t)
  else if was && !now then
    (match t.rcd.psWant with
      | some p => t.psRequest p
      | none => t)
  else t

/-! ### The fan (R600, R601) -/

/-- The drive is forced (R601). -/
def State.fanForced (s : State) : Bool :=
  s.flag .thermal F.THSTAT_throttle || s.flag .thermal F.THSTAT_sensor || s.flag .fan F.FNCTRL_force ||
  s.flag .fan F.FNSTAT_checking || s.th.hold || s.flag .fan F.FNSTAT_fault

/-- The applied duty follows: 100 % while forced, else slot 73's command. -/
def State.refreshForce (s : State) : State :=
  let f := s.fanForced
  let was := s.flag .fan F.FNSTAT_forced
  let t := s.setFlag .fan F.FNSTAT_forced f
  if f then t.wr .fan F.FNDUTY_applied 1024
  else if was then t.wr .fan F.FNDUTY_applied (t.rd .fan F.FNDUTY_cmd)
  else t

/-- The fan fault is set (R600, R601): the drive stays forced, a crumb is left and the restriction begins. -/
def State.setFanFault (s : State) : State :=
  let t := ((s.setFlag .fan F.FNSTAT_fault true).setFlag .thermal F.THSTAT_fanfault true).setFlag .fan F.FNSTAT_checking false
  (((t.report .fan 2 0 0).raise .fan 2).restrictStep).refreshForce

/-- FAN_TACH_PULSE (R451, R600, R601): counter 250, the speed from the interval of the last two pulses in µs, and the end of a tach check. -/
def execFanTachPulse (us : Nat) (s : State) : Out :=
  let t := match s.th.pulse with
    | some _ => if us = 0 then s else s.wr .fan F.FNTACH_rpm (min 65535 (30000000 / us))
    | none => s
  let t : State := { t with th := { t.th with pulse := some s.time.ns } }
  let t := t.count 250
  let t := if t.flag .fan F.FNSTAT_checking then
      ({ t with th := { t.th with hold := true } } : State).setFlag .fan F.FNSTAT_checking false
    else t
  live s t.refreshForce

/-- The tach floor in 1/1,024 (R603). -/
def State.fanFloor (s : State) : Nat :=
  let m := s.rd .fan F.FNCFG_mindu
  let m := if 5 ≤ m && m ≤ 100 then m else 20
  m * 1024

/-- FAN_NOTACH (R601): a 3 s gap at adequate duty starts a tach check. -/
def execFanNotach (s : State) : Out :=
  if s.rd .fan F.FNDUTY_applied * 100 < s.fanFloor || s.flag .fan F.FNSTAT_checking || s.flag .fan F.FNSTAT_fault then .next s
  else
    let t : State := { s with th := { s.th with hold := false } }
    live s ((t.setFlag .fan F.FNSTAT_checking true).refreshForce.raise .fan 1)

/-- FAN_FAULT (R601): no pulse within 3 s of a tach check's start. -/
def execFanFault (s : State) : Out := if s.flag .fan F.FNSTAT_checking then live s s.setFanFault else .next s

/-- FAN_RECOVER (R601): 10 s of pulses with no gap above 1 s end a check's forcing or the fan fault. -/
def execFanRecover (s : State) : Out :=
  let fault := s.flag .fan F.FNSTAT_fault
  let t : State := { s with th := { s.th with hold := false } }
  if fault then
    let t := (t.setFlag .fan F.FNSTAT_fault false).setFlag .thermal F.THSTAT_fanfault false
    live s ((t.raise .fan 3).restrictStep.refreshForce)
  else live s t.refreshForce

/-- FAN_SHORT (R600): FANPWR turns off and the fan fault follows. -/
def execFanShort (s : State) : Out := live s (((s.setFlag .fan F.FNSTAT_short true).raise .fan 4).setFanFault)

/-! ### The thermal unit (R596, R597) -/

/-- One die's sensor at a 1 ms sample (R596): a reading in 1/16 °C, or none when the sensor did not update. A sensor outside
−40 °C to 150 °C, or without an update for 10 ms, is in fault. -/
def State.sampleDie (s : State) (d : Nat) (v : Option Int) : State :=
  let stale := match v with
    | some _ => 0
    | none => Tbl.look 0 s.th.stale d + 1
  let bad : Bool := match v with
    | some x => decide (x < -640) || decide (2400 < x)
    | none => Tbl.look false s.th.bad d || decide (10 ≤ stale)
  let t : State := { s with th := { s.th with
    stale := Tbl.put 0 s.th.stale d stale, bad := Tbl.put false s.th.bad d bad } }
  match v with
  | some x =>
    let t := t.wr .thermal (F.THDIE_temp d) (unsigned 16 x)
    if signed 16 (t.rd .thermal (F.THDIE_peak d)) < x then t.wr .thermal (F.THDIE_peak d) (unsigned 16 x) else t
  | none => t

/-- The throttle threshold in force, °C (R602). -/
def State.throttleAt (s : State) : Int := (min 100 (max 90 (s.rd .thermal F.THLIM_throttle)) : Nat)

/-- The temperature a die counts with (R596): a sensor in fault is taken to read the throttle threshold. -/
def State.dieTemp (s : State) (d : Nat) : Int :=
  if Tbl.look false s.th.bad d then 16 * s.throttleAt else signed 16 (s.rd .thermal (F.THDIE_temp d))

/-- The highest die junction, in K. -/
def State.kelvin (s : State) : Nat := ((signed 16 (s.rd .thermal F.THCOMP_comp)) / 16 + 273).toNat

/-- The over temperature threshold (R375). -/
def State.overThreshold (s : State) : Nat := Tbl.look 373 s.hc.feats 4

/-- The composite temperature reaches the host's threshold between two states: hosts that asked for it are told (R379). -/
def State.noteHot (s t : State) : State :=
  if s.kelvin < s.overThreshold && s.overThreshold ≤ t.kelvin && bitOf (Tbl.look 0 t.hc.feats 0x0B) 1 then t.asyncEvent 1 1 2 else t

/-- THSTAT.sensor follows the dies whose reading is bad (R596). -/
def State.sensorStep (t : State) : State :=
  let anyBad := [0, 1, 2].any (fun d => Tbl.look false t.th.bad d)
  if anyBad && !t.flag .thermal F.THSTAT_sensor then (t.setFlag .thermal F.THSTAT_sensor true).raise .thermal 4
  else t.setFlag .thermal F.THSTAT_sensor anyBad

/-- The composite value is `c`, and the runs of cool and of cold samples go on or start anew. -/
def State.compositeIs (t : State) (c : Int) : State :=
  let t := t.wr .thermal F.THCOMP_comp (unsigned 16 c)
  { t with th := { t.th with
    cool := if c < 16 * (t.throttleAt - 5) then t.th.cool + 1 else 0
    cold := if c < 16 * 105 then t.th.cold + 1 else 0 } }

/-- Throttling starts and ends. -/
def State.throttleStep (t : State) (c : Int) : State :=
  if decide (16 * t.throttleAt ≤ c) && !t.flag .thermal F.THSTAT_throttle then
    ((t.setFlag .thermal F.THSTAT_throttle true).raise .thermal 1).count 249
  else if t.flag .thermal F.THSTAT_throttle && 10000 ≤ t.th.cool then
    (t.setFlag .thermal F.THSTAT_throttle false).raise .thermal 3
  else t

/-- Writing stops and resumes. -/
def State.stopWriteStep (t : State) (c : Int) : State :=
  if 16 * 110 ≤ c && !t.flag .thermal F.THSTAT_stopwrite then
    (t.setFlag .thermal F.THSTAT_stopwrite true).raise .thermal 2
  else if t.flag .thermal F.THSTAT_stopwrite && 1000 ≤ t.th.cold then
    (t.setFlag .thermal F.THSTAT_stopwrite false).raise .thermal 3
  else t

/-- THERMAL_SAMPLE (R596 to R598, R379). -/
def execThermalSample (core front drive : Option Int) (s : State) : Out :=
  let t := (((s.sampleDie 0 core).sampleDie 1 front).sampleDie 2 drive).sensorStep
  let c := max (t.dieTemp 0) (max (t.dieTemp 1) (t.dieTemp 2))
  let t := ((t.compositeIs c).throttleStep c).stopWriteStep c
  live s (State.noteHot s t).restrictStep.refreshForce

/-- FAULT_N outside device reset (R585). -/
def State.faultN (s : State) : Bool := !(s.flag .thermal F.THSTAT_fanfault || s.flag .thermal F.THSTAT_stopwrite)

/-! ### Emitters and VMOT -/

/-- EMITTER_ENABLE (R595): 1 ms after HLDEN rises the head's emitter outputs are enabled. -/
def execEmitterEnable (h : Fin 4) (s : State) : Out :=
  if s.flag (.head h) F.HSVPWR_on then live s (s.updHd h (fun d => { d with emitters := true })) else .next s

/-- VMOT_ABOVE_WARN (R216, R600): the under-voltage flags clear, the motor outputs may be used again and FANPWR turns on. -/
def execVmotAboveWarn (mv : Nat) (s : State) : Out :=
  if mv < s.rd .vmot F.VMUVT_warn then .next s
  else
    let t := ((s.vmotSample mv).setFlag .vmot F.VMSTAT_uvwarn false).setFlag .vmot F.VMSTAT_uvfault false
    let t := t.setFlag .fan F.FNSTAT_short false
    live s { t with vmotNs := s.time.ns }

end Sys2Proof.Machine
end

