-- ==== Sys2Proof/Machine/Calib.lean ====
section
/-! DEFINITION. Background calibration (R477 to R484), ageing, re-planning and retirement (R487 to R491), and the end of a
sequencer's step (R194), which at the first acquire looks for a replaced head. -/

namespace Sys2Proof.Machine

/-! ### Corrections (R479) -/

/-- The direction toward the side whose value is higher by more than 1 %. -/
def toward (plus minus : Nat) : Int :=
  if minus * 101 < plus * 100 then 1 else if plus * 101 < minus * 100 then -1 else 0

/-- The direction toward the half whose amplitude is larger, when they differ by more than 1 % of their sum (rows 7 and 8). -/
def towardHalf (p n : Nat) : Int :=
  if p + n < 100 * (p - n) then 1 else if p + n < 100 * (n - p) then -1 else 0

/-- A correction of a beam is held at its limit: BEAM_CALLIMIT and a crumb that names the row (R479). -/
def State.beamLimit (s : State) (b row : Nat) : State := (s.report (.beam b) 10 row 0).raise (.beam b) 10

/-- A correction of a head is held at its limit: HEAD_BGDONE with result 3 and a crumb that names the row (R479). -/
def State.headLimit (s : State) (h row : Nat) : State :=
  ((s.report (.head h) 15 row 0).wr (.head h) F.HBGRES_result 3).raise (.head h) 15

/-- Byte `i` of a beam's live entry, signed. -/
def State.liveByte (s : State) (b i : Nat) : Int := sbyte ((s.liveBytes b)[i]?.getD 0)

/-- Set byte `i` of a beam's live entry. -/
def State.setLiveByte (s : State) (b i : Nat) (v : Int) : State :=
  s.setLive b ((s.liveBytes b).set i (BitVec.ofInt 8 v))

/-- The hits field counts an update of the entry, saturating (R149). -/
def State.liveHit (s : State) (b : Nat) : State :=
  let n := min 65535 (leNat (((s.liveBytes b).drop 12).take 2) + 1)
  (s.setLiveByte b 12 (n % 256 : Nat)).setLiveByte b 13 (n / 256 : Nat)

/-- A signed byte of the live entry moves by one within ±127 (rows 2 and 4). -/
def State.moveLive (s : State) (b i row : Nat) (d : Int) : State :=
  if d = 0 then s
  else
    let v := s.liveByte b i + d
    if v < -127 || 127 < v then s.beamLimit b row else (s.setLiveByte b i v).liveHit b

/-- BCDRAWOFS moves by one within ±127 (row 3). -/
def State.moveDraw (s : State) (b : Nat) (d : Int) : State :=
  if d = 0 then s
  else
    let v := signed 8 (s.rd (.beam b) F.BCDRAWOFS_ofs) + d
    if v < -127 || 127 < v then s.beamLimit b 3 else s.wr (.beam b) F.BCDRAWOFS_ofs (unsigned 8 v)

/-- Word index and byte of gain(v, l, k) (R126). -/
def gainWord (v l k : Nat) : Nat := 32 + 3 * (16 * v + l) + k / 4

/-- A byte of the laser unit's tables. -/
def State.lptByte (s : State) (h w j : Nat) : Nat := bits (Tbl.look 0 s.lpt (256 * h + w)) (8 * j) 8

/-- Set a byte of the laser unit's tables. -/
def State.setLptByte (s : State) (h w j v : Nat) : State :=
  { s with lpt := Tbl.upd 0 s.lpt (256 * h + w) (fun x => x - bits x (8 * j) 8 * 2 ^ (8 * j) + v % 256 * 2 ^ (8 * j)) }

/-- gain(v, l, k) of head `h`. -/
def State.gain (s : State) (h v l k : Nat) : Nat := s.lptByte h (gainWord v l k) (k % 4)

/-- The gain of a beam moves within 64 to 255 (row 6). -/
def State.moveGain (s : State) (b v l : Nat) (d : Int) : State :=
  if d = 0 then s
  else
    let h := b / 12
    let g : Int := (s.gain h v l (b % 12) : Nat) + d
    if g < 64 || 255 < g then s.beamLimit b 6 else s.setLptByte h (gainWord v l (b % 12)) (b % 4) g.toNat

/-- The level of Pi before the ceiling (R125). -/
def State.rawLevel (s : State) (h l i v z k : Nat) : Nat :=
  s.lptByte h (2 * l + i / 4) (i % 4) * s.gain h v l k * s.lptByte h (128 + 8 * v + z / 4) (z % 4) / 16384

/-- The speed bit in use: v of R125. -/
def State.speedBit (s : State) : Nat := s.rd .spindle F.SPSTAT_speed

/-- With LPMAX lowered by a re-plan, a beam whose write-power calibration reaches it is a retirement candidate (R489, R490). -/
def State.maxReached (s : State) (b : Nat) : State :=
  let h := b / 12
  let l := s.rd (.head h) F.HSEQSTAT_layer
  let z := zoneOfGroup (s.rd (.head h) F.HSEQSTAT_group)
  let lowered : Bool := (List.range 12).any (fun k => Tbl.look 0 s.recs.planned (12 * h + k) != 0)
  if lowered && decide (s.rd (.laser h) F.LPMAX_max ≤ s.rawLevel h l 7 s.speedBit z (b % 12)) then
    s.setFlag (.beam b) F.BWSTAT_candidate true
  else s

/-- The ranges of bytes 4 to 10 (R149): the taps are signed, llrscale unsigned and pdthr signed, and every byte value is in
range. -/
def State.adaptLive (s : State) (b : Nat) (bs : List Byte) : State :=
  let e := s.liveBytes b
  (s.setLive b (e.take 4 ++ bs.take 7 ++ e.drop 11)).liveHit b

/-- A trim of a head moves by one within ±lim (rows 7 to 10). -/
def State.moveTrim (s : State) (h row : Nat) (f : Field) (lim d : Int) : State :=
  if d = 0 then s
  else
    let v := signed f.w (s.rd (.head h) f) + d
    if v < -lim || lim < v then s.headLimit h row else s.wr (.head h) f (unsigned f.w v)

/-- HLAYDATA.trim of the layer read moves by one (row 11). -/
def State.moveLayTrim (s : State) (h : Nat) (d : Int) : State :=
  if d = 0 then s
  else
    let key := 16 * h + s.rd (.head h) F.HSEQSTAT_layer
    let x := Tbl.look 0 s.layTrim key
    let v := signed 16 (x % 65536) + d
    if v < -32767 || 32767 < v then s.headLimit h 11
    else { s with layTrim := Tbl.put 0 s.layTrim key (x / 65536 * 65536 + unsigned 16 v) }

/-- What the read dither of row 9 to 11 shows (R483): the row and the head's mean |LLR| under +a and −a. -/
def State.readDither (s : State) (h : Nat) (d : Fin 3 × Nat × Nat) : State :=
  let quiet := (List.range 12).all (fun k => s.rd (.beam (12 * h + k)) F.BCITER_mean < 1024)
  let dir : Int := if d.2.2 < d.2.1 then 1 else if d.2.1 < d.2.2 then -1 else 0
  if !quiet then s
  else if d.1 = 0 then s.moveTrim h 9 F.HSVOFS_offset 2048 dir
  else if d.1 = 1 then s.moveTrim h 10 F.HCALLAY_trim 127 dir
  else s.moveLayTrim h dir

/-- The latched statistics of a beam (R478). -/
def State.latchStats (s : State) (b : Nat) (soft1 soft0 iter : Nat) (beta : Option Int) : State :=
  let u : UnitId := .beam b
  let t := ((s.wr u F.BCSOFT1_mean soft1).wr u F.BCSOFT0_mean soft0).wr u F.BCITER_mean iter
  let t := match beta with
    | some x => t.wr u F.BCBETA_beta (unsigned 16 (clampInt (-32768) 32767 x))
    | none => t
  t.incWrap u F.BCGATH_count

/-- The phase under dither moves toward its better side (R479). -/
def State.ditherPhase (t : State) (b : Nat) (phase : Option (Nat × Nat)) : State :=
  match phase with
  | some p => t.moveLive b 3 2 (toward p.1 p.2)
  | none => t

/-- The read-after-write delay under dither moves toward its better side (R479). -/
def State.ditherDraw (t : State) (b : Nat) (draw : Option (Nat × Nat)) : State :=
  match draw with
  | some p => t.moveDraw b (toward p.1 p.2)
  | none => t

/-- The asymmetry correction moves while the means differ by more than 2 % (R479). -/
def State.moveAsymmetry (t : State) (b soft1 soft0 : Nat) : State :=
  if soft0 < 50 * (soft1 - soft0) then t.moveLive b 2 4 (if Config.asymmetryUp then 1 else -1)
  else if soft0 < 50 * (soft0 - soft1) then t.moveLive b 2 4 (if Config.asymmetryUp then -1 else 1)
  else t

/-- The corrections of a beam's read path, none while its trims are held (R479). -/
def State.correctRead (t : State) (b soft1 soft0 : Nat) (phase draw : Option (Nat × Nat)) (adapt : List Byte) : State :=
  let u : UnitId := .beam b
  if t.flag u F.BRCTRL_trimhold then t
  else
    let t := (if t.flag u F.BCALCTRL_dither then (t.ditherPhase b phase).ditherDraw b draw else t).moveAsymmetry b soft1 soft0
    if t.flag u F.BCALCTRL_adapt && adapt.length = 7 then t.adaptLive b adapt else t

/-- The write power moves against β (R479). -/
def State.correctPower (t : State) (b : Nat) (beta : Option Int) : State :=
  match beta with
  | some x =>
    let d : Int := if 16 < x then -1 else if x < -16 then 1 else 0
    (t.moveGain b t.speedBit (t.rd (.head (b / 12)) F.HSEQSTAT_layer) d).maxReached b
  | none => t

/-- GATHER_LATCH (R478, R479): the statistics are latched and the corrections that follow are made: phase and read-after-write
delay under dither, asymmetry, adaptation, write power from β, and a head trim under read dither. -/
def execGatherLatch (b : Fin 48) (soft1 soft0 iter : Fin 65536) (beta : Option Int) (phase draw : Option (Nat × Nat))
    (adapt : List Byte) (dith : Option (Fin 3 × Nat × Nat)) (s : State) : Out :=
  if !s.flag (.beam b) F.BCALCTRL_enable then .next s
  else
    let t := ((s.latchStats b soft1 soft0 iter beta).correctRead b soft1 soft0 phase draw adapt).correctPower b beta
    live s (match dith with
      | some d => if s.rp.trays.isEmpty then t else t.readDither (b.val / 12) d
      | none => t)

/-! ### Steps (R481, R482, R484) -/

/-- A step's end: offsets are removed, the result is shown, HEAD_BGDONE is raised and go reads 0; commands that waited for the
window's end proceed (R481, R482). -/
def State.bgEnd (s : State) (h result : Nat) : State :=
  let t := s.wr (.head h) F.HBGRES_result result
  let t := if result = 1 then t.incSat (.head h) F.HBGRES_steps else t
  let t := (t.setFlag (.head h) F.HBGREQ_go false).raise (.head h) 15
  let mine := t.bg.held.filter (fun c => c.1 == h || (c.2.2.2.2 && partner c.1 == h))
  let t : State := { t with bg := { t.bg with
    running := Tbl.put 0 t.bg.running h 0
    held := t.bg.held.filter (fun c => !(c.1 == h || (c.2.2.2.2 && partner c.1 == h))) } }
  mine.foldl (fun t c => t.seqCommand c.1 c.2.1 c.2.2.1 c.2.2.2.1 c.2.2.2.2) t

/-- A write of HBGREQ (R481, R482, R499): while a step is pending nothing changes but a crumb; a kind without an action ends at
once with result 3. -/
def State.hbgReq (s : State) (req h v : Nat) : State :=
  let u : UnitId := .head h
  if s.flag u F.HBGREQ_go then s.refuse req u 3 (u.base + 0x10C) v
  else
    let t := s.storeReg u 0x10C v
    if !t.flag u F.HBGREQ_go then t
    else if t.rd u F.HBGREQ_kind = 0 || 4 ≤ t.rd u F.HBGREQ_kind then t.bgEnd h 3
    else t

/-- HBGREQ_GO (R481). -/
def execHbgreqGo (r : Requester) (h : Fin 4) (v : Word) (s : State) : Out :=
  live s (s.guardReg r (.head h) 0x10C v.toNat (fun t => t.hbgReq r.num h v.toNat))

/-- The window at tray position `pos` may be granted to head `h` (R481, R484). -/
def State.bgMay (s : State) (h pos : Nat) : Bool :=
  let named := (s.tb.sealed ++ s.tb.stash).any (fun t => t.pos == pos && t.heads.contains h) ||
    (match s.tb.writing with
      | some w => w.tray.pos == pos && w.tray.heads.contains h
      | none => false)
  let read := s.rp.trays.any (fun t => t.desc.tray == pos) || s.rp.queue.head?.any (fun d => d.tray == pos)
  s.flag (.head h) F.HBGREQ_go && Tbl.look 0 s.bg.running h == 0 && !named && !read &&
  (s.hState h == hLocked || s.hState h == hHolding) && (s.hd h).jump == 0

/-- BG_STEP_GRANT (R481, R482): the step runs in window `pos`; kind 3 writes its slot's tuning mode. -/
def execBgStepGrant (h : Fin 4) (pos : Nat) (s : State) : Out :=
  if !s.bgMay h pos then .next s
  else
    let t : State := { s with bg := { s.bg with running := Tbl.put 0 s.bg.running h (pos + 1) } }
    let n := t.rd (.head h) F.HBGREQ_slot
    live s (if t.rd (.head h) F.HBGREQ_kind = 3 && n < 96 then
      t.slTune n (t.storedWord (.slot n) 0x7C / 8 * 8 + t.rd (.head h) F.HBGREQ_mode)
    else t)

/-- BG_STEP_END (R482, R484): the window ends, or a fault of R199 ends the step; the keeper corrects the trim of row 7 or 8. -/
def execBgStepEnd (h : Fin 4) (fault : Bool) (p n : Fin 65536) (s : State) : Out :=
  if Tbl.look 0 s.bg.running h = 0 then .next s
  else
    let u : UnitId := .head h
    let kind := s.rd u F.HBGREQ_kind
    let slot := s.rd u F.HBGREQ_slot
    let t := if kind = 3 && slot < 96 then s.slTune slot (s.storedWord (.slot slot) 0x7C / 8 * 8) else s
    if fault then live s (t.bgEnd h 2)
    else if kind = 3 then live s (t.bgEnd h 1)
    else
      let t := ((t.wr u F.HBGRESP_amp p).wr u F.HBGRESN_amp n).bgEnd h 1
      let d := towardHalf p n
      live s (if kind = 1 then t.moveTrim h 7 F.HCALFOC_trim 127 d else t.moveTrim h 8 F.HCALTLT_trim 127 d)

/-- KEEP_STARVED (R484). -/
def execKeepStarved (h : Fin 4) (s : State) : Out :=
  if s.flag (.head h) F.HBGREQ_go then live s (s.raise .keeper 20) else .next s

/-- MBGSKIP (R484, R500): a forced window is asked for; while reading without recording, the next read window is left unread. -/
def State.mbgSkip (s : State) (v : Nat) : State :=
  if !bitOf v 31 then s
  else
    let t := s.setFlag .media F.MBGSKIP_skip true
    if !t.rp.trays.isEmpty && t.tb.sealed.isEmpty && t.tb.writing.isNone then
      ((t.setFlag .media F.MBGSKIP_skip false).incSat .media F.MBGSKIP_count).raise .media 7
    else t

/-- MBGSKIP_WRITE (R484). -/
def execMbgskipWrite (r : Requester) (v : Word) (s : State) : Out :=
  live s (s.guardReg r .media 0x60 v.toNat (fun t => t.mbgSkip v.toNat))

/-! ### Ageing (R487 to R491) -/

/-- A re-plan is made (R489): KEEP_AGEPLAN and a crumb that names the entry. -/
def State.agePlan (s : State) (e : Nat) : State := (s.crumb 3 0 .keeper 23 e 0).raise .keeper 23

/-- The keeper retires a beam (R490): its entry is marked, the ledger is saved and KEEP_RETIRE raised; if R133 refuses, the beam
stays in service and is marked a candidate. -/
def State.keepRetire (s : State) (b : Nat) : State :=
  let a := s.age b
  if s.beamGone b then s
  else if s.mayRetire b then
    (((s.retireBeam b).setAge b { a with flags := a.flags ||| 1 }).recRequest 2).raise .keeper 24
  else (s.retireBeam b).setAge b { a with flags := a.flags ||| 2 }

/-- The candidate case (R490): the first time the keeper clears the candidate bit and raises the beam's gain by 4/128 on every
layer; set again within 1 h, the beam is retired. Key 512 + beam of `planned` holds TIMENS of the clearing, plus 1. -/
def State.candidateCase (s : State) (b : Nat) : State :=
  if !s.flag (.beam b) F.BWSTAT_candidate then s
  else
    let last := Tbl.look 0 s.recs.planned (512 + b)
    if last ≠ 0 && s.time.ns < last + 3600000000000 then s.keepRetire b
    else
      let t := s.setFlag (.beam b) F.BWSTAT_candidate false
      let t := (List.range 32).foldl (fun t i =>
        t.setLptByte (b / 12) (gainWord (i / 16) (i % 16) (b % 12)) (b % 4) (min 255 (t.gain (b / 12) (i / 16) (i % 16) (b % 12) + 4))) t
      ({ t with recs := { t.recs with planned := Tbl.put 0 t.recs.planned (512 + b) (s.time.ns + 1) } } : State).recRequest 4

/-- Set what an entry was when last re-planned. -/
def State.setPlanned (s : State) (e v : Nat) : State :=
  { s with recs := { s.recs with planned := Tbl.put 0 s.recs.planned e v } }

/-- The stock slot that drives a voice coil: one of slots 0 to 15 with an output bound to it. -/
def State.slotOfVcm (s : State) (n : Nat) : Option Nat :=
  (List.range 16).find? (fun i => s.outPort i 0 == (1, n) || s.outPort i 1 == (1, n))

/-- Word 15 of every region of a slot takes `v` in one batch, at its next sample start (R254, R489). -/
def State.gainTrim (s : State) (n v : Nat) : State :=
  s.updSlot n (fun p => { p with cpend := p.cpend ++ (List.range 16).map (fun r => (16 * r + 15, v)) })

/-- Two linear values differ by more than 0.5 dB: (a ÷ b)^40 > 10. -/
def beyondHalfDb (a b : Nat) : Bool := decide (10 * (min a b) ^ 40 < (max a b) ^ 40)

/-- The re-plans of R489 that a new measurement of entry `e` calls for; `lpmax` is the level reachable within 90 % of an
emitter's current range where bias and slope would exceed it at P7. -/
def State.replan (s : State) (e : Nat) (lpmax : Option (Fin 256)) : State :=
  let a := s.age e
  if e < 48 then
    (match lpmax with
      | some v =>
        let h := e / 12
        if v.val < s.rd (.laser h) F.LPMAX_max then
          (((s.wr (.laser h) F.LPMAX_max v).setPlanned e 1).agePlan e).recRequest 4 |>.recRequest 2
        else s
      | none => s)
  else if 52 ≤ e && e < 68 then
    let use_ := if Tbl.look 0 s.recs.planned e = 0 then a.base else Tbl.look 0 s.recs.planned e
    if beyondHalfDb a.latest use_ then
      match s.slotOfVcm (e - 52) with
      | some n =>
        let v := if a.latest = 0 then 0x7FFFFF else min 0x7FFFFF (0x400000 * a.base / a.latest)
        ((((s.gainTrim n v).setPlanned e a.latest).agePlan e).recRequest 6).recRequest 2
      | none => s
    else s
  else if e = 68 then (if 3 * a.base < 2 * a.latest then s.agePlan e else s)
  else if 69 ≤ e && e < 169 then
    if a.latest < 25 && Tbl.look 0 s.recs.planned e = 0 then
      (((s.wr .thermal F.THLIM_throttle (max 90 (min 100 (s.rd .thermal F.THLIM_throttle) - 5))).setPlanned e 1).agePlan e).recRequest 2
    else if 25 ≤ a.latest then s.setPlanned e 0 else s
  else if 169 ≤ e && e < 177 then
    if a.latest < 24 && Tbl.look 0 s.recs.planned e = 0 then ((s.setPlanned e 1).agePlan e).recRequest 2
    else if 24 ≤ a.latest then s.setPlanned e 0 else s
  else s

/-- AGEING_MEASUREMENT (R487 to R490). -/
def execAgeingMeasurement (e : Fin 305) (slope : Bool) (v : Word) (lpmax : Option (Fin 256)) (s : State) : Out :=
  let t := (s.measure e slope v.toNat).replan e lpmax
  live s (if e.val < 48 then
    let t := t.candidateCase e
    if (t.age e).health = 0 then t.keepRetire e else t
  else t)

/-! ### The end of a step (R194, R491) -/

/-- The threshold a ledger entry holds: of a data emitter its threshold half. -/
def State.thresholdOf (s : State) (e : Nat) : Option Nat :=
  if e < 48 then
    let x := Tbl.look (0, 0, 255) s.recs.halves (2 * e)
    if x.2.2 = 255 then none else some x.2.1
  else if (s.age e).count = 0 then none else some (s.age e).latest

/-- Two thresholds differ by more than 25 % of the ledger's. -/
def moved25 (led now : Nat) : Bool := decide (led < 4 * (now - led)) || decide (led < 4 * (led - now))

/-- The head counts as replaced (R491): its entries are cleared and its retired beams return to ready. -/
def State.headReplaced (s : State) (h : Nat) : State :=
  let es := (List.range 12).map (fun k => 12 * h + k) ++ [48 + h] ++ (List.range 4).map (fun k => 52 + 4 * h + k)
  let t := es.foldl (fun t e => t.setAge e Age.none) s
  let t : State := { t with recs := { t.recs with
    halves := t.recs.halves.filter (fun x => decide (x.1 < 24 * h) || decide (24 * h + 24 ≤ x.1)) } }
  (List.range 12).foldl (fun t k =>
    let b := 12 * h + k
    if t.flag (.beam b) F.BWSTAT_retired then
      ((t.setFlag (.beam b) F.BWSTAT_retired false).setFlag (.beam b) F.BWCTRL_retire false).wr (.beam b) F.USTAT_state 0
    else t) t

/-- At the first acquire after start the keeper compares the head's 13 thresholds with its ledger (R491). -/
def State.firstAcquire (s : State) (h : Nat) (thr : List Nat) : State :=
  if (s.hd h).acquired then s
  else
    let es := (List.range 12).map (fun k => 12 * h + k) ++ [48 + h]
    let n := ((es.zip thr).filter (fun p => match s.thresholdOf p.1 with
      | some l => moved25 l p.2
      | none => false)).length
    let t := s.updHd h (fun d => { d with acquired := true })
    if 9 ≤ n then t.headReplaced h else t

/-- SEQ_STEP_DONE (R194 to R197, R491). -/
def execSeqStepDone (h : Fin 4) (thr : List Nat) (s : State) : Out :=
  let d := s.hd h
  if d.seq = 0 || d.body then .next s
  else
    let t := s.stepDone h
    live s (if (d.seq = 1 || d.seq = 12) && d.step = 8 then t.firstAcquire h thr else t)

end Sys2Proof.Machine
end

