-- ==== Sys2Proof/Machine/Angle.lean ====
section
/-! DEFINITION. What happens at the index of a revolution (R117, R125, R188, R225, R480) and at a clock mark (R144, R224). -/

namespace Sys2Proof.Machine

/-- The head follows its pass: locked, with no sequence running and not holding position (R104, R197). -/
def State.following (s : State) (h : Nat) : Bool :=
  s.hState h == hLocked && !s.flag .tray F.TBSTAT_holding

/-- A following head goes on to the next group of its pass (R22, R74). -/
def State.nextGroup (s : State) (h : Nat) : State :=
  if !s.following h then s
  else
    let g := s.rd (.head h) F.HSEQSTAT_group
    s.wr (.head h) F.HSEQSTAT_group (if outward (s.rd (.head h) F.HSEQSTAT_layer) h then min (g + 1) 11775 else g - 1)

/-- The gear sign of a sled (R225): 0, 1 plus, 3 minus. -/
def State.gearSign (s : State) (h : Nat) : Nat :=
  if s.flag (.stepper h) F.STGCFG_auto then
    (if !s.following h then 0 else if outward (s.rd (.head h) F.HSEQSTAT_layer) h then 1 else 3)
  else
    let g := s.rd (.stepper h) F.STGCFG_sign
    if g = 2 then 0 else g

/-- The levels of a beam (R125), four to a word. -/
def State.levelWord (s : State) (h l v z k first : Nat) : Nat :=
  (List.range 4).foldl (fun a j => a + min (s.rd (.laser h) F.LPMAX_max) (s.rawLevel h l (first + j) v z k) * 256 ^ j) 0

/-- The laser unit loads the levels of its head's beams (R125). -/
def State.loadLevels (s : State) (h l v z : Nat) : State :=
  (List.range 12).foldl (fun t k =>
    (t.wr (.beam (12 * h + k)) F.BWPLEV0_p3_p0 (s.levelWord h l v z k 0)).wr (.beam (12 * h + k)) F.BWPLEV1_p7_p4
      (s.levelWord h l v z k 4)) s

/-- A new zone, layer or speed of a head takes effect at the index (R117, R125, R225). -/
def State.loadZone (s : State) (h : Nat) : State :=
  let l := s.rd (.head h) F.HSEQSTAT_layer
  let z := zoneOfGroup (s.rd (.head h) F.HSEQSTAT_group)
  let now := (z + 1, l, s.speedBit)
  if Tbl.look (0, 0, 0) s.bg.loaded h = now then s
  else ({ s with bg := { s.bg with loaded := Tbl.put (0, 0, 0) s.bg.loaded h now } } : State).loadLevels h l s.speedBit z

/-- The trims of a head as written: focus, tilt, layer focus, tracking, spherical aberration (R480). -/
def State.trimsSet (s : State) (h : Nat) : List Int :=
  [signed 16 (s.rd (.head h) F.HCALFOC_trim), signed 16 (s.rd (.head h) F.HCALTLT_trim), signed 16 (s.rd (.head h) F.HCALLAY_trim),
    signed 16 (s.rd (.head h) F.HSVOFS_offset),
    signed 16 (Tbl.look 0 s.layTrim (16 * h + s.rd (.head h) F.HSEQSTAT_layer) % 65536)]

/-- The head writes: a gate of it is open. -/
def State.headWrites (s : State) (h : Nat) : Bool :=
  match s.tb.writing with
  | some w => w.gates.any (fun b => b / 12 == h)
  | none => false

/-- The trims in force follow those written, by one step an index while the head writes (R480). -/
def State.followTrims (s : State) (h : Nat) : State :=
  ((s.trimsSet h).zipIdx).foldl (fun t p =>
    let old := signed 16 (Tbl.look 0 t.bg.trims (8 * h + p.2))
    let new := if s.headWrites h then clampInt (old - 1) (old + 1) p.1 else p.1
    { t with bg := { t.bg with trims := Tbl.put 0 t.bg.trims (8 * h + p.2) (unsigned 16 new) } }) s

/-- INDEX (R72, R117, R125, R188, R225, R480). -/
def execIndex (s : State) : Out :=
  live s ((List.range 4).foldl (fun t h =>
    let t := ((t.nextGroup h).loadZone h).followTrims h
    t.wr (.stepper h) F.STSTAT_gsign (t.gearSign h)) (s.count 193))

/-- The sleds whose gearing counts this mark (R211): that of the head while its synthesiser is locked, and on the angle source
those of heads whose synthesiser is not. -/
def State.gearedBy (s : State) (h : Option (Fin 4)) : List Nat :=
  let locked (n : Nat) : Bool := s.flag (.head n) F.HCLKSTAT_locked
  let source : Bool := match h with
    | some k => s.flag .spindle F.SPSTAT_clock && s.rd .spindle F.SPSTAT_head == k.val
    | none => !s.flag .spindle F.SPSTAT_clock
  (List.range 4).filter (fun n => (locked n && h.map (fun k => k.val) == some n) || (!locked n && source))

/-- CLOCK_MARK (R144, R211, R224): gears in mode 2 advance by sign × the entry of the zone in force; a mark missed is counted. -/
def execClockMark (h : Option (Fin 4)) (missed : Bool) (s : State) : Out :=
  let t := match h with
    | some k => if missed then s.incSat (.head k.val) F.HCLKSTAT_missing else s
    | none => s
  live s ((s.gearedBy h).foldl (fun t n =>
    if t.stMode n ≠ 2 || !t.flag (.stepper n) F.STCTRL_enable then t
    else
      let z := (Tbl.look (0, 0, 0) t.bg.loaded n).1 - 1
      let ratio : Int := (Tbl.look 0 t.gear (32 * n + z) : Nat)
      let sign := t.rd (.stepper n) F.STSTAT_gsign
      if sign = 1 then t.gearAdd n ratio else if sign = 3 then t.gearAdd n (-ratio) else t) t)

end Sys2Proof.Machine
end

