-- ==== Sys2Proof/Machine/Engines.lean ====
section
/-! DEFINITION. The slice mover (R423 to R430), the hash engine (R431 to R433), and the DRAM controller's real-time ports and
training (R416 to R419). -/

namespace Sys2Proof.Machine

/-! ### What a requester may reach (R424) -/

/-- Whether `n` bytes at `a` lie in the buffer between `lo` and `hi`. -/
def within (a n lo hi : Nat) : Bool := decide (lo ≤ a) && decide (a + n ≤ hi)

/-- Whether a descriptor of requester `r` may read, or write, all of `n` bytes at buffer address `a` (R410, R424). -/
def mayReach (r : Nat) (write : Bool) (a n : Nat) : Bool :=
  if r = 0 then
    within a n 0 0x1000000000 || within a n 0x4000000000 0x4000280000 || (!write && within a n 0x4100000000 0x4108000000)
  else
    (if write then within a n 0 0x40000000 || within a n 0x80000000 0x1000000000 else within a n 0 0x1000000000) ||
    (decide (r ≤ 8) && within a n (0x4000000000 + (r - 1) * 0x40000) (0x4000000000 + r * 0x40000))

/-! ### Slice mover -/

/-- Word `i` of a descriptor. -/
def dw (d : List Nat) (i : Nat) : Nat := (d[i]?).getD 0

/-- The fields of a slice-mover descriptor (R423). -/
structure Slice where
  fill : Bool
  src : Nat
  slen : Nat
  sstride : Nat
  dst : Nat
  dlen : Nat
  dstride : Nat
  total : Nat
  pattern : Nat
deriving DecidableEq, Repr

/-- The fields of the words of a descriptor. -/
def sliceOf (d : List Nat) : Slice where
  fill := dw d 0 % 4 == 1
  src := dw d 2 + 2 ^ 32 * dw d 3
  slen := dw d 4
  sstride := dw d 5
  dst := dw d 7 + 2 ^ 32 * dw d 8
  dlen := dw d 9
  dstride := dw d 10
  total := dw d 9 * dw d 11
  pattern := dw d 12

/-- The status address of a descriptor. -/
def sliceStatus (d : List Nat) : Nat := dw d 13 + 2 ^ 32 * dw d 14

/-- A line length or count of R423. -/
def lineOk (n : Nat) : Bool := decide (1 ≤ n) && decide (n ≤ 2 ^ 24)

/-- Every line of a region may be reached. -/
def regionOk (r : Nat) (write : Bool) (base len stride lines : Nat) : Bool :=
  (List.range lines).all (fun i => mayReach r write (base + i * stride) len)

/-- The checks of R424 pass: the fields within their ranges, zero fields zero, equal totals of at most 2^36 bytes, and both regions
reached by the owner. -/
def sliceOk (d : List Nat) (owner : Nat) : Bool :=
  let op := dw d 0 % 4
  let p := sliceOf d
  decide (op < 2) && bits (dw d 0) 2 29 == 0 && dw d 15 == 0 && lineOk p.dlen && lineOk (dw d 11) &&
  sliceStatus d % 16 == 0 && decide (p.total ≤ 2 ^ 36) &&
  (if p.fill then dw d 2 == 0 && dw d 3 == 0 && dw d 4 == 0 && dw d 6 == 0
   else lineOk p.slen && lineOk (dw d 6) && p.slen * dw d 6 == p.total && regionOk owner false p.src p.slen p.sstride (dw d 6)) &&
  regionOk owner true p.dst p.dlen p.dstride (dw d 11)

/-- The address of byte `p` of a region in line order (R423). -/
def lineAddr (base len stride p : Nat) : Nat := base + p / len * stride + p % len

/-- The length of the burst at byte `p` (R426). -/
def Slice.burst (d : Slice) (p : Nat) : Nat :=
  let a := lineAddr d.dst d.dlen d.dstride p
  let m := min (d.dlen - p % d.dlen) (256 - a % 256)
  if d.fill then m else min m (d.slen - p % d.slen)

/-- The bytes of the burst at byte `p`. -/
def Slice.bytes (d : Slice) (s : State) (p n : Nat) : List Byte :=
  if d.fill then
    (List.range n).map (fun i => BitVec.ofNat 8 (d.pattern / 256 ^ ((lineAddr d.dst d.dlen d.dstride p + i) % 4)))
  else s.readBytes (lineAddr d.src d.slen d.sstride p) n

/-- At most `k` bursts from byte `p` on (R426), and the byte reached. -/
def State.moveBursts (d : Slice) : Nat → Nat → State → State × Nat
  | 0, p, s => (s, p)
  | k + 1, p, s =>
    if d.total ≤ p then (s, p)
    else
      let n := d.burst p
      State.moveBursts d k (p + n) (s.engineStore (lineAddr d.dst d.dlen d.dstride p) (d.bytes s p n))

/-- The status record of R430. -/
def statusBytes (code owner tag residue : Nat) : List Byte :=
  leBytes 4 (code * 2 ^ 28 + owner * 2 ^ 24) ++ leBytes 4 tag ++ leBytes 4 residue ++ leBytes 4 (residue / 2 ^ 32 % 16)

/-- A status record goes to an aligned address that its requester may write. -/
def State.putStatus (s : State) (owner a : Nat) (bs : List Byte) : State :=
  if a = 0 || a % 16 ≠ 0 || !mayReach owner true a bs.length then s else s.engineStore a bs

/-- A channel completes (R427, R428, R430): the status record, SMCHSTAT, the event; the channel is free. -/
def State.sliceEnds (s : State) (n : Nat) (c : MoverChan) (code residue : Nat) : State :=
  let t := s.putStatus c.owner (sliceStatus c.desc) (statusBytes code c.owner (dw c.desc 1) residue)
  let t : State := { t with eng := { t.eng with
    chans := Tbl.put none t.eng.chans n none
    order := t.eng.order.filter (· != n)
    running := if t.eng.running = some n then none else t.eng.running
    last := Tbl.put (0, 0, 0) t.eng.last n (code, c.owner, residue) } }
  match code with
  | 0 =>
    let u := t.incWrap .mover F.SMDONECNT_count
    if bitOf (dw c.desc 0) 31 then u.raise .mover 1 else u
  | 1 | 2 => t.raise .mover 2
  | _ => t.raise .mover 3

/-- POST of a slice-mover descriptor (R288, R425): the lowest free channel; none where all 32 are in use. -/
def State.postSlice (s : State) (owner : Nat) (d : List Nat) : Option State :=
  match (List.range 32).find? (fun n => (Tbl.look none s.eng.chans n).isNone) with
  | none => none
  | some n =>
    some { s with eng := { s.eng with
      chans := Tbl.put none s.eng.chans n (some ⟨d, owner, 0⟩)
      order := s.eng.order ++ [n] } }

/-- SLICE_CHANNEL_START (R424, R425): the next channel runs, or is refused with code 3. -/
def execSliceChannelStart (s : State) : Out :=
  match s.eng.running, s.eng.order with
  | none, n :: _ =>
    match Tbl.look none s.eng.chans n with
    | none => .next s
    | some c =>
      live s (if sliceOk c.desc c.owner then { s with eng := { s.eng with running := some n } }
        else s.sliceEnds n c 3 (sliceOf c.desc).total)
  | _, _ => .next s

/-- What a running channel has moved when it ends (R426 to R430, R413): all of it, or the bursts completed before an abort or a
failing read; counter 184. -/
def State.sliceRun (s : State) (n : Nat) (c : MoverChan) (bursts err : Nat) : State :=
  let d := sliceOf c.desc
  let stops := c.abort != 0 || (err != 0 && !d.fill)
  let r := s.moveBursts d (if stops then bursts else d.total) 0
  let all := r.2 + s.eng.moved
  let t := ({ r.1 with eng := { r.1.eng with moved := all % 64 } } : State).count 184 (all / 64)
  let residue := d.total - r.2
  if err ≠ 0 && !d.fill && residue ≠ 0 then
    let t := if err = 1 then t.eccFail (lineAddr d.src d.slen d.sstride r.2) else t.sramPar
    t.sliceEnds n c 4 residue
  else t.sliceEnds n c c.abort residue

/-- SLICE_CHANNEL_DONE (R426 to R430, R413). -/
def execSliceChannelDone (bursts : Nat) (err : Fin 3) (s : State) : Out :=
  match s.eng.running with
  | none => .next s
  | some n =>
    match Tbl.look none s.eng.chans n with
    | none => .next s
    | some c => live s (s.sliceRun n c bursts err)

/-- An abort of channel `n` for a reason (R428, R429): queued, it completes at once; running, after its burst. -/
def State.abortSlice (s : State) (n why : Nat) : State :=
  match Tbl.look none s.eng.chans n with
  | none => s
  | some c =>
    if s.eng.running = some n then
      { s with eng := { s.eng with chans := Tbl.put none s.eng.chans n (some { c with abort := if c.abort = 0 then why else c.abort }) } }
    else s.sliceEnds n c why (sliceOf c.desc).total

/-- A core reset aborts every channel the core owns (R429). -/
def State.abortOwned (s : State) (owner : Nat) : State :=
  (s.eng.order.filter (fun n => match Tbl.look none s.eng.chans n with
    | some c => c.owner == owner
    | none => false)).foldl (fun t n => t.abortSlice n 2) s

/-- A write of SMABORT (R428): only the owner and the keeper may abort a channel. -/
def State.smAbort (s : State) (r : Requester) (v : Nat) : State :=
  let n := v % 32
  match Tbl.look none s.eng.chans n with
  | none => s
  | some c =>
    if r.num = 0 || r.num = c.owner then s.abortSlice n 1
    else s.violation r .mover 3 (UnitId.mover.base + 0x54) v

/-- SMABORT_WRITE (R428). -/
def execSmabortWrite (r : Requester) (v : Word) (s : State) : Out :=
  live s (s.guardReg r .mover 0x54 v.toNat (fun t => t.smAbort r v.toNat))

/-! ### Hash engine -/

/-- The source address, length and result address of a hash descriptor (R432). -/
def hashSrc (d : List Nat) : Nat := dw d 2 + 2 ^ 32 * dw d 3
def hashLen (d : List Nat) : Nat := dw d 4 + 2 ^ 32 * dw d 5
def hashResult (d : List Nat) : Nat := dw d 6 + 2 ^ 32 * dw d 7

/-- The descriptor is valid and its source may be read (R432, R433). -/
def hashOk (d : List Nat) (r : Nat) : Bool :=
  bits (dw d 0) 1 30 == 0 && decide (dw d 5 < 16) && hashResult d % 64 == 0 &&
  (hashLen d == 0 || mayReach r false (hashSrc d) (hashLen d))

/-- POST of a hash descriptor (R431): the queue holds 16. -/
def State.postHash (s : State) (owner : Nat) (d : List Nat) : Option State :=
  if 16 ≤ s.eng.hashQ.length then none else some { s with eng := { s.eng with hashQ := s.eng.hashQ ++ [(d, owner)] } }

/-- HASH_MESSAGE_START (R431): the next message runs once the last has ended. -/
def execHashMessageStart (s : State) : Out :=
  match s.eng.hashRun, s.eng.hashQ with
  | none, m :: q => live s { s with eng := { s.eng with hashRun := some m, hashQ := q } }
  | _, _ => .next s

/-- A message ends with a code after `n` bytes (R433): the status follows the digest, and the event. -/
def State.hashEnds (s : State) (d : List Nat) (r code n : Nat) : State :=
  let all := n + s.eng.hashed
  let t := ({ s with eng := { s.eng with hashRun := none, hashed := all % 64 } } : State).count 185 (all / 64)
  let a := hashResult d
  let t := if a % 64 = 0 then t.putStatus r (a + 48) (statusBytes code r (dw d 1) n) else t
  let t := t.incWrap .hash F.HSCNT_count
  match code with
  | 0 => if bitOf (dw d 0) 31 then t.raise .hash 1 else t
  | 1 => (t.incWrap .hash F.HSMISCNT_count).raise .hash 2
  | _ => t.raise .hash 3

/-- What a message yields (R431 to R433, R413). -/
def State.hashRuns (s : State) (d : List Nat) (r err done : Nat) : State :=
  if !hashOk d r then s.hashEnds d r 3 0
  else if err ≠ 0 && 0 < hashLen d then
    let n := min done (hashLen d)
    (if err = 1 then s.eccFail (hashSrc d + n) else s.sramPar).hashEnds d r 2 n
  else
    let g := sha384 (s.readBytes (hashSrc d) (hashLen d))
    let a := hashResult d
    if bitOf (dw d 0) 0 then s.hashEnds d r (if s.readBytes a 48 = g then 0 else 1) (hashLen d)
    else (if mayReach r true a 48 then s.engineStore a g else s).hashEnds d r 0 (hashLen d)

/-- HASH_MESSAGE_DONE (R431 to R433). -/
def execHashMessageDone (err : Fin 3) (done : Nat) (s : State) : Out :=
  match s.eng.hashRun with
  | none => .next s
  | some m => live s (s.hashRuns m.1 m.2 err done)

/-! ### DRAM controller -/

/-- A write of DCTRAIN (R419): a go while a step runs, or within 10 ms of the last step of a channel in service, changes nothing and
leaves a crumb of cause 3. -/
def State.dcTrain (s : State) (req v : Nat) : State :=
  let ch := F.DCTRAIN_channel.of v
  let ready := bitOf (s.rd .dram F.DCSTAT_ready) ch
  let soon := match Tbl.look none s.eng.trained ch with
    | some t => decide (s.time.ns < t + 10000000)
    | none => false
  if !bitOf v 31 then s.storeReg .dram 0x54 v
  else if s.flag .dram F.DCTRAIN_go || (ready && soon) then s.refuse req .dram 3 (UnitId.dram.base + 0x54) v
  else
    let t := ((s.storeReg .dram 0x54 v).setFlag .dram F.DCTRAIN_go true).setFlag .dram F.DCCMP_done false
    t.wr .dram F.DCSTAT_step (2 ^ ch)

/-- DCTRAIN_GO (R419). -/
def execDctrainGo (r : Requester) (v : Word) (s : State) : Out :=
  live s (s.guardReg r .dram 0x54 v.toNat (fun t => t.dcTrain r.num v.toNat))

/-- TRAIN_DONE (R419): the comparison is recorded and BUF_TRAINDONE raised. -/
def execTrainDone (fail : Fin 262144) (errors : Word) (s : State) : Out :=
  if !s.flag .dram F.DCTRAIN_go then .next s
  else
    let t := ((s.setFlag .dram F.DCTRAIN_go false).wr .dram F.DCSTAT_step 0).setFlag .dram F.DCCMP_done true
    let t := (t.wr .dram F.DCCMP_fail fail).wr .dram F.DCCMPCNT_count errors.toNat
    let t : State := { t with eng := { t.eng with
      trained := Tbl.put none t.eng.trained (s.rd .dram F.DCTRAIN_channel) (some s.time.ns) } }
    live s (t.raise .dram 6)

/-- RT_PORT_PANIC (R416, R417): the level of a real-time port moves; it enters panic at its threshold and leaves it 4 KiB beyond. Port
96 has no panic. -/
def execRtPortPanic (p : Fin 97) (level : Fin 32769) (due : Bool) (s : State) : Out :=
  let old := Tbl.look (0, 0, false) s.eng.ports p
  let feeder := decide (p.val < 48)
  let thr := 1024 * min 32 (if feeder then s.rd .dram F.DCRTPANIC_feed else s.rd .dram F.DCRTPANIC_sink)
  let past : Bool := if feeder then due && decide (level.val < thr) else decide (thr < level.val)
  let leave : Bool := if feeder then decide (thr + 4096 ≤ level.val) else decide (level.val + 4096 ≤ thr)
  let panic : Bool := p.val < 96 && (if old.2.2 then !leave else past)
  let enters := panic && !old.2.2
  let t : State := { s with eng := { s.eng with
    ports := Tbl.put (0, 0, false) s.eng.ports p (level.val, satAdd 15 old.2.1 (b2n enters), panic) } }
  live s (if enters then t.raise .dram 4 else t)

end Sys2Proof.Machine
end

