-- ==== Sys2Proof/Machine/Images.lean ====
section
/-! DEFINITION. Job images (R316 to R318, R557, R558): where a slot lies, its header, and the checks of R317. -/

namespace Sys2Proof.Machine

/-- The NOR offset of image slot `n` (R557). -/
def imageOff (n : Nat) : Nat := 0x100000 + n * 0x700000

/-- `k` bytes of image slot `n` from offset `o`. -/
def State.imgBytes (s : State) (n o k : Nat) : List Byte := s.readBytes (norAddr (imageOff n + o)) k

/-- A little-endian field of an image header. -/
def State.imgNum (s : State) (n o k : Nat) : Nat := s.readLE (norAddr (imageOff n + o)) k

/-- The kinds image slot `n` may hold (R558). -/
def imageKinds (n : Nat) : List Nat := if n = 0 then [1] else if n = 1 then [3] else if n = 2 then [2] else [2, 4]

/-- Every byte is zero. -/
def allZero (bs : List Byte) : Bool := bs.all (· == 0)

/-- Tag, version, kind and zero fields (first check of R317). -/
def State.imgForm (s : State) (n : Nat) : Bool :=
  s.imgBytes n 0 4 == [0x4A, 0x4F, 0x42, 0x49] && s.imgNum n 4 2 == 1 && (imageKinds n).contains (s.imgNum n 6 1) &&
  decide (s.imgNum n 7 1 ≤ 1) && ((n != 0 && n != 2) || s.imgNum n 7 1 == 0) && s.imgNum n 0x1C 4 == 0 && allZero (s.imgBytes n 0x81 31) &&
  allZero (s.imgBytes n 0x130 16) && (s.imgNum n 7 1 == 1 || allZero (s.imgBytes n 0x20 97))

/-- Lengths, addresses and entry lie within their ranges (second check of R317, R558). -/
def State.imgRange (s : State) (n : Nat) : Bool :=
  let sram := s.imgNum n 0xC 4
  let mem := s.imgNum n 0x10 4
  let addr := s.imgNum n 0x14 4
  let entry := s.imgNum n 0x18 4
  sram % 64 == 0 && mem % 64 == 0 && addr % 4096 == 0 && entry % 4 == 0 && decide (320 + sram + mem ≤ 0x700000) &&
  (if n = 0 then decide (sram ≤ 458752) && mem == 0 && addr == 0 && decide (entry < 0x70000)
   else if n = 1 then sram == 0 && mem == 278528 && addr == 0 && entry == 0
   else decide (sram ≤ 262144) && decide (addr + mem ≤ 0x4000000) && decide (entry < 0x40000))

/-- The customer key is enrolled and is the one of the image (last check of R317, R59). -/
def State.imgKey (s : State) (n : Nat) : Bool :=
  s.imgNum n 7 1 == 0 || (s.rd .key F.KEYMASK_mask == 0xFFF &&
    (List.range 12).flatMap (fun i => leBytes 4 (s.rd .key (F.KEYSLOT i))) == sha384 (s.imgBytes n 0x20 97))

/-- The first check of R317 that an image fails, 1 to 5; 0 if it is accepted. -/
def State.imgFailure (s : State) (n : Nat) : Nat :=
  if !s.imgForm n then 1
  else if !s.imgRange n then 2
  else if sha384 (s.imgBytes n 320 (s.imgNum n 0xC 4 + s.imgNum n 0x10 4)) != s.imgBytes n 0xA0 48 then 3
  else if !Config.sigVerifies (if s.imgNum n 7 1 = 0 then [] else s.imgBytes n 0x20 97) (sha384 (s.imgBytes n 0 0xD0))
      (s.imgBytes n 0xD0 96) then 4
  else if !s.imgKey n then 5
  else 0

/-- The buffer address of a core's local SRAM: job cores 0 to 7, 8 the keeper (R410). -/
def sramBase (c : Nat) : Nat := 0x4000000000 + c * 0x40000

/-- The size of a core's local SRAM (R269). -/
def sramSize (c : Nat) : Nat := if c = 8 then 0x80000 else 0x40000

/-- The SRAM segment of image `n` is placed in core `c`'s SRAM. -/
def State.loadSegment (s : State) (c n : Nat) : State := s.storeBytes (sramBase c) (s.imgBytes n 320 (s.imgNum n 0xC 4))

/-- The memory segment of image `n` is placed in core memory (R316, R320). -/
def State.loadMemory (s : State) (n : Nat) : State :=
  s.engineStore (s.imgNum n 0x14 4) (s.imgBytes n (320 + s.imgNum n 0xC 4) (s.imgNum n 0x10 4))

/-- A refused image (R318): a crumb names the slot and the first failed check, and KEEP_JOBREFUSED is raised. -/
def State.refuseImage (s : State) (n : Nat) : State := (s.crumb 3 0 .keeper 16 n (s.imgFailure n)).raise .keeper 16

end Sys2Proof.Machine
end

