-- ==== Sys2Proof/Machine/Cores.lean ====
section
/-! DEFINITION. The Fleran cores' shared operations: registers (R271, R272), the address map (R273, R274), caches (R277, R278, R300
to R303), traps (R295, R296), sampling (R308 to R310) and core control (R311, R312, R323). -/

namespace Sys2Proof.Machine

/-! ### Registers -/

/-- Core `c`: 0 to 7 the job cores, 8 the keeper. -/
def State.core (s : State) (c : Nat) : CoreSt := Tbl.look CoreSt.none s.cores c

/-- Change a core. -/
def State.updCore (s : State) (c : Nat) (f : CoreSt → CoreSt) : State :=
  { s with cores := Tbl.put CoreSt.none s.cores c (f (s.core c)) }

/-- The unit of a core. -/
def coreUnit (c : Nat) : UnitId := if c = 8 then .keeper else .core c

/-- Its requester number (R51). -/
def coreReq (c : Nat) : Nat := if c = 8 then 0 else c + 1

/-- Its requester. -/
def coreRequester (c : Nat) : Requester := if c = 8 then .keeper else .core (Fin.ofNat 8 c)

/-- A general register; g0 reads as zero (R271). -/
def State.greg (s : State) (c n : Nat) : Nat := if n = 0 then 0 else Tbl.look 0 (s.core c).g n

/-- Write a general register; a write to g0 is discarded (R271). -/
def State.setGreg (s : State) (c n v : Nat) : State :=
  if n = 0 then s else s.updCore c (fun k => { k with g := Tbl.put 0 k.g n (v % 2 ^ 32) })

/-- The lanes pending for a core (R272, R441): bits of the lanes routed to it. -/
def State.pendFor (s : State) (c : Nat) : Nat :=
  ((List.range 64).filter (fun l => bitOf (s.laneDest l).cores c && s.lanePending l)).foldl (fun a l => a + 2 ^ l) 0

/-- A control register (R272). -/
def State.creg (s : State) (c k : Nat) : Nat :=
  let x := s.core c
  if k = 0 then b2n (c == 8) * 8 + x.depth * 2 + b2n x.ien
  else if k = 10 then s.pendFor c % 2 ^ 32
  else if k = 11 then s.pendFor c / 2 ^ 32
  else if k = 15 then (if c = 8 then 8 else s.guestOfCore c * 256 + c)
  else Tbl.look 0 x.ctl k

/-- The writable bits of a control register (R272). -/
def cregMask (k : Nat) : Nat :=
  if k = 2 || k = 5 then 0x31F else if k = 7 then 0xFFFFFE00 else if k = 0 || k = 10 || k = 11 || k = 15 then 0 else 0xFFFFFFFF

/-- Write a control register; read-only registers and fields keep their values (R272). -/
def State.setCreg (s : State) (c k v : Nat) : State :=
  if k = 0 then s.updCore c (fun x => { x with ien := bitOf v 0 })
  else if cregMask k = 0 then s
  else s.updCore c (fun x => { x with ctl := Tbl.put 0 x.ctl k (v &&& cregMask k) })

/-- Counter `j` of core `c` (R451): the keeper comes first. -/
def coreCtr (c j : Nat) : Nat := 1 + 12 * (if c = 8 then 0 else c + 1) + j

/-- The core runs instructions: started, not held, and in no WAIT or YIELD. -/
def State.coreRuns (s : State) (c : Nat) : Bool :=
  s.pw.clocked && s.rd (coreUnit c) F.USTAT_state == 3 && (s.core c).wait.isNone &&
  (c == 8 || !s.flag .keeper (F.kc c F.KCCTRL_hold))

/-! ### The address map (R273, R274) -/

/-- What a core address names: own SRAM, the register window, uncached memory (writable or not; atomics refused), cacheable memory
(writable or not), or nothing. Buffer addresses, but for the window's offset. -/
inductive Place where
  | own (a : Nat)
  | window (o : Nat)
  | uncached (a : Nat) (writable : Bool)
  | cached (a : Nat) (writable : Bool)
  | none
deriving DecidableEq, Repr

/-- Where core address `a` of core `c` leads. -/
def State.place (s : State) (c a : Nat) : Place :=
  if a < sramSize c then .own (sramBase c + a)
  else if 0x400000 ≤ a && a < 0x800000 then .window (a - 0x400000)
  else if c = 8 && 0x1000000 ≤ a && a < 0x1200000 then .uncached (sramBase 0 + (a - 0x1000000)) true
  else if c = 8 && 0x8000000 ≤ a && a < 0x10000000 then .uncached (0x4100000000 + (a - 0x8000000)) false
  else if 0x40000000 ≤ a && a < 0x80000000 then .cached (a - 0x40000000) true
  else if 0x80000000 ≤ a && a < 2 ^ 32 then
    let n := (a - 0x80000000) / 2 ^ 28
    let b := s.rd .keeper (F.kc c (F.KCAP_base n)) * 2 ^ 28 + a % 2 ^ 28
    if !s.flag .keeper (F.kc c (F.KCAP_valid n)) || !validAddr b then .none
    else if s.flag .keeper (F.kc c (F.KCAP_cacheable n)) then .cached b (s.flag .keeper (F.kc c (F.KCAP_writable n)))
    else .uncached b (s.flag .keeper (F.kc c (F.KCAP_writable n)))
  else .none

/-! ### The L2 (R278, R300 to R302) -/

/-- The L2 holds line `n`. -/
def L2Cache.has (x : L2Cache) (n : Nat) : Bool :=
  (Tbl.look L2Set.empty x.sets (n % 2048)).ways.any (fun e => e.2 == some n)

/-- The replacement tree after way `w` was used: the four nodes on its path point away from it. -/
def treeTouch (tree w : Nat) : Nat :=
  ((List.range 4).foldl (fun (st : Nat × Nat) i =>
    let b := bitOf w (3 - i)
    let t := if b then st.1 - (if bitOf st.1 st.2 then 2 ^ st.2 else 0) else st.1 ||| 2 ^ st.2
    (t, 2 * st.2 + 1 + b2n b)) (tree, 0)).1

/-- The way that the replacement tree names: a node that is set points to the upper half. -/
def treeVictim (tree : Nat) : Nat :=
  ((List.range 4).foldl (fun (st : Nat × Nat) _ =>
    let b := bitOf tree st.2
    (2 * st.1 + b2n b, 2 * st.2 + 1 + b2n b)) (0, 0)).1

/-- The free way of a set, if any. -/
def L2Set.free (t : L2Set) : Option Nat := (List.range 16).find? (fun w => (Tbl.look none t.ways w).isNone)

/-- The way that holds line `n`. -/
def L2Set.wayOf (t : L2Set) (n : Nat) : Option Nat := (t.ways.find? (fun e => e.2 == some n)).map Prod.fst

/-- Line `n` is installed, or its age refreshed (R301, R302). -/
def L2Cache.install (x : L2Cache) (n : Nat) : L2Cache :=
  { x with sets := Tbl.upd L2Set.empty x.sets (n % 2048) (fun t =>
    match t.wayOf n with
    | some w => { t with tree := treeTouch t.tree w }
    | none =>
      let w := t.free.getD (treeVictim t.tree)
      ⟨Tbl.put none t.ways w (some n), treeTouch t.tree w⟩) }

/-- An L1 line evicted by replacement is offered to the L2 (R302, R314). -/
def State.offerLine (s : State) (l : CLine) : State :=
  let t := Tbl.look L2Set.empty s.l2.sets (l.line % 2048)
  if l.bad then s
  else if (t.wayOf l.line).isSome || t.free.isSome then
    ({ s with l2 := s.l2.install l.line } : State).incWrap .l2 F.L2OFFER_count
  else s.incWrap .l2 F.L2DECL_count

/-- The 64 bytes of a line in memory. -/
def State.memLine (s : State) (n : Nat) : Nat := s.readLE (64 * n) 64

/-- A request of a core to the L2 for line `n` (R451): counters 109 and 110; 3 if the L2 serves it, else 4. -/
def State.l2Ask (s : State) (n : Nat) : State × Nat :=
  if s.l2.has n then (s.count 109, 3) else ((s.count 109).count 110, 4)

/-- A parity error in an L2 line (R303, R314, R315): flagged once, refetched each time. -/
def State.l2Parity (s : State) (n : Nat) : State :=
  let t := s.incSat .l2 F.L2PAR_refetch
  if s.l2.bad.contains n then t
  else (({ t with l2 := { t.l2 with bad := t.l2.bad ++ [n] } } : State).incSat .l2 F.L2PAR_lines).raise .l2 1

/-! ### L1 and the side buffer (R300 to R303) -/

/-- The L1 of a core: instructions or data. -/
def State.l1 (s : State) (c : Nat) (data : Bool) : Tbl (List CLine) := if data then (s.core c).l1d else (s.core c).l1i

/-- Set an L1 of a core. -/
def State.setL1 (s : State) (c : Nat) (data : Bool) (t : Tbl (List CLine)) : State :=
  s.updCore c (fun k => if data then { k with l1d := t } else { k with l1i := t })

/-- Line `n` in an L1. -/
def State.l1Line (s : State) (c : Nat) (data : Bool) (n : Nat) : Option CLine :=
  (Tbl.look [] (s.l1 c data) (n % 128)).find? (fun l => l.line == n)

/-- Line `n` in the side buffer. -/
def State.sideLine (s : State) (c n : Nat) : Option CLine := (s.core c).side.find? (fun l => l.line == n)

/-- Put a line into the side buffer; with 16 there the oldest is discarded (R300, R301). -/
def State.sidePut (s : State) (c n : Nat) : State :=
  s.updCore c (fun k => { k with
    side := (if 16 ≤ k.side.length then k.side.drop 1 else k.side) ++ [⟨n, s.memLine n, false⟩] })

/-- Use of a line at commit (R301): a line of the L1 becomes the most recently used; a side-buffer line moves into the L1, whose
least recently used line is offered to the L2, and into the L2 if that lacks it. -/
def State.useLine (s : State) (c : Nat) (data : Bool) (n : Nat) : State :=
  let set := Tbl.look [] (s.l1 c data) (n % 128)
  match set.find? (fun l => l.line == n) with
  | some l => s.setL1 c data (Tbl.put [] (s.l1 c data) (n % 128) (l :: set.filter (fun m => m.line != n)))
  | none =>
    match s.sideLine c n with
    | none => s
    | some l =>
      let t := (s.updCore c (fun k => { k with side := k.side.filter (fun m => m.line != n) })).count (coreCtr c 10)
      let t := if t.l2.has n then t else { t with l2 := t.l2.install n }
      let t := t.setL1 c data (Tbl.put [] (t.l1 c data) (n % 128) (l :: set.take 3))
      (set.drop 3).foldl State.offerLine t

/-- Flag a line bad wherever the core holds it (R303). -/
def State.flagLine (s : State) (c : Nat) (data : Bool) (n : Nat) : State :=
  let mark (l : CLine) : CLine := if l.line == n then { l with bad := true } else l
  let t := s.setL1 c data (Tbl.upd [] (s.l1 c data) (n % 128) (List.map mark))
  (t.updCore c (fun k => { k with side := k.side.map mark }))

/-- A parity error in a cached line, or an access to a flagged one (R303): counted, and CORE_PARFIX when the line is newly flagged. -/
def State.lineParity (s : State) (c : Nat) (data isBad : Bool) (n : Nat) : State :=
  let u := coreUnit c
  let t := s.incSat u (if data then F.CPARD_refetch else F.CPARI_refetch)
  if isBad then t
  else ((t.flagLine c data n).incSat u (if data then F.CPARD_lines else F.CPARI_lines)).raise u 3

/-- A committed read of line `n` (R301, R303): the 64 bytes, the source (1 L1, 2 side buffer, 3 L2, 4 DRAM), and whether they were
refetched. `perr` and `l2err`: parity errors in the core's line and in the L2's. -/
def State.readLine (s : State) (c : Nat) (data : Bool) (n : Nat) (perr l2err : Bool) : State × Nat × Nat × Bool :=
  match (s.l1Line c data n).orElse (fun _ => s.sideLine c n) with
  | some l =>
    let src := if (s.l1Line c data n).isSome then 1 else 2
    let t := if src = 1 then s else s.count (coreCtr c (if data then 9 else 8))
    if l.bad || perr then
      let a := (t.lineParity c data l.bad n).l2Ask n
      ((a.1.useLine c data n), s.memLine n, a.2, true)
    else (t.useLine c data n, l.data, src, false)
  | none =>
    let a := (s.count (coreCtr c (if data then 9 else 8))).l2Ask n
    let t := if l2err && a.2 = 3 then a.1.l2Parity n else a.1
    ((t.sidePut c n).useLine c data n, s.memLine n, a.2, false)

/-- A prefetch into the side buffer (R301, R306): of a line in neither the L1 nor the side buffer. `counted`: it counts as an L2
access. -/
def State.prefetch (s : State) (c : Nat) (data counted : Bool) (n : Nat) : State :=
  if (s.l1Line c data n).isSome || (s.sideLine c n).isSome then s
  else ((if counted then (s.l2Ask n).1 else s).sidePut c n)

/-- Bytes `i` to `i + k − 1` of a number. -/
def subBytes (v i k : Nat) : Nat := v / 256 ^ i % 256 ^ k

/-- Replace bytes `i` to `i + k − 1` of a number. -/
def putBytes (v i k w : Nat) : Nat := v - subBytes v i k * 256 ^ i + w % 256 ^ k * 256 ^ i

/-- A store of `k` bytes to cacheable memory (R277): DRAM, and the core's L1D and side-buffer copies. -/
def State.storeCached (s : State) (c a k v : Nat) : State :=
  let n := a / 64
  let upd (l : CLine) : CLine := if l.line == n then { l with data := putBytes l.data (a % 64) k v } else l
  let t := s.storeLE a k v
  (t.setL1 c true (Tbl.upd [] (t.l1 c true) (n % 128) (List.map upd))).updCore c (fun x => { x with side := x.side.map upd })

/-! ### Traps (R295, R296) -/

/-- A trap of core `c` (R296): the next frame is filled and the core goes on at its vector; at depth 2 it stops in fault. -/
def State.trap (s : State) (c code val ret : Nat) : State :=
  let x := s.core c
  let u := coreUnit c
  let s := if code = 16 then s else s.wr u F.CSTAT_lastcause code
  if 2 ≤ x.depth then ((s.setFlag u F.CSTAT_doublefault true).wr u F.USTAT_state 5).raise u 1
  else
    let f := x.depth
    let cls := if code = 16 then 2 else if code = 5 then 1 else 0
    s.updCore c (fun x => { x with
      ctl := Tbl.put 0 (Tbl.put 0 (Tbl.put 0 x.ctl (1 + 3 * f) (ret % 2 ^ 32)) (2 + 3 * f)
        (b2n x.ien * 512 + b2n (code == 16) * 256 + code)) (3 + 3 * f) (val % 2 ^ 32)
      depth := f + 1
      ien := false
      pc := (Tbl.look 0 x.ctl 7 + 0x100 * f + 0x40 * cls) % 2 ^ 32 })

/-! ### Sampling (R308 to R310) -/

/-- The next value of the sampling LFSR (R308): x^8 + x^6 + x^5 + x^4 + 1, shifted left. -/
def smpNext (v : Nat) : Nat :=
  v * 2 % 256 + b2n ((bitOf v 7 != bitOf v 5) != (bitOf v 4 != bitOf v 3))

/-- The mean interval in use (R313). -/
def State.smpN (s : State) (c : Nat) : Nat := min 65536 (max 256 (s.rd (coreUnit c) F.CSMPN_n))

/-- The down-counter is loaded with n − 128 + r (R308). -/
def State.smpLoad (s : State) (c : Nat) : State :=
  s.updCore c (fun x => let r := smpNext x.lfsr; { x with lfsr := r, down := s.smpN c - 128 + r })

/-- An instruction leaves F2 (R308): whether it is tagged. -/
def State.smpFetch (s : State) (c : Nat) : State × Bool :=
  if !s.flag (coreUnit c) F.CSMPCTL_enable then (s, false)
  else if (s.core c).down ≤ 1 then (s.smpLoad c, true)
  else (s.updCore c (fun x => { x with down := x.down - 1 }), false)

/-- The ring size (R313). -/
def State.smpSize (s : State) (c : Nat) : Nat :=
  let k := s.rd (coreUnit c) F.CSMPLEN_k
  2 ^ (if 6 ≤ k && k ≤ 16 then k else 6)

/-- A sample record is written, or dropped when the ring is full (R309, R310). -/
def State.smpWrite (s : State) (c : Nat) (w0 w1 w2 w3 w4 : Nat) : State :=
  let u := coreUnit c
  let seq := (s.core c).seq
  let t := s.updCore c (fun x => { x with seq := (x.seq + 1) % 2 ^ 32 })
  let h := t.rd u F.CSMPHEAD_head
  let next := (h + 1) % t.smpSize c
  if next = t.rd u F.CSMPTAIL_tail then (t.incSat u F.CSMPLOST_dropped).raise u 5
  else
    let words := [w0, w1, w2, w3, w4, s.time.ns, seq, 0]
    let t := match t.place c (t.rd u F.CSMPBASE_base * 32 + 32 * h) with
      | .cached a true => ((words.zipIdx).foldl (fun (t : State) (p : Nat × Nat) => t.storeCached c (a + 4 * p.2) 4 p.1) t)
      | _ => t
    t.wr u F.CSMPHEAD_head next

/-- SAMPLING_ENABLE (R308, R310, R313): CSMPCTL.enable written 1 seeds the LFSR, clears CSMPLOST and resets CSMPHEAD. -/
def State.smpControl (s : State) (c v : Nat) : State :=
  let u := coreUnit c
  let t := s.storeReg u 0x60 v
  if !bitOf v 0 then t
  else
    let seed := if F.CSMPCTL_seed.of v = 0 then 0x5A else F.CSMPCTL_seed.of v
    let t := ((t.wr u F.CSMPHEAD_head 0).wr u F.CSMPLOST_skipped 0).wr u F.CSMPLOST_dropped 0
    (t.updCore c (fun x => { x with lfsr := seed, seq := 0 })).smpLoad c

/-- SAMPLING_ENABLE (R308). -/
def execSamplingEnable (r : Requester) (c : Fin 9) (v : Word) (s : State) : Out :=
  live s (s.guardReg r (coreUnit c) 0x60 v.toNat (fun t => t.smpControl c v.toNat))

/-! ### Core control (R311, R312) -/

/-- A core reset (R312): caches, predictor, trap frames and pending work go; its slice-mover channels are aborted; SRAM stays. The
general registers are undefined until written (R271). -/
def State.coreReset (s : State) (n : Nat) : State :=
  let k := (s.core n).resets + 1
  let old := s.core n
  let t : State := { s with cores := Tbl.put CoreSt.none s.cores n { CoreSt.none with
    g := (List.range 31).foldl (fun g i => Tbl.put 0 g (i + 1) (Config.coreReg n k (i + 1) % 2 ^ 32)) []
    badWords := old.badWords, faults := old.faults, dead := old.dead, resets := k } }
  let u := coreUnit n
  let t := (Fields.core).foldl (fun t f => t.wr u f f.rst) t
  let t := (((t.setFlag .keeper (F.kc n F.KCCTRL_run) false).setFlag .keeper (F.kc n F.KCCTRL_hold) false).setFlag .keeper
    (F.kc n F.KCCTRL_reset) false).wr u F.USTAT_state 0
  t.abortOwned (coreReq n)

/-- A ready core starts at KCSTART (R311); one that is not ready is not started. -/
def State.coreStart (s : State) (n : Nat) : State :=
  let u := coreUnit n
  if s.rd u F.USTAT_state = 3 || s.rd u F.USTAT_state = 5 || s.rd u F.USTAT_state = 4 then s
  else
    ((s.setFlag .keeper (F.kc n F.KCCTRL_run) true).wr u F.USTAT_state 3).updCore n (fun x => { x with
      pc := s.rd .keeper (F.kc n F.KCSTART_start) * 4 })

/-- A write of KCCTRL (R311, R312): reset wins; hold stops or continues; run starts a ready core on 0 to 1. -/
def State.kcControl (s : State) (n v : Nat) : State :=
  if bitOf v 1 then s.coreReset n
  else
    let t := s.setFlag .keeper (F.kc n F.KCCTRL_hold) (bitOf v 2)
    if bitOf v 0 && !t.flag .keeper (F.kc n F.KCCTRL_run) then t.coreStart n
    else if !bitOf v 0 then t.setFlag .keeper (F.kc n F.KCCTRL_run) false else t

/-- CORE_RESET (R312). -/
def execCoreReset (r : Requester) (n : Fin 8) (v : Word) (s : State) : Out :=
  live s (s.guardReg r .keeper (0x100 + 0x40 * n.val) v.toNat (fun t => t.kcControl n v.toNat))

/-- CORE_HOLD (R311). -/
def execCoreHold (r : Requester) (n : Fin 8) (v : Word) (s : State) : Out :=
  live s (s.guardReg r .keeper (0x100 + 0x40 * n.val) v.toNat (fun t => t.kcControl n v.toNat))

/-- CORE_RUN (R311). -/
def execCoreRun (r : Requester) (n : Fin 8) (v : Word) (s : State) : Out :=
  live s (s.guardReg r .keeper (0x100 + 0x40 * n.val) v.toNat (fun t => t.kcControl n v.toNat))

/-- The commands a stock core had taken complete as aborted when it restarts (R323). -/
def State.abortTaken (s : State) (n : Nat) : State :=
  (s.rcd.ops.filter (fun o => o.core == n)).foldl (fun t o => t.endOp o .aborted) s

/-- A stock core is left stopped (R323, R370): the controller answers what it had taken and what waits on its queues with
internal-error; for Core[0] the keeper writes NVCTRL.cfs. -/
def State.leaveStopped (s : State) (n : Nat) : State :=
  let t := (s.rcd.ops.filter (fun o => o.core == n)).foldl (fun t o => t.endOp o .internalError) s
  let t := (List.range 67).foldl (fun t q =>
    if stockCore q = n then
      (t.waitingOn q).foldl (fun t slot => (t.setWaiting q ((t.waitingOn q).drop 1)).finish slot .internalError) t
    else t) t
  if n = 0 then t.setFlag .nvme F.NVCTRL_cfs true else t

/-- HEARTBEAT_TIMEOUT (R323, R312): the keeper resets the core, reloads its segment if the check failed and restarts it; the third
fault within 60 s leaves it stopped. -/
def execHeartbeatTimeout (n : Fin 8) (ok : Bool) (s : State) : Out :=
  if s.job n 0 = 255 || (s.core n).dead then .next s
  else
    let recent := (s.core n).faults.filter (fun t => decide (s.time.ns < t + 60000000000))
    let t := (s.coreReset n).updCore n (fun x => { x with faults := recent ++ [s.time.ns] })
    let t := t.raise .keeper 17
    if 2 ≤ recent.length then live s ((t.updCore n (fun x => { x with dead := true })).leaveStopped n)
    else
      let t := if ok then t else t.loadSegment n (t.job n 0)
      live s ((t.coreStart n).abortTaken n)

end Sys2Proof.Machine
end

