-- ==== Sys2Proof/Machine/Events.lean ====
section
/-! DEFINITION. The event-block, lock, lane and crumb commands (R43, R44, R56, R441, R445 to R450). -/

namespace Sys2Proof.Machine

/-- The bit numbers set in a 32-bit word, lowest first. -/
def bitsSet (v : Nat) : List Nat := (List.range 32).filter (bitOf v)

/-- Raise every event whose bit is set in `v`. -/
def State.raiseAll (s : State) (u : UnitId) (v : Nat) : State := (bitsSet v).foldl (fun t b => t.raise u b) s

/-- EVFORCE_WRITE (R43, R439): each bit written as 1 sets as its source would, without a crumb. -/
def execEvforceWrite (r : Requester) (u : UnitId) (v : Word) (s : State) : Out :=
  live s (s.guardReg r u 0x2C v.toNat (fun t => t.raiseAll u v.toNat))

/-- EVCLR_WRITE (R43, R44): each bit written as 1 clears unless its source occurs in the same cycle; a source whose
condition is still present sets its bit again. -/
def execEvclrWrite (r : Requester) (u : UnitId) (v occ present : Word) (s : State) : Out :=
  live s (s.guardReg r u 0x30 v.toNat (fun t =>
    let kept := (t.rd u F.EVRAW) &&& ((v.toNat &&& (occ.toNat ^^^ 0xFFFFFFFF)) ^^^ 0xFFFFFFFF)
    (t.wr u F.EVRAW kept).raiseAll u (v.toNat &&& present.toNat)))

/-- Set ULOCK.locked of a unit and of every descendant (R56). -/
def State.lockTree (s : State) (u : UnitId) : State :=
  u.subtree.foldl (fun t a => t.setFlag a F.ULOCK_locked true) s

/-- ULOCK_WRITE (R42, R56): writing 1 locks the unit and, for a pod, every descendant; writing 0 does nothing. -/
def execUlockWrite (r : Requester) (u : UnitId) (v : Word) (s : State) : Out :=
  live s (s.guardReg r u 0x10 v.toNat (fun t => if bitOf v.toNat 0 then t.lockTree u else t))

/-- Re-arm one lane (R441): a lane still pending sends a message at once. -/
def State.rearm (s : State) (lane : Nat) : State :=
  let t : State := { s with lanes := { s.lanes with sent := Tbl.put false s.lanes.sent lane false } }
  if t.lanePending lane then State.noteWrap t (t.laneMessage lane) else t

/-- LNREARM_WRITE (R441). -/
def execLnrearmWrite (r : Requester) (hi : Bool) (v : Word) (s : State) : Out :=
  live s (s.guardReg r .event (if hi then 0x5C else 0x58) v.toNat (fun t =>
    (bitsSet v.toNat).foldl (fun t b => t.rearm (if hi then 32 + b else b)) t))

/-- The eight words of a crumb log entry (R444). -/
def CrumbEntry.words (e : CrumbEntry) : List Nat :=
  [e.crumb.cls * 2 ^ 30 + e.crumb.req * 2 ^ 26 + e.crumb.src * 2 ^ 16 + e.crumb.code * 2 ^ 8 + b2n e.coalesced,
   e.seq, e.crumb.t % 2 ^ 32, e.crumb.t / 2 ^ 32, e.last, e.count * 2 ^ 16, e.crumb.d6, e.crumb.d7]

/-- A write of CRSEL (R448). -/
def State.crSel (t : State) (v : Nat) : State :=
    let t := t.wr .event F.CRSEL_entry v
    { t with crumbs := { t.crumbs with
        latched := match Tbl.look none t.crumbs.log (t.rd .event F.CRSEL_entry) with
          | some e => e.words
          | none => [] } }

/-- CRSEL_WRITE (R448): select an entry and latch its words as they stand. -/
def execCrselWrite (r : Requester) (v : Word) (s : State) : Out :=
  live s (s.guardReg r .event 0x80 v.toNat (fun t => t.crSel v.toNat))

/-- A write of CRSWCMD by requester `r` (R449). -/
def State.crSwcmd (t : State) (r : Requester) (v : Nat) : State :=
    t.crumb 3 r.num .event v (Tbl.look 0 t.crumbs.sw (2 * r.num)) (Tbl.look 0 t.crumbs.sw (2 * r.num + 1))

/-- CRSWCMD_WRITE (R449): a class 3 crumb with the requester's own detail words. -/
def execCrswcmdWrite (r : Requester) (v : Word) (s : State) : Out :=
  live s (s.guardReg r .event 0xC8 v.toNat (fun t => t.crSwcmd r v.toNat))

/-- The crumb repeats one already logged: class, requester, source and code agree (R447). -/
def Crumb.same (a b : Crumb) : Bool := a.cls == b.cls && a.req == b.req && a.src == b.src && a.code == b.code

/-- The index of the newest of the 16 newest entries that a crumb repeats (R447). -/
def State.floodMatch (s : State) (c : Crumb) : Option Nat :=
  ((List.range (min 16 (s.rd .event F.CRHEAD_valid))).map
    (fun i => (s.rd .event F.CRHEAD_head + 4096 - 1 - i) % 4096)).find?
    (fun i => match Tbl.look none s.crumbs.log i with
      | some e => e.crumb.same c
      | none => false)

/-- Put an entry into the log and, with the mirror on, into core memory at CRMBASE + 32 × entry (R450). -/
def State.setCrumbEntry (s : State) (i : Nat) (e : CrumbEntry) : State :=
  let t : State := { s with crumbs := { s.crumbs with log := Tbl.put none s.crumbs.log i (some e) } }
  if t.flag .event F.CRMBASELO_enable then
    t.engineStore (t.rd .event F.CRMBASELO_base * 2 ^ 17 + t.rd .event F.CRMBASEHI_base * 2 ^ 32 + 32 * i)
      (e.words.flatMap (leBytes 4))
  else t

/-- A new entry at CRHEAD; a full log overwrites its oldest entry (R446). -/
def State.newCrumbEntry (s : State) (c : Crumb) : State :=
  let head := s.rd .event F.CRHEAD_head
  let full := s.rd .event F.CRHEAD_valid == 4096
  let seq := s.rd .event F.CRSEQ_seq
  let t := s.setCrumbEntry head ⟨c, seq, c.t % 2 ^ 32, 1, false⟩
  let t := (t.wr .event F.CRHEAD_head (head + 1)).incWrap .event F.CRSEQ_seq
  if full then (t.incWrap .event F.CROVER_count).raise .event 3 else t.incWrap .event F.CRHEAD_valid

/-- CRUMB_ENTRY_WRITE (R446, R447, R450): the next queued crumb becomes an entry, or in the flood state is counted into
the newest of the 16 newest entries that it repeats. -/
def execCrumbEntryWrite (s : State) : Out :=
  live s (match s.crumbs.queue with
    | [] => s
    | c :: q =>
      let t : State := { s with crumbs := { s.crumbs with queue := q } }
      match (if c.flood then t.floodMatch c else none) with
      | none => t.newCrumbEntry c
      | some i =>
        match Tbl.look none t.crumbs.log i with
        | none => t.newCrumbEntry c
        | some e => t.setCrumbEntry i { e with count := satAdd 16 e.count 1, last := c.t % 2 ^ 32, coalesced := true })

/-- CRUMB_INTERVAL_END (R447): the flood state ends after an interval with fewer than CRFLOOD.leave crumbs. -/
def execCrumbIntervalEnd (s : State) : Out :=
  let quiet := s.crumbs.accepted < s.rd .event F.CRFLOOD_leave
  let t : State := { s with crumbs := { s.crumbs with accepted := 0 } }
  live s (if quiet then t.setFlag .event F.CRSTAT_flood false else t)

end Sys2Proof.Machine
end

