-- ==== Sys2Proof/Machine/Views.lean ====
section
/-! DEFINITION. The computed words of a unit header (R37 to R42), the unit directory (R47) and identity offsets (R50). -/

namespace Sys2Proof.Machine

/-- USTAT.state of a unit (R40): off while its island is not clocked, proofing in start stage 2, ready where the unit notes no
other state; a running core under KCCTRL.hold is held (R311). -/
def State.unitState (s : State) (u : UnitId) : Nat :=
  let v := s.rd u F.USTAT_state
  if !s.pw.clocked then 0
  else if v = 3 && (match u with | .core n => s.flag .keeper (F.kc n F.KCCTRL_hold) | _ => false) then 4
  else if v ≠ 0 then v
  else if s.rd .power F.PWSTART_stage = 2 then 1
  else 2

/-- A pod's descendants. -/
def UnitId.below (u : UnitId) : List UnitId := u.subtree.drop 1

/-- USTAT (R40). -/
def State.ustat (s : State) (u : UnitId) : Nat :=
  s.unitState u + b2n (u.below.any (fun d => s.unitState d == 5)) * 256 + b2n (u.below.any (fun d => s.unitState d == 6)) * 512

/-- The sources of a unit and its descendants with an EVOUT bit set. -/
def State.outSources (s : State) (us : List UnitId) : List Nat :=
  us.filterMap (fun d => match d.src with
    | some n => if s.evOut d = 0 then none else some n
    | none => none)

/-- UEVSUM (R41). -/
def State.uevsum (s : State) (u : UnitId) : Nat :=
  let own := s.outSources [u]
  let below := s.outSources u.below
  let first := (own ++ below).foldl min 0x3FF
  first * 65536 + b2n (!below.isEmpty) * 2 + b2n (!own.isEmpty)

/-- UKIND (R38); the device pod's version is 0xA1, that of any other unit a free value (DESIGN CHOICE, log entry 2). -/
def UnitId.ukind (u : UnitId) : Nat :=
  u.kind * 65536 + (if u == .device then 0xA1 else Config.unitVersion u.kind % 256) * 256 + b2n u.src.isSome * 2 + b2n u.isPod

/-- UINST (R39). -/
def UnitId.uinst (u : UnitId) : Nat := u.inst * 65536 + (u.parent.elim 0 UnitId.base) / 256

/-- The spacing of a pod's children as UCHILD.stride codes it (R42): 0 where they are irregular or fewer than two. -/
def UnitId.stride (u : UnitId) : Nat :=
  match u.children with
  | a :: b :: rest =>
    let d := b.base - a.base
    let even : Bool := ((b :: rest).zip rest).all (fun p => p.2.base - p.1.base == d)
    if even then ((List.range 16).find? (fun n => n != 0 && 2 ^ (n + 7) == d)).getD 0 else 0
  | _ => 0

/-- UCHILD (R42). -/
def UnitId.uchild (u : UnitId) : Nat :=
  u.stride * 2 ^ 24 + u.children.length * 2 ^ 14 + ((u.children.head?).elim 0 UnitId.base) / 256

/-- UIDENT (R50). -/
def UnitId.uident : UnitId → Nat
  | .device => 0x1340 | .corePod => 0x1360 | .media => 0x1380 | .drive => 0x13A0 | .ringPod => 0x13C0
  | _ => 0

/-- The ledger entry of a unit (R488). -/
def UnitId.ageIndex : UnitId → Option Nat
  | .beam b => some b | .laser h => some (48 + h) | .vcm n => some (52 + n) | .spindle => some 68 | .channel n => some (169 + n)
  | _ => none

/-- UAGE.health (R42, R488): a unit's entry, a pod's minimum over its descendants, the device pod's over all 305 entries. -/
def State.unitHealth (s : State) (u : UnitId) : Nat :=
  if u == .device then (List.range 305).foldl (fun m e => min m (s.age e).health) 255
  else (u.subtree.filterMap UnitId.ageIndex).foldl (fun m e => min m (s.age e).health) 255

/-- UAGE (R42). -/
def State.uage (s : State) (u : UnitId) : Nat := s.unitHealth u * 65536 + u.ageIndex.getD 0xFFFF

/-- The depth of a unit in the tree (R34). -/
def UnitId.depth (u : UnitId) : Nat :=
  match u.parent with
  | none => 0
  | some p => match p.parent with
    | none => 1
    | some q => match q.parent with
      | none => 2
      | some _ => 3

/-- Word `i` of the unit directory (R47). -/
def directoryWord (i : Nat) : Nat :=
  match (UnitId.device.subtree)[i / 2]? with
  | some u =>
    if i % 2 = 0 then u.depth * 2 ^ 22 + u.base
    else b2n u.src.isSome * 2 ^ 29 + b2n u.isPod * 2 ^ 28 + u.inst * 65536 + u.kind
  | none => 0

/-- The words of a header (R37). -/
def State.headerWord (s : State) (u : UnitId) (o : Nat) : Nat :=
  if o = 0x00 then u.ukind
  else if o = 0x04 then u.uinst
  else if o = 0x08 then s.ustat u
  else if o = 0x0C then s.uevsum u
  else if o = 0x10 then s.storedWord u 0x10
  else if o = 0x14 then u.uchild
  else if o = 0x18 then u.uident
  else s.uage u

/-! ### Station headers (R540) -/

/-- The last gather record of station `n` on a port's ring, if this device masters it and has one. -/
def State.view (s : State) (portB : Bool) (n : Nat) : Option Nat :=
  let x := if portB then s.rg.b else s.rg.a
  let v := Tbl.look 0 x.views n
  if (portB || s.rg.claimant) && v ≠ 0 then some (v - 1) else none

/-- A word of a station header (R540). -/
def State.stationWord (s : State) (portB : Bool) (n o : Nat) : Nat :=
  match s.view portB n with
  | none => 0
  | some r =>
    let heads : Bool := !portB && bits r 48 7 != 0
    let number := if portB then s.rd .join F.JNSTAT_device / 64 * 64 + n else n * 64
    let own := r % 2 ^ 31 != 0
    let first := if own then (if portB then 448 else 384) + n else 0x3FF
    if o = 0x00 then (if heads then 0x0084 else 0x0001) * 65536
    else if o = 0x04 then number * 65536 + (if portB then 0x206000 else 0x201000) / 256
    else if o = 0x08 then bits r 32 3 + bits r 35 1 * 256 + bits r 36 1 * 512
    else if o = 0x0C then first * 65536 + b2n own
    else if o = 0x1C then bits r 40 8 * 65536 + 0xFFFF
    else 0

end Sys2Proof.Machine
end

