-- ==== Sys2Proof/Machine/Ring.lean ====
section
/-! DEFINITION. The Onpex ring (R526 to R547): bypasses, the master role and claims, joining, the cycle, holding and release,
messages, sync frames and the delay exchange. -/

namespace Sys2Proof.Machine

/-! ### Small operations -/

/-- The ring of a port. -/
def State.side (s : State) (portB : Bool) : RingSide := if portB then s.rg.b else s.rg.a

/-- Change the ring of a port. -/
def State.updSide (s : State) (portB : Bool) (f : RingSide → RingSide) : State :=
  if portB then { s with rg := { s.rg with b := f s.rg.b } } else { s with rg := { s.rg with a := f s.rg.a } }

/-- A frame leaves the device. -/
def State.ringSend (s : State) (x : RingOut) : State := { s with rg := { s.rg with out := s.rg.out ++ [x] } }

/-- Set RNSTAT.state or RNSTAT.substate. -/
def State.setRn (s : State) (portB : Bool) (st : Nat) : State :=
  if portB then s.wr .ring F.RNSTAT_substate st else s.wr .ring F.RNSTAT_state st

/-- The port is enabled. -/
def State.portOn (s : State) (portB : Bool) : Bool :=
  if portB then s.flag .ring F.RNCTRL_portb else s.flag .ring F.RNCTRL_porta

/-- This device masters the port's ring (R528): the claimant on port A, the head on port B. -/
def State.masters (s : State) (portB : Bool) : Bool := portB || s.rg.claimant

/-- The ring violation of a row of R545. -/
def State.ringViol (s : State) (row d6 d7 : Nat) : State := (s.crumb 2 hwReq .ring row d6 d7).raise .ring 12

/-- A bad frame that is discarded (R545 row 1). -/
def State.ringBad (s : State) : State := (s.ringViol 1 0 0).count 191

/-! ### Bypasses and claims -/

/-- The bypass of a port follows its enable and its block lock (R530); a port off reads state 0, an open one listens, or masters
its ring. -/
def State.bypass (s : State) (portB : Bool) : State :=
  let ok : Bool := s.portOn portB && (s.side portB).lock
  let t := s.updSide portB (fun x => { x with opened := ok })
  if !s.portOn portB then t.setRn portB rnOff
  else if ok && s.rnState portB = rnOff then t.setRn portB (if s.masters portB then rnMaster else rnListening)
  else t

/-- RING_BLOCK_LOCK (R530). -/
def execRingBlockLock (portB : Bool) (s : State) : Out :=
  live s (((s.updSide portB (fun x => { x with lock := true })).bypass portB).raise .ring 1)

/-- RING_BLOCK_LOSS (R530, R531): the bypass closes. -/
def execRingBlockLoss (portB : Bool) (s : State) : Out :=
  live s (((s.updSide portB (fun x => { x with lock := false })).bypass portB).raise .ring 2)

/-- A claim frame with a serial is seen (R529): a second serial within 1 ms, or on a sub-ring any claim but the head's own, is a
conflict. -/
def State.seeClaim (s : State) (portB : Bool) (serial : Nat) : State :=
  let x := s.side portB
  let other : Bool := match x.claim with
    | some c => c.1 != serial && decide (s.time.ns ≤ c.2 + 1000000)
    | none => portB && serial != Config.moduleSerial
  let t := s.updSide portB (fun x => { x with claim := some (serial, s.time.ns), second := if other then some s.time.ns else x.second })
  if other && !x.conflict then
    ((t.updSide portB (fun x => { x with conflict := true })).setRn portB rnConflict).raise .ring 5
  else t

/-- CLAIM_SEND (R528): a claimant's own claim is one of the claims it sees. -/
def execClaimSend (s : State) : Out :=
  if s.rg.claimant && s.rg.a.opened then
    live s ((s.ringSend (.claim false Config.moduleSerial)).seeClaim false Config.moduleSerial)
  else .next s

/-- CLAIM_FRAME (R528, R529, R545): a station forwards it; one from a device it does not take as master is row 4. A claimant does
not forward its own. -/
def execClaimFrame (portB : Bool) (serial : Nat) (bad : Bool) (s : State) : Out :=
  if bad then live s s.ringBad
  else
    let before := (s.side portB).claim
    let t := if serial = Config.moduleSerial && s.masters portB then s else s.ringSend .forward
    let stranger : Bool := match before with
      | some c => c.1 != serial
      | none => portB && serial != Config.moduleSerial
    let t := if stranger then t.ringViol 4 serial 0 else t
    live s (t.seeClaim portB serial)

/-- CONFLICT_END (R529): no second serial for 10 ms. -/
def execConflictEnd (portB : Bool) (s : State) : Out :=
  match (s.side portB).second with
  | some t =>
    if (s.side portB).conflict && decide (t + 10000000 ≤ s.time.ns) then
      live s ((s.updSide portB (fun x => { x with conflict := false, second := none })).setRn portB
        (if !s.portOn portB then rnOff else if s.masters portB then rnMaster else rnListening))
    else .next s
  | none => .next s

/-! ### Joining, on the master -/

/-- The station a serial held in this run. -/
def RingSide.stationOf (x : RingSide) (serial : Nat) : Option Nat :=
  (x.serials.find? (fun e => e.2 == serial + 1)).map Prod.fst

/-- The lowest free station number. -/
def RingSide.freeStation (x : RingSide) (taken : Nat) : Nat :=
  ((List.range 64).find? (fun n => n != 0 && !bitOf taken n && Tbl.look 0 x.serials n == 0)).getD 64

/-- Station `n` is held by another serial. -/
def RingSide.foreign (x : RingSide) (n serial : Nat) : Bool :=
  n == 0 || (Tbl.look 0 x.serials n != 0 && Tbl.look 0 x.serials n != serial + 1)

/-- JOIN_FRAME (R532, R533, R538): the master refuses a request for an address held by another serial and a join to a ring of 64
stations; any other is admitted at the next cycle start. Nothing joins during a conflict (R529). -/
def execJoinFrame (portB : Bool) (hop serial : Nat) (wanted : Option (Fin 64)) (s : State) : Out :=
  let x := s.side portB
  if !s.masters portB || x.conflict then live s (s.ringSend .forward)
  else if (match wanted with | some n => x.foreign n.val serial | none => false) then live s (s.ringSend (.refuse portB serial 2))
  else if 64 ≤ (stationsOf x.mask).length then live s (s.ringSend (.refuse portB serial 3))
  else live s (s.updSide portB (fun x => { x with
    joins := x.joins.filter (fun j => j.2.1 != serial) ++ [(hop, serial, (wanted.map (fun n => n.val)).getD 64)] }))

/-- Insert a join in downstream order. -/
def insertJoin (j : Nat × Nat × Nat) : List (Nat × Nat × Nat) → List (Nat × Nat × Nat)
  | [] => [j]
  | k :: ks => if j.1 ≤ k.1 then j :: k :: ks else k :: insertJoin j ks

/-- A master admits one station (R533, R538): a station new to this run is held unless autorel is 1; one that rejoins is held. -/
def State.admitStation (s : State) (portB : Bool) (j : Nat × Nat × Nat) : State :=
  let x := s.side portB
  let known := x.stationOf j.2.1
  let n := if j.2.2 < 64 then j.2.2 else known.getD (x.freeStation x.mask)
  if 64 ≤ n then s.ringSend (.refuse portB j.2.1 3)
  else
    let hold := known.isSome || !s.flag .ring F.RNCTRL_autorel
    (s.updSide portB (fun x => { x with
      mask := x.mask ||| 2 ^ n
      held := if hold then x.held ||| 2 ^ n else x.held &&& (2 ^ 64 - 1 - 2 ^ n)
      serials := Tbl.put 0 x.serials n (j.2.1 + 1) })).ringSend (.admission portB j.2.1 n hold)

/-! ### Records -/

/-- The lanes 0 to 30 that are pending (R441). -/
def State.lanesPending (s : State) : Nat := ((List.range 31).filter s.lanePending).foldl (fun a n => a + 2 ^ n) 0

/-- This station's gather record (R536). -/
def State.gatherRecord (s : State) (held : Bool) : Nat :=
  let pend := s.lanesPending
  let b := s.rg.b
  let sub := if s.rg.b.opened then (stationsOf b.mask).length else 0
  let idle : Bool := s.portOn true && (s.rnState true == rnNoMaster || b.conflict)
  pend + b2n held * 2 ^ 31 +
  (s.unitState .device + bits (s.ustat .device) 8 2 * 8 + s.rd .power F.PWSTART_level * 32) * 2 ^ 32 +
  s.unitHealth .device * 2 ^ 40 + (sub % 128 + b2n idle * 32768) * 2 ^ 48 +
  s.rd .ring F.RNIN0_in * 2 ^ 64 + s.rd .ring F.RNIN1_in * 2 ^ 96

/-- The base of the table entries that serve a port's ring. -/
def State.tableAt (s : State) (lo hi : Field) (portB : Bool) : Nat :=
  s.rd .ring lo * 2 ^ lo.lo + s.rd .ring hi * 2 ^ 32 + (if portB then 1024 else 0)

/-- The place of a station's record in a frame. -/
def recIndex (mask n : Nat) : Nat := ((stationsOf mask).filter (fun k => decide (k < n))).length

/-- The record of a station in a frame. -/
def CycleFrame.rcd (f : CycleFrame) (n : Nat) : Nat := (f.recs[recIndex f.mask n]?).getD 0

/-- Apply scatter values (R537). -/
def State.applyScatter (s : State) (v : Nat) : State :=
  (s.wr .ring F.RNOUT0_out v).wr .ring F.RNOUT1_out (v / 2 ^ 32)

/-! ### The cycle, on the master -/

/-- Membership changes at a cycle start (R539): stations that missed are removed and joining ones admitted; a change advances the
epoch and raises RING_MEMBERSHIP. -/
def State.changeMembers (s : State) (portB : Bool) : State :=
  let old := (s.side portB).mask
  let t := s.updSide portB (fun x => { x with
    mask := (x.mask &&& (2 ^ 64 - 1 - x.gone % 2 ^ 64)) ||| 1, held := x.held &&& (2 ^ 64 - 1 - x.gone % 2 ^ 64), gone := 0 })
  let js := (s.side portB).joins.foldr insertJoin []
  let t := (js.foldl (fun t j => t.admitStation portB j) t).updSide portB (fun x => { x with joins := [] })
  if (t.side portB).mask = old then t
  else ((t.updSide portB (fun x => { x with epoch := (x.epoch + 1) % 65536 })).raise .ring 6)

/-- RING_CYCLE_START (R534, R539, R546): no cycle starts in a conflict. The master's own record heads the frame; a sync frame
follows the gather frame of every 1,000th cycle. -/
def execRingCycleStart (portB : Bool) (s : State) : Out :=
  let x := s.side portB
  if !s.masters portB || !x.opened || x.conflict then .next s
  else
    let t := (s.changeMembers portB).updSide portB (fun x => { x with
      cycle := (x.cycle + 1) % 2 ^ 32, wrote := 1, flagged := false, out := true })
    let y := t.side portB
    let f : CycleFrame := ⟨true, false, y.epoch, y.cycle, y.mask, t.rd .join F.JNSTAT_device,
      (stationsOf y.mask).map (fun n => if n = 0 then t.gatherRecord false else 0), 1⟩
    let t := (t.setRn portB rnMaster).ringSend (.gather portB f)
    let t := if portB then t
      else ((t.wr .ring F.RNEPOCH_epoch y.epoch).wr .ring F.RNCYCLE_cycle y.cycle).wr .ring F.RNSTAT_members (stationsOf y.mask).length
    live s (if y.cycle % 1000 = 0 then t.ringSend (.sync portB t.time.ns 0) else t)

/-- The result of the last cycle of a port's ring (R539, R554). -/
def State.setResult (s : State) (portB : Bool) (v : Nat) : State :=
  if portB then s.wr .ring F.RNRES_subres v else s.wr .ring F.RNRES_result v

/-- GATHER_TIMEOUT (R539): the cycle is open; after three RING_OPEN is raised. -/
def execGatherTimeout (portB : Bool) (s : State) : Out :=
  let x := s.side portB
  if !x.out then .next s
  else
    let t := (s.updSide portB (fun x => { x with out := false, opens := x.opens + 1 })).setResult portB 2
    live s (if x.opens + 1 = 3 then t.raise .ring 8 else t)

/-- The master stores the returned records and sends the scatter frame, reading its records from the scatter table, with the
release bit for the stations marked (R536, R538). -/
def State.sendScatter (s : State) (portB : Bool) : State :=
  let x := s.side portB
  let base := s.tableAt F.RNSCBASELO_base F.RNSCBASEHI_base portB
  let recs := (stationsOf x.mask).map (fun n =>
    s.readLE (base + 16 * n) 8 + b2n (bitOf (x.rel &&& x.held) n) * 2 ^ 64)
  s.ringSend (.scatter portB ⟨true, false, x.epoch, x.cycle, x.mask, s.rd .join F.JNSTAT_device, recs, x.wrote⟩)

/-- GATHER_RETURN (R536, R539, R540): the records of the stations that wrote an unflagged frame go to the gather table and the
station headers. -/
def execGatherReturn (portB : Bool) (f : CycleFrame) (trip : Nat) (s : State) : Out :=
  let x := s.side portB
  if !x.out || f.cycle ≠ x.cycle then .next s
  else
    let bad : Bool := f.err || !f.crcOk
    let t := if f.crcOk then s else s.ringBad
    let t := t.updSide portB (fun x => { x with
      opens := 0, flagged := bad, wrote := if bad then 1 else f.wrote &&& x.mask ||| 1, loop := trip })
    let t := if portB then t else t.wr .ring F.RNLOOP_loop (min trip 65535)
    let base := t.tableAt F.RNGABASELO_base F.RNGABASEHI_base portB
    let ns := if bad then [] else (stationsOf x.mask).filter (bitOf (f.wrote ||| 1))
    let t := ns.foldl (fun t n =>
      (t.engineStore (base + 16 * n) (leBytes 16 (f.rcd n))).updSide portB (fun x => { x with
        views := Tbl.put 0 x.views n (f.rcd n + 1) })) t
    live s (t.sendScatter portB)

/-- SCATTER_RETURN (R537 to R539): the cycle closes complete or stale. The master applies its own record; released stations are
held no longer. -/
def execScatterReturn (portB : Bool) (f : CycleFrame) (s : State) : Out :=
  let x := s.side portB
  if !x.out || f.cycle ≠ x.cycle then .next s
  else
    let bad : Bool := f.err || !f.crcOk
    let t := if f.crcOk then s else s.ringBad
    let acked := (stationsOf x.mask).filter (fun n => n == 0 || (!bad && bitOf (f.rcd n) 65))
    let late := (stationsOf x.mask).filter (fun n => !(bitOf x.wrote n && acked.contains n))
    let fell := (stationsOf x.mask).filter (fun n => !bitOf x.wrote n && !x.flagged)
    let done := x.held &&& x.rel
    let t := t.updSide portB (fun y => { y with
      out := false
      gone := fell.foldl (fun a n => a + 2 ^ n) 0
      held := if bad then y.held else y.held - done
      rel := if bad then y.rel else 0
      stale := if late.isEmpty && !bad && !x.flagged then y.stale else late.foldl (fun a n => a + 2 ^ n) 0 })
    let t := if bad || x.flagged then t else t.applyScatter (f.rcd 0)
    live s (if late.isEmpty && !bad && !x.flagged then (t.setResult portB 0).count 189
      else ((t.setResult portB 1).count 190).raise .ring 7)

/-- A write of RNREL (R538). -/
def State.rnRel (t : State) (v : Nat) : State :=
    t.updSide (t.flag .ring F.RNRSEL_ring) (fun x => { x with
      rel := x.rel ||| (if bitOf v 31 then x.held else x.held &&& 2 ^ (v % 64)) })

/-- RNREL_WRITE (R538): the held members named, or all, of the ring that RNRSEL selects are released in their next scatter record. -/
def execRnrelWrite (r : Requester) (v : Word) (s : State) : Out :=
  live s (s.guardReg r .ring 0x90 v.toNat (fun t => t.rnRel v.toNat))

/-! ### The cycle, on a station -/

/-- The station asks to join (R532). -/
def State.askJoin (s : State) : State :=
  (s.setRn false rnJoining).ringSend (.join Config.moduleSerial
    (if s.flag .join F.STADDR_auto then 64 else s.rd .join F.STADDR_station))

/-- A join completes (R532, R60): the unit locks, the device number is shown and RING_JOINED raised. Whether it enters held is the
master's choice (R538). -/
def State.joined (s : State) (root st : Nat) : State :=
  let t := (s.setFlag .join F.ULOCK_locked true).setFlag .join F.ULOCK_by_device true
  let t := ((t.wr .join F.STADDR_root root).wr .join F.STADDR_station st).wr .join F.JNSTAT_device (root * 64 + st)
  ((t.wr .join F.JNSTAT_result 1).setRn false rnMember).raise .ring 3

/-- Show a cycle frame's epoch and number. -/
def State.showCycle (s : State) (f : CycleFrame) : State :=
  ((s.wr .ring F.RNEPOCH_epoch f.epoch).wr .ring F.RNCYCLE_cycle f.cycle).wr .ring F.RNSTAT_members (stationsOf f.mask).length

/-- The claimed master is another than the one this station knows. -/
def State.otherMaster (s : State) (f : CycleFrame) : Bool :=
  match s.rg.master with
  | some m => decide (m ≠ f.master)
  | none => false

/-- A joining station that the frame admits is a member (R533). -/
def State.admitted (t : State) (f : CycleFrame) (admitted : Option (Fin 64 × Fin 64 × Bool)) : State :=
  match admitted with
  | some (root, st, hold) =>
    if t.rnState false = rnJoining && bitOf f.mask (if st.val = 0 then root.val else st.val) then
      (t.joined root.val st.val).setFlag .ring F.RNSTAT_held hold
    else t
  | none => t

/-- GATHER_FRAME (R532, R535 to R537, R545): a member writes its record; one whose slot the mask omits treats itself as lost; a
station that listens or has lost the ring asks to join; one that was admitted completes its join. -/
def execGatherFrame (f : CycleFrame) (admitted : Option (Fin 64 × Fin 64 × Bool)) (s : State) : Out :=
  if s.rg.claimant || !s.rg.a.opened then .next s
  else
    let t := s.ringSend .forward
    if !f.crcOk then live s { t.ringBad with rg := { t.ringBad.rg with mine := none } }
    else if s.otherMaster f && s.rnState false = rnMember then live s (t.ringViol 4 f.master 0)
    else
      let t := t.showCycle f
      let t : State := ({ t with rg := { t.rg with master := some f.master, mine := none } } : State).admitted f admitted
      let st := t.rnState false
      if st = rnMember then
        (if !bitOf f.mask t.station then live s ((((t.ringViol 3 f.master 0).setRn false rnLost).raise .ring 4))
        else if f.err then live s t
        else live s { t with rg := { t.rg with mine := some f.epoch } })
      else if st = rnListening || st = rnLost || st = rnNoMaster then live s t.askJoin
      else live s t

/-- SCATTER_FRAME (R537, R538): a released or never held member applies its record and acknowledges; a held one acknowledges and,
on the release bit, leaves held and applies that record. -/
def execScatterFrame (f : CycleFrame) (s : State) : Out :=
  if s.rg.claimant || !s.rg.a.opened || s.rnState false ≠ rnMember then .next s
  else
    let t := s.ringSend .forward
    if !f.crcOk then live s t.ringBad
    else
      let t := t.showCycle f
      if f.err || s.rg.mine ≠ some f.epoch || !bitOf f.mask s.station then live s t
      else
        let v := f.rcd s.station
        if s.flag .ring F.RNSTAT_held then
          (if bitOf v 64 then live s (((t.setFlag .ring F.RNSTAT_held false).applyScatter v).raise .ring 13) else live s t)
        else live s (t.applyScatter v)

/-- RING_LOST (R539, R529): no cycle frame for three periods; a station that was no member finds no master. -/
def execRingLost (s : State) : Out :=
  let st := s.rnState false
  if s.rg.claimant then .next s
  else if st = rnMember then
    let t : State := { s with rg := { s.rg with mine := none } }
    live s ((t.setRn false rnLost).raise .ring 4)
  else if st = rnListening || st = rnJoining then live s (s.setRn false rnNoMaster)
  else .next s

/-- JOIN_REFUSED (R533): the refused station closes its bypass until STADDR is written. -/
def execJoinRefused (result : Fin 4) (s : State) : Out :=
  if s.rnState false ≠ rnJoining then .next s
  else
    let t := (s.updSide false (fun x => { x with opened := false })).setRn false rnRefused
    live s ((t.wr .join F.JNSTAT_result result.val).raise .join 1)

/-- A refused station tries again once STADDR is written (R533). -/
def State.rejoin (s : State) : State :=
  if s.rnState false = rnRefused then (s.setRn false rnOff).bypass false else s

/-! ### Messages -/

/-- A message posted by a job (R541): 16 words. -/
def State.postMessage (s : State) (words : List Nat) (owner : Nat) : State :=
  { s with rg := { s.rg with msgQ := s.rg.msgQ ++ [⟨words, owner, none, 0, 0⟩] } }

/-- Word `i` of a message's descriptor. -/
def RMsg.word (m : RMsg) (i : Nat) : Nat := (m.words[i]?).getD 0

/-- The destination of a message. -/
def RMsg.dst (m : RMsg) : Nat := match m.coord with | some c => c.1 | none => m.word 0 % 4096

/-- A message completes with a code (R542). -/
def State.endMessage (s : State) (m : RMsg) (code : Nat) : State :=
  let t : State := { s with rg := { s.rg with cur := none } }
  let a := m.word 5 + m.word 6 * 2 ^ 32
  let t := if a = 0 then t else t.engineStore a (leBytes 4 (code * 2 ^ 28) ++ leBytes 4 (m.word 1) ++ leBytes 8 0)
  if code = 0 && bitOf (m.word 0) 31 then t.raise .ring 10 else t

/-- The frame of a message. -/
def State.messageFrame (s : State) (m : RMsg) : RingOut :=
  match m.coord with
  | some (d, c) => .coord d m.seq c
  | none => .message m.dst m.seq (m.word 1) (s.readBytes (m.word 2 + m.word 3 * 2 ^ 32) (m.word 4 % 1024))

/-- A descriptor of a message is invalid: its length, its status address or its source (R541). -/
def RMsg.invalid (m : RMsg) : Bool :=
  let n := m.word 4 % 1024
  let src := m.word 2 + m.word 3 * 2 ^ 32
  m.coord.isNone && (n == 0 || decide (992 < n) || (m.word 5 + m.word 6 * 2 ^ 32) % 16 != 0 || !validAddr src ||
    !validAddr (src + n - 1))

/-- RING_MESSAGE_SEND (R541): one message at a time, in the order posted. -/
def execRingMessageSend (s : State) : Out :=
  match s.rg.cur, s.rg.msgQ with
  | none, m :: rest =>
    let t : State := { s with rg := { s.rg with msgQ := rest } }
    if m.invalid then live s (t.endMessage m 4)
    else
      let m := { m with seq := t.rg.nextSeq, sends := 1 }
      let t : State := { t with rg := { t.rg with cur := some m, nextSeq := t.rg.nextSeq + 1 } }
      live s (t.ringSend (t.messageFrame m))
  | _, _ => .next s

/-- RING_MESSAGE_ACK (R542). -/
def execRingMessageAck (seq : Nat) (code : Fin 3) (s : State) : Out :=
  match s.rg.cur with
  | some m => if m.seq = seq then live s (s.endMessage m code.val) else .next s
  | none => .next s

/-- RING_MESSAGE_TIMEOUT (R542): a send without acknowledgement is repeated; after three sends the code is 3. -/
def execRingMessageTimeout (s : State) : Out :=
  match s.rg.cur with
  | some m =>
    if 3 ≤ m.sends then live s (s.endMessage m 3)
    else
      let m := { m with sends := m.sends + 1 }
      let t : State := { s with rg := { s.rg with cur := some m } }
      live s (t.ringSend (t.messageFrame m))
  | none => .next s

/-- A message for this device enters the receive ring (R542): a repeated send is only acknowledged again; a full ring answers code 1.
The slot before RNRXTAIL stays free. -/
def State.receiveMessage (s : State) (src seq tag : Nat) (data : List Byte) : State :=
  if Tbl.look 0 s.rg.seen src = seq + 1 then s.ringSend (.ack src seq 0)
  else
    let h := s.rd .ring F.RNRXHEAD_head
    if (h + 1) % 256 = s.rd .ring F.RNRXTAIL_tail then s.ringSend (.ack src seq 1)
    else
      let base := s.rd .ring F.RNRXBASELO_base * 2 ^ 18 + s.rd .ring F.RNRXBASEHI_base * 2 ^ 32
      let t := s.engineStore (base + 1024 * h) (leBytes 2 src ++ leBytes 2 data.length ++ leBytes 4 tag ++ leBytes 8 s.time.ns ++
        leBytes 16 0 ++ data)
      let t : State := { t with rg := { t.rg with seen := Tbl.put 0 t.rg.seen src (seq + 1) } }
      ((t.wr .ring F.RNRXHEAD_head (h + 1)).raise .ring 9).ringSend (.ack src seq 0)

/-! ### Sync frames and the delay exchange -/

/-- A sync in acquiring (R467, R471): two syncs one interval apart set the rate. -/
def State.acquireSync (s : State) (c e : Int) : State :=
  match s.time.cand with
  | none => { s with time := { s.time with cand := some c } }
  | some a =>
    if (c - a - 10000000).natAbs ≤ 100000 then
      let t := (s.setRate (roundDiv ((10000000 - (c - a)) * 1000000000 * 256) (c - a))
        (roundDiv ((10000000 - (c - a)) * 1000000000 * 256) (c - a))).tmEnter tmTracking
      let t : State := { t with time := { t.time with expect := some (c + 10000000) } }
      if t.mustStep e then t.stepTime (-e) else t
    else { s with time := { s.time with cand := some c } }

/-- A sync in tracking, locked or holdover (R467, R468, R471). -/
def State.trackSync (s : State) (c e : Int) : State :=
  let win : Int := (s.rd .time F.TMPPSCFG_win * 100 : Nat)
  if (c - s.time.expect.getD c).natAbs ≤ win.natAbs then
    let tau := s.time.missRun + 1
    let t : State := { s with time := { s.time with missRun := 0 } }
    let t := t.wr .time F.TMSTAT_misses 0
    let t := if t.rd .time F.TMSTAT_state = tmHoldover then t.tmEnter tmTracking else t
    t.tmUpdate c e 10000000 tau 100 false
  else (s.incSat .time F.TMSTAT_extras).raise .time 4

/-- RING_SYNC_FRAME (R471, R546): the error is the arrival capture minus source time and correction, which takes in this station's
hop delay; the frame goes on with hop and residence added. A station with no upstream acts as source none. -/
def execRingSyncFrame (source : Nat) (corr : Int) (residence : Nat) (s : State) : Out :=
  let hop : Int := ((s.rd .time F.TMHOP_hop * 65536 + 5) / 10 : Nat)
  let t := s.ringSend (.sync false source (corr + hop + residence))
  if s.rd .time F.TMCFG_src ≠ 1 || s.rnState false ≠ rnMember then live s t
  else
    let c : Int := s.time.ns
    let e := c - (source : Int) - roundDiv (corr + hop) 65536
    let st := t.rd .time F.TMSTAT_state
    if st = tmFree || st = tmAcquiring then
      let t := (t.tmEnter tmAcquiring).wr .time F.TMSTAT_misses 0
      live s (({ t with time := { t.time with missRun := 0 } } : State).acquireSync c e)
    else live s (t.trackSync c e)

/-- DELAY_REQUEST_SEND (R547). -/
def execDelayRequestSend (t1 : Nat) (s : State) : Out :=
  if s.rg.a.lock then live s (({ s with rg := { s.rg with t1 := some t1 } } : State).ringSend .delayRequest) else .next s

/-- DELAY_REQUEST_FRAME (R547): the upstream neighbour answers with t3 − t2. -/
def execDelayRequestFrame (t2 t3 : Nat) (s : State) : Out := live s (s.ringSend (.delayReply (t3 - t2)))

/-- DELAY_REPLY_FRAME (R547): TMHOP is half the round trip less the neighbour's turn, in 0.1 ns. -/
def execDelayReplyFrame (t4 turn : Nat) (s : State) : Out :=
  match s.rg.t1 with
  | some t1 => live s (({ s with rg := { s.rg with t1 := none } } : State).wr .time F.TMHOP_hop ((t4 - t1 - turn) / 2))
  | none => .next s

end Sys2Proof.Machine
end

