-- ==== Sys2Proof/Machine/Session.lean ====
section
/-! DEFINITION. What the stock recorder does on its own account: sessions (R326 to
R329), triggers (R333), the parameter block (R325), timecode (R373), bake (R336), pulls (R338), the extension mailbox (R340, R341),
self-tests (R485, R486) and what follows a drain (R31, R101, R355, R383). -/

namespace Sys2Proof.Machine

/-! ### The extension mailbox (R340) -/

/-- The buffer address of the mailbox. -/
def mailBase : Nat := 0x04000000

/-- An extension runs and takes what is forwarded (R341). -/
def State.extends (s : State) : Bool := s.param 0xB == 1 && s.rcd.extRun

/-- The ring to the extension is full. -/
def State.mailFull (s : State) : Bool :=
  decide (256 ≤ (s.readLE (mailBase + 0x8000) 4 + 2 ^ 32 - s.readLE (mailBase + 0x8004) 4) % 2 ^ 32)

/-- A message to the extension: its kind, and its content from byte 8. -/
def State.mailSend (s : State) (kind : Nat) (bs : List Byte) : State :=
  let h := s.readLE (mailBase + 0x8000) 4
  let t := s.engineStore (mailBase + 64 * (h % 256)) ((leBytes 8 kind ++ bs ++ leBytes 56 0).take 64)
  t.engineStore (mailBase + 0x8000) (leBytes 4 (h + 1))

/-- Kinds 3 and 4 are dropped, and counted in a crumb, when the ring is full (R341). -/
def State.mailNote (s : State) (kind : Nat) (bs : List Byte) : State :=
  if !s.extends then s
  else if s.mailFull then s.crumb 3 1 .event (0x80 + kind) 0 0
  else s.mailSend kind bs

/-! ### Sessions (R326 to R328) -/

/-- Whether the cartridge takes a session or a bake: none, rejected, baked or baking are refused. -/
def State.openStat (s : State) : Stat :=
  if s.rcd.cart = 0 then .noCartridge
  else if s.rcd.cart = 4 then .mediaIncompatible
  else if s.rcd.cart = 3 || s.rcd.bake ≠ 0 then .baked
  else .success

/-- Whether a session may start (R327, R328). -/
def State.startStat (s : State) : Stat :=
  if s.openStat ≠ .success then s.openStat
  else if s.rcd.session = 1 then .sessionBusy
  else if 65535 < s.rcd.sessionNo then .capacityExceeded
  else .success

/-- A session starts with start time `t` (R326). -/
def State.beginSession (s : State) (t : Nat) : State :=
  let n := s.rcd.sessionNo
  let u : State := { s with rcd := { s.rcd with session := 1, curSession := n, sessionNo := n + 1 } }
  ((u.postJournal [jSession false n t]).count 254).vendorEvent 2 |>.mailNote 4 (leBytes 2 n ++ leBytes 1 0 ++ leBytes 8 t)

/-- Whether the session may end (R327). -/
def State.endStat (s : State) : Stat := if s.rcd.session = 1 then .success else .sessionBusy

/-- The session ends at `t` (R326): its end record, a flush, and closing until that flush completes. -/
def State.finishSession (s : State) (t : Nat) : State :=
  let n := s.rcd.curSession
  let u : State := { s with rcd := { s.rcd with session := 2, closing := s.flushId } }
  ((u.postJournal [jSession true n t]).startFlush).vendorEvent 2 |>.mailNote 4 (leBytes 2 n ++ leBytes 1 1 ++ leBytes 8 t)

/-- A session start or end by host command, trigger or extension, at `t`: its status, and the other devices are told. -/
def State.changeSession (s : State) (isEnd : Bool) (t : Nat) (slot : Option Nat) : State × Stat :=
  let x := if isEnd then s.endStat else s.startStat
  if x ≠ .success then (s, x)
  else
    let c : Coord := .session isEnd t (slot.getD 0)
    let u := (s.needMedium.tellGroup c).tellPeer c
    let u := match slot with
      | some k => u.awaitOthers k false
      | none => u
    (if isEnd then u.finishSession t else u.beginSession t, .success)

/-! ### Triggers (R333) -/

/-- The action of input `n`: the extension's override for its next trigger, else the parameter block's. -/
def State.trigAction (s : State) (n : Nat) : Nat :=
  let o := Tbl.look 0 s.rcd.trigOver n
  if o = 0 then s.param (0x10 + 8 * n) else o - 1

/-- The refused trigger's crumb (R333, R605). -/
def State.trigRefused (s : State) (n t : Nat) (x : Stat) : State :=
  let reason := match x with
    | .sessionBusy => 1
    | .capacityExceeded => 2
    | _ => 3
  s.crumb 3 1 .event (16 * reason + n) t (t / 2 ^ 32)

/-- TRIGGER_TAKE (R333): a pending trigger is taken when no sequence of its input runs: its capture time is read, it is
acknowledged, and its action follows or is refused with a crumb. -/
def execTriggerTake (n : Fin 4) (s : State) : Out :=
  if s.rd .power F.PWSTART_level < 2 || !s.flag .time (F.TRGSTAT_pending n) || s.rcd.seqs.any (fun q => q.input == n.val) then .next s
  else
    let t := s.rd .time (F.TRGTHI_time_hi n) * 2 ^ 32 + s.rd .time (F.TRGTLO_time_lo n)
    let a := s.trigAction n
    let dur := s.paramLE (0x14 + 8 * n.val) 4
    let u := s.setFlag .time (F.TRGSTAT_pending n) false
    let u : State := { u with rcd := { u.rcd with trigOver := Tbl.put 0 u.rcd.trigOver n 0 } }
    let isEnd : Bool := a == 2 || (a == 3 && s.rcd.session == 1)
    if a = 0 || 4 < a then live s (u.mailNote 3 (leBytes 1 n.val ++ leBytes 8 t ++ leBytes 1 0))
    else
      let r := u.changeSession isEnd (if isEnd then s.time.ns else t) none
      let v := if r.2 = .success then
          (if a = 4 && dur ≠ 0 then
            { r.1 with rcd := { r.1.rcd with seqs := r.1.rcd.seqs ++ [⟨n.val, t + dur * 1000000, r.1.rcd.curSession⟩] } }
          else r.1)
        else r.1.trigRefused n t r.2
      live s (v.mailNote 3 (leBytes 1 n.val ++ leBytes 8 t ++ leBytes 1 r.2.code))

/-- TIMED_SESSION_END (R333): a timed sequence ends when TIMENS reaches its end; its session ends if it still records. -/
def execTimedSessionEnd (s : State) : Out :=
  match s.rcd.seqs.find? (fun q => decide (q.ends ≤ s.time.ns)) with
  | none => .next s
  | some q =>
    let u : State := { s with rcd := { s.rcd with seqs := s.rcd.seqs.filter (· != q) } }
    live s (if u.rcd.session = 1 && u.rcd.curSession = q.session then (u.changeSession true q.ends none).1.paramsDue
      else u.paramsDue)

/-- AUTO_FLUSH (R324): data has been accepted since the last flush was taken, and flushint is not 0. -/
def execAutoFlush (s : State) : Out :=
  let last := (s.rcd.flushes.map FlushSt.bound).foldl max 0
  if s.param 3 = 0 || !s.writable || s.tb.nextAcc ≤ last + 1 || s.tb.lastData.isNone && s.tb.wData.isEmpty then .next s
  else live s s.startFlush

/-! ### The parameter block (R324, R325) -/

/-- Every field of a parameter block lies in its range (R324). -/
def paramsOk (bs : List Nat) : Bool :=
  let b (i : Nat) : Nat := (bs[i]?).getD 0
  let num := b 0xC + 256 * b 0xD
  let den := max 1 (b 0xE + 256 * b 0xF)
  let r := tcR num den
  bs.length == 64 && b 0 == 1 && b 1 == 0 && decide (b 2 ≤ 1) && decide (b 6 ≤ 1) && decide (b 7 ≤ 3) && decide (b 0xA ≤ 3) &&
  decide (b 0xB ≤ 1) && decide (1 ≤ r) && decide (r ≤ 60) &&
  (List.range 4).all (fun n => decide (b (0x10 + 8 * n) ≤ 4) && decide (b (0x11 + 8 * n) ≤ 3)) &&
  (List.range 16).all (fun i => b (0x30 + i) == 0)

/-- A parameter block from its bytes. -/
def paramTable (bs : List Nat) : Tbl Nat := (bs.zipIdx).foldl (fun t p => Tbl.put (paramDefault p.2) t p.2 p.1) []

/-- A change of the parameter block (R325): refused whole, or written to NOR at once and in effect when no session is recording and
no sequence runs. -/
def State.setParams (s : State) (bs : List Nat) : State × Stat :=
  if !paramsOk bs then (s, .invalidField)
  else
    let t : State := if s.rcd.session = 1 || !s.rcd.seqs.isEmpty then
        { s with rcd := { s.rcd with paramNext := some (paramTable bs) } }
      else s.useParams (paramTable bs)
    (t.recRequest 8, .success)

/-! ### Timecode (R335, R373) -/

/-- The host's timecode set: TCBASE and the epoch are written as Core[0] writes them (R335). -/
def State.setTimecode (s : State) (base epoch : Nat) : State :=
  let t := ((s.wr .time F.TCBASE_base base).wr .time F.TCEPOCHLO_epoch_lo epoch).wr .time F.TCEPOCHHI_epoch_hi (epoch / 2 ^ 32)
  { t with tc := { t.tc with armed := true, req := 1 } }

/-- The timecode feature's 16 bytes (R373): a set that R335 would refuse is refused. -/
def State.timecodeSet (s : State) (bs : List Byte) (slot : Nat) : State × Stat :=
  let base := leNat (bs.take 4)
  let epoch := leNat ((bs.drop 8).take 8)
  if bs.length < 16 || !allZero ((bs.drop 4).take 4) || !tcSetOk base (tcR (s.rd .time F.TCRATE_num) s.tcDen) then (s, .invalidField)
  else
    let c : Coord := .timecode base epoch slot
    ((((s.tellGroup c).tellPeer c).awaitOthers slot false).setTimecode base epoch, .success)

/-- The timecode base and epoch in effect, with TCRATE (R373). -/
def State.timecodeBytes (s : State) : List Byte :=
  leBytes 4 s.tc.base ++ leBytes 4 (s.rd .time F.TCRATE_den * 65536 + s.rd .time F.TCRATE_num) ++ leBytes 8 s.tc.epoch

/-! ### Bake (R336) -/

/-- Whether a bake may start (R336). -/
def State.bakeStat (s : State) : Stat :=
  if s.openStat ≠ .success then s.openStat
  else if s.rcd.session = 1 || !s.rcd.seqs.isEmpty ||
      (List.range 4).any (fun n => s.flag .time (F.TRGCFG_enable n) &&
        (s.trigAction n == 1 || s.trigAction n == 3 || s.trigAction n == 4)) then .sessionBusy
  else .success

/-- A bake begins (R101, R336): the drain of accepted writes. -/
def State.beginBake (s : State) : State :=
  let t := s.closeAll
  { t with rcd := { t.rcd with bake := 1, drains := t.rcd.drains ++ [.bake] } }

/-- The bake command in `slot` (R336, R548, R552). -/
def State.bakeCommand (s : State) (slot : Nat) : State :=
  let x := s.bakeStat
  if x ≠ .success then s.finish slot x
  else
    let c : Coord := .bake slot
    ((((s.needMedium.tellGroup c).tellPeer c).awaitOthers slot false).addOp slot .bake).beginBake

/-- The session command in `slot` (R326, R327): the completion holds the session's number. -/
def State.sessionCommand (s : State) (slot : Nat) (isEnd : Bool) : State :=
  let r := s.changeSession isEnd s.time.ns (some slot)
  let n := r.1.rcd.curSession
  match r.1.cmd slot with
  | some c =>
    if r.2 ≠ .success then r.1.finish slot r.2
    else r.1.finish slot .success n 0 none (if isSasQueue c.queue then (beBytes 4 n).take c.alloc else [])
  | none => r.1

/-! ### The cartridge (R355, R400) -/

/-- No cartridge is on the spindle (R109, R355, R377): nothing of it is kept. -/
def State.forgetMedia (s : State) : State :=
  let t := (s.setFlag .tray F.TBHWCTRL_valid false).setFlag .tray F.TBSTAT_capacity false
  { t with
    tb := { TrayBuilder.empty with nextAcc := s.tb.nextAcc }
    rp := { s.rp with queue := [], backlog := [], trays := [], deepQ := [], engines := [], batch := 0, last := none }
    rcd := { s.rcd with
      cart := 0, serial := 0, pool := [], zones := [], gzones := 0, map := [], dirty := [], zoneDirty := [], nsDirty := []
      ckptWanted := false, ckpt := none, nextCkpt := 0, lastCkpt := none, flushes := [], journal := [], bake := 0
      session := 0, sessionNo := 0, seqs := [], cmDue := false, cmStatus := 0, media := false, diverged := 0, leads := 0
      absent := false } }

/-- The cartridge is ejected (R355): heads released, the spindle stopped, the cartridge in the loader; the hosts are told. -/
def State.ejectNow (s : State) : State :=
  let t := (List.range 4).foldl (fun t h => if t.hState h = hRetracted then t else t.release h false) s
  let t := if t.spState = 0 then t else t.spCommand 3 false
  let t : State := { t.forgetMedia with loader := s.medium, medium := none }
  let t := (t.vendorEvent 0).attention 0x2800
  t.rcd.ops.foldl (fun t o => match o.kind with
    | .eject => t.endOp o .success
    | _ => t) t

/-- The eject command in `slot` (R355): it drains all accepted writes first. -/
def State.ejectCommand (s : State) (slot : Nat) : State :=
  if s.medium.isNone then s.finish slot .noCartridge
  else
    let t := (s.addOp slot .eject).closeAll
    { t with rcd := { t.rcd with drains := t.rcd.drains ++ [.eject] } }

/-- The load command in `slot` (R100, R355, R521): the cartridge in the loader, `ins` one just put there, is clamped and the
spindle starts; the command completes with media ready. A cartridge already loaded completes it at once. -/
def State.loadCommand (s : State) (slot : Nat) (ins : Option Cartridge) : State :=
  let s : State := if ins.isSome then { s with loader := ins } else s
  if s.medium.isSome then s.finish slot .success
  else match s.loader with
    | none => s.finish slot .noCartridge
    | some c =>
      let t : State := { s with medium := some c, loader := none }
      (t.addOp slot .load).needMedium.spCommand 1 (t.rcd.ps = 1)

/-! ### Self-tests (R380, R485, R486) -/

/-- The SHA-384 of every image in NOR matches its header (segment 1). -/
def State.imagesMatch (s : State) : Bool :=
  (List.range 16).all (fun n => s.imgBytes n 0 4 != [0x4A, 0x4F, 0x42, 0x49] || !s.imgRange n ||
    sha384 (s.imgBytes n 320 (s.imgNum n 0xC 4 + s.imgNum n 0x10 4)) == s.imgBytes n 0xA0 48)

/-- The check word of every record that stands matches (segment 2). -/
def State.recordsMatch (s : State) : Bool :=
  (List.range 10).all (fun k => [0, 1].all (fun x => !s.recCrust k x || s.recCheck k x))

/-- A self-test of `code` ends: its first failed segment, `failed` among those that are measured (R485, R486). -/
def State.endTest (s : State) (code failed : Nat) : State :=
  let f := if !s.imagesMatch then 1 else if !s.recordsMatch then 2 else failed
  { s with rcd := { s.rcd with
    selfTest := 0
    tests := ((code, if f = 0 then 0 else 7, f, s.recs.hours) :: s.rcd.tests).take 20 } }

/-- A self-test that waits is ended with a result of the standard's log: 1 by command, 8 by a return to operation (R486). -/
def State.abortTest (s : State) (result : Nat) : State :=
  if s.rcd.selfTest = 0 then s
  else { s with rcd := { s.rcd with
    selfTest := 0, tests := ((s.rcd.selfTest, result, 0, s.recs.hours) :: s.rcd.tests).take 20 } }

/-- The self-test command in `slot` (R380): 1 short, 2 extended at the next entry to PS3, 15 abort. -/
def State.testCommand (s : State) (slot code failed : Nat) : State :=
  if code = 15 then (s.abortTest 1).finish slot .success
  else if code ≠ 1 && code ≠ 2 then s.finish slot .invalidField
  else if s.rcd.selfTest ≠ 0 then s.finish slot .selfTestBusy
  else if code = 1 then (s.endTest 1 failed).finish slot .success
  else ({ s with rcd := { s.rcd with selfTest := 2 } } : State).finish slot .success

/-! ### Drains -/

/-- A drain's condition holds (R31, R101, R135, R355, R383): a change of speed waits for the sealed trays, the rest for every
accepted write; the shutdown's second half waits for its checkpoint and state record. -/
def State.drainReady (s : State) : Drain → Bool
  | .power ps => if ps ≤ 2 then s.tb.sealed.isEmpty && s.tb.stash.isEmpty && s.tb.writing.isNone
    else s.drained && !s.tb.paused.contains 2
  | .shutdown true => s.drained && s.rcd.ckpt.isNone && !s.rcd.ckptWanted && !s.rcd.cmDue
  | _ => s.drained

/-- DRAIN_COMPLETE (R31, R101, R135, R355, R383, R486, R568): the first drain whose condition holds goes on. -/
def execDrainComplete (failed : Nat) (s : State) : Out :=
  match s.rcd.drains.find? s.drainReady with
  | none => .next s
  | some d =>
    let t : State := { s with rcd := { s.rcd with drains := s.rcd.drains.erase d } }
    live s (match d with
      | .power ps =>
        if ps ≤ 2 then t.changePs ps
        else
          let t := t.enterIdle ps
          if t.rcd.selfTest = 2 && ps = 3 then t.endTest 2 failed else t
      | .bake => ({ t with rcd := { t.rcd with bake := 2 } } : State).startCkpt
      | .eject => t.ejectNow
      | .shutdown false =>
        if t.writable then { t.startCkpt with rcd := { t.startCkpt.rcd with drains := t.startCkpt.rcd.drains ++ [.shutdown true] } }
        else { t with hc := { t.hc with shst := 2 } }
      | .shutdown true => { t with hc := { t.hc with shst := 2 } }
      | .activation =>
        let t := if t.writable then t.startCkpt else t
        [3, 4, 5, 2, 7].foldl (fun t k => t.recRequest k) t)

/-- An armed activation begins (R568): no command is taken from now on, and every accepted write is drained. -/
def State.beginActivation (s : State) : State :=
  let t := s.closeAll
  { t with fw := { t.fw with going := true, armed := false }, rcd := { t.rcd with drains := t.rcd.drains ++ [.activation] } }

/-! ### Pulls (R338) -/

/-- ROI_FRAME_READY (R338): a frame whose LBAs are final is cut and joins the result, and the next frame is read; the last one, or
one with an unrecovered codeword, completes the pull with the rectangles before it. -/
def execRoiFrameReady (s : State) : Out :=
  match s.rcd.ops.find? (fun o => (match o.kind with
    | .roi .. => true
    | _ => false) && !s.rp.busy o.id) with
  | none => .next s
  | some o =>
    match o.kind with
    | .roi r nsid next todo done pages failed =>
      let had := done.length / (r.w * r.h)
      (match failed with
      | some k => live s (s.endOp o .unrecovered had next (some ((r.range next).1 + k)) done)
      | none =>
        let out := done ++ r.cut (pageBytes pages)
        let t := s.countRead o pages.length
        if todo ≤ 1 then live s (t.endOp o .success (had + 1) (next + 1) none out)
        else
          let q := r.range (next + 1)
          let t := t.setOp o.id (.roi r nsid (next + 1) (todo - 1) out (t.pagesOf nsid q.1 q.2) none)
          live s (t.postLbas o.id nsid q.1 q.2 false t.readSkip))
    | _ => .next s

/-! ### Forwarded commands (R341) -/

/-- The entry that TAKE delivers for a command (R352, R390): 64 bytes. -/
def HCmd.entry (c : HCmd) (slot : Nat) : List Byte :=
  let w (i : Nat) : Nat := (c.dw[i]?).getD 0
  if isSasQueue c.queue then
    ((List.range 16).flatMap (fun i => leBytes 1 (w i))) ++ beBytes 8 c.lun ++ leBytes 8 c.dbuf ++ leBytes 2 slot ++
      leBytes 1 (c.queue - 65) ++ leBytes 1 c.attr ++ leBytes 4 c.dlen ++ leBytes 8 c.init ++ leBytes 2 c.ident ++ leBytes 14 0
  else
    leBytes 1 c.opc ++ leBytes 1 (w 8) ++ leBytes 2 c.ident ++ leBytes 4 c.nsid ++ leBytes 4 (w 0) ++ leBytes 4 (w 1) ++
      leBytes 8 (w 9) ++ leBytes 8 c.dbuf ++ leBytes 2 slot ++ leBytes 2 0 ++ leBytes 4 c.dlen ++
      (List.range 6).flatMap (fun i => leBytes 4 (w (2 + i)))

/-- A forwarded command in `slot` (R341): refused as an invalid opcode without an extension, busy with a full ring, else sent with
its number as the reply tag. -/
def State.forward (s : State) (slot : Nat) (c : HCmd) : State :=
  if !s.extends then s.finish slot .invalidOpcode
  else if s.mailFull then s.finish slot .busy
  else
    let tag := s.rcd.nextOp % 2 ^ 32
    (s.addOp slot (.forwarded tag)).mailSend 1 ((c.entry slot).take 48 ++ leBytes 4 tag)

/-- A completion record as GIVE takes it, 8 words (R353, R391). -/
def State.recOfWords (s : State) (q : Nat) (w : List Nat) : CRec :=
  let n (i : Nat) : Nat := (w[i]?).getD 0
  let data := if n 6 = 0 then [] else s.readBytes (n 4 + n 5 * 2 ^ 32) (n 6)
  if isSasQueue q then ⟨q, n 0 % 8192, n 1 % 8192, n 2 % 65536, 0, 0, n 3 + n 7 * 2 ^ 32, data⟩
  else ⟨q, n 0 % 8192, n 1 % 65536, 0, n 2, n 3, 0, data⟩

/-- Complete a forwarded command from the first 24 bytes of the extension's record. -/
def State.replyForward (s : State) (tag : Nat) (words : List Nat) : State :=
  match s.rcd.ops.find? (fun o => match o.kind with
    | .forwarded t => t == tag
    | _ => false) with
  | none => s
  | some o => (s.dropOp o.id).giveRec { s.recOfWords o.queue words with slot := o.slot }

/-- EXTENSION_REPLY (R340, R341): the next message from the extension is read: a reply to a forwarded command, a session request, or a
trigger override; a late reply is discarded. -/
def execExtensionReply (s : State) : Out :=
  let h := s.readLE (mailBase + 0x8008) 4
  let q := s.readLE (mailBase + 0x800C) 4
  if h = q || !s.rcd.extRun then .next s
  else
    let a := mailBase + 0x4000 + 64 * (q % 256)
    let t := s.engineStore (mailBase + 0x800C) (leBytes 4 (q + 1))
    let kind := s.readLE a 1
    live s (if kind = 2 then t.replyForward (s.readLE (a + 8) 4) ((List.range 6).map (fun i => s.readLE (a + 12 + 4 * i) 4))
      else if kind = 5 then (t.changeSession (s.readLE (a + 8) 1 == 1) t.time.ns none).1
      else if kind = 6 then { t with rcd := { t.rcd with
        trigOver := Tbl.put 0 t.rcd.trigOver (s.readLE (a + 8) 1 % 4) (s.readLE (a + 9) 1 % 5 + 1) } }
      else t)

/-- FORWARD_TIMEOUT (R341): no reply within 5 s. -/
def execForwardTimeout (tag : Nat) (s : State) : Out :=
  match s.rcd.ops.find? (fun o => match o.kind with
    | .forwarded t => t == tag
    | _ => false) with
  | none => .next s
  | some o => live s (s.endOp o .aborted)

end Sys2Proof.Machine
end

