-- ==== Sys2Proof/Machine/Zones.lean ====
section
/-! DEFINITION. What the commands of both interfaces share: taking an entry (R322, R349, R370, R403, R519), namespaces and attachment
(R358, R359, R395, R396), zones and writes (R360 to R363, R397), reads and pulls (R364, R366, R398) and flushes (R367, R399). -/

namespace Sys2Proof.Machine

/-! ### Taking an entry -/

/-- The nexus of a command, if it is a SAS command. -/
def State.nexusOf (s : State) (c : HCmd) : Option Nexus :=
  s.hc.nexuses.find? (fun n => n.port == c.queue - 65 && n.init == c.init)

/-- The oldest unit attention pending for a SAS command (R403). -/
def State.pendingUa (s : State) (c : HCmd) : Option Nat :=
  if isSasQueue c.queue then (s.nexusOf c).bind (fun n => n.ua.head?) else none

/-- The oldest unit attention of a command's nexus has been reported. -/
def State.dropUa (s : State) (c : HCmd) : State :=
  { s with hc := { s.hc with nexuses := s.hc.nexuses.map (fun n =>
      if n.port == c.queue - 65 && n.init == c.init then { n with ua := n.ua.drop 1 } else n) } }

/-- The commands that a pending unit attention lets run: INQUIRY, REPORT LUNS and REQUEST SENSE (R403). -/
def HCmd.passesUa (c : HCmd) : Bool := !isSasQueue c.queue || c.opc == 0x12 || c.opc == 0xA0 || c.opc == 0x03

/-- The stock core of a queue is held (R31). -/
def State.coreHeld (s : State) (q : Nat) : Bool := s.flag .keeper (F.kc (stockCore q) F.KCCTRL_hold)

/-- The space of a command's data is given back. -/
def State.dropData (s : State) (c : HCmd) : State :=
  if c.dbuf = 0 then s else (List.range ((c.dlen + 4095) / 4096)).foldl (fun (t : State) k => t.releaseUnit (c.dbuf + 4096 * k)) s

/-- The space of the data of the command in `slot` is given back, once. -/
def State.dropSlot (s : State) (slot : Nat) : State :=
  match s.cmd slot with
  | some c => (s.dropData c).setCmd slot (some { c with dbuf := 0 })
  | none => s

/-- A command that is refused gives back the space of its data. -/
def State.refuseCmd (s : State) (slot : Nat) (x : Stat) (info : Option Nat := none) : State :=
  (s.dropSlot slot).finish slot x 0 0 info

/-- The entry at the front of command queue `q` is taken if it is one of those `mine` accepts and, with the stock recorder running,
`ready` holds; then `f` runs it. At level 1 only those `least` accepts are served (R519); a queue whose core is left stopped
answers with internal-error (R370); a pending unit attention answers in the command's place (R403); an activation under way takes none (R568). -/
def State.takeCmd (s : State) (q : Nat) (mine least ready : HCmd → Bool) (f : State → Nat → HCmd → State) : Out :=
  match s.waitingOn q with
  | [] => .next s
  | slot :: rest =>
    match s.cmd slot with
    | none => .next s
    | some c =>
      let level := s.rd .power F.PWSTART_level
      let dead := (s.core (stockCore q)).dead
      if !mine c || s.fw.going || level = 0 || (2 ≤ level && !dead && (s.coreHeld q || !ready c)) then .next s
      else
        let t := (s.setWaiting q rest).setCmd slot (some { c with stage := .taken })
        live s (if level = 1 then (if least c then f t slot c else t.refuseCmd slot .internalError)
          else if dead then t.refuseCmd slot .internalError
          else match (if c.passesUa then none else t.pendingUa c) with
            | some a => (t.dropUa c).refuseCmd slot (.unitAttention a)
            | none => f t slot c)

/-- Always. -/
def anyCmd : HCmd → Bool := fun _ => true

/-- Never. -/
def noCmd : HCmd → Bool := fun _ => false

/-- The data a host sent with a command. -/
def State.cmdData (s : State) (c : HCmd) : List Byte := if c.dbuf = 0 then [] else s.readBytes c.dbuf c.dlen

/-- Bytes as numbers. -/
def byteNums (bs : List Byte) : List Nat := bs.map BitVec.toNat

/-- The result of a change is completed with its status. -/
def State.finishWith (r : State × Stat) (slot : Nat) : State := r.1.finish slot r.2

/-! ### Namespaces -/

/-- The pool index of a LUN field with peripheral device addressing (R396). -/
def lunIndex (lun : Nat) : Option Nat := if lun % 2 ^ 48 = 0 && lun / 2 ^ 48 < 32 then some (lun / 2 ^ 48) else none

/-- The pool index a command names: NSID n + 1 (R358) or LUN n (R396). -/
def HCmd.poolIndex (c : HCmd) : Option Nat :=
  if isSasQueue c.queue then lunIndex c.lun else if 1 ≤ c.nsid && c.nsid ≤ 32 then some (c.nsid - 1) else none

/-- The attachment bit of a queue's interface for writing; the next bit is its read-only attachment (R395). -/
def attBit (q : Nat) : Nat := if isSasQueue q then 2 else 0

/-- A namespace is attached to a queue's interface. -/
def State.attached (s : State) (q i : Nat) : Bool :=
  bitOf (s.pool i).att (attBit q) || bitOf (s.pool i).att (attBit q + 1)

/-- A namespace is attached read-only to a queue's interface (R359, R552). -/
def State.attachedRo (s : State) (q i : Nat) : Bool := !bitOf (s.pool i).att (attBit q) || s.secondary

/-- The first row of R362 and what stands before it: the cartridge, and the attachment. -/
def State.mediaStat (s : State) (q i : Nat) : Stat :=
  if s.rcd.cart = 0 || s.rd .power F.PWSTART_level = 2 then .noCartridge
  else if s.rcd.cart = 4 then .mediaIncompatible
  else if !s.attached q i then .notAttached
  else .success

/-- A cartridge on the spindle is not ready yet (R522): commands that need the medium wait. They do not wait where the loop engine is
off or every head is in fault (R518), or where the cartridge counts as absent (R521). -/
def State.mediaPending (s : State) : Bool :=
  s.medium.isSome && !s.rcd.media && s.rcd.cart != 4 && !s.rcd.absent && s.flag .engine F.EBCTRL_enable &&
  (List.range 4).any (fun h => s.hState h != hFault)

/-- Every zone of a namespace is Read Only. -/
def State.allReadOnly (s : State) (i : Nat) : Bool :=
  (List.range (s.pool i).zones).all (fun j => (s.zone i j).st == .readOnly)

/-- Namespaces attached have changed: the hosts are told (R379, R403). -/
def State.nsChanged (s : State) : State :=
  let t := s.attention 0x3F0E
  if bitOf (Tbl.look 0 t.hc.feats 0x0B) 8 then t.asyncEvent 2 0 4 else t

/-- The attachments are kept with the media serial (R359). -/
def State.saveAttachments (s : State) : State :=
  ({ s with recs := { s.recs with
      attSerial := s.rcd.serial
      atts := (List.range 32).foldl (fun t i => Tbl.put 0 t i (s.pool i).att) [] } } : State).recRequest 9

/-- The ROI setups that `p` accepts (port, initiator, pool index) end (R398). -/
def State.dropSetups (s : State) (p : Nat → Nat → Nat → Bool) : State :=
  { s with hc := { s.hc with setups := s.hc.setups.filter (fun x => !p x.1 x.2.1 x.2.2.1) } }

/-- Zones reserved so far on the cartridge (R358). -/
def zonesOnCartridge : Nat := 4000

/-- The lowest pool index never used on the cartridge. -/
def State.freePool (s : State) : Option Nat := (List.range 32).find? (fun i => (s.pool i).zones == 0)

/-- Namespace management is refused (R358) without a cartridge, on a rejected one or on a baked one. -/
def State.manageStat (s : State) : Stat := s.openStat

/-- Whether a namespace of `n` zones can be created (R358). -/
def State.createStat (s : State) (n : Nat) : Stat :=
  if s.manageStat ≠ .success then s.manageStat
  else if zonesOnCartridge < s.rcd.gzones + n then .insufficientCapacity
  else if s.freePool.isNone then .identifierUnavailable
  else .success

/-- A namespace of `n` zones is placed at pool index `i` (R358): it takes the next global zones; the next checkpoint records it. -/
def State.addNamespace (s : State) (i n : Nat) : State :=
  let g := s.rcd.gzones
  let t := s.setPool i ⟨n, true, 0⟩
  let t : State := { t with rcd := { t.rcd with gzones := g + n, nsDirty := t.rcd.nsDirty ++ [(i, 1, n)] } }
  (List.range n).foldl (fun t j => t.setZone i j ⟨.empty, 0, g + j, 0⟩) t

/-- Create in `slot` (R358): it completes when the checkpoint holding its record is valid. -/
def State.createCommand (s : State) (slot n : Nat) : State :=
  match s.createStat n, s.freePool with
  | .success, some i =>
    let result := match s.cmd slot with
      | some c => if isSasQueue c.queue then i else i + 1
      | none => 0
    let t := (s.needMedium.addOp slot (.ckpt s.rcd.nextCkpt result true)).addNamespace i n
    ((t.tellPeer (.ns true i n)).nsChanged).startCkpt
  | x, _ => s.finish slot x

/-- A namespace is deleted (R358): detached from both interfaces, its zones not returned, its pool index never used again. -/
def State.deleteNamespace (s : State) (i : Nat) : State :=
  let e := s.pool i
  let t := s.setPool i { e with live := false, att := 0 }
  let t : State := { t with rcd := { t.rcd with nsDirty := t.rcd.nsDirty ++ [(i, 2, e.zones)] } }
  let t := (List.range 64).foldl (fun t k => if (t.zent k).nsid = i then t.closeEntry k else t) t
  t.dropSetups (fun _ _ j => j == i)

/-- Delete in `slot` (R358): it completes when its record's checkpoint is valid. -/
def State.deleteCommand (s : State) (slot i : Nat) : State :=
  if s.manageStat ≠ .success then s.finish slot s.manageStat
  else if !(s.pool i).live then s.finish slot .invalidNamespace
  else
    let t := (s.needMedium.addOp slot (.ckpt s.rcd.nextCkpt 0 false)).deleteNamespace i
    ((t.tellPeer (.ns false i 0)).saveAttachments.nsChanged).startCkpt

/-- Attach in `slot` (R359): on the interface of the command, read-only where it must be or, on SAS, where it is asked for. -/
def State.attachCommand (s : State) (slot q i : Nat) (ro : Bool) : State :=
  let other := if isSasQueue q then 0 else 2
  let e := s.pool i
  let fixed := s.allReadOnly i || s.rcd.cart == 3
  if s.rcd.cart = 0 then s.finish slot .noCartridge
  else if s.rcd.cart = 4 then s.finish slot .mediaIncompatible
  else if !e.live then s.finish slot .invalidNamespace
  else if s.attached q i then s.finish slot .nsAttached
  else if bitOf e.att other && !s.allReadOnly i then s.finish slot .alreadyAttached
  else
    let t := s.setPool i { e with att := e.att + 2 ^ (attBit q + b2n (fixed || ro)) }
    (t.saveAttachments.nsChanged).finish slot .success

/-- Detach in `slot` (R359): the interface's attachment and the LUN's setups end. -/
def State.detachCommand (s : State) (slot q i : Nat) : State :=
  let e := s.pool i
  if s.rcd.cart = 0 then s.finish slot .noCartridge
  else if !s.attached q i then s.finish slot .nsNotAttached
  else
    let keep := e.att - (if bitOf e.att (attBit q) then 2 ^ attBit q else 0) -
      (if bitOf e.att (attBit q + 1) then 2 ^ (attBit q + 1) else 0)
    let t := s.setPool i { e with att := keep }
    let t := if isSasQueue q then t.dropSetups (fun _ _ j => j == i) else t
    (t.saveAttachments.nsChanged).finish slot .success

/-! ### Zones (R360 to R363) -/

/-- The zones that hold a zone table entry: open and closed alike (R360). -/
def State.openZones (s : State) : Nat := ((List.range 64).filter (fun e => (s.zent e).valid)).length

/-- A free entry of the zone table. -/
def State.freeEntry (s : State) : Option Nat := (List.range 64).find? (fun e => !(s.zent e).valid)

/-- A zone takes part no more: Read Only, or written to its end (R361). -/
def ZoneSt.full (z : ZoneSt) : Bool := z.st == .readOnly || decide (262144 ≤ z.wp)

/-- An empty zone takes a zone table entry, if one is free. -/
def State.withEntry (s : State) (i j : Nat) : Option (State × Nat) :=
  let z := s.zone i j
  if z.st = .empty then s.freeEntry.map (fun e => (s.setZent e ⟨true, i, j, z.gzone, z.wp⟩, e)) else some (s, z.entry)

/-- Open a zone (R356, R360). -/
def State.openZone (s : State) (i j : Nat) : State × Stat :=
  let z := s.zone i j
  if z.full then (s, .fullZone)
  else match s.withEntry i j with
    | none => (s, .openLimit)
    | some (t, e) => (t.setZone i j { z with st := .explicitOpen, entry := e }, .success)

/-- Close a zone (R356, R360): it keeps its entry. An empty one is not open on NVMe, and is left as it is on SAS. -/
def State.closeZone (s : State) (i j : Nat) (sas : Bool) : State × Stat :=
  let z := s.zone i j
  if z.full then (s, if sas then .success else .fullZone)
  else if z.st = .empty then (s, if sas then .success else .resetRefused)
  else (s.setZone i j { z with st := .closed }, .success)

/-- Finish a zone (R361): it enters Read Only. -/
def State.finishZone (s : State) (i j : Nat) : State × Stat :=
  let z := s.zone i j
  if z.st = .readOnly then (s, .fullZone)
  else if z.st ≠ .empty && (s.zent z.entry).valid && (s.zent z.entry).nsid = i && (s.zent z.entry).nszone = j then
    (s.closeEntry z.entry, .success)
  else (s.zoneReadOnly i j, .success)

/-- Every zone of a namespace whose state `p` accepts goes through `f`; the first status other than success stops it. -/
def State.eachZone (s : State) (i : Nat) (p : ZoneSt → Bool) (f : State → Nat → State × Stat) : State × Stat :=
  (List.range (s.pool i).zones).foldl (fun r j => if r.2 = .success && p (s.zone i j) then f r.1 j else r) (s, .success)

/-- The zone actions both interfaces have. -/
inductive ZAction where
  | close
  | finish
  | open
  | reset
deriving DecidableEq, Repr

/-- A zone action in `slot` (R356, R363, R394, R396) on the zone at `lba` or on all. -/
def State.zoneCommand (s : State) (slot q i : Nat) (a : ZAction) (all : Bool) (lba : Nat) : State :=
  let j := lba / 262144
  let x := s.mediaStat q i
  if x ≠ .success then s.finish slot x
  else if !all && (s.pool i).zones * 262144 ≤ lba then s.finish slot .lbaRange
  else if !all && lba % 262144 ≠ 0 then s.finish slot .invalidField
  else if a = .reset then
    s.finish slot (if !all && (s.zone i j).full then .fullZone else .resetRefused)
  else if s.rcd.cart = 3 || s.rcd.bake ≠ 0 then s.finish slot .baked
  else if s.attachedRo q i then s.finish slot .writeProtected
  else
    let r : State × Stat := match a, all with
      | .open, false => s.openZone i j
      | .open, true => s.eachZone i (fun (z : ZoneSt) => z.st == .closed && !z.full) (fun t k => t.openZone i k)
      | .close, false => s.closeZone i j (isSasQueue q)
      | .close, true => s.eachZone i (fun (z : ZoneSt) => (z.st == .implicitOpen || z.st == .explicitOpen) && !z.full)
          (fun t k => t.closeZone i k (isSasQueue q))
      | .finish, false => s.finishZone i j
      | .finish, true => s.eachZone i (fun (z : ZoneSt) => z.st != .empty && !z.full) (fun t k => t.finishZone i k)
      | .reset, _ => (s, .resetRefused)
    r.1.finish slot r.2

/-- No data descriptor waits for a zone of the namespace: a finish waits for those accepted before it. -/
def State.zoneIdle (s : State) (i : Nat) : Bool := s.tb.dataQ.all (fun d => (s.zent d.entry).nsid != i)

/-- The number that stands for a zone's state in a report (R360, R396): both interfaces use the codes of their standards. -/
def ZoneSt.code (z : ZoneSt) : Nat :=
  if z.full then 0xD
  else match z.st with
    | .empty => 1
    | .implicitOpen => 2
    | .explicitOpen => 3
    | .closed => 4
    | .readOnly => 0xD

/-- A zone matches a reporting option (R356, R394): 0 all, 1 empty, 2 implicitly open, 3 explicitly open, 4 closed, 5 full, 6 Read
Only, 7 offline. -/
def ZoneSt.matches (z : ZoneSt) (opt : Nat) : Bool :=
  opt == 0 || (opt == 6 && z.code == 0xD) || (1 ≤ opt && opt ≤ 4 && z.code == opt)

/-- The zones of a namespace from LBA `lba` on that match an option. -/
def State.zonesFrom (s : State) (i lba opt : Nat) : List Nat :=
  (List.range (s.pool i).zones).filter (fun j => decide (lba < (j + 1) * 262144) && (s.zone i j).matches opt)

/-- A zone descriptor, 64 bytes, in the byte order of the interface: type 2, state, length, start and write pointer. -/
def State.zoneDesc (s : State) (sas : Bool) (i j : Nat) : List Byte :=
  let z := s.zone i j
  let n (v : Nat) : List Byte := if sas then beBytes 8 v else leBytes 8 v
  leBytes 1 2 ++ leBytes 1 (16 * z.code) ++ leBytes 6 0 ++ n 262144 ++ n (j * 262144) ++ n (j * 262144 + z.wp) ++ leBytes 32 0

/-- A zone report in at most `room` bytes (R356, R394): with `part` the header counts the zones reported, else all that match. -/
def State.zoneReport (s : State) (sas : Bool) (i lba opt : Nat) (part : Bool) (room : Nat) : List Byte :=
  let zs := s.zonesFrom i lba opt
  let fit := zs.take ((room - 64) / 64)
  let n := if part then fit.length else zs.length
  let head := if sas then beBytes 4 (64 * n) ++ leBytes 4 0 ++ beBytes 8 ((s.pool i).zones * 262144 - 1) ++ leBytes 48 0
    else leBytes 8 n ++ leBytes 56 0
  (head ++ fit.flatMap (s.zoneDesc sas i)).take room

/-! ### Writes (R362, R397) -/

/-- The first row of R362 that applies to a write of `n` LBAs from `lba` on, for an append at its zone's write pointer. -/
def State.writeStat (s : State) (q i lba n : Nat) (append : Bool) : Stat :=
  let j := lba / 262144
  let z := s.zone i j
  let off := if append then z.wp else lba % 262144
  if s.mediaStat q i ≠ .success then s.mediaStat q i
  else if (s.pool i).zones * 262144 ≤ lba then .lbaRange
  else if s.rcd.cart = 3 || s.rcd.bake ≠ 0 then .baked
  else if s.attachedRo q i then .writeProtected
  else if (s.param 2 = 1 && s.rcd.session = 0) || !s.recordsNow then .notRecording
  else if z.full then .fullZone
  else if !append && off ≠ z.wp then .outOfOrder
  else if append && lba % 262144 ≠ 0 then .invalidField
  else if 262144 < off + n then .zoneBoundary
  else if z.st = .empty && s.freeEntry.isNone then .openLimit
  else if s.flag .tray F.TBSTAT_capacity then .capacityExceeded
  else .success

/-- The words of a kind 1 mirror descriptor (R550). -/
def mirrorWords (addr n i lba : Nat) : List Nat :=
  [1, 0, addr % 2 ^ 32, addr / 2 ^ 32, n, i, lba, 0, 0, 0, 0, 0, 0, 0, 0, 0]

/-- An accepted write is placed (R107, R360, R365, R552): its zone opens if it must and its write pointer moves; a data descriptor is
posted, and a pair's primary mirrors it. -/
def State.placeWrite (s : State) (slot dbuf i lba n : Nat) (append fua : Bool) : State :=
  let j := lba / 262144
  match s.withEntry i j with
  | none => s
  | some (t, e) =>
    let z := t.zone i j
    let first := j * 262144 + z.wp
    let id := t.rcd.nextOp
    let t := t.addOp slot (.write i first n append fua)
    let st : ZState := if z.st = .explicitOpen then .explicitOpen else .implicitOpen
    let t := t.setZone i j { z with st := st, wp := z.wp + n, entry := e }
    let t : State := { t with tb := { t.tb with
      dataQ := t.tb.dataQ ++ [⟨false, e, n, first, dbuf, 0, 0, 6, false, [], id, 0⟩] } }
    if t.mirrors then t.mirror (mirrorWords dbuf n i first) none else t

/-- A write is counted as refused at a recorded LBA, out of order or at a full zone (R451). -/
def countsRefused (x : Stat) : Bool := x == .outOfOrder || x == .fullZone

/-- A write command in `slot` (R362, R365, R397). -/
def State.writeCommand (s : State) (slot : Nat) (c : HCmd) (i lba n : Nat) (append fua : Bool) : State :=
  let x := if c.dlen < 4096 * n then Stat.invalidField else s.writeStat c.queue i lba n append
  if x = .success then
    (if n = 0 then s.refuseCmd slot .success
    else s.needMedium.placeWrite slot c.dbuf i lba n append fua)
  else
    let t := if countsRefused x then s.count (260 + 8 * c.guest) else s
    let j := lba / 262144
    t.refuseCmd slot x (if countsRefused x then some (j * 262144 + (s.zone i j).wp) else none)

/-- The tray builder's data queue has room for one more descriptor (R112). -/
def State.dataRoom (s : State) : Bool := decide (s.tb.dataQ.length < 64)

/-! ### Reads (R364, R366, R397) -/

/-- A write not yet completed overlaps LBAs of a namespace (R366). -/
def State.writesOver (s : State) (i lba n : Nat) : Bool :=
  let meets (a k : Nat) : Bool := decide (a < lba + n) && decide (lba < a + k)
  s.rcd.ops.any (fun o => match o.kind with
    | .write m a k _ _ => m == i && meets a k
    | .fua _ m a k _ => m == i && meets a k
    | _ => false)

/-- A read or verify in `slot` (R156, R356, R364, R397). -/
def State.readCommand (s : State) (slot q i lba n : Nat) (verify quick : Bool) : State :=
  let x := s.mediaStat q i
  if x ≠ .success then s.finish slot x
  else if (s.pool i).zones * 262144 < lba + n then s.finish slot .lbaRange
  else
    let t := s.needMedium
    let id := t.rcd.nextOp
    let t := t.addOp slot (.read i lba (t.pagesOf i lba n) verify none)
    (t.postLbas id i lba n verify (if quick then 3 else t.readSkip)).opReadStep id

/-! ### Pulls (R337, R357, R398) -/

/-- The parameters lie in the ranges of R337. -/
def Roi.valid (r : Roi) : Bool :=
  decide (1 ≤ r.fstride) && decide (r.fstride ≤ 2 ^ 24) && decide (1 ≤ r.step) && decide (r.step ≤ 65535) && decide (1 ≤ r.count) &&
  decide (r.count ≤ 65535) && decide (1 ≤ r.lbytes) && decide (r.lbytes ≤ 2 ^ 20) && decide (1 ≤ r.w) && decide (r.w ≤ 65536) &&
  decide (r.x + r.w ≤ r.lbytes) && decide (1 ≤ r.h) && decide ((r.y + r.h) * r.lbytes ≤ r.fstride * 4096)

/-- Every LBA of a range has been written. -/
def State.rangeWritten (s : State) (i lba n : Nat) : Bool :=
  let last := lba + n - 1
  (List.range (last / 262144 - lba / 262144 + 1)).all (fun k =>
    let j := lba / 262144 + k
    decide (min last (j * 262144 + 262143) < j * 262144 + (s.zone i j).wp))

/-- A pull in `slot` from rectangle `start` on, in at most `room` bytes (R337, R338, R357, R398): as many whole rectangles as fit. -/
def State.pullCommand (s : State) (slot q i : Nat) (r : Roi) (start room : Nat) : State :=
  let x := s.mediaStat q i
  let size := r.w * r.h
  if x ≠ .success then s.finish slot x
  else if !r.valid || r.count ≤ start || 16777216 < size then s.finish slot .invalidField
  else if !(List.range r.count).all (fun k => s.rangeWritten i (r.range k).1 (r.range k).2) then s.finish slot .invalidField
  else
    let n := min (r.count - start) (min room 16777216 / size)
    if n = 0 then s.finish slot .success 0 start
    else
      let t := s.needMedium
      let id := t.rcd.nextOp
      let g := r.range start
      let t := t.addOp slot (.roi r i start n [] (t.pagesOf i g.1 g.2) none)
      t.postLbas id i g.1 g.2 false t.readSkip

/-! ### Flush (R367, R368, R399) -/

/-- The bit of `r18` of a queue's interface. -/
def r18Bit (q : Nat) : Nat := if isSasQueue q then 1 else 0

/-- A flush in `slot` (R116, R367, R368, R399, R548, R552): it waits for the group and the peer; with `immed` it completes when taken.
Without a cartridge that takes writes there is nothing to flush. -/
def State.flushCommand (s : State) (slot : Nat) (c : HCmd) (immed : Bool) : State :=
  if !s.writable then
    let bad := bitOf s.rcd.r18 (r18Bit c.queue)
    let t : State := { s with rcd := { s.rcd with r18 := if bad then s.rcd.r18 - 2 ^ r18Bit c.queue else s.rcd.r18 } }
    (t.count (261 + 8 * c.guest)).finish slot (if bad then .internalError else .success)
  else if immed then (s.needMedium.startFlush.count (261 + 8 * c.guest)).finish slot .success
  else
    let t := (s.needMedium.tellGroup (.flush slot)).awaitOthers slot true
    let t := if t.mirrors then t.mirror [2] (some (.flush slot)) else t
    (t.addOp slot (.flush t.flushId)).startFlush

end Sys2Proof.Machine
end

