-- ==== Sys2Proof/Machine/Nvme.lean ====
section
/-! DEFINITION. The PCIe function and the NVMe controller (R343 to R354, R381 to R386, R508): links and resets, enabling and shutdown,
doorbells, fetching, write data and completions. -/

namespace Sys2Proof.Machine

/-! ### Controller status -/

/-- CSTS.RDY (R345, R346). -/
def State.nvRdy (s : State) : Bool := s.hc.en && s.hc.css == 6 && s.flag .nvme F.NVCTRL_ready

/-- CSTS.CFS (R345, R346). -/
def State.nvCfs (s : State) : Bool := s.flag .nvme F.NVCTRL_cfs || (s.hc.en && s.hc.css != 6) || (s.core 0).dead

/-- A violation of row `row` of R384 on a queue: its crumb, the count and the event. -/
def State.nvViol (s : State) (row q v : Nat) : State :=
  ((s.crumb 2 hwReq .nvme row q v).incSat .nvme F.NVVIOL_count).raise .nvme 3

/-- The submission queue, if it exists. -/
def State.sq (s : State) (q : Nat) : Option Sq := Tbl.look none s.hc.sqs q

/-- Set a submission queue. -/
def State.setSq (s : State) (q : Nat) (x : Option Sq) : State := { s with hc := { s.hc with sqs := Tbl.put none s.hc.sqs q x } }

/-- The completion queue, if it exists. -/
def State.cq (s : State) (q : Nat) : Option Cq := Tbl.look none s.hc.cqs q

/-- Set a completion queue. -/
def State.setCq (s : State) (q : Nat) (x : Option Cq) : State := { s with hc := { s.hc with cqs := Tbl.put none s.hc.cqs q x } }

/-! ### Removing and discarding commands -/

/-- Free an outstanding slot with its data, of whatever stage before taking. -/
def State.removeCmd (s : State) (slot : Nat) : State :=
  match s.cmd slot with
  | none => s
  | some c => ((s.dropData c).setCmd slot none).setWaiting c.queue ((s.waitingOn c.queue).filter (· != slot))

/-- A command is removed if it is not taken, and marked discarded if it is (R382, R404); a record given for it is dropped. -/
def State.discardCmd (s : State) (slot : Nat) : State :=
  match s.cmd slot with
  | none => s
  | some c =>
    let t : State := (s.setGate slot none)
    match c.stage with
    | .taken => t.setCmd slot (some { c with discarded := true })
    | .given =>
      let t : State := { t with hc := { t.hc with recs := t.hc.recs.filter (fun r => r.slot != slot) } }
      t.setCmd slot none
    | _ => t.removeCmd slot

/-- The slots of the commands that `p` accepts. -/
def State.slotsWhere (s : State) (p : HCmd → Bool) : List Nat :=
  (s.hc.slots.filter (fun e => match e.2 with
    | some c => p c
    | none => false)).map Prod.fst

/-- Steps 1 to 4 of R382 (R383): every NVMe command is removed or discarded, the queues are deleted, CC and CSTS clear, and the
features return to their defaults. Asynchronous event requests end with their queue. -/
def State.nvStop (s : State) : State :=
  let was := s.hc.en
  let t := (s.slotsWhere (fun c => decide (c.queue ≤ 64))).foldl State.discardCmd s
  let t := s.hc.aers.foldl (fun (t : State) k => t.setCmd k none) t
  let t : State := { t with hc := { t.hc with
    en := false, css := 0, shst := 0, sqs := [], cqs := [], turn := 0, left := 0, limited := false, feats := [], aers := []
    heldEvents := [] } }
  let t := t.setFlag .nvme F.NVCTRL_cfs false
  let t := if was then t.raise .nvme 1 else t
  if t.fw.armed then t.beginActivation else t

/-- A reset of R382 begins: it is counted, PCIE_RESET is raised and steps 1 to 4 follow. -/
def State.nvReset (s : State) : State := ((s.incSat .pcie F.PCRESET_count).raise .pcie 3).nvStop

/-- The PCIe link goes down. -/
def State.pcieDown (s : State) : State :=
  if s.flag .pcie F.PCLINK_up then
    (((s.setFlag .pcie F.PCLINK_up false).wr .pcie F.PCLINK_width 0).wr .pcie F.PCLINK_speed 0).raise .pcie 2
  else s

/-- PCIE_LINKUP (R343, R508): the link trains once PERST_N is high. -/
def execPcieLinkup (speed : Fin 6) (width : Fin 9) (s : State) : Out :=
  if !s.hc.perst || s.flag .pcie F.PCLINK_up then .next s
  else live s ((((s.setFlag .pcie F.PCLINK_up true).wr .pcie F.PCLINK_speed speed).wr .pcie F.PCLINK_width width).raise .pcie 1)

/-- PCIE_LINKDOWN (R382). -/
def execPcieLinkdown (s : State) : Out := if s.flag .pcie F.PCLINK_up then live s s.pcieDown.nvReset else .next s

/-- FUNCTION_LEVEL_RESET (R382). -/
def execFunctionLevelReset (s : State) : Out := live s s.nvReset

/-- HOT_RESET (R382). -/
def execHotReset (s : State) : Out := if s.flag .pcie F.PCLINK_up then live s s.nvReset else .next s

/-- LINK_DISABLE (R382): the link goes down. -/
def execLinkDisable (s : State) : Out := live s s.pcieDown.nvReset

/-- PERST_DEASSERT (R508): the link may train from now on. -/
def execPerstDeassert (s : State) : Out := .next { s with hc := { s.hc with perst := true } }

/-- CONFIGURATION_REQUEST (R504, R508, R512): answered with retry status until configuration ready, else served. -/
def execConfigurationRequest (s : State) : Out :=
  .next { s with hostOut := s.hostOut ++ [if s.pw.clocked && s.hc.confReady then .config else .retryStatus] }

/-! ### Enabling and shutdown -/

/-- CC_ENABLE (R345, R346): CC.EN becomes 1 with the CSS written; the admin queues exist, of their sizes. -/
def execCcEnable (css : Fin 8) (asq acq : Fin 4096) (s : State) : Out :=
  if s.hc.en then .next s
  else
    let t : State := { s with hc := { s.hc with en := true, css := css } }
    let t := (t.setSq 0 (some ⟨asq + 1, 0, 0, 0⟩)).setCq 0 (some ⟨acq + 1, 0, true, 0, 0, true⟩)
    live s (t.raise .nvme 1)

/-- CC_DISABLE (R383): CC.EN from 1 to 0. -/
def execCcDisable (s : State) : Out := if s.hc.en then live s s.nvStop else .next s

/-- NORMAL_SHUTDOWN (R383): fetching stops and every accepted write is drained. -/
def execNormalShutdown (s : State) : Out :=
  if !s.hc.en then .next s
  else
    let t := s.closeAll
    let t : State := { t with
      hc := { t.hc with shst := 1 }
      rcd := { t.rcd with drains := t.rcd.drains ++ [.shutdown false] } }
    live s (t.raise .nvme 2)

/-- ABRUPT_SHUTDOWN (R383): CSTS.SHST is set; the device goes on draining. -/
def execAbruptShutdown (s : State) : Out :=
  if !s.hc.en then .next s
  else
    let t := s.closeAll
    live s (({ t with hc := { t.hc with shst := 2 } } : State).raise .nvme 2)

/-- NVCTRL_READY (R346): the fields of the word written are stored, ready among them. -/
def execNvctrlReady (r : Requester) (v : Word) (s : State) : Out :=
  live s (s.guardReg r .nvme 0x40 v.toNat (fun t => t.storeReg .nvme 0x40 v.toNat))

/-- A write of NVCTRL (R346). -/
def State.nvCtrl (t : State) (v : Nat) : State :=
    (t.setFlag .nvme F.NVCTRL_cfs (t.flag .nvme F.NVCTRL_cfs || F.NVCTRL_cfs.of v == 1)).wr .nvme F.NVCTRL_ready
      (F.NVCTRL_ready.of v)

/-- NVCTRL_CFS (R346): a 1 written to cfs sets CSTS.CFS. -/
def execNvctrlCfs (r : Requester) (v : Word) (s : State) : Out :=
  live s (s.guardReg r .nvme 0x40 v.toNat (fun t => t.nvCtrl v.toNat))

/-! ### Doorbells -/

/-- SQ_TAIL_DOORBELL (R344, R384): accepted, or answered as a violation. -/
def execSqTailDoorbell (q : Nat) (v : Word) (s : State) : Out :=
  if 64 < q then .next s
  else if !s.hc.en then live s (s.nvViol 3 q v.toNat)
  else match s.sq q with
    | none => live s ((s.nvViol 1 q v.toNat).asyncEvent 0 0 1)
    | some x =>
      if x.size ≤ v.toNat then live s ((s.nvViol 2 q v.toNat).asyncEvent 0 1 1)
      else live s (s.setSq q (some { x with tail := v.toNat }))

/-- CQ_HEAD_DOORBELL (R344, R384): a head beyond the entries posted is a violation. -/
def execCqHeadDoorbell (q : Nat) (v : Word) (s : State) : Out :=
  if 64 < q then .next s
  else if !s.hc.en then live s (s.nvViol 3 q v.toNat)
  else match s.cq q with
    | none => live s ((s.nvViol 1 q v.toNat).asyncEvent 0 0 1)
    | some x =>
      if x.size ≤ v.toNat || (x.tail + x.size - x.head) % x.size < (v.toNat + x.size - x.head) % x.size then
        live s ((s.nvViol 2 q v.toNat).asyncEvent 0 1 1)
      else live s (s.setCq q (some { x with head := v.toNat }))

/-! ### Fetching (R350, R351) -/

/-- A parked write holds its queue (R351). -/
def State.parkedOn (s : State) (q : Nat) : Bool := !(s.slotsWhere (fun c => c.queue == q && c.stage == .parked)).isEmpty

/-- Entries wait in host memory on a queue. -/
def State.hasWork (s : State) (q : Nat) : Bool :=
  match s.sq q with
  | some x => x.head != x.tail
  | none => false

/-- The queue the next entry is fetched from (R350): the one whose turn it is while its burst of 2^AB lasts, else the next in turn;
AB 7 sets no limit. -/
def State.nextQueue (s : State) : Option Nat :=
  let ok (q : Nat) : Bool := s.hasWork q && !s.parkedOn q
  if s.hc.left ≠ 0 && ok s.hc.turn then some s.hc.turn
  else ((List.range 65).map (fun k => (s.hc.turn + 1 + k) % 65)).find? ok

/-- What is left of a burst after one entry. -/
def State.burstLeft (s : State) (q : Nat) : Nat :=
  let ab := Tbl.look 0 s.hc.feats 1 % 8
  if q = s.hc.turn && s.hc.left ≠ 0 then (if ab = 7 then s.hc.left else s.hc.left - 1) else 2 ^ ab - 1 + b2n (ab == 7)

/-- The 4 KiB units that data of `n` bytes takes. -/
def unitsOf (n : Nat) : Nat := (n + 4095) / 4096

/-- Units reserved for data on its way (R351, R393). -/
def State.reserved (s : State) : Nat :=
  (s.slotsWhere (fun c => c.stage == .moving)).foldl (fun a k => a + unitsOf (((s.cmd k).map (fun c => if isSasQueue c.queue then c.asked else c.dlen)).getD 0)) 0

/-- Units of the burst buffer neither used nor reserved. -/
def State.freeUnits (s : State) : Nat := s.burstSize - s.hc.unitsUsed.length - s.reserved

/-- The admin opcodes supported (R355). -/
def adminOpcodes : List Nat := [0x00, 0x01, 0x02, 0x04, 0x05, 0x06, 0x08, 0x09, 0x0A, 0x0C, 0x0D, 0x10, 0x11, 0x14, 0x15, 0xC0, 0xC4, 0xC8]

/-- The I/O opcodes supported (R356). -/
def ioOpcodes : List Nat := [0x00, 0x01, 0x02, 0x0C, 0x79, 0x7A, 0x7D, 0x82]

/-- An opcode is supported on a queue (R355, R356); 0xD0 to 0xDF are forwarded. -/
def opcodeKnown (q opc : Nat) : Bool :=
  (0xD0 ≤ opc && opc ≤ 0xDF) || (if q = 0 then adminOpcodes else ioOpcodes).contains opc

/-- A command is completed by the controller, or by the core at once, with a status. -/
def State.completeNow (s : State) (slot : Nat) (x : Stat) : State :=
  match s.cmd slot with
  | some c => ((s.setCmd slot (some { c with stage := .taken })).dropSlot slot).giveRec (mkRec c.queue slot x 0 0 none [])
  | none => s

/-- The slot record of a fetched entry (R352). -/
def SqEntry.cmd (e : SqEntry) (q guest : Nat) : HCmd where
  queue := q
  ident := e.cid
  init := 0
  lun := 0
  attr := 0
  opc := e.opc
  nsid := e.nsid
  dw := [e.dw2, e.dw3, e.dw10, e.dw11, e.dw12, e.dw13, e.dw14, e.dw15, e.flags, e.mptr]
  dlen := e.dlen
  dbuf := 0
  pages := (List.range (unitsOf e.dlen)).map (fun i => (e.pages[i]?).getD 0)
  guest := guest
  stage := .queued
  discarded := false
  fail := if e.dmaBad && e.opc % 4 ≠ 1 then some .dataTransfer else none
  asked := 0
  got := 0

/-- An entry whose opcode no row serves is answered by the core that takes it (R355, R356), or with internal-error at level 1
(R519); the others enter their command queue. -/
def State.enqueueKnown (s : State) (slot : Nat) (c : HCmd) : State :=
  if opcodeKnown c.queue c.opc then s.enqueue slot
  else s.completeNow slot (if s.rd .power F.PWSTART_level = 1 then .internalError else .invalidOpcode)

/-- An entry has been fetched into `slot` (R350, R351, R384): a bad data pointer or a failed transfer completes it; data from the host
moves first, or parks the entry while space lacks. -/
def State.fetched (s : State) (slot : Nat) (c : HCmd) (prpBad dmaBad : Bool) : State :=
  let t := s.setCmd slot (some c)
  if prpBad then (t.nvViol 5 c.queue c.ident).completeNow slot .prpOffset
  else if c.opc % 4 = 1 && c.dlen ≠ 0 then
    (if dmaBad then (t.nvViol 6 c.queue c.ident).completeNow slot .dataTransfer
    else t.setCmd slot (some { c with stage := if unitsOf c.dlen ≤ s.freeUnits then .moving else .parked }))
  else
    let t := if dmaBad then t.nvViol 6 c.queue c.ident else t
    t.enqueueKnown slot c

/-- COMMAND_FETCH (R350, R384): the queue whose turn it is gives its next entry, unless 8,192 commands are outstanding. A CID in use is a
violation, and both commands run. -/
def execCommandFetch (q : Fin 65) (e : SqEntry) (s : State) : Out :=
  if !s.nvRdy || s.hc.shst ≠ 0 || !s.flag .pcie F.PCLINK_up || s.fw.going || s.nextQueue ≠ some q.val then .next s
  else if 8192 ≤ s.allOutstanding then
    (if s.hc.limited then .next s
    else live s (({ s with hc := { s.hc with limited := true } } : State).raise .nvme 5))
  else match s.sq q with
    | none => .next s
    | some x =>
      let again := !(s.slotsWhere (fun c => c.queue == q.val && c.ident == e.cid)).isEmpty
      let t : State := { s with hc := { s.hc with turn := q, left := s.burstLeft q } }
      let t := t.setSq q (some { x with head := (x.head + 1) % x.size })
      let t := if again then t.nvViol 7 q e.cid else t
      live s (t.fetched t.freeSlot (e.cmd q (s.guestOfQueue q)) e.prpBad e.dmaBad)

/-- Data of a command lands at burst-buffer units from `addr` on with its tags, and the entry enters its queue (R351, R420). -/
def State.landData (s : State) (slot addr : Nat) (c : HCmd) : State :=
  let n := c.pages.length
  let t := (s.useUnits addr n true).landPages addr c.pages
  let c := { c with dbuf := addr, pages := [] }
  (t.setCmd slot (some c)).enqueueKnown slot c

/-- WRITE_DATA_LANDED (R351, R420). -/
def execWriteDataLanded (slot : Fin 8192) (addr : Nat) (s : State) : Out :=
  match s.cmd slot with
  | some c =>
    if c.stage = .moving && c.queue ≤ 64 && s.unitsFree addr c.pages.length then live s (s.landData slot addr c) else .next s
  | none => .next s

/-- PARKED_WRITE_RESUME (R351): space has become free for a parked write. -/
def execParkedWriteResume (slot : Fin 8192) (addr : Nat) (s : State) : Out :=
  match s.cmd slot with
  | some c =>
    if c.stage = .parked && s.unitsFree addr c.pages.length && c.pages.length ≤ s.freeUnits then live s (s.landData slot addr c)
    else .next s
  | none => .next s

/-! ### Completions (R353, R354) -/

/-- A command has been answered: the counters of its interface and guest (R451), and its slot is free; data from the host of a command
other than a write is given up. -/
def State.answered (s : State) (slot : Nat) (c : HCmd) (bad : Bool) : State :=
  let writes := if isSasQueue c.queue then c.opc == 0x2A || c.opc == 0x8A else c.queue != 0 && (c.opc == 0x01 || c.opc == 0x7D)
  let t := (s.count (if isSasQueue c.queue then 181 else 178)).count (256 + 8 * c.guest)
  let t := if bad then t.count (259 + 8 * c.guest) else t
  let t := if writes then t else t.dropData c
  let t := t.setCmd slot none
  { t with hc := { t.hc with limited := t.hc.limited && decide (8192 ≤ t.allOutstanding) } }

/-- An error is noted in the Error Information log (R364, R378): queue and CID, status, LBA and NSID; 64 entries are kept. -/
def State.logError (s : State) (c : HCmd) (status lba : Nat) : State :=
  { s with hc := { s.hc with
      errLog := ((c.queue * 65536 + c.ident, status, lba, c.nsid) :: s.hc.errLog).take 64, errCount := s.hc.errCount + 1 } }

/-- COMPLETION_POSTED (R353, R354, R384): the oldest record of the queue moves its data, posts its entry and signals the vector; a
full host queue makes it wait. -/
def execCompletionPosted (q : Fin 65) (s : State) : Out :=
  match s.hc.recs.find? (fun r => r.queue == q.val), s.cq q with
  | some r, some x =>
    if (x.tail + 1) % x.size = x.head then live s (s.nvViol 8 q x.head)
    else match s.cmd r.slot with
      | none => .next s
      | some c =>
        let lost : Bool := c.fail.isSome && !r.data.isEmpty
        let status := if lost then Stat.dataTransfer.nvmeField else r.status
        let data := if lost then [] else r.data
        let h := ((s.sq q).map Sq.head).getD 0
        let t : State := { s with
          hc := { s.hc with recs := s.hc.recs.erase r }
          hostOut := s.hostOut ++ [.cqe q q h c.ident status r.dw0 r.dw1 x.phase data] }
        let tail := (x.tail + 1) % x.size
        let t := t.setCq q (some { x with tail := tail, phase := if tail = 0 then !x.phase else x.phase })
        let t := if status % 32768 = 0 then t else t.logError c status r.info
        let t := t.answered r.slot c (status % 32768 != 0)
        live s (if x.ien then t.sendMsix x.vector else t)
  | _, _ => .next s

end Sys2Proof.Machine
end

