-- ==== Sys2Proof/Machine/Media.lean ====
section
/-! DEFINITION. Loading a cartridge (R65, R70, R93, R95, R100, R109, R136, R188, R328): lead-in tables, the checkpoints and the roll-forward
that the medium gives, and the state that follows from them. -/

namespace Sys2Proof.Machine

/-! ### The lead-in (R70) -/

/-- "PM-4". -/
def pm4 : Nat := 0x504D2D34

/-- A lead-in table that the device accepts but for the serial: a copy passes its check, and identity and version are right. -/
def LeadIn.good (x : LeadIn) : Bool := x.ident == pm4 && x.version / 256 == 1

/-- The lead-in table of disc `h`. -/
def Cartridge.leadIn (c : Cartridge) (h : Nat) : Option LeadIn := (c.lead[h]?).getD none

/-- The lead words of words 0 to 31 of a laser unit's table (R126). -/
def leadWord (x : LeadIn) (w : Nat) : Nat :=
  (List.range 4).foldl (fun a j => a + (x.wpower[8 * (w / 2) + 4 * (w % 2) + j]?).getD 0 % 256 * 256 ^ j) 0

/-- Depths and lead levels of a disc are copied at load (R126, R188). -/
def State.useLead (s : State) (h : Nat) (x : LeadIn) : State :=
  { s with
    layTrim := (List.range 16).foldl (fun t l => Tbl.upd 0 t (16 * h + l) (fun v =>
      (x.depth[l]?).getD 0 % 65536 * 65536 + v % 65536)) s.layTrim
    lpt := (List.range 32).foldl (fun t w => Tbl.put 0 t (256 * h + w) (leadWord x w)) s.lpt }

/-- The cartridge is rejected (R2): its state is known, the hosts are told, and a load ends. -/
def State.rejectMedia (s : State) : State :=
  let t : State := { s with rcd := { s.rcd with cart := 4 } }
  let t := if t.rd .power F.PWSTART_stage = 8 then t.wr .power F.PWSTART_stage 9 else t
  let t := (t.vendorEvent 0).attention 0x2800
  t.rcd.ops.foldl (fun t o => match o.kind with
    | .load => t.endOp o .mediaIncompatible
    | _ => t) t

/-- The heads whose lead-in has been read. -/
def State.leadsRead (s : State) : List Nat := (List.range 4).filter (bitOf s.rcd.leads)

/-- LEADIN_READ_DONE (R65, R70, R126, R188): the table of a head at the lead-in is checked; one that fails, a serial other than those of
the discs read before, or an index beyond its limit rejects the cartridge. -/
def execLeadinReadDone (h : Fin 4) (s : State) : Out :=
  match s.medium with
  | none => .next s
  | some c =>
    if s.hState h ≠ hLeadin || s.rcd.cart ≠ 0 then .next s
    else match c.leadIn h with
      | none => live s s.rejectMedia
      | some x =>
        let same := s.leadsRead.all (fun g => (c.leadIn g).map LeadIn.serial == some x.serial)
        if !x.good || !same || 1024 < c.indexOff then live s s.rejectMedia
        else
          let t := s.useLead h x
          live s { t with rcd := { t.rcd with
            serial := x.serial, leads := if bitOf t.rcd.leads h then t.rcd.leads else t.rcd.leads + 2 ^ h.val } }

/-- The factory block of the cartridge memory is valid (R70, R97). -/
def Cartridge.factoryOk (c : Cartridge) : Bool :=
  c.cmNum 0 4 == pm4 && c.cmByte 4 == 1 && c.cmNum 0x3C 4 == crc32c (c.cmBytes 0 0x3C)

/-- Every head that can read has read its lead-in (R521): a head in fault cannot. -/
def State.leadsDone (s : State) : Bool :=
  s.rcd.leads != 0 && (List.range 4).all (fun h => bitOf s.rcd.leads h || s.hState h == hFault)

/-! ### The log (R88, R95) -/

/-- The end of the log (R95): the first blank position whose successor is blank. -/
def State.logEnd (s : State) : Nat :=
  let ks := match s.medium with
    | some c => 0 :: c.pos.map (fun (e : Nat × Pos) => e.1 + 1)
    | none => [0]
  (ks.find? (fun T => s.posAt T == Pos.blank && s.posAt (T + 1) == Pos.blank)).getD 0

/-- The blocks of a written position all of whose headers are accepted. -/
def State.trayAt (s : State) (hidden : List Nat) (T : Nat) : Option (List Block) :=
  match s.posAt T with
  | .written bs => if hidden.contains T then none else some bs
  | _ => none

/-- The written trays of the log in order: position and blocks. -/
def State.logTrays (s : State) (hidden : List Nat) : List (Nat × List Block) :=
  match s.medium with
  | none => []
  | some c => (c.pos.filter (fun e => decide (e.1 < s.logEnd))).filterMap (fun e => (s.trayAt hidden e.1).map (fun bs => (e.1, bs)))

/-- The sequence number of a tray. -/
def seqOf (bs : List Block) : Nat := ((bs[0]?).map Block.seq).getD 0

/-- The codewords of a tray with their slot addresses and beams. -/
def traySlots (T : Nat) (bs : List Block) : List (Nat × Nat × Cw) :=
  (((bs.filter (fun b => !b.isParity)).flatMap (fun b => b.cws.map (fun w => (b.beam, w)))).zipIdx).map
    (fun p => (slotAddr T p.2, p.1.1, p.1.2))

/-- The codewords of pool index `n` in the log that can be read. -/
def State.logCws (s : State) (hidden lost : List Nat) (n : Nat) : List (Nat × Cw) :=
  ((s.logTrays hidden).flatMap (fun e => traySlots e.1 e.2)).filterMap (fun x =>
    if x.2.2.nsid = n && !lost.contains x.1 then some (x.1, x.2.2) else none)

/-! ### Checkpoints (R91 to R93) -/

/-- A checkpoint read from the medium: number, slot of its open record, the previous one's, its cut and its records. -/
structure RdCkpt where
  number : Nat
  openSlot : Nat
  prev : Nat
  cut : Nat
  recs : List Nat
deriving DecidableEq, Repr

/-- The top byte of a map record. -/
def recTop (r : Nat) : Nat := r / 2 ^ 56

/-- The page of a checkpoint with lba field `lba` at or before slot `a`: the last one. -/
def pageBefore (cws : List (Nat × Cw)) (lba a : Nat) : Option (Nat × Cw) :=
  ((cws.filter (fun x => x.2.lba == lba && decide (x.1 ≤ a))).getLast?)

/-- The checkpoint whose closing record lies in the map codeword `x`, if it is valid (R93): every page reads, it opens with its open
and cut records, and the CRC-32C matches. -/
def ckptAt (cws : List (Nat × Cw)) (x : Nat × Cw) : Option RdCkpt :=
  let last := x.2.lba % 2 ^ 20
  let pages := (List.range (last + 1)).filterMap (fun i => pageBefore cws (x.2.lba - last + i) x.1)
  let rs := pages.flatMap (fun p => unpackRecords 8 p.2.data)
  let body := rs.takeWhile (fun r => recTop r != 0xC3)
  match rs[body.length]?, body with
  | some close, o :: c :: rest =>
    let n := o / 2 ^ 32 % 2 ^ 24
    if pages.length = last + 1 && recTop o = 0xC0 && recTop c = 0xC1 && n % 4096 = x.2.lba / 2 ^ 20 && close = recClosing n
        (crc32c (body.flatMap (beBytes 8))) then
      some ⟨n, ((pages[0]?).map Prod.fst).getD 0, o % 2 ^ 32, c % 2 ^ 48, rest⟩
    else none
  | _, _ => none

/-- The valid checkpoints of the log, oldest first. -/
def ckptsOf (cws : List (Nat × Cw)) : List RdCkpt := cws.filterMap (ckptAt cws)

/-- A checkpoint whose open record lies at slot `a`, or at a copy of it. -/
def isOpenAt (cws : List (Nat × Cw)) (k : RdCkpt) (a : Nat) : Bool :=
  k.openSlot == a || cws.any (fun x => x.1 == a && x.2.lba == k.number % 4096 * 2 ^ 20 && decide (x.1 ≤ k.openSlot))

/-- The checkpoints that a chain of open records leads back through, oldest first; none where it breaks (R92, R93). -/
def chainOf (cws : List (Nat × Cw)) (ks : List RdCkpt) : Nat → RdCkpt → Option (List RdCkpt)
  | 0, _ => none
  | n + 1, k =>
    if k.prev = 0xFFFFFFFF then some [k]
    else match ks.find? (fun x => isOpenAt cws x k.prev) with
      | some p => (chainOf cws ks n p).map (fun l => l ++ [k])
      | none => none

/-- The checkpoints the map is built from: those of the last valid one with a whole chain. -/
def usable (cws : List (Nat × Cw)) : List RdCkpt :=
  let ks := ckptsOf cws
  (ks.reverse.findSome? (chainOf cws ks (ks.length + 1))).getD []

/-! ### What the records say -/

/-- The records of the checkpoints with the pool index of the section each run belongs to. -/
def sectioned : Nat → List Nat → List (Nat × Nat)
  | _, [] => []
  | n, r :: rs => if r / 2 ^ 62 = 1 then sectioned (r / 2 ^ 56 % 64) rs else (n, r) :: sectioned n rs

/-- What checkpoints tell, built up record by record: pool, zones, and the slot at which each run begins. -/
structure Rebuilt where
  pool : Tbl NsEnt
  gzones : Nat
  zones : Tbl ZoneSt
  runs : Tbl Nat
deriving DecidableEq, Repr

/-- Nothing rebuilt. -/
def Rebuilt.empty : Rebuilt := ⟨[], 0, [], []⟩

/-- A record is applied (R91, R92). -/
def Rebuilt.add (b : Rebuilt) (e : Nat × Nat) : Rebuilt :=
  let r := e.2
  if r / 2 ^ 62 = 0 then { b with runs := Tbl.put 0 b.runs (mapKey e.1 (r / 2 ^ 32 % 2 ^ 30)) (r % 2 ^ 32 + 1) }
  else if r / 2 ^ 62 = 2 then
    let n := r / 2 ^ 44 % 64
    let j := r / 2 ^ 32 % 4096
    let st : ZState := if r / 2 ^ 30 % 4 = 2 then .readOnly else if r / 2 ^ 30 % 4 = 1 then .closed else .empty
    { b with zones := Tbl.put ZoneSt.none b.zones (zoneKey n j) ⟨st, r % 2 ^ 19, r / 2 ^ 50 % 4096, 0⟩ }
  else if recTop r = 0xC4 then
    let n := r / 2 ^ 50 % 64
    let z := r % 2 ^ 32
    if r / 2 ^ 48 % 4 = 1 then { b with pool := Tbl.put ⟨0, false, 0⟩ b.pool n ⟨z, true, 0⟩, gzones := b.gzones + z }
    else { b with pool := Tbl.put ⟨0, false, 0⟩ b.pool n ⟨z, false, 0⟩ }
  else b

/-- The end of the LBAs that the run starting at key `k` may hold (R91): its zone's write pointer, and past a zone written to its end
that of the next. -/
def Rebuilt.runEnd (b : Rebuilt) (n : Nat) : Nat → Nat → Nat
  | 0, j => j * 262144
  | f + 1, j =>
    let w := (Tbl.look ZoneSt.none b.zones (zoneKey n j)).wp
    if w < 262144 then j * 262144 + w else Rebuilt.runEnd b n f (j + 1)

/-- Map `n` LBAs from key `k` on to successive slots from `a`. -/
def State.mapRun (s : State) : Nat → Nat → Nat → State
  | 0, _, _ => s
  | n + 1, k, a =>
    State.mapRun ({ s with rcd := { s.rcd with map := Tbl.put 0 s.rcd.map k (a + 1) } } : State) n (k + 1) (s.slotSucc a)

/-- Every run is mapped (R91): it ends at the next run record of its namespace or at the zone's write pointer. -/
def State.mapRuns (s : State) (b : Rebuilt) : List (Nat × Nat) → State
  | [] => s
  | (k, v) :: rest =>
    let n := k / 2 ^ 32
    let lba := k % 2 ^ 32
    let stop := b.runEnd n 4001 (lba / 262144)
    let stop := match rest with
      | (k', _) :: _ => if k' / 2 ^ 32 = n then min stop (k' % 2 ^ 32) else stop
      | [] => stop
    State.mapRuns (s.mapRun (stop - lba) k (v - 1)) b rest

/-! ### Roll-forward (R95, R136) -/

/-- The codewords of data, and copies of data, of the trays from a cut on, but for those of failing blocks. -/
def forwardData (trays : List (Nat × List Block)) (fails : List Nat) : List (Nat × Cw) :=
  (trays.flatMap (fun e => (traySlots e.1 e.2).map (fun x => (e.1, x)))).filterMap (fun y =>
    if y.2.2.2.nsid < 32 && !fails.contains (64 * y.1 + y.2.2.1) then some (y.2.1, y.2.2.2) else none)

/-- The LBAs of trays that count as written though their block still has to be relocated (R136). -/
def forwardKeys (trays : List (Nat × List Block)) : List Nat :=
  (trays.flatMap (fun e => traySlots e.1 e.2)).filterMap (fun x => if x.2.2.nsid < 32 then some (mapKey x.2.2.nsid x.2.2.lba) else none)

/-- A zone's write pointer is raised to the end of its written prefix (R136). -/
def raiseWp (keys : List Nat) (base : Nat) : Nat → Nat → Nat
  | 0, w => w
  | f + 1, w => if keys.contains (base + w) then raiseWp keys base f (w + 1) else w

/-- The journal records of the log in order, with the sequence number of their tray. -/
def State.journalOf (s : State) (hidden lost : List Nat) : List (Nat × Nat) :=
  (s.logTrays hidden).flatMap (fun e => ((traySlots e.1 e.2).filter (fun x => x.2.2.nsid == 0x3E && !lost.contains x.1)).flatMap
    (fun x => (unpackRecords 16 x.2.2.data).map (fun r => (seqOf e.2, r))))

/-- The blocks that fail in the last eight written trays are relocated (R136): their codewords are copies due. -/
def State.copyFails (s : State) (trays : List (Nat × List Block)) (fails : List Nat) : State :=
  (trays.flatMap (fun e => e.2.map (fun b => (e.1, b)))).foldl (fun (t : State) x =>
    if fails.contains (64 * x.1 + x.2.beam) && !x.2.isParity then
      { t with tb := { t.tb with
        nextCopy := t.tb.nextCopy + 1
        copiesDue := t.tb.copiesDue ++ [mkCopy t.tb.nextCopy (x.2.cws.map (fun w => ⟨w, 0, 0, true, .none⟩)) [x.2.beam] 1 false] } }
    else t) s

/-- A namespace zone as the medium leaves it: full at its end or in a deleted namespace, else closed once written, with its entry of the
zone table and its high-water mark (R109, R136, R361). -/
def State.placeZone (s : State) (b : Rebuilt) (keys : List Nat) (n j : Nat) (live : Bool) : State :=
  let z := Tbl.look ZoneSt.none b.zones (zoneKey n j)
  let w := raiseWp keys (mapKey n (j * 262144)) 262144 z.wp
  let st : ZState := if z.st = .readOnly || w = 262144 || !live then .readOnly else if z.st = .empty && w = 0 then .empty else .closed
  let e := if st = .closed then s.freeEntry else none
  let t : State := { s with rcd := { s.rcd with zones := Tbl.put ZoneSt.none s.rcd.zones (zoneKey n j) ⟨st, w, z.gzone, e.getD 0⟩ } }
  let t := t.setHw (zoneKey n j) w
  match e with
  | some k => t.setZent k ⟨true, n, j, z.gzone, w⟩
  | none => t

/-- Every zone of the pool. -/
def State.placeZones (s : State) (b : Rebuilt) (keys : List Nat) : State :=
  b.pool.foldl (fun t p => (List.range p.2.zones).foldl (fun t j => t.placeZone b keys p.1 j p.2.live) t) s

/-- The high-water table starts at zero and is valid from here on (R109). -/
def State.openTable (s : State) : State :=
  ({ s with tb := { s.tb with hw := [], hwDefault := 0, zeroing := false, heldHw := [], heldValid := false } } : State).setFlag .tray
    F.TBHWCTRL_valid true

/-- The cartridge memory as it is found (R70): not answering, or without a valid factory block, it is reported. -/
def State.noteMemory (s : State) (c : Cartridge) : State :=
  let bad (n : Nat) : State :=
    ({ s with rcd := { s.rcd with cmStatus := n + 1 } } : State).report .media 8 n 0 |>.raise .media 8
  if !c.cmAnswers then bad 1 else if !c.factoryOk then bad 2 else s

/-- Where the trays whose records are still to be rolled forward begin: after the last tray below the cut. -/
def forwardFrom (trays : List (Nat × List Block)) (cut : Nat) : Nat :=
  ((trays.filter (fun e => decide (seqOf e.2 < cut))).getLast?.map (fun e => e.1 + 1)).getD 0

/-- The cartridge holds a log: its map, zones, journal and write pointer are rebuilt (R100, R109, R136, R328); what it lacked after a power
loss is posted. -/
def State.openMedia (s : State) (lost hidden fails : List Nat) (c : Cartridge) : State :=
  let trays := s.logTrays hidden
  let cks := usable (s.logCws hidden lost 0x3F)
  let cut := (cks.getLast?.map RdCkpt.cut).getD 0
  let b := (cks.flatMap (fun k => sectioned 0 k.recs)).foldl Rebuilt.add Rebuilt.empty
  let ahead := trays.filter (fun e => decide (cut ≤ seqOf e.2))
  let fails := fails.filter (fun f => (trays.reverse.take 8).any (fun e => e.1 == f / 64))
  let fresh := forwardData ahead fails
  let jr := s.journalOf hidden lost
  let ckSeq := (cks.getLast?.map (fun k => ((s.trayAt hidden (k.openSlot / 816)).map seqOf).getD cut)).getD cut
  let baked := jr.any (fun r => r.2 / 2 ^ 120 == 4 && decide (min cut ckSeq ≤ r.1))
  let sess := (jr.filter (fun r => r.2 / 2 ^ 112 == 0x500)).foldl (fun a r => max a (r.2 / 2 ^ 96 % 65536 + 1)) 0
  let nums := (s.logCws hidden lost 0x3E).foldl (fun a x => max a (x.2.lba + 1)) 0
  let moved := (trays.flatMap (fun e => slotsOf e.2)).foldl (fun a w => a + b2n (w.kind == 3)) 0
  let gaps := ((List.range s.logEnd).filter (fun T => forwardFrom trays cut ≤ T && (s.trayAt hidden T).isNone))
  let stop := s.logEnd
  let t : State := { s with rcd := { s.rcd with
    cart := if baked then 3 else 2
    pool := b.pool, gzones := b.gzones
    sessionNo := sess
    nextCkpt := (cks.getLast?.map (fun k => k.number + 1)).getD 0
    lastCkpt := cks.getLast?.map (fun k => (k.number, k.openSlot, k.cut)) } }
  let t := (t.openTable.mapRuns b b.runs).placeZones b (forwardKeys ahead)
  let t := fresh.foldl (fun (t : State) x => t.mapPut x.2.nsid x.2.lba x.1) t
  let t : State := { t with tb := { t.tb with journalNo := nums, nextPos := stop } }
  let t := ((t.wr .tray F.TBPOS_pointer stop).setTbSeq ((trays.getLast?.map (fun e => seqOf e.2 + 1)).getD 0)).wr .tray F.TBRELCNT_count moved
  let t := if capacityPos ≤ stop then t.setCapacity else t
  let old := match c.curSlot with
    | some i => c.cmByte (i + 8) != (if baked then 2 else 1) || c.cmNum (i + 0x0C) 4 != (cks.getLast?.map RdCkpt.openSlot).getD 0xFFFFFFFF
    | none => true
  let t : State := { t with rcd := { t.rcd with cmDue := t.rcd.cmDue || (old && c.cmAnswers) } }
  if baked then t
  else
    let t := t.copyFails trays fails
    let t := gaps.foldl (fun (t : State) T => t.postJournal [jAbandoned T t.time.ns]) t
    if gaps.isEmpty && fresh.isEmpty && t.tb.copiesDue.isEmpty then t else t.startCkpt

/-- MEDIA_STATE_DECIDE (R70, R100, R109, R136, R328): with the lead-ins read, the medium decides the cartridge's state. -/
def execMediaStateDecide (lost hidden fails : List Nat) (s : State) : Out :=
  match s.medium with
  | none => .next s
  | some c =>
    if s.rcd.cart ≠ 0 || !s.leadsDone then .next s
    else
      let t := s.noteMemory c
      if c.cmAnswers && c.factoryOk && c.cmNum 8 16 ≠ t.rcd.serial then live s t.rejectMedia
      else if s.posAt 0 = .blank then
        live s ((({ t.openTable with rcd := { t.rcd with cart := 1 } } : State).wr .tray F.TBPOS_pointer 0).setTbSeq 0)
      else live s (t.openMedia lost hidden fails c)

end Sys2Proof.Machine
end

