-- ==== Sys2Proof/Machine/Logs.lean ====
section
/-! DEFINITION. The data both interfaces report: the cartridge, crumb and beam pages (R377, R378), the NVMe log pages and Identify
structures (R347, R355, R371, R376, R378), the version of slot 1 (R569). A field the spec gives no value is free (log entry 33); the
places of fields it names by the standard's names are the standard's (PRESUMED, log entry 20). -/

namespace Sys2Proof.Machine

/-- `n` bytes: those of `parts` (offset, bytes), the first that covers a byte, and `base` elsewhere. -/
def overlay (base : Nat → Byte) (n : Nat) (parts : List (Nat × List Byte)) : List Byte :=
  (List.range n).map (fun i =>
    (parts.findSome? (fun p => if p.1 ≤ i then p.2[i - p.1]? else none)).getD (base i))

/-- Zero bytes. -/
def zeroByte : Nat → Byte := fun _ => 0

/-! ### Vendor pages (R377, R378) -/

/-- Cartridge page 0xC0 (R377). -/
def State.cartridgePage (s : State) : List Byte :=
  if s.rcd.cart = 0 then leBytes 512 0
  else overlay zeroByte 512
    [(0, leBytes 1 s.rcd.cart), (4, leBytes 16 s.rcd.serial), (20, leBytes 4 (s.rd .tray F.TBPOS_pointer)), (24, leBytes 8 s.tbSeq),
     (32, leBytes 4 (s.rd .tray F.TBRELCNT_count)), (36, leBytes 2 (zonesOnCartridge - s.rcd.gzones)),
     (38, leBytes 1 ((List.range 32).filter (fun i => (s.pool i).zones != 0)).length),
     (39, leBytes 1 ((List.range 32).filter (fun i => (s.pool i).live)).length),
     (40, leBytes 4 ((s.rcd.lastCkpt.map Prod.fst).getD 0)), (44, leBytes 2 s.rcd.sessionNo), (46, leBytes 1 s.rcd.session),
     (47, leBytes 1 s.rcd.cmStatus), (48, leBytes 8 s.rcd.cmNs), (56, leBytes 2 s.rcd.diverged)]

/-- Crumbs page 0xC1 (R378): the log, newest entry first, 32 bytes each. -/
def State.crumbsPage (s : State) : List Byte :=
  (List.range (s.rd .event F.CRHEAD_valid)).flatMap (fun k =>
    match Tbl.look none s.crumbs.log ((s.rd .event F.CRHEAD_head + 8192 - 1 - k) % 4096) with
    | some e => e.words.flatMap (leBytes 4)
    | none => leBytes 32 0)

/-- Beams page 0xC2 (R378). -/
def State.beamsPage (s : State) : List Byte :=
  (List.range 48).flatMap (fun b =>
    let u : UnitId := .beam b
    leBytes 1 (s.unitState u) ++ leBytes 1 (s.unitHealth u) ++
    leBytes 2 (2 * b2n (s.flag u F.BWSTAT_retired) + b2n (s.flag u F.BWSTAT_candidate)) ++
    leBytes 4 (s.rd u F.BDRAWFCNT_count) ++ leBytes 4 (s.rd u F.BRDECFCNT_count) ++ leBytes 4 0)

/-! ### Health (R376) -/

/-- 100 less the lowest health of any beam; a beam without a measurement does not count. -/
def State.percentUsed (s : State) : Nat :=
  100 - ((List.range 48).map (fun b => s.unitHealth (.beam b))).foldl min 100

/-- The critical warning bits (R376). -/
def State.warnings (s : State) : Nat :=
  2 * b2n (decide (s.overThreshold ≤ s.kelvin)) +
  4 * b2n ((List.range 4).any (fun h => decide (3 ≤ ((List.range 12).filter (fun k =>
    s.flag (.beam (12 * h + k)) F.BWSTAT_retired)).length))) +
  8 * b2n (s.rcd.cart == 3 || s.flag .tray F.TBSTAT_capacity)

/-- A counter's value. -/
def State.counter (s : State) (i : Nat) : Nat := Tbl.look 0 s.ctr.val i

/-- Host data of `n` LBAs in thousands of 512 bytes, rounded up. -/
def dataUnits (n : Nat) : Nat := (8 * n + 999) / 1000

/-- SMART / Health Information (R376). -/
def State.smartPage (s : State) : List Byte :=
  overlay (Config.hostByte 0x102) 512
    [(0, leBytes 1 s.warnings), (1, leBytes 2 s.kelvin), (3, leBytes 1 s.spare), (4, leBytes 1 10), (5, leBytes 1 s.percentUsed),
     (32, leBytes 16 (dataUnits (s.counter 180))), (48, leBytes 16 (dataUnits (s.counter 179))),
     (112, leBytes 16 s.recs.cycles), (128, leBytes 16 (s.recs.hours / 10)), (144, leBytes 16 s.recs.shutdowns),
     (160, leBytes 16 (s.counter 155)), (176, leBytes 16 s.hc.errCount)]

/-! ### Other log pages (R378) -/

/-- Error Information: 64 entries of 64 bytes, newest first. -/
def State.errorPage (s : State) : List Byte :=
  (List.range 64).flatMap (fun k => match s.hc.errLog[k]? with
    | some e => overlay zeroByte 64
        [(0, leBytes 8 (s.hc.errCount - k)), (8, leBytes 2 (e.1 / 65536)), (10, leBytes 2 e.1), (12, leBytes 2 e.2.1),
         (14, leBytes 2 0xFFFF), (16, leBytes 8 e.2.2.1), (24, leBytes 4 e.2.2.2)]
    | none => leBytes 64 0)

/-- Eight upper-case hex digits, as ASCII (R569). -/
def hexDigits (n : Nat) : Nat → List Byte
  | 0 => []
  | k + 1 => let d := n / 16 ^ k % 16; leBytes 1 (if d < 10 then 48 + d else 55 + d) ++ hexDigits n k

/-- Firmware Slot: slot 1 active, its revision the version of the keeper image (R569). -/
def State.firmwarePage (s : State) : List Byte :=
  overlay zeroByte 512 [(0, leBytes 1 1), (8, hexDigits s.fw.rev 8)]

/-- Commands Supported and Effects: bit 0 of the entry of every opcode supported; its other bits are free. -/
def effectsPage : List Byte :=
  let entry (on : Bool) (k : Nat) : List Byte :=
    if on then (List.range 4).map (fun j => if j = 0 then Config.hostByte 0x105 (4 * k) ||| 1 else Config.hostByte 0x105 (4 * k + j))
    else leBytes 4 0
  (List.range 256).flatMap (fun i => entry (opcodeKnown 0 i) i) ++
  (List.range 256).flatMap (fun i => entry (opcodeKnown 1 i) (256 + i)) ++ leBytes 2048 0

/-- Device Self-test: the test under way and the 20 newest results, 28 bytes each (R486). -/
def State.selfTestPage (s : State) : List Byte :=
  leBytes 1 s.rcd.selfTest ++ leBytes 3 0 ++ (List.range 20).flatMap (fun k => match s.rcd.tests[k]? with
    | some t => overlay zeroByte 28 [(0, leBytes 1 (16 * t.1 + t.2.1)), (1, leBytes 1 t.2.2.1), (4, leBytes 8 (t.2.2.2 / 10))]
    | none => overlay zeroByte 28 [(0, leBytes 1 0xF)])

/-- Changed Zone List of a namespace (R361): at most 511 zones; more show as 0xFFFF. -/
def State.zoneListPage (s : State) (i : Nat) : List Byte :=
  let zs := (s.hc.zoneList.filter (fun v => v / 2 ^ 32 == i)).map (· % 2 ^ 32)
  if 511 < zs.length then overlay zeroByte 4096 [(0, leBytes 2 0xFFFF)]
  else overlay zeroByte 4096 [(0, leBytes 2 zs.length), (8, zs.flatMap (leBytes 8))]

/-- A log page's bytes (R378). -/
def State.logPage (s : State) (lid i : Nat) : Option (List Byte) :=
  if lid = 0x01 then some s.errorPage
  else if lid = 0x02 then some s.smartPage
  else if lid = 0x03 then some s.firmwarePage
  else if lid = 0x05 then some effectsPage
  else if lid = 0x06 then some s.selfTestPage
  else if lid = 0xBF then some (s.zoneListPage i)
  else if lid = 0xC0 then some s.cartridgePage
  else if lid = 0xC1 then some s.crumbsPage
  else if lid = 0xC2 then some s.beamsPage
  else none

/-! ### Identify (R345, R347, R355, R358, R360, R371) -/

/-- A power state descriptor (R371): MP in 0.01 W, non-operational, latencies in µs. -/
def powerState (mp nops enlat exlat : Nat) : List (Nat × List Byte) :=
  [(0, leBytes 2 mp), (3, leBytes 1 (2 * nops)), (4, leBytes 4 enlat), (8, leBytes 4 exlat)]

/-- Move parts to an offset. -/
def partsAt (o : Nat) (ps : List (Nat × List Byte)) : List (Nat × List Byte) := ps.map (fun p => (o + p.1, p.2))

/-- Identify Controller (R347, R371). -/
def identifyController : List Byte :=
  overlay (Config.hostByte 0x201) 4096
    ([(77, leBytes 1 12), (78, leBytes 2 1), (80, leBytes 4 0x00020000), (88, leBytes 4 43000000), (256, leBytes 2 0x1C),
      (259, leBytes 1 7), (260, leBytes 1 2), (262, leBytes 1 63), (263, leBytes 1 4), (316, leBytes 2 30), (320, leBytes 2 0),
      (512, leBytes 1 0x66), (513, leBytes 1 0x44), (516, leBytes 4 32), (520, leBytes 2 0x80), (525, leBytes 1 7),
      (536, leBytes 4 0), (540, leBytes 4 32)] ++
     partsAt 2048 (powerState 4500 0 1500000 1500000) ++ partsAt 2080 (powerState 2800 0 1500000 1500000) ++
     partsAt 2112 (powerState 2400 0 10000 10000) ++ partsAt 2144 (powerState 1400 1 43000000 4000000) ++
     partsAt 2176 (powerState 450 1 43100000 4500000))

/-- Identify Namespace of pool index `i` (R358, R359): size, one format of 4,096 bytes without metadata, and write protection. -/
def State.identifyNs (s : State) (i : Nat) : List Byte :=
  let e := s.pool i
  overlay (Config.hostByte (0x300 + i)) 4096
    [(0, leBytes 8 (e.zones * 262144)), (8, leBytes 8 (e.zones * 262144)), (25, leBytes 1 0), (26, leBytes 1 0),
     (99, leBytes 1 (b2n (s.attachedRo 0 i || s.rcd.cart == 3))), (128, leBytes 2 0), (130, leBytes 1 12)]

/-- The zoned Identify Namespace (R360). -/
def identifyZoned (i : Nat) : List Byte :=
  overlay (Config.hostByte (0x340 + i)) 4096
    [(0, leBytes 2 0), (2, leBytes 2 1), (4, leBytes 4 63), (8, leBytes 4 63), (2816, leBytes 8 262144), (2824, leBytes 1 0)]

/-- A list of NSIDs above `from` of the namespaces that `p` accepts. -/
def State.nsList (s : State) (low : Nat) (p : Nat → Bool) : List Byte :=
  overlay zeroByte 4096
    [(0, ((List.range 32).filter (fun i => (s.pool i).live && p i && decide (low < i + 1))).flatMap (fun i => leBytes 4 (i + 1)))]

/-- The Identify data of a CNS (R355): `c` names NSID and CSI. -/
def State.identifyData (s : State) (c : HCmd) : Option (List Byte) :=
  let cns := bits ((c.dw[2]?).getD 0) 0 8
  let csi := bits ((c.dw[3]?).getD 0) 24 8
  let i := c.nsid - 1
  let on : Bool := decide (1 ≤ c.nsid) && decide (c.nsid ≤ 32) && (s.pool i).live
  let active : Bool := on && s.attached 0 i
  if cns = 0x00 then some (if active then s.identifyNs i else leBytes 4096 0)
  else if cns = 0x01 then some identifyController
  else if cns = 0x02 then some (s.nsList c.nsid (s.attached 0))
  else if cns = 0x03 then some (if active then overlay (Config.hostByte (0x360 + i)) 4096 [] else leBytes 4096 0)
  else if cns = 0x05 then (if csi = 2 then some (if active then identifyZoned i else leBytes 4096 0)
    else if csi = 0 then some (if active then overlay (Config.hostByte (0x380 + i)) 4096 [] else leBytes 4096 0) else none)
  else if cns = 0x06 then (if csi = 2 then some (overlay (Config.hostByte 0x206) 4096 [(0, leBytes 1 12)])
    else if csi = 0 then some (overlay (Config.hostByte 0x207) 4096 []) else none)
  else if cns = 0x07 then (if csi = 2 then some (s.nsList c.nsid (s.attached 0)) else if csi = 0 then some (leBytes 4096 0) else none)
  else if cns = 0x08 then some (if active then overlay (Config.hostByte (0x3A0 + i)) 4096 [] else leBytes 4096 0)
  else if cns = 0x10 then some (s.nsList c.nsid (fun _ => true))
  else if cns = 0x11 then some (if on then s.identifyNs i else leBytes 4096 0)
  else if cns = 0x12 then some (overlay zeroByte 4096 (if active then [(0, leBytes 2 1), (2, leBytes 2 1)] else []))
  else if cns = 0x13 then some (overlay zeroByte 4096 [(0, leBytes 2 1), (2, leBytes 2 1)])
  else if cns = 0x1C then some (overlay zeroByte 4096 [(0, leBytes 8 5)])
  else none

end Sys2Proof.Machine
end

