-- ==== Sys2Proof/Machine/Sas.lean ====
section
/-! DEFINITION. The SAS ports (R387 to R393, R404 to R409): links, COMMAND, XFER_RDY, DATA and RESPONSE frames, violations and task
management. -/

namespace Sys2Proof.Machine

/-! ### Links -/

/-- The register fields of phy `n`. -/
def F.saUp (n : Fin 2) : Field := if n = 0 then F.SAPHY0_up else F.SAPHY1_up
/-- The rate field of phy `n`. -/
def F.saRate (n : Fin 2) : Field := if n = 0 then F.SAPHY0_rate else F.SAPHY1_rate
/-- The hard reset count of phy `n`. -/
def F.saHreset (n : Fin 2) : Field := if n = 0 then F.SAPHY0_hreset else F.SAPHY1_hreset

/-- SAS_LINKUP (R387, R408, R409): a phy that SACTRL enables links at a rate. -/
def execSasLinkup (phy : Fin 2) (rate : Fin 4) (s : State) : Out :=
  if rate = 0 || s.flag .sas (F.saUp phy) || !bitOf (s.rd .sas F.SACTRL_phyen) phy then .next s
  else live s (((s.setFlag .sas (F.saUp phy) true).wr .sas (F.saRate phy) rate).raise .sas 1)

/-- SAS_LINKDOWN (R405, R409): the I_T nexus loss time runs from here. -/
def execSasLinkdown (phy : Fin 2) (s : State) : Out :=
  if !s.flag .sas (F.saUp phy) then .next s
  else live s (((s.setFlag .sas (F.saUp phy) false).wr .sas (F.saRate phy) 0).raise .sas 2)

/-- A command of a port. -/
def HCmd.onPort (c : HCmd) (port : Nat) : Bool := c.queue == 65 + port

/-- A command of a nexus. -/
def HCmd.ofNexus (c : HCmd) (port init : Nat) : Bool := c.onPort port && c.init == init

/-- The commands that `p` accepts are removed, or discarded once taken (R404). -/
def State.abortWhere (s : State) (p : HCmd → Bool) : State := (s.slotsWhere p).foldl State.discardCmd s

/-- I_T NEXUS RESET for every nexus of a port (R405). -/
def State.resetPort (s : State) (port : Nat) : State :=
  ((s.abortWhere (fun c => c.onPort port)).dropSetups (fun p _ _ => p == port)).attention 0x2907 (fun n => n.port == port)

/-- SAS_HARDRESET (R405): as I_T NEXUS RESET for the port's nexuses; their mode pages return to their defaults. -/
def execSasHardreset (phy : Fin 2) (s : State) : Out :=
  let t := s.resetPort phy
  let t : State := { t with hc := { t.hc with
    nexuses := t.hc.nexuses.map (fun n => if n.port == phy.val then { n with burst := 0 } else n)
    lossTime := Tbl.put 2000 t.hc.lossTime phy 2000
    respTime := Tbl.put 1000 t.hc.respTime phy 1000 } }
  live s ((t.incSat .sas (F.saHreset phy)).raise .sas 3)

/-- I_T_NEXUS_LOSS (R405): the link has been lost for longer than the I_T nexus loss time. -/
def execITNexusLoss (phy : Fin 2) (s : State) : Out := if s.flag .sas (F.saUp phy) then .next s else live s (s.resetPort phy)

/-- CONNECTION_REQUEST (R387): SSP alone is served. -/
def execConnectionRequest (phy : Fin 2) (protocol : Fin 3) (s : State) : Out :=
  if !s.flag .sas (F.saUp phy) then .next s
  else live s { s with hostOut := s.hostOut ++ [if protocol = 1 then .openAccept phy else .openReject phy] }

/-! ### Violations (R406) -/

/-- A violation of row `row` of R406: its crumb, the initiator's address, the count and the event. -/
def State.saViol (s : State) (row port init tag : Nat) : State :=
  let t := s.crumb 2 hwReq .sas row (port * 65536 + tag % 65536) init
  (((t.wr .sas F.SAVIOLALO_addr init).wr .sas F.SAVIOLAHI_addr (init / 2 ^ 32)).incSat .sas F.SAVIOL_count).raise .sas 4

/-- A NAK (CRC ERROR). -/
def State.nak (s : State) (port : Nat) : State := { s with hostOut := s.hostOut ++ [.nak port] }

/-! ### COMMAND frames (R389, R392) -/

/-- The SAS opcodes supported (R394, R395) but for the forwarded ones. -/
def sasOpcodes : List Nat :=
  [0x00, 0x03, 0x12, 0x1B, 0x1D, 0x28, 0x88, 0x2A, 0x8A, 0x2F, 0x8F, 0x35, 0x91, 0x3B, 0x4D, 0x55, 0x5A, 0x94, 0x95, 0x9E, 0xA0, 0xA3,
   0xC0, 0xC1, 0xC4, 0xC5, 0xC6, 0xCA, 0xCB]

/-- An opcode is supported on SAS. -/
def sasKnown (opc : Nat) : Bool := sasOpcodes.contains opc || (0xD0 ≤ opc && opc ≤ 0xDF)

/-- The opcodes that have one service action or several (R394), and those. -/
def sasActions (opc : Nat) : Option (List Nat) :=
  if opc = 0x94 then some [1, 2, 3, 4] else if opc = 0x95 then some [0] else if opc = 0x9E then some [0x10]
  else if opc = 0xA3 then some [0x0C] else none

/-- A command whose data comes from the host (R394, R395). -/
def HCmd.dataOut (c : HCmd) : Bool :=
  c.dlen != 0 &&
  ([0x2A, 0x8A, 0x55, 0xCA].contains c.opc || (c.opc == 0x3B && c.cb 1 % 32 == 0x0E) ||
    ((c.opc == 0xC5 || c.opc == 0xC6) && bitOf (c.cb 1) 0))

/-- The slot record of a COMMAND frame (R390). -/
def CmdFrame.cmd (f : CmdFrame) (port guest : Nat) : HCmd where
  queue := 65 + port
  ident := f.tag
  init := f.init
  lun := f.lun
  attr := f.attr
  opc := (f.cdb[0]?).getD 0
  nsid := 0
  dw := (f.cdb ++ List.replicate 16 0).take 16
  dlen := f.dlen
  dbuf := 0
  pages := []
  guest := guest
  stage := .queued
  discarded := false
  fail := none
  asked := 0
  got := 0

/-- A nexus seen for the first time reports the device reset, and the firmware activated before it (R403). -/
def State.withNexus (s : State) (port init : Nat) : State :=
  if s.hc.nexuses.any (fun n => n.port == port && n.init == init) then s
  else { s with hc := { s.hc with
    nexuses := s.hc.nexuses ++ [⟨port, init, 0x2901 :: (if s.fw.activated then [0x3F01] else []), 0⟩] } }

/-- A command that no row of the table takes is answered at once, after a unit attention that pends (R394, R403); the rest move their
data or enter their queue. -/
def State.startSas (s : State) (slot : Nat) (c : HCmd) : State :=
  let act := match sasActions c.opc with
    | some l => l.contains (c.cb 1 % 32)
    | none => true
  if sasKnown c.opc && act then
    (if c.dataOut then s.setCmd slot (some { c with stage := .moving, pages := List.replicate (unitsOf c.dlen) 0 })
    else s.enqueue slot)
  else match s.pendingUa c with
    | some a => (s.dropUa c).completeNow slot (.unitAttention a)
    | none => s.completeNow slot (if s.rd .power F.PWSTART_level = 1 then .internalError
        else if sasKnown c.opc then .invalidField else .invalidOpcode)

/-- SAS_COMMAND_FRAME (R389, R392, R402, R406). -/
def execSasCommandFrame (port : Fin 2) (f : CmdFrame) (s : State) : Out :=
  if !s.flag .sas (F.saUp port) then .next s
  else if f.bad then live s ((s.saViol 1 port f.init f.tag).nak port)
  else
    let t := s.withNexus port f.init
    if 1024 ≤ t.outstanding (65 + port) || 8192 ≤ t.allOutstanding then
      live s (({ t with hostOut := t.hostOut ++ [.response port f.init f.tag 0x28 0 0 f.dlen none []] } : State).raise .sas 6)
    else
      let slot := t.freeSlot
      let c := f.cmd port (t.guestOfInit f.init)
      let used := !(t.slotsWhere (fun x => x.ofNexus port f.init && x.ident == f.tag)).isEmpty
      let t := t.setCmd slot (some c)
      live s (if used then (t.saViol 6 port f.init f.tag).completeNow slot .tagOverlap
        else if f.addLen ≠ 0 then (t.saViol 7 port f.init f.tag).completeNow slot .invalidField
        else if 16777216 < f.dlen then (t.saViol 8 port f.init f.tag).completeNow slot .invalidField
        else if !t.flag .sas F.SACTRL_ready then t.completeNow slot .becomingReady
        else t.startSas slot c)

/-! ### Data from the host (R393) -/

/-- The maximum burst in bytes of a nexus's disconnect-reconnect page: 0 and values above 2,048 act as 2,048 units of 512 bytes. -/
def Nexus.burstBytes (n : Nexus) : Nat := (if n.burst = 0 || 2048 < n.burst then 2048 else n.burst) * 512

/-- The XFER_RDY frames outstanding on a queue. -/
def State.xfersOn (s : State) (q : Nat) : Nat := (s.slotsWhere (fun c => c.queue == q && c.stage == .moving && c.got < c.asked)).length

/-- XFER_RDY_SEND (R393): one outstanding per command and 16 per port, with space for the burst reserved. -/
def execXferRdySend (slot : Fin 8192) (s : State) : Out :=
  match s.cmd slot with
  | none => .next s
  | some c =>
    let burst := min (c.dlen - c.got) (((s.nexusOf c).map Nexus.burstBytes).getD 1048576)
    let more := unitsOf (c.asked + burst) - unitsOf c.asked
    let up := s.flag .sas (if c.queue = 65 then F.SAPHY0_up else F.SAPHY1_up)
    let room : Bool := s.rd .power F.PWSTART_level == 1 || decide (more ≤ s.freeUnits)
    if !isSasQueue c.queue || c.stage ≠ .moving || c.got < c.asked || burst = 0 || 16 ≤ s.xfersOn c.queue || !room || !up then .next s
    else
      let t := s.setCmd slot (some { c with asked := c.asked + burst })
      live s { t with hostOut := t.hostOut ++ [.xferRdy (c.queue - 65) c.init c.ident c.got burst] }

/-- Bytes put into the pages of a transfer from byte `off` on. -/
def fillPages (pages : List Nat) (off : Nat) (bs : List Byte) : List Nat :=
  let v := leNat bs
  let at' (k : Nat) : Nat :=
    if off ≤ 4096 * k then v / 256 ^ (4096 * k - off) % 256 ^ 4096 else v * 256 ^ (off - 4096 * k) % 256 ^ 4096
  (pages.zipIdx).map (fun p =>
    if off < 4096 * (p.2 + 1) && 4096 * p.2 < off + bs.length then p.1 ||| at' p.2 else p.1)

/-- All data of a command lies in its pages: it lands at units from `addr` on, and the entry enters its queue (R393). -/
def State.landSas (s : State) (slot addr : Nat) (c : HCmd) : State :=
  let t := (s.useUnits addr c.pages.length true).landPages addr c.pages
  (t.setCmd slot (some { c with dbuf := addr, pages := [] })).enqueue slot

/-- SAS_DATA_FRAME (R387, R393, R406). -/
def execSasDataFrame (port : Fin 2) (init tag offset : Nat) (data : List Byte) (bad : Bool) (addr : Nat) (s : State) : Out :=
  if !s.flag .sas (F.saUp port) then .next s
  else if bad || 1024 < data.length then live s ((s.saViol 1 port init tag).nak port)
  else match s.slotsWhere (fun c => c.ofNexus port init && c.ident == tag && c.stage == .moving && c.got < c.asked) with
    | [] => live s (s.saViol 2 port init tag)
    | slot :: _ =>
      match s.cmd slot with
      | none => .next s
      | some c =>
        if offset ≠ c.got then live s ((s.saViol 4 port init tag).completeNow slot .wrongOffset)
        else if c.asked < c.got + data.length then live s ((s.saViol 3 port init tag).completeNow slot .tooMuchData)
        else
          let d := { c with pages := fillPages c.pages offset data, got := c.got + data.length }
          if d.got < d.dlen then live s (s.setCmd slot (some d))
          else if s.unitsFree addr d.pages.length then live s (s.landSas slot addr d)
          else .next s

/-- SAS_DATA_TIMEOUT (R406): no DATA within the initiator response timeout. -/
def execSasDataTimeout (slot : Fin 8192) (s : State) : Out :=
  match s.cmd slot with
  | some c =>
    if isSasQueue c.queue && c.stage = .moving && c.got < c.asked then
      live s ((s.saViol 5 (c.queue - 65) c.init c.ident).completeNow slot .dataTimeout)
    else .next s
  | none => .next s

/-! ### Responses (R391, R401) -/

/-- RESPONSE_SEND (R391, R397): the oldest record of the port sends its data and its response, and is acknowledged. The residual is
what the expected length and the data moved differ by. -/
def execResponseSend (port : Fin 2) (s : State) : Out :=
  match s.hc.recs.find? (fun r => r.queue == 65 + port.val) with
  | none => .next s
  | some r =>
    match s.cmd r.slot with
    | none => .next s
    | some c =>
      if !s.flag .sas (F.saUp port) then .next s
      else
        let data := r.data.take c.dlen
        let info := if bitOf r.status 12 then some r.info else none
        let res := c.dlen - data.length - c.got
        let t : State := { s with
          hc := { s.hc with recs := s.hc.recs.erase r }
          hostOut := s.hostOut ++ [.response port c.init c.ident (r.status % 256) (r.status / 256 % 16) r.asc res info data] }
        live s (t.answered r.slot c (r.status % 256 != 0))

/-! ### Task management (R404) -/

/-- A task management response. -/
def State.tmDone (s : State) (port init tag code : Nat) : State :=
  { s with hostOut := s.hostOut ++ [.tmResponse port init tag code] }

/-- A task management function on a port that is up. -/
def State.tm (s : State) (port : Fin 2) (init tag code : Nat) (f : State → State) : Out :=
  if s.flag .sas (F.saUp port) then live s ((f s).tmDone port init tag code) else .next s

/-- ABORT_TASK (R404). -/
def execAbortTask (port : Fin 2) (init tag ref : Nat) (s : State) : Out :=
  s.tm port init tag 0 (fun t => t.abortWhere (fun c => c.ofNexus port init && c.ident == ref))

/-- The commands of a nexus and LUN are aborted. -/
def State.abortSet (s : State) (port init lun : Nat) : State := s.abortWhere (fun c => c.ofNexus port init && c.lun == lun)

/-- ABORT_TASK_SET (R404). -/
def execAbortTaskSet (port : Fin 2) (init tag lun : Nat) (s : State) : Out := s.tm port init tag 0 (fun t => t.abortSet port init lun)

/-- CLEAR_TASK_SET (R404). -/
def execClearTaskSet (port : Fin 2) (init tag lun : Nat) (s : State) : Out := s.tm port init tag 0 (fun t => t.abortSet port init lun)

/-- LOGICAL_UNIT_RESET (R404): all nexuses, and the LUN's ROI setups. -/
def execLogicalUnitReset (port : Fin 2) (init tag lun : Nat) (s : State) : Out :=
  s.tm port init tag 0 (fun t =>
    (t.abortWhere (fun c => isSasQueue c.queue && c.lun == lun)).dropSetups (fun _ _ j => lunIndex lun == some j))

/-- I_T_NEXUS_RESET (R404). -/
def execITNexusReset (port : Fin 2) (init tag : Nat) (s : State) : Out :=
  s.tm port init tag 0 (fun t =>
    ((t.abortWhere (fun c => c.ofNexus port init)).dropSetups (fun p i _ => p == port.val && i == init)).attention 0x2907
      (fun n => n.port == port.val && n.init == init))

/-- QUERY_TASK (R404): FUNCTION SUCCEEDED if the tag is outstanding. -/
def execQueryTask (port : Fin 2) (init tag ref : Nat) (s : State) : Out :=
  s.tm port init tag (if (s.slotsWhere (fun c => c.ofNexus port init && c.ident == ref)).isEmpty then 0 else 8) id

end Sys2Proof.Machine
end

