-- ==== Sys2Proof/Machine/SasCmds.lean ====
section
/-! DEFINITION. The SCSI commands (R394 to R400, R403) but for WRITE BUFFER, which chapter 19 describes. Field places are those of the
standards the spec names (PRESUMED, log entry 20); bytes it gives no value are free (log entry 33). -/

namespace Sys2Proof.Machine

/-! ### CDBs -/

/-- The length of a CDB by its operation code; the device's own commands use 16 bytes (R395). -/
def cdbLen (opc : Nat) : Nat :=
  if opc < 0x20 then 6 else if opc < 0x60 then 10 else if opc < 0x80 then 16 else if opc < 0xA0 then 16
  else if opc < 0xC0 then 12 else 16

/-- `n` whole bytes. -/
def whole (n : Nat) : List Nat := List.replicate n 0xFF

/-- The bits of the CDB bytes after the operation code that the standards do not reserve (R394), the control byte left out. -/
def cdbMask (opc : Nat) : List Nat :=
  if opc = 0x00 then [0, 0, 0, 0]
  else if opc = 0x03 then [1, 0, 0, 0xFF]
  else if opc = 0x12 then [1, 0xFF, 0xFF, 0xFF]
  else if opc = 0x1B then [1, 0, 0x0F, 0xF7]
  else if opc = 0x1D then [0xF7, 0, 0xFF, 0xFF]
  else if opc = 0x28 then [0x1F] ++ whole 4 ++ [0x3F] ++ whole 2
  else if opc = 0x2A then [0x1B] ++ whole 4 ++ [0x3F] ++ whole 2
  else if opc = 0x2F then [0x11] ++ whole 4 ++ [0x3F] ++ whole 2
  else if opc = 0x35 then [0x07] ++ whole 4 ++ [0x3F] ++ whole 2
  else if opc = 0x3B then whole 8
  else if opc = 0x4D then [0x03, 0xFF, 0xFF, 0] ++ whole 4
  else if opc = 0x55 then [0x13, 0, 0, 0, 0, 0] ++ whole 2
  else if opc = 0x5A then [0x18, 0xFF, 0xFF, 0, 0, 0] ++ whole 2
  else if opc = 0x88 then [0x1F] ++ whole 12 ++ [0xFF]
  else if opc = 0x8A then [0x1B] ++ whole 12 ++ [0xFF]
  else if opc = 0x8F then [0x11] ++ whole 12 ++ [0xFF]
  else if opc = 0x91 then [0x07] ++ whole 12 ++ [0xFF]
  else if opc = 0x94 then [0x1F] ++ whole 8 ++ [0, 0, 0, 0, 1]
  else if opc = 0x95 then [0x1F] ++ whole 12 ++ [0xBF]
  else if opc = 0x9E then [0x1F] ++ whole 12 ++ [1]
  else if opc = 0xA0 then [0, 0xFF, 0, 0, 0] ++ whole 4 ++ [0]
  else if opc = 0xA3 then [0x1F, 0x87] ++ whole 7 ++ [0]
  else whole 14

/-- NACA is clear, no reserved field is set and the attribute is not ACA (R394, R399). -/
def HCmd.cdbOk (c : HCmd) : Bool :=
  c.attr != 4 && c.cb (cdbLen c.opc - 1) &&& 0x3C == 0 &&
  ((cdbMask c.opc).zipIdx).all (fun p => c.cb (p.2 + 1) &&& (0xFF ^^^ p.1) == 0)

/-- The entry at the front of a port's queue whose operation code is `opc` is taken (R389, R394); at level 1 LUN 0 of port A alone is
served (R519). -/
def State.scsi (s : State) (port : Fin 2) (mine least ready : HCmd → Bool) (f : State → Nat → HCmd → State) : Out :=
  s.takeCmd (65 + port) mine (fun c => port.val == 0 && c.lun == 0 && least c) ready
    (fun t slot c => if c.cdbOk then f t slot c else t.refuseCmd slot .invalidField)

/-- A command with operation code `n`. -/
def opcIs (n : Nat) : HCmd → Bool := fun c => c.opc == n

/-- A command with operation code `n` and service action `a`. -/
def actIs (n a : Nat) : HCmd → Bool := fun c => c.opc == n && c.cb 1 % 32 == a

/-- A command on an attached LUN (R396): its pool index; otherwise the command is refused. -/
def State.onLun (s : State) (slot : Nat) (c : HCmd) (f : Nat → State) : State :=
  match c.poolIndex with
  | some i => let x := s.mediaStat c.queue i; if x = .success then f i else s.refuseCmd slot x
  | none => s.refuseCmd slot .notAttached

/-- A device-wide command: any LUN from 0 to 31 (R395). -/
def State.onDevice (s : State) (slot : Nat) (c : HCmd) (f : State) : State :=
  if c.poolIndex.isSome then f else s.refuseCmd slot .notAttached

/-- A command of a LUN that needs neither the medium nor an attachment at level 1 (R519). -/
def State.onAnyLun (s : State) (slot : Nat) (c : HCmd) (f : State) : State :=
  if s.rd .power F.PWSTART_level = 1 then f else s.onLun slot c (fun _ => f)

/-- The device completes with data, cut to an allocation length. -/
def State.finishData (s : State) (slot n : Nat) (bs : List Byte) : State := s.finish slot .success 0 0 none (bs.take n)

/-! ### Readiness, sense and inquiry -/

/-- TEST_UNIT_READY (R394). -/
def execTestUnitReady (port : Fin 2) (s : State) : Out :=
  s.scsi port (opcIs 0x00) anyCmd (fun _ => !s.mediaPending) (fun t slot c => t.onLun slot c (fun _ => t.finish slot .success))

/-- REQUEST_SENSE (R394, R403): descriptor format, NO SENSE; it leaves unit attentions pending. -/
def execRequestSense (port : Fin 2) (s : State) : Out :=
  s.scsi port (opcIs 0x03) anyCmd anyCmd (fun t slot c =>
    if bitOf (c.cb 1) 0 then t.finishData slot (c.cb 4) (leBytes 8 0x72) else t.refuseCmd slot .invalidField)

/-- Sixteen upper-case hex digits of the module serial. -/
def serialDigits : List Byte := hexDigits (Config.moduleSerial / 2 ^ 32) 8 ++ hexDigits Config.moduleSerial 8

/-- The bytes of an ASCII text, blank to `n` places. -/
def asciiBytes (n : Nat) (cs : List Char) : List Byte := ((cs.map (fun (c : Char) => leBytes 1 c.toNat)).flatten ++ List.replicate n 0x20).take n

/-- The supported VPD pages (R394). -/
def vpdPages : List Nat := [0x00, 0x80, 0x83, 0xB0, 0xB1, 0xB6]

/-- A VPD page (R394): its peripheral byte, code, length and the contents the spec names. -/
def vpdPage (per page : Nat) : Option (List Byte) :=
  let head (n : Nat) : List Byte := leBytes 1 per ++ leBytes 1 page ++ beBytes 2 n
  let open_ (parts : List (Nat × List Byte)) : List Byte := overlay (Config.hostByte (0x400 + page)) 64 ((0, head 60) :: parts)
  if page = 0x00 then some (head 6 ++ vpdPages.flatMap (leBytes 1))
  else if page = 0x80 then some (head 16 ++ serialDigits)
  else if page = 0x83 then some (open_ [])
  else if page = 0xB0 then some (open_ [(8, beBytes 4 4096)])
  else if page = 0xB1 then some (open_ [])
  else if page = 0xB6 then some (open_ [(4, leBytes 1 1), (16, beBytes 4 64)])
  else none

/-- INQUIRY (R394, R396): a LUN with no attachment reports qualifier 011b. -/
def execInquiry (port : Fin 2) (s : State) : Out :=
  s.scsi port (opcIs 0x12) anyCmd anyCmd (fun t slot c =>
    let on : Bool := match c.poolIndex with
      | some i => t.attached c.queue i
      | none => false
    let per := if on then 0x14 else 0x7F
    let n := c.be 3 2
    if bitOf (c.cb 1) 0 then
      (match vpdPage per (c.cb 2) with
      | some bs => t.finishData slot n bs
      | none => t.refuseCmd slot .invalidField)
    else if c.cb 2 ≠ 0 then t.refuseCmd slot .invalidField
    else t.finishData slot n (overlay (Config.hostByte 0x500) 96
      [(0, leBytes 1 per), (2, leBytes 1 7), (4, leBytes 1 91), (8, asciiBytes 8 ['L', 'A', 'M', 'L', 'E', 'R', 'N', 'O']),
       (16, asciiBytes 16 ['T', 'H', '4', '8', '1', '6']), (32, asciiBytes 4 ['A', '1'])]))

/-! ### Power and the cartridge (R400) -/

/-- The power state that START STOP UNIT asks for, from POWER CONDITION, modifier and START. -/
def startStopPs (pc mod : Nat) (start : Bool) : Option Nat :=
  if pc = 0 && mod = 0 then some (if start then 0 else 3)
  else if pc = 1 && mod = 0 then some 0
  else if pc = 2 && mod ≤ 1 then some (1 + mod)
  else if pc = 3 && mod ≤ 1 then some (3 + mod)
  else none

/-- With IMMED the command completes though what it began goes on. -/
def State.immediate (s : State) (slot : Nat) : State :=
  match s.rcd.ops.find? (fun o => o.slot == slot) with
  | some o => s.endOp o .success
  | none => s

/-- A power state is asked for in `slot`; the command waits for it. -/
def State.powerCommand (s : State) (slot ps : Nat) : State :=
  if s.rcd.ps = ps then (s.psRequest ps).finish slot .success else (s.addOp slot (.power ps)).psRequest ps

/-- START_STOP_UNIT (R400). While no cartridge has a state that attaches, it is served on every LUN (log entry 35). -/
def execStartStopUnit (port : Fin 2) (ins : Option Cartridge) (s : State) : Out :=
  s.scsi port (opcIs 0x1B) noCmd anyCmd (fun t slot c =>
    let free := t.rcd.cart = 0 || t.rcd.cart = 4
    let start := bitOf (c.cb 4) 0
    let loej := bitOf (c.cb 4) 1
    let run (u : State) : State := if bitOf (c.cb 1) 0 then u.immediate slot else u
    let act : State :=
      if loej then
        (if c.cb 4 / 16 ≠ 0 || c.cb 3 % 16 ≠ 0 then t.refuseCmd slot .invalidField
        else run (if start then t.loadCommand slot ins else t.ejectCommand slot))
      else match startStopPs (c.cb 4 / 16) (c.cb 3 % 16) start with
        | some ps => run (t.powerCommand slot ps)
        | none => t.refuseCmd slot .invalidField
    if free then t.onDevice slot c act else t.onLun slot c (fun _ => act))

/-- SEND_DIAGNOSTIC (R380, R394). -/
def execSendDiagnostic (port : Fin 2) (failed : Nat) (s : State) : Out :=
  s.scsi port (opcIs 0x1D) noCmd anyCmd (fun t slot c => t.onLun slot c (fun _ =>
    let code := c.cb 1 / 32
    t.testCommand slot (if bitOf (c.cb 1) 2 || code = 1 then 1 else if code = 2 then 2 else if code = 4 then 15 else 0) failed))

/-! ### Reads, writes, flushes -/

/-- The first LBA of a read, write or verify. -/
def HCmd.lba (c : HCmd) : Nat := if c.opc < 0x80 then c.be 2 4 else c.be 2 8

/-- Its LBAs. -/
def HCmd.blocks (c : HCmd) : Nat := if c.opc < 0x80 then c.be 7 2 else c.be 10 4

/-- A read's LBAs await no write (R399). -/
def State.scsiReadReady (s : State) (c : HCmd) : Bool :=
  !s.mediaPending && (match c.poolIndex with
    | some i => !s.writesOver i c.lba c.blocks
    | none => true)

/-- A read or verify (R394, R397): DPO of a read sets skip3 and skip5. -/
def State.scsiRead (s : State) (port : Fin 2) (opc : Nat) (verify : Bool) : Out :=
  s.scsi port (opcIs opc) noCmd s.scsiReadReady (fun t slot c => t.onLun slot c (fun i =>
    if 4096 < c.blocks then t.refuseCmd slot .invalidField
    else if (t.pool i).zones * 262144 < c.lba + c.blocks then t.refuseCmd slot .lbaRange
    else if c.blocks = 0 then t.finish slot .success
    else t.readCommand slot c.queue i c.lba c.blocks verify (!verify && bitOf (c.cb 1) 4)))

/-- READ_10. -/
def execRead_10 (port : Fin 2) (s : State) : Out := s.scsiRead port 0x28 false

/-- READ_16. -/
def execRead_16 (port : Fin 2) (s : State) : Out := s.scsiRead port 0x88 false

/-- VERIFY_10: BYTCHK 0 only. -/
def execVerify_10 (port : Fin 2) (s : State) : Out := s.scsiRead port 0x2F true

/-- VERIFY_16: BYTCHK 0 only. -/
def execVerify_16 (port : Fin 2) (s : State) : Out := s.scsiRead port 0x8F true

/-- A write (R362, R394, R397). -/
def State.scsiWrite (s : State) (port : Fin 2) (opc : Nat) : Out :=
  s.scsi port (opcIs opc) noCmd (fun _ => s.dataRoom && !s.mediaPending) (fun t slot c =>
    t.onLun slot c (fun i => t.writeCommand slot c i c.lba c.blocks false (bitOf (c.cb 1) 3)))

/-- WRITE_10. -/
def execWrite_10 (port : Fin 2) (s : State) : Out := s.scsiWrite port 0x2A

/-- WRITE_16. -/
def execWrite_16 (port : Fin 2) (s : State) : Out := s.scsiWrite port 0x8A

/-- A SYNCHRONIZE CACHE (R399): the whole device, whatever its range. -/
def State.scsiFlush (s : State) (port : Fin 2) (opc : Nat) : Out :=
  s.scsi port (opcIs opc) noCmd (fun _ => !s.mediaPending) (fun t slot c =>
    t.onLun slot c (fun _ => t.flushCommand slot c (bitOf (c.cb 1) 1)))

/-- SYNCHRONIZE_CACHE_10. -/
def execSynchronizeCache_10 (port : Fin 2) (s : State) : Out := s.scsiFlush port 0x35

/-- SYNCHRONIZE_CACHE_16. -/
def execSynchronizeCache_16 (port : Fin 2) (s : State) : Out := s.scsiFlush port 0x91

/-! ### Logs (R377, R378, R394) -/

/-- A SCSI log page with its header. -/
def scsiLog (page : Nat) (bs : List Byte) : List Byte := leBytes 1 page ++ leBytes 1 0 ++ beBytes 2 (min bs.length 65535) ++ bs

/-- The self-test results page: 20 parameters of 20 bytes, newest first. -/
def State.scsiTests (s : State) : List Byte :=
  (List.range 20).flatMap (fun k =>
    beBytes 2 (k + 1) ++ leBytes 1 3 ++ leBytes 1 16 ++ (match s.rcd.tests[k]? with
      | some t => overlay (Config.hostByte 0x611) 16
          [(0, leBytes 1 (32 * t.1 + t.2.1)), (1, leBytes 1 t.2.2.1), (2, beBytes 2 (min (t.2.2.2 / 10) 65535))]
      | none => leBytes 16 0))

/-- A log page (R394). -/
def State.logSense (s : State) (page : Nat) : Option (List Byte) :=
  if page = 0x00 then some (scsiLog 0 ([0x00, 0x0D, 0x10, 0x15, 0x30, 0x31, 0x32].flatMap (leBytes 1)))
  else if page = 0x0D then some (scsiLog page
    (beBytes 2 0 ++ leBytes 1 3 ++ leBytes 1 2 ++ leBytes 1 0 ++ leBytes 1 (s.kelvin - 273) ++
      beBytes 2 1 ++ leBytes 1 3 ++ leBytes 1 2 ++ leBytes 1 0 ++ [Config.hostByte 0x60D 0]))
  else if page = 0x10 then some (scsiLog page s.scsiTests)
  else if page = 0x15 then some (scsiLog page (overlay (Config.hostByte 0x615) 20 [(0, beBytes 2 0), (3, leBytes 1 16)]))
  else if page = 0x30 then some (scsiLog page s.cartridgePage)
  else if page = 0x31 then some (scsiLog page s.crumbsPage)
  else if page = 0x32 then some (scsiLog page s.beamsPage)
  else none

/-- LOG_SENSE (R394, R519). -/
def execLogSense (port : Fin 2) (s : State) : Out :=
  s.scsi port (opcIs 0x4D) (fun c => c.cb 2 % 64 == 0x31) anyCmd (fun t slot c => t.onAnyLun slot c
    (match t.logSense (c.cb 2 % 64) with
    | some bs => if c.cb 3 ≠ 0 || bitOf (c.cb 1) 0 then t.refuseCmd slot .invalidField else t.finishData slot (c.be 7 2) bs
    | none => t.refuseCmd slot .invalidField))

/-! ### Mode pages (R393, R394) -/

/-- I_T NEXUS LOSS TIME of a port in ms. -/
def State.lossMs (s : State) (port : Nat) : Nat := Tbl.look 2000 s.hc.lossTime port

/-- INITIATOR RESPONSE TIMEOUT of a port in ms. -/
def State.respMs (s : State) (port : Nat) : Nat := Tbl.look 1000 s.hc.respTime port

/-- A byte whose bits in `m` have the value `v` and whose others are free. -/
def partByte (k i m v : Nat) : Byte := (Config.hostByte k i &&& BitVec.ofNat 8 (255 - m)) ||| BitVec.ofNat 8 v

/-- The bits of a mode page that can be changed. -/
def modeMask (page : Nat) : List Byte :=
  if page = 0x02 then overlay zeroByte 16 [(10, leBytes 2 0xFFFF)]
  else if page = 0x0A then leBytes 12 0
  else overlay zeroByte 8 [(4, leBytes 4 0xFFFFFFFF)]

/-- A mode page with the values given: maximum burst, loss time, response timeout. -/
def modeBytes (page burst loss resp : Nat) : List Byte :=
  if page = 0x02 then overlay (Config.hostByte 0x702) 16 [(0, leBytes 1 2), (1, leBytes 1 14), (10, beBytes 2 burst), (14, beBytes 2 0)]
  else if page = 0x0A then overlay (Config.hostByte 0x70A) 12
    [(0, leBytes 1 10), (1, leBytes 1 10), (2, [partByte 0x70A 2 0xE4 0x24]), (3, [partByte 0x70A 3 0xF0 0x10]),
     (5, [partByte 0x70A 5 0x40 0])]
  else overlay (Config.hostByte 0x719) 8
    [(0, leBytes 1 0x19), (1, leBytes 1 6), (2, [partByte 0x719 2 0x0F 6]), (4, beBytes 2 loss), (6, beBytes 2 resp)]

/-- The current mode page of a nexus. -/
def State.modeNow (s : State) (c : HCmd) (page : Nat) : List Byte :=
  modeBytes page (((s.nexusOf c).map Nexus.burst).getD 0) (s.lossMs (c.queue - 65)) (s.respMs (c.queue - 65))

/-- A page as page control asks for it: current, changeable or default; nothing is saved (SP = 0). -/
def State.modePage (s : State) (c : HCmd) (pc page : Nat) : List Byte :=
  if pc = 0 then s.modeNow c page
  else if pc = 1 then (s.modeNow c page).take 2 ++ (modeMask page).drop 2
  else modeBytes page 0 2000 1000

/-- MODE_SENSE_10 (R394): no block descriptor. -/
def execModeSense_10 (port : Fin 2) (s : State) : Out :=
  s.scsi port (opcIs 0x5A) noCmd anyCmd (fun t slot c => t.onLun slot c (fun _ =>
    let pc := c.cb 2 / 64
    let pg := c.cb 2 % 64
    let pages := if pg = 0x3F then [0x02, 0x0A, 0x19] else [pg]
    if pc = 3 || c.cb 3 ≠ 0 || !pages.all (fun p => [0x02, 0x0A, 0x19].contains p) then t.refuseCmd slot .invalidField
    else
      let bs := pages.flatMap (t.modePage c pc)
      t.finishData slot (c.be 7 2) (beBytes 2 (bs.length + 6) ++ leBytes 1 0 ++ [Config.hostByte 0x700 3] ++ leBytes 4 0 ++ bs)))

/-- The pages of a parameter list, each with its code, until it ends; none where a page is cut or not supported. -/
def modePages : Nat → List Byte → Option (List (Nat × List Byte))
  | 0, _ => none
  | n + 1, bs =>
    if bs.isEmpty then some []
    else
      let pg := leNat (bs.take 1) % 64
      let len := if pg = 0x02 then 16 else if pg = 0x0A then 12 else if pg = 0x19 then 8 else 0
      if len = 0 || bs.length < len || leNat ((bs.drop 1).take 1) ≠ len - 2 then none
      else (modePages n (bs.drop len)).map (fun l => (pg, bs.take len) :: l)

/-- A page changes no field that cannot be changed. -/
def State.modeFits (s : State) (c : HCmd) (p : Nat × List Byte) : Bool :=
  ((p.2.zip (s.modeNow c p.1)).zip (modeMask p.1)).drop 2 |>.all (fun e =>
    e.1.1 &&& (e.2 ^^^ 0xFF#8) == e.1.2 &&& (e.2 ^^^ 0xFF#8))

/-- The changeable fields of a page take effect. -/
def State.modeSet (s : State) (c : HCmd) (p : Nat × List Byte) : State :=
  let be (i : Nat) : Nat := leNat ((p.2.drop i).take 2).reverse
  if p.1 = 0x02 then { s with hc := { s.hc with nexuses := s.hc.nexuses.map (fun n =>
      if n.port == c.queue - 65 && n.init == c.init then { n with burst := be 10 } else n) } }
  else if p.1 = 0x19 then { s with hc := { s.hc with
      lossTime := Tbl.put 2000 s.hc.lossTime (c.queue - 65) (be 4)
      respTime := Tbl.put 1000 s.hc.respTime (c.queue - 65) (be 6) } }
  else s

/-- MODE_SELECT_10 (R394, R403): the other nexuses are told of a change. -/
def execModeSelect_10 (port : Fin 2) (s : State) : Out :=
  s.scsi port (opcIs 0x55) noCmd anyCmd (fun t slot c => t.onLun slot c (fun _ =>
    let bs := (t.cmdData c).take (c.be 7 2)
    let skip := 8 + leNat ((bs.drop 6).take 2).reverse
    if c.cb 1 &&& 0x11 ≠ 0x10 then t.refuseCmd slot .invalidField
    else if bs.isEmpty then t.finish slot .success
    else match modePages 64 (bs.drop skip) with
      | none => t.refuseCmd slot .invalidParam
      | some ps =>
        if bs.length < skip || !ps.all (t.modeFits c) then t.refuseCmd slot .invalidParam
        else
          let u := ps.foldl (fun (u : State) p => u.modeSet c p) t
          let u := if u.hc = t.hc then u else u.attention 0x2A01 (fun n => n.port != c.queue - 65 || n.init != c.init)
          u.finish slot .success))

/-! ### Zones (R394, R396) -/

/-- A zone action. -/
def State.scsiZone (s : State) (port : Fin 2) (act : Nat) (a : ZAction) : Out :=
  s.scsi port (actIs 0x94 act) noCmd (fun c => !s.mediaPending && (a != .finish || (match c.poolIndex with
      | some i => s.zoneIdle i
      | none => true))) (fun t slot c =>
    t.onLun slot c (fun i => t.zoneCommand slot c.queue i a (bitOf (c.cb 14) 0) (c.be 2 8)))

/-- CLOSE_ZONE. -/
def execCloseZone (port : Fin 2) (s : State) : Out := s.scsiZone port 1 .close

/-- FINISH_ZONE. -/
def execFinishZone (port : Fin 2) (s : State) : Out := s.scsiZone port 2 .finish

/-- OPEN_ZONE. -/
def execOpenZone (port : Fin 2) (s : State) : Out := s.scsiZone port 3 .open

/-- RESET_WRITE_POINTER (R396). -/
def execResetWritePointer (port : Fin 2) (s : State) : Out := s.scsiZone port 4 .reset

/-- REPORT_ZONES (R394, R396). -/
def execReportZones (port : Fin 2) (s : State) : Out :=
  s.scsi port (actIs 0x95 0) noCmd (fun _ => !s.mediaPending) (fun t slot c => t.onLun slot c (fun i =>
    let opt := c.cb 14 % 64
    if !(opt ≤ 7 || opt = 0x10 || opt = 0x11 || opt = 0x3F) then t.refuseCmd slot .invalidField
    else if (t.pool i).zones * 262144 ≤ c.be 2 8 then t.refuseCmd slot .lbaRange
    else t.finish slot .success 0 0 none (t.zoneReport true i (c.be 2 8) opt (bitOf (c.cb 14) 7) c.alloc)))

/-- READ_CAPACITY_16 (R394). -/
def execReadCapacity_16 (port : Fin 2) (s : State) : Out :=
  s.scsi port (actIs 0x9E 0x10) noCmd (fun _ => !s.mediaPending) (fun t slot c => t.onLun slot c (fun i =>
    t.finishData slot c.alloc (overlay (Config.hostByte 0x800) 32
      [(0, beBytes 8 ((t.pool i).zones * 262144 - 1)), (8, beBytes 4 4096), (14, [partByte 0x800 14 0x80 0])])))

/-- REPORT_LUNS (R394, R396): the attached LUNs. -/
def execReportLuns (port : Fin 2) (s : State) : Out :=
  s.scsi port (opcIs 0xA0) anyCmd anyCmd (fun t slot c =>
    let l := (List.range 32).filter (t.attached c.queue)
    if c.cb 2 = 0 || c.cb 2 = 2 then
      t.finishData slot (c.be 6 4) (beBytes 4 (8 * l.length) ++ leBytes 4 0 ++ l.flatMap (fun n => beBytes 2 n ++ leBytes 6 0))
    else t.refuseCmd slot .invalidField)

/-- The supported operation codes with their service actions. -/
def sasOperations : List (Nat × Option Nat) :=
  sasOpcodes.flatMap (fun o => match sasActions o with
    | some l => l.map (fun a => (o, some a))
    | none => [(o, none)]) ++ (List.range 16).map (fun k => (0xD0 + k, none))

/-- REPORT_SUPPORTED_OPCODES (R394): all commands, or one. -/
def execReportSupportedOpcodes (port : Fin 2) (s : State) : Out :=
  s.scsi port (actIs 0xA3 0x0C) noCmd anyCmd (fun t slot c => t.onLun slot c (fun _ =>
    let opt := c.cb 2 % 8
    let want := c.cb 3
    let act := c.be 4 2
    let entry (e : Nat × Option Nat) : List Byte :=
      leBytes 2 e.1 ++ beBytes 2 (e.2.getD 0) ++ leBytes 1 0 ++ leBytes 1 (b2n e.2.isSome) ++ beBytes 2 (cdbLen e.1)
    let one (on : Bool) : List Byte :=
      if on then leBytes 1 0 ++ leBytes 1 3 ++ beBytes 2 (cdbLen want) ++ leBytes 1 want ++ (cdbMask want).flatMap (leBytes 1) ++ leBytes 1 4
      else leBytes 1 0 ++ leBytes 1 1 ++ leBytes 2 0
    if opt = 0 then
      t.finishData slot (c.be 6 4) (beBytes 4 (8 * sasOperations.length) ++ sasOperations.flatMap entry)
    else if opt = 1 then
      (if (sasActions want).isSome then t.refuseCmd slot .invalidField
      else t.finishData slot (c.be 6 4) (one (sasOperations.contains (want, none))))
    else if opt = 2 then
      (if sasKnown want && (sasActions want).isNone then t.refuseCmd slot .invalidField
      else t.finishData slot (c.be 6 4) (one (sasOperations.contains (want, some act))))
    else t.refuseCmd slot .invalidField))

/-! ### The device's own commands (R395) -/

/-- SAS_BAKE (R336, R395). -/
def execSasBake (port : Fin 2) (s : State) : Out :=
  s.scsi port (opcIs 0xC0) noCmd (fun _ => !s.mediaPending) (fun t slot c => t.onDevice slot c (t.bakeCommand slot))

/-- The 16 bytes of a pool index in a PARTITION report (R395). -/
def State.partitionEntry (s : State) (i : Nat) : List Byte :=
  let e := s.pool i
  leBytes 1 (if e.zones = 0 then 0 else if e.live then 1 else 2) ++ leBytes 1 e.att ++ leBytes 2 0 ++ beBytes 4 e.zones ++
    beBytes 4 ((List.range e.zones).filter (fun j => (s.zone i j).full)).length ++ leBytes 4 0

/-- PARTITION (R395, R396). -/
def execPartition (port : Fin 2) (s : State) : Out :=
  s.scsi port (opcIs 0xC1) noCmd (fun _ => !s.mediaPending) (fun t slot c => t.onDevice slot c
    (let act := c.cb 1 % 32
    let i := c.cb 2
    if act = 0 then (if c.be 4 4 = 0 then t.refuseCmd slot .invalidField else t.createCommand slot (c.be 4 4))
    else if act = 4 then t.finishData slot c.alloc ((List.range 32).flatMap t.partitionEntry)
    else if 31 < i then t.refuseCmd slot .invalidField
    else if act = 1 then t.deleteCommand slot i
    else if act = 2 then t.attachCommand slot c.queue i (bitOf (c.cb 3) 0)
    else if act = 3 then t.detachCommand slot c.queue i
    else t.refuseCmd slot .invalidField))

/-- SAS_SESSION (R326, R327, R395). -/
def execSasSession (port : Fin 2) (s : State) : Out :=
  s.scsi port (opcIs 0xC4) noCmd (fun _ => !s.mediaPending) (fun t slot c =>
    t.onDevice slot c (t.sessionCommand slot (bitOf (c.cb 1) 0)))

/-- An invalid field of a parameter list (R402). -/
def Stat.inList : Stat → Stat
  | .invalidField => .invalidParam
  | x => x

/-- RECORDING_PROFILE (R324, R325, R395). -/
def execRecordingProfile (port : Fin 2) (s : State) : Out :=
  s.scsi port (opcIs 0xC5) noCmd anyCmd (fun t slot c => t.onDevice slot c
    (if bitOf (c.cb 1) 0 then
      (let r := t.setParams (byteNums ((t.cmdData c).take 64))
      r.1.finish slot r.2.inList)
    else t.finish slot .success 0 0 none (((List.range 64).map t.param).flatMap (leBytes 1))))

/-- TIMECODE (R335, R373, R395). -/
def execTimecode (port : Fin 2) (s : State) : Out :=
  s.scsi port (opcIs 0xC6) noCmd anyCmd (fun t slot c => t.onDevice slot c
    (if bitOf (c.cb 1) 0 then
      (let r := t.timecodeSet ((t.cmdData c).take 16) slot
      r.1.finish slot r.2.inList)
    else t.finish slot .success 0 0 none t.timecodeBytes))

/-- The parameter list of ROI SETUP (R398): none where a byte that should be zero is not. -/
def roiOfList (bs : List Byte) : Option Roi :=
  let n (i k : Nat) : Nat := leNat ((bs.drop i).take k).reverse
  if bs.length < 32 || n 15 1 + n 19 1 + n 23 1 + n 27 1 + n 30 2 ≠ 0 then none
  else some ⟨n 0 4, n 4 4, n 8 2, n 10 2, n 12 3, n 16 3, n 20 3, n 24 3, n 28 2⟩

/-- ROI_SETUP (R398): 64 setups; a new one for the same nexus and LUN replaces the old one. -/
def execRoiSetup (port : Fin 2) (s : State) : Out :=
  s.scsi port (opcIs 0xCA) noCmd (fun _ => !s.mediaPending) (fun t slot c => t.onLun slot c (fun i =>
    if c.alloc ≠ 32 then t.refuseCmd slot .invalidField
    else match roiOfList (t.cmdData c) with
      | none => t.refuseCmd slot .invalidParam
      | some r =>
        let u := t.dropSetups (fun p a j => p == port.val && a == c.init && j == i)
        if !r.valid then t.refuseCmd slot .invalidParam
        else if 64 ≤ u.hc.setups.length then t.refuseCmd slot .roiResources
        else ({ u with hc := { u.hc with setups := u.hc.setups ++ [(port.val, c.init, i, r)] } } : State).finish slot .success))

/-- ROI_READ (R337, R338, R398). -/
def execRoiRead (port : Fin 2) (s : State) : Out :=
  s.scsi port (opcIs 0xCB) noCmd (fun _ => !s.mediaPending) (fun t slot c => t.onLun slot c (fun i =>
    match t.hc.setups.find? (fun x => x.1 == port.val && x.2.1 == c.init && x.2.2.1 == i) with
    | none => t.refuseCmd slot .noRoiSetup
    | some x => t.pullCommand slot c.queue i x.2.2.2 (c.be 2 2) c.alloc))

/-- SAS_FORWARDED (R341, R395). -/
def execSasForwarded (port : Fin 2) (s : State) : Out :=
  s.takeCmd (65 + port) (fun c => decide (0xD0 ≤ c.opc) && decide (c.opc ≤ 0xDF)) noCmd anyCmd
    (fun t slot c => t.onDevice slot c (t.forward slot c))

end Sys2Proof.Machine
end

