-- ==== Sys2Proof/Machine/Start.lean ====
section
/-! DEFINITION. Device reset (R462, R502 to R504, R515, R597), the start sequence (R506 to R517, R521, R523), service levels (R518,
R519) and VAUX (R463, R502, R577). -/

namespace Sys2Proof.Machine

/-! ### Device reset -/

/-- The fields a device reset keeps (P and S of R13, R503). -/
def keptFields : List (UnitId × Field) :=
  [(.key, F.KEYMASK_mask), (.thermal, F.THSTAT_shutdown), (.time, F.TMCFG_src), (.time, F.TMCFG_edge), (.time, F.TMSTAT_refbad),
   (.power, F.PWMODE_mode), (.power, F.PWSKIP_skip), (.power, F.PWCAUSE_cause), (.power, F.PWSTRAP_mstr),
   (.power, F.PWSTRAP_ppspol), (.power, F.PWSTRAP_tsrc), (.power, F.PWSTRAP_bootmd), (.power, F.PWWDCNT_count),
   (.sas, F.SAADDR0LO_addr), (.sas, F.SAADDR0HI_addr), (.sas, F.SAADDR1LO_addr), (.sas, F.SAADDR1HI_addr)] ++
  (List.range 12).map (fun i => (UnitId.key, F.KEYSLOT i)) ++ (List.range 48).map (fun b => (UnitId.beam b, F.BWSTAT_retired))

/-- What a core keeps through a device reset: its general registers are undefined (R271), the parity of its SRAM stays. -/
def resetCore (s : State) (c : Nat) : CoreSt :=
  let k := (s.core c).resets + 1
  { CoreSt.none with
    g := (List.range 31).foldl (fun g i => Tbl.put 0 g (i + 1) (Config.coreReg c k (i + 1) % 2 ^ 32)) []
    badWords := (s.core c).badWords
    resets := k }

/-- The tray being written is abandoned where it stands (R503). -/
def State.dropWriting (s : State) : State :=
  match s.tb.writing with
  | some w => s.setPos w.tray.pos (.abandoned w.blocks)
  | none => s

/-- The NOR command that runs is cut. -/
def State.dropNor (s : State) : State :=
  match s.recs.nor with
  | some o => s.norFail o.addr (if o.erase then 65536 else o.data.length) o.data
  | none => s

/-- Every island but island 0 is reset (R503, R504): what lies outside the chip, NOR, unproofed memories, TIMENS and the kept fields
stay; DRAM is not kept. -/
def State.deviceReset (s : State) (cause : Nat) : State :=
  let new := if s.pw.clocked then 2 ^ cause else s.rd .power F.PWCAUSE_cause ||| 2 ^ cause
  let u := s.dropWriting.dropNor
  let z := State.reset
  let t : State := { z with
    pending := u.pending
    regs := u.regs.filter (fun e => keptFields.any (fun p => fieldKey p.1 p.2 == e.1))
    port := u.port
    hostOut := u.hostOut
    mem := u.mem.filter (fun e => decide (0x4000000000 ≤ e.1))
    time := { z.time with ns := u.time.ns, frac := u.time.frac }
    hc := { z.hc with perst := u.hc.perst }
    medium := u.medium
    loader := u.loader
    micro := u.micro
    coefs := u.coefs
    slots := (u.slots.map (fun e => (e.1, { SlotSt.none with now := e.2.now, last := e.2.now }))).filter (fun e => e.2 != SlotSt.none)
    vmotNs := u.vmotNs
    recs := { z.recs with slots := u.recs.slots }
    rg := { z.rg with out := u.rg.out }
    cores := (List.range 9).foldl (fun t c => Tbl.put CoreSt.none t c (resetCore u c)) []
    fw := { z.fw with activated := u.fw.going || u.fw.activated && !u.pw.clocked }
    pw := { u.pw with clocked := false } }
  t.wr .power F.PWCAUSE_cause new

/-- RESET_N_LOW (R502): cause 1. -/
def execResetNLow (s : State) : Out := if s.pw.vaux then .next (s.deviceReset 1) else .next s

/-- SUPPLY_FALL (R502, R577): cause 2. -/
def execSupplyFall (s : State) : Out := if s.pw.vaux then .next (s.deviceReset 2) else .next s

/-- REFERENCE_FAULT (R462): cause 3; TMSTAT.refbad is set and kept. -/
def execReferenceFault (s : State) : Out :=
  if s.pw.vaux then .next ((s.deviceReset 3).setFlag .time F.TMSTAT_refbad true) else .next s

/-- THERMAL_SHUTDOWN (R502, R597): cause 4; THSTAT.shutdown is set and kept. -/
def execThermalShutdown (s : State) : Out :=
  if s.pw.vaux then .next ((s.deviceReset 4).setFlag .thermal F.THSTAT_shutdown true) else .next s

/-- A write of PWCTRL (R524): devreset is a device reset of cause 5. -/
def State.powerControl (s : State) (v : Nat) : State := if bitOf v 0 then s.deviceReset 5 else s

/-- PWCTRL_DEVRESET (R502, R524). -/
def execPwctrlDevreset (r : Requester) (v : Word) (s : State) : Out :=
  live s (s.guardReg r .power 0x54 v.toNat (fun t => t.powerControl v.toNat))

/-- The watchdog time in ns (R524): below 100 ms acts as 100. -/
def State.wdogNs (s : State) : Nat := max 100 (s.rd .power F.PWWDOG_timeout) * 1000000

/-- WATCHDOG_EXPIRE (R515): no kick for the timeout since the keeper was released; cause 6, and recovery mode with the third within
60 s of the first. -/
def execWatchdogExpire (s : State) : Out :=
  let stage := s.rd .power F.PWSTART_stage
  if stage < 4 || stage = 15 || s.time.ns < s.pw.kick + s.wdogNs then .next s
  else
    let recent := s.time.ns :: s.pw.wdog.filter (fun t => decide (s.time.ns < t + 60000000000))
    let t := s.deviceReset 6
    let t : State := { t with pw := { t.pw with wdog := recent } }
    live s (if 3 ≤ recent.length then t.wr .power F.PWMODE_mode 3 else t)

/-- A write of PWWDOG (R515): the timeout is stored, and 0x5A5A restarts the watchdog. -/
def State.watchdogWrite (s : State) (v : Nat) : State :=
  let t := s.wr .power F.PWWDOG_timeout (F.PWWDOG_timeout.of v)
  if F.PWWDOG_kick.of v = 0x5A5A then { t with pw := { t.pw with kick := t.time.ns } } else t

/-- PWWDOG_KICK (R515, R524). -/
def execPwwdogKick (r : Requester) (v : Word) (s : State) : Out :=
  live s (s.guardReg r .power 0x58 v.toNat (fun t => t.watchdogWrite v.toNat))

/-! ### VAUX -/

/-- VAUX_DOWN (R463, R502, R504): all power is lost. NOR, one-time words, the identity and what lies outside the chip stay. -/
def execVauxDown (s : State) : Out :=
  let u := s.deviceReset 0
  .next { u with
    regs := u.regs.filter (fun e => keptFields.any (fun p => (p.1 == .key || p.1 == .sas) && fieldKey p.1 p.2 == e.1))
    mem := u.mem.filter (fun e => decide (0x4100000000 ≤ e.1))
    time := { u.time with ns := 0, frac := 0 }
    micro := []
    coefs := []
    slots := []
    cores := u.cores.map (fun e => (e.1, { e.2 with badWords := [] }))
    vmotNs := 0
    fw := { u.fw with activated := false }
    pw := ⟨false, false, [], 0⟩ }

/-- VAUX_UP (R463, R502, R506): the straps are latched, island 0 loads the fields they give, and a device reset of cause 0 begins. -/
def execVauxUp (bootmd tsrc : Fin 4) (ppspol mstr : Bool) (s : State) : Out :=
  if s.pw.vaux then .next s
  else
    let t : State := { s with pw := ⟨false, true, [], 0⟩, time := { s.time with ns := 0, frac := 0 } }
    let t := ((t.wr .power F.PWSTRAP_bootmd bootmd).wr .power F.PWSTRAP_tsrc tsrc).setFlag .power F.PWSTRAP_ppspol ppspol
    let t := ((t.setFlag .power F.PWSTRAP_mstr mstr).wr .power F.PWMODE_mode bootmd).wr .power F.PWSKIP_skip 0
    .next (((t.wr .time F.TMCFG_src tsrc).setFlag .time F.TMCFG_edge ppspol).wr .power F.PWCAUSE_cause 1)

/-! ### The start sequence -/

/-- START_EDGE (R502, R506, R507, R510): the islands are clocked and proofing begins; the straps' MSTR_N is sampled again. -/
def execStartEdge (mstr : Bool) (s : State) : Out :=
  if !s.pw.vaux || s.pw.clocked then .next s
  else
    let t : State := { s with pw := { s.pw with clocked := true }, rg := { s.rg with claimant := mstr } }
    let t := t.wr .power F.PWSTART_skipped (if t.rd .power F.PWMODE_mode = 0 then 0 else t.rd .power F.PWSKIP_skip)
    let t := t.wr .power F.PWSTART_stage 2
    .next (if bitOf (t.rd .power F.PWCAUSE_cause) 6 then t.raise .power 4 else t)

/-- A range of memory reads as filled by proofing (R509): zeros. -/
def State.proof (s : State) (a n : Nat) : State :=
  { s with mem := s.mem.filter (fun e => decide (e.1 < a) || decide (a + n ≤ e.1)) }

/-- The parity of a core's SRAM is good again. -/
def State.cleanSram (s : State) (c : Nat) : State := s.updCore c (fun x => { x with badWords := [] })

/-- PROOFING_DONE (R509, R510): the groups not skipped hold valid words. -/
def execProofingDone (s : State) : Out :=
  if 2 < s.rd .power F.PWSTART_stage || s.rd .power F.PWSTART_level ≠ 0 then .next s
  else
    let skip := s.rd .power F.PWSTART_skipped
    let t := (s.proof 0x4000200000 0x80000).cleanSram 8
    let t := if bitOf skip 0 then t
      else (List.range 8).foldl State.cleanSram (t.proof 0x4000000000 0x200000)
    let t : State := if bitOf skip 2 then t else { t with micro := [], coefs := [], slots := [] }
    live s (t.wr .power F.PWSTART_stage 3)

/-- LOADER_CHECK (R512): the loader's digest is compared with the fused one; on a match it is copied to keeper SRAM and the keeper
released, on a mismatch the start ends. -/
def execLoaderCheck (s : State) : Out :=
  if s.rd .power F.PWSTART_stage ≠ 3 then .next s
  else
    let bs := s.readBytes (norAddr 0) 65536
    if sha384 bs == Config.loaderDigest then
      let t := ((s.storeBytes (sramBase 8 + 0x70000) bs).wr .keeper F.USTAT_state 3).updCore 8 (fun x => { x with pc := 0x70000 })
      let t : State := { t with pw := { t.pw with kick := t.time.ns } }
      live s (t.wr .power F.PWSTART_stage 4)
    else live s (s.wr .power F.PWSTART_stage 15)

/-- FAULT_N is low (R512, R585): the loader check failed, or fan fault or stop-writing. -/
def State.faultLow (s : State) : Bool := s.rd .power F.PWSTART_stage == 15 || (s.pw.clocked && !s.faultN)

/-- A start that activated new firmware tells the NVMe host (R568). -/
def State.noteActivated (s : State) : State := if s.fw.activated then s.asyncEvent 2 1 3 else s

/-- The minimum service (R519): `keeper` provides it, else the loader. -/
def State.minimum (s : State) (keeper : Bool) : State :=
  let t := (((s.setFlag .power F.PWSTART_provider keeper).setFlag .nvme F.NVCTRL_ready true).setFlag .sas F.SACTRL_ready true)
  let t : State := { t with hc := { t.hc with
    confReady := true
    qcores := Tbl.put 0 (Tbl.put 0 t.hc.qcores 0 0x100) 65 0x100 } }
  ((t.wr .power F.PWSTART_stage 9).setLevel 1).noteActivated

/-- KEEPER_IMAGE_START (R508, R513, R569): a checked image of a normal or raw start is copied and started at its entry, and PCIe
configuration is ready; else the loader provides the minimum service. -/
def execKeeperImageStart (s : State) : Out :=
  if s.rd .power F.PWSTART_stage ≠ 4 then .next s
  else if 2 ≤ s.rd .power F.PWMODE_mode || s.imgFailure 0 ≠ 0 then live s (s.minimum false)
  else
    let t := (s.loadSegment 8 0).updCore 8 (fun x => { x with pc := s.imgNum 0 0x18 4 })
    let t : State := { t with hc := { t.hc with confReady := true }, fw := { t.fw with rev := s.imgNum 0 8 4 } }
    live s (t.wr .power F.PWSTART_stage 5)

/-- A raw start saves the skipped SRAM of job core `n` (R511): words with bad parity are copied as they stand and counted in CPARS. -/
def State.saveSram (s : State) (n : Nat) : State :=
  let t := s.engineStore (0x3FC00000 + n * 0x40000) (s.readBytes (sramBase n) 0x40000)
  t.incSat (.core n) F.CPARS_count (s.core n).badWords.length

/-- The result of training one channel (R487, R516): ready only if every bit passes and the narrower eye is at least 12/64 UI. -/
def State.trainResult (s : State) (pass n : Nat) (eye : Nat × Nat) : State :=
  let t := (s.wr (.channel n) F.DCHEYE_reye eye.1).wr (.channel n) F.DCHEYE_weye eye.2
  let t := t.measure (169 + n) false (min eye.1 eye.2)
  if bitOf pass n && 12 ≤ min eye.1 eye.2 then t.wr .dram F.DCSTAT_ready (t.rd .dram F.DCSTAT_ready ||| 2 ^ n)
  else t.wr (.channel n) F.USTAT_state 5

/-- DRAM_TRAINING_DONE (R511, R516 to R518): all eight channels, one package in half-buffer mode, or no buffer and the minimum service. -/
def execDramTrainingDone (pass : Fin 256) (eyes : List (Nat × Nat)) (s : State) : Out :=
  if s.rd .power F.PWSTART_stage ≠ 5 then .next s
  else
    let t := (List.range 8).foldl (fun t n => t.trainResult pass n ((eyes[n]?).getD (0, 0))) (s.wr .dram F.DCSTAT_ready 0)
    let ready := t.rd .dram F.DCSTAT_ready
    if ready % 16 ≠ 15 && ready / 16 ≠ 15 then live s (t.minimum true)
    else
      let t := if ready = 255 then t else t.setFlag .power F.PWSTART_half true
      let t := if t.rd .power F.PWMODE_mode = 1 && bitOf (t.rd .power F.PWSTART_skipped) 0 then
        (List.range 8).foldl State.saveSram t else t
      live s ((t.setLevel 1).wr .power F.PWSTART_stage 6)

/-! ### Stage 6 -/

/-- The stock routing (R443): the lane of a source. -/
def stockLane (n : Nat) : Option Nat :=
  if n ≤ 8 || (32 ≤ n && n ≤ 65) || (168 ≤ n && n ≤ 192) || n = 280 then some 0
  else if 66 ≤ n && n ≤ 161 then some 1
  else if 200 ≤ n && n ≤ 263 then some 2
  else if 16 ≤ n && n ≤ 27 then some 3
  else if (272 ≤ n && n ≤ 275) || (384 ≤ n && n ≤ 511) then some 4
  else none

/-- The destinations of the stock lanes (R443), as LNDEST's core mask. -/
def stockDest (lane : Nat) : Nat :=
  if lane ≤ 1 then 0x100 else if lane = 2 then 0x20 else if lane = 3 then 0x01 else if lane = 4 then 0x40 else 0

/-- The stock routes and destinations are loaded. -/
def State.stockRoutes (s : State) : State :=
  { s with lanes := { s.lanes with
    route := (List.range 512).foldl (fun t n => match stockLane n with
      | some l => Tbl.put ⟨false, 0⟩ t n ⟨true, l⟩
      | none => t) s.lanes.route } }

/-- The lanes' destinations are loaded. -/
def State.stockDests (s : State) : State :=
  { s with lanes := { s.lanes with
    dest := (List.range 5).foldl (fun t l => Tbl.put ⟨false, 0, false, 0⟩ t l ⟨false, 0, false, stockDest l⟩) s.lanes.dest } }

/-- What a start uses where a record of kind `k` is missing (R498, R523). -/
def State.recMissing (s : State) (k : Nat) : State :=
  if k = 1 then s.stockRoutes
  else if k = 4 || k = 5 then s.recLoad k (Config.norDefault k)
  else if k = 6 then s.recLoad 6 (gainKeys.map (fun _ => 0x400000))
  else s

/-- The current record of kind `k` is loaded, or what stands for it; a slot that has its crust word and fails its check raises
KEEP_RECBAD (R493, R496, R523). -/
def State.recStartLoad (s : State) (k : Nat) : State :=
  let bad : Bool := [0, 1].any (fun x => s.recCrust k x && !s.recCheck k x)
  let t := if bad then s.raise .keeper 22 else s
  match s.recCurrent k with
  | some c => t.recLoad k c.2.2
  | none => t.recMissing k

/-- The ledger is loaded first, since it holds the slot map (R497). -/
def State.loadRecords (s : State) : State := [2, 0, 1, 3, 4, 5, 7, 8, 9].foldl State.recStartLoad s

/-- The microcode, and every slot's configuration, coefficients and state words (R262, R514, R559). -/
def State.loadMicro (s : State) : State :=
  let a := norAddr (imageOff 1 + 320)
  let word (n i : Nat) : Nat := s.readLE (a + 131072 + 1536 * n + 4 * i) 4
  let fields : List Field := Fields.slot.filter (fun f => f.acc == .rw)
  let t : State := { s with
    micro := (List.range 16384).foldl (fun t i => Tbl.put 0 t i (s.readLE (a + 8 * i) 8)) []
    coefs := (List.range 96).foldl (fun t n => (List.range 256).foldl (fun t i => Tbl.put 0 t (256 * n + i) (word n (36 + i) % 2 ^ 24)) t) []
    slots := (List.range 96).foldl (fun t n =>
      let w : Tbl Nat := (List.range 64).foldl (fun t i => Tbl.put 0 t i (word n (292 + i) % 2 ^ 24)) []
      Tbl.put SlotSt.none t n { SlotSt.none with now := ⟨[], [], w⟩, last := ⟨[], [], w⟩ }) [] }
  (List.range 96).foldl (fun t n =>
    (fields.foldl (fun (t : State) (f : Field) => t.wr (.slot n) f (f.of (word n ((f.off - 0x40) / 4)))) t).setFlag (.slot n)
      F.SLCTRL_run false) t

/-- The microcode image is checked and loaded, and the loop engine enabled; refused, the engine stays off (R514). -/
def State.startEngine (s : State) : State :=
  if s.imgFailure 1 = 0 then s.loadMicro.setFlag .engine F.EBCTRL_enable true else s.refuseImage 1

/-- An extension image is placed on Core[7] (R339). -/
def State.extensionJob (s : State) : Bool := s.job 7 0 ≤ 15 && s.imgNum (s.job 7 0) 6 1 == 4

/-- The job table's entry of core `c` is refused by R339. -/
def State.placeRefused (s : State) (c : Nat) : Bool :=
  let n := s.job c 0
  (c ≠ 7 && s.imgNum n 6 1 == 4) || (c ≤ 6 && n ≠ 2 && s.extensionJob)

/-- The entry of core `c` has an image that is accepted (R317, R318, R339). -/
def State.jobOk (s : State) (c : Nat) : Bool := decide (s.job c 0 ≤ 15) && s.imgFailure (s.job c 0) == 0 && !s.placeRefused c

/-- An earlier entry names the same image. -/
def State.jobAgain (s : State) (c : Nat) : Bool := (List.range c).any (fun d => s.job d 0 == s.job c 0)

/-- KCAP0 to KCAP7 of a job table entry (R311, R319). -/
def State.loadApertures (s : State) (c : Nat) : State :=
  (List.range 8).foldl (fun (t : State) a =>
    let v := t.job c (4 + a)
    (((t.wr .keeper (F.kc c (F.KCAP_base a)) (bits v 0 8)).wr .keeper (F.kc c (F.KCAP_valid a)) (bits v 8 1)).wr .keeper
      (F.kc c (F.KCAP_cacheable a)) (bits v 9 1)).wr .keeper (F.kc c (F.KCAP_writable a)) (bits v 10 1)) s

/-- The entry of core `c` is loaded and started (R320). -/
def State.loadJob (s : State) (c : Nat) : State :=
  let n := s.job c 0
  if n = 255 then s
  else if !s.jobOk c then
    if 15 < n || (s.jobAgain c && !s.placeRefused c) then s else s.refuseImage n
  else
    let t := (s.loadSegment c n).cleanSram c
    let t := if s.jobAgain c then t else t.loadMemory n
    let start := if s.job c 3 = 0 then s.imgNum n 0x18 4 else s.job c 3
    let t := ((t.wr .keeper (F.kc c F.KCGUEST_guest) (s.job c 1)).wr .keeper (F.kc c F.KCSTART_start) (start / 4)).loadApertures c
    if bitOf (s.job c 2) 0 then t.coreStart c else t

/-- The stock recorder runs (R321, R518): Core[0] to Core[6] have started with image 2. -/
def State.stockRuns (s : State) : Bool :=
  (List.range 7).all (fun c => s.job c 0 == 2 && s.jobOk c && s.flag .keeper (F.kc c F.KCCTRL_run))

/-- The stock placement of queues on cores and of queue pairs in guests (R321). -/
def State.stockQueues (s : State) : State :=
  let qc := (List.range 67).foldl (fun t q => Tbl.put 0 t q (2 ^ stockCore q)) s.hc.qcores
  (List.range 8).foldl (fun (t : State) g =>
    (t.wr (.guest g) F.GNVMELO_qp (if g < 4 then 0xFF * 2 ^ (8 * g) else 0)).wr (.guest g) F.GNVMEHI_qp
      (if 4 ≤ g then 0xFF * 2 ^ (8 * (g - 4)) else 0)) { s with hc := { s.hc with qcores := qc } }

/-- The beams that the ledger marks retired are retired before the first tray (R490). -/
def State.retireMarked (s : State) : State :=
  (List.range 48).foldl (fun (t : State) b => if bitOf (t.age b).flags 0 then t.retireBeam b else t) s

/-- A power cycle is counted (R376); how unsafe shutdowns are told apart is left open. -/
def State.countCycle (s : State) : State :=
  if bitOf (s.rd .power F.PWCAUSE_cause) 0 then
    { s with recs := { s.recs with cycles := s.recs.cycles + 1, shutdowns := Config.unsafeShutdowns s.recs.shutdowns s.recs.cycles } }
  else s

/-- JOB_LOAD (R262, R320, R440, R443, R490, R496, R507, R514, R523): records, microcode, slots, routes, retirements and job cores; with the
stock recorder running the device gives host service, else the keeper the minimum service. -/
def execJobLoad (s : State) : Out :=
  if s.rd .power F.PWSTART_stage ≠ 6 then .next s
  else
    let t := s.loadRecords.countCycle.startEngine
    let t := t.recStartLoad 6
    let t := (t.stockDests.useParams t.rcd.param).retireMarked
    let t := (List.range 8).foldl State.loadJob t
    let t : State := { t with rcd := { t.rcd with extRun := t.extensionJob && t.jobOk 7 && t.flag .keeper (F.kc 7 F.KCCTRL_run) } }
    live s (if t.stockRuns then (t.stockQueues.wr .power F.PWSTART_stage 7).setLevel 2 else t.minimum true)

/-! ### Stages 7 and 8 -/

/-- STARTUP_LINKS_ENABLE (R507, R521, R530): the ready bits are set and the ring ports enabled; with a cartridge present the spindle
starts, else the start is done. -/
def execStartupLinksEnable (ins : Option Cartridge) (s : State) : Out :=
  if s.rd .power F.PWSTART_stage ≠ 7 then .next s
  else
    let t := ((s.noteActivated.setFlag .nvme F.NVCTRL_ready true).setFlag .sas F.SACTRL_ready true)
    let t := (((t.setFlag .ring F.RNCTRL_porta true).setFlag .ring F.RNCTRL_portb true).bypass false).bypass true
    let t : State := if t.medium.isSome then t else { t with medium := ins }
    live s (if t.medium.isSome && t.flag .engine F.EBCTRL_enable then (t.wr .power F.PWSTART_stage 8).spCommand 1 (t.rcd.ps = 1)
      else t.wr .power F.PWSTART_stage 9)

/-- The beams of a head that are ready. -/
def State.readyBeams (s : State) (h : Nat) : Nat :=
  ((List.range 12).filter (fun k => !s.beamGone (12 * h + k) && s.unitState (.beam (12 * h + k)) != 5)).length

/-- The heads whose sequencer has acquired. -/
def State.goodHeads (s : State) : List Nat :=
  (List.range 4).filter (fun h => (s.hd h).acquired && s.hState h != hFault)

/-- The attachments kept with this cartridge are made again, the defaults else (R359). -/
def State.restoreAttachments (s : State) : State :=
  if s.recs.attSerial = s.rcd.serial then
    s.recs.atts.foldl (fun (t : State) e => if (t.pool e.1).zones = 0 then t else t.setPool e.1 { t.pool e.1 with att := e.2 }) s
  else s

/-- The level with the heads acquired (R518): 4 with eight channels, four heads and no beam retired or in fault, else 3 with a head of two
ready beams, else as it was. -/
def State.mediaLevel (s : State) : Nat :=
  let now := s.rd .power F.PWSTART_level
  if !s.flag .engine F.EBCTRL_enable || !s.goodHeads.any (fun h => decide (2 ≤ s.readyBeams h)) then now
  else if !s.flag .power F.PWSTART_half && s.goodHeads.length = 4 && (List.range 4).all (fun h => s.readyBeams h == 12) then 4
  else 3

/-- MEDIA_READY (R518, R521, R522): every head that can acquire has done so, the cartridge's state is known and what R136 asks for is done;
heads with fewer than two ready beams are cleared, commands that wait may run, and the hosts are told. -/
def execMediaReady (s : State) : Out :=
  let busy := (List.range 4).any (fun h => !(s.hd h).acquired && s.hState h != hFault)
  if s.medium.isNone || s.rcd.cart = 0 || s.rcd.cart = 4 || s.rcd.media || s.rcd.ckpt.isSome || s.rcd.ckptWanted ||
      (s.rcd.cmDue && s.rcd.cmStatus == 0) || !s.tb.copiesDue.isEmpty || !s.tb.copiesOut.isEmpty || busy then .next s
  else
    let t := s.restoreAttachments
    let few := (List.range 4).filter (fun h => decide (t.readyBeams h < 2))
    let t := few.foldl (fun (t : State) h =>
      let m := t.rd .tray F.TBHEADS_enable
      if bitOf m h then t.wr .tray F.TBHEADS_enable (m - 2 ^ h) else t) t
    let t : State := { t with rcd := { t.rcd with media := true } }
    let t := if t.rd .power F.PWSTART_level = 2 then t.setLevel t.mediaLevel else t
    let t := (t.raise .power 2)
    let t := if t.rd .power F.PWSTART_stage = 8 then t.wr .power F.PWSTART_stage 9 else t
    let t := (t.vendorEvent 0).attention 0x2800
    live s (t.rcd.ops.foldl (fun t o => match o.kind with
      | .load => t.endOp o .success
      | _ => t) t)

end Sys2Proof.Machine
end

