-- ==== Sys2Proof/Machine/Pair.lean ====
section
/-! DEFINITION. Messages of other devices (R542, R543, R545, R548) and the pair link: pairing (R549), mirroring (R550), heartbeats and
takeover (R551), and what the stock recorder does in a pair (R552, R553). -/

namespace Sys2Proof.Machine

/-! ### Pairing (R549, R551) -/

/-- PLSTAT.state (R555). -/
def State.plState (s : State) : Nat := s.rd .pair F.PLSTAT_state

/-- A role as it acts: 3 acts as 0 (R555). -/
def roleActs (r : Nat) : Nat := if r = 3 then 0 else r

/-- Every zone of the cartridge with its write pointer, keyed as the zones. -/
def State.zoneWps (s : State) : List (Nat × Nat) := s.rcd.zones.map (fun e => (e.1, e.2.wp))

/-- The pairing holds again (R549, R553): after a split the zones' write pointers are exchanged before any data. -/
def State.pairHolds (s : State) : State :=
  let t := (s.wr .pair F.PLSTAT_state 2).wr .pair F.PLSTAT_missed 0
  let split := s.pl.lost
  let t : State := { t with pl := { t.pl with paired := true, lost := false, alone := false, exch := split } }
  if split && t.rd .pair F.PLCTRL_role = 1 then
    { t with pl := { t.pl with
      queue := ([3], 7, some (.zones (t.zoneWps.map (fun e => (e.1, Tbl.look 1 t.pl.split e.1 - 1, e.2))))) :: t.pl.queue } }
  else t

/-- The roles are compared (R549); after a loss only once both have been written again (R551). -/
def State.pairEval (s : State) : State :=
  let r := roleActs (s.rd .pair F.PLCTRL_role)
  let p := s.rd .pair F.PLSTAT_peer
  if s.rd .pair F.PLSTAT_lanes = 0 || (s.pl.lost && !(s.pl.renewed && s.pl.peerRenewed)) then s
  else if r = 0 || p = 0 then s.wr .pair F.PLSTAT_state 1
  else if r = p then (s.wr .pair F.PLSTAT_state 3).raise .pair 3
  else if s.plState = 2 then s
  else s.pairHolds

/-- PAIR_UP (R549). -/
def execPairUp (lanes : Fin 5) (peer : Fin 3) (serial : Nat) (s : State) : Out :=
  if lanes.val = 0 || lanes.val = 3 || s.rd .pair F.PLSTAT_lanes ≠ 0 then .next s
  else
    let t := (s.wr .pair F.PLSTAT_lanes lanes).wr .pair F.PLSTAT_peer peer
    let t : State := { t with pl := { t.pl with serial := serial } }
    live s ((t.raise .pair 1).pairEval)

/-- A mirror descriptor completes (R550): its status record, and its event. -/
def State.endMirror (s : State) (words : List Nat) (code : Nat) : State :=
  let w (i : Nat) : Nat := (words[i]?).getD 0
  let a := w 7 + w 8 * 2 ^ 32
  let t := if a = 0 then s else s.engineStore a (leBytes 4 (code * 2 ^ 28) ++ leBytes 4 (w 1) ++ leBytes 8 0)
  if code = 0 then (if bitOf (w 0) 31 then t.raise .pair 6 else t) else t.raise .pair 8

/-- The units of a descriptor that were released meanwhile are free now. -/
def State.releaseHeld (s : State) : State :=
  let due := s.pl.held.filter (fun a => !s.awaitsMirror a)
  due.foldl (fun (t : State) a => t.releaseUnit a) { s with pl := { s.pl with held := s.pl.held.filter (fun a => s.awaitsMirror a) } }

/-- Every descriptor that waits completes with code 2 (R551). -/
def State.failMirrors (s : State) : State :=
  let q := s.pl.queue
  (q.foldl (fun (t : State) m => t.endMirror m.1 2) ({ s with pl := { s.pl with queue := [] } } : State)).releaseHeld

/-- The link goes down (R549). -/
def State.pairDown (s : State) : State :=
  if s.rd .pair F.PLSTAT_lanes = 0 then s
  else
    let t := (s.wr .pair F.PLSTAT_lanes 0).wr .pair F.PLSTAT_peer 0
    let t := if t.plState = 4 || t.plState = 5 then t else t.wr .pair F.PLSTAT_state 0
    (t.raise .pair 2).failMirrors

/-- PAIR_DOWN (R549). -/
def execPairDown (s : State) : Out := live s s.pairDown

/-- LINK_PLL_UNLOCK (R462): the link of the PLL goes down and TIME_PLLUNLOCK is raised. -/
def execLinkPllUnlock (pll : Fin 3) (s : State) : Out :=
  let down (t : State) (n : Fin 2) : State :=
    if t.flag .sas (F.saUp n) then (((t.setFlag .sas (F.saUp n) false).wr .sas (F.saRate n) 0).raise .sas 2) else t
  let t := if pll.val = 0 then s.pcieDown.nvReset
    else if pll.val = 1 then down (down s 0) 1
    else s.pairDown
  live s (t.raise .time 14)

/-! ### Loss, takeover and split (R551 to R553) -/

/-- The sequence number of the first tray that is still to be written. -/
def State.firstUnwritten (s : State) : Nat := ((s.tb.sealed[0]?).map Tray.seq).getD s.sealSeq

/-- What both sides record of a split (R553): every zone's write pointer in a checkpoint, and the pair-split record. -/
def State.recordSplit (s : State) (secondary : Bool) : State :=
  if !s.writable then s
  else
    let t := s.postJournal [jSplit secondary s.firstUnwritten s.pl.serial]
    let t : State := { t with rcd := { t.rcd with zoneDirty := (t.rcd.zoneDirty ++ t.rcd.zones.map Prod.fst).eraseDups } }
    t.startCkpt

/-- The secondary takes over (R551, R552): its namespaces are attached for writing as its record names them. -/
def State.takeOver (s : State) : State :=
  ((((s.wr .pair F.PLSTAT_state 5).raise .pair 5).restoreAttachments).vendorEvent 3).recordSplit true

/-- The peer no longer holds up a command (R552). -/
def State.freeGates (s : State) : State :=
  (s.rg.gates.filter (fun g => g.2.1.contains peerDevice)).foldl (fun t g => t.answerGate g.1 peerDevice .success) s

/-- The first flush that a primary completes without its peer is named in a crumb (R552). -/
def State.noteAlone (s : State) : State :=
  if s.pl.alone then s
  else match s.rcd.flushes with
    | f :: _ => ({ s with pl := { s.pl with alone := true } } : State).crumb 3 hwReq .pair 0x90 f.id 0
    | [] => s

/-- The third heartbeat in a row is missed (R551). -/
def State.losePeer (s : State) : State :=
  let t : State := { s with pl := { s.pl with
    paired := false, lost := true, renewed := false, peerRenewed := false, exch := false
    split := s.zoneWps.foldl (fun t e => Tbl.put 0 t e.1 (e.2 + 1)) [] } }
  let t := t.failMirrors
  let role := t.rd .pair F.PLCTRL_role
  if role = 2 && !t.flag .pair F.PLCTRL_manual then t.takeOver
  else
    let t := (((t.wr .pair F.PLSTAT_state 4).raise .pair 4).vendorEvent 3).freeGates
    if role = 1 then (t.noteAlone).recordSplit false else t

/-- HEARTBEAT_MISS (R551): missed heartbeats of a side that was paired are counted; three in a row lose the peer. -/
def execHeartbeatMiss (after : Bool) (s : State) : Out :=
  let n := if after then 1 else s.rd .pair F.PLSTAT_missed + 1
  let t := s.wr .pair F.PLSTAT_missed (min n 255)
  live s (if s.pl.paired && 3 ≤ n then t.losePeer else t)

/-- HEARTBEAT_SEND (R551). -/
def execHeartbeatSend (s : State) : Out :=
  if s.rd .pair F.PLSTAT_lanes = 0 then .next s
  else live s (({ s with pl := { s.pl with kicked := false } } : State).ringSend (.heartbeat s.pl.kicked))

/-- A write of PLKICK (R551). -/
def State.pairKick (s : State) (v : Nat) : State :=
  if v % 65536 = 0x5A5A then { s with pl := { s.pl with kicked := true } } else s

/-- PLKICK_WRITE (R551). -/
def execPlkickWrite (r : Requester) (v : Word) (s : State) : Out :=
  live s (s.guardReg r .pair 0x4C v.toNat (fun t => t.pairKick v.toNat))

/-- A write of PLCTRL (R549, R551): takeover takes effect in peer lost on a secondary; a write without it renews the role. -/
def State.pairControl (s : State) (v : Nat) : State :=
  let t := (s.wr .pair F.PLCTRL_role (bits v 0 2)).setFlag .pair F.PLCTRL_manual (bitOf v 2)
  if bitOf v 3 then (if t.plState = 4 && t.rd .pair F.PLCTRL_role = 2 then t.takeOver else t)
  else ({ t with pl := { t.pl with renewed := true } } : State).pairEval

/-- PLCTRL_ROLE (R549, R551, R553): `peer` has been written anew too. -/
def execPlctrlRole (r : Requester) (v : Word) (peer : Option (Fin 3)) (s : State) : Out :=
  let t : State := match peer with
    | some p => if s.rd .pair F.PLSTAT_lanes = 0 then s
        else ({ s with pl := { s.pl with peerRenewed := true } } : State).wr .pair F.PLSTAT_peer p
    | none => s
  live s (t.guardReg r .pair 0x40 v.toNat (fun t => t.pairControl v.toNat))

/-- PLCTRL_TAKEOVER (R551). -/
def execPlctrlTakeover (r : Requester) (v : Word) (s : State) : Out :=
  live s (s.guardReg r .pair 0x40 v.toNat (fun t => t.pairControl v.toNat))

/-! ### Mirroring (R550) -/

/-- A descriptor's kind or a field is invalid (R550). -/
def mirrorBad (words : List Nat) : Bool :=
  let w (i : Nat) : Nat := (words[i]?).getD 0
  let k := w 0 % 16
  let a := w 2 + w 3 * 2 ^ 32
  k == 0 || decide (3 < k) || (w 7 + w 8 * 2 ^ 32) % 16 != 0 ||
  (k == 1 && (a % 4096 != 0 || !inBurst a || w 4 == 0 || decide (4096 < w 4) || !inBurst (a + 4096 * w 4 - 1) || decide (63 < w 5)))

/-- MIRROR_SEND (R550): the oldest descriptor is sent; data waits while the peer has no room and until the zones are exchanged. -/
def execMirrorSend (room peerOk : Bool) (s : State) : Out :=
  match s.pl.queue with
  | [] => .next s
  | (words, _, coord) :: rest =>
    let w (i : Nat) : Nat := (words[i]?).getD 0
    let data : Bool := w 0 % 16 == 1
    let first : Bool := s.rd .pair F.PLCTRL_role == 1 || coord.isSome
    if s.plState ≠ 2 || !first then .next s
    else
      let t : State := { s with pl := { s.pl with queue := rest } }
      if mirrorBad words then live s ((t.endMirror words 3).releaseHeld)
      else if data && (!room || s.pl.exch) then .next s
      else
        let pages := if data then (List.range (w 4)).map (fun i => s.readLE (w 2 + w 3 * 2 ^ 32 + 4096 * i) 4096) else []
        let t := match coord with
          | some c => t.ringSend (.pairCoord c)
          | none => t.ringSend (.mirror words pages)
        let t := if data then t.count 192 (w 4) else t
        live s ((t.endMirror words (if data && !peerOk then 4 else 0)).releaseHeld)

/-- The record of a mirror descriptor in the receive ring (R550). -/
def State.mirrorRecord (s : State) (words : List Nat) (addr : Nat) : State :=
  let w (i : Nat) : Nat := (words[i]?).getD 0
  let h := s.rd .pair F.PLRXHEAD_head
  let base := s.rd .pair F.PLRXBASELO_base * 2 ^ 16 + s.rd .pair F.PLRXBASEHI_base * 2 ^ 32
  let ws := [w 0, w 1, w 4, w 5, w 6] ++ (List.range 7).map (fun i => w (9 + i)) ++ [addr % 2 ^ 32, addr / 2 ^ 32, 0, 0]
  ((s.engineStore (base + 64 * h) (ws.flatMap (leBytes 4))).wr .pair F.PLRXHEAD_head (h + 1)).raise .pair 7

/-- The receive ring is full: the record before PLRXTAIL stays free. -/
def State.mirrorFull (s : State) : Bool :=
  (s.rd .pair F.PLRXHEAD_head + 1) % 1024 == s.rd .pair F.PLRXTAIL_tail

/-- The stock recorder of a secondary records mirrored data at the same LBAs (R552); data of a zone that is not at that LBA is dropped. -/
def State.recordMirror (s : State) (addr n i lba : Nat) : State :=
  let j := lba / 262144
  let z := s.zone i j
  let drop := (List.range n).foldl (fun (t : State) k => t.releaseUnit (addr + 4096 * k)) s
  if !s.writable || z.full || z.wp ≠ lba % 262144 || 262144 < z.wp + n || s.rd .power F.PWSTART_level < 2 then drop
  else match s.withEntry i j with
    | none => drop
    | some (t, e) =>
      let t := t.setZone i j { z with st := if z.st = .explicitOpen then .explicitOpen else .implicitOpen, wp := z.wp + n, entry := e }
      { t with tb := { t.tb with
        dataQ := t.tb.dataQ ++ [⟨false, e, n, lba, addr, 0, 0, 6, false, [], 0, 0⟩] } }

/-! ### What other devices ask of the stock recorder (R548, R552, R553) -/

/-- The write pointers of the peer are compared with this side's (R553): a zone that either side has written since the split is finished
on both and counted; nothing more is mirrored into it. -/
def State.mergeZones (s : State) (ws : List (Nat × Nat × Nat)) : State :=
  let mine (k : Nat) : Bool := (Tbl.look ZoneSt.none s.rcd.zones k).wp + 1 != Tbl.look 1 s.pl.split k
  let peer (k : Nat) : Bool := ws.any (fun x => x.1 == k && x.2.1 != x.2.2)
  let keys := ((s.rcd.zones.map Prod.fst) ++ ws.map (fun x => x.1)).eraseDups.filter (fun k => mine k || peer k)
  let t := keys.foldl (fun (t : State) k =>
    let u := (t.finishZone (k / 4096) (k % 4096)).1
    { u with rcd := { u.rcd with diverged := u.rcd.diverged + 1 } }) s
  let t : State := { t with pl := { t.pl with
    exch := false
    split := []
    queue := t.pl.queue.filter (fun m =>
      let w (i : Nat) : Nat := (m.1[i]?).getD 0
      !(w 0 % 16 == 1 && keys.contains (zoneKey (w 5) (w 6 / 262144)))) } }
  t.releaseHeld

/-- What another device asks or answers (R548, R552, R553); `dev` is its device number, or that of the peer. -/
def State.carryOut (s : State) (dev : Nat) (c : Coord) : State :=
  let group : Bool := dev == peerDevice || s.param 0xA == 1
  match c with
  | .session isEnd t id =>
    let r := if group then s.changeSession isEnd t none else (s, .success)
    r.1.answer dev id r.2
  | .bake id =>
    let x := if group then s.bakeStat else .success
    ((if group && x = .success then s.needMedium.beginBake else s).answer dev id x)
  | .timecode base epoch id =>
    let ok : Bool := tcSetOk base (tcR (s.rd .time F.TCRATE_num) s.tcDen)
    if !group then s.answer dev id .success
    else if ok then (s.setTimecode base epoch).answer dev id .success else s.answer dev id .invalidField
  | .flush id =>
    if group && s.writable then
      let n := s.flushId
      let t := s.needMedium
      ({ t with rg := { t.rg with owed := t.rg.owed ++ [(n, dev, id)] } } : State).startFlush
    else s.answer dev id .success
  | .done id _ code => s.answerGate id dev (Stat.ofCode code)
  | .record station => ({ s with rg := { s.rg with recorder := station } } : State).vendorEvent 2
  | .full station => if s.rg.recorder = station && s.param 0xA == 2 then s.nextRecorder else s
  | .ns create nsid zones =>
    if s.manageStat ≠ .success then s
    else if create then (if (s.pool nsid).zones = 0 && s.rcd.gzones + zones ≤ zonesOnCartridge then
        ((s.addNamespace nsid zones).nsChanged).startCkpt else s)
    else if (s.pool nsid).live then ((s.deleteNamespace nsid).nsChanged).startCkpt else s
  | .zones ws =>
    let mine := s.zoneWps.map (fun e => (e.1, Tbl.look 1 s.pl.split e.1 - 1, e.2))
    let t := s.mergeZones ws
    if s.rd .pair F.PLCTRL_role = 2 then t.mirror [3] (some (.zones mine)) else t

/-- The stock recorder listens: it runs, and Core[6] is not left stopped. -/
def State.coordRuns (s : State) : Bool := decide (2 ≤ s.rd .power F.PWSTART_level) && !(s.core 6).dead

/-- MIRROR_RECEIVE (R550, R552): the secondary places data in its burst buffer while it has space, checks each unit against its tag, writes a
record to its receive ring, and records it; a marker or control descriptor is carried out. -/
def execMirrorReceive (words pages tags : List Nat) (addr : Nat) (coord : Option Coord) (s : State) : Out :=
  let w (i : Nat) : Nat := (words[i]?).getD 0
  if s.plState ≠ 2 then .next s
  else match coord with
    | some c => if s.coordRuns then live s (s.carryOut peerDevice c) else .next s
    | none =>
      if s.rd .pair F.PLCTRL_role ≠ 2 || s.mirrorFull then .next s
      else if w 0 % 16 = 1 then
        (if !s.unitsFree addr (w 4) || !inBurst addr || pages.length ≠ w 4 then .next s
        else if (pages.zip tags).any (fun p => decide (crc24 (leBytes 4096 p.1) ≠ p.2 % 2 ^ 24)) then
          live s (s.ringSend (.mirrorStatus (w 1) 4))
        else
          let t := ((s.useUnits addr (w 4) true).landPages addr pages).mirrorRecord words addr
          let t := t.ringSend (.mirrorStatus (w 1) 0)
          let t := t.wr .pair F.PLRXTAIL_tail (t.rd .pair F.PLRXHEAD_head)
          live s (t.recordMirror addr (w 4) (w 5) (w 6)))
      else live s ((s.mirrorRecord words 0).ringSend (.mirrorStatus (w 1) 0))

/-! ### Messages (R542, R543, R545) -/

/-- RING_MESSAGE_FRAME (R542, R543, R545, R548): a message for this device is delivered once and acknowledged; any other goes on, a head passing
it between its ports. -/
def execRingMessageFrame (src dst seq tag : Nat) (data : List Byte) (coord : Option Coord) (bad member portB : Bool) (s : State) : Out :=
  if bad then live s s.ringBad
  else if 992 < data.length then live s (s.ringViol 2 src dst)
  else if dst ≠ s.rd .join F.JNSTAT_device || !((s.side portB).opened) then live s (s.ringSend .forward)
  else if !member then live s ((s.ringViol 5 src dst).ringSend .forward)
  else match coord with
    | none => live s (s.receiveMessage src seq tag data)
    | some c =>
      if Tbl.look 0 s.rg.seen src = seq + 1 then live s (s.ringSend (.ack src seq 0))
      else
        let t : State := { s with rg := { s.rg with seen := Tbl.put 0 s.rg.seen src (seq + 1) } }
        let t := t.ringSend (.ack src seq 0)
        live s (if t.coordRuns then t.carryOut src c else t)

end Sys2Proof.Machine
end

