-- ==== Sys2Proof/Machine/Bus.lean ====
section
/-! DEFINITION. The register window (R45, R46, R51 to R57): what every register reads as, the reads that have an effect (R53), what
a write to each register does, and the remote windows (R544). -/

namespace Sys2Proof.Machine

/-! ### What registers read as -/

/-- Byte `o` of the identity unit (R48 to R50): the module serial, the silicon revision, the grade, die kinds and reserved bytes as the
spec gives them. -/
def identByteAt (o : Nat) : Nat :=
  let i := o % 32
  if 0x14 ≤ i then 0
  else if o < 0x60 then
    if i < 8 then Config.moduleSerial / 256 ^ i % 256
    else if i = 0x0E then (if Config.gradeX then 0x58 else 0x43)
    else if i = 0x0F then 0xA1
    else (Config.identByte o).toNat
  else if i = 7 then (o - 0x60) / 32
  else if i = 6 then (Config.identByte o).toNat % 25 + 1
  else (Config.identByte o).toNat

/-- A word of the identity unit. -/
def identWord (o : Nat) : Nat :=
  identByteAt o + identByteAt (o + 1) * 2 ^ 8 + identByteAt (o + 2) * 2 ^ 16 + identByteAt (o + 3) * 2 ^ 24

/-- The clock of an island as CISTAT codes it (R458, R475). -/
def islandClock (i : Nat) : Nat :=
  if i = 0 then 0
  else if 2 ≤ i && i ≤ 11 || i = 77 then 2
  else if 13 ≤ i && i ≤ 21 then 3
  else if i = 22 then 4
  else if 24 ≤ i && i ≤ 27 then 10 + (i - 24)
  else if 28 ≤ i && i ≤ 75 then 10 + (i - 28) / 12
  else if i = 79 || i = 80 then 6
  else if i = 82 || i = 83 then 7
  else if i = 85 || i = 86 then 9
  else if i = 88 then 8
  else if 90 ≤ i && i ≤ 93 then 10 + (i - 90)
  else if 94 ≤ i && i ≤ 98 then 5
  else 1

/-- CISTAT (R475). -/
def State.cistat (s : State) : Nat :=
  let i := s.rd .time F.CISEL_island
  if 100 ≤ i then 0
  else (Config.islandMargin i s.time.ns) % 4096 * 2 ^ 20 + islandClock i * 2 ^ 8 + 1

/-- Registers of the tray builder that show more than stored fields (R107, R109, R113). -/
def State.trayWord (s : State) (o : Nat) : Nat :=
  if o = 0x44 then s.storedWord .tray o + s.tb.sealed.length * 2 ^ 12 + s.tb.staging.length
  else if o = 0x50 then s.read.tbSeqHi.getD (s.storedWord .tray o)
  else if o = 0x64 then
    let z := s.zent (s.rd .tray F.TBZSEL_entry)
    b2n z.valid * 2 ^ 31 + z.nsid * 2 ^ 24 + z.nszone * 2 ^ 12 + z.gzone
  else if o = 0x68 then (s.zent (s.rd .tray F.TBZSEL_entry)).wp
  else if o = 0x74 then Tbl.look s.tb.hwDefault s.tb.hw (s.rd .tray F.TBHWSEL_entry)
  else s.storedWord .tray o

/-- Registers of a head (R201, R171). -/
def State.headWord (s : State) (h o : Nat) : Nat :=
  if o = 0x68 then
    let x := Tbl.look 0 s.layTrim (16 * h + s.rd (.head h) F.HLAYSEL_layer)
    x % 65536 * 65536 + x / 65536
  else s.storedWord (.head h) o

/-- Registers of a slot (R254, R266). -/
def State.slotWord (s : State) (n o : Nat) : Nat :=
  if o = 0xC4 then s.coefWord n (s.rd (.slot n) F.SLCSEL_index)
  else if o = 0xCC then (s.slot n).last.word (s.rd (.slot n) F.SLXSEL_index)
  else s.storedWord (.slot n) o

/-- Registers of the loop engine (R264, R266). -/
def State.engineWord (s : State) (o : Nat) : Nat :=
  let w := Tbl.look 0 s.micro (s.rd .engine F.EBMCSEL_index)
  if o = 0x44 then s.storedWord .engine o + s.rd .engine F.EBCTRL_enable
  else if o = 0x54 then w % 2 ^ 32
  else if o = 0x58 then s.read.mcHi.getD (w / 2 ^ 32)
  else s.storedWord .engine o

/-- SMSTAT, SMCHSTAT and the residue (R433). -/
def State.moverWord (s : State) (o : Nat) : Nat :=
  let n := s.rd .mover F.SMCHSEL_channel
  let l := Tbl.look (0, 0, 0) s.eng.last n
  if o = 0x40 then
    (match s.eng.running with | some r => r * 2 ^ 16 + 2 ^ 15 | none => 0) + s.eng.order.length
  else if o = 0x48 then
    match Tbl.look none s.eng.chans n with
    | some c => l.1 * 2 ^ 28 + c.owner * 2 ^ 24 + (if s.eng.running = some n then 2 else 1)
    | none => l.1 * 2 ^ 28 + l.2.1 * 2 ^ 24
  else if o = 0x4C then l.2.2 % 2 ^ 32
  else if o = 0x50 then l.2.2 / 2 ^ 32
  else s.storedWord .mover o

/-- HSSTAT (R433). -/
def State.hashWord (s : State) (o : Nat) : Nat :=
  if o = 0x40 then
    match s.eng.hashRun with
    | some r => r.2 * 2 ^ 24 + 2 ^ 15 + s.eng.hashQ.length + 1
    | none => s.eng.hashQ.length
  else s.storedWord .hash o

/-- DCRTSTAT (R433). -/
def State.dramWord (s : State) (o : Nat) : Nat :=
  if o = 0x4C then
    let p := s.rd .dram F.DCRTSEL_port
    let x := Tbl.look (0, 0, false) s.eng.ports p
    if 97 ≤ p then 0 else x.2.1 * 2 ^ 17 + b2n x.2.2 * 2 ^ 16 + x.1
  else s.storedWord .dram o

/-- The mask of the pending lanes from lane `lo` on. -/
def State.lnPend (s : State) (lo : Nat) : Nat :=
  ((List.range 32).filter (fun n => s.lanePending (lo + n))).foldl (fun a n => a + 2 ^ n) 0

/-- Registers of the event unit (R455), for reader `q`. -/
def State.eventWord (s : State) (q o : Nat) : Nat :=
  if o = 0x44 then
    let r := Tbl.look ⟨false, 0⟩ s.lanes.route (s.rd .event F.EVRSEL_source)
    b2n r.enable * 2 ^ 31 + r.lane
  else if o = 0x4C then
    let d := s.laneDest (s.rd .event F.LNSEL_lane)
    b2n d.ring * 2 ^ 31 + d.vector * 2 ^ 24 + b2n d.msix * 2 ^ 16 + d.cores
  else if o = 0x50 then s.lnPend 0
  else if o = 0x54 then s.lnPend 32
  else if o = 0x60 then
    let n := s.rd .event F.LNSEL_lane
    ((s.lanes.route.filter (fun e => e.2.enable && e.2.lane == n && (match UnitId.ofSrc e.1 with
      | some u => s.evOut u != 0
      | none => false))).map Prod.fst).foldl min 0x3FF
  else if 0x84 ≤ o && o ≤ 0xA0 then (s.crumbs.latched[(o - 0x84) / 4]?).getD 0
  else if o = 0xA8 then s.storedWord .event o + s.crumbs.queue.length
  else if o = 0xC0 then Tbl.look 0 s.crumbs.sw (2 * q)
  else if o = 0xC4 then Tbl.look 0 s.crumbs.sw (2 * q + 1)
  else s.storedWord .event o

/-- Registers of the time unit (R331, R475), for reader `q`. -/
def State.timeWord (s : State) (q o : Nat) : Nat :=
  if o = 0x40 then s.time.ns % 2 ^ 32
  else if o = 0x44 then (Tbl.look none s.read.tmHi q).getD (s.time.ns / 2 ^ 32)
  else if o = 0x64 then s.read.ppsHi.getD (s.storedWord .time o)
  else if o = 0x78 then s.cistat
  else if 0x90 ≤ o && o < 0xB0 && o % 8 = 4 then (Tbl.look none s.read.trgHi ((o - 0x90) / 8)).getD (s.storedWord .time o)
  else s.storedWord .time o

/-- The commands outstanding on a queue. -/
def State.outOn (s : State) (p : Nat → Bool) : Nat := (s.slotsWhere (fun c => p c.queue)).length

/-- Registers of the NVMe unit (R385). -/
def State.nvmeWord (s : State) (o : Nat) : Nat :=
  let q := s.rd .nvme F.NVQSEL_queue
  if o = 0x44 then
    b2n s.hc.limited * 2 ^ 18 + b2n s.nvRdy * 2 ^ 17 + b2n s.hc.en * 2 ^ 16 + s.outOn (fun k => decide (k ≤ 64))
  else if o = 0x4C then (if 64 < q then 0 else Tbl.look 0 s.hc.qcores q)
  else if o = 0x50 then (if 64 < q then 0 else (s.waitingOn q).length * 2 ^ 16 + s.outOn (fun k => k == q))
  else s.storedWord .nvme o

/-- Registers of the SAS unit (R407, R409). -/
def State.sasWord (s : State) (o : Nat) : Nat :=
  let q := s.rd .sas F.SAQSEL_queue
  let e := Tbl.look ⟨0, false, 0⟩ s.hc.inits (s.rd .sas F.SAINSEL_entry)
  if o = 0x60 then s.outOn (fun k => k == 66) * 2 ^ 16 + s.outOn (fun k => k == 65)
  else if o = 0x68 then (if q < 65 then 0 else Tbl.look 0 s.hc.qcores q)
  else if o = 0x74 then e.addr % 2 ^ 32
  else if o = 0x78 then e.addr / 2 ^ 32
  else if o = 0x7C then b2n e.valid * 2 ^ 8 + e.guest
  else s.storedWord .sas o

/-- Registers of the ring unit (R547). -/
def State.ringWord (s : State) (o : Nat) : Nat :=
  let x := s.side (s.flag .ring F.RNRSEL_ring)
  if o = 0x74 then x.stale % 2 ^ 32
  else if o = 0x78 then x.stale / 2 ^ 32
  else if o = 0x80 then x.mask % 2 ^ 32
  else if o = 0x84 then x.mask / 2 ^ 32
  else if o = 0x88 then x.held % 2 ^ 32
  else if o = 0x8C then x.held / 2 ^ 32
  else if o = 0xAC then (if s.rd .ring F.RWSEL_window = 15 then 0 else Tbl.look 0 s.rg.rwmap (s.rd .ring F.RWSEL_window))
  else s.storedWord .ring o

/-- CSTAT (R313): what the core waits for beside the stored fields. -/
def State.cstat (s : State) (c : Nat) : Nat :=
  s.storedWord (coreUnit c) 0x40 + (match (s.core c).wait with
    | some w => if w.kind ≤ 2 then 2 ^ 13 else if w.kind = 3 then 2 ^ 12 else 0
    | none => 0)

/-- PWWDCNT (R515, R525): the watchdog resets within the last 60 s. -/
def State.wdogCount (s : State) : Nat := (s.pw.wdog.filter (fun t => decide (s.time.ns < t + 60000000000))).length

/-- What the register at offset `o` of `u` reads as for requester number `q`. -/
def State.unitWord (s : State) (q : Nat) (u : UnitId) (o : Nat) : Nat :=
  if o < 0x20 then s.headerWord u o
  else if u.src.isSome && o = 0x28 then s.evOut u
  else match u with
  | .device => if 0x40 ≤ o then directoryWord ((o - 0x40) / 4) else s.storedWord u o
  | .identity => if 0x40 ≤ o then identWord o else s.storedWord u o
  | .tray => s.trayWord o
  | .laser h =>
    if o = 0x44 then (let i := s.rd u F.LPTSEL_index; if i < 144 then Tbl.look 0 s.lpt (256 * h + i) else 0) else s.storedWord u o
  | .head h => s.headWord h o
  | .stepper n =>
    if o = 0x64 then s.tableEntry n (s.rd u F.STTSEL_index)
    else if o = 0x6C then Tbl.look 0 s.gear (32 * n + s.rd u F.STGSEL_zone) else s.storedWord u o
  | .slot n => s.slotWord n o
  | .engine => s.engineWord o
  | .mover => s.moverWord o
  | .hash => s.hashWord o
  | .dram => s.dramWord o
  | .channel n => if o = 0xA4 then Config.refreshRate n s.time.ns % 4 else s.storedWord u o
  | .event => s.eventWord q o
  | .time => s.timeWord q o
  | .nvme => s.nvmeWord o
  | .sas => s.sasWord o
  | .ring => s.ringWord o
  | .core n => if o = 0x40 then s.cstat n else s.storedWord u o
  | .keeper => if o = 0x40 then s.cstat 8 else s.storedWord u o
  | .power => if o = 0x5C then s.wdogCount else s.storedWord u o
  | .fan =>
    if o = 0x4C then (match s.th.pulse with
      | some t => if s.time.ns < t + 1000000000 then s.storedWord u o else 0
      | none => 0)
    else s.storedWord u o
  | _ => s.storedWord u o

/-- A register of a counter view or of the counter pod's array (R453, R454), for reader `q`. -/
def State.ctrWord (s : State) (q place e o : Nat) : Nat :=
  let i := ctrPhys place e
  let v := Tbl.look 0 s.ctr.val i
  let flag := Tbl.look false s.ctr.flag (512 * place + e)
  let l := match Tbl.look none s.read.ct q with
    | some l => if l.place = place && l.entry = e then l else ⟨place, e, v / 2 ^ 32, flag, Tbl.look 0 s.ctr.wraps i⟩
    | none => ⟨place, e, v / 2 ^ 32, flag, Tbl.look 0 s.ctr.wraps i⟩
  if o = 0 then v % 2 ^ 32
  else if o = 4 then b2n l.flag * 2 ^ 31 + l.hi
  else if o = 8 then b2n flag * 2 ^ 31 + l.wraps
  else 0

/-- The header of a ring view pod (R540): a pod whose children are the station headers, filled on the master alone. -/
def State.viewPodWord (s : State) (portB : Bool) (o : Nat) : Nat :=
  let ns := (List.range 64).filter (fun n => (s.view portB n).isSome)
  let heads : Bool := !portB && ns.any (fun n => bits ((s.view portB n).getD 0) 48 7 != 0)
  let has (k : Nat) : Bool := ns.any (fun n => bits (s.stationWord portB n 0x08) k 1 != 0 ||
    bits (s.stationWord portB n 0x08) 0 3 == (if k = 8 then 5 else 6))
  if ns.isEmpty then 0
  else if o = 0x00 then (if heads then 0x85 else 0x84) * 65536 + 1
  else if o = 0x04 then UnitId.ringPod.base / 256
  else if o = 0x08 then 2 + b2n (has 8) * 256 + b2n (has 9) * 512
  else if o = 0x0C then
    let ev := ns.filter (fun n => bits (s.stationWord portB n 0x0C) 0 1 != 0)
    (ev.map (fun n => (if portB then 448 else 384) + n)).foldl min 0x3FF * 65536 + b2n (!ev.isEmpty) * 2
  else if o = 0x14 then 2 ^ 24 + 64 * 2 ^ 14 + (if portB then 0x207000 else 0x202000) / 256
  else if o = 0x1C then (ns.map (fun n => bits (s.stationWord portB n 0x1C) 16 8)).foldl min 255 * 65536 + 0xFFFF
  else 0

/-- A word of the ring views (R540). -/
def State.ringView (s : State) (a : Nat) : Nat :=
  if 0x201000 ≤ a && a < 0x201020 then s.viewPodWord false (a - 0x201000)
  else if 0x202000 ≤ a && a < 0x206000 && (a - 0x202000) % 256 < 32 then
    s.stationWord false ((a - 0x202000) / 256) ((a - 0x202000) % 256)
  else if 0x206000 ≤ a && a < 0x206020 then s.viewPodWord true (a - 0x206000)
  else if 0x207000 ≤ a && a < 0x20B000 && (a - 0x207000) % 256 < 32 then
    s.stationWord true ((a - 0x207000) / 256) ((a - 0x207000) % 256)
  else 0

/-- The word at window offset `a`, a multiple of 4, as requester number `q` reads it (R45, R46, R52). -/
def State.wordAt (s : State) (q a : Nat) : Nat :=
  if !s.pw.clocked then 0
  else match UnitId.ofOffset a with
  | some u => if u.hasRegister (a - u.base) then s.unitWord q u (a - u.base) else 0
  | none =>
    match ctrPlaceOf a with
    | some (p, e, o) => s.ctrWord q p e o
    | none => s.ringView a

/-! ### Reads that have an effect (R53) -/

/-- The effect of a read of the word at window offset `a` by requester number `q` (R53). -/
def State.readEffect (s : State) (q a : Nat) : State :=
  if !s.pw.clocked then s
  else match ctrPlaceOf a with
  | some (p, e, o) =>
    if o = 0 then
      let i := ctrPhys p e
      { s with read := { s.read with ct := Tbl.put none s.read.ct q (some ⟨p, e, Tbl.look 0 s.ctr.val i / 2 ^ 32,
        Tbl.look false s.ctr.flag (512 * p + e), Tbl.look 0 s.ctr.wraps i⟩) } }
    else s
  | none =>
    match UnitId.ofOffset a with
    | some .tray =>
      if a - UnitId.tray.base = 0x4C then
        { s with read := { s.read with tbSeqHi := some (s.storedWord .tray 0x50) } } else s
    | some .time =>
      let o := a - UnitId.time.base
      if o = 0x40 then { s with read := { s.read with tmHi := Tbl.put none s.read.tmHi q (some (s.time.ns / 2 ^ 32)) } }
      else if o = 0x60 then { s with read := { s.read with ppsHi := some (s.storedWord .time 0x64) } }
      else if 0x90 ≤ o && o < 0xB0 && o % 8 = 0 then
        { s with read := { s.read with trgHi := Tbl.put none s.read.trgHi ((o - 0x90) / 8) (some (s.storedWord .time (o + 4))) } }
      else s
    | some .engine =>
      if a - UnitId.engine.base = 0x54 then
        { s with read := { s.read with
            mcHi := some (Tbl.look 0 s.micro (s.rd .engine F.EBMCSEL_index) / 2 ^ 32) } }
      else s
    | some (.head h) => if a - headBase h = 0x200 then s.wr (.head h) F.HCLKSTAT_missing 0 else s
    | _ => s

/-- A read of the word at window offset `a` by requester number `q`: its value, and its effect (R52, R53). -/
def State.busRead (s : State) (q a : Nat) : State × Nat := (s.readEffect q a, s.wordAt q a)

/-! ### Writes -/

/-- A write of TMCFG (R467): a new source starts acquiring, or leaves the clock free. -/
def State.tmCfg (s : State) (v : Nat) : State :=
  let old := s.rd .time F.TMCFG_src
  let t := s.storeReg .time 0x54 v
  let new := t.rd .time F.TMCFG_src
  if old = new then t
  else if new = 0 || (new = 1 && t.rnState false = rnMember) then t.tmEnter tmAcquiring
  else t.tmEnter tmFree

/-- A write to a register of the time unit. -/
def State.writeTime (s : State) (r : Requester) (o v : Nat) : State :=
  if o = 0x50 then
    match v % 4 with
    | 1 => s.tmLoadNow r
    | 2 => s.tmLoadEdge r
    | 3 => s.setFlag .time F.TMSTAT_armed false
    | _ => s
  else if o = 0x54 then s.tmCfg v
  else if o = 0x6C then s.setRate (signed 32 v) (signed 32 v)
  else if o = 0xC0 then s.trgAck v
  else if o = 0xD8 then s.tcEpochHi r v
  else s.storeReg .time o v

/-- A route entry is written (R440): a lane that becomes pending sends its message. -/
def State.setRoute (s : State) (n v : Nat) : State :=
  let r : Route := ⟨F.EVRDATA_enable.of v == 1, F.EVRDATA_lane.of v⟩
  let t : State := { s with lanes := { s.lanes with route := Tbl.put ⟨false, 0⟩ s.lanes.route n r } }
  if !s.lanePending r.lane && t.lanePending r.lane && !Tbl.look false t.lanes.sent r.lane then State.noteWrap s (t.laneMessage r.lane)
  else t

/-- A write to a register of the event unit. -/
def State.writeEvent (s : State) (r : Requester) (o v : Nat) : State :=
  if o = 0x44 then s.setRoute (s.rd .event F.EVRSEL_source) v
  else if o = 0x4C then
    let d : LaneDest := ⟨F.LNDEST_ring.of v == 1, F.LNDEST_vector.of v, F.LNDEST_msix.of v == 1, F.LNDEST_cores.of v⟩
    { s with lanes := { s.lanes with dest := Tbl.put ⟨false, 0, false, 0⟩ s.lanes.dest (s.rd .event F.LNSEL_lane) d } }
  else if o = 0x58 then (bitsSet v).foldl (fun t b => t.rearm b) s
  else if o = 0x5C then (bitsSet v).foldl (fun t b => t.rearm (32 + b)) s
  else if o = 0x80 then s.crSel v
  else if o = 0xC0 then { s with crumbs := { s.crumbs with sw := Tbl.put 0 s.crumbs.sw (2 * r.num) v } }
  else if o = 0xC4 then { s with crumbs := { s.crumbs with sw := Tbl.put 0 s.crumbs.sw (2 * r.num + 1) v } }
  else if o = 0xC8 then s.crSwcmd r v
  else s.storeReg .event o v

/-- A write to a register of the tray builder. -/
def State.writeTray (s : State) (r : Requester) (o v : Nat) : State :=
  if o = 0x40 then s.tbCtrl v
  else if o = 0x64 then s.tbZid v
  else if o = 0x68 then s.tbZwp v
  else if o = 0x6C then
    let t := if bitOf v 1 then s.hwZero else s
    if bitOf v 0 then t.hwValid else t
  else if o = 0x74 then s.tbHwData r v
  else s.storeReg .tray o v

/-- A write to a register of a head. -/
def State.writeHead (s : State) (r : Requester) (h o v : Nat) : State :=
  if o = 0x40 then s.seqCommand h (F.HSEQCMD_cmd.of v) (F.HSEQCMD_layer.of v) (F.HSEQCMD_group.of v) (bitOf v 31)
  else if o = 0x68 then
    { s with layTrim := Tbl.upd 0 s.layTrim (16 * h + s.rd (.head h) F.HLAYSEL_layer) (fun x =>
      x / 65536 * 65536 + F.HLAYDATA_trim.of v) }
  else if 0x80 ≤ o && o < 0x98 then s.hadcCfg h ((o - 0x80) / 4) v
  else if o = 0x10C then s.hbgReq r.num h v
  else s.storeReg (.head h) o v

/-- A write to a register of a slot (R247, R254, R255, R258). -/
def State.writeSlot (s : State) (n o v : Nat) : State :=
  if o = 0x40 then s.slCtrl n v
  else if isSlotConfig o then s.slConfig n o v
  else if o = 0x78 then (if bitOf v 1 then s.bankSwap n else s)
  else if o = 0x7C then s.slTune n v
  else if 0x80 ≤ o && o ≤ 0x90 then s.tuneReg n o v
  else if o = 0xC0 then s.slCsel n v
  else if o = 0xC4 then s.slCdata n v
  else if o = 0xCC then s.slXdata n v
  else s.storeReg (.slot n) o v

/-- A write to a register of a stepper channel. -/
def State.writeStepper (s : State) (n o v : Nat) : State :=
  if o = 0x40 then s.stCtrl n v
  else if o = 0x48 then s.stPos n v
  else if o = 0x4C then s.stTarget n v
  else if o = 0x64 then s.stTable n v
  else if o = 0x6C then
    { s with gear := Tbl.put 0 s.gear (32 * n + s.rd (.stepper n) F.STGSEL_zone) (F.STGDATA_ratio.of v) }
  else if o = 0x74 then s.stFollow n v
  else s.storeReg (.stepper n) o v

/-- A write to a register of core `c`'s unit (R313): the ring's base and length may not change while sampling is on (R310). -/
def State.writeCore (s : State) (r : Requester) (c o v : Nat) : State :=
  let u := coreUnit c
  if o = 0x60 then s.smpControl c v
  else if (o = 0x68 || o = 0x6C) && s.flag u F.CSMPCTL_enable then s.refuse r.num u 3 (u.base + o) v
  else if c = 8 && 0x100 ≤ o && o < 0x300 && o % 0x40 = 0 then s.kcControl ((o - 0x100) / 0x40) v
  else s.storeReg u o v

/-- A write to a register of the NVMe unit: queue assignments are held by queue (R385). -/
def State.writeNvme (s : State) (o v : Nat) : State :=
  if o = 0x40 then s.nvCtrl v
  else if o = 0x4C then
    (if 64 < s.rd .nvme F.NVQSEL_queue then s
     else { s with hc := { s.hc with qcores := Tbl.put 0 s.hc.qcores (s.rd .nvme F.NVQSEL_queue) (v % 512) } })
  else s.storeReg .nvme o v

/-- Change the initiator entry that SAINSEL selects (R407). -/
def State.updInit (s : State) (f : InitEnt → InitEnt) : State :=
  { s with hc := { s.hc with inits := Tbl.upd ⟨0, false, 0⟩ s.hc.inits (s.rd .sas F.SAINSEL_entry) f } }

/-- A write to a register of the SAS unit (R407, R409). -/
def State.writeSas (s : State) (o v : Nat) : State :=
  if o = 0x68 then
    (if s.rd .sas F.SAQSEL_queue < 65 then s
     else { s with hc := { s.hc with qcores := Tbl.put 0 s.hc.qcores (s.rd .sas F.SAQSEL_queue) (v % 512) } })
  else if o = 0x74 then s.updInit (fun e => { e with addr := e.addr / 2 ^ 32 * 2 ^ 32 + v })
  else if o = 0x78 then s.updInit (fun e => { e with addr := v * 2 ^ 32 + e.addr % 2 ^ 32 })
  else if o = 0x7C then s.updInit (fun e => { e with valid := bitOf v 8, guest := v % 8 })
  else s.storeReg .sas o v

/-- A write to a register of the ring unit: the bypasses follow RNCTRL (R530). -/
def State.writeRing (s : State) (o v : Nat) : State :=
  if o = 0x40 then ((s.storeReg .ring o v).bypass false).bypass true
  else if o = 0x90 then s.rnRel v
  else if o = 0xAC then
    (if s.rd .ring F.RWSEL_window = 15 then s
     else
      let m := bits v 31 1 * 2 ^ 31 + bits v 16 12 * 2 ^ 16 + bits v 0 6
      { s with rg := { s.rg with rwmap := Tbl.put 0 s.rg.rwmap (s.rd .ring F.RWSEL_window) m } })
  else s.storeReg .ring o v

/-- A write to a register of the laser unit (R126). -/
def State.writeLaser (s : State) (h o v : Nat) : State :=
  let u : UnitId := .laser h
  if o = 0x44 then
    let i := s.rd u F.LPTSEL_index
    let t : State := if i < 144 then { s with lpt := Tbl.put 0 s.lpt (256 * h + i) v } else s
    t.wr u F.LPTSEL_index (i + 1)
  else s.storeReg u o v

/-- A one-time word of the key slot is written: KEYMASK tells it from then on (R58). -/
def State.writeKey (s : State) (o v : Nat) : State :=
  let t := s.storeReg .key o v
  if 0x40 ≤ o && o ≤ 0x6C then t.wr .key F.KEYMASK_mask (t.rd .key F.KEYMASK_mask ||| 2 ^ ((o - 0x40) / 4)) else t

/-- A permitted whole-word write of `v` to the register at offset `o` of unit `u` takes effect. -/
def State.applyWrite (s : State) (r : Requester) (u : UnitId) (o v : Nat) : State :=
  if o < 0x20 then (if o = 0x10 && bitOf v 0 then s.lockTree u else s)
  else if u.src.isSome && o = 0x24 then State.noteWrap s (State.afterEv s (s.wr u F.EVENA v) u)
  else if u.src.isSome && o = 0x2C then s.raiseAll u v
  else if u.src.isSome && o = 0x30 then s.wr u F.EVRAW (s.rd u F.EVRAW &&& (v ^^^ 0xFFFFFFFF))
  else match u with
  | .time => s.writeTime r o v
  | .event => s.writeEvent r o v
  | .key => s.writeKey o v
  | .power => if o = 0x54 then s.powerControl v else if o = 0x58 then s.watchdogWrite v else s.storeReg u o v
  | .nvme => s.writeNvme o v
  | .sas => s.writeSas o v
  | .keeper => s.writeCore r 8 o v
  | .core n => s.writeCore r n o v
  | .mover => if o = 0x54 then s.smAbort r v else s.storeReg u o v
  | .dram => if o = 0x54 then s.dcTrain r.num v else s.storeReg u o v
  | .engine => if o = 0x58 then s.mcCommit v else s.storeReg u o v
  | .slot n => s.writeSlot n o v
  | .spindle => if o = 0x40 then s.spCommand (v % 16) (bitOf v 4) else s.storeReg u o v
  | .stepper n => s.writeStepper n o v
  | .vcm n =>
    if o = 0x40 then
      let t := s.wr u F.VCCTRL_enable (v % 2)
      if bitOf v 1 then t.vcmRamp n else t
    else s.storeReg u o v
  | .fan => if o = 0x40 then (s.storeReg u o v).refreshForce else s.storeReg u o v
  | .media =>
    if o = 0x44 then s.mrBaseHi v else if o = 0x50 then s.mrsTail v else if o = 0x60 then s.mbgSkip v else s.storeReg u o v
  | .tray => s.writeTray r o v
  | .head h => s.writeHead r h o v
  | .laser h => s.writeLaser h o v
  | .beam b => if o = 0x40 then (if bitOf v 0 then s.retireBeam b else s) else s.storeReg u o v
  | .ring => s.writeRing o v
  | .join => if o = 0x40 then (s.storeReg u o v).rejoin else s.storeReg u o v
  | .pair => if o = 0x40 then s.pairControl v else if o = 0x4C then s.pairKick v else s.storeReg u o v
  | _ => s.storeReg u o v

/-- A requester may clear flags in a place of the counters (R54, R454). -/
def State.mayClear (s : State) (r : Requester) (place : Nat) : Bool :=
  match r with
  | .keeper => true
  | .core n => decide (place < 8) && s.guestOfCore n.val == place
  | _ => false

/-- A whole-word write to a counter view or the counter pod's array (R453, R454): a flag written 1 clears. -/
def State.writeCounter (s : State) (r : Requester) (place e o off v : Nat) : State :=
  if !s.mayClear r place then s.violation r .counterPod 3 off v
  else if o = 8 && bitOf v 31 then { s with ctr := { s.ctr with flag := Tbl.put false s.ctr.flag (512 * place + e) false } }
  else s

/-- A write of `n` bytes of value `v` at window offset `off` by requester `r`, outside the remote windows; `pc` is the address of the
store that makes it, which NORCMD checks (R560). -/
def State.busWrite (s : State) (r : Requester) (off n v pc : Nat) : State :=
  if n = 4 && off % 4 = 0 && s.pw.clocked && (ctrPlaceOf off).isSome then
    match ctrPlaceOf off with
    | some (p, e, o) => s.writeCounter r p e o off v
    | none => s
  else if n = 4 && s.pw.clocked && off = UnitId.nor.base + 0x48 then s.norCommand r pc v
  else s.guard r off n v (fun t =>
    match UnitId.ofOffset off with
    | some u => t.applyWrite r u (off - u.base) v
    | none => t)

/-! ### Remote windows (R544) -/

/-- A window offset lies in a remote window. -/
def inRemote (off : Nat) : Bool := decide (0x210000 ≤ off) && decide (off < 0x300000)

/-- Where an access to a remote window leads. -/
inductive RemoteTo where
  | nowhere
  | here (off : Nat)
  | there (device off : Nat)
deriving DecidableEq, Repr

/-- Where the access at window offset `off` leads: nowhere for an invalid window or a ring pod, here for this device's own number. -/
def State.remoteTo (s : State) (off : Nat) : RemoteTo :=
  let m := Tbl.look 0 s.rg.rwmap ((off - 0x210000) / 0x10000)
  let dev := bits m 16 12
  let blk := bits m 0 6
  let target := blk * 0x10000 + (off - 0x210000) % 0x10000
  if !bitOf m 31 || (32 ≤ blk && blk ≤ 47) then .nowhere
  else if dev = s.rd .join F.JNSTAT_device then .here target
  else .there dev target

/-- A remote access leaves the device and waits for its reply; a requester has one outstanding at most. -/
def State.askRemote (s : State) (q dev off : Nat) (w : Option Nat) : State :=
  ({ s with rg := { s.rg with remote := s.rg.remote ++ [(q, dev, off, w)] } } : State).ringSend (.request dev off w)

end Sys2Proof.Machine
end

