-- ==== Sys2Proof/Machine/FleranCode.lean ====
section
/-! DEFINITION. The words of Fleran instructions (R280, R281): their encoding, and the decoder, which finds no instruction in an illegal
word. -/

namespace Sys2Proof.Machine

/-! ### Operation codes -/

/-- The func of a register operation (R282). -/
def AluOp.func : AluOp → Nat
  | .add => 0x000 | .sub => 0x001 | .and => 0x002 | .or => 0x003 | .xor => 0x004 | .andn => 0x005
  | .sll => 0x008 | .srl => 0x009 | .sra => 0x00A | .clt => 0x00C | .cltu => 0x00D
  | .mul => 0x010 | .mulh => 0x011 | .mulhu => 0x012 | .div => 0x014 | .divu => 0x015 | .rem => 0x016 | .remu => 0x017
  | .clz => 0x018 | .popc => 0x019 | .bswap => 0x01A

/-- The register operation of a func (R282). -/
def AluOp.ofFunc : Nat → Option AluOp
  | 0x000 => some .add | 0x001 => some .sub | 0x002 => some .and | 0x003 => some .or | 0x004 => some .xor
  | 0x005 => some .andn | 0x008 => some .sll | 0x009 => some .srl | 0x00A => some .sra | 0x00C => some .clt
  | 0x00D => some .cltu | 0x010 => some .mul | 0x011 => some .mulh | 0x012 => some .mulhu | 0x014 => some .div
  | 0x015 => some .divu | 0x016 => some .rem | 0x017 => some .remu | 0x018 => some .clz | 0x019 => some .popc
  | 0x01A => some .bswap | _ => none

/-- CLZ, POPC and BSWAP use no rb. -/
def AluOp.unary : AluOp → Bool
  | .clz | .popc | .bswap => true
  | _ => false

/-- The op of an immediate operation (R283). -/
def ImmOp.op : ImmOp → Nat
  | .addi => 0x01 | .andi => 0x02 | .ori => 0x03 | .xori => 0x04 | .clti => 0x05 | .cltiu => 0x06

/-- The op of a load (R284). -/
def LoadOp.op : LoadOp → Nat
  | .lb => 0x10 | .lbu => 0x11 | .lh => 0x12 | .lhu => 0x13 | .lw => 0x14 | .lwu => 0x15

/-- The op of a store (R284). -/
def StoreOp.op : StoreOp → Nat
  | .sb => 0x18 | .sh => 0x19 | .sw => 0x1A

/-- The func of an atomic (R284). -/
def AmoOp.func : AmoOp → Nat
  | .swap => 0 | .amoadd => 1 | .amoand => 2 | .amoor => 3 | .cas => 4

/-- The atomic of a func. -/
def AmoOp.ofFunc : Nat → Option AmoOp
  | 0 => some .swap | 1 => some .amoadd | 2 => some .amoand | 3 => some .amoor | 4 => some .cas | _ => none

/-- The op of a conditional branch (R285). -/
def BrOp.op : BrOp → Nat
  | .beq => 0x20 | .bne => 0x21 | .blt => 0x22 | .bge => 0x23 | .bltu => 0x24 | .bgeu => 0x25

/-! ### Encoding -/

/-- A word of formats R, I, S, B and E: op, the two register fields, and the low half (R280). -/
def flerWord (op x y low : Nat) : Nat := op * 2 ^ 26 + x * 2 ^ 21 + y * 2 ^ 16 + low

/-- A low half of formats R and E. -/
def flerLow (rb f : Nat) : Nat := rb * 2 ^ 11 + f

/-- The word of an instruction (R280, R281). -/
def flerEncode : FInstr → Nat
  | .alu op rd ra rb => flerWord 0x00 rd ra (flerLow rb op.func)
  | .imm op rd ra v => flerWord op.op rd ra v.toNat
  | .shi k rd ra n => flerWord 0x07 rd ra (k.val * 32 + n.val)
  | .ldhi rd v => flerWord 0x08 rd 0 v.toNat
  | .addpch rd v => flerWord 0x09 rd 0 v.toNat
  | .pref ra v => flerWord 0x0A 0 ra v.toNat
  | .load op rd ra v => flerWord op.op rd ra v.toNat
  | .store op rs ra v => flerWord op.op rs ra v.toNat
  | .amo op rd ra rb => flerWord 0x1E rd ra (flerLow rb op.func)
  | .branch op ra rb off => flerWord op.op ra rb off.toNat
  | .j off => 0x28 * 2 ^ 26 + off.toNat
  | .jal off => 0x29 * 2 ^ 26 + off.toNat
  | .jalr rd ra v => flerWord 0x2A rd ra v.toNat
  | .rdc rd k => flerWord 0x30 rd 0 k
  | .wrc ra k => flerWord 0x31 0 ra k
  | .tret => flerWord 0x32 0 0 0
  | .trap v => flerWord 0x33 0 0 v.toNat
  | .inv n => flerWord 0x34 0 0 n
  | .halt => flerWord 0x35 0 0 0
  | .post rd ra q => flerWord 0x38 rd ra q.toNat
  | .take rd ra q => flerWord 0x39 rd ra q
  | .give rd ra q => flerWord 0x3A rd ra q
  | .wait rd ra rb k => flerWord 0x3B rd ra (flerLow rb k)
  | .stamp rd => flerWord 0x3C rd 0 0
  | .raise n => flerWord 0x3D 0 0 n
  | .fence => flerWord 0x3E 0 0 0
  | .yield ra => flerWord 0x3F 0 ra 0

/-- The operands of an instruction are ones its encoding admits: an unused rb is zero, and STAMP names an even register from 2 to
30 (R282, R291, R292). -/
def FInstr.wf : FInstr → Bool
  | .alu op _ _ rb => !op.unary || rb.val == 0
  | .wait _ _ rb k => k.val == 0 || rb.val == 0
  | .stamp rd => rd.val != 0 && rd.val % 2 == 0
  | _ => true

/-! ### Decoding -/

/-- The low half as an immediate. -/
def immOf (w : Nat) : BitVec 16 := BitVec.ofNat 16 w

/-- A register field. -/
def regOf (n : Nat) : Fin 32 := Fin.ofNat 32 n

/-- An instruction, if a condition on the fields it does not use holds. -/
def legal (c : Bool) (i : FInstr) : Option FInstr := if c then some i else none

/-- Formats R (R282, R284). -/
def decodeR (amo : Bool) (x y low : Nat) : Option FInstr :=
  let rb := regOf (low / 2 ^ 11)
  if amo then (AmoOp.ofFunc (low % 2 ^ 11)).map (fun op => .amo op (regOf x) (regOf y) rb)
  else
    match AluOp.ofFunc (low % 2 ^ 11) with
    | some op => legal (!op.unary || rb.val == 0) (.alu op (regOf x) (regOf y) rb)
    | none => none

/-- SHI (R283). -/
def decodeShi (x y low : Nat) : Option FInstr :=
  match low / 32 with
  | 0 => some (.shi 0 (regOf x) (regOf y) (regOf low))
  | 1 => some (.shi 1 (regOf x) (regOf y) (regOf low))
  | 2 => some (.shi 2 (regOf x) (regOf y) (regOf low))
  | _ => none

/-- The system instructions and verbs (R286, R288 to R293). -/
def decodeSys (op x y low : Nat) : Option FInstr :=
  let f := low % 2 ^ 11
  match op with
  | 0x30 => legal (y == 0 && decide (low < 16)) (.rdc (regOf x) (Fin.ofNat 16 low))
  | 0x31 => legal (x == 0 && decide (low < 16)) (.wrc (regOf y) (Fin.ofNat 16 low))
  | 0x32 => legal (x == 0 && y == 0 && low == 0) .tret
  | 0x33 => legal (x == 0 && y == 0) (.trap (immOf low))
  | 0x34 => legal (x == 0 && y == 0 && decide (low < 3)) (.inv (Fin.ofNat 3 low))
  | 0x35 => legal (x == 0 && y == 0 && low == 0) .halt
  | 0x38 => legal (low / 2 ^ 11 == 0) (.post (regOf x) (regOf y) (BitVec.ofNat 11 f))
  | 0x39 => legal (decide (low < 128)) (.take (regOf x) (regOf y) (Fin.ofNat 128 low))
  | 0x3A => legal (decide (low < 128)) (.give (regOf x) (regOf y) (Fin.ofNat 128 low))
  | 0x3B => legal (decide (f < 3) && (f == 0 || low / 2 ^ 11 == 0)) (.wait (regOf x) (regOf y) (regOf (low / 2 ^ 11)) (Fin.ofNat 3 f))
  | 0x3C => legal (y == 0 && low == 0 && x != 0 && x % 2 == 0) (.stamp (regOf x))
  | 0x3D => legal (x == 0 && y == 0 && decide (low < 8)) (.raise (Fin.ofNat 8 low))
  | 0x3E => legal (x == 0 && y == 0 && low == 0) .fence
  | 0x3F => legal (x == 0 && low == 0) (.yield (regOf y))
  | _ => none

/-- The instruction of a 32-bit word; none where it is illegal (R280 to R293). -/
def flerDecode (w : Nat) : Option FInstr :=
  let op := w / 2 ^ 26 % 64
  let x := w / 2 ^ 21 % 32
  let y := w / 2 ^ 16 % 32
  let low := w % 2 ^ 16
  match op with
  | 0x00 => decodeR false x y low
  | 0x01 => some (.imm .addi (regOf x) (regOf y) (immOf low))
  | 0x02 => some (.imm .andi (regOf x) (regOf y) (immOf low))
  | 0x03 => some (.imm .ori (regOf x) (regOf y) (immOf low))
  | 0x04 => some (.imm .xori (regOf x) (regOf y) (immOf low))
  | 0x05 => some (.imm .clti (regOf x) (regOf y) (immOf low))
  | 0x06 => some (.imm .cltiu (regOf x) (regOf y) (immOf low))
  | 0x07 => decodeShi x y low
  | 0x08 => legal (y == 0) (.ldhi (regOf x) (immOf low))
  | 0x09 => legal (y == 0) (.addpch (regOf x) (immOf low))
  | 0x0A => legal (x == 0) (.pref (regOf y) (immOf low))
  | 0x10 => some (.load .lb (regOf x) (regOf y) (immOf low))
  | 0x11 => some (.load .lbu (regOf x) (regOf y) (immOf low))
  | 0x12 => some (.load .lh (regOf x) (regOf y) (immOf low))
  | 0x13 => some (.load .lhu (regOf x) (regOf y) (immOf low))
  | 0x14 => some (.load .lw (regOf x) (regOf y) (immOf low))
  | 0x15 => some (.load .lwu (regOf x) (regOf y) (immOf low))
  | 0x18 => some (.store .sb (regOf x) (regOf y) (immOf low))
  | 0x19 => some (.store .sh (regOf x) (regOf y) (immOf low))
  | 0x1A => some (.store .sw (regOf x) (regOf y) (immOf low))
  | 0x1E => decodeR true x y low
  | 0x20 => some (.branch .beq (regOf x) (regOf y) (immOf low))
  | 0x21 => some (.branch .bne (regOf x) (regOf y) (immOf low))
  | 0x22 => some (.branch .blt (regOf x) (regOf y) (immOf low))
  | 0x23 => some (.branch .bge (regOf x) (regOf y) (immOf low))
  | 0x24 => some (.branch .bltu (regOf x) (regOf y) (immOf low))
  | 0x25 => some (.branch .bgeu (regOf x) (regOf y) (immOf low))
  | 0x28 => some (.j (BitVec.ofNat 26 w))
  | 0x29 => some (.jal (BitVec.ofNat 26 w))
  | 0x2A => some (.jalr (regOf x) (regOf y) (immOf low))
  | _ => decodeSys op x y low

end Sys2Proof.Machine
end

