-- ==== Sys2Proof/Machine/Fleran.lean ====
section
/-! DEFINITION. The Fleran instructions (R280 to R309): fetch, execution, retirement, and one meaning for each instruction, for the end
of a wait, for interrupts and for the faults of fetch and decoding. -/

namespace Sys2Proof.Machine

/-! ### Fetch (R295, R301, R304) -/

/-- What a fetch finds: a word with its source (0 L1I, 1 side buffer, 2 L2, 3 DRAM or uncached) and whether it was refetched; a parity
error in local SRAM; or no memory. -/
inductive FetchRes where
  | word (s : State) (w src : Nat) (re : Bool)
  | parity
  | fault

/-- A word of local SRAM has bad parity. -/
def State.badWord (s : State) (c b : Nat) : Bool := (s.core c).badWords.contains (b / 4)

/-- The fetch of the word at `pc` by core `c` (R273, R301); an L1I miss also fetches the next line of the same 4 KiB. A fetch through a
remote window finds nothing. -/
def State.fetchAt (s : State) (c : Nat) (err : MemErr) (pc : Nat) : FetchRes :=
  match s.place c pc with
  | .own b => if s.badWord c b || err == .sram then .parity else .word s (s.readLE b 4) 3 false
  | .window o =>
    if inRemote o then .fault
    else
      let r := s.busRead (coreReq c) o
      .word r.1 r.2 3 false
  | .uncached b _ => .word s (s.readLE b 4) 3 false
  | .cached b _ =>
    let n := b / 64
    let miss := (s.l1Line c false n).isNone
    let r := s.readLine c false n (err == .lineI) (err == .l2)
    let t := if miss && n % 64 != 63 then r.1.prefetch c false true (n + 1) else r.1
    .word t (subBytes r.2.1 (b % 64) 4) (r.2.2.1 - 1) r.2.2.2
  | .none => .fault

/-! ### Branch prediction (R299) -/

/-- A branch or jump as it resolves: whether it is conditional, whether its target comes from a register, whether it is taken, and its
target. -/
structure Branch where
  cond : Bool
  indirect : Bool
  taken : Bool
  target : Nat
deriving DecidableEq, Repr

/-- The target buffer's entry for `pc`. -/
def State.btbFind (s : State) (c pc : Nat) : Option Nat := ((s.core c).btb.find? (fun e => e.1 == pc)).map Prod.snd

/-- The counter of a branch at `pc`. -/
def State.bhtAt (s : State) (c pc : Nat) : Nat := Tbl.look 1 (s.core c).bht (pc / 4 % 1024)

/-- Whether the branch at `pc` is predicted taken. -/
def State.predTaken (s : State) (c pc : Nat) (b : Branch) : Bool :=
  if b.cond then decide (2 ≤ s.bhtAt c pc) else (s.btbFind c pc).isSome

/-- Whether its direction or target was mispredicted. -/
def State.mispredicted (s : State) (c pc : Nat) (b : Branch) : Bool :=
  let hit := s.btbFind c pc == some b.target
  if b.cond then (if s.predTaken c pc b then !b.taken || !hit else b.taken)
  else if b.indirect then !hit
  else (s.btbFind c pc).isSome && !hit

/-- The predictor after a branch or jump commits: a conditional branch moves its counter, a taken one enters the target buffer. -/
def State.learn (s : State) (c pc : Nat) (b : Branch) : State :=
  s.updCore c (fun x => { x with
    bht := if b.cond then Tbl.upd 1 x.bht (pc / 4 % 1024) (fun v => if b.taken then min 3 (v + 1) else v - 1) else x.bht
    btb := if b.taken then ((pc, b.target) :: x.btb.filter (fun e => e.1 != pc)).take 64 else x.btb })

/-! ### What an instruction does -/

/-- The effect of an instruction: the state with it, the next pc, the data source and address of its sample record, whether data was
refetched, whether it loads and stores, its branch, and the exception it raises: code and value. -/
structure Eff where
  s : State
  next : Nat
  src : Nat := 0
  adr : Nat := 0
  re : Bool := false
  loads : Bool := false
  stores : Bool := false
  br : Option Branch := none
  trap : Option (Nat × Nat) := none

/-- An instruction that only changes the state goes on at pc + 4. -/
def Eff.plain (s : State) (pc : Nat) : Eff := { s := s, next := (pc + 4) % 2 ^ 32 }

/-- An instruction that raises an exception. -/
def Eff.exc (s : State) (pc code val : Nat) : Eff := { s := s, next := pc, trap := some (code, val) }

/-- Word 2 of a sample record (R309). -/
def smpFlags (squashed : Bool) (trap : Option (Nat × Nat)) (x : Bool × Bool) (br pred misp : Bool) (src : Nat) (re : Bool)
    (fsrc stage : Nat) : Nat :=
  b2n squashed * 2 ^ 31 + b2n trap.isSome * 2 ^ 30 + (trap.elim 0 Prod.fst) * 2 ^ 25 + b2n x.1 * 2 ^ 24 + b2n x.2 * 2 ^ 23 +
    b2n br * 2 ^ 22 + b2n pred * 2 ^ 21 + b2n misp * 2 ^ 20 + src * 2 ^ 17 + b2n re * 2 ^ 16 + fsrc * 2 ^ 14 + stage * 2 ^ 11

/-- Where a line would be read from, as the fetch source codes it. -/
def State.lineSource (s : State) (c : Nat) (data : Bool) (n : Nat) : Nat :=
  if (s.l1Line c data n).isSome then 0 else if (s.sideLine c n).isSome then 1 else if s.l2.has n then 2 else 3

/-- A wrong-path instruction (R306 to R309): it may fill the side buffer from cacheable memory, it counts as fetched, and it may be
sampled. -/
def State.wrongStep (s : State) (c : Nat) (w : WrongPath) : State :=
  let f : State × Nat × Nat := match s.place c w.pc with
    | .cached b _ =>
      let n := b / 64
      let t := s.prefetch c false true n
      let t := if (s.l1Line c false n).isNone && n % 64 != 63 then t.prefetch c false true (n + 1) else t
      (t, s.lineSource c false n, s.readLE b 4)
    | .own b => (s, 3, s.readLE b 4)
    | _ => (s, 3, 0)
  let d : State × Nat := match w.data.map (fun a => s.place c a) with
    | some (.cached b _) => (f.1.prefetch c true true (b / 64), f.1.lineSource c true (b / 64) + 1)
    | some (.own _) => (f.1, 5)
    | _ => (f.1, 0)
  let g := if 3 ≤ w.stage then d.1.smpFetch c else (d.1, false)
  if g.2 then
    g.1.smpWrite c w.pc f.2.2 (smpFlags true none (false, false) false false false d.2 false f.2.1 (w.stage % 8)) (w.data.getD 0)
      (min 65535 w.runCycles * 65536 + (if w.stage ≤ 3 then 0xFFFF else min 65535 w.fetchCycles))
  else g.1

/-- An instruction commits (R295, R313, R451): counters 1, 4 to 7, CPC, the predictor, and pc goes on. -/
def State.commit (s : State) (c pc : Nat) (e : Eff) : State :=
  let t := (s.count (coreCtr c 1)).wr (coreUnit c) F.CPC_pc pc
  let t := if e.loads then t.count (coreCtr c 4) else t
  let t := if e.stores then t.count (coreCtr c 5) else t
  let t := match e.br with
    | some b =>
      let u := t.count (coreCtr c 6)
      (if s.mispredicted c pc b then u.count (coreCtr c 7) else u).learn c pc b
    | none => t
  t.updCore c (fun x => { x with pc := e.next })

/-- An instruction retires: the counters of its cycles and of what was fetched and squashed with it, its commit or its trap, the
wrong-path instructions behind it, and its sample record (R295, R296, R307 to R309). -/
def State.retire (c : Nat) (x : Pipe) (pc w fsrc : Nat) (fre : Bool) (e : Eff) : State :=
  let t := (e.s.count (coreCtr c 0) x.cycles).count (coreCtr c 2) (1 + x.wrong.length)
  let t := if x.wrong.isEmpty then t else t.count (coreCtr c 3) x.wrong.length
  let g := t.smpFetch c
  let t := match e.trap with
    | some (code, val) =>
      if code = 5 then
        (if (g.1.core c).depth < 2 then g.1.commit c pc e else g.1).trap c 5 val ((pc + 4) % 2 ^ 32)
      else g.1.trap c code val pc
    | none => g.1.commit c pc e
  let t := x.wrong.foldl (fun t w => t.wrongStep c w) t
  if g.2 then
    let pred := match e.br with | some b => e.s.predTaken c pc b | none => false
    let misp := match e.br with | some b => e.s.mispredicted c pc b | none => false
    t.smpWrite c pc w (smpFlags false e.trap (x.dual, x.younger) e.br.isSome pred misp e.src (fre || e.re) fsrc 0) e.adr
      (min 65535 x.runCycles * 65536 + min 65535 x.fetchCycles)
  else t

/-- Core `c` runs instruction `i`, whose effect at its pc is `f`: it runs, and the word it fetches at its pc is that instruction's. -/
def State.run (s : State) (c : Nat) (x : Pipe) (i : FInstr) (f : State → Nat → Eff) : State :=
  let pc := (s.core c).pc
  if !s.coreRuns c then s
  else match s.fetchAt c x.err pc with
  | .word t w src re => if flerDecode w = some i then State.retire c x pc w src re (f t pc) else s
  | _ => s

/-! ### Register operations (R282, R283) -/

/-- A word as a signed number. -/
def s32 (n : Nat) : Int := signed 32 n

/-- The number of 1 bits of a word. -/
def popCount (a : Nat) : Nat := ((List.range 32).filter (bitOf a)).length

/-- The leading zero bits of a word. -/
def leadZeros (a : Nat) : Nat := ((List.range 32).find? (fun i => bitOf a (31 - i))).getD 32

/-- The result of a register operation (R282). -/
def aluVal (op : AluOp) (a b : Nat) : Nat :=
  match op with
  | .add => (a + b) % 2 ^ 32
  | .sub => (a + 2 ^ 32 - b) % 2 ^ 32
  | .and => a &&& b
  | .or => a ||| b
  | .xor => a ^^^ b
  | .andn => a &&& (b ^^^ 0xFFFFFFFF)
  | .sll => a * 2 ^ (b % 32) % 2 ^ 32
  | .srl => a / 2 ^ (b % 32)
  | .sra => unsigned 32 (s32 a / (2 ^ (b % 32) : Nat))
  | .clt => if s32 a < s32 b then 1 else 0
  | .cltu => if a < b then 1 else 0
  | .mul => a * b % 2 ^ 32
  | .mulh => unsigned 32 (s32 a * s32 b / (2 ^ 32 : Nat))
  | .mulhu => a * b / 2 ^ 32
  | .div => if b = 0 then 0xFFFFFFFF else unsigned 32 (Int.tdiv (s32 a) (s32 b))
  | .divu => if b = 0 then 0xFFFFFFFF else a / b
  | .rem => if b = 0 then a else unsigned 32 (Int.tmod (s32 a) (s32 b))
  | .remu => if b = 0 then a else a % b
  | .clz => leadZeros a
  | .popc => popCount a
  | .bswap => leNat (beBytes 4 a)

/-- A register operation. -/
def State.alu (s : State) (c pc : Nat) (op : AluOp) (rd ra rb : Fin 32) : Eff :=
  Eff.plain (s.setGreg c rd (aluVal op (s.greg c ra) (s.greg c rb))) pc

/-- An immediate, sign-extended to 32 bits. -/
def sext (v : BitVec 16) : Nat := unsigned 32 (signed 16 v.toNat)

/-- The result of an immediate operation (R283). -/
def immVal (op : ImmOp) (a : Nat) (v : BitVec 16) : Nat :=
  match op with
  | .addi => (a + sext v) % 2 ^ 32
  | .andi => a &&& v.toNat
  | .ori => a ||| v.toNat
  | .xori => a ^^^ v.toNat
  | .clti => if s32 a < s32 (sext v) then 1 else 0
  | .cltiu => if a < sext v then 1 else 0

/-- An immediate operation. -/
def State.immOp (s : State) (c pc : Nat) (op : ImmOp) (rd ra : Fin 32) (v : BitVec 16) : Eff :=
  Eff.plain (s.setGreg c rd (immVal op (s.greg c ra) v)) pc

/-- SHI (R283): 0 SLL, 1 SRL, 2 SRA. -/
def shiVal (k : Fin 3) (a n : Nat) : Nat :=
  if k.val = 0 then aluVal .sll a n else if k.val = 1 then aluVal .srl a n else aluVal .sra a n

/-! ### Memory (R273 to R279, R284) -/

/-- What a load finds: the bytes as a number, their source and whether they were refetched; an exception; or a remote access. -/
inductive LoadRes where
  | value (s : State) (v src : Nat) (re : Bool)
  | fault (s : State) (code : Nat)
  | remote (device off : Nat)

/-- A parity error in local SRAM is reported (R304); the word keeps its bad parity. -/
def State.sramFault (s : State) (c a b : Nat) : State :=
  let u := coreUnit c
  let t := s.updCore c (fun x => { x with badWords := if x.badWords.contains (b / 4) then x.badWords else x.badWords ++ [b / 4] })
  ((t.incSat u F.CPARS_count).wr u F.CPARSADR_addr a).raise u 4

/-- A read of line `n` would reach DRAM: `skip` bypasses the core's own lines. -/
def State.readsDram (s : State) (c n : Nat) (skip : Bool) : Bool :=
  !s.l2.has n && (skip || ((s.l1Line c true n).isNone && (s.sideLine c n).isNone))

/-- A load of `n` bytes at core address `a` (R273, R284); `skip`: LWU, which reads cacheable memory from the L2 or DRAM. -/
def State.loadMem (s : State) (c : Nat) (err : MemErr) (a n : Nat) (skip : Bool) : LoadRes :=
  match s.place c a with
  | .own b => if s.badWord c b || err == .sram then .fault (s.sramFault c a b) 9 else .value s (s.readLE b n) 5 false
  | .window o =>
    if inRemote o then
      match s.remoteTo (o / 4 * 4) with
      | .nowhere => .value s 0 6 false
      | .here off =>
        let r := s.busRead 10 off
        .value r.1 (subBytes r.2 (o % 4) n) 6 false
      | .there d off => .remote d off
    else
      let r := s.busRead (coreReq c) (o / 4 * 4)
      .value r.1 (subBytes r.2 (o % 4) n) 6 false
  | .uncached b _ => if err == .buffer && inDram b then .fault (s.eccFail b) 10 else .value s (s.readLE b n) 7 false
  | .cached b _ =>
    if err == .buffer && s.readsDram c (b / 64) skip then .fault (s.eccFail b) 10
    else if skip then
      let q := s.l2Ask (b / 64)
      .value (if err == .l2 && q.2 == 3 then q.1.l2Parity (b / 64) else q.1) (s.readLE b n) q.2 false
    else
      let r := s.readLine c true (b / 64) (err == .lineD) (err == .l2)
      .value r.1 (subBytes r.2.1 (b % 64) n) r.2.2.1 r.2.2.2
  | .none => .fault s 7

/-- A store of `n` bytes of `v` at core address `a`, by the instruction at `pc` (R273 to R278): the state, and a remote access still to be
answered; none where it faults. -/
def State.storeMem (s : State) (c a n v pc : Nat) : Option (State × Bool) :=
  match s.place c a with
  | .own b => some ((s.storeLE b n v).heal b n, false)
  | .window o =>
    if inRemote o then
      (if n ≠ 4 then some (s, false)
       else match s.remoteTo o with
       | .nowhere => some (s, false)
       | .here off => some (s.busWrite .ring off 4 v pc, false)
       | .there d off => some (s.askRemote (coreReq c) d off (some v), true))
    else some (s.busWrite (coreRequester c) o n v pc, false)
  | .uncached b true => some (((s.storeLE b n v).dropL2 b n).heal b n, false)
  | .cached b true => some ((s.l2Ask (b / 64)).1.storeCached c b n v, false)
  | _ => none

/-- The bytes a load reads. -/
def LoadOp.width : LoadOp → Nat
  | .lb | .lbu => 1
  | .lh | .lhu => 2
  | .lw | .lwu => 4

/-- The load sign-extends. -/
def LoadOp.sgn : LoadOp → Bool
  | .lb | .lh => true
  | _ => false

/-- The value `n` bytes give rd. -/
def loadVal (n : Nat) (sgn : Bool) (v : Nat) : Nat := if sgn then unsigned 32 (signed (8 * n) v) else v % 256 ^ n

/-- A load (R284). -/
def State.load (s : State) (c pc : Nat) (x : Pipe) (op : LoadOp) (rd ra : Fin 32) (v : BitVec 16) : Eff :=
  let a := (s.greg c ra + sext v) % 2 ^ 32
  let n := op.width
  if a % n ≠ 0 then { Eff.exc s pc 6 a with adr := a }
  else match s.loadMem c x.err a n (op == .lwu) with
  | .value t w src re =>
    { Eff.plain (t.setGreg c rd (loadVal n op.sgn w)) pc with src := src, adr := a, re := re, loads := true }
  | .fault t code => { Eff.exc t pc code a with adr := a }
  | .remote d off =>
    let t := (s.askRemote (coreReq c) d off none).updCore c (fun y => { y with
      wait := some ⟨4, a % 4, n + (if op.sgn then 4 else 0), rd.val⟩ })
    { Eff.plain t pc with src := 6, adr := a, loads := true }

/-- The bytes a store writes. -/
def StoreOp.width : StoreOp → Nat
  | .sb => 1
  | .sh => 2
  | .sw => 4

/-- A store (R284). -/
def State.store (s : State) (c pc : Nat) (op : StoreOp) (rs ra : Fin 32) (v : BitVec 16) : Eff :=
  let a := (s.greg c ra + sext v) % 2 ^ 32
  let n := op.width
  if a % n ≠ 0 then { Eff.exc s pc 6 a with adr := a }
  else match s.storeMem c a n (s.greg c rs % 256 ^ n) pc with
  | some (t, wait) =>
    let t := if wait then t.updCore c (fun y => { y with wait := some ⟨4, 0, 0, 0⟩ }) else t
    { Eff.plain t pc with adr := a, stores := true }
  | none => { Eff.exc s pc 8 a with adr := a }

/-- The word an atomic leaves in memory: `d` is the value of rd (R284). -/
def amoVal (op : AmoOp) (old b d : Nat) : Nat :=
  match op with
  | .swap => b
  | .amoadd => (old + b) % 2 ^ 32
  | .amoand => old &&& b
  | .amoor => old ||| b
  | .cas => if old = d then b else old

/-- The atomic stores. -/
def amoStores (op : AmoOp) (old d : Nat) : Bool := op != .cas || old == d

/-- An atomic (R284): on local SRAM and on writable cacheable memory; elsewhere a store access fault. -/
def State.amo (s : State) (c pc : Nat) (x : Pipe) (op : AmoOp) (rd ra rb : Fin 32) : Eff :=
  let a := s.greg c ra
  let d := s.greg c rd
  let bv := s.greg c rb
  if a % 4 ≠ 0 then { Eff.exc s pc 6 a with adr := a }
  else match s.place c a with
  | .own b =>
    if s.badWord c b || x.err == .sram then { Eff.exc (s.sramFault c a b) pc 9 a with adr := a }
    else
      let old := s.readLE b 4
      let t := if amoStores op old d then s.storeLE b 4 (amoVal op old bv d) else s
      { Eff.plain (t.setGreg c rd old) pc with src := 5, adr := a, loads := true, stores := amoStores op old d }
  | .cached b true =>
    if x.err == .buffer && !s.l2.has (b / 64) then { Eff.exc (s.eccFail b) pc 10 a with adr := a }
    else
      let old := s.readLE b 4
      let q := s.l2Ask (b / 64)
      let t := if x.err == .l2 && q.2 == 3 then q.1.l2Parity (b / 64) else q.1
      let t : State := { t with l2 := t.l2.install (b / 64) }
      let t := if amoStores op old d then t.storeCached c b 4 (amoVal op old bv d) else t
      { Eff.plain (t.setGreg c rd old) pc with src := q.2, adr := a, loads := true, stores := amoStores op old d }
  | _ => { Eff.exc s pc 8 a with adr := a }

/-! ### Branches (R285) -/

/-- A branch is taken (R285). -/
def brTaken (op : BrOp) (a b : Nat) : Bool :=
  match op with
  | .beq => a == b
  | .bne => a != b
  | .blt => decide (s32 a < s32 b)
  | .bge => decide (s32 b ≤ s32 a)
  | .bltu => decide (a < b)
  | .bgeu => decide (b ≤ a)

/-- pc + 4 × off. -/
def target (pc w off : Nat) : Nat := unsigned 32 ((pc : Int) + 4 * signed w off)

/-- A conditional branch. -/
def State.branch (s : State) (c pc : Nat) (op : BrOp) (ra rb : Fin 32) (off : BitVec 16) : Eff :=
  let tk := brTaken op (s.greg c ra) (s.greg c rb)
  let tg := target pc 16 off.toNat
  { s := s, next := if tk then tg else (pc + 4) % 2 ^ 32, br := some ⟨true, false, tk, tg⟩ }

/-- A jump to `tg` that leaves pc + 4 in register `rd`. -/
def State.jump (s : State) (c pc : Nat) (indirect : Bool) (rd tg : Nat) : Eff :=
  { s := s.setGreg c rd (pc + 4), next := tg, br := some ⟨false, indirect, true, tg⟩ }

/-! ### System instructions (R286, R296, R305) -/

/-- TRET (R296): frame depth − 1 gives pc, ien and depth; at depth 0 it is illegal. -/
def State.tret (s : State) (c pc w : Nat) : Eff :=
  let x := s.core c
  if x.depth = 0 then Eff.exc s pc 3 w
  else
    let f := x.depth - 1
    { s := s.updCore c (fun y => { y with depth := f, ien := bitOf (Tbl.look 0 y.ctl (2 + 3 * f)) 9 })
      next := Tbl.look 0 x.ctl (1 + 3 * f) / 4 * 4 }

/-- INV (R305): all of L1I or L1D and the side buffer, or on the keeper all of the L2. -/
def State.invalidate (s : State) (c pc : Nat) (n : Fin 3) (w : Nat) : Eff :=
  if n.val = 0 then Eff.plain (s.updCore c (fun x => { x with l1i := [], side := [] })) pc
  else if n.val = 1 then Eff.plain (s.updCore c (fun x => { x with l1d := [], side := [] })) pc
  else if c = 8 then Eff.plain { s with l2 := ⟨[], []⟩ } pc
  else Eff.exc s pc 4 w

/-- HALT (R296): the core stops, held. -/
def State.halt (s : State) (c pc : Nat) : Eff :=
  let u := coreUnit c
  Eff.plain (((s.setFlag u F.CSTAT_halted true).wr u F.USTAT_state 4).raise u 2) pc

/-! ### Verbs (R287 to R293) -/

/-- `k` words from core address `a`, read as the core would load them; an exception ends them. A remote window gives an access fault. -/
def State.loadWords (c : Nat) (err : MemErr) : Nat → Nat → State → State × List Nat × Option (Nat × Nat)
  | 0, _, s => (s, [], none)
  | k + 1, a, s =>
    match s.loadMem c err a 4 false with
    | .value t v _ _ =>
      let r := State.loadWords c .none k (a + 4) t
      (r.1, v :: r.2.1, r.2.2)
    | .fault t code => (t, [], some (code, a))
    | .remote _ _ => (s, [], some (7, a))

/-- A read descriptor from its words (R156). -/
def readDesc (w : List Nat) : RDesc where
  num := 0
  tray := bits (dw w 0) 0 21
  first := bits (dw w 1) 0 10
  count := bits (dw w 2) 0 10
  skip3 := bitOf (dw w 3) 2
  skip5 := bitOf (dw w 3) 3
  verify := bitOf (dw w 3) 1
  header := bitOf (dw w 3) 0
  dest := dw w 4 + dw w 5 * 2 ^ 32
  tag := dw w 6
  bad := dw w 0 / 2 ^ 21 != 0 || dw w 1 / 2 ^ 10 != 0 || dw w 2 / 2 ^ 10 != 0 || dw w 3 / 2 ^ 4 != 0 || dw w 7 != 0
  op := 0
  want := []

/-- A tray builder descriptor from its words (R112). -/
def trayDesc (data journal : Bool) (owner : Nat) (w : List Nat) : Desc where
  notify := bitOf (dw w 0) 31
  entry := bits (dw w 0) 24 6
  count := bits (dw w 0) 0 13
  lba := dw w 1
  src := dw w 2 + dw w 3 * 2 ^ 32
  tag := dw w 4
  status := dw w 5 + dw w 6 * 2 ^ 32
  req := owner
  bad := bits (dw w 0) 30 1 != 0 || bits (dw w 0) 13 11 != 0 || dw w 7 != 0 || (!data && bits (dw w 0) 24 6 != 0) ||
    (journal && dw w 1 != 0)
  pages := []
  op := 0
  taken := 0

/-- The size of a queue's descriptors in words (R288). -/
def postWords (q : Nat) : Nat := if q = 0 || q = 6 || q = 7 then 16 else 8

/-- A descriptor enters an engine queue; none where the queue is full. Queues 6 and 7 hold 64 descriptors (R288). -/
def State.postQueue (s : State) (owner q : Nat) (w : List Nat) : Option State :=
  match q with
  | 0 => s.postSlice owner w
  | 1 => s.postHash owner w
  | 2 => if 64 ≤ s.rp.queue.length then none else some (s.postRead (readDesc w))
  | 3 => if 64 ≤ s.tb.dataQ.length then none
    else some { s with tb := { s.tb with dataQ := s.tb.dataQ ++ [trayDesc true false owner w] } }
  | 4 => if 64 ≤ s.tb.mapQ.length then none
    else some { s with tb := { s.tb with mapQ := s.tb.mapQ ++ [trayDesc false false owner w] } }
  | 5 => if 64 ≤ s.tb.jourQ.length then none
    else some { s with tb := { s.tb with jourQ := s.tb.jourQ ++ [trayDesc false true owner w] } }
  | 6 => if 64 ≤ s.rg.msgQ.length then none else some (s.postMessage w owner)
  | _ => if 64 ≤ s.pl.queue.length then none
    else some { s with pl := { s.pl with queue := s.pl.queue ++ [(w, owner, none)] } }

/-- POST (R288): the descriptor is read, then posted: rd is 0, or 1 where the queue is full; 2 where no such queue exists. -/
def State.post (s : State) (c pc : Nat) (x : Pipe) (rd ra : Fin 32) (q : Nat) : Eff :=
  let a := s.greg c ra
  if 8 ≤ q then { Eff.plain (s.setGreg c rd 2) pc with adr := a }
  else if a % (4 * postWords q) ≠ 0 then { Eff.exc s pc 6 a with adr := a }
  else
    let r := State.loadWords c x.err (postWords q) a s
    match r.2.2 with
    | some (code, b) => { Eff.exc r.1 pc code b with adr := a }
    | none =>
      match r.1.postQueue (coreReq c) q r.2.1 with
      | some t => { Eff.plain (t.setGreg c rd 0) pc with adr := a }
      | none => { Eff.plain (r.1.setGreg c rd 1) pc with adr := a }

/-- The queue is assigned to the core (R349, R389). -/
def State.mayTake (s : State) (c q : Nat) : Bool := bitOf (Tbl.look 0 s.hc.qcores q) c

/-- Words stored from core address `a` on; none where they fault, or lie in a remote window. -/
def State.storeWords (c pc : Nat) : List Nat → Nat → State → Option State
  | [], _, s => some s
  | v :: vs, a, s =>
    match s.storeMem c a 4 v pc with
    | some (t, false) => State.storeWords c pc vs (a + 4) t
    | _ => none

/-- The little-endian words of bytes, `k` of them. -/
def wordsOf (bs : List Byte) : Nat → List Nat
  | 0 => []
  | k + 1 => leNat (bs.take 4) :: wordsOf (bs.drop 4) k

/-- TAKE (R289): the oldest entry of a host command queue moves to memory and its slot counts as taken. -/
def State.take (s : State) (c pc : Nat) (rd ra : Fin 32) (q : Nat) : Eff :=
  let a := s.greg c ra
  if a % 64 ≠ 0 then { Eff.exc s pc 6 a with adr := a }
  else if !s.mayTake c q then { Eff.plain (s.setGreg c rd 2) pc with adr := a }
  else match s.waitingOn q with
  | [] => { Eff.plain (s.setGreg c rd 1) pc with adr := a }
  | slot :: rest =>
    match s.cmd slot with
    | none => { Eff.plain ((s.setWaiting q rest).setGreg c rd 1) pc with adr := a }
    | some k =>
      match State.storeWords c pc (wordsOf (k.entry slot) 16) a s with
      | some t =>
        { Eff.plain (((t.setWaiting q rest).setCmd slot (some { k with stage := .taken })).setGreg c rd 0) pc with adr := a }
      | none => { Eff.exc s pc 8 a with adr := a }

/-- GIVE (R290, R354): a completion record for a host completion queue; rd is 1 while 64 records of that queue wait. -/
def State.give (s : State) (c pc : Nat) (x : Pipe) (rd ra : Fin 32) (q : Nat) : Eff :=
  let a := s.greg c ra
  if a % 32 ≠ 0 then { Eff.exc s pc 6 a with adr := a }
  else if !s.mayTake c q then { Eff.plain (s.setGreg c rd 2) pc with adr := a }
  else
    let r := State.loadWords c x.err 8 a s
    match r.2.2 with
    | some (code, b) => { Eff.exc r.1 pc code b with adr := a }
    | none =>
      if 64 ≤ (r.1.hc.recs.filter (fun z => z.queue == q)).length then { Eff.plain (r.1.setGreg c rd 1) pc with adr := a }
      else { Eff.plain ((r.1.giveRec (r.1.recOfWords q r.2.1)).setGreg c rd 0) pc with adr := a }

/-- The condition of a WAIT holds (R291). -/
def State.waitHolds (s : State) (c : Nat) (w : CWait) : Bool :=
  if w.kind = 0 then s.pendFor c &&& (w.b * 2 ^ 32 + w.a) != 0
  else if w.kind = 1 then !(s.waitingOn (w.a % 128)).isEmpty
  else decide (0 ≤ s32 ((s.time.ns + 2 ^ 32 - w.a) % 2 ^ 32))

/-- WAIT (R291): with its condition it gives 0, else the core waits after it. -/
def State.waitFor (s : State) (c pc : Nat) (rd ra rb : Fin 32) (kind : Fin 3) : Eff :=
  let w : CWait := ⟨kind.val, s.greg c ra, s.greg c rb, rd.val⟩
  if s.waitHolds c w then Eff.plain (s.setGreg c rd 0) pc
  else Eff.plain (s.updCore c (fun x => { x with wait := some w })) pc

/-- The core counts as running: started and not held (R311). -/
def State.coreOn (s : State) (c : Nat) : Bool :=
  s.pw.clocked && s.rd (coreUnit c) F.USTAT_state == 3 && (c == 8 || !s.flag .keeper (F.kc c F.KCCTRL_hold))

/-- A WAIT or YIELD ends after `cycles`: counters 0 and 11. -/
def State.endWait (s : State) (c cycles : Nat) : State :=
  ((s.updCore c (fun x => { x with wait := none })).count (coreCtr c 0) cycles).count (coreCtr c 11) cycles

/-! ### The meanings: register operations (R282, R283) -/

/-- ADD (R282). -/
def execAdd (c : Fin 9) (x : Pipe) (rd ra rb : Fin 32) (s : State) : Out :=
  live s (s.run c x (.alu .add rd ra rb) (fun t pc => t.alu c pc .add rd ra rb))

/-- SUB (R282). -/
def execSub (c : Fin 9) (x : Pipe) (rd ra rb : Fin 32) (s : State) : Out :=
  live s (s.run c x (.alu .sub rd ra rb) (fun t pc => t.alu c pc .sub rd ra rb))

/-- AND (R282). -/
def execAnd (c : Fin 9) (x : Pipe) (rd ra rb : Fin 32) (s : State) : Out :=
  live s (s.run c x (.alu .and rd ra rb) (fun t pc => t.alu c pc .and rd ra rb))

/-- OR (R282). -/
def execOr (c : Fin 9) (x : Pipe) (rd ra rb : Fin 32) (s : State) : Out :=
  live s (s.run c x (.alu .or rd ra rb) (fun t pc => t.alu c pc .or rd ra rb))

/-- XOR (R282). -/
def execXor (c : Fin 9) (x : Pipe) (rd ra rb : Fin 32) (s : State) : Out :=
  live s (s.run c x (.alu .xor rd ra rb) (fun t pc => t.alu c pc .xor rd ra rb))

/-- ANDN (R282). -/
def execAndn (c : Fin 9) (x : Pipe) (rd ra rb : Fin 32) (s : State) : Out :=
  live s (s.run c x (.alu .andn rd ra rb) (fun t pc => t.alu c pc .andn rd ra rb))

/-- SLL (R282). -/
def execSll (c : Fin 9) (x : Pipe) (rd ra rb : Fin 32) (s : State) : Out :=
  live s (s.run c x (.alu .sll rd ra rb) (fun t pc => t.alu c pc .sll rd ra rb))

/-- SRL (R282). -/
def execSrl (c : Fin 9) (x : Pipe) (rd ra rb : Fin 32) (s : State) : Out :=
  live s (s.run c x (.alu .srl rd ra rb) (fun t pc => t.alu c pc .srl rd ra rb))

/-- SRA (R282). -/
def execSra (c : Fin 9) (x : Pipe) (rd ra rb : Fin 32) (s : State) : Out :=
  live s (s.run c x (.alu .sra rd ra rb) (fun t pc => t.alu c pc .sra rd ra rb))

/-- CLT (R282). -/
def execClt (c : Fin 9) (x : Pipe) (rd ra rb : Fin 32) (s : State) : Out :=
  live s (s.run c x (.alu .clt rd ra rb) (fun t pc => t.alu c pc .clt rd ra rb))

/-- CLTU (R282). -/
def execCltu (c : Fin 9) (x : Pipe) (rd ra rb : Fin 32) (s : State) : Out :=
  live s (s.run c x (.alu .cltu rd ra rb) (fun t pc => t.alu c pc .cltu rd ra rb))

/-- MUL (R282). -/
def execMul (c : Fin 9) (x : Pipe) (rd ra rb : Fin 32) (s : State) : Out :=
  live s (s.run c x (.alu .mul rd ra rb) (fun t pc => t.alu c pc .mul rd ra rb))

/-- MULH (R282). -/
def execMulh (c : Fin 9) (x : Pipe) (rd ra rb : Fin 32) (s : State) : Out :=
  live s (s.run c x (.alu .mulh rd ra rb) (fun t pc => t.alu c pc .mulh rd ra rb))

/-- MULHU (R282). -/
def execMulhu (c : Fin 9) (x : Pipe) (rd ra rb : Fin 32) (s : State) : Out :=
  live s (s.run c x (.alu .mulhu rd ra rb) (fun t pc => t.alu c pc .mulhu rd ra rb))

/-- DIV (R282). -/
def execDiv (c : Fin 9) (x : Pipe) (rd ra rb : Fin 32) (s : State) : Out :=
  live s (s.run c x (.alu .div rd ra rb) (fun t pc => t.alu c pc .div rd ra rb))

/-- DIVU (R282). -/
def execDivu (c : Fin 9) (x : Pipe) (rd ra rb : Fin 32) (s : State) : Out :=
  live s (s.run c x (.alu .divu rd ra rb) (fun t pc => t.alu c pc .divu rd ra rb))

/-- REM (R282). -/
def execRem (c : Fin 9) (x : Pipe) (rd ra rb : Fin 32) (s : State) : Out :=
  live s (s.run c x (.alu .rem rd ra rb) (fun t pc => t.alu c pc .rem rd ra rb))

/-- REMU (R282). -/
def execRemu (c : Fin 9) (x : Pipe) (rd ra rb : Fin 32) (s : State) : Out :=
  live s (s.run c x (.alu .remu rd ra rb) (fun t pc => t.alu c pc .remu rd ra rb))

/-- CLZ (R282). -/
def execClz (c : Fin 9) (x : Pipe) (rd ra : Fin 32) (s : State) : Out :=
  live s (s.run c x (.alu .clz rd ra 0) (fun t pc => t.alu c pc .clz rd ra 0))

/-- POPC (R282). -/
def execPopc (c : Fin 9) (x : Pipe) (rd ra : Fin 32) (s : State) : Out :=
  live s (s.run c x (.alu .popc rd ra 0) (fun t pc => t.alu c pc .popc rd ra 0))

/-- BSWAP (R282). -/
def execBswap (c : Fin 9) (x : Pipe) (rd ra : Fin 32) (s : State) : Out :=
  live s (s.run c x (.alu .bswap rd ra 0) (fun t pc => t.alu c pc .bswap rd ra 0))

/-- ADDI (R283). -/
def execAddi (c : Fin 9) (x : Pipe) (rd ra : Fin 32) (v : BitVec 16) (s : State) : Out :=
  live s (s.run c x (.imm .addi rd ra v) (fun t pc => t.immOp c pc .addi rd ra v))

/-- ANDI (R283). -/
def execAndi (c : Fin 9) (x : Pipe) (rd ra : Fin 32) (v : BitVec 16) (s : State) : Out :=
  live s (s.run c x (.imm .andi rd ra v) (fun t pc => t.immOp c pc .andi rd ra v))

/-- ORI (R283). -/
def execOri (c : Fin 9) (x : Pipe) (rd ra : Fin 32) (v : BitVec 16) (s : State) : Out :=
  live s (s.run c x (.imm .ori rd ra v) (fun t pc => t.immOp c pc .ori rd ra v))

/-- XORI (R283). -/
def execXori (c : Fin 9) (x : Pipe) (rd ra : Fin 32) (v : BitVec 16) (s : State) : Out :=
  live s (s.run c x (.imm .xori rd ra v) (fun t pc => t.immOp c pc .xori rd ra v))

/-- CLTI (R283). -/
def execClti (c : Fin 9) (x : Pipe) (rd ra : Fin 32) (v : BitVec 16) (s : State) : Out :=
  live s (s.run c x (.imm .clti rd ra v) (fun t pc => t.immOp c pc .clti rd ra v))

/-- CLTIU (R283). -/
def execCltiu (c : Fin 9) (x : Pipe) (rd ra : Fin 32) (v : BitVec 16) (s : State) : Out :=
  live s (s.run c x (.imm .cltiu rd ra v) (fun t pc => t.immOp c pc .cltiu rd ra v))

/-- SHI (R283). -/
def execShi (c : Fin 9) (x : Pipe) (kind : Fin 3) (rd ra : Fin 32) (n : Fin 32) (s : State) : Out :=
  live s (s.run c x (.shi kind rd ra n) (fun t pc => Eff.plain (t.setGreg c rd (shiVal kind (t.greg c ra) n.val)) pc))

/-- LDHI (R283). -/
def execLdhi (c : Fin 9) (x : Pipe) (rd : Fin 32) (v : BitVec 16) (s : State) : Out :=
  live s (s.run c x (.ldhi rd v) (fun t pc => Eff.plain (t.setGreg c rd (v.toNat * 2 ^ 16)) pc))

/-- ADDPCH (R283). -/
def execAddpch (c : Fin 9) (x : Pipe) (rd : Fin 32) (v : BitVec 16) (s : State) : Out :=
  live s (s.run c x (.addpch rd v) (fun t pc => Eff.plain (t.setGreg c rd ((pc + v.toNat * 2 ^ 16) % 2 ^ 32)) pc))

/-- PREF (R283, R301): the line of A + imm enters the side buffer; it never faults and does nothing outside cacheable memory. -/
def execPref (c : Fin 9) (x : Pipe) (ra : Fin 32) (v : BitVec 16) (s : State) : Out :=
  live s (s.run c x (.pref ra v) (fun t pc =>
    let a := (t.greg c ra + sext v) % 2 ^ 32
    { Eff.plain (match t.place c a with
      | .cached b _ => t.prefetch c true true (b / 64)
      | _ => t) pc with adr := a }))

/-! ### The meanings: loads, stores and atomics (R284) -/

/-- LB (R284). -/
def execLb (c : Fin 9) (x : Pipe) (rd ra : Fin 32) (v : BitVec 16) (s : State) : Out :=
  live s (s.run c x (.load .lb rd ra v) (fun t pc => t.load c pc x .lb rd ra v))

/-- LBU (R284). -/
def execLbu (c : Fin 9) (x : Pipe) (rd ra : Fin 32) (v : BitVec 16) (s : State) : Out :=
  live s (s.run c x (.load .lbu rd ra v) (fun t pc => t.load c pc x .lbu rd ra v))

/-- LH (R284). -/
def execLh (c : Fin 9) (x : Pipe) (rd ra : Fin 32) (v : BitVec 16) (s : State) : Out :=
  live s (s.run c x (.load .lh rd ra v) (fun t pc => t.load c pc x .lh rd ra v))

/-- LHU (R284). -/
def execLhu (c : Fin 9) (x : Pipe) (rd ra : Fin 32) (v : BitVec 16) (s : State) : Out :=
  live s (s.run c x (.load .lhu rd ra v) (fun t pc => t.load c pc x .lhu rd ra v))

/-- LW (R284). -/
def execLw (c : Fin 9) (x : Pipe) (rd ra : Fin 32) (v : BitVec 16) (s : State) : Out :=
  live s (s.run c x (.load .lw rd ra v) (fun t pc => t.load c pc x .lw rd ra v))

/-- LWU (R284). -/
def execLwu (c : Fin 9) (x : Pipe) (rd ra : Fin 32) (v : BitVec 16) (s : State) : Out :=
  live s (s.run c x (.load .lwu rd ra v) (fun t pc => t.load c pc x .lwu rd ra v))

/-- SB (R284). -/
def execSb (c : Fin 9) (x : Pipe) (rs ra : Fin 32) (v : BitVec 16) (s : State) : Out :=
  live s (s.run c x (.store .sb rs ra v) (fun t pc => t.store c pc .sb rs ra v))

/-- SH (R284). -/
def execSh (c : Fin 9) (x : Pipe) (rs ra : Fin 32) (v : BitVec 16) (s : State) : Out :=
  live s (s.run c x (.store .sh rs ra v) (fun t pc => t.store c pc .sh rs ra v))

/-- SW (R284). -/
def execSw (c : Fin 9) (x : Pipe) (rs ra : Fin 32) (v : BitVec 16) (s : State) : Out :=
  live s (s.run c x (.store .sw rs ra v) (fun t pc => t.store c pc .sw rs ra v))

/-- SWAP (R284). -/
def execSwap (c : Fin 9) (x : Pipe) (rd ra rb : Fin 32) (s : State) : Out :=
  live s (s.run c x (.amo .swap rd ra rb) (fun t pc => t.amo c pc x .swap rd ra rb))

/-- AMOADD (R284). -/
def execAmoadd (c : Fin 9) (x : Pipe) (rd ra rb : Fin 32) (s : State) : Out :=
  live s (s.run c x (.amo .amoadd rd ra rb) (fun t pc => t.amo c pc x .amoadd rd ra rb))

/-- AMOAND (R284). -/
def execAmoand (c : Fin 9) (x : Pipe) (rd ra rb : Fin 32) (s : State) : Out :=
  live s (s.run c x (.amo .amoand rd ra rb) (fun t pc => t.amo c pc x .amoand rd ra rb))

/-- AMOOR (R284). -/
def execAmoor (c : Fin 9) (x : Pipe) (rd ra rb : Fin 32) (s : State) : Out :=
  live s (s.run c x (.amo .amoor rd ra rb) (fun t pc => t.amo c pc x .amoor rd ra rb))

/-- CAS (R284). -/
def execCas (c : Fin 9) (x : Pipe) (rd ra rb : Fin 32) (s : State) : Out :=
  live s (s.run c x (.amo .cas rd ra rb) (fun t pc => t.amo c pc x .cas rd ra rb))

/-! ### The meanings: branches and jumps (R285) -/

/-- BEQ (R285). -/
def execBeq (c : Fin 9) (x : Pipe) (ra rb : Fin 32) (off : BitVec 16) (s : State) : Out :=
  live s (s.run c x (.branch .beq ra rb off) (fun t pc => t.branch c pc .beq ra rb off))

/-- BNE (R285). -/
def execBne (c : Fin 9) (x : Pipe) (ra rb : Fin 32) (off : BitVec 16) (s : State) : Out :=
  live s (s.run c x (.branch .bne ra rb off) (fun t pc => t.branch c pc .bne ra rb off))

/-- BLT (R285). -/
def execBlt (c : Fin 9) (x : Pipe) (ra rb : Fin 32) (off : BitVec 16) (s : State) : Out :=
  live s (s.run c x (.branch .blt ra rb off) (fun t pc => t.branch c pc .blt ra rb off))

/-- BGE (R285). -/
def execBge (c : Fin 9) (x : Pipe) (ra rb : Fin 32) (off : BitVec 16) (s : State) : Out :=
  live s (s.run c x (.branch .bge ra rb off) (fun t pc => t.branch c pc .bge ra rb off))

/-- BLTU (R285). -/
def execBltu (c : Fin 9) (x : Pipe) (ra rb : Fin 32) (off : BitVec 16) (s : State) : Out :=
  live s (s.run c x (.branch .bltu ra rb off) (fun t pc => t.branch c pc .bltu ra rb off))

/-- BGEU (R285). -/
def execBgeu (c : Fin 9) (x : Pipe) (ra rb : Fin 32) (off : BitVec 16) (s : State) : Out :=
  live s (s.run c x (.branch .bgeu ra rb off) (fun t pc => t.branch c pc .bgeu ra rb off))

/-- J (R285). -/
def execJ (c : Fin 9) (x : Pipe) (off : BitVec 26) (s : State) : Out :=
  live s (s.run c x (.j off) (fun t pc => t.jump c pc false 0 (target pc 26 off.toNat)))

/-- JAL (R285). -/
def execJal (c : Fin 9) (x : Pipe) (off : BitVec 26) (s : State) : Out :=
  live s (s.run c x (.jal off) (fun t pc => t.jump c pc false 31 (target pc 26 off.toNat)))

/-- JALR (R285). -/
def execJalr (c : Fin 9) (x : Pipe) (rd ra : Fin 32) (v : BitVec 16) (s : State) : Out :=
  live s (s.run c x (.jalr rd ra v) (fun t pc => t.jump c pc true rd ((t.greg c ra + sext v) % 2 ^ 32 / 4 * 4)))

/-! ### The meanings: system instructions (R286) -/

/-- RDC (R272, R286). -/
def execRdc (c : Fin 9) (x : Pipe) (rd : Fin 32) (k : Fin 16) (s : State) : Out :=
  live s (s.run c x (.rdc rd k) (fun t pc => Eff.plain (t.setGreg c rd (t.creg c k)) pc))

/-- WRC (R272, R286). -/
def execWrc (c : Fin 9) (x : Pipe) (ra : Fin 32) (k : Fin 16) (s : State) : Out :=
  live s (s.run c x (.wrc ra k) (fun t pc => Eff.plain (t.setCreg c k (t.greg c ra)) pc))

/-- TRET (R296). -/
def execTret (c : Fin 9) (x : Pipe) (s : State) : Out :=
  live s (s.run c x .tret (fun t pc => t.tret c pc (flerEncode .tret)))

/-- TRAP (R295, R296). -/
def execTrap (c : Fin 9) (x : Pipe) (v : BitVec 16) (s : State) : Out :=
  live s (s.run c x (.trap v) (fun t pc => { Eff.plain t pc with trap := some (5, v.toNat) }))

/-- INV (R305). -/
def execInv (c : Fin 9) (x : Pipe) (n : Fin 3) (s : State) : Out :=
  live s (s.run c x (.inv n) (fun t pc => t.invalidate c pc n (flerEncode (.inv n))))

/-- HALT (R296). -/
def execHalt (c : Fin 9) (x : Pipe) (s : State) : Out := live s (s.run c x .halt (fun t pc => t.halt c pc))

/-! ### The meanings: verbs (R287 to R293) -/

/-- POST (R288). -/
def execPost (c : Fin 9) (x : Pipe) (rd ra : Fin 32) (q : BitVec 11) (s : State) : Out :=
  live s (s.run c x (.post rd ra q) (fun t pc => t.post c pc x rd ra q.toNat))

/-- TAKE (R289). -/
def execTake (c : Fin 9) (x : Pipe) (rd ra : Fin 32) (q : Fin 128) (s : State) : Out :=
  live s (s.run c x (.take rd ra q) (fun t pc => t.take c pc rd ra q.val))

/-- GIVE (R290). -/
def execGive (c : Fin 9) (x : Pipe) (rd ra : Fin 32) (q : Fin 128) (s : State) : Out :=
  live s (s.run c x (.give rd ra q) (fun t pc => t.give c pc x rd ra q.val))

/-- WAIT (R291). -/
def execWait (c : Fin 9) (x : Pipe) (rd ra rb : Fin 32) (kind : Fin 3) (s : State) : Out :=
  live s (s.run c x (.wait rd ra rb kind) (fun t pc => t.waitFor c pc rd ra rb kind))

/-- WAIT_WAKE (R291): the condition has come to hold; rd receives 0. -/
def execWaitWake (c : Fin 9) (cycles : Nat) (s : State) : Out :=
  match (s.core c).wait with
  | some w => if s.coreOn c && decide (w.kind ≤ 2) && s.waitHolds c w then live s ((s.endWait c cycles).setGreg c w.rd 0) else .next s
  | none => .next s

/-- WAIT_TIMEOUT (R291): CWAITMAX cycles have passed without the condition; rd receives 1. -/
def execWaitTimeout (c : Fin 9) (cycles : Nat) (s : State) : Out :=
  match (s.core c).wait with
  | some w =>
    if s.coreOn c && decide (w.kind ≤ 2) && s.creg c 12 != 0 && decide (s.creg c 12 ≤ cycles) && !s.waitHolds c w then
      live s ((s.endWait c cycles).setGreg c w.rd 1) else .next s
  | none => .next s

/-- STAMP (R292): one sample of TIMENS into an even register and the next. -/
def execStamp (c : Fin 9) (x : Pipe) (rd : Fin 32) (s : State) : Out :=
  live s (s.run c x (.stamp rd) (fun t pc =>
    Eff.plain ((t.setGreg c rd (t.time.ns % 2 ^ 32)).setGreg c (rd.val + 1) (t.time.ns / 2 ^ 32)) pc))

/-- RAISE (R293). -/
def execRaise (c : Fin 9) (x : Pipe) (n : Fin 8) (s : State) : Out :=
  live s (s.run c x (.raise n) (fun t pc => Eff.plain (t.raise (coreUnit c) (8 + n.val)) pc))

/-- FENCE (R293): every store has reached its destination already, and every write sent before is visible. -/
def execFence (c : Fin 9) (x : Pipe) (s : State) : Out := live s (s.run c x .fence (fun t pc => Eff.plain t pc))

/-- YIELD (R293). -/
def execYield (c : Fin 9) (x : Pipe) (ra : Fin 32) (s : State) : Out :=
  live s (s.run c x (.yield ra) (fun t pc =>
    Eff.plain (t.updCore c (fun y => { y with wait := some ⟨3, max 1 (t.greg c ra), 0, 0⟩ })) pc))

/-- YIELD_END (R293): the cycles have passed. -/
def execYieldEnd (c : Fin 9) (cycles : Nat) (s : State) : Out :=
  match (s.core c).wait with
  | some w => if s.coreOn c && w.kind == 3 && decide (w.a ≤ cycles) then live s (s.endWait c cycles) else .next s
  | none => .next s

/-! ### Interrupts and the faults of fetch and decoding -/

/-- INTERRUPT (R291, R296, R297): an enabled pending lane at a commit boundary; it ends a WAIT with 2 and a YIELD. -/
def execInterrupt (c : Fin 9) (cycles : Nat) (s : State) : Out :=
  let x := s.core c
  if s.coreOn c && x.ien && decide (x.depth < 2) && s.pendFor c &&& (s.creg c 9 * 2 ^ 32 + s.creg c 8) != 0 then
    match x.wait with
    | some w =>
      if w.kind = 4 then .next s
      else
        let t := s.endWait c cycles
        live s ((if w.kind ≤ 2 then t.setGreg c w.rd 2 else t).trap c 16 0 x.pc)
    | none => live s ((s.count (coreCtr c 0) cycles).trap c 16 0 x.pc)
  else .next s

/-- ILLEGAL_INSTRUCTION (R280, R281, R295): the word at the pc is no instruction. -/
def execIllegalInstruction (c : Fin 9) (x : Pipe) (s : State) : Out :=
  let pc := (s.core c).pc
  if !s.coreRuns c then .next s
  else match s.fetchAt c x.err pc with
  | .word t w src re =>
    if (flerDecode w).isNone then live s (State.retire c x pc w src re (Eff.exc t pc 3 w)) else .next s
  | _ => .next s

/-- INSTRUCTION_FETCH_FAULT (R295, R304): no memory at the pc, or a parity error in local SRAM. -/
def execInstructionFetchFault (c : Fin 9) (x : Pipe) (parity : Bool) (s : State) : Out :=
  let pc := (s.core c).pc
  if !s.coreRuns c then .next s
  else match s.fetchAt c (if parity then .sram else x.err) pc with
  | .word _ _ _ _ => .next s
  | .parity => live s (State.retire c x pc 0 3 false (Eff.exc (s.sramFault c pc (sramBase c + pc)) pc 2 pc))
  | .fault => live s (State.retire c x pc 0 3 false (Eff.exc s pc 1 pc))

end Sys2Proof.Machine
end

