-- ==== Sys2Proof/Machine/Micro.lean ====
section
/-! DEFINITION. The microcode of the loop engine (R249 to R251): the words and the instructions they hold, and what an executing slot
does at each. An instruction executes when it is the one at the slot's program counter. -/

namespace Sys2Proof.Machine

/-- An instruction of R250 with its fields (R249). State-word indices of LDSA and STSA are even, 2w. -/
inductive Mc where
  | nop
  | ldi (d : Fin 16) (imm : Fin 16777216)
  | mov (d a : Fin 16)
  | input (d : Fin 16) (a : Fin 6)
  | out (d : Fin 2) (a : Fin 16)
  | lds (d : Fin 16) (w : Fin 64)
  | sts (w : Fin 64) (a : Fin 16)
  | ldc (d : Fin 16) (c : Fin 64)
  | lda (d : Fin 4) (a : Fin 16)
  | ldsa (d : Fin 4) (w : Fin 32)
  | stsa (w : Fin 32) (a : Fin 4)
  | add (d a b : Fin 16)
  | sub (d a b : Fin 16)
  | neg (d a : Fin 16)
  | abs (d a : Fin 16)
  | min (d a b : Fin 16)
  | max (d a b : Fin 16)
  | clp (d a : Fin 16) (c : Fin 64)
  | shl (d a sh : Fin 16)
  | shr (d a sh : Fin 16)
  | mul (d a b sh : Fin 16)
  | div (d a b : Fin 16)
  | clr (d : Fin 4)
  | mac (d : Fin 4) (a : Fin 16) (c : Fin 64)
  | msu (d : Fin 4) (a : Fin 16) (c : Fin 64)
  | macx (d : Fin 4) (a b : Fin 16)
  | adda (d b : Fin 4)
  | rnd (d : Fin 16) (a : Fin 4) (sh : Fin 16)
  | br (dest : Fin 16384) (cond : Fin 8) (a : Fin 16)
  | stop
  | fault
  | ff (d : Fin 16)
  | inj (d : Fin 16)
  | evt (e : Fin 4)
deriving DecidableEq, Repr

/-- A word of R249 from its fields. -/
def mcWord (op d a b c sh cond imm : Nat) : Nat :=
  op * 2 ^ 58 + d * 2 ^ 54 + a * 2 ^ 50 + b * 2 ^ 46 + c * 2 ^ 40 + sh * 2 ^ 36 + cond * 2 ^ 33 + imm

/-- The word of an instruction (R249, R250). -/
def mcEncode : Mc → Nat
  | .nop => mcWord 0x00 0 0 0 0 0 0 0
  | .ldi d imm => mcWord 0x01 d 0 0 0 0 0 imm
  | .mov d a => mcWord 0x02 d a 0 0 0 0 0
  | .input d a => mcWord 0x03 d a 0 0 0 0 0
  | .out d a => mcWord 0x04 d a 0 0 0 0 0
  | .lds d w => mcWord 0x05 d 0 0 0 0 0 w
  | .sts w a => mcWord 0x06 0 a 0 0 0 0 w
  | .ldc d c => mcWord 0x07 d 0 0 c 0 0 0
  | .lda d a => mcWord 0x08 d a 0 0 0 0 0
  | .ldsa d w => mcWord 0x09 d 0 0 0 0 0 (2 * w)
  | .stsa w a => mcWord 0x0A 0 a 0 0 0 0 (2 * w)
  | .add d a b => mcWord 0x10 d a b 0 0 0 0
  | .sub d a b => mcWord 0x11 d a b 0 0 0 0
  | .neg d a => mcWord 0x12 d a 0 0 0 0 0
  | .abs d a => mcWord 0x13 d a 0 0 0 0 0
  | .min d a b => mcWord 0x14 d a b 0 0 0 0
  | .max d a b => mcWord 0x15 d a b 0 0 0 0
  | .clp d a c => mcWord 0x16 d a 0 c 0 0 0
  | .shl d a sh => mcWord 0x17 d a 0 0 sh 0 0
  | .shr d a sh => mcWord 0x18 d a 0 0 sh 0 0
  | .mul d a b sh => mcWord 0x19 d a b 0 sh 0 0
  | .div d a b => mcWord 0x1A d a b 0 0 0 0
  | .clr d => mcWord 0x20 d 0 0 0 0 0 0
  | .mac d a c => mcWord 0x21 d a 0 c 0 0 0
  | .msu d a c => mcWord 0x22 d a 0 c 0 0 0
  | .macx d a b => mcWord 0x23 d a b 0 0 0 0
  | .adda d b => mcWord 0x24 d 0 b 0 0 0 0
  | .rnd d a sh => mcWord 0x25 d a 0 0 sh 0 0
  | .br dest cond a => mcWord 0x30 0 a 0 0 0 cond dest
  | .stop => mcWord 0x31 0 0 0 0 0 0 0
  | .fault => mcWord 0x32 0 0 0 0 0 0 0
  | .ff d => mcWord 0x38 d 0 0 0 0 0 0
  | .inj d => mcWord 0x39 d 0 0 0 0 0 0
  | .evt e => mcWord 0x3A 0 0 0 0 0 0 e

/-- The fields d, a, b, c, sh, cond and imm that an opcode uses, in that order (R250); none for an opcode that R250 lacks. -/
def mcUses (op : Nat) : Option (List Bool) :=
  let u (d a b c sh cond imm : Bool) : Option (List Bool) := some [d, a, b, c, sh, cond, imm]
  match op with
  | 0x00 | 0x31 | 0x32 => u false false false false false false false
  | 0x01 | 0x05 | 0x09 => u true false false false false false true
  | 0x02 | 0x03 | 0x04 | 0x08 | 0x12 | 0x13 => u true true false false false false false
  | 0x06 | 0x0A => u false true false false false false true
  | 0x07 => u true false false true false false false
  | 0x10 | 0x11 | 0x14 | 0x15 | 0x1A | 0x23 => u true true true false false false false
  | 0x16 | 0x21 | 0x22 => u true true false true false false false
  | 0x17 | 0x18 | 0x25 => u true true false false true false false
  | 0x19 => u true true true false true false false
  | 0x20 | 0x38 | 0x39 => u true false false false false false false
  | 0x24 => u true false true false false false false
  | 0x30 => u false true false false false true true
  | 0x3A => u false false false false false false true
  | _ => none

/-- The fields d, a, b, c, sh, cond and imm of a word (R249). -/
def mcFields (v : Nat) : List Nat := [bits v 54 4, bits v 50 4, bits v 46 4, bits v 40 6, bits v 36 4, bits v 33 3, bits v 0 24]

/-- No field that the opcode does not use is non-zero, and bits [32:24] are zero (R249, R251). -/
def mcUnusedZero (v : Nat) : Bool :=
  match mcUses (bits v 58 6) with
  | none => false
  | some us => bits v 24 9 == 0 && (us.zip (mcFields v)).all (fun p => p.1 || p.2 == 0)

/-- The instruction of a word (R249 to R251); none where executing it is a fault whatever the mode. -/
def mcDecode (v : Nat) : Option Mc :=
  if !mcUnusedZero v then none
  else
    let d := bits v 54 4
    let a := bits v 50 4
    let b := bits v 46 4
    let c := Fin.ofNat 64 (bits v 40 6)
    let sh := Fin.ofNat 16 (bits v 36 4)
    let imm := bits v 0 24
    let w := imm % 64
    let r (x : Nat) : Fin 16 := Fin.ofNat 16 x
    let acc (x : Nat) (f : Fin 4 → Mc) : Option Mc := if x < 4 then some (f (Fin.ofNat 4 x)) else none
    match bits v 58 6 with
    | 0x00 => some .nop
    | 0x01 => some (.ldi (r d) (Fin.ofNat 16777216 imm))
    | 0x02 => some (.mov (r d) (r a))
    | 0x03 => if a < 6 then some (.input (r d) (Fin.ofNat 6 a)) else none
    | 0x04 => if d < 2 then some (.out (Fin.ofNat 2 d) (r a)) else none
    | 0x05 => some (.lds (r d) (Fin.ofNat 64 w))
    | 0x06 => some (.sts (Fin.ofNat 64 w) (r a))
    | 0x07 => some (.ldc (r d) c)
    | 0x08 => acc d (fun d => .lda d (r a))
    | 0x09 => if w % 2 = 0 then acc d (fun d => .ldsa d (Fin.ofNat 32 (w / 2))) else none
    | 0x0A => if w % 2 = 0 then acc a (fun a => .stsa (Fin.ofNat 32 (w / 2)) a) else none
    | 0x10 => some (.add (r d) (r a) (r b))
    | 0x11 => some (.sub (r d) (r a) (r b))
    | 0x12 => some (.neg (r d) (r a))
    | 0x13 => some (.abs (r d) (r a))
    | 0x14 => some (.min (r d) (r a) (r b))
    | 0x15 => some (.max (r d) (r a) (r b))
    | 0x16 => some (.clp (r d) (r a) c)
    | 0x17 => some (.shl (r d) (r a) sh)
    | 0x18 => some (.shr (r d) (r a) sh)
    | 0x19 => some (.mul (r d) (r a) (r b) sh)
    | 0x1A => some (.div (r d) (r a) (r b))
    | 0x20 => acc d .clr
    | 0x21 => acc d (fun d => .mac d (r a) c)
    | 0x22 => acc d (fun d => .msu d (r a) c)
    | 0x23 => acc d (fun d => .macx d (r a) (r b))
    | 0x24 => if b < 4 then acc d (fun d => .adda d (Fin.ofNat 4 b)) else none
    | 0x25 => acc a (fun a => .rnd (r d) a sh)
    | 0x30 => some (.br (Fin.ofNat 16384 imm) (Fin.ofNat 8 (bits v 33 3)) (r a))
    | 0x31 => some .stop
    | 0x32 => some .fault
    | 0x38 => some (.ff (r d))
    | 0x39 => some (.inj (r d))
    | 0x3A => some (.evt (Fin.ofNat 4 imm))
    | _ => none

/-- The coefficient an instruction reads. -/
def Mc.coefIndex : Mc → Option Nat
  | .ldc _ c | .clp _ _ c | .mac _ _ c | .msu _ _ c => some c
  | _ => none

/-! ### Execution -/

/-- The microcode word at the slot's program counter (R249). -/
def State.mcAt (s : State) (n : Nat) : Nat := Tbl.look 0 s.micro ((s.rd (.slot n) F.SLPROG_start + (s.slot n).pc) % 16384)

/-- SLPROG.cycmax, 0 acting as 4,095 (R266). -/
def State.cycMax (s : State) (n : Nat) : Nat :=
  let c := s.rd (.slot n) F.SLPROG_cycmax
  if c = 0 then 4095 else c

/-- The instruction executes an index of 16 or more in region mode (R251). -/
def State.coefBad (s : State) (n : Nat) (i : Mc) : Bool :=
  match i.coefIndex with
  | some c => !s.flag (.slot n) F.SLCTRL_cmode && decide (16 ≤ c)
  | none => false

/-- Slot `n` executes the instruction `i` now: its state is executing and `i` is at its program counter. -/
def State.mcRuns (s : State) (n : Nat) (i : Mc) : Bool := s.slState n == 2 && mcDecode (s.mcAt n) == some i

/-- The cycles of an instruction are spent (R264, R451). -/
def State.spend (s : State) (n cost : Nat) : State :=
  (({ s with winCycles := s.winCycles + cost } : State).count 174 cost).updSlot n (fun p => { p with cyc := p.cyc + cost })

/-- One instruction of a sample (R250, R251): in region mode a coefficient index of 16 or more faults; an instruction that the
cycle limit cuts short has no effect and faults; else it has its effect, and the slot faults if the limit is then reached. -/
def State.mc (s : State) (n : Nat) (i : Mc) (cost : Nat) (f : State → State) : State :=
  if !s.mcRuns n i then s
  else if s.coefBad n i then s.slotFault n 3
  else if s.cycMax n < (s.slot n).cyc + cost then s.slotFault n 4
  else
    let t := ((f s).updSlot n (fun p => { p with pc := (p.pc + 1) % 16384 })).spend n cost
    if s.cycMax n = (s.slot n).cyc + cost then t.slotFault n 4 else t

/-- The sample's cycles are compared with SLMAXCYC and the sample is counted (R251, R266, R451). -/
def State.sampleEnds (s : State) (n : Nat) : State :=
  let t := s.wr (.slot n) F.SLMAXCYC_max (max (s.rd (.slot n) F.SLMAXCYC_max) (s.slot n).cyc)
  (t.incWrap (.slot n) F.SLSMPCNT_count).count 175

/-- A data register takes a saturated value (R248). -/
def State.satX (s : State) (n d : Nat) (v : Int) : State := (s.setMx n d (sat24 v).1).noteSat n (sat24 v).2

/-- An accumulator takes a saturated value (R248). -/
def State.satA (s : State) (n d : Nat) (v : Int) : State := (s.setMa n d (sat48 v).1).noteSat n (sat48 v).2

/-- DIV (R250): truncated toward zero; a zero divisor gives the extreme of the dividend's sign. -/
def mcDiv (x y : Int) : Int × Bool :=
  if y = 0 then (if 0 < x then (8388607, true) else if x < 0 then (-8388608, true) else (0, false))
  else sat24 (Int.tdiv (x * 8388608) y)

/-- |C| of CLP, with |−2^23| taken as 2^23 − 1 (R250). -/
def clpLimit (c : Int) : Int := if c = -8388608 then 8388607 else (c.natAbs : Int)

/-- rnd of R248 for MUL's shift 23 − sh, which is 8 at the least. -/
def mcMul (x y : Int) (sh : Nat) : Int := rnd (x * y) (23 - sh)

/-- The condition of BR (R250). -/
def State.mcCond (s : State) (n cond : Nat) (x : Int) : Bool :=
  match cond with
  | 0 => true
  | 1 => x == 0
  | 2 => x != 0
  | 3 => decide (x < 0)
  | 4 => decide (0 ≤ x)
  | 5 => decide (0 < x)
  | 6 => s.flag (.slot n) F.SLSTAT_sat
  | _ => (s.slot n).tune.isSome

/-- What OUT applies to o0 while a tuning helper runs (R259, R260), with whether the sum saturated. -/
def State.tunedOut (s : State) (n j : Nat) (v : Int) : Int × Bool :=
  match (s.slot n).tune with
  | some m =>
    if j = 1 then (v, false)
    else if m.mode = 1 then (m.q, false)
    else if s.flag (.slot n) F.SLTUNE_point then (v, false)
    else sat24 (v + m.q)
  | none => (v, false)

/-- The value INJ reads (R250, R260). -/
def State.injValue (s : State) (n : Nat) : Int :=
  match (s.slot n).tune with
  | some m => if m.mode ≠ 1 && s.flag (.slot n) F.SLTUNE_point then m.q else 0
  | none => 0

/-- MC_NOP (R250). -/
def execMcNop (n : Fin 96) (s : State) : Out := live s (s.mc n .nop 1 id)

/-- MC_LDI (R250). -/
def execMcLdi (n : Fin 96) (d : Fin 16) (imm : Fin 16777216) (s : State) : Out :=
  live s (s.mc n (.ldi d imm) 1 (fun t => t.setMx n d (signed 24 imm)))

/-- MC_MOV (R250). -/
def execMcMov (n : Fin 96) (d a : Fin 16) (s : State) : Out := live s (s.mc n (.mov d a) 1 (fun t => t.setMx n d (t.mx n a)))

/-- MC_IN (R242, R250). -/
def execMcIn (n : Fin 96) (d : Fin 16) (a : Fin 6) (s : State) : Out :=
  live s (s.mc n (.input d a) 1 (fun t => t.setMx n d (signed 24 (((t.slot n).ins[a.val]?).getD 0))))

/-- MC_OUT (R243, R250, R259, R260). -/
def execMcOut (n : Fin 96) (d : Fin 2) (a : Fin 16) (s : State) : Out :=
  live s (s.mc n (.out d a) 1 (fun t =>
    let v := t.tunedOut n d (t.mx n a)
    (t.applyOut n d v.1).noteSat n v.2))

/-- MC_LDS (R250). -/
def execMcLds (n : Fin 96) (d : Fin 16) (w : Fin 64) (s : State) : Out :=
  live s (s.mc n (.lds d w) 2 (fun t => t.setMx n d (t.mw n w)))

/-- MC_STS (R250). -/
def execMcSts (n : Fin 96) (w : Fin 64) (a : Fin 16) (s : State) : Out :=
  live s (s.mc n (.sts w a) 1 (fun t => t.setMw n w (t.mx n a)))

/-- MC_LDC (R250, R252). -/
def execMcLdc (n : Fin 96) (d : Fin 16) (c : Fin 64) (s : State) : Out :=
  live s (s.mc n (.ldc d c) 2 (fun t => t.setMx n d (t.coef n c)))

/-- MC_LDA (R250). -/
def execMcLda (n : Fin 96) (d : Fin 4) (a : Fin 16) (s : State) : Out :=
  live s (s.mc n (.lda d a) 1 (fun t => t.setMa n d (t.mx n a * 8388608)))

/-- MC_LDSA (R250). -/
def execMcLdsa (n : Fin 96) (d : Fin 4) (w : Fin 32) (s : State) : Out :=
  live s (s.mc n (.ldsa d w) 2 (fun t =>
    t.setMa n d (signed 48 (unsigned 24 (t.mw n (2 * w + 1)) * 2 ^ 24 + unsigned 24 (t.mw n (2 * w))))))

/-- MC_STSA (R250). -/
def execMcStsa (n : Fin 96) (w : Fin 32) (a : Fin 4) (s : State) : Out :=
  live s (s.mc n (.stsa w a) 2 (fun t =>
    let v := unsigned 48 (t.ma n a)
    (t.setMw n (2 * w) (signed 24 v)).setMw n (2 * w + 1) (signed 24 (v / 2 ^ 24))))

/-- MC_ADD (R250). -/
def execMcAdd (n : Fin 96) (d a b : Fin 16) (s : State) : Out :=
  live s (s.mc n (.add d a b) 1 (fun t => t.satX n d (t.mx n a + t.mx n b)))

/-- MC_SUB (R250). -/
def execMcSub (n : Fin 96) (d a b : Fin 16) (s : State) : Out :=
  live s (s.mc n (.sub d a b) 1 (fun t => t.satX n d (t.mx n a - t.mx n b)))

/-- MC_NEG (R250). -/
def execMcNeg (n : Fin 96) (d a : Fin 16) (s : State) : Out := live s (s.mc n (.neg d a) 1 (fun t => t.satX n d (-(t.mx n a))))

/-- MC_ABS (R250). -/
def execMcAbs (n : Fin 96) (d a : Fin 16) (s : State) : Out :=
  live s (s.mc n (.abs d a) 1 (fun t => t.satX n d ((t.mx n a).natAbs : Int)))

/-- MC_MIN (R250). -/
def execMcMin (n : Fin 96) (d a b : Fin 16) (s : State) : Out :=
  live s (s.mc n (.min d a b) 1 (fun t => t.setMx n d (min (t.mx n a) (t.mx n b))))

/-- MC_MAX (R250). -/
def execMcMax (n : Fin 96) (d a b : Fin 16) (s : State) : Out :=
  live s (s.mc n (.max d a b) 1 (fun t => t.setMx n d (max (t.mx n a) (t.mx n b))))

/-- MC_CLP (R250). -/
def execMcClp (n : Fin 96) (d a : Fin 16) (c : Fin 64) (s : State) : Out :=
  live s (s.mc n (.clp d a c) 2 (fun t =>
    let l := clpLimit (t.coef n c)
    t.setMx n d (min (max (t.mx n a) (-l)) l)))

/-- MC_SHL (R250). -/
def execMcShl (n : Fin 96) (d a : Fin 16) (sh : Fin 16) (s : State) : Out :=
  live s (s.mc n (.shl d a sh) 1 (fun t => t.satX n d (t.mx n a * (2 ^ sh.val : Nat))))

/-- MC_SHR (R250). -/
def execMcShr (n : Fin 96) (d a : Fin 16) (sh : Fin 16) (s : State) : Out :=
  live s (s.mc n (.shr d a sh) 1 (fun t => t.setMx n d (rnd (t.mx n a) sh)))

/-- MC_MUL (R250). -/
def execMcMul (n : Fin 96) (d a b : Fin 16) (sh : Fin 16) (s : State) : Out :=
  live s (s.mc n (.mul d a b sh) 2 (fun t => t.satX n d (mcMul (t.mx n a) (t.mx n b) sh)))

/-- MC_DIV (R250). -/
def execMcDiv (n : Fin 96) (d a b : Fin 16) (s : State) : Out :=
  live s (s.mc n (.div d a b) 12 (fun t =>
    let v := mcDiv (t.mx n a) (t.mx n b)
    (t.setMx n d v.1).noteSat n v.2))

/-- MC_CLR (R250). -/
def execMcClr (n : Fin 96) (d : Fin 4) (s : State) : Out := live s (s.mc n (.clr d) 1 (fun t => t.setMa n d 0))

/-- MC_MAC (R250). -/
def execMcMac (n : Fin 96) (d : Fin 4) (a : Fin 16) (c : Fin 64) (s : State) : Out :=
  live s (s.mc n (.mac d a c) 1 (fun t => t.satA n d (t.ma n d + t.mx n a * t.coef n c)))

/-- MC_MSU (R250). -/
def execMcMsu (n : Fin 96) (d : Fin 4) (a : Fin 16) (c : Fin 64) (s : State) : Out :=
  live s (s.mc n (.msu d a c) 1 (fun t => t.satA n d (t.ma n d - t.mx n a * t.coef n c)))

/-- MC_MACX (R250). -/
def execMcMacx (n : Fin 96) (d : Fin 4) (a b : Fin 16) (s : State) : Out :=
  live s (s.mc n (.macx d a b) 1 (fun t => t.satA n d (t.ma n d + t.mx n a * t.mx n b)))

/-- MC_ADDA (R250). -/
def execMcAdda (n : Fin 96) (d b : Fin 4) (s : State) : Out :=
  live s (s.mc n (.adda d b) 1 (fun t => t.satA n d (t.ma n d + t.ma n b)))

/-- MC_RND (R250). -/
def execMcRnd (n : Fin 96) (d : Fin 16) (a : Fin 4) (sh : Fin 16) (s : State) : Out :=
  live s (s.mc n (.rnd d a sh) 1 (fun t => t.satX n d (rnd (t.ma n a * (2 ^ sh.val : Nat)) 23)))

/-- MC_BR (R250): a taken branch costs two cycles and goes to start + imm. -/
def execMcBr (n : Fin 96) (dest : Fin 16384) (cond : Fin 8) (a : Fin 16) (s : State) : Out :=
  live s (if s.mcCond n cond (s.mx n a) then
    s.mc n (.br dest cond a) 2 (fun t => t.updSlot n (fun p => { p with pc := (dest.val + 16383) % 16384 }))
  else s.mc n (.br dest cond a) 1 id)

/-- MC_END (R250, R251): the sample ends; its END counts. -/
def execMcEnd (n : Fin 96) (s : State) : Out :=
  live s (if !s.mcRuns n .stop then s
    else if s.cycMax n < (s.slot n).cyc + 1 then s.slotFault n 4
    else ((s.spend n 1).sampleEnds n).endSample n)

/-- MC_FAULT (R245, R250): the sample ends and the slot enters fault with cause 1. -/
def execMcFault (n : Fin 96) (s : State) : Out :=
  live s (if !s.mcRuns n .fault then s
    else if s.cycMax n < (s.slot n).cyc + 1 then s.slotFault n 4
    else (((s.spend n 1).sampleEnds n).capture n).slotFault n 1)

/-- MC_FF (R250, R257). -/
def execMcFf (n : Fin 96) (d : Fin 16) (s : State) : Out :=
  live s (s.mc n (.ff d) 1 (fun t => t.satX n d (t.slot n).ff))

/-- MC_INJ (R250, R260). -/
def execMcInj (n : Fin 96) (d : Fin 16) (s : State) : Out := live s (s.mc n (.inj d) 1 (fun t => t.satX n d (t.injValue n)))

/-- MC_EVT (R250, R268). -/
def execMcEvt (n : Fin 96) (e : Fin 4) (s : State) : Out := live s (s.mc n (.evt e) 1 (fun t => t.raise (.slot n) (8 + e)))

/-- MC_ILLEGAL_INSTRUCTION (R251): the word at the program counter is no instruction, or its coefficient index is 16 or more in
region mode. -/
def execMcIllegalInstruction (n : Fin 96) (s : State) : Out :=
  let bad := match mcDecode (s.mcAt n) with
    | none => true
    | some i => s.coefBad n i
  live s (if s.slState n = 2 && bad then s.slotFault n 3 else s)

end Sys2Proof.Machine
end

