-- ==== Sys2Proof/Machine/NvmeAdmin.lean ====
section
/-! DEFINITION. The NVMe admin commands (R355 to R359, R372 to R380) but for the two of firmware update. -/

namespace Sys2Proof.Machine

/-- Command dword `n` of an NVMe entry, 2, 3 or 10 to 15. -/
def HCmd.dword (c : HCmd) (n : Nat) : Nat := (c.dw[if n < 10 then n - 2 else n - 8]?).getD 0

/-- The entry at the front of the admin queue with an opcode is taken (R349, R355). -/
def State.admin (s : State) (opc : Nat) (least ready : HCmd → Bool) (f : State → Nat → HCmd → State) : Out :=
  s.takeCmd 0 (fun c => c.opc == opc) least ready f

/-- A create is refused with its status, as a violation (R384). -/
def State.refuseQueue (s : State) (slot q : Nat) (x : Stat) : State := (s.nvViol 9 0 q).finish slot x

/-- CREATE_IO_CQ (R348, R384). -/
def execCreateIoCq (s : State) : Out :=
  s.admin 0x05 noCmd anyCmd (fun t slot c =>
    let q := bits (c.dword 10) 0 16
    let size := bits (c.dword 10) 16 16 + 1
    let iv := bits (c.dword 11) 16 16
    if q = 0 || 64 < q || (t.cq q).isSome then t.refuseQueue slot q .invalidQueue
    else if size < 2 || 4096 < size then t.refuseQueue slot q .invalidQueueSize
    else if 64 < iv then t.refuseQueue slot q .invalidVector
    else if !bitOf (c.dword 11) 0 then t.finish slot .invalidField
    else (t.setCq q (some ⟨size, iv, bitOf (c.dword 11) 1, 0, 0, true⟩)).finish slot .success)

/-- CREATE_IO_SQ (R348, R384): it pairs with the completion queue of its own number. -/
def execCreateIoSq (s : State) : Out :=
  s.admin 0x01 noCmd anyCmd (fun t slot c =>
    let q := bits (c.dword 10) 0 16
    let size := bits (c.dword 10) 16 16 + 1
    let cq := bits (c.dword 11) 16 16
    if q = 0 || 64 < q || (t.sq q).isSome then t.refuseQueue slot q .invalidQueue
    else if size < 2 || 4096 < size then t.refuseQueue slot q .invalidQueueSize
    else if (t.cq cq).isNone then t.refuseQueue slot q .cqInvalid
    else if cq ≠ q then t.refuseQueue slot q .invalidQueue
    else if !bitOf (c.dword 11) 0 then t.finish slot .invalidField
    else (t.setSq q (some ⟨size, cq, 0, 0⟩)).finish slot .success)

/-- An untaken command is taken out of its queue and answered with a status. -/
def State.cancel (s : State) (slot : Nat) (x : Stat) : State :=
  match s.cmd slot with
  | some c => (s.setWaiting c.queue ((s.waitingOn c.queue).filter (· != slot))).completeNow slot x
  | none => s

/-- A command not yet taken. -/
def HCmd.untaken (c : HCmd) : Bool := c.stage == .parked || c.stage == .moving || c.stage == .queued

/-- DELETE_IO_SQ (R348): entries not yet taken are answered as aborted by the deletion. -/
def execDeleteIoSq (s : State) : Out :=
  s.admin 0x00 noCmd anyCmd (fun t slot c =>
    let q := bits (c.dword 10) 0 16
    if q = 0 || (t.sq q).isNone then t.finish slot .invalidQueue
    else
      let t := (t.slotsWhere (fun x => x.queue == q && x.untaken)).foldl (fun (t : State) k => t.cancel k .sqDeleted) t
      (t.setSq q none).finish slot .success)

/-- DELETE_IO_CQ (R348): not while its submission queue exists. -/
def execDeleteIoCq (s : State) : Out :=
  s.admin 0x04 noCmd anyCmd (fun t slot c =>
    let q := bits (c.dword 10) 0 16
    if q = 0 || (t.cq q).isNone then t.finish slot .invalidQueue
    else if (t.sq q).isSome then t.finish slot .invalidQueueDelete
    else (t.setCq q none).finish slot .success)

/-- The log page identifier of Get Log Page. -/
def HCmd.lid (c : HCmd) : Nat := bits (c.dword 10) 0 8

/-- GET_LOG_PAGE (R378, R519): NUMD dwords of the page from its offset, which page 0xC1 counts in entries; the changed zone list
clears unless the host retains it. -/
def execGetLogPage (s : State) : Out :=
  s.admin 0x02 (fun c => [0x01, 0x03, 0xC1].contains c.lid) anyCmd (fun t slot c =>
    let i := c.nsid - 1
    let n := 4 * (bits (c.dword 10) 16 16 + bits (c.dword 11) 0 16 * 65536 + 1)
    let off := (c.dword 12 + c.dword 13 * 2 ^ 32) * (if c.lid = 0xC1 then 32 else 1)
    match t.logPage c.lid i with
    | none => t.finish slot .invalidLog
    | some bs =>
      let t : State := if c.lid = 0xBF && !bitOf (c.dword 10) 15 then
          { t with hc := { t.hc with zoneList := t.hc.zoneList.filter (fun v => v / 2 ^ 32 != i) } }
        else t
      t.finish slot .success 0 0 none ((bs.drop off).take n))

/-- IDENTIFY (R347, R355, R519). -/
def execIdentify (s : State) : Out :=
  s.admin 0x06 (fun c => bits (c.dword 10) 0 8 == 1) anyCmd (fun t slot c =>
    match t.identifyData c with
    | some bs => t.finish slot .success 0 0 none bs
    | none => t.finish slot .invalidField)

/-- ABORT (R20, R355): an entry not yet taken is removed and answered; for any other dword 0 bit 0 is set. -/
def execAbort (s : State) : Out :=
  s.admin 0x08 noCmd anyCmd (fun t slot c =>
    let q := bits (c.dword 10) 0 16
    let id := bits (c.dword 10) 16 16
    match t.slotsWhere (fun x => x.queue == q && x.ident == id && x.untaken) with
    | k :: _ => (t.cancel k .abortRequested).finish slot .success
    | [] => t.finish slot .success 1)

/-! ### Features (R372 to R375) -/

/-- Set a feature's value. -/
def State.setFeat (s : State) (k v : Nat) : State := { s with hc := { s.hc with feats := Tbl.put 0 s.hc.feats k v } }

/-- A feature is set: its new state and status, and dword 0 of the completion. -/
def State.setFeature (s : State) (slot : Nat) (c : HCmd) : State × Stat × Nat :=
  let v := c.dword 11
  match bits (c.dword 10) 0 8 with
  | 0x01 => (s.setFeat 1 (v % 8), .success, 0)
  | 0x02 => if bits v 5 3 ≠ 0 || 4 < v % 32 then (s, .invalidField, 0) else (s.psRequest (v % 32), .success, 0)
  | 0x04 =>
    if bits v 16 4 ≠ 0 && bits v 16 4 ≠ 15 then (s, .invalidField, 0)
    else if bits v 20 2 = 0 then ({ s with hc := { s.hc with feats := Tbl.put 373 s.hc.feats 4 (v % 65536) } }, .success, 0)
    else if bits v 20 2 = 1 then (s.setFeat 0x104 (v % 65536), .success, 0)
    else (s, .invalidField, 0)
  | 0x05 => if v % 65536 = 0 then (s, .success, 0) else (s, .invalidField, 0)
  | 0x06 => if bitOf v 0 then (s, .success, 0) else (s, .invalidField, 0)
  | 0x07 => if v % 65536 = 65535 || v / 65536 = 65535 then (s, .invalidField, 0) else (s, .success, 63 * 65536 + 63)
  | 0x08 => (s.setFeat 8 (v % 65536), .success, 0)
  | 0x09 => if 64 < v % 65536 then (s, .invalidField, 0) else (s.setFeat (0x900 + v % 65536) (bits v 16 1), .success, 0)
  | 0x0B => (s.setFeat 0x0B v, .success, 0)
  | 0xC0 => let r := s.timecodeSet (s.cmdData c) slot; (r.1, r.2, 0)
  | 0xC1 => let r := s.setParams (byteNums ((s.cmdData c).take 64)); (r.1, r.2, 0)
  | _ => (s, .invalidField, 0)

/-- SET_FEATURES (R372 to R375). -/
def execSetFeatures (s : State) : Out :=
  s.admin 0x09 noCmd anyCmd (fun t slot c =>
    let r := t.setFeature slot c
    r.1.finish slot r.2.1 r.2.2)

/-- The value of a feature in effect, with its data. -/
def State.getFeature (s : State) (fid v : Nat) : Option (Nat × List Byte) :=
  match fid with
  | 0x01 => some (Tbl.look 0 s.hc.feats 1, [])
  | 0x02 => some (s.rcd.ps, [])
  | 0x04 => some (if bits v 20 2 = 1 then Tbl.look 0 s.hc.feats 0x104 else s.overThreshold, [])
  | 0x05 => some (0, [])
  | 0x06 => some (1, [])
  | 0x07 => some (63 * 65536 + 63, [])
  | 0x08 => some (Tbl.look 0 s.hc.feats 8, [])
  | 0x09 => some (v % 65536 + Tbl.look 0 s.hc.feats (0x900 + v % 65536) * 65536, [])
  | 0x0B => some (Tbl.look 0 s.hc.feats 0x0B, [])
  | 0xC0 => some (0, s.timecodeBytes)
  | 0xC1 => some (0, ((List.range 64).map s.param).flatMap (leBytes 1))
  | _ => none

/-- GET_FEATURES (R372 to R375, R519): every Select value returns the value in effect. -/
def execGetFeatures (s : State) : Out :=
  s.admin 0x0A (fun c => bits (c.dword 10) 0 8 == 2) anyCmd (fun t slot c =>
    match t.getFeature (bits (c.dword 10) 0 8) (c.dword 11) with
    | some r => t.finish slot .success r.1 0 none r.2
    | none => t.finish slot .invalidField)

/-- ASYNC_EVENT_REQUEST (R347, R379): an event held is reported at once; eight requests may wait. -/
def execAsyncEventRequest (s : State) : Out :=
  s.admin 0x0C noCmd anyCmd (fun t slot _ =>
    match t.hc.heldEvents with
    | e :: rest =>
      ({ t with hc := { t.hc with heldEvents := rest } } : State).finish slot .success (e.1 + e.2.1 * 256 + e.2.2 * 65536)
    | [] =>
      if 8 ≤ t.hc.aers.length then t.finish slot .aerLimit
      else { t with hc := { t.hc with aers := t.hc.aers ++ [slot] } })

/-! ### Namespaces, sessions, the cartridge -/

/-- NAMESPACE_MANAGEMENT (R358): CDW10 0 creates, 1 deletes. -/
def execNamespaceManagement (s : State) : Out :=
  s.admin 0x0D noCmd (fun _ => !s.mediaPending) (fun t slot c =>
    let bs := t.cmdData c
    let size := leNat (bs.take 8)
    if bits (c.dword 10) 0 4 = 0 then
      (if size ≠ leNat ((bs.drop 8).take 8) || size = 0 || size % 262144 ≠ 0 || leNat ((bs.drop 26).take 1) ≠ 0 ||
          bits (c.dword 11) 24 8 ≠ 2 then t.finish slot .invalidField
      else t.createCommand slot (size / 262144))
    else if bits (c.dword 10) 0 4 = 1 then
      (match c.poolIndex with
      | some i => t.deleteCommand slot i
      | none => t.finish slot .invalidNamespace)
    else t.finish slot .invalidField)

/-- NAMESPACE_ATTACHMENT (R359): the controller list is {1}. -/
def execNamespaceAttachment (s : State) : Out :=
  s.admin 0x15 noCmd (fun _ => !s.mediaPending) (fun t slot c =>
    let bs := t.cmdData c
    match c.poolIndex with
    | none => t.finish slot .invalidNamespace
    | some i =>
      if leNat (bs.take 2) ≠ 1 || leNat ((bs.drop 2).take 2) ≠ 1 then t.finish slot .ctrlListInvalid
      else if bits (c.dword 10) 0 4 = 0 then t.attachCommand slot 0 i false
      else if bits (c.dword 10) 0 4 = 1 then t.detachCommand slot 0 i
      else t.finish slot .invalidField)

/-- DEVICE_SELF_TEST (R380, R485, R486). -/
def execDeviceSelfTest (failed : Nat) (s : State) : Out :=
  s.admin 0x14 noCmd anyCmd (fun t slot c => t.testCommand slot (bits (c.dword 10) 0 4) failed)

/-- NVME_BAKE (R336, R355): NSID 0. -/
def execNvmeBake (s : State) : Out :=
  s.admin 0xC0 noCmd (fun _ => !s.mediaPending) (fun t slot c =>
    if c.nsid ≠ 0 then t.finish slot .invalidField else t.bakeCommand slot)

/-- NVME_SESSION (R326, R327, R355): dword 0 of the completion holds the session number. -/
def execNvmeSession (s : State) : Out :=
  s.admin 0xC4 noCmd (fun _ => !s.mediaPending) (fun t slot c => t.sessionCommand slot (bitOf (c.dword 10) 0))

/-- CARTRIDGE (R100, R355): 0 loads, 1 ejects. -/
def execCartridge (ins : Option Cartridge) (s : State) : Out :=
  s.admin 0xC8 noCmd anyCmd (fun t slot c =>
    if bits (c.dword 10) 0 2 = 0 then t.loadCommand slot ins
    else if bits (c.dword 10) 0 2 = 1 then t.ejectCommand slot
    else t.finish slot .invalidField)

/-- NVME_FORWARDED_ADMIN (R341). -/
def execNvmeForwardedAdmin (s : State) : Out :=
  s.takeCmd 0 (fun c => decide (0xD0 ≤ c.opc) && decide (c.opc ≤ 0xDF)) noCmd anyCmd (fun t slot c => t.forward slot c)

end Sys2Proof.Machine
end

