-- ==== Sys2Proof/Machine/NvmeIo.lean ====
section
/-! DEFINITION. The NVMe I/O commands (R356, R357, R360 to R368). -/

namespace Sys2Proof.Machine

/-- The entry at the front of an I/O queue with an opcode is taken (R349, R356); no I/O queue is served at level 1 (R519). -/
def State.ioTake (s : State) (q : Fin 65) (opc : Nat) (ready : HCmd → Bool) (f : State → Nat → HCmd → State) : Out :=
  s.takeCmd q (fun c => q.val != 0 && c.opc == opc) noCmd ready f

/-- A command on a namespace: an NSID the device does not have is refused. -/
def State.onNs (s : State) (slot : Nat) (c : HCmd) (f : Nat → State) : State :=
  match c.poolIndex with
  | some i => f i
  | none => s.refuseCmd slot .invalidNamespace

/-- The first LBA of an I/O command. -/
def HCmd.slba (c : HCmd) : Nat := c.dword 10 + c.dword 11 * 2 ^ 32

/-- The LBAs of an I/O command. -/
def HCmd.nlb (c : HCmd) : Nat := bits (c.dword 12) 0 16 + 1

/-- FLUSH (R116, R367, R368). -/
def execFlush (q : Fin 65) (s : State) : Out := s.ioTake q 0x00 anyCmd (fun t slot c => t.flushCommand slot c false)

/-- The fields of a write that must be 0 (R356): LR, PRINFO and the directive type; and its length is within 16 MiB (R347). -/
def HCmd.writeFields (c : HCmd) : Bool :=
  bits (c.dword 12) 31 1 == 0 && bits (c.dword 12) 26 4 == 0 && bits (c.dword 12) 20 4 == 0 && decide (c.nlb ≤ 4096)

/-- A Write or Zone Append is checked and placed (R362, R365). -/
def State.nvmeWrite (s : State) (slot : Nat) (c : HCmd) (append : Bool) : State :=
  s.onNs slot c (fun i =>
    if !c.writeFields then s.refuseCmd slot .invalidField
    else s.writeCommand slot c i c.slba c.nlb append (bitOf (c.dword 12) 30))

/-- WRITE (R18, R20, R362, R365). -/
def execWrite (q : Fin 65) (s : State) : Out :=
  s.ioTake q 0x01 (fun _ => s.dataRoom && !s.mediaPending) (fun t slot c => t.nvmeWrite slot c false)

/-- ZONE_APPEND (R356, R362): the completion holds the first LBA written. -/
def execZoneAppend (q : Fin 65) (s : State) : Out :=
  s.ioTake q 0x7D (fun _ => s.dataRoom && !s.mediaPending) (fun t slot c => t.nvmeWrite slot c true)

/-- A read's LBAs await no write (R366). -/
def State.readReady (s : State) (c : HCmd) : Bool :=
  !s.mediaPending && (match c.poolIndex with
    | some i => !s.writesOver i c.slba c.nlb
    | none => true)

/-- READ (R356, R364, R366): LR sets skip3 and skip5. -/
def execRead (q : Fin 65) (s : State) : Out :=
  s.ioTake q 0x02 s.readReady (fun t slot c => t.onNs slot c (fun i =>
    if 4096 < c.nlb || c.dlen < 4096 * c.nlb then t.finish slot .invalidField
    else t.readCommand slot q i c.slba c.nlb false (bitOf (c.dword 12) 31)))

/-- VERIFY (R156, R356): no data moves. -/
def execVerify (q : Fin 65) (s : State) : Out :=
  s.ioTake q 0x0C s.readReady (fun t slot c => t.onNs slot c (fun i =>
    t.readCommand slot q i c.slba c.nlb true (bitOf (c.dword 12) 31)))

/-- ZONE_MGMT_SEND (R356, R360, R361, R363): a finish waits for the data accepted before it. -/
def execZoneMgmtSend (q : Fin 65) (s : State) : Out :=
  s.ioTake q 0x79 (fun c => !s.mediaPending && (bits (c.dword 13) 0 8 != 2 || (match c.poolIndex with
      | some i => s.zoneIdle i
      | none => true))) (fun t slot c => t.onNs slot c (fun i =>
    let all := bitOf (c.dword 13) 8
    match bits (c.dword 13) 0 8 with
    | 1 => t.zoneCommand slot q i .close all c.slba
    | 2 => t.zoneCommand slot q i .finish all c.slba
    | 3 => t.zoneCommand slot q i .open all c.slba
    | 4 => t.zoneCommand slot q i .reset all c.slba
    | 5 => t.zoneCommand slot q i .reset all c.slba
    | _ => t.finish slot .invalidField))

/-- ZONE_MGMT_RECEIVE (R356, R361): Report Zones with every option; Extended Report Zones is refused. -/
def execZoneMgmtReceive (q : Fin 65) (s : State) : Out :=
  s.ioTake q 0x7A (fun _ => !s.mediaPending) (fun t slot c => t.onNs slot c (fun i =>
    let opt := bits (c.dword 13) 8 8
    let x := t.mediaStat q i
    if bits (c.dword 13) 0 8 ≠ 0 || 7 < opt then t.finish slot .invalidField
    else if x ≠ .success then t.finish slot x
    else if (t.pool i).zones * 262144 ≤ c.slba then t.finish slot .lbaRange
    else t.finish slot .success 0 0 none (t.zoneReport false i c.slba opt (bitOf (c.dword 13) 16) (4 * (c.dword 12 + 1)))))

/-- The parameters of a pull in an NVMe entry (R357). -/
def HCmd.roi (c : HCmd) : Roi where
  first := c.dword 10
  fstride := bits (c.dword 11) 0 25
  step := bits (c.dword 12) 0 16
  count := bits (c.dword 12) 16 16
  lbytes := bits (c.dword 13) 0 21
  x := bits (c.dword 14) 0 20
  w := bits (c.dword 15) 0 17
  y := bits (c.dword 2) 0 20
  h := bits (c.dword 3) 0 16

/-- ROI_PULL (R337, R338, R357). -/
def execRoiPull (q : Fin 65) (s : State) : Out :=
  s.ioTake q 0x82 (fun _ => !s.mediaPending) (fun t slot c => t.onNs slot c (fun i =>
    t.pullCommand slot q i c.roi (bits (c.dword 3) 16 16) 16777216))

/-- NVME_FORWARDED_IO (R341). -/
def execNvmeForwardedIo (q : Fin 65) (s : State) : Out :=
  s.takeCmd q (fun c => q.val != 0 && decide (0xD0 ≤ c.opc) && decide (c.opc ≤ 0xDF)) noCmd anyCmd
    (fun t slot c => t.forward slot c)

end Sys2Proof.Machine
end

