-- ==== Sys2Proof/Machine/Registers.lean ====
section
/-! DEFINITION. The register write that has no row of its own (R52 to R58), the reads that latch (R53), and the remote accesses (R544). -/

namespace Sys2Proof.Machine

/-- A register write of `bytes` bytes: through a remote window only as an aligned word, otherwise served here (R52, R54, R544). A requester
with a remote access outstanding makes no second one. -/
def State.registerWrite (s : State) (r : Requester) (off bytes v : Nat) : State :=
  if inRemote off then
    (if bytes ≠ 4 || off % 4 ≠ 0 then s
     else match s.remoteTo off with
     | .nowhere => s
     | .here t => s.busWrite .ring t 4 v (s.core 8).pc
     | .there d t => if s.rg.remote.any (fun x => x.1 == r.num) then s else s.askRemote r.num d t (some v))
  else s.busWrite r off bytes v (s.core 8).pc

/-- REGISTER_WRITE (R52, R54, R56, R57, R58). -/
def execRegisterWrite (r : Requester) (off bytes : Nat) (v : Word) (s : State) : Out :=
  live s (s.registerWrite r off bytes v.toNat)

/-- A read of the register at window offset `off` by requester `r` (R52, R53): its value, and what it latches. -/
def State.registerRead (s : State) (r : Requester) (off : Nat) : State :=
  let p := s.busRead r.num off
  { p.1 with read := { p.1.read with data := p.2 } }

/-- TBSEQLO_READ (R113). -/
def execTbseqloRead (r : Requester) (s : State) : Out := live s (s.registerRead r (UnitId.tray.base + 0x4C))

/-- TRGTLO_READ (R331). -/
def execTrgtloRead (r : Requester) (n : Fin 4) (s : State) : Out :=
  live s (s.registerRead r (UnitId.time.base + 0x90 + 8 * n.val))

/-- TMLO_READ (R463). -/
def execTmloRead (r : Requester) (s : State) : Out := live s (s.registerRead r (UnitId.time.base + 0x40))

/-- TMPPSLO_READ (R475). -/
def execTmppsloRead (r : Requester) (s : State) : Out := live s (s.registerRead r (UnitId.time.base + 0x60))

/-- The window offset of CTLO of an entry of a counter view, or of the counter pod's array for place 8 (R453, R454). -/
def ctLoOffset (place entry : Nat) : Nat :=
  if place = 8 then 0x311000 + 16 * entry else 0x300000 + 0x2000 * place + 16 * entry

/-- CTLO_READ (R454). A guest view has 264 entries; past them there is no register. -/
def execCtloRead (r : Requester) (place : Fin 9) (entry : Fin 320) (s : State) : Out :=
  live s (s.registerRead r (ctLoOffset place.val entry.val))

/-- EBMCLO_READ (R264). -/
def execEbmcloRead (r : Requester) (s : State) : Out := live s (s.registerRead r (UnitId.engine.base + 0x54))

/-- HCLKSTAT_READ (R171). -/
def execHclkstatRead (r : Requester) (h : Fin 4) (s : State) : Out := live s (s.registerRead r (headBase h.val + 0x200))

/-! ### Remote accesses (R544) -/

/-- This device's ports are members of a ring, or master one. -/
def State.onRing (s : State) : Bool :=
  [false, true].any (fun b => s.rnState b == rnMember || s.rnState b == rnMaster)

/-- The target serves a remote access of device `src` as requester 10 (R544, R545 row 6): blocks 32 to 47 read zero and ignore writes. -/
def State.serveRemote (s : State) (src off : Nat) (write : Option Nat) : State :=
  if off % 4 ≠ 0 || 2 ^ 22 ≤ off then
    let t := s.ringViol 6 src off
    match write with
    | some v => t.busWrite .ring off 4 v 0
    | none => t
  else if 32 ≤ off / 0x10000 && off / 0x10000 ≤ 47 then s.ringSend (.reply src 0)
  else match write with
    | some v => (s.busWrite .ring off 4 v 0).ringSend (.reply src 0)
    | none =>
      let p := s.busRead 10 off
      p.1.ringSend (.reply src p.2)

/-- REMOTE_ACCESS_REQUEST (R544). -/
def execRemoteAccessRequest (src off : Nat) (write : Option Word) (s : State) : Out :=
  live s (if s.onRing then s.serveRemote src off (write.map BitVec.toNat) else s)

/-- The core number of a requester, the keeper 8. -/
def Requester.core? : Requester → Option Nat
  | .keeper => some 8
  | .core n => some n.val
  | _ => none

/-- The value `v` of a remote read reaches the load that waits for it; a store only ends its wait. -/
def CWait.land (w : CWait) (s : State) (c v : Nat) : State :=
  let n := if 4 < w.b then w.b - 4 else w.b
  let t := s.updCore c (fun x => { x with wait := none })
  if w.b = 0 then t
  else t.setGreg c w.rd (loadVal n (decide (4 < w.b)) (subBytes v w.a n))

/-- Requester `r`'s remote access completes with the word `v` (R544). -/
def State.remoteDone (s : State) (r : Requester) (v : Nat) : State :=
  match s.rg.remote.find? (fun x => x.1 == r.num) with
  | none => s
  | some e =>
    let t : State := { s with rg := { s.rg with remote := s.rg.remote.filter (fun x => x.1 != r.num) } }
    match r.core? with
    | some c =>
      (match (t.core c).wait with
       | some w => if w.kind = 4 then w.land t c v else t
       | none => t)
    | none => if e.2.2.2.isSome then t else { t with read := { t.read with data := v } }

/-- REMOTE_ACCESS_REPLY (R544). -/
def execRemoteAccessReply (q : Requester) (v : Word) (s : State) : Out := live s (s.remoteDone q v.toNat)

/-- A remote access without reply within 1 ms (R544): a read returns all ones, a write is lost. -/
def State.remoteTimeout (s : State) (r : Requester) : State :=
  match s.rg.remote.find? (fun x => x.1 == r.num) with
  | none => s
  | some e =>
    (((s.remoteDone r 0xFFFFFFFF).incSat .ring F.RWSTAT_timeouts).report .ring 11 e.2.1 e.2.2.1).raise .ring 11

/-- REMOTE_ACCESS_TIMEOUT (R544). -/
def execRemoteAccessTimeout (q : Requester) (s : State) : Out := live s (s.remoteTimeout q)

end Sys2Proof.Machine
end

