-- ==== Sys2Proof/Machine/Update.lean ====
section
/-! DEFINITION. Firmware update: packages and download sessions (R563 to R566), the full check and key enrolment (R567, R570), activation
(R568, R572) and the loader's services (R561). -/

namespace Sys2Proof.Machine

/-! ### Packages (R563, R564) -/

/-- The two header blocks of a package pass their CRC-32C and field checks (R563). -/
def pkgOk (h : List Byte) : Bool :=
  let num (o k : Nat) : Nat := leNat ((h.drop o).take k)
  let len := num 8 4
  let n := num 0xC 4
  h.take 4 == [0x50, 0x4B, 0x47, 0x49] && num 4 2 == 1 && (decide (num 6 1 ≤ 15) || num 6 1 == 0xFE) && num 7 1 == 0 &&
  decide (len ≤ 7340032) && n == (len + 4095) / 4096 && allZero ((h.drop 0x10).take 48) &&
  allZero ((h.take 0x1FFC).drop (0x40 + 4 * n)) && num 0x1FFC 4 == crc32c (h.take 0x1FFC)

/-- The session that a header opens. -/
def pkgSession (sas : Bool) (h : List Byte) : FwSession :=
  let num (o k : Nat) : Nat := leNat ((h.drop o).take k)
  ⟨sas, num 6 1, num 8 4, (List.range (num 0xC 4)).map (fun i => num (0x40 + 4 * i) 4), [], [], []⟩

/-- The loader provides the service (R519, R572). -/
def State.byLoader (s : State) : Bool := s.rd .power F.PWSTART_level == 1 && !s.flag .power F.PWSTART_provider

/-- The open session belongs to the other interface. -/
def State.fwBusy (s : State) (sas : Bool) : Bool := s.fw.session.any (fun x => x.sas != sas)

/-- A header block arrives (R564): the owner's session is abandoned; with both blocks present and good a new one starts. The loader
accepts targets 0 to 2 alone (R572). -/
def State.fwHeader (s : State) (sas : Bool) (p block : Nat) : State × Stat :=
  let key (i : Nat) : Nat := 2 * b2n sas + i
  let heads := Tbl.put 0 s.fw.heads (key p) (block + 1)
  let t : State := { s with fw := { s.fw with heads := heads, session := none, passed := false } }
  let h0 := Tbl.look 0 heads (key 0)
  let h1 := Tbl.look 0 heads (key 1)
  if h0 = 0 || h1 = 0 then (t, .success)
  else
    let h := leBytes 4096 (h0 - 1) ++ leBytes 4096 (h1 - 1)
    let u : State := { t with fw := { t.fw with heads := Tbl.put 0 (Tbl.put 0 heads (key 0) 0) (key 1) 0 } }
    let x := pkgSession sas h
    if !pkgOk h || (u.byLoader && 2 < x.target) then (u, .invalidField)
    else ({ u with fw := { u.fw with session := some x } }, .success)

/-! ### Blocks (R565) -/

/-- Block `i` of the open session arrives (R565): its CRC-32C, its sector's erase, and its sixteen pages. -/
def State.fwBlock (s : State) (x : FwSession) (i block : Nat) : State × Stat :=
  let bs := leBytes 4096 block
  if x.crcs.length ≤ i || x.crcs[i]? ≠ some (crc32c bs) then (s, .invalidField)
  else if x.blocks.contains i then (s, .overlapRange)
  else if x.target = 0xFE then
    ({ s with fw := { s.fw with session := some { x with blocks := i :: x.blocks, enrol := Tbl.put 0 x.enrol i block } } }, .success)
  else
    let off := imageOff x.target + 4096 * i
    let k := i / 16
    let t := if x.sectors.contains k then s else s.norErase (imageOff x.target + 65536 * k) 65536
    let t := t.norProgram off bs
    let x := { x with blocks := i :: x.blocks, sectors := if x.sectors.contains k then x.sectors else k :: x.sectors }
    ({ t with fw := { t.fw with session := some x } }, .success)

/-- One block of a package at its place `p`. -/
def State.fwPlace (s : State) (sas : Bool) (p block : Nat) : State × Stat :=
  if s.fwBusy sas then (s, .busy)
  else if p < 2 then s.fwHeader sas p block
  else match s.fw.session with
    | none => (s, .invalidField)
    | some x => s.fwBlock x (p - 2) block

/-- The blocks of a command one after the other; the first that fails ends it. -/
def State.fwBlocks (s : State) (sas : Bool) (a : Nat) : Nat → Nat → State × Stat
  | 0, _ => (s, .success)
  | n + 1, p =>
    let r := s.fwPlace sas p (s.readLE a 4096)
    if r.2 = .success then State.fwBlocks r.1 sas (a + 4096) n (p + 1) else r

/-- A download of `len` bytes at package offset `off`, whose data lies at `a` (R566, R572). -/
def State.fwDownload (s : State) (sas : Bool) (a off len dlen : Nat) : State × Stat :=
  let most := if s.rd .power F.PWSTART_level = 1 then 65536 else 16777216
  if off % 4096 ≠ 0 || len % 4096 ≠ 0 || most < len || dlen < len then (s, .invalidField)
  else s.fwBlocks sas a (len / 4096) (off / 4096)

/-! ### The full check (R567, R570) -/

/-- Every block of the session has been programmed. -/
def FwSession.complete (x : FwSession) : Bool := x.blocks.length == x.crcs.length

/-- The bytes of an enrolment image. -/
def FwSession.enrolBytes (x : FwSession) : List Byte :=
  ((List.range x.crcs.length).flatMap (fun i => leBytes 4096 (Tbl.look 0 x.enrol i))).take x.len

/-- Word `i` of the hash of a public key as KEYSLOT`i` holds it (R58). -/
def keyWord (hash : List Byte) (i : Nat) : Nat := leNat ((hash.drop (4 * i)).take 4)

/-- An enrolment image passes (R570). -/
def State.enrolOk (s : State) (bs : List Byte) : Bool :=
  let num (o k : Nat) : Nat := leNat ((bs.drop o).take k)
  let part (o k : Nat) : List Byte := (bs.drop o).take k
  let hash := sha384 (part 0x20 97)
  let mask := s.rd .key F.KEYMASK_mask
  bs.take 4 == [0x4A, 0x4F, 0x42, 0x49] && num 4 2 == 1 && num 6 1 == 5 && num 7 1 == 1 && num 0xC 4 == 0 && num 0x10 4 == 64 &&
  num 0x14 4 == 0 && num 0x18 4 == 0 && num 0x1C 4 == 0 && allZero (part 0x81 31) && allZero (part 0x130 16) && bs.length == 384 &&
  sha384 (part 320 64) == part 0xA0 48 && Config.sigVerifies (part 0x20 97) (sha384 (part 0 0xD0)) (part 0xD0 96) &&
  num 320 8 == Config.moduleSerial % 2 ^ 64 && allZero (part 328 56) && mask != 0xFFF &&
  (List.range 12).all (fun i => !bitOf mask i || s.rd .key (F.KEYSLOT i) == keyWord hash i)

/-- The keeper writes every KEYSLOT not yet written (R58, R570). -/
def State.enrolKey (s : State) (bs : List Byte) : State :=
  let hash := sha384 ((bs.drop 0x20).take 97)
  let mask := s.rd .key F.KEYMASK_mask
  ((List.range 12).foldl (fun (t : State) i => if bitOf mask i then t else t.wr .key (F.KEYSLOT i) (keyWord hash i)) s).wr .key
    F.KEYMASK_mask 0xFFF

/-- The check passed: KEEP_FWREADY, and the session closes; the version of slot 1 follows slot 0 (R567, R569). -/
def State.fwPass (s : State) (target : Nat) : State :=
  let t : State := { s with fw := { s.fw with session := none, passed := target != 0xFE } }
  let t : State := if target = 0 then { t with fw := { t.fw with rev := t.imgNum 0 8 4 } } else t
  t.raise .keeper 26

/-- The check of what the session has delivered, or of the image in slot 0 (R567, R570). -/
def State.fwCheck (s : State) : State × Stat :=
  match s.fw.session with
  | some x =>
    if !x.complete then (s, .invalidImage)
    else if x.target = 0xFE then
      (if s.enrolOk x.enrolBytes then (((s.enrolKey x.enrolBytes).raise .keeper 27).fwPass 0xFE, .success)
      else (s.raise .keeper 25, .invalidImage))
    else if s.imgFailure x.target = 0 then (s.fwPass x.target, .success)
    else (s.raise .keeper 25, .invalidImage)
  | none => if s.imgFailure 0 = 0 then (s.fwPass 0, .success) else (s.raise .keeper 25, .invalidImage)

/-- Activation is armed (R568); where the loader serves, it resets the device after the completion (R572). -/
def State.arm (s : State) : State :=
  if s.byLoader then { s with fw := { s.fw with loaderReset := true } } else { s with fw := { s.fw with armed := true } }

/-! ### Commands (R566) -/

/-- FIRMWARE_IMAGE_DOWNLOAD (R380, R565, R566): NUMD dwords, less one, in dword 10 and the offset in dwords in dword 11. -/
def execFirmwareImageDownload (s : State) : Out :=
  s.admin 0x11 anyCmd anyCmd (fun t slot c =>
    let r := t.fwDownload false c.dbuf (4 * c.dword 11) (4 * (c.dword 10 + 1)) c.dlen
    if r.2 = .success then (r.1.dropSlot slot).finish slot .success else r.1.refuseCmd slot r.2)

/-- Whether the slot's image is one whose pass arms activation. -/
def State.armsWith (s : State) : Bool := !s.fw.session.any (fun x => x.target == 0xFE)

/-- FIRMWARE_COMMIT (R380, R566 to R568): FS 0 or 1 in bits 2 to 0 of dword 10, the action in bits 5 to 3. -/
def execFirmwareCommit (s : State) : Out :=
  s.admin 0x10 anyCmd anyCmd (fun t slot c =>
    let fs := bits (c.dword 10) 0 3
    let act := bits (c.dword 10) 3 3
    if 3 ≤ act then t.finish slot .invalidField
    else if 2 ≤ fs then t.finish slot .invalidSlot
    else if t.fw.session.isNone && act ≠ 2 then t.finish slot .invalidImage
    else
      let arms := t.armsWith
      let r := t.fwCheck
      if r.2 ≠ .success then r.1.finish slot r.2
      else (if act ≠ 0 && arms then r.1.arm else r.1).finish slot .success)

/-- WRITE_BUFFER (R395, R566, R568): mode 0x0E delivers blocks, the last of which brings the check; mode 0x0F activates what passed. -/
def execWriteBuffer (port : Fin 2) (s : State) : Out :=
  s.scsi port (opcIs 0x3B) anyCmd anyCmd (fun t slot c =>
    let mode := c.cb 1 % 32
    let len := c.be 6 3
    let run :=
      if mode = 0x0E && c.cb 2 = 0 then
        let r := t.fwDownload true c.dbuf (c.be 3 3) len c.dlen
        let r := if r.2 = .success && r.1.fw.session.any FwSession.complete then r.1.fwCheck else r
        let x : Stat := if r.2 = .overlapRange || r.2 = .invalidImage || r.2 = .invalidField then .invalidParam else r.2
        if x = .success then (r.1.dropSlot slot).finish slot .success else r.1.refuseCmd slot x
      else if mode = 0x0F && len = 0 && t.fw.passed then
        let u := t.finish slot .success
        (if u.byLoader then u.arm else u.beginActivation)
      else t.refuseCmd slot .invalidField
    if t.rd .power F.PWSTART_level = 1 then run else t.onDevice slot c run)

/-! ### Activation (R568, R572) -/

/-- ACTIVATION_DRAIN_DONE (R568): writes, checkpoint, state record and records are done: PWCTRL.devreset is written. -/
def execActivationDrainDone (s : State) : Out :=
  if !s.fw.going || s.rcd.drains.contains .activation || !s.drained || s.rcd.ckpt.isSome || s.rcd.ckptWanted ||
      (s.rcd.cmDue && s.rcd.cmStatus == 0) || !s.recs.queue.isEmpty || s.recs.job.isSome then .next s
  else live s (s.powerControl 1)

/-- LOADER_ACTIVATION_RESET (R572): 10 ms after the completion the loader resets the device for a normal start. -/
def execLoaderActivationReset (s : State) : Out :=
  if !s.fw.loaderReset then .next s
  else
    let t := (s.wr .power F.PWMODE_mode 0).wr .power F.PWSKIP_skip 0
    live s (({ t with fw := { t.fw with going := true } } : State).powerControl 1)

/-! ### The loader's services (R561) -/

/-- A service ends (R561): its result is in g2, the keeper goes on behind its JAL, and a result other than 0 leaves a crumb. -/
def State.serviceEnd (s : State) (result off : Nat) : State :=
  let t := (s.setGreg 8 2 result).updCore 8 (fun x => { x with pc := Tbl.look 0 x.g 31 })
  if result = 0 then t else t.crumb 3 0 .keeper (0x40 + result) off 0

/-- The keeper runs. -/
def State.keeperRuns (s : State) : Bool := s.rd .keeper F.USTAT_state == 3

/-- LOADER_ERASE_CALL (R560, R561): the sector at g4 is erased and must read erased. -/
def execLoaderEraseCall (err : Bool) (s : State) : Out :=
  if !s.keeperRuns then .next s
  else
    let off := s.greg 8 4
    if off < 0x10000 || off % 65536 ≠ 0 || 0x8000000 ≤ off then live s (s.serviceEnd 2 off)
    else
      let t := if err then s.norFail off 65536 [] else s.norErase off 65536
      let clean : Bool := (t.readBytes (norAddr off) 65536).all (· == 0xFF)
      live s (t.serviceEnd (if clean then 0 else 4) off)

/-- LOADER_PROGRAM_CALL (R560, R561): the target must be erased; up to 256 bytes of one page are programmed and read back. -/
def execLoaderProgramCall (err : Bool) (s : State) : Out :=
  if !s.keeperRuns then .next s
  else
    let off := s.greg 8 4
    let len := s.greg 8 6
    let data := s.readBytes (sramBase 8 + s.greg 8 5 % 0x80000) len
    if off < 0x10000 || len = 0 || 256 < len || 256 < off % 256 + len || 0x8000000 ≤ off then live s (s.serviceEnd 2 off)
    else if !(s.readBytes (norAddr off) len).all (· == 0xFF) then live s (s.serviceEnd 1 off)
    else
      let t := if err then s.norFail off len data else s.norProgram off data
      let same : Bool := t.readBytes (norAddr off) len == data
      live s (t.serviceEnd (if same then 0 else 3) off)

end Sys2Proof.Machine
end

