-- ==== Sys2Proof/Machine/Dispatch.lean ====
section
/-! DEFINITION. The dispatch: one arm per command, each one direct call of its meaning. -/

namespace Sys2Proof.Machine

/-- The effect of a command on everything but the queue. -/
def exec (i : Instr) (s : State) : Host.Outcome State Fault Refusal :=
  match i with
  | .registerWrite r off bytes v => Sys2Proof.Machine.execRegisterWrite r off bytes v s
  | .evforceWrite r u v => Sys2Proof.Machine.execEvforceWrite r u v s
  | .evclrWrite r u v occ present => Sys2Proof.Machine.execEvclrWrite r u v occ present s
  | .ulockWrite r u v => Sys2Proof.Machine.execUlockWrite r u v s
  | .tbseqloRead r => Sys2Proof.Machine.execTbseqloRead r s
  | .trgtloRead r n => Sys2Proof.Machine.execTrgtloRead r n s
  | .tmloRead r => Sys2Proof.Machine.execTmloRead r s
  | .tmppsloRead r => Sys2Proof.Machine.execTmppsloRead r s
  | .ctloRead r place entry => Sys2Proof.Machine.execCtloRead r place entry s
  | .ebmcloRead r => Sys2Proof.Machine.execEbmcloRead r s
  | .hclkstatRead r h => Sys2Proof.Machine.execHclkstatRead r h s
  | .traySeal => Sys2Proof.Machine.execTraySeal s
  | .sealTimeout => Sys2Proof.Machine.execSealTimeout s
  | .tbctrlSealnow r v => Sys2Proof.Machine.execTbctrlSealnow r v s
  | .trayUnitTake eccFail => Sys2Proof.Machine.execTrayUnitTake eccFail s
  | .trayPageTake journal eccFail => Sys2Proof.Machine.execTrayPageTake journal eccFail s
  | .outerParityDone seq => Sys2Proof.Machine.execOuterParityDone seq s
  | .trayReadinessCheck => Sys2Proof.Machine.execTrayReadinessCheck s
  | .headReadyTimeout => Sys2Proof.Machine.execHeadReadyTimeout s
  | .trayWindowWrite => Sys2Proof.Machine.execTrayWindowWrite s
  | .blockPayloadEnd b => Sys2Proof.Machine.execBlockPayloadEnd b s
  | .drawVerdict pos b seen => Sys2Proof.Machine.execDrawVerdict pos b seen s
  | .beamUnderrun b => Sys2Proof.Machine.execBeamUnderrun b s
  | .holdKickback h => Sys2Proof.Machine.execHoldKickback h s
  | .tbzidWrite r v => Sys2Proof.Machine.execTbzidWrite r v s
  | .tbzwpWrite r v => Sys2Proof.Machine.execTbzwpWrite r v s
  | .tbhwctrlZero r => Sys2Proof.Machine.execTbhwctrlZero r s
  | .hwZeroDone => Sys2Proof.Machine.execHwZeroDone s
  | .tbhwctrlValid r => Sys2Proof.Machine.execTbhwctrlValid r s
  | .tbhwdataWrite r v => Sys2Proof.Machine.execTbhwdataWrite r v s
  | .flushComplete => Sys2Proof.Machine.execFlushComplete s
  | .bwctrlRetire r b => Sys2Proof.Machine.execBwctrlRetire r b s
  | .drawIntervalEnd b => Sys2Proof.Machine.execDrawIntervalEnd b s
  | .cmUpdate fail => Sys2Proof.Machine.execCmUpdate fail s
  | .drainComplete failed => Sys2Proof.Machine.execDrainComplete failed s
  | .mediaStateDecide lost hidden fails => Sys2Proof.Machine.execMediaStateDecide lost hidden fails s
  | .leadinReadDone h => Sys2Proof.Machine.execLeadinReadDone h s
  | .readDescriptorStart => Sys2Proof.Machine.execReadDescriptorStart s
  | .readQueueEmptyResume => Sys2Proof.Machine.execReadQueueEmptyResume s
  | .inlineVerdict pos b seen peak mean => Sys2Proof.Machine.execInlineVerdict pos b seen peak mean s
  | .deepDecodeDone pos b p ok => Sys2Proof.Machine.execDeepDecodeDone pos b p ok s
  | .step3PassEnd pos seens => Sys2Proof.Machine.execStep3PassEnd pos seens s
  | .outerRecovery pos p bad => Sys2Proof.Machine.execOuterRecovery pos p bad s
  | .step5GatherTimeout => Sys2Proof.Machine.execStep5GatherTimeout s
  | .positionBlank pos => Sys2Proof.Machine.execPositionBlank pos s
  | .mrstailWrite r v => Sys2Proof.Machine.execMrstailWrite r v s
  | .readTableSwap b l0 z0 l z => Sys2Proof.Machine.execReadTableSwap b l0 z0 l z s
  | .brliveWrite r b w v => Sys2Proof.Machine.execBrliveWrite r b w v s
  | .mrbasehiWrite r v => Sys2Proof.Machine.execMrbasehiWrite r v s
  | .mrbaseApply => Sys2Proof.Machine.execMrbaseApply s
  | .synthLock h err => Sys2Proof.Machine.execSynthLock h err s
  | .synthLost h => Sys2Proof.Machine.execSynthLost h s
  | .sinkOverflow pos b p => Sys2Proof.Machine.execSinkOverflow pos b p s
  | .wedgePosition h num parityOk dj gray => Sys2Proof.Machine.execWedgePosition h num parityOk dj gray s
  | .servoConversionDone h c raw plus => Sys2Proof.Machine.execServoConversionDone h c raw plus s
  | .adcFreezeTrip h c => Sys2Proof.Machine.execAdcFreezeTrip h c s
  | .hadccfgGainWrite r h c v => Sys2Proof.Machine.execHadccfgGainWrite r h c v s
  | .comparatorTrip h lay level => Sys2Proof.Machine.execComparatorTrip h lay level s
  | .comparatorRelease h lay level => Sys2Proof.Machine.execComparatorRelease h lay level s
  | .seqAcquire r h pair layer group => Sys2Proof.Machine.execSeqAcquire r h pair layer group s
  | .seqSeek r h pair layer group => Sys2Proof.Machine.execSeqSeek r h pair layer group s
  | .seqLayer r h pair layer group => Sys2Proof.Machine.execSeqLayer r h pair layer group s
  | .seqSeekLayer r h pair layer group => Sys2Proof.Machine.execSeqSeekLayer r h pair layer group s
  | .seqHold r h pair layer group => Sys2Proof.Machine.execSeqHold r h pair layer group s
  | .seqLeadin r h pair layer group => Sys2Proof.Machine.execSeqLeadin r h pair layer group s
  | .seqRelease r h pair layer group => Sys2Proof.Machine.execSeqRelease r h pair layer group s
  | .seqStepDone h thr => Sys2Proof.Machine.execSeqStepDone h thr s
  | .seqStepTimeout h => Sys2Proof.Machine.execSeqStepTimeout h s
  | .layerJumpAuto => Sys2Proof.Machine.execLayerJumpAuto s
  | .layerJumpTimeout h => Sys2Proof.Machine.execLayerJumpTimeout h s
  | .focusReacquireTimer h => Sys2Proof.Machine.execFocusReacquireTimer h s
  | .spinStart r slow => Sys2Proof.Machine.execSpinStart r slow s
  | .spinChange r slow => Sys2Proof.Machine.execSpinChange r slow s
  | .spinStop r => Sys2Proof.Machine.execSpinStop r s
  | .spinShortBrake r => Sys2Proof.Machine.execSpinShortBrake r s
  | .spinCoast r => Sys2Proof.Machine.execSpinCoast r s
  | .spindleTick ia ib ic count speed angle => Sys2Proof.Machine.execSpindleTick ia ib ic count speed angle s
  | .spinRestDetected => Sys2Proof.Machine.execSpinRestDetected s
  | .spinAlignDone cs => Sys2Proof.Machine.execSpinAlignDone cs s
  | .spinEncoderTimeout reverse => Sys2Proof.Machine.execSpinEncoderTimeout reverse s
  | .spinSpeedReached => Sys2Proof.Machine.execSpinSpeedReached s
  | .clockTakeDone ok index => Sys2Proof.Machine.execClockTakeDone ok index s
  | .speedErrorPersist => Sys2Proof.Machine.execSpeedErrorPersist s
  | .speedChangeDone relocked => Sys2Proof.Machine.execSpeedChangeDone relocked s
  | .vmotRegencut mv => Sys2Proof.Machine.execVmotRegencut mv s
  | .vmotBrake mv => Sys2Proof.Machine.execVmotBrake mv s
  | .vmotWatchRelease mv => Sys2Proof.Machine.execVmotWatchRelease mv s
  | .vmotOver mv => Sys2Proof.Machine.execVmotOver mv s
  | .vmotUvwarn mv => Sys2Proof.Machine.execVmotUvwarn mv s
  | .vmotUvfault mv => Sys2Proof.Machine.execVmotUvfault mv s
  | .stepModeStop r n enable => Sys2Proof.Machine.execStepModeStop r n enable s
  | .stepModeMove r n enable => Sys2Proof.Machine.execStepModeMove r n enable s
  | .stepModeGear r n enable => Sys2Proof.Machine.execStepModeGear r n enable s
  | .sttargetWrite r n v => Sys2Proof.Machine.execSttargetWrite r n v s
  | .stposWrite r n v => Sys2Proof.Machine.execStposWrite r n v s
  | .sttdataWrite r n v => Sys2Proof.Machine.execSttdataWrite r n v s
  | .stfollowWrite r n v => Sys2Proof.Machine.execStfollowWrite r n v s
  | .stepDone n pos => Sys2Proof.Machine.execStepDone n pos s
  | .stepOvercurrent n => Sys2Proof.Machine.execStepOvercurrent n s
  | .stepStandstill n => Sys2Proof.Machine.execStepStandstill n s
  | .stepLimit out => Sys2Proof.Machine.execStepLimit out s
  | .vcctrlRetract r n => Sys2Proof.Machine.execVcctrlRetract r n s
  | .vcmRampDone n => Sys2Proof.Machine.execVcmRampDone n s
  | .vcmCoilFault n short => Sys2Proof.Machine.execVcmCoilFault n short s
  | .slotSampleInstant n k ext prof same => Sys2Proof.Machine.execSlotSampleInstant n k ext prof same s
  | .slotDispatch lane par capLost => Sys2Proof.Machine.execSlotDispatch lane par capLost s
  | .slotRunWrite r n v => Sys2Proof.Machine.execSlotRunWrite r n v s
  | .slotConfigWrite r n w v => Sys2Proof.Machine.execSlotConfigWrite r n w v s
  | .slcdataWrite r n v => Sys2Proof.Machine.execSlcdataWrite r n v s
  | .slcselWrite r n v => Sys2Proof.Machine.execSlcselWrite r n v s
  | .slbankSwap r n => Sys2Proof.Machine.execSlbankSwap r n s
  | .tuneRelay r n v => Sys2Proof.Machine.execTuneRelay r n v s
  | .tuneSine r n v => Sys2Proof.Machine.execTuneSine r n v s
  | .tuneChirp r n v => Sys2Proof.Machine.execTuneChirp r n v s
  | .tunePrbs r n v => Sys2Proof.Machine.execTunePrbs r n v s
  | .tuneOff r n v => Sys2Proof.Machine.execTuneOff r n v s
  | .slotTunedone n => Sys2Proof.Machine.execSlotTunedone n s
  | .slotCapdone n => Sys2Proof.Machine.execSlotCapdone n s
  | .ebmchiWrite r v => Sys2Proof.Machine.execEbmchiWrite r v s
  | .slxdataWrite r n v => Sys2Proof.Machine.execSlxdataWrite r n v s
  | .loopLoadWindow => Sys2Proof.Machine.execLoopLoadWindow s
  | .mcNop n => Sys2Proof.Machine.execMcNop n s
  | .mcLdi n d imm => Sys2Proof.Machine.execMcLdi n d imm s
  | .mcMov n d a => Sys2Proof.Machine.execMcMov n d a s
  | .mcIn n d a => Sys2Proof.Machine.execMcIn n d a s
  | .mcOut n d a => Sys2Proof.Machine.execMcOut n d a s
  | .mcLds n d w => Sys2Proof.Machine.execMcLds n d w s
  | .mcSts n w a => Sys2Proof.Machine.execMcSts n w a s
  | .mcLdc n d c => Sys2Proof.Machine.execMcLdc n d c s
  | .mcLda n d a => Sys2Proof.Machine.execMcLda n d a s
  | .mcLdsa n d w => Sys2Proof.Machine.execMcLdsa n d w s
  | .mcStsa n w a => Sys2Proof.Machine.execMcStsa n w a s
  | .mcAdd n d a b => Sys2Proof.Machine.execMcAdd n d a b s
  | .mcSub n d a b => Sys2Proof.Machine.execMcSub n d a b s
  | .mcNeg n d a => Sys2Proof.Machine.execMcNeg n d a s
  | .mcAbs n d a => Sys2Proof.Machine.execMcAbs n d a s
  | .mcMin n d a b => Sys2Proof.Machine.execMcMin n d a b s
  | .mcMax n d a b => Sys2Proof.Machine.execMcMax n d a b s
  | .mcClp n d a c => Sys2Proof.Machine.execMcClp n d a c s
  | .mcShl n d a sh => Sys2Proof.Machine.execMcShl n d a sh s
  | .mcShr n d a sh => Sys2Proof.Machine.execMcShr n d a sh s
  | .mcMul n d a b sh => Sys2Proof.Machine.execMcMul n d a b sh s
  | .mcDiv n d a b => Sys2Proof.Machine.execMcDiv n d a b s
  | .mcClr n d => Sys2Proof.Machine.execMcClr n d s
  | .mcMac n d a c => Sys2Proof.Machine.execMcMac n d a c s
  | .mcMsu n d a c => Sys2Proof.Machine.execMcMsu n d a c s
  | .mcMacx n d a b => Sys2Proof.Machine.execMcMacx n d a b s
  | .mcAdda n d b => Sys2Proof.Machine.execMcAdda n d b s
  | .mcRnd n d a sh => Sys2Proof.Machine.execMcRnd n d a sh s
  | .mcBr n dest cond a => Sys2Proof.Machine.execMcBr n dest cond a s
  | .mcEnd n => Sys2Proof.Machine.execMcEnd n s
  | .mcFault n => Sys2Proof.Machine.execMcFault n s
  | .mcFf n d => Sys2Proof.Machine.execMcFf n d s
  | .mcInj n d => Sys2Proof.Machine.execMcInj n d s
  | .mcEvt n e => Sys2Proof.Machine.execMcEvt n e s
  | .add c x rd ra rb => Sys2Proof.Machine.execAdd c x rd ra rb s
  | .sub c x rd ra rb => Sys2Proof.Machine.execSub c x rd ra rb s
  | .and c x rd ra rb => Sys2Proof.Machine.execAnd c x rd ra rb s
  | .or c x rd ra rb => Sys2Proof.Machine.execOr c x rd ra rb s
  | .xor c x rd ra rb => Sys2Proof.Machine.execXor c x rd ra rb s
  | .andn c x rd ra rb => Sys2Proof.Machine.execAndn c x rd ra rb s
  | .sll c x rd ra rb => Sys2Proof.Machine.execSll c x rd ra rb s
  | .srl c x rd ra rb => Sys2Proof.Machine.execSrl c x rd ra rb s
  | .sra c x rd ra rb => Sys2Proof.Machine.execSra c x rd ra rb s
  | .clt c x rd ra rb => Sys2Proof.Machine.execClt c x rd ra rb s
  | .cltu c x rd ra rb => Sys2Proof.Machine.execCltu c x rd ra rb s
  | .mul c x rd ra rb => Sys2Proof.Machine.execMul c x rd ra rb s
  | .mulh c x rd ra rb => Sys2Proof.Machine.execMulh c x rd ra rb s
  | .mulhu c x rd ra rb => Sys2Proof.Machine.execMulhu c x rd ra rb s
  | .div c x rd ra rb => Sys2Proof.Machine.execDiv c x rd ra rb s
  | .divu c x rd ra rb => Sys2Proof.Machine.execDivu c x rd ra rb s
  | .rem c x rd ra rb => Sys2Proof.Machine.execRem c x rd ra rb s
  | .remu c x rd ra rb => Sys2Proof.Machine.execRemu c x rd ra rb s
  | .clz c x rd ra => Sys2Proof.Machine.execClz c x rd ra s
  | .popc c x rd ra => Sys2Proof.Machine.execPopc c x rd ra s
  | .bswap c x rd ra => Sys2Proof.Machine.execBswap c x rd ra s
  | .addi c x rd ra v => Sys2Proof.Machine.execAddi c x rd ra v s
  | .andi c x rd ra v => Sys2Proof.Machine.execAndi c x rd ra v s
  | .ori c x rd ra v => Sys2Proof.Machine.execOri c x rd ra v s
  | .xori c x rd ra v => Sys2Proof.Machine.execXori c x rd ra v s
  | .clti c x rd ra v => Sys2Proof.Machine.execClti c x rd ra v s
  | .cltiu c x rd ra v => Sys2Proof.Machine.execCltiu c x rd ra v s
  | .shi c x kind rd ra n => Sys2Proof.Machine.execShi c x kind rd ra n s
  | .ldhi c x rd v => Sys2Proof.Machine.execLdhi c x rd v s
  | .addpch c x rd v => Sys2Proof.Machine.execAddpch c x rd v s
  | .pref c x ra v => Sys2Proof.Machine.execPref c x ra v s
  | .lb c x rd ra v => Sys2Proof.Machine.execLb c x rd ra v s
  | .lbu c x rd ra v => Sys2Proof.Machine.execLbu c x rd ra v s
  | .lh c x rd ra v => Sys2Proof.Machine.execLh c x rd ra v s
  | .lhu c x rd ra v => Sys2Proof.Machine.execLhu c x rd ra v s
  | .lw c x rd ra v => Sys2Proof.Machine.execLw c x rd ra v s
  | .lwu c x rd ra v => Sys2Proof.Machine.execLwu c x rd ra v s
  | .sb c x rs ra v => Sys2Proof.Machine.execSb c x rs ra v s
  | .sh c x rs ra v => Sys2Proof.Machine.execSh c x rs ra v s
  | .sw c x rs ra v => Sys2Proof.Machine.execSw c x rs ra v s
  | .swap c x rd ra rb => Sys2Proof.Machine.execSwap c x rd ra rb s
  | .amoadd c x rd ra rb => Sys2Proof.Machine.execAmoadd c x rd ra rb s
  | .amoand c x rd ra rb => Sys2Proof.Machine.execAmoand c x rd ra rb s
  | .amoor c x rd ra rb => Sys2Proof.Machine.execAmoor c x rd ra rb s
  | .cas c x rd ra rb => Sys2Proof.Machine.execCas c x rd ra rb s
  | .beq c x ra rb off => Sys2Proof.Machine.execBeq c x ra rb off s
  | .bne c x ra rb off => Sys2Proof.Machine.execBne c x ra rb off s
  | .blt c x ra rb off => Sys2Proof.Machine.execBlt c x ra rb off s
  | .bge c x ra rb off => Sys2Proof.Machine.execBge c x ra rb off s
  | .bltu c x ra rb off => Sys2Proof.Machine.execBltu c x ra rb off s
  | .bgeu c x ra rb off => Sys2Proof.Machine.execBgeu c x ra rb off s
  | .j c x off => Sys2Proof.Machine.execJ c x off s
  | .jal c x off => Sys2Proof.Machine.execJal c x off s
  | .jalr c x rd ra v => Sys2Proof.Machine.execJalr c x rd ra v s
  | .rdc c x rd k => Sys2Proof.Machine.execRdc c x rd k s
  | .wrc c x ra k => Sys2Proof.Machine.execWrc c x ra k s
  | .tret c x => Sys2Proof.Machine.execTret c x s
  | .trap c x v => Sys2Proof.Machine.execTrap c x v s
  | .inv c x n => Sys2Proof.Machine.execInv c x n s
  | .halt c x => Sys2Proof.Machine.execHalt c x s
  | .post c x rd ra q => Sys2Proof.Machine.execPost c x rd ra q s
  | .take c x rd ra q => Sys2Proof.Machine.execTake c x rd ra q s
  | .give c x rd ra q => Sys2Proof.Machine.execGive c x rd ra q s
  | .wait c x rd ra rb kind => Sys2Proof.Machine.execWait c x rd ra rb kind s
  | .waitWake c cycles => Sys2Proof.Machine.execWaitWake c cycles s
  | .waitTimeout c cycles => Sys2Proof.Machine.execWaitTimeout c cycles s
  | .stamp c x rd => Sys2Proof.Machine.execStamp c x rd s
  | .raise c x n => Sys2Proof.Machine.execRaise c x n s
  | .fence c x => Sys2Proof.Machine.execFence c x s
  | .yield c x ra => Sys2Proof.Machine.execYield c x ra s
  | .yieldEnd c cycles => Sys2Proof.Machine.execYieldEnd c cycles s
  | .interrupt c cycles => Sys2Proof.Machine.execInterrupt c cycles s
  | .coreReset r n v => Sys2Proof.Machine.execCoreReset r n v s
  | .coreHold r n v => Sys2Proof.Machine.execCoreHold r n v s
  | .coreRun r n v => Sys2Proof.Machine.execCoreRun r n v s
  | .samplingEnable r c v => Sys2Proof.Machine.execSamplingEnable r c v s
  | .heartbeatTimeout n ok => Sys2Proof.Machine.execHeartbeatTimeout n ok s
  | .triggerEdge n rising held => Sys2Proof.Machine.execTriggerEdge n rising held s
  | .trgackWrite r v => Sys2Proof.Machine.execTrgackWrite r v s
  | .triggerTake n => Sys2Proof.Machine.execTriggerTake n s
  | .timedSessionEnd => Sys2Proof.Machine.execTimedSessionEnd s
  | .autoFlush => Sys2Proof.Machine.execAutoFlush s
  | .idlePs3 => Sys2Proof.Machine.execIdlePs3 s
  | .roiFrameReady => Sys2Proof.Machine.execRoiFrameReady s
  | .extensionReply => Sys2Proof.Machine.execExtensionReply s
  | .forwardTimeout tag => Sys2Proof.Machine.execForwardTimeout tag s
  | .tcepochhiWrite r v => Sys2Proof.Machine.execTcepochhiWrite r v s
  | .windowStartStrobe => Sys2Proof.Machine.execWindowStartStrobe s
  | .pcieLinkup speed width => Sys2Proof.Machine.execPcieLinkup speed width s
  | .pcieLinkdown => Sys2Proof.Machine.execPcieLinkdown s
  | .functionLevelReset => Sys2Proof.Machine.execFunctionLevelReset s
  | .hotReset => Sys2Proof.Machine.execHotReset s
  | .linkDisable => Sys2Proof.Machine.execLinkDisable s
  | .perstDeassert => Sys2Proof.Machine.execPerstDeassert s
  | .ccEnable css asq acq => Sys2Proof.Machine.execCcEnable css asq acq s
  | .ccDisable => Sys2Proof.Machine.execCcDisable s
  | .normalShutdown => Sys2Proof.Machine.execNormalShutdown s
  | .abruptShutdown => Sys2Proof.Machine.execAbruptShutdown s
  | .nvctrlReady r v => Sys2Proof.Machine.execNvctrlReady r v s
  | .nvctrlCfs r v => Sys2Proof.Machine.execNvctrlCfs r v s
  | .sqTailDoorbell q v => Sys2Proof.Machine.execSqTailDoorbell q v s
  | .cqHeadDoorbell q v => Sys2Proof.Machine.execCqHeadDoorbell q v s
  | .commandFetch q e => Sys2Proof.Machine.execCommandFetch q e s
  | .writeDataLanded slot addr => Sys2Proof.Machine.execWriteDataLanded slot addr s
  | .parkedWriteResume slot addr => Sys2Proof.Machine.execParkedWriteResume slot addr s
  | .completionPosted q => Sys2Proof.Machine.execCompletionPosted q s
  | .ps4Wake => Sys2Proof.Machine.execPs4Wake s
  | .ps4IdleTimeout => Sys2Proof.Machine.execPs4IdleTimeout s
  | .deleteIoSq => Sys2Proof.Machine.execDeleteIoSq s
  | .createIoSq => Sys2Proof.Machine.execCreateIoSq s
  | .getLogPage => Sys2Proof.Machine.execGetLogPage s
  | .deleteIoCq => Sys2Proof.Machine.execDeleteIoCq s
  | .createIoCq => Sys2Proof.Machine.execCreateIoCq s
  | .identify => Sys2Proof.Machine.execIdentify s
  | .abort => Sys2Proof.Machine.execAbort s
  | .setFeatures => Sys2Proof.Machine.execSetFeatures s
  | .getFeatures => Sys2Proof.Machine.execGetFeatures s
  | .asyncEventRequest => Sys2Proof.Machine.execAsyncEventRequest s
  | .namespaceManagement => Sys2Proof.Machine.execNamespaceManagement s
  | .firmwareCommit => Sys2Proof.Machine.execFirmwareCommit s
  | .firmwareImageDownload => Sys2Proof.Machine.execFirmwareImageDownload s
  | .deviceSelfTest failed => Sys2Proof.Machine.execDeviceSelfTest failed s
  | .namespaceAttachment => Sys2Proof.Machine.execNamespaceAttachment s
  | .nvmeBake => Sys2Proof.Machine.execNvmeBake s
  | .nvmeSession => Sys2Proof.Machine.execNvmeSession s
  | .cartridge ins => Sys2Proof.Machine.execCartridge ins s
  | .nvmeForwardedAdmin => Sys2Proof.Machine.execNvmeForwardedAdmin s
  | .flush q => Sys2Proof.Machine.execFlush q s
  | .write q => Sys2Proof.Machine.execWrite q s
  | .read q => Sys2Proof.Machine.execRead q s
  | .verify q => Sys2Proof.Machine.execVerify q s
  | .zoneMgmtSend q => Sys2Proof.Machine.execZoneMgmtSend q s
  | .zoneMgmtReceive q => Sys2Proof.Machine.execZoneMgmtReceive q s
  | .zoneAppend q => Sys2Proof.Machine.execZoneAppend q s
  | .roiPull q => Sys2Proof.Machine.execRoiPull q s
  | .nvmeForwardedIo q => Sys2Proof.Machine.execNvmeForwardedIo q s
  | .sasLinkup phy rate => Sys2Proof.Machine.execSasLinkup phy rate s
  | .sasLinkdown phy => Sys2Proof.Machine.execSasLinkdown phy s
  | .sasHardreset phy => Sys2Proof.Machine.execSasHardreset phy s
  | .iTNexusLoss phy => Sys2Proof.Machine.execITNexusLoss phy s
  | .sasCommandFrame port f => Sys2Proof.Machine.execSasCommandFrame port f s
  | .xferRdySend slot => Sys2Proof.Machine.execXferRdySend slot s
  | .sasDataFrame port init tag offset data bad addr => Sys2Proof.Machine.execSasDataFrame port init tag offset data bad addr s
  | .sasDataTimeout slot => Sys2Proof.Machine.execSasDataTimeout slot s
  | .responseSend port => Sys2Proof.Machine.execResponseSend port s
  | .abortTask port init tag ref => Sys2Proof.Machine.execAbortTask port init tag ref s
  | .abortTaskSet port init tag lun => Sys2Proof.Machine.execAbortTaskSet port init tag lun s
  | .clearTaskSet port init tag lun => Sys2Proof.Machine.execClearTaskSet port init tag lun s
  | .logicalUnitReset port init tag lun => Sys2Proof.Machine.execLogicalUnitReset port init tag lun s
  | .iTNexusReset port init tag => Sys2Proof.Machine.execITNexusReset port init tag s
  | .queryTask port init tag ref => Sys2Proof.Machine.execQueryTask port init tag ref s
  | .testUnitReady port => Sys2Proof.Machine.execTestUnitReady port s
  | .requestSense port => Sys2Proof.Machine.execRequestSense port s
  | .inquiry port => Sys2Proof.Machine.execInquiry port s
  | .startStopUnit port ins => Sys2Proof.Machine.execStartStopUnit port ins s
  | .sendDiagnostic port failed => Sys2Proof.Machine.execSendDiagnostic port failed s
  | .read_10 port => Sys2Proof.Machine.execRead_10 port s
  | .read_16 port => Sys2Proof.Machine.execRead_16 port s
  | .write_10 port => Sys2Proof.Machine.execWrite_10 port s
  | .write_16 port => Sys2Proof.Machine.execWrite_16 port s
  | .verify_10 port => Sys2Proof.Machine.execVerify_10 port s
  | .verify_16 port => Sys2Proof.Machine.execVerify_16 port s
  | .synchronizeCache_10 port => Sys2Proof.Machine.execSynchronizeCache_10 port s
  | .synchronizeCache_16 port => Sys2Proof.Machine.execSynchronizeCache_16 port s
  | .writeBuffer port => Sys2Proof.Machine.execWriteBuffer port s
  | .logSense port => Sys2Proof.Machine.execLogSense port s
  | .modeSelect_10 port => Sys2Proof.Machine.execModeSelect_10 port s
  | .modeSense_10 port => Sys2Proof.Machine.execModeSense_10 port s
  | .closeZone port => Sys2Proof.Machine.execCloseZone port s
  | .finishZone port => Sys2Proof.Machine.execFinishZone port s
  | .openZone port => Sys2Proof.Machine.execOpenZone port s
  | .resetWritePointer port => Sys2Proof.Machine.execResetWritePointer port s
  | .reportZones port => Sys2Proof.Machine.execReportZones port s
  | .readCapacity_16 port => Sys2Proof.Machine.execReadCapacity_16 port s
  | .reportLuns port => Sys2Proof.Machine.execReportLuns port s
  | .reportSupportedOpcodes port => Sys2Proof.Machine.execReportSupportedOpcodes port s
  | .sasBake port => Sys2Proof.Machine.execSasBake port s
  | .partition port => Sys2Proof.Machine.execPartition port s
  | .sasSession port => Sys2Proof.Machine.execSasSession port s
  | .recordingProfile port => Sys2Proof.Machine.execRecordingProfile port s
  | .timecode port => Sys2Proof.Machine.execTimecode port s
  | .roiSetup port => Sys2Proof.Machine.execRoiSetup port s
  | .roiRead port => Sys2Proof.Machine.execRoiRead port s
  | .sasForwarded port => Sys2Proof.Machine.execSasForwarded port s
  | .sliceChannelStart => Sys2Proof.Machine.execSliceChannelStart s
  | .sliceChannelDone bursts err => Sys2Proof.Machine.execSliceChannelDone bursts err s
  | .smabortWrite r v => Sys2Proof.Machine.execSmabortWrite r v s
  | .hashMessageStart => Sys2Proof.Machine.execHashMessageStart s
  | .hashMessageDone err done => Sys2Proof.Machine.execHashMessageDone err done s
  | .dctrainGo r v => Sys2Proof.Machine.execDctrainGo r v s
  | .trainDone fail errors => Sys2Proof.Machine.execTrainDone fail errors s
  | .rtPortPanic p level due => Sys2Proof.Machine.execRtPortPanic p level due s
  | .lnrearmWrite r hi v => Sys2Proof.Machine.execLnrearmWrite r hi v s
  | .crselWrite r v => Sys2Proof.Machine.execCrselWrite r v s
  | .crswcmdWrite r v => Sys2Proof.Machine.execCrswcmdWrite r v s
  | .crumbEntryWrite => Sys2Proof.Machine.execCrumbEntryWrite s
  | .crumbIntervalEnd => Sys2Proof.Machine.execCrumbIntervalEnd s
  | .ppsEdge rising held => Sys2Proof.Machine.execPpsEdge rising held s
  | .ppsMissing => Sys2Proof.Machine.execPpsMissing s
  | .timeLoadNow r => Sys2Proof.Machine.execTimeLoadNow r s
  | .timeLoadAtEdge r => Sys2Proof.Machine.execTimeLoadAtEdge r s
  | .timeLoadCancel r => Sys2Proof.Machine.execTimeLoadCancel r s
  | .tmrateWrite r v => Sys2Proof.Machine.execTmrateWrite r v s
  | .ringSyncFrame source corr residence => Sys2Proof.Machine.execRingSyncFrame source corr residence s
  | .referenceFault => Sys2Proof.Machine.execReferenceFault s
  | .linkPllUnlock pll => Sys2Proof.Machine.execLinkPllUnlock pll s
  | .gatherLatch b soft1 soft0 iter beta phase draw adapt dith => Sys2Proof.Machine.execGatherLatch b soft1 soft0 iter beta phase draw adapt dith s
  | .hbgreqGo r h v => Sys2Proof.Machine.execHbgreqGo r h v s
  | .bgStepGrant h pos => Sys2Proof.Machine.execBgStepGrant h pos s
  | .bgStepEnd h fault p n => Sys2Proof.Machine.execBgStepEnd h fault p n s
  | .keepStarved h => Sys2Proof.Machine.execKeepStarved h s
  | .mbgskipWrite r v => Sys2Proof.Machine.execMbgskipWrite r v s
  | .ageingMeasurement e slope v lpmax => Sys2Proof.Machine.execAgeingMeasurement e slope v lpmax s
  | .recordWriteRequest k => Sys2Proof.Machine.execRecordWriteRequest k s
  | .recordRetry => Sys2Proof.Machine.execRecordRetry s
  | .vauxUp bootmd tsrc ppspol mstr => Sys2Proof.Machine.execVauxUp bootmd tsrc ppspol mstr s
  | .resetNLow => Sys2Proof.Machine.execResetNLow s
  | .supplyFall => Sys2Proof.Machine.execSupplyFall s
  | .thermalShutdown => Sys2Proof.Machine.execThermalShutdown s
  | .pwctrlDevreset r v => Sys2Proof.Machine.execPwctrlDevreset r v s
  | .watchdogExpire => Sys2Proof.Machine.execWatchdogExpire s
  | .pwwdogKick r v => Sys2Proof.Machine.execPwwdogKick r v s
  | .startEdge mstr => Sys2Proof.Machine.execStartEdge mstr s
  | .proofingDone => Sys2Proof.Machine.execProofingDone s
  | .loaderCheck => Sys2Proof.Machine.execLoaderCheck s
  | .keeperImageStart => Sys2Proof.Machine.execKeeperImageStart s
  | .dramTrainingDone pass eyes => Sys2Proof.Machine.execDramTrainingDone pass eyes s
  | .jobLoad => Sys2Proof.Machine.execJobLoad s
  | .startupLinksEnable ins => Sys2Proof.Machine.execStartupLinksEnable ins s
  | .mediaReady => Sys2Proof.Machine.execMediaReady s
  | .ringBlockLock portB => Sys2Proof.Machine.execRingBlockLock portB s
  | .ringBlockLoss portB => Sys2Proof.Machine.execRingBlockLoss portB s
  | .claimSend => Sys2Proof.Machine.execClaimSend s
  | .claimFrame portB serial bad => Sys2Proof.Machine.execClaimFrame portB serial bad s
  | .conflictEnd portB => Sys2Proof.Machine.execConflictEnd portB s
  | .joinFrame portB hop serial wanted => Sys2Proof.Machine.execJoinFrame portB hop serial wanted s
  | .joinRefused result => Sys2Proof.Machine.execJoinRefused result s
  | .ringCycleStart portB => Sys2Proof.Machine.execRingCycleStart portB s
  | .gatherFrame f admitted => Sys2Proof.Machine.execGatherFrame f admitted s
  | .gatherTimeout portB => Sys2Proof.Machine.execGatherTimeout portB s
  | .gatherReturn portB f trip => Sys2Proof.Machine.execGatherReturn portB f trip s
  | .scatterFrame f => Sys2Proof.Machine.execScatterFrame f s
  | .scatterReturn portB f => Sys2Proof.Machine.execScatterReturn portB f s
  | .ringLost => Sys2Proof.Machine.execRingLost s
  | .rnrelWrite r v => Sys2Proof.Machine.execRnrelWrite r v s
  | .ringMessageSend => Sys2Proof.Machine.execRingMessageSend s
  | .ringMessageFrame src dst seq tag data coord bad member portB => Sys2Proof.Machine.execRingMessageFrame src dst seq tag data coord bad member portB s
  | .ringMessageAck seq code => Sys2Proof.Machine.execRingMessageAck seq code s
  | .ringMessageTimeout => Sys2Proof.Machine.execRingMessageTimeout s
  | .remoteAccessRequest src off write => Sys2Proof.Machine.execRemoteAccessRequest src off write s
  | .remoteAccessReply q v => Sys2Proof.Machine.execRemoteAccessReply q v s
  | .remoteAccessTimeout q => Sys2Proof.Machine.execRemoteAccessTimeout q s
  | .delayRequestSend t1 => Sys2Proof.Machine.execDelayRequestSend t1 s
  | .delayRequestFrame t2 t3 => Sys2Proof.Machine.execDelayRequestFrame t2 t3 s
  | .delayReplyFrame t4 turn => Sys2Proof.Machine.execDelayReplyFrame t4 turn s
  | .pairUp lanes peer serial => Sys2Proof.Machine.execPairUp lanes peer serial s
  | .pairDown => Sys2Proof.Machine.execPairDown s
  | .plctrlRole r v peer => Sys2Proof.Machine.execPlctrlRole r v peer s
  | .mirrorSend room peerOk => Sys2Proof.Machine.execMirrorSend room peerOk s
  | .mirrorReceive words pages tags addr coord => Sys2Proof.Machine.execMirrorReceive words pages tags addr coord s
  | .heartbeatSend => Sys2Proof.Machine.execHeartbeatSend s
  | .heartbeatMiss after => Sys2Proof.Machine.execHeartbeatMiss after s
  | .plkickWrite r v => Sys2Proof.Machine.execPlkickWrite r v s
  | .plctrlTakeover r v => Sys2Proof.Machine.execPlctrlTakeover r v s
  | .norProgram r pc len => Sys2Proof.Machine.execNorProgram r pc len s
  | .norErase r pc => Sys2Proof.Machine.execNorErase r pc s
  | .norCommandDone err => Sys2Proof.Machine.execNorCommandDone err s
  | .loaderEraseCall err => Sys2Proof.Machine.execLoaderEraseCall err s
  | .loaderProgramCall err => Sys2Proof.Machine.execLoaderProgramCall err s
  | .activationDrainDone => Sys2Proof.Machine.execActivationDrainDone s
  | .loaderActivationReset => Sys2Proof.Machine.execLoaderActivationReset s
  | .thermalSample core front drive => Sys2Proof.Machine.execThermalSample core front drive s
  | .fanTachPulse us => Sys2Proof.Machine.execFanTachPulse us s
  | .fanNotach => Sys2Proof.Machine.execFanNotach s
  | .fanFault => Sys2Proof.Machine.execFanFault s
  | .fanRecover => Sys2Proof.Machine.execFanRecover s
  | .fanShort => Sys2Proof.Machine.execFanShort s
  | .emitterEnable h => Sys2Proof.Machine.execEmitterEnable h s
  | .vauxDown => Sys2Proof.Machine.execVauxDown s
  | .vmotAboveWarn mv => Sys2Proof.Machine.execVmotAboveWarn mv s
  | .index => Sys2Proof.Machine.execIndex s
  | .clockMark h missed => Sys2Proof.Machine.execClockMark h missed s
  | .illegalInstruction c x => Sys2Proof.Machine.execIllegalInstruction c x s
  | .instructionFetchFault c x parity => Sys2Proof.Machine.execInstructionFetchFault c x parity s
  | .mcIllegalInstruction n => Sys2Proof.Machine.execMcIllegalInstruction n s
  | .connectionRequest phy protocol => Sys2Proof.Machine.execConnectionRequest phy protocol s
  | .configurationRequest => Sys2Proof.Machine.execConfigurationRequest s
  | .vcmSafeHoldEnd n => Sys2Proof.Machine.execVcmSafeHoldEnd n s

end Sys2Proof.Machine
end

