-- ==== Sys2Proof/Machine/Idle.lean ====
section
/-! DEFINITION. What happens when no command waits: one tick of the 125 MHz clock (R463), and each microsecond the two counters of each
guest that count time (R451). -/

namespace Sys2Proof.Machine

/-- The commands of guest `g` outstanding. -/
def State.guestOutstanding (s : State) (g : Nat) : Nat :=
  (s.hc.slots.filter (fun e => match e.2 with | some c => c.guest == g | none => false)).length

/-- A submission queue holds a write whose data waits for space, so nothing more is fetched from it (R351). -/
def State.queueParked (s : State) (q : Nat) : Bool :=
  s.hc.slots.any (fun e => match e.2 with | some c => c.queue == q && c.stage == .parked | none => false)

/-- A command of guest `g` waits unfetched: its queue has work, and 8,192 commands are outstanding (R350) or the queue holds a parked
write (R351). -/
def State.guestWaits (s : State) (g : Nat) : Bool :=
  s.hc.sqs.any (fun e => match e.2 with
    | some x => s.guestOfQueue e.1 == g && x.head != x.tail && (decide (8192 ≤ s.allOutstanding) || s.queueParked e.1)
    | none => false)

/-- A microsecond of guest `g`'s counters 6 and 7 (R451). -/
def State.guestMicro (s : State) (g : Nat) : State :=
  let t := s.count (262 + 8 * g) (s.guestOutstanding g)
  if s.guestWaits g then t.count (263 + 8 * g) else t

/-- The device with no command waiting advances by one tick of its time clock; where TIMENS enters another microsecond, the guests'
time counters advance. -/
def State.idle (s : State) : State :=
  let t := s.tick
  if s.pw.clocked && s.time.ns / 1000 != t.time.ns / 1000 then (List.range 8).foldl State.guestMicro t else t

end Sys2Proof.Machine
end

