-- ==== Sys2Proof/Safety.lean ====
section
/-! DEFINITION. What every state the device reaches satisfies, whatever it is commanded: the invariant that the claims are stated in. -/

namespace Sys2Proof.Machine

/-- The parts of a sound state: buffer memory and the register file are in their canonical form; counters are 48 bits wide and their wrap
counts 16 (R451, R452); the crumb queue holds 64 at most (R445); TIMENS is 64 bits wide (R463). -/
def SoundData (mem : List Host.Cell) (regs val wraps : Tbl Nat) (queue : List Crumb) (ns : Nat) : Prop :=
  Memory.wf mem = true ∧ Tbl.rising none regs = true ∧ (Tbl.rising none val = true ∧ ∀ e ∈ val, e.2 < 2 ^ 48) ∧
    (∀ e ∈ wraps, e.2 < 2 ^ 16) ∧ queue.length ≤ 64 ∧ ns < 2 ^ 64

/-- A sound state. -/
def State.Sound (s : State) : Prop := SoundData s.mem s.regs s.ctr.val s.ctr.wraps s.crumbs.queue s.time.ns

/-! ### What claims say of a state after a command -/

/-- Event `b` of unit `u` has occurred and is not cleared (R43). -/
def State.event (s : State) (u : UnitId) (b : Nat) : Bool := bitOf (s.rd u F.EVRAW) b

/-- Requester `r` may write the register at offset `o` of unit `u` now: the islands are clocked, the register exists and none of the
causes of R57 applies. -/
def State.May (s : State) (r : Requester) (u : UnitId) (o : Nat) : Prop :=
  s.pw.clocked = true ∧ u.hasRegister o = true ∧ s.refusal r u o = 0

/-- The key of CTWRAPLAST, which a counter that wraps writes (R452). -/
def ctwrapKey : Nat := fieldKey .counterPod F.CTWRAPLAST_index

/-- The fields that raising an event of `u` may write: EVRAW of `u`, and those a counter that wraps writes. -/
def booked (u : UnitId) : List Nat := [fieldKey u F.EVRAW, fieldKey .counterPod F.EVRAW, ctwrapKey]

/-- Every register field keeps its value but those whose keys are listed. -/
def RegsBut (s t : State) (l : List Nat) : Prop := ∀ k d, k ∉ l → Tbl.look d t.regs k = Tbl.look d s.regs k

/-- All that changed between `s` and `t` are register fields, counters, and the messages lanes sent. -/
def RegsOnly (s t : State) : Prop := t = { s with regs := t.regs, ctr := t.ctr, lanes := t.lanes, port := t.port }

/-- What a crumb's acceptance may change beside the crumb unit. -/
def crumbKeys : List Nat := booked .event ++ [fieldKey .event F.CRSTAT_flood, fieldKey .event F.CRLOST_count]

/-- A crumb from `s` to `t`: it is queued where the queue has room. -/
def Queued (s t : State) (cls req src code d6 d7 : Nat) : Prop :=
  s.crumbs.queue.length < 64 → ∃ fl, t.crumbs.queue = s.crumbs.queue ++ [⟨cls, req, src, code, d6, d7, s.time.ns, fl⟩]

/-- All that changed between `s` and `t` are register fields, counters, lane messages and the crumb unit. -/
def CrumbOnly (s t : State) : Prop :=
  t = { s with regs := t.regs, ctr := t.ctr, lanes := t.lanes, port := t.port, crumbs := t.crumbs }

/-- No beam of head `h` writes on: its write gates are removed (R119, R191). -/
def State.GatesGone (s : State) (h : Nat) : Prop := ∀ w, s.tb.writing = some w → ∀ k < 12, 12 * h + k ∉ w.gates

/-- All that changed between `s` and `t` are register fields, counters, lane messages, the heads and the slots. -/
def HeadsOnly (s t : State) : Prop :=
  t = { s with regs := t.regs, ctr := t.ctr, lanes := t.lanes, port := t.port, heads := t.heads, slots := t.slots }

/-! ### Host commands -/

/-- The command `c` in `slot` stands first on its queue, waits for no other device, and the stock recorder runs and takes it: no activation,
a live core that is not held, no unit attention in its way (R322, R323, R349, R403, R568). -/
def State.Front (s : State) (slot : Nat) (c : HCmd) : Prop :=
  s.pw.clocked = true ∧ (s.waitingOn c.queue).head? = some slot ∧ s.cmd slot = some c ∧ c.discarded = false ∧ s.gate slot = none ∧
    slot ∉ s.hc.aers ∧ (∀ o ∈ s.rcd.ops, o.slot ≠ slot) ∧ s.fw.going = false ∧ 2 ≤ s.rd .power F.PWSTART_level ∧
    (s.core (stockCore c.queue)).dead = false ∧ s.coreHeld c.queue = false ∧ (c.passesUa = true ∨ s.pendingUa c = none)

/-- `s` with the command `c` in `slot` taken. -/
def State.taken (s : State) (slot : Nat) (c : HCmd) : State :=
  (s.setWaiting c.queue ((s.waitingOn c.queue).drop 1)).setCmd slot (some { c with stage := .taken })

/-- The command `c` in `slot` has been answered with a status: its completion record is the newest one of `t` (R353, R391). -/
def Replied (s t : State) (slot : Nat) (c : HCmd) (x : Stat) (dw0 dw1 : Nat := 0) (info : Option Nat := none) (data : List Byte := []) :
    Prop :=
  (∃ l, t.hc.recs = s.hc.recs ++ l ++ [mkRec c.queue slot x dw0 dw1 info data]) ∧
    ∃ d, t.cmd slot = some { c with stage := .given, dbuf := d }

/-- The command `c` in `slot` has been taken and waits in the stock recorder (R322). -/
def Waits (s t : State) (slot : Nat) (c : HCmd) (k : OpKind) : Prop :=
  ⟨s.rcd.nextOp, slot, c.queue, stockCore c.queue, k⟩ ∈ t.rcd.ops ∧ t.cmd slot = some { c with stage := .taken }

/-- The stock recorder holds the command of `o`, and it waits for no other device. -/
def State.Holds (s : State) (o : Op) (c : HCmd) : Prop :=
  s.pw.clocked = true ∧ s.cmd o.slot = some c ∧ c.queue = o.queue ∧ c.stage = .taken ∧ c.discarded = false ∧ s.gate o.slot = none

end Sys2Proof.Machine
end

