-- ==== Sys2Proof/Certificates/Slice0/Obligations.lean ====
section
/-! DEFINITION. The claims about the device, for the provers. -/

open Sys2Proof Sys2Proof.Machine

/-! ### Registers, reads and events (02, 14) -/

/-- R54: every requester may write the event-block registers of every unit that has an event block. REGISTER_WRITE of a register that only
holds its fields: each RW and RWL field takes the bits written, each RO field keeps its value, and nothing else changes. The units are
those whose registers have no effect beyond their fields. A REGISTER_WRITE that R57 refuses with cause 1, 2 or 3 raises LOCKVIOL where R44
says and leaves its crumb, and changes nothing else; a write narrower than a word or not aligned leaves a crumb of cause 4 and raises no
LOCKVIOL; one that touches no register does nothing. -/
def Obligations.RegisterWrites : Prop :=
  (∀ (s : State) (r : Requester) (u : UnitId), s.pw.clocked = true → u.src.isSome = true →
    s.May r u 0x24 ∧ s.May r u 0x2C ∧ s.May r u 0x30) ∧
  (∀ (s : State) (r : Requester) (v : Word) (u : UnitId) (o : Nat), u ∈ [.thermal, .outer, .deep, .l2] → 0x34 ≤ o → s.May r u o →
    ∃ t, exec (.registerWrite r (u.base + o) 4 v) s = .next t ∧
      (∀ f ∈ u.fieldsAt o, f.acc = .rw ∨ f.acc = .rwl → t.rd u f = bits v.toNat f.lo f.w) ∧
      (∀ f ∈ u.fieldsAt o, f.acc = .ro → t.rd u f = s.rd u f) ∧
      RegsBut s t ((u.fieldsAt o).map (fieldKey u)) ∧ t = { s with regs := t.regs }) ∧
  (∀ (s : State) (r : Requester) (off n : Nat) (v : Word), s.pw.clocked = true → off < 0x200000 →
    (∀ u o, UnitId.ofOffset off = some u → off = u.base + o → u.hasRegister o = true → s.refusal r u o ≠ 0 → ctrPlaceOf off = none →
      off ≠ UnitId.nor.base + 0x48 →
      ∃ t, exec (.registerWrite r off 4 v) s = .next t ∧ t.event u.evUnit 0 = true ∧
        Queued s t 0 r.num u.number (s.refusal r u o) off v.toNat ∧ RegsBut s t (booked u.evUnit ++ crumbKeys) ∧ CrumbOnly s t) ∧
    (n ≠ 4 ∨ off % 4 ≠ 0 → touchesRegister off n = true →
      ∃ t, exec (.registerWrite r off n v) s = .next t ∧ Queued s t 0 r.num (unitTouched off n).number 4 off v.toNat ∧
        RegsBut s t crumbKeys ∧ CrumbOnly s t) ∧
    (n ≠ 4 ∨ off % 4 ≠ 0 → touchesRegister off n = false → exec (.registerWrite r off n v) s = .next s))

/-- R53: each read of its table returns the register's value and changes only the latch or field named; a read of any other word changes
nothing. -/
def Obligations.ReadsLatchOnlyWhatR53Names : Prop :=
  ∀ (s : State) (r : Requester), s.pw.clocked = true →
    (∃ t, exec (.tbseqloRead r) s = .next t ∧ t.read.data = s.storedWord .tray 0x4C ∧
      t = { s with read := { s.read with data := t.read.data, tbSeqHi := some (s.storedWord .tray 0x50) } }) ∧
    (∀ n : Fin 4, ∃ t, exec (.trgtloRead r n) s = .next t ∧ t.read.data = s.storedWord .time (0x90 + 8 * n.val) ∧
      Tbl.look none t.read.trgHi n.val = some (s.storedWord .time (0x94 + 8 * n.val)) ∧
      (∀ m : Fin 4, m ≠ n → Tbl.look none t.read.trgHi m.val = Tbl.look none s.read.trgHi m.val) ∧
      t = { s with read := { s.read with data := t.read.data, trgHi := t.read.trgHi } }) ∧
    (∃ t, exec (.tmloRead r) s = .next t ∧ t.read.data = s.time.ns % 2 ^ 32 ∧
      Tbl.look none t.read.tmHi r.num = some (s.time.ns / 2 ^ 32) ∧
      (∀ q, q ≠ r.num → Tbl.look none t.read.tmHi q = Tbl.look none s.read.tmHi q) ∧
      t = { s with read := { s.read with data := t.read.data, tmHi := t.read.tmHi } }) ∧
    (∃ t, exec (.tmppsloRead r) s = .next t ∧ t.read.data = s.storedWord .time 0x60 ∧
      t = { s with read := { s.read with data := t.read.data, ppsHi := some (s.storedWord .time 0x64) } }) ∧
    (∀ (p : Fin 9) (e : Fin 320), (p.val < 8 → e.val < 264) →
      ∃ t, exec (.ctloRead r p e) s = .next t ∧ t.read.data = s.counter (ctrPhys p.val e.val) % 2 ^ 32 ∧
        Tbl.look none t.read.ct r.num = some ⟨p.val, e.val, s.counter (ctrPhys p.val e.val) / 2 ^ 32,
          Tbl.look false s.ctr.flag (512 * p.val + e.val), Tbl.look 0 s.ctr.wraps (ctrPhys p.val e.val)⟩ ∧
        (∀ q, q ≠ r.num → Tbl.look none t.read.ct q = Tbl.look none s.read.ct q) ∧
        t = { s with read := { s.read with data := t.read.data, ct := t.read.ct } }) ∧
    (∃ t, exec (.ebmcloRead r) s = .next t ∧ t.read.data = Tbl.look 0 s.micro (s.rd .engine F.EBMCSEL_index) % 2 ^ 32 ∧
      t = { s with read := { s.read with
        data := t.read.data, mcHi := some (Tbl.look 0 s.micro (s.rd .engine F.EBMCSEL_index) / 2 ^ 32) } }) ∧
    (∀ h : Fin 4, ∃ t, exec (.hclkstatRead r h) s = .next t ∧ t.read.data = s.storedWord (.head h) 0x200 ∧
      t.rd (.head h) F.HCLKSTAT_missing = 0 ∧ RegsBut s t [fieldKey (.head h) F.HCLKSTAT_missing] ∧
      t = { s with regs := t.regs, read := { s.read with data := t.read.data } }) ∧
    (∀ q a, a % 4 = 0 → (∀ p e o, ctrPlaceOf a = some (p, e, o) → o ≠ 0) →
      a ∉ [UnitId.tray.base + 0x4C, UnitId.time.base + 0x40, UnitId.time.base + 0x60, UnitId.time.base + 0x90,
        UnitId.time.base + 0x98, UnitId.time.base + 0xA0, UnitId.time.base + 0xA8, UnitId.engine.base + 0x54,
        headBase 0 + 0x200, headBase 1 + 0x200, headBase 2 + 0x200, headBase 3 + 0x200] →
      (s.busRead q a).1 = s)

/-- EVFORCE_WRITE, EVCLR_WRITE and ULOCK_WRITE (R43, R44, R56), for a unit in the window: a forced bit sets; a bit cleared clears unless its
source occurs in the same cycle, and sets again while its condition is present; ULOCK locks the unit and every descendant. LNREARM_WRITE
(R441) of one lane: pending, with MSI-X as a destination, it sends its message and is not re-armed; else it is. The crumb commands:
CRSEL_WRITE latches the words of the selected entry (R448); CRSWCMD_WRITE offers a class 3 crumb with the requester's own detail words
(R449); CRUMB_ENTRY_WRITE outside the flood state makes the oldest queued crumb the entry at CRHEAD, which advances modulo 4,096 (R446);
CRUMB_INTERVAL_END ends the flood state after fewer than CRFLOOD.leave crumbs (R447). -/
def Obligations.EventsLanesAndCrumbs : Prop :=
  (∀ (s : State) (r : Requester) (u : UnitId) (v occ present : Word) (o : Nat), UnitId.ofOffset o = some u → u ≠ .counterPod →
    (s.May r u 0x2C → ∃ t, exec (.evforceWrite r u v) s = .next t ∧
      (∀ b, b < 32 → t.event u b = (s.event u b || bitOf v.toNat b)) ∧ RegsBut s t (booked u) ∧ RegsOnly s t) ∧
    (s.May r u 0x30 → ∃ t, exec (.evclrWrite r u v occ present) s = .next t ∧
      (∀ b, b < 32 → t.event u b =
        ((s.event u b && !(bitOf v.toNat b && !bitOf occ.toNat b)) || (bitOf v.toNat b && bitOf present.toNat b))) ∧
      RegsBut s t (booked u) ∧ RegsOnly s t) ∧
    (s.May r u 0x10 → ∃ t, exec (.ulockWrite r u v) s = .next t ∧
      (bitOf v.toNat 0 = true → ∀ d ∈ u.subtree, t.flag d F.ULOCK_locked = true) ∧
      (bitOf v.toNat 0 = false → t = s) ∧
      RegsBut s t (u.subtree.map (fun d => fieldKey d F.ULOCK_locked)) ∧ RegsOnly s t)) ∧
  (∀ (s : State) (r : Requester) (hi : Bool) (b : Fin 32), s.May r .event (if hi then 0x5C else 0x58) →
    let n := (if hi then 32 else 0) + b.val
    let d := s.laneDest n
    ∃ t, exec (.lnrearmWrite r hi (BitVec.ofNat 32 (2 ^ b.val))) s = .next t ∧
      (s.lanePending n = true → d.msix = true → d.vector ≤ 64 → ∃ l, t.port.msix = s.port.msix ++ d.vector :: l) ∧
      (s.lanePending n = false → t.port = s.port ∧ Tbl.look false t.lanes.sent n = false ∧ t.regs = s.regs) ∧
      RegsBut s t (booked .counterPod) ∧ RegsOnly s t) ∧
  (∀ (s : State) (r : Requester) (v : Word),
    (s.May r .event 0x80 → ∃ t, exec (.crselWrite r v) s = .next t ∧ t.rd .event F.CRSEL_entry = v.toNat % 4096 ∧
      t.crumbs.latched = ((Tbl.look none s.crumbs.log (v.toNat % 4096)).map CrumbEntry.words).getD [] ∧
      RegsBut s t [fieldKey .event F.CRSEL_entry] ∧ t = { s with regs := t.regs, crumbs := { s.crumbs with latched := t.crumbs.latched } }) ∧
    (s.May r .event 0xC8 → ∃ t, exec (.crswcmdWrite r v) s = .next t ∧
      Queued s t 3 r.num 8 (v.toNat % 256) (Tbl.look 0 s.crumbs.sw (2 * r.num) % 2 ^ 32) (Tbl.look 0 s.crumbs.sw (2 * r.num + 1) % 2 ^ 32) ∧
      RegsBut s t crumbKeys ∧ CrumbOnly s t) ∧
    (∀ c q, s.pw.clocked = true → s.crumbs.queue = c :: q → c.flood = false → s.flag .event F.CRMBASELO_enable = false →
      ∃ t, exec .crumbEntryWrite s = .next t ∧ t.crumbs.queue = q ∧
        Tbl.look none t.crumbs.log (s.rd .event F.CRHEAD_head) =
          some ⟨c, s.rd .event F.CRSEQ_seq, c.t % 2 ^ 32, 1, false⟩ ∧
        t.rd .event F.CRHEAD_head = (s.rd .event F.CRHEAD_head + 1) % 4096 ∧
        t.rd .event F.CRSEQ_seq = (s.rd .event F.CRSEQ_seq + 1) % 2 ^ 32 ∧
        (s.rd .event F.CRHEAD_valid = 4096 → t.event .event 3 = true) ∧ CrumbOnly s t) ∧
    (s.pw.clocked = true → ∃ t, exec .crumbIntervalEnd s = .next t ∧ t.crumbs.accepted = 0 ∧
      (s.crumbs.accepted < s.rd .event F.CRFLOOD_leave → t.flag .event F.CRSTAT_flood = false) ∧
      (s.rd .event F.CRFLOOD_leave ≤ s.crumbs.accepted → t.regs = s.regs) ∧
      RegsBut s t [fieldKey .event F.CRSTAT_flood] ∧ t = { s with regs := t.regs, crumbs := { s.crumbs with accepted := 0 } }))

/-! ### The recording path (04) -/

/-- TRAY_UNIT_TAKE (R82, R108 to R112). A unit that the zone and high-water tables let in, whose tag is valid and whose CRC-24 agrees, is
taken: it waits as a codeword, the write pointer and the mark advance by one and memory stays. One that they do not let in is refused with
the event of its code, and its descriptor ends. TRAY_PAGE_TAKE (R110 to R112): the next page of a map or journal descriptor in memory
waits as a codeword of its class. TRAY_SEAL (R102, R103): when the tray builder may seal and a tray is due, the next tray is sealed at the
next position with the next sequence number and the heads then present; SEAL_TIMEOUT and TBCTRL_SEALNOW make a tray due. -/
def Obligations.TrayFilling : Prop :=
  (∀ (s : State) (d : Desc) (rest : List Desc) (eccFail : Bool), s.pw.clocked = true → s.tb.dataQ = d :: rest →
    s.flag .tray F.TBCTRL_enable = true → (d.taken ≠ 0 ∨ d.invalid true = false) → s.rcd.cart ≠ 3 → s.rcd.bake < 2 →
    s.flag .tray F.TBSTAT_capacity = false →
    let lba := (d.lba + d.taken) % 2 ^ 32
    let src := d.src + 4096 * d.taken
    let z := s.zent d.entry
    let bs := s.readBytes src 4096
    (s.unitCheck d.entry lba = 0 → eccFail = false → bitOf (s.readLE (tagAddr src) 4) 31 = true →
      s.readLE (tagAddr src) 4 % 2 ^ 24 = crc24 bs → d.taken + 1 ≠ d.count →
      ∃ t, exec (.trayUnitTake eccFail) s = .next t ∧ t.tb.dataQ = { d with taken := d.taken + 1 } :: rest ∧
        t.tb.wData = s.tb.wData ++ [⟨⟨z.nsid, 0, lba, crc24 bs, leNat bs⟩, s.tb.nextAcc, src, false, .none⟩] ∧
        t.tb.nextAcc = s.tb.nextAcc + 1 ∧ t.hwMark z.nsid z.nszone = z.wp + 1 ∧
        (z.wp + 1 ≠ 262144 → t.zent d.entry = { z with wp := z.wp + 1 } ∧ RegsOnly { s with tb := t.tb } t) ∧
        (∀ a, t.byte a = s.byte a)) ∧
    (s.unitCheck d.entry lba ≠ 0 → d.op = 0 → d.status = 0 → s.unitCheck d.entry lba < 3 →
      ∃ t, exec (.trayUnitTake eccFail) s = .next t ∧ t.event .tray (s.unitCheck d.entry lba) = true ∧
        t.tb = { s.tb with dataQ := rest } ∧
        Queued s t 1 hwReq 201 (s.unitCheck d.entry lba) (z.nsid % 2 ^ 32) lba ∧ (∀ a, t.byte a = s.byte a))) ∧
  (∀ (s : State) (d : Desc) (rest : List Desc) (journal : Bool), s.pw.clocked = true →
    (if journal then s.tb.jourQ else s.tb.mapQ) = d :: rest → s.flag .tray F.TBCTRL_enable = true →
    (d.taken ≠ 0 ∨ d.invalid false = false) → s.rcd.cart ≠ 3 → d.pages = [] → d.taken + 1 ≠ d.count →
    let bs := s.readBytes (d.src + 4096 * d.taken) 4096
    let lba := (d.lba + d.taken) % 2 ^ 32
    ∃ t w, exec (.trayPageTake journal false) s = .next t ∧
      w.acc = s.tb.nextAcc ∧ w.cw.data = leNat bs ∧ w.cw.crc = crc24 (leBytes 4096 (leNat bs)) ∧
      (journal = true → w.cw.nsid = 0x3E ∧ w.cw.kind = 2 ∧
        t = { s with tb := { s.tb with
          nextAcc := s.tb.nextAcc + 1, wJour := s.tb.wJour ++ [w], jourQ := { d with taken := d.taken + 1 } :: rest } }) ∧
      (journal = false → w.cw.nsid = 0x3F ∧ w.cw.kind = 1 ∧ w.cw.lba = lba ∧
        t = { s with tb := { s.tb with
          nextAcc := s.tb.nextAcc + 1, wMap := s.tb.wMap ++ [w], mapQ := { d with taken := d.taken + 1 } :: rest } })) ∧
  (∀ (s : State),
    (s.pw.clocked = true → s.writable = true → s.flag .tray F.TBCTRL_hold = false → s.tb.stash = [] → s.tb.paused = [] →
      s.tb.sealed.length < 4 → s.tb.held < 320 → s.tb.nextPos < trayCount → s.forceNow = false → s.layerOk s.tb.nextPos = true →
      s.trayHeads ≠ [] → s.sealDue s.composeTray.slotBeams.length = true →
      ∃ t x, exec .traySeal s = .next t ∧ t.tb.sealed = s.tb.sealed ++ [x] ∧ x.pos = s.tb.nextPos ∧ x.seq = s.sealSeq ∧
        x.heads = s.trayHeads ∧ x.slots.length = s.composeTray.slotBeams.length ∧ t.tb.timedOut = false ∧
        t.tb.lastSealed = some s.sealSeq ∧ t.mem = s.mem) ∧
    (s.pw.clocked = true → s.rd .tray F.TBSEALTO_timeout ≠ 0 → s.tb.waiting ≠ [] →
      exec .sealTimeout s = .next { s with tb := { s.tb with timedOut := true } }) ∧
    (∀ (r : Requester) (v : Word), s.May r .tray 0x40 → bitOf v.toNat 2 = true → s.tb.waiting ≠ [] →
      ∃ t, exec (.tbctrlSealnow r v) s = .next t ∧ s.tb.nextAcc - 1 ≤ t.tb.closeUpTo ∧
        t.flag .tray F.TBCTRL_enable = bitOf v.toNat 0 ∧
        t = { s with regs := t.regs, tb := { s.tb with closeUpTo := t.tb.closeUpTo } }))

/-- OUTER_PARITY_DONE, TRAY_READINESS_CHECK and HEAD_READY_TIMEOUT (R102, R121): parity completes one tray; a tray whose heads are all ready
is checked; one whose heads are not is unsealed with those behind it; heads still not ready after two revolutions are cleared from
TBHEADS.present. TRAY_WINDOW_WRITE (R119): a tray checked, with its parity complete, on a cartridge that is open, whose heads are all
ready and with THSTAT.stopwrite 0, begins with the gate of each active beam open. BLOCK_PAYLOAD_END closes the gate of one beam while
others are open; BEAM_UNDERRUN removes a gate with cause 3 and raises BEAM_UNDERRUN. DRAW_VERDICT (R127, R129): the verdict, the
iterations and the error count of the block are shown and counted before what follows from them; DRAW_INTERVAL_END (R132): BDRAWWIN.over
counts intervals in which more than 1 % of at least 600 blocks failed, and returns to 0 on one that did not; at 10 the beam becomes a
candidate for retirement. -/
def Obligations.TrayWriting : Prop :=
  (∀ (s : State) (x : Tray) (rest : List Tray) (seq : Nat), s.pw.clocked = true →
    exec (.outerParityDone seq) s = .next { s with tb := { s.tb with
      sealed := s.tb.sealed.map (fun t => if t.seq = seq then { t with parityDone := true } else t) } } ∧
    (s.tb.stash = [] → s.tb.sealed = x :: rest → (∀ h ∈ x.heads, s.headReady h = true) →
      exec .trayReadinessCheck s = .next { s with tb := { s.tb with sealed := { x with checked := true } :: rest } }) ∧
    (s.tb.stash = [] → s.tb.sealed = x :: rest → (∃ h ∈ x.heads, s.headReady h = false) →
      ∃ t, exec .trayReadinessCheck s = .next t ∧ t.tb.sealed = [] ∧ t.tb.stash = x :: rest ∧
        (∀ h, h ∈ t.tb.awaited ↔ h ∈ x.heads ∧ s.headReady h = false) ∧ t.flag .tray F.TBSTAT_holding = true) ∧
    (s.tb.stash = x :: rest → (∃ h ∈ s.tb.awaited, s.headReady h = false) →
      ∃ t, exec .headReadyTimeout s = .next t ∧ t.tb.stash = [] ∧ t.tb.awaited = [] ∧ t.tb.nextPos = x.pos ∧
        (∀ h ∈ s.tb.awaited, s.headReady h = false → h ∈ t.tb.cleared) ∧
        (∀ h < 4, bitOf (t.rd .tray F.TBHEADS_present) h =
          (bitOf (s.rd .tray F.TBHEADS_present) h && !(s.tb.awaited.contains h && !s.headReady h))) ∧
        RegsBut s t [fieldKey .tray F.TBHEADS_present] ∧ t = { s with regs := t.regs, tb := t.tb })) ∧
  (∀ (s : State), s.pw.clocked = true →
    (∀ (x : Tray) (rest : List Tray), s.tb.sealed = x :: rest → s.tb.writing = none → x.checked = true → x.parityDone = true →
      s.rcd.cart = 2 → s.flag .thermal F.THSTAT_stopwrite = false → (∀ b ∈ x.allBeams, b < 48 ∧ s.headReady (b / 12) = true) →
      ∃ t, exec .trayWindowWrite s = .next t ∧ t.tb.writing = some ⟨x, x.allBeams, false, s.tc.stampNs, s.tc.stampTc⟩ ∧
        t.tb.sealed = rest ∧ t.flag .tray F.TBSTAT_holding = false ∧
        (∀ b ∈ x.allBeams, t.flag (.beam b) F.BWSTAT_active = true ∧ t.flag (.beam b) F.BWSTAT_gate = true) ∧
        t = { s with regs := t.regs, tb := { s.tb with sealed := rest, writing := t.tb.writing } }) ∧
    (∀ (w : Writing) (b : Fin 48), s.tb.writing = some w → b.val ∈ w.gates → (∃ c ∈ w.gates, c ≠ b.val) →
      ∃ t, exec (.blockPayloadEnd b) s = .next t ∧ t.flag (.beam b) F.BWSTAT_gate = false ∧
        t.tb.writing = some { w with gates := w.gates.filter (· != b.val) } ∧
        RegsBut s t [fieldKey (.beam b) F.BWSTAT_gate] ∧ t = { s with regs := t.regs, tb := { s.tb with writing := t.tb.writing } }) ∧
    (∀ (w : Writing) (b : Fin 48), s.tb.writing = some w → b.val ∈ w.gates →
      exec (.beamUnderrun b) s = .next ((s.raise (.beam b) 3).dropGates [b.val] 3))) ∧
  (∀ (s : State) (b : Fin 48), s.pw.clocked = true →
    (∀ (pos : Nat) (seen : Seen) (x : Held), s.tb.staging.find? (fun h => h.tray.pos == pos && h.due.contains b.val) = some x →
      let itlim := if 1 ≤ s.rd (.beam b) F.BDRAWCFG_itlim ∧ s.rd (.beam b) F.BDRAWCFG_itlim ≤ 12 then s.rd (.beam b) F.BDRAWCFG_itlim else 12
      let v := drawVerdict itlim (s.rd (.beam b) F.BDRAWCFG_errlim) (cwAt pos (b.val / 12)) seen
      ∃ t : State, exec (.drawVerdict pos b seen) s = .next ((t.judgeBlock x b (v = 0)).fuaOps.ckptStep.bakeStep) ∧
        t.rd (.beam b) F.BDRAWLAST_verdict = v ∧
        t.rd (.beam b) F.BDRAWCNT_count = (s.rd (.beam b) F.BDRAWCNT_count + 1) % 2 ^ 32 ∧
        (v ≠ 0 → t.event (.beam b) 1 = true ∧ t.rd (.beam b) F.BDRAWFCNT_count = (s.rd (.beam b) F.BDRAWFCNT_count + 1) % 2 ^ 32) ∧
        t.mem = s.mem ∧ t.rcd = s.rcd ∧ t.tb = { s.tb with judged := t.tb.judged }) ∧
    (let c := Tbl.look (0, 0) s.tb.judged b.val
     ∃ t, exec (.drawIntervalEnd b) s = .next t ∧ Tbl.look (0, 0) t.tb.judged b.val = (0, 0) ∧
      (c.1 < 600 → t.rd (.beam b) F.BDRAWWIN_over = s.rd (.beam b) F.BDRAWWIN_over) ∧
      (600 ≤ c.1 → 100 * c.2 ≤ c.1 → t.rd (.beam b) F.BDRAWWIN_over = 0) ∧
      (600 ≤ c.1 → c.1 < 100 * c.2 → t.rd (.beam b) F.BDRAWWIN_over = satAdd F.BDRAWWIN_over.w (s.rd (.beam b) F.BDRAWWIN_over) 1 ∧
        (s.rd (.beam b) F.BDRAWWIN_over = 9 → t.flag (.beam b) F.BWSTAT_candidate = true ∧ t.event (.beam b) 2 = true)) ∧
      t = { s with regs := t.regs, ctr := t.ctr, lanes := t.lanes, port := t.port, tb := { s.tb with judged := t.tb.judged } }))

/-- The tables of the tray builder (R107, R109, R114): TBZID_WRITE and TBZWP_WRITE set an invalid entry, and refuse to change a valid one with
TRAY_OUTORDER; TBHWDATA_WRITE sets the selected mark, refuses one above 262,144 with cause 3, is held while the table is zeroed, and
refuses to lower a mark of a loaded table; TBHWCTRL_ZERO and TBHWCTRL_VALID, and HW_ZERO_DONE. FLUSH_COMPLETE, BWCTRL_RETIRE and CM_UPDATE
(R116, R133, R98, R99): a flush whose conditions hold ends and counts; a beam is due to retire, a fourth of its head is refused with its
event, and one already due changes nothing; a state record that fails after its retry raises MEDIA_CMFAIL, and one that does not shows
status 0 and the time. -/
def Obligations.TrayTablesAndFlushes : Prop :=
  (∀ (s : State) (r : Requester) (v : Word),
    (s.May r .tray 0x64 → (s.zent (s.rd .tray F.TBZSEL_entry)).valid = true → F.TBZID_valid.of v.toNat = 1 →
      ∃ t, exec (.tbzidWrite r v) s = .next t ∧ t.event .tray 2 = true ∧ RegsBut s t (booked .tray) ∧ RegsOnly s t) ∧
    (s.May r .tray 0x64 → (s.zent (s.rd .tray F.TBZSEL_entry)).valid = false → F.TBZID_valid.of v.toNat = 0 →
      ∃ t, exec (.tbzidWrite r v) s = .next t ∧
        t.zent (s.rd .tray F.TBZSEL_entry) = ⟨false, F.TBZID_nsid.of v.toNat, F.TBZID_nszone.of v.toNat, F.TBZID_gzone.of v.toNat,
          (s.zent (s.rd .tray F.TBZSEL_entry)).wp⟩ ∧
        (∀ e, e ≠ s.rd .tray F.TBZSEL_entry → t.zent e = s.zent e) ∧ t = { s with tb := { s.tb with zones := t.tb.zones } }) ∧
    (s.May r .tray 0x68 → ∃ t, exec (.tbzwpWrite r v) s = .next t ∧
      ((s.zent (s.rd .tray F.TBZSEL_entry)).valid = true → t.event .tray 2 = true ∧ RegsBut s t (booked .tray) ∧ RegsOnly s t) ∧
      ((s.zent (s.rd .tray F.TBZSEL_entry)).valid = false →
        (t.zent (s.rd .tray F.TBZSEL_entry)).wp = F.TBZWP_wp.of v.toNat ∧ t = { s with tb := { s.tb with zones := t.tb.zones } })) ∧
    (s.May r .tray 0x74 →
      let e := s.rd .tray F.TBHWSEL_entry
      let m := F.TBHWDATA_mark.of v.toNat
      ∃ t, exec (.tbhwdataWrite r v) s = .next t ∧
        (262144 < m → Queued s t 0 r.num 201 3 (UnitId.tray.base + 0x74) v.toNat ∧ t.tb = s.tb ∧ RegsBut s t crumbKeys) ∧
        (m ≤ 262144 → s.tb.zeroing = true → t = { s with tb := { s.tb with heldHw := s.tb.heldHw ++ [(e, m)] } }) ∧
        (m ≤ 262144 → s.tb.zeroing = false → s.flag .tray F.TBHWCTRL_valid = true → m < Tbl.look s.tb.hwDefault s.tb.hw e →
          t.event .tray 2 = true ∧ t.tb = s.tb) ∧
        (m ≤ 262144 → s.tb.zeroing = false → (s.flag .tray F.TBHWCTRL_valid = true → Tbl.look s.tb.hwDefault s.tb.hw e ≤ m) →
          Tbl.look t.tb.hwDefault t.tb.hw e = m ∧
          (∀ k, k ≠ e → Tbl.look t.tb.hwDefault t.tb.hw k = Tbl.look s.tb.hwDefault s.tb.hw k) ∧
          t = { s with tb := { s.tb with hw := t.tb.hw } })) ∧
    (s.May r .tray 0x6C → exec (.tbhwctrlZero r) s =
      .next (if s.flag .tray F.TBHWCTRL_valid then s else { s with tb := { s.tb with zeroing := true } })) ∧
    (s.May r .tray 0x6C → ∃ t, exec (.tbhwctrlValid r) s = .next t ∧
      (s.tb.zeroing = true → t = { s with tb := { s.tb with heldValid := true } }) ∧
      (s.tb.zeroing = false → t.flag .tray F.TBHWCTRL_valid = true ∧ RegsBut s t [fieldKey .tray F.TBHWCTRL_valid] ∧
        t = { s with regs := t.regs })) ∧
    (s.pw.clocked = true → s.tb.zeroing = true → ∃ t, exec .hwZeroDone s = .next t ∧ t.tb.zeroing = false ∧ t.tb.heldHw = [] ∧
      (∀ k, (∀ w ∈ s.tb.heldHw, w.1 ≠ k) → Tbl.look t.tb.hwDefault t.tb.hw k = 0) ∧
      (s.tb.heldValid = true → t.flag .tray F.TBHWCTRL_valid = true) ∧ RegsBut s t [fieldKey .tray F.TBHWCTRL_valid])) ∧
  (∀ (s : State), 
    (∀ f, s.pw.clocked = true → s.rcd.flushes.find? s.flushDone = some f → exec .flushComplete s = .next (s.endFlush f)) ∧
    (∀ (r : Requester) (b : Fin 48), s.May r (.beam b) 0x40 → ∃ t, exec (.bwctrlRetire r b) s = .next t ∧
      (s.beamGone b = true → t = s) ∧
      (s.beamGone b = false → s.mayRetire b = true → t.tb = { s.tb with retiring := s.tb.retiring ++ [b.val] } ∧
        t.flag (.beam b) F.BWCTRL_retire = true ∧ RegsBut s t [fieldKey (.beam b) F.BWCTRL_retire] ∧
        t = { s with regs := t.regs, tb := t.tb }) ∧
      (s.beamGone b = false → s.mayRetire b = false → t.event (.beam b) 5 = true ∧ RegsBut s t (booked (.beam b)) ∧ RegsOnly s t)) ∧
    (∀ (c : Cartridge), s.pw.clocked = true → s.medium = some c → s.rcd.cmDue = true → s.rcd.bake ≠ 4 →
      (∃ t m, exec (.cmUpdate none) s = .next t ∧ t = { s with
        medium := some m, rcd := { s.rcd with cmDue := false, cmStatus := 0, cmNs := s.time.ns } }) ∧
      (∀ f, ∃ t, exec (.cmUpdate (some f)) s = .next t ∧ t.event .media 8 = true ∧
        t.rcd = { s.rcd with cmDue := false, cmStatus := 1 } ∧ t.medium = s.medium ∧ t.mem = s.mem)))

/-! ### The read channel (05) -/

/-- READ_DESCRIPTOR_START, READ_QUEUE_EMPTY_RESUME and POSITION_BLANK (R157, R158): unless reading is stalled the oldest descriptor is served
with every codeword of its tray undecoded; with none left sealing resumes; a tray that shows no header in two revolutions ends its
descriptor with a record of kind 2, code 2. The registers of the read path: READ_TABLE_SWAP stores the live entry of the layer and zone
left in the read table and loads that of the one entered (R149 to R151); BRLIVE_WRITE sets one live word (R150, R170); MRSTAIL_WRITE frees
records (R166); MRBASEHI_WRITE takes effect at once with no descriptor pending and waits otherwise, until MRBASE_APPLY (R172). -/
def Obligations.ReadPath : Prop :=
  (∀ (s : State), s.pw.clocked = true →
    (∀ (d : RDesc) (rest : List RDesc), s.rp.queue = d :: rest → s.readStalled = false → s.rp.held = none →
      ∃ (t : State) (seek : Bool), exec .readDescriptorStart s = .next ((t.headsTo d.tray seek).fillQueue) ∧
        t = { s with rp := { s.rp with queue := rest, trays := s.rp.trays ++ [s.newTray d], last := some d.tray } } ∧
        (∀ x ∈ (s.newTray d).blks, ∀ c ∈ x.st, c = 0) ∧
        (s.rp.last = some d.tray → seek = true)) ∧
    (s.rp.queue = [] → s.rp.backlog = [] → s.rp.trays = [] → 1 ∈ s.tb.paused →
      ∃ t, exec .readQueueEmptyResume s = .next t ∧ t.tb = { s.tb with paused := s.tb.paused.filter (· != 1) } ∧
        1 ∉ t.tb.paused ∧ t.rp = { s.rp with last := none } ∧ t.mem = s.mem ∧ t.rcd = s.rcd) ∧
    (∀ (pos : Nat) (x : RTray), s.rtray pos = some x → x.stage = 1 → (∀ k ∈ x.blks, k.hdr = false) → x.desc.op = 0 →
      ∃ t : State, exec (.positionBlank pos) s = .next ((t.descRec x.desc 2 2).fillQueue) ∧
        t = { s with rp := { s.rp with trays := s.rp.trays.filter (fun k => k.desc.num != x.desc.num) } })) ∧
  (∀ (s : State) (r : Requester) (v : Word) (b : Fin 48),
    (∀ (l0 : Fin 16) (z0 : Fin 32) (l : Fin 16) (z : Fin 32), s.pw.clocked = true →
      ∃ t u, exec (.readTableSwap b l0 z0 l z) s = .next u ∧ t = s.engineStore (s.rtAddr b l0 z0) (s.liveBytes b) ∧
        (leNat (((t.readBytes (s.rtAddr b l z) 16).drop 12).take 2) ≠ 0 → u.liveBytes b = t.readBytes (s.rtAddr b l z) 16) ∧
        (∀ a, u.byte a = t.byte a) ∧
        RegsBut s u [fieldKey (.beam b) F.BRLIVE0_bytes3_0, fieldKey (.beam b) F.BRLIVE1_bytes7_4,
          fieldKey (.beam b) F.BRLIVE2_bytes11_8, fieldKey (.beam b) F.BRLIVE3_bytes15_12]) ∧
    (s.May r (.beam b) 0xB0 → ∃ t, exec (.brliveWrite r b 0 v) s = .next t ∧ t.rd (.beam b) F.BRLIVE0_bytes3_0 = v.toNat ∧
      RegsBut s t [fieldKey (.beam b) F.BRLIVE0_bytes3_0] ∧ t = { s with regs := t.regs }) ∧
    (s.May r (.beam b) 0xBC → ∃ t, exec (.brliveWrite r b 3 v) s = .next t ∧ t.rd (.beam b) F.BRLIVE3_bytes15_12 = v.toNat ∧
      RegsBut s t [fieldKey (.beam b) F.BRLIVE3_bytes15_12] ∧ t = { s with regs := t.regs }) ∧
    (s.May r .media 0x50 → s.rp.recs = [] → s.rp.stalled = false → ∃ t, exec (.mrstailWrite r v) s = .next t ∧
      t.rd .media F.MRSTAIL_tail = v.toNat % 4096 ∧ RegsBut s t [fieldKey .media F.MRSTAIL_tail] ∧ t = { s with regs := t.regs }) ∧
    (s.May r .media 0x44 → ∃ t, exec (.mrbasehiWrite r v) s = .next t ∧
      (s.rp.pending = false → t.rp.held = none ∧
        t.rp.base = t.rd .media F.MRBASEHI_base * 2 ^ 32 + t.rd .media F.MRBASELO_base * 2 ^ 20) ∧
      (s.rp.pending = true → t.rp.base = s.rp.base ∧ t.flag .media F.MRSTAT_basewait = true ∧ t.rp.held.isSome = true)) ∧
    (∀ h, s.pw.clocked = true → s.rp.held = some h → (∀ d ∈ s.rp.queue ++ s.rp.backlog, h.2 ≤ d.num) →
      (∀ x ∈ s.rp.trays, h.2 ≤ x.desc.num) →
      ∃ t, exec .mrbaseApply s = .next t ∧ t.rp = { s.rp with base := h.1, held := none } ∧
        t.flag .media F.MRSTAT_basewait = false ∧ RegsBut s t [fieldKey .media F.MRSTAT_basewait] ∧
        t = { s with regs := t.regs, rp := t.rp }))

/-- INLINE_VERDICT (R159): with every codeword of the block decoded inline, each is final at step 1 before the tray moves on; with no accepted
header the block is erased and each codeword goes to step 3. DEEP_DECODE_DONE (R160, R173) frees its engine, counts, and ends the codeword
at step 2 or sends it to step 3. SINK_OVERFLOW (R418) raises SINKOVER and sends the codeword to step 3. STEP3_PASS_END, OUTER_RECOVERY and
STEP5_GATHER_TIMEOUT (R161 to R163): a pass counts and the tray's passes with it; a position with more erasures than parity codewords
counts as an outer failure and each goes on to step 5; a batch begins by stopping the sealing and slowing the spindle. -/
def Obligations.DecodingAndRecovery : Prop :=
  (∀ (s : State) (pos : Nat) (b : Fin 48) (x : RTray) (seen : Seen) (peak : Nat) (mean : Int) (p : Fin 24), s.pw.clocked = true →
    s.rtray pos = some x →
    (x.stage = 1 → (∃ k ∈ x.blks, k.beam = b.val ∧ 0 ∈ k.st) → seen.ofs = none →
      ∃ (t : State) (y : RTray), exec (.inlineVerdict pos b seen peak mean) s = .next ((t.setRtray y).ladder x.desc.num 8) ∧
        (∀ k ∈ y.blks, k.beam = b.val → k.erased = true ∧ k.failed = true ∧ ∀ c ∈ k.st, c = 13) ∧
        (∀ k ∈ x.blks, k.beam ≠ b.val → k ∈ y.blks) ∧ t.event (.beam b) 6 = true ∧ t.mem = s.mem) ∧
    (∀ e : Nat, s.engineOf (x.desc.num, b.val, p.val) = some e →
      (∃ (t : State) (y : RTray), exec (.deepDecodeDone pos b p false) s = .next (((t.setRtray y).runPool).ladder x.desc.num 8) ∧
        Tbl.look none t.rp.engines e = none ∧ t.rd .deep F.DPFCNT_count = (s.rd .deep F.DPFCNT_count + 1) % 2 ^ 32 ∧
        t.rd .media F.MRSTAT_deep = (s.rd .media F.MRSTAT_deep - 1) % 2 ^ F.MRSTAT_deep.w ∧
        (∀ k ∈ y.blks, k.beam = b.val → p.val < k.st.length → k.st[p.val]? = some 13) ∧ t.mem = s.mem) ∧
      (∃ (t : State) (y : RTray) (z : State), exec (.deepDecodeDone pos b p true) s = .next (((z.setRtray y).runPool).ladder x.desc.num 8) ∧
        (t.cwOk x b p 2) = (z, y) ∧ Tbl.look none t.rp.engines e = none ∧
        t.rd .deep F.DPCNT_count = (s.rd .deep F.DPCNT_count + 1) % 2 ^ 32 ∧
        (∀ k ∈ y.blks, k.beam = b.val → p.val < k.st.length → k.st[p.val]? = some 2))) ∧
    (x.stage = 1 → (∃ k ∈ x.blks, k.beam = b.val ∧ (k.st[p.val]? = some 1 ∨ k.st[p.val]? = some 2)) →
      ∃ (t : State) (y : RTray), exec (.sinkOverflow pos b p) s = .next ((t.setRtray y).ladder x.desc.num 8) ∧ t = s.raise .dram 5 ∧
        t.event .dram 5 = true ∧ (∀ k ∈ y.blks, k.beam = b.val → p.val < k.st.length → k.st[p.val]? = some 13))) ∧
  (∀ (s : State), s.pw.clocked = true →
    (∀ (pos : Nat) (x : RTray) (seens : List (Nat × Seen × List Nat)), s.rtray pos = some x → x.stage = 3 →
      let r := seens.foldl (fun a k => a.1.passBlock a.2 k) (s.count 153, x)
      exec (.step3PassEnd pos seens) s = .next ((r.1.setRtray { r.2 with pass := x.pass + 1 }).ladder x.desc.num 8)) ∧
    (∀ (pos : Nat) (x : RTray) (p : Fin 24) (bad : List Nat), s.rtray pos = some x → x.stage = 4 →
      let er := x.blks.filter (fun k => (k.st[p.val]?).getD 0 == 14)
      er ≠ [] → s.parityCount pos p < er.length →
      ∃ (t : State) (y : RTray), exec (.outerRecovery pos p bad) s = .next ((t.setRtray y).ladder x.desc.num 8) ∧
        t.rd .outer F.OCFCNT_count = (s.rd .outer F.OCFCNT_count + 1) % 2 ^ 32 ∧
        RegsBut s t [fieldKey .outer F.OCFCNT_count] ∧ t = { s with regs := t.regs } ∧
        (∀ k ∈ y.blks, (k.st[p.val]?).getD 0 ≠ 14)) ∧
    (s.rp.batch = 0 → (∃ x ∈ s.rp.trays, x.stage = 5) →
      ∃ t : State, t = ({ s with tb := { s.tb with paused := s.tb.paused ++ [3] } } : State).count 154 ∧
        ((t.changeSpeed true).2 = true →
          ∃ u : State, exec .step5GatherTimeout s = .next u ∧ u.rp.batch = 1 ∧ 3 ∈ u.tb.paused ∧ u.flag .media F.MRSTAT_held = true) ∧
        ((t.changeSpeed true).2 = false → ∃ u : State, exec .step5GatherTimeout s = .next u ∧ 3 ∉ u.tb.paused ∧
          u.flag .media F.MRSTAT_step5 = false)))

/-! ### The optical servo (06) -/

/-- SERVO_CONVERSION_DONE, ADC_FREEZE_TRIP and HADCCFG_GAIN_WRITE (R177 to R181). A conversion delivers one word to every slot that triggered
it, with the dither removed and the hold, overrun and frozen tags; each identical raw code under dither lengthens the run and the 64th
trips the freeze detector, which removes the head's gates. WEDGE_POSITION (R145, R182 to R185). The chevron decode is valid for four
stripe distances that differ by at most one position with a mean above 14 and at most 18; the error is the nearest unit to P − S. A valid
wedge shows its number, error and position; one off track by more than HTRKLIM removes the write gates and raises HEAD_OFFTRACK; a Gray
mismatch raises HEAD_ADDRERR and is not valid. SYNTH_LOCK and SYNTH_LOST (R144), COMPARATOR_TRIP and COMPARATOR_RELEASE (R191) and
HOLD_KICKBACK (R104, R197). -/
def Obligations.ServoPath : Prop :=
  (∀ (s : State) (h : Fin 4) (c : Fin 6), s.pw.clocked = true →
    (∀ (raw : BitVec 12) (plus : Bool),
      let cv := Tbl.look ⟨[], false⟩ (s.hd h).conv c.val
      let again : Bool := (s.hd h).raw.any (fun e => e.1 == c.val && e.2 == raw.toNat + 1)
      cv.slots ≠ [] →
      ∃ t, exec (.servoConversionDone h c raw plus) s = .next t ∧
        (s.flag (.head h) (F.HADCCFG_dither c) = false →
          t.rd (.head h) (F.HADCLAST_word c) =
            raw.toNat * 16 + b2n cv.hold * 8 + b2n (s.flag (.head h) (F.HADCSTAT_frozen c)) * 2 ∧
          t.rd (.head h) (F.HADCSTAT_run c) = s.rd (.head h) (F.HADCSTAT_run c) % 256) ∧
        (s.flag (.head h) (F.HADCCFG_dither c) = true →
          (signed 12 raw.toNat - (if plus then 1 else -1) ≤ 2047 → -2048 ≤ signed 12 raw.toNat - (if plus then 1 else -1) →
            signed 12 (t.rd (.head h) (F.HADCLAST_word c) / 16) = signed 12 raw.toNat - (if plus then 1 else -1)) ∧
          t.rd (.head h) (F.HADCSTAT_run c) = (if again then min 64 (s.rd (.head h) (F.HADCSTAT_run c) + 1) else 1) ∧
          (t.rd (.head h) (F.HADCSTAT_run c) = 64 → t.rd (.head h) (F.HADCLAST_word c) / 2 % 2 = 1)) ∧
        (∀ x ∈ cv.slots, ∃ y ∈ cv.slots, y.1 = x.1 ∧
          Tbl.look 0 t.adcIn (32 * x.1 + 8 * h.val + c.val) = 65536 + t.rd (.head h) (F.HADCLAST_word c) + b2n y.2 * 4) ∧
        (Tbl.look ⟨[], false⟩ (t.hd h).conv c.val).slots = [] ∧
        RegsBut s t [fieldKey (.head h) (F.HADCSTAT_run c), fieldKey (.head h) (F.HADCLAST_word c)] ∧
        t = { s with regs := t.regs, heads := t.heads, adcIn := t.adcIn }) ∧
    (s.flag (.head h) (F.HADCSTAT_frozen c) = false → s.rd (.head h) (F.HADCSTAT_run c) = 64 →
      ∃ t, exec (.adcFreezeTrip h c) s = .next t ∧ t.flag (.head h) (F.HADCSTAT_frozen c) = true ∧ t.event (.head h) 6 = true ∧
        t.event (.head h) 2 = true ∧ bitOf (t.rd (.head h) F.HSVFLT_flags) 2 = true ∧ t.GatesGone h ∧
        t.flag (.head h) F.HSEQSTAT_ready = false ∧ t.mem = s.mem) ∧
    (∀ (r : Requester) (v : Word), s.May r (.head h) (0x80 + 4 * c) →
      ∃ t, exec (.hadccfgGainWrite r h c v) s = .next t ∧ t.rd (.head h) (F.HADCCFG_gain c) = v.toNat % 4 ∧
        t.rd (.head h) (F.HADCCFG_dither c) = v.toNat / 256 % 2 ∧ Tbl.look 0 (t.hd h).gainHold c.val = 2 ∧
        RegsBut s t [fieldKey (.head h) (F.HADCCFG_gain c), fieldKey (.head h) (F.HADCCFG_dither c)] ∧
        t = { s with regs := t.regs, heads := t.heads })) ∧
  ((∀ a b c d : Nat, a < 2 ^ 16 → b < 2 ^ 16 → c < 2 ^ 16 → d < 2 ^ 16 →
    let far := max (max a b) (max c d) - min (min a b) (min c d)
    (256 < far ∨ a + b + c + d ≤ 14336 ∨ 18432 < a + b + c + d → chevron [a, b, c, d] = none) ∧
    (far ≤ 256 → 14336 < a + b + c + d → a + b + c + d ≤ 18432 → chevron [a, b, c, d] = some (18432 - (a + b + c + d)))) ∧
  (∀ p s : Int, -8388608 ≤ trackError p s ∧ trackError p s ≤ 8388607 ∧
    (-8388608 < trackError p s → trackError p s < 8388607 →
      2048 * trackError p s ≤ 2 * (256 * p - s) + 1024 ∧ 2 * (256 * p - s) + 1024 < 2048 * (trackError p s + 1))) ∧
  trackError (fourP (249 * 4096 + 3496)) (targetS true 487 400 40) = -22 ∧
  (∀ (s : State) (h : Fin 4) (num : Fin 1024) (parityOk : Bool) (dj : List Nat) (gray : Nat), s.pw.clocked = true →
    let x := s.wedge h num parityOk dj gray
    (x.ok = true → s.flag (.head h) F.HCLKSTAT_locked = true ∧ parityOk = true ∧ x.mis = false ∧ x.num = num.val) ∧
    ∃ t, exec (.wedgePosition h num parityOk dj gray) s = .next t ∧ t.mem = s.mem ∧
      t.flag (.head h) F.HTRKERR_valid = x.ok ∧ t.rd (.head h) F.HTRKERR_wedge = x.num % 1024 ∧
      (x.ok = true → signed 16 (t.rd (.head h) F.HTRKERR_error) = clampInt (-32767) 32767 x.err ∧
        t.rd (.head h) F.HSVPOS_pos = unsigned 32 ((fourP x.pos + 2) / 4)) ∧
      (x.ok = false → t.rd (.head h) F.HTRKERR_error = s.rd (.head h) F.HTRKERR_error ∧
        t.rd (.head h) F.HSVPOS_pos = s.rd (.head h) F.HSVPOS_pos) ∧
      (x.mis = true → t.event (.head h) 5 = true) ∧
      (x.ok = true → s.rd (.head h) F.HTRKLIM_limit < x.err.natAbs → t.event (.head h) 4 = true ∧ t.GatesGone h) ∧
      (x.ok = true → 384 < x.err.natAbs → s.tracks h = true → t.event (.head h) 3 = true ∧ bitOf (t.rd (.head h) F.HSVFLT_flags) 5 = true))) ∧
  (∀ (s : State) (h : Fin 4), s.pw.clocked = true →
    (∀ err : Int, s.flag (.head h) F.HCLKSTAT_locked = false →
      ∃ t, exec (.synthLock h err) s = .next t ∧ t.flag (.head h) F.HCLKSTAT_locked = true ∧ t.event (.head h) 13 = true ∧
        t.rd (.head h) F.HCLKPHE_error = unsigned 16 err ∧ RegsOnly s t) ∧
    (s.flag (.head h) F.HCLKSTAT_locked = true →
      ∃ t, exec (.synthLost h) s = .next t ∧ t.flag (.head h) F.HCLKSTAT_locked = false ∧ t.flag (.head h) F.HCLKSTAT_lost = true ∧
        t.event (.head h) 12 = true ∧ t.event (.head h) 4 = true ∧ t.GatesGone h ∧ t.flag (.head h) F.HSEQSTAT_ready = false) ∧
    (∀ (lay : Bool) (level : Nat),
      let nom := s.rd (.head h) (if lay then F.HFSNOM_lfs else F.HFSNOM_fs)
      let thr := s.rd (.head h) (if lay then F.HFSTHR_lwg else F.HFSTHR_wg)
      ((if lay then (s.hd h).layer else (s.hd h).focus) = true → (if lay then (s.hd h).layTrip else (s.hd h).refTrip) = false →
        level * 256 < 16 * thr * nom →
        ∃ t, exec (.comparatorTrip h lay level) s = .next t ∧ (if lay then (t.hd h).layTrip else (t.hd h).refTrip) = true ∧
          bitOf (t.rd (.head h) F.HSVFLT_flags) (if lay then 1 else 0) = true ∧ t.event (.head h) 2 = true ∧ t.GatesGone h ∧
          t.flag (.head h) F.HSEQSTAT_ready = false ∧ t.event (.head h) 1 = s.event (.head h) 1 ∧ t.mem = s.mem) ∧
      ((if lay then (s.hd h).layer else (s.hd h).focus) = false ∨ 16 * thr * nom ≤ level * 256 →
        exec (.comparatorTrip h lay level) s = .next s) ∧
      ((16 * thr + s.rd (.head h) F.HFSTHR_hyst) * nom < level * 256 →
        ∃ t, exec (.comparatorRelease h lay level) s = .next t ∧ (if lay then (t.hd h).layTrip else (t.hd h).refTrip) = false ∧
          HeadsOnly s t) ∧
      (level * 256 ≤ (16 * thr + s.rd (.head h) F.HFSTHR_hyst) * nom → exec (.comparatorRelease h lay level) s = .next s)) ∧
    (s.hState h = 5 → let T := s.rd .tray F.TBPOS_pointer
      ∃ t, exec (.holdKickback h) s = .next t ∧ RegsBut s t [fieldKey (.head h) F.HSEQSTAT_group] ∧ t = { s with regs := t.regs } ∧
        t.rd (.head h) F.HSEQSTAT_group =
          (if layerOf T = s.rd (.head h) F.HSEQSTAT_layer then groupOf T h else s.rd (.head h) F.HSEQSTAT_group) % 2 ^ 14))

/-- HSEQCMD (R193, R194): what each command is refused for and with which result, with nothing else changed; and where each accepted one
starts. No step is granted to the head meanwhile (R481). SEQ_STEP_DONE and SEQ_STEP_TIMEOUT (R193, R194): the eight steps of an acquire in
order, what each leaves locked, and its end in state locked with result 0; a step beyond its bound ends any sequence in state fault with
the result of the table. LAYER_JUMP_AUTO and LAYER_JUMP_TIMEOUT (R198), and FOCUS_REACQUIRE_TIMER (R199): every head with autojump jumps
to the first group of the next layer; a head past its bound ends in fault with result 3 or 2 and frees a partner that waits; a lost focus
is acquired again until the retries are used. -/
def Obligations.HeadSequencer : Prop :=
  (∀ (s : State) (r : Requester) (h : Fin 4) (l : Fin 16) (g : Fin 16384), s.May r (.head h) 0x40 → Tbl.look 0 s.bg.running h.val = 0 →
    let busy := s.flag (.head h) F.HSEQSTAT_busy
    let idle : Bool := s.hState h == 2 || s.hState h == 5 || s.hState h == 6
    let refused (c : Instr) (n : Nat) : Prop := ∃ t, exec c s = .next t ∧ t.rd (.head h) F.HSEQSTAT_result = n ∧
      t.event (.head h) 10 = true ∧ RegsBut s t (fieldKey (.head h) F.HSEQSTAT_result :: booked (.head h)) ∧ RegsOnly s t
    let runs (c : Instr) (st seq step layer group : Nat) : Prop := ∃ t, exec c s = .next t ∧ t.hState h = st ∧
      t.flag (.head h) F.HSEQSTAT_busy = true ∧ (t.hd h).seq = seq ∧ (t.hd h).step = step ∧ (t.hd h).tLayer = layer ∧
      (t.hd h).tGroup = group ∧ (∀ k, k ≠ h.val → t.hd k = s.hd k) ∧ HeadsOnly s t
    (11775 < g.val → ∀ c ∈ [Instr.seqAcquire r h false l g, .seqSeek r h false l g, .seqLayer r h false l g, .seqSeekLayer r h false l g,
      .seqHold r h false l g, .seqLeadin r h false l g, .seqRelease r h false l g], refused c 6) ∧
    (g.val ≤ 11775 →
      (busy = true → ∀ c ∈ [Instr.seqAcquire r h false l g, .seqSeek r h false l g, .seqLayer r h false l g, .seqSeekLayer r h false l g,
        .seqHold r h false l g, .seqLeadin r h false l g], refused c 1) ∧
      (busy = false → s.clockReady = false → refused (.seqAcquire r h false l g) 4) ∧
      (busy = false → s.hState h ∈ [0, 1, 7, 8] → ∀ c ∈ [Instr.seqSeek r h false l g, .seqLayer r h false l g, .seqSeekLayer r h false l g,
        .seqHold r h false l g, .seqLeadin r h false l g], refused c 6) ∧
      (busy = false → idle = true → s.trayNames h = true →
        ∀ c ∈ [Instr.seqSeek r h false l g, .seqLayer r h false l g, .seqSeekLayer r h false l g], refused c 1) ∧
      (busy = false → s.clockReady = true → runs (.seqAcquire r h false l g) 1 1 (if (s.hd h).atClock then 5 else 1) l g) ∧
      (busy = false → idle = true →
        (s.trayNames h = false → runs (.seqSeek r h false l g) 3 2 6 (s.rd (.head h) F.HSEQSTAT_layer) g ∧
          runs (.seqLayer r h false l g) 4 3 7 l (s.rd (.head h) F.HSEQSTAT_group) ∧ runs (.seqSeekLayer r h false l g) 3 4 6 l g) ∧
        runs (.seqHold r h false l g) (s.hState h) 5 11 (s.rd (.head h) F.HSEQSTAT_layer) (s.rd (.head h) F.HSEQSTAT_group) ∧
        runs (.seqLeadin r h false l g) 3 6 12 (s.rd (.head h) F.HSEQSTAT_layer) (s.rd (.head h) F.HSEQSTAT_group)) ∧
      (∃ t, exec (.seqRelease r h false l g) s = .next t ∧ t.hState h = 7 ∧ t.flag (.head h) F.HSEQSTAT_busy = true ∧
        (t.hd h).seq = 7 ∧ (t.hd h).step = 14 ∧ (t.hd h).focus = false ∧ (t.hd h).layer = false ∧ t.GatesGone h ∧
        t.flag (.head h) F.HCLKSTAT_locked = false ∧ (busy = true → t.event (.head h) 10 = true) ∧ t.mem = s.mem))) ∧
  (∀ (s : State) (h : Fin 4) (thr : List Nat), s.pw.clocked = true → (s.hd h).body = false →
    ((s.hd h).seq = 1 → (s.hd h).pair = false →
      (∀ n ∈ [1, 2, 3, 4, 5, 6, 7], (s.hd h).step = n → ∃ t, exec (.seqStepDone h thr) s = .next t ∧ (t.hd h).step = n + 1 ∧
        (t.hd h).seq = 1 ∧ t.mem = s.mem ∧ t.flag (.head h) F.HSEQSTAT_busy = s.flag (.head h) F.HSEQSTAT_busy ∧
        (n = 2 → (t.hd h).focus = true) ∧ (n = 3 → (t.hd h).tilt = true) ∧ (n = 4 → t.flag (.head h) F.HCLKSTAT_locked = true) ∧
        (n = 5 → (t.hd h).track = true) ∧ (n = 6 → t.rd (.head h) F.HSEQSTAT_group = (s.hd h).tGroup % 2 ^ 14) ∧
        (n = 7 → (t.hd h).layer = true ∧ t.rd (.head h) F.HSEQSTAT_layer = (s.hd h).tLayer % 16)) ∧
      ((s.hd h).step = 8 → (s.hd h).endState = 2 → ∃ t, exec (.seqStepDone h thr) s = .next t ∧ t.hState h = 2 ∧
        t.flag (.head h) F.HSEQSTAT_busy = false ∧ t.rd (.head h) F.HSEQSTAT_result = 0 ∧ t.event (.head h) 9 = true ∧ (t.hd h).seq = 0 ∧
        t.mem = s.mem)) ∧
    ((s.hd h).seq ≠ 0 → (s.hd h).seq ≠ 12 → ∀ n ∈ [1, 2, 3, 4, 5, 6, 7, 8], (s.hd h).step = n →
      ∃ t, exec (.seqStepTimeout h) s = .next t ∧ t.hState h = 8 ∧ t.flag (.head h) F.HSEQSTAT_busy = false ∧
        t.event (.head h) 10 = true ∧ t.mem = s.mem ∧
        t.rd (.head h) F.HSEQSTAT_result = (if n = 1 then 8 else if n = 4 then 4 else if n = 5 then 5 else if n = 6 ∨ n = 8 then 2 else 3))) ∧
  (∀ (s : State) (h : Fin 4), s.pw.clocked = true →
    (let l := s.rd (.head 0) F.HSEQSTAT_layer
      let jumps (k : Nat) : Bool := s.flag (.head k) F.HSVCFG_autojump && (s.hState k == 2 || s.hState k == 5)
      l < 15 → jumps h = true → ∃ t, exec .layerJumpAuto s = .next t ∧ t.counter 156 = (s.counter 156 + 1) % 2 ^ 48 ∧ t.mem = s.mem ∧
        (∀ k < 4, jumps k = true → t.hState k = 4 ∧ t.flag (.head k) F.HSEQSTAT_busy = true ∧ (t.hd k).layer = false ∧
          (t.hd k).jump = 1 ∧ (t.hd k).tLayer = l + 1 ∧ t.rd (.head k) F.HSEQSTAT_group = groupOf (94208 * (l + 1)) k % 2 ^ 14) ∧
        (∀ k < 4, jumps k = false → t.hd k = s.hd k) ∧
        (∀ n : Nat, n < 4 → s.flag (.stepper n) F.STGCFG_auto = true → t.rd (.stepper n) F.STSTAT_gsign = 0)) ∧
    ((s.hd h).jump = 1 → (s.hd h).seq = 11 → ∃ t, exec (.layerJumpTimeout h) s = .next t ∧ t.hState h = 8 ∧
      t.rd (.head h) F.HSEQSTAT_result = (if (s.hd h).step = 7 then 3 else 2) ∧ t.event (.head h) 10 = true ∧ t.mem = s.mem ∧
      ((s.hd (partner h)).jump = 2 → t.hState (partner h) = 5 ∧ t.event (.head (partner h)) 9 = true)) ∧
    ((s.hd h).wait = true → (s.hd h).retries < s.rd (.head h) F.HSVCFG_retries →
      ∃ t, exec (.focusReacquireTimer h) s = .next t ∧ t.hState h = 1 ∧ t.flag (.head h) F.HSEQSTAT_busy = true ∧ (t.hd h).step = 1 ∧
        (t.hd h).retries = (s.hd h).retries + 1 ∧ HeadsOnly s t) ∧
    ((s.hd h).wait = true → s.rd (.head h) F.HSVCFG_retries ≤ (s.hd h).retries →
      ∃ t, exec (.focusReacquireTimer h) s = .next t ∧ t.hState h = 8 ∧ t.rd (.head h) F.USTAT_state = 5 ∧ t.event (.head h) 10 = true ∧
        t.mem = s.mem))

/-! ### Spindle, sleds and motion (07) -/

/-- SPCMD (R215): the table of commands against states. A refused command changes nothing and raises SPIN_CMDREFUSED. SPINDLE_TICK (R204,
R205, R206, R216): the vector table; vectors are applied only in the driven states; a leg above SPILIM holds the torque; a leg at 8.0 A
turns the bridge off for eight ticks, and the third trip in 10 ms is fault 3; no torque is taken back while regeneration is cut. The start
from rest and the clock take (R207 to R209), the end of a stop (R213) and of a speed change (R212), and SPIN_SPEEDERR (R211). -/
def Obligations.Spindle : Prop :=
  (∀ (s : State) (r : Requester) (slow : Bool), s.May r .spindle 0x40 →
    let refused (c : Instr) : Prop := ∃ t, exec c s = .next t ∧ t.event .spindle 10 = true ∧ RegsBut s t (booked .spindle) ∧ RegsOnly s t
    let goes (c : Instr) (st : Nat) : Prop := ∃ t, exec c s = .next t ∧ t.spState = st ∧ t.mem = s.mem ∧ t.tb = s.tb ∧ t.rp = s.rp ∧
      t.event .spindle 10 = s.event .spindle 10
    let fit : Bool := !s.loaderMoves && s.pairsOk && s.motorOk
    (fit = false ∨ s.spState ∈ [1, 2, 3, 4, 5, 6, 7] → refused (.spinStart r slow)) ∧
    (fit = true → s.spState ∈ [0, 9, 10, 11] → goes (.spinStart r slow) 1 ∧
      ∃ t, exec (.spinStart r slow) s = .next t ∧ t.flag .spindle F.SPSTAT_speed = slow ∧ t.rd .spindle F.SPSTAT_cause = 0 ∧ t.spin.vec = 7) ∧
    (fit = true → s.spState = 8 → goes (.spinStart r slow) (if s.spin.handed then 7 else 3)) ∧
    (s.spState ∈ [3, 4, 5, 6, 7, 8] → s.motorOk = true → goes (.spinChange r slow) (if s.spin.handed then 7 else 3) ∧
      ∃ t, exec (.spinChange r slow) s = .next t ∧ t.flag .spindle F.SPSTAT_speed = slow ∧ t.spin.vec = s.spin.vec) ∧
    (s.spState ∈ [0, 1, 2, 9, 10, 11] → refused (.spinChange r slow)) ∧
    (s.spState ∈ [0, 8, 9, 10, 11] → exec (.spinStop r) s = .next s) ∧
    (s.spState ∈ [1, 2] → goes (.spinStop r) 0) ∧ (s.spState ∈ [3, 4, 5, 6, 7] → goes (.spinStop r) 8) ∧
    (s.spState = 0 → exec (.spinShortBrake r) s = .next s ∧ exec (.spinCoast r) s = .next s) ∧
    (s.spState ≠ 0 → goes (.spinShortBrake r) 9 ∧ goes (.spinCoast r) 10 ∧
      (∃ t, exec (.spinShortBrake r) s = .next t ∧ t.spin.vec = 0) ∧ (∃ t, exec (.spinCoast r) s = .next t ∧ t.spin.vec = 7))) ∧
  ((∀ k ∈ [1, 2, 3, 4, 5, 6], chosenVec k true 1 = k % 6 + 1 ∧ chosenVec k false 1 = (k + 1) % 6 + 1 ∧
    chosenVec k true (-1) = (k + 4) % 6 + 1 ∧ chosenVec k false (-1) = (k + 3) % 6 + 1 ∧ ∀ up, chosenVec k up 0 = 0) ∧
  ∀ (s : State) (ia ib ic : Int) (count : Fin 4096) (speed : Nat) (angle : Option (Fin 262144)), s.pw.clocked = true →
    ∃ t, exec (.spindleTick ia ib ic count speed angle) s = .next t ∧
      t.rd .spindle F.SPENC_count = count.val ∧ t.rd .spindle F.SPSPEED_speed = speed % 2 ^ 18 ∧
      t.flag .spindle F.SPANGLE_valid = angle.isSome ∧ (∀ a, angle = some a → t.rd .spindle F.SPANGLE_angle = a.val) ∧
      t.mem = s.mem ∧ t.rd .spindle F.SPTCMD_torque = s.rd .spindle F.SPTCMD_torque ∧
      (s.spState ∉ [3, 4, 5, 6, 7, 8] → t.spin.vec = (if s.spState = 9 then 0 else 7) ∧ t.spState = s.spState ∧
        t.event .spindle 7 = s.event .spindle 7) ∧
      (s.spState ∈ [3, 4, 5, 6, 7, 8] →
        (0 < s.spin.off → t.spin.off = s.spin.off - 1 ∧ t.spin.vec = 7) ∧
        (s.spin.off = 0 → s.legAbove ia ib ic 7999 = true → t.event .spindle 7 = true ∧ t.spin.vec = 7 ∧
          let recent := s.spin.trips.filter (fun a => decide (a + 1 < 24000))
          (recent.length < 2 → t.spin.off = 7 ∧ t.spState = s.spState) ∧
          (2 ≤ recent.length → t.spState = 11 ∧ t.rd .spindle F.SPSTAT_cause = 3)) ∧
        (s.spin.off = 0 → s.legAbove ia ib ic 7999 = false → t.spState = s.spState ∧ t.spin.off = 0 ∧
          (s.legAbove ia ib ic (min 240 (s.rd .spindle F.SPILIM_limit) * 25 : Nat) = true → t.spin.vec = 0) ∧
          (s.flag .vmot F.VMSTAT_regen = true → let k := fluxSector t.spin.fluxA t.spin.fluxB
            t.spin.vec = 0 ∨ t.spin.vec = k % 6 + 1 ∨ t.spin.vec = (k + 1) % 6 + 1)))) ∧
  (∀ (s : State), s.pw.clocked = true →
    (s.spState = 1 → ∃ t, exec .spinRestDetected s = .next t ∧ t.spState = 2 ∧ t = { s with regs := t.regs }) ∧
    (s.spState = 8 ∨ s.spState = 9 → ∃ t, exec .spinRestDetected s = .next t ∧ t.spState = 0 ∧ t.event .spindle 9 = true ∧ t.spin.vec = 7 ∧
      t.mem = s.mem) ∧
    (∀ cs : List Nat, s.spState = 2 →
      let sets := s.spin.sets ++ [alignAngle (s.rd .spindle F.SPALIGN_margin) cs]
      (∀ a b, sets = [some a, some b] → (((b : Int) - a + 180) % 360 - 180).natAbs ≤ 30 →
        ∃ t, exec (.spinAlignDone cs) s = .next t ∧ t.spState = 3 ∧ t.rd .spindle F.SPALRES_sets = 2 ∧
          (∃ m, agree a b = some m ∧ t.rd .spindle F.SPALRES_angle = m % 512) ∧ t.flag (.slot 68) F.SLCTRL_run = true ∧
          t.counter 194 = (s.counter 194 + 1) % 2 ^ 48) ∧
      (alignResult sets = none → sets.length < 3 → ∃ t, exec (.spinAlignDone cs) s = .next t ∧ t.spState = 2 ∧ t.spin.sets = sets) ∧
      (alignResult sets = none → sets.length = 3 → ∃ t, exec (.spinAlignDone cs) s = .next t ∧ t.spState = 11 ∧
        t.rd .spindle F.SPSTAT_cause = 1 ∧ t.event .spindle 5 = true)) ∧
    (s.spState = 3 → s.spin.realigned = false → ∃ t, exec (.spinEncoderTimeout true) s = .next t ∧ t.spState = 2 ∧ t.spin.realigned = true) ∧
    (∀ back : Bool, s.spState = 3 → (back = false ∨ s.spin.realigned = true) → ∃ t, exec (.spinEncoderTimeout back) s = .next t ∧
      t.spState = 11 ∧ t.rd .spindle F.SPSTAT_cause = 2 ∧ t.event .spindle 6 = true ∧ t.spin.vec = 7) ∧
    (s.spState = 3 → let h := s.rd .spindle F.SPCFG_refhead
      ∃ t, exec .spinSpeedReached s = .next t ∧ t.spState = 5 ∧ (t.hd h).seq = 8 ∧ (t.hd h).step = 1 ∧ t.hState h = 1 ∧
        t.flag (.head h) F.HSEQSTAT_busy = true) ∧
    (∀ index : Fin 4096, let h := s.takeHead
      s.spState = 5 → (s.hd h).seq = 8 → (s.hd h).step = 4 →
      ∃ t, exec (.clockTakeDone true index) s = .next t ∧ t.spState = 6 ∧ t.flag .spindle F.SPSTAT_clock = true ∧
        t.rd .spindle F.SPSTAT_head = h ∧ t.rd .spindle F.SPENC_offset = index.val ∧ t.event .spindle 2 = true ∧ t.event .spindle 1 = true ∧
        t.spin.handed = true ∧ (t.hd h).atClock = true ∧ t.flag (.head h) F.HSEQSTAT_busy = false ∧ t.rd (.head h) F.HSEQSTAT_result = 0 ∧
        t.flag (.head h) F.HCLKSTAT_locked = true) ∧
    (∀ index : Fin 4096, s.spState = 5 → s.spin.tried = 4 → s.rd .power F.PWSTART_stage ≠ 8 →
      ∃ t, exec (.clockTakeDone false index) s = .next t ∧ t.spState = 4 ∧ t.event .spindle 4 = true) ∧
    (∀ index : Fin 4096, s.spState = 5 → s.spin.tried < 4 → let h := (s.takeHead + 1) % 4
      ∃ t, exec (.clockTakeDone false index) s = .next t ∧ t.spState = 5 ∧ (t.hd h).seq = 8 ∧ (t.hd h).step = 1 ∧
        t.spin.tried = s.spin.tried + 1) ∧
    (s.spState = 6 → exec .speedErrorPersist s = .next (s.raise .spindle 8)) ∧
    (s.spState = 7 → s.rp.batch = 1 → ∃ t, exec (.speedChangeDone true) s = .next t ∧ t.spState = 6 ∧ t.event .spindle 1 = true ∧
      t.rp.batch = 2 ∧ (∀ x ∈ t.rp.trays, x.stage ≠ 5) ∧ t.mem = s.mem) ∧
    (s.spState = 7 → s.rp.batch = 3 → ∀ ok, ∃ t, exec (.speedChangeDone ok) s = .next t ∧ t.spState = 6 ∧ t.event .spindle 1 = true ∧
      t.rp.batch = 0 ∧ 3 ∉ t.tb.paused ∧ t.mem = s.mem) ∧
    (s.spState = 7 → s.rp.batch = 0 → ∀ ok, ∃ t : State, exec (.speedChangeDone ok) s = .next t.psOps ∧ t.spState = 6 ∧
      t.event .spindle 1 = true ∧ 2 ∉ t.tb.paused ∧ t.mem = s.mem))

/-- The VMOT watch (R216): each level on its crossing sets its flag, shows the sample and raises its event; the brake keeps what the spindle
was doing and the fall below 13.6 V lets it go on; an under-voltage fault is spindle fault 4 with every stepper off and every Vcm ramping.
The voice coils (R229, R230): a retract drives to VCSAFE and clears when it gets there; a coil fault takes the output to zero, puts the
unit in fault and its event up, and faults each running slot that drives it. -/
def Obligations.VmotAndVoiceCoils : Prop :=
  (∀ (s : State) (mv : Nat), s.pw.clocked = true → mv < 65536 →
    let level (c : Instr) (f : Field) (e : Nat) : Prop := ∃ t, exec c s = .next t ∧ t.flag .vmot f = true ∧ t.event .vmot e = true ∧
      t.rd .vmot F.VMVOLT_volt = mv ∧
      RegsBut s t (fieldKey .vmot F.VMVOLT_volt :: fieldKey .vmot f :: booked .vmot) ∧ RegsOnly s t
    (14000 ≤ mv → level (.vmotRegencut mv) F.VMSTAT_regen 3) ∧ (mv < 14000 → exec (.vmotRegencut mv) s = .next s) ∧
    (14500 ≤ mv → level (.vmotOver mv) F.VMSTAT_over 5) ∧ (mv < 14500 → exec (.vmotOver mv) s = .next s) ∧
    (mv < s.rd .vmot F.VMUVT_warn → level (.vmotUvwarn mv) F.VMSTAT_uvwarn 1) ∧
    (s.rd .vmot F.VMUVT_warn ≤ mv → exec (.vmotUvwarn mv) s = .next s) ∧
    (14300 ≤ mv → ∃ t, exec (.vmotBrake mv) s = .next t ∧ t.flag .vmot F.VMSTAT_brake = true ∧ t.event .vmot 4 = true ∧ t.mem = s.mem ∧
      (s.spState ∈ [1, 2, 3, 4, 5, 6, 7, 8] → s.spin.saved = none → t.spState = 9 ∧ t.spin.vec = 0 ∧ t.spin.saved = some s.spState) ∧
      (s.spState ∈ [0, 9, 10, 11] → t.spState = s.spState ∧ t.spin = s.spin)) ∧
    (mv < 13600 → ∃ t, exec (.vmotWatchRelease mv) s = .next t ∧ t.flag .vmot F.VMSTAT_brake = false ∧
      t.flag .vmot F.VMSTAT_regen = false ∧ t.mem = s.mem ∧
      (∀ st < 12, s.spin.saved = some st → t.spState = st ∧ t.spin.saved = none) ∧ (s.spin.saved = none → t.spState = s.spState)) ∧
    (max 8000 (s.rd .vmot F.VMUVT_fault) ≤ mv → exec (.vmotUvfault mv) s = .next s) ∧
    (mv < max 8000 (s.rd .vmot F.VMUVT_fault) → ∃ t, exec (.vmotUvfault mv) s = .next t ∧ t.flag .vmot F.VMSTAT_uvfault = true ∧
      t.event .vmot 2 = true ∧ t.spState = 11 ∧ t.rd .spindle F.SPSTAT_cause = 4 ∧ t.spin.vec = 7 ∧
      (∀ n : Nat, n < 5 → (t.stp n).coils = false ∧ t.flag (.stepper n) F.STSTAT_moving = false) ∧
      (∀ h < 4, s.hState h ≠ 0 → t.hState h = 7 ∧ t.GatesGone h) ∧ (∀ n : Nat, n < 16 → t.flag (.vcm n) F.VCSTAT_ramping = true) ∧ t.mem = s.mem)) ∧
  (∀ (s : State) (r : Requester) (n : Fin 16), let u : UnitId := .vcm n
    (s.May r u 0x40 → ∃ t, exec (.vcctrlRetract r n) s = .next t ∧ t.flag u F.VCCTRL_retract = true ∧ t.flag u F.VCSTAT_ramping = true ∧
      RegsBut s t [fieldKey u F.VCCTRL_retract, fieldKey u F.VCSTAT_ramping] ∧ t = { s with regs := t.regs }) ∧
    (s.pw.clocked = true →
      (s.flag u F.VCSTAT_ramping = true → ∃ t, exec (.vcmRampDone n) s = .next t ∧ t.flag u F.VCCTRL_retract = false ∧
        t.flag u F.VCSTAT_ramping = false ∧ t.rd u F.VCOUT_cmd = s.rd u F.VCSAFE_safe % 65536 ∧
        t.rd u F.VCSTAT_current = s.rd u F.VCSAFE_safe % 65536 ∧ t = { s with regs := t.regs }) ∧
      (s.safeHold = true → s.flag u F.VCSTAT_ramping = false → ∃ t, exec (.vcmSafeHoldEnd n) s = .next t ∧ t.rd u F.VCOUT_cmd = 0 ∧
        t.rd u F.VCSTAT_current = 0 ∧ RegsBut s t [fieldKey u F.VCOUT_cmd, fieldKey u F.VCSTAT_current] ∧ t = { s with regs := t.regs }) ∧
      (∀ short : Bool, ∃ t, exec (.vcmCoilFault n short) s = .next t ∧ t.flag u (if short then F.VCSTAT_short else F.VCSTAT_open) = true ∧
        t.rd u F.VCOUT_cmd = 0 ∧ t.rd u F.USTAT_state = 5 ∧ t.event u (if short then 2 else 1) = true ∧ t.mem = s.mem ∧
        (∀ m : Nat, m < 96 → s.flag (.slot m) F.SLCTRL_run = true → s.outPort m 0 = (1, n.val) → t.slState m = 4))))

/-- The steppers (R219 to R227): STCTRL in its three modes and the loader's interlock (R226), STTARGET, STPOS, STTDATA (R220) and STFOLLOW
(R224), the end of a move (R223), overcurrent (R221), standstill (R222) and the loader's limits. -/
def Obligations.Steppers : Prop :=
  ∀ (s : State) (r : Requester) (n : Fin 5) (v : Word) (on : Bool),
    let u : UnitId := .stepper n
    let only (t : State) : Prop := t = { s with regs := t.regs, ctr := t.ctr, lanes := t.lanes, port := t.port, steps := t.steps }
    let far : Int := signed 32 (s.rd u F.STTARGET_target) - signed 32 (s.rd u F.STPOS_pos)
    (s.May r u 0x40 →
      (∃ t, exec (.stepModeStop r n on) s = .next t ∧ t.rd u F.STCTRL_mode = 0 ∧ t.flag u F.STCTRL_enable = on ∧ only t ∧
        (on = false → (t.stp n).coils = false ∧ t.flag u F.STSTAT_moving = false)) ∧
      (n.val = 4 → s.loaderFree = false → ∃ t, exec (.stepModeMove r n on) s = .next t ∧ t.event u 4 = true ∧ RegsBut s t (booked u) ∧
        RegsOnly s t) ∧
      (n.val = 4 → ∃ t, exec (.stepModeGear r n on) s = .next t ∧ t.event u 4 = true ∧ RegsBut s t (booked u) ∧ RegsOnly s t) ∧
      (n.val < 4 ∨ s.loaderFree = true → s.flag u F.STSTAT_fault = false → ∃ t, exec (.stepModeMove r n true) s = .next t ∧
        t.rd u F.STCTRL_mode = 1 ∧ only t ∧ (far ≠ 0 → t.flag u F.STSTAT_moving = true ∧ (t.stp n).coils = true ∧
          (t.stp n).dir = (if 0 < far then 1 else -1)) ∧ (far = 0 → t.flag u F.STSTAT_moving = false ∧ t.event u 1 = true)) ∧
      (n.val < 4 → s.flag u F.STSTAT_fault = false → ∃ t, exec (.stepModeGear r n true) s = .next t ∧ t.rd u F.STCTRL_mode = 2 ∧ only t ∧
        (t.stp n).coils = true ∧ t.flag u F.STSTAT_moving = false)) ∧
    (s.May r u 0x4C → ∃ t, exec (.sttargetWrite r n v) s = .next t ∧ t.rd u F.STTARGET_target = v.toNat ∧ only t ∧
      t.rd u F.STPOS_pos = s.rd u F.STPOS_pos) ∧
    (s.May r u 0x48 → (s.rd u F.STCTRL_mode = 1 ∨ s.rd u F.STCTRL_mode = 2 → exec (.stposWrite r n v) s = .next s) ∧
      (s.rd u F.STCTRL_mode = 0 → ∃ t, exec (.stposWrite r n v) s = .next t ∧ t.rd u F.STPOS_pos = v.toNat ∧ (t.stp n).frac = 0 ∧ only t)) ∧
    (s.May r u 0x64 →
      (s.rd u F.STCTRL_mode = 0 → s.flag u F.STSTAT_moving = false → let i := s.rd u F.STTSEL_index
        ∃ t, exec (.sttdataWrite r n v) s = .next t ∧ t.tableEntry n i = v.toNat % 4096 ∧
          (∀ (m : Fin 5) (j : Nat), j < 256 → i < 256 → (m ≠ n ∨ j ≠ i) → t.tableEntry m j = s.tableEntry m j) ∧
          t.rd u F.STTSEL_index = (i + 1) % 256 ∧ t = { s with regs := t.regs, stepTab := t.stepTab }) ∧
      (s.rd u F.STCTRL_mode ≠ 0 ∧ s.rd u F.STCTRL_mode ≠ 3 ∨ s.flag u F.STSTAT_moving = true →
        ∃ t, exec (.sttdataWrite r n v) s = .next t ∧ t.event u 5 = true ∧ RegsBut s t (booked u) ∧ RegsOnly s t)) ∧
    (s.May r u 0x74 → (s.rd u F.STCTRL_mode ≠ 2 → exec (.stfollowWrite r n v) s = .next s) ∧
      (s.rd u F.STCTRL_mode = 2 → s.rd u F.STPOS_pos < 2 ^ 32 → (s.stp n).frac < 2 ^ 34 →
        ∃ t, exec (.stfollowWrite r n v) s = .next t ∧ only t ∧ ((t.rd u F.STPOS_pos * 2 ^ 34 + (t.stp n).frac : Nat) : Int) =
          ((s.rd u F.STPOS_pos * 2 ^ 34 + (s.stp n).frac : Nat) + signed 16 (v.toNat % 65536) * 2 ^ 26) % 2 ^ 66)) ∧
    (s.pw.clocked = true →
      (s.flag u F.STSTAT_moving = true → ∃ t, exec (.stepDone n v) s = .next t ∧ t.flag u F.STSTAT_moving = false ∧ (t.stp n).dir = 0 ∧
        (s.rd u F.STCTRL_mode = 1 → t.rd u F.STPOS_pos = s.rd u F.STTARGET_target % 2 ^ 32 ∧ t.event u 1 = true) ∧
        (s.rd u F.STCTRL_mode = 0 → t.rd u F.STPOS_pos = v.toNat ∧ t.event u 1 = s.event u 1) ∧ only t) ∧
      ((s.stp n).coils = true → ∃ t, exec (.stepOvercurrent n) s = .next t ∧ (t.stp n).coils = false ∧ t.flag u F.STSTAT_fault = true ∧
        t.flag u F.STSTAT_moving = false ∧ t.rd u F.USTAT_state = 5 ∧ t.event u 2 = true ∧ only t) ∧
      (s.flag u F.STSTAT_moving = false → ∃ t, exec (.stepStandstill n) s = .next t ∧ t.flag u F.STSTAT_still = true ∧
        (t.stp n).coils = false ∧ only t) ∧
      (∃ t, exec (.stepLimit true) s = .next t ∧ t.flag (.stepper 4) F.STSTAT_limout = true ∧ t.rd (.stepper 4) F.STPOS_pos = 0 ∧ only t ∧
        (s.flag (.stepper 4) F.STSTAT_moving = true → (s.stp 4).dir = -1 →
          t.flag (.stepper 4) F.STSTAT_moving = false ∧ t.event (.stepper 4) 3 = true)))

/-! ### The loop engine (08) -/

/-- SLOT_SAMPLE_INSTANT and SLOT_DISPATCH (R236 to R245). At a due instant the slot's conversions are triggered and its other inputs latched;
an instant before the last sample ended is counted as missed; a lane takes the first eligible slot by class and number; a frozen input
faults the slot, a held one repeats its outputs, else its program starts; a fast slot preempts a slower one, whose context is kept. Tuning
and capture (R258 to R261): each mode starts on a running slot with SLCAPCNT cleared, refuses while a mode runs, and ends at the next
sample start when mode 0 is written; the relay gives its mean period and half its peak-to-peak, the capture ends at its length. -/
def Obligations.SlotSamplesAndTuning : Prop :=
  (∀ (s : State), s.pw.clocked = true → s.flag .engine F.EBCTRL_enable = true →
    (∀ (n : Fin 96) (k : Nat) (ext : List Int) (prof : Int) (same : Bool), s.flag (.slot n) F.SLCTRL_run = true → s.isDue n k = true →
      (s.slState n = 1 → (s.slot n).due = false → ∃ t, exec (.slotSampleInstant n k ext prof same) s = .next t ∧ (t.slot n).due = true ∧
        (t.slot n).wait = s.adcPorts n ∧ (t.slot n).ns = s.time.ns ∧ (t.slot n).now = (s.slot n).now ∧ t.slState n = 1 ∧
        (∀ ch ∈ s.adcPorts n, ∃ x ∈ (Tbl.look ⟨[], false⟩ (t.hd (ch / 8)).conv (ch % 8)).slots, x.1 = n.val) ∧ t.mem = s.mem ∧
        (∀ i < 6, (s.inPort n i).1 = 7 → signed 24 (((t.slot n).ins[i]?).getD 0) = signed 24 (unsigned 24 (s.rd .spindle F.SPSPEED_speed * 16 : Nat)))) ∧
      (s.slState n ∈ [1, 2, 3] → (s.slot n).due = true → ∃ t, exec (.slotSampleInstant n k ext prof same) s = .next t ∧
        t.rd (.slot n) F.SLMISCNT_count = (s.rd (.slot n) F.SLMISCNT_count + 1) % 2 ^ 32 ∧ t.event (.slot n) 3 = true ∧ t.heads = s.heads ∧
        t.slots = s.slots ∧ t.counter 177 = (s.counter 177 + 1) % 2 ^ 48 ∧ RegsOnly s t)) ∧
    (∀ (n : Fin 96) (k : Nat) (ext : List Int) (prof : Int) (same : Bool), s.flag (.slot n) F.SLCTRL_run = false ∨ s.isDue n k = false →
      exec (.slotSampleInstant n k ext prof same) s = .next s) ∧
    (∀ (lane : Fin 4) (n : Nat) (lost : Bool), s.firstEligible lane = some n →
      s.eligible n = true ∧ s.mayRun n lane = true ∧
      (∀ k : Nat, k < 96 → s.eligible k = true → s.mayRun k lane = true → s.slClass n < s.slClass k ∨ s.slClass n = s.slClass k ∧ n ≤ k) ∧
      (s.onLane lane = none → s.slState n = 1 →
        (s.inputTags n = 0 → ∃ t, exec (.slotDispatch lane none lost) s = .next t ∧ t.slState n = 2 ∧ (t.slot n).lane = some lane.val ∧
          (t.slot n).pc = 0 ∧ (t.slot n).cpend = [] ∧ (∀ k, k ≠ n → t.slot k = s.slot k) ∧ t.mem = s.mem) ∧
        (s.inputTags n = 1 → ∃ t, exec (.slotDispatch lane none lost) s = .next t ∧ t.slState n = (if (s.slot n).stopping then 0 else 1) ∧
          t.rd (.slot n) F.SLREPCNT_count = (s.rd (.slot n) F.SLREPCNT_count + 1) % 2 ^ 32 ∧ (t.slot n).now = (s.slot n).now ∧
          (t.slot n).due = false) ∧
        (s.inputTags n = 2 → ∃ t, exec (.slotDispatch lane none lost) s = .next t ∧ t.slState n = 4 ∧ t.rd (.slot n) F.SLSTAT_cause = 2 ∧
          t.event (.slot n) 1 = true)) ∧
      (∀ m, s.onLane lane = some m → m ≠ n →
        (s.slClass n = 0 → s.slClass m ≠ 0 → s.slState n = 1 → s.inputTags n = 0 → ∃ t, exec (.slotDispatch lane none lost) s = .next t ∧
          t.slState m = 3 ∧ (t.slot m).now = (s.slot m).now ∧ (t.slot m).pc = (s.slot m).pc ∧ (t.slot m).lane = none ∧ t.slState n = 2 ∧
          (t.slot n).lane = some lane.val) ∧
        (s.slClass n ≠ 0 ∨ s.slClass m = 0 → exec (.slotDispatch lane none lost) s = .next s)))) ∧
  (∀ (s : State) (r : Requester) (n : Fin 96) (v : Word), let u : UnitId := .slot n
    (s.May r u 0x7C →
      (∀ m ∈ [(Instr.tuneRelay r n v, 1), (.tuneSine r n v, 2), (.tuneChirp r n v, 3), (.tunePrbs r n v, 4)],
        ((s.slot n).tune = none → s.slState n ∈ [1, 2, 3] → ∃ t x, exec m.1 s = .next t ∧ (t.slot n).tune = some x ∧ x.mode = m.2 ∧
          x.ending = false ∧ (t.slot n).captured = 0 ∧ t.flag u F.SLSTAT_tuning = true ∧ t.rd u F.SLTUNE_mode = m.2 ∧
          t.rd u F.SLTUNE_count = F.SLTUNE_count.of v.toNat ∧ t.rd u F.SLCAPCNT_written = 0 ∧ t.rd u F.SLCAPCNT_lost = 0 ∧
          t = { s with regs := t.regs, slots := t.slots }) ∧
        (∀ x, (s.slot n).tune = some x → ∃ t, exec m.1 s = .next t ∧ t.event u 4 = true ∧ RegsBut s t (booked u) ∧ RegsOnly s t)) ∧
      (∀ x, (s.slot n).tune = some x → ∃ t, exec (.tuneOff r n v) s = .next t ∧ (t.slot n).tune = some { x with ending := true } ∧
        t = { s with slots := t.slots }) ∧
      ((s.slot n).tune = none → ∃ t, exec (.tuneOff r n v) s = .next t ∧ t.rd u F.SLTUNE_mode = 0 ∧ t = { s with regs := t.regs })) ∧
    (s.pw.clocked = true → ∀ m, (s.slot n).tune = some m →
      (m.mode = 1 → 4096 ≤ m.since → ∃ t, exec (.slotTunedone n) s = .next t ∧ t.rd u F.SLRLYPER_period = 0 ∧ t.event u 5 = true ∧
        t.rd u F.SLTUNE_mode = 0 ∧ t.flag u F.SLSTAT_tuning = false ∧ (t.slot n).tune = none) ∧
      (m.mode = 1 → m.since < 4096 → s.rd u F.SLTUNE_count ≠ 0 → 3 + s.rd u F.SLTUNE_count ≤ m.switches →
        ∃ t, exec (.slotTunedone n) s = .next t ∧ t.event u 5 = true ∧ t.rd u F.SLTUNE_mode = 0 ∧ (t.slot n).tune = none ∧
          t.rd u F.SLRLYPER_period = 16 * (m.last - m.first) / s.rd u F.SLTUNE_count % 2 ^ 24 ∧
          t.rd u F.SLRLYAMP_amp = unsigned 24 ((m.hi - m.lo) / 2)) ∧
      (m.mode = 1 → m.since < 4096 → m.switches < 3 + s.rd u F.SLTUNE_count → exec (.slotTunedone n) s = .next s) ∧
      (s.rd u F.SLCAPLEN_len ≠ 0 → s.rd u F.SLCAPLEN_len ≤ (s.slot n).captured → ∃ t, exec (.slotCapdone n) s = .next t ∧ t.event u 6 = true ∧
        t.rd u F.SLTUNE_mode = 0 ∧ t.flag u F.SLSTAT_tuning = false ∧ (t.slot n).tune = none ∧ t.mem = s.mem)))

/-- The slots' configuration (R246, R247, R254, R255, R264 to R266) and the load window (R264, R268): a running slot refuses configuration with
SLOT_CFGBUSY; run starts a slot with its registers cleared and its state words kept, and stops one at the end of its sample. -/
def Obligations.SlotConfiguration : Prop :=
  ∀ (s : State) (r : Requester) (n : Fin 96) (v : Word), let u : UnitId := .slot n
    let busy (c : Instr) : Prop := ∃ t, exec c s = .next t ∧ t.event u 4 = true ∧ RegsBut s t (booked u) ∧ RegsOnly s t
    let slotsOnly (t : State) : Prop := (∀ k, k ≠ n.val → t.slot k = s.slot k) ∧ t = { s with regs := t.regs, slots := t.slots }
    let open_ : Bool := s.slState n == 0 || s.slState n == 4
    (s.May r u 0x40 →
      (open_ = true → s.flag u F.SLCTRL_run = false → bitOf v.toNat 0 = true → ∃ t, exec (.slotRunWrite r n v) s = .next t ∧
        t.flag u F.SLCTRL_run = true ∧ t.slState n = 1 ∧ t.rd u F.SLCTRL_class = F.SLCTRL_class.of v.toNat ∧
        t.rd u F.SLCTRL_action = F.SLCTRL_action.of v.toNat ∧ t.rd u F.SLSTAT_cause = 0 ∧ t.flag u F.SLSTAT_sat = false ∧
        (t.slot n).now.x = [] ∧ (t.slot n).now.a = [] ∧ (t.slot n).now.w = (s.slot n).now.w ∧ slotsOnly t) ∧
      (s.flag u F.SLCTRL_run = true → bitOf v.toNat 0 = false → ∃ t, exec (.slotRunWrite r n v) s = .next t ∧ t.flag u F.SLCTRL_run = false ∧
        (s.slState n = 1 → t.slState n = 0) ∧ (s.slState n = 2 ∨ s.slState n = 3 → t.slState n = s.slState n ∧ (t.slot n).stopping = true)) ∧
      (s.slState n ∈ [1, 2, 3] → ∃ t, exec (.slotRunWrite r n v) s = .next t ∧ t.event u 4 = true ∧
        t.rd u F.SLCTRL_class = s.rd u F.SLCTRL_class ∧ t.rd u F.SLCTRL_lane = s.rd u F.SLCTRL_lane)) ∧
    (∀ i : Fin 13, s.May r u (0x44 + 4 * i.val) → (open_ = false → busy (.slotConfigWrite r n i v)) ∧
      (open_ = true → bindingOk (0x44 + 4 * i.val) v.toNat = true → ∃ t, exec (.slotConfigWrite r n i v) s = .next t ∧
        (∀ f ∈ u.fieldsAt (0x44 + 4 * i.val), f.acc = .rw → t.rd u f = f.of v.toNat) ∧
        RegsBut s t ((u.fieldsAt (0x44 + 4 * i.val)).map (fieldKey u)) ∧ t = { s with regs := t.regs })) ∧
    (s.May r u 0xC4 →
      (s.flag u F.SLCSEL_batch = false → ∃ t, exec (.slcdataWrite r n v) s = .next t ∧ t.coefs = s.coefs ∧ slotsOnly t ∧
        (t.slot n).cpend = (s.slot n).cpend ++ [(s.rd u F.SLCSEL_index, v.toNat % 2 ^ 24)] ∧
        t.rd u F.SLCSEL_index = (s.rd u F.SLCSEL_index + 1) % 256) ∧
      (s.flag u F.SLCSEL_batch = true → (s.slot n).batch.length < 16 → ∃ t, exec (.slcdataWrite r n v) s = .next t ∧ slotsOnly t ∧
        (t.slot n).batch = (s.slot n).batch ++ [(s.rd u F.SLCSEL_index, v.toNat % 2 ^ 24)] ∧ (t.slot n).cpend = (s.slot n).cpend) ∧
      (s.flag u F.SLCSEL_batch = true → 16 ≤ (s.slot n).batch.length → busy (.slcdataWrite r n v))) ∧
    (s.May r u 0xC0 → ∃ t, exec (.slcselWrite r n v) s = .next t ∧ slotsOnly t ∧ t.rd u F.SLCSEL_index = v.toNat % 256 ∧
      (bitOf v.toNat 31 = false → (t.slot n).cpend = (s.slot n).cpend ++ (s.slot n).batch ∧ (t.slot n).batch = []) ∧
      (bitOf v.toNat 31 = true → t.slot n = s.slot n)) ∧
    (s.May r u 0x78 → s.rd u F.SLBANK_active < 2 →
      (open_ = true → ∃ t, exec (.slbankSwap r n) s = .next t ∧ t.rd u F.SLBANK_active = 1 - s.rd u F.SLBANK_active ∧
        RegsBut s t [fieldKey u F.SLBANK_active] ∧ t = { s with regs := t.regs }) ∧
      (open_ = false → ∃ t, exec (.slbankSwap r n) s = .next t ∧ t.flag u F.SLBANK_swap = true ∧ t.rd u F.SLBANK_active = s.rd u F.SLBANK_active ∧
        RegsBut s t [fieldKey u F.SLBANK_swap] ∧ t = { s with regs := t.regs })) ∧
    (s.May r .engine 0x58 → let i := s.rd .engine F.EBMCSEL_index
      (s.mcBusy i = true → ∃ t, exec (.ebmchiWrite r v) s = .next t ∧ t.event .engine 3 = true ∧ RegsBut s t (booked .engine) ∧ RegsOnly s t) ∧
      (s.mcBusy i = false → s.rd .engine F.EBMCLO_lo < 2 ^ 32 → ∃ t, exec (.ebmchiWrite r v) s = .next t ∧
        Tbl.look 0 t.micro i = v.toNat * 2 ^ 32 + s.rd .engine F.EBMCLO_lo ∧ (∀ j, j ≠ i → Tbl.look 0 t.micro j = Tbl.look 0 s.micro j) ∧
        t.rd .engine F.EBMCSEL_index = (i + 1) % 2 ^ 14 ∧ t = { s with regs := t.regs, micro := t.micro })) ∧
    (s.May r u 0xCC → (open_ = false → busy (.slxdataWrite r n v)) ∧
      (open_ = true → s.rd u F.SLXSEL_index < 88 → ∃ t, exec (.slxdataWrite r n v) s = .next t ∧ slotsOnly t ∧
        (t.slot n).now.word (s.rd u F.SLXSEL_index) = v.toNat % 2 ^ 24 ∧
        (∀ j < 88, j ≠ s.rd u F.SLXSEL_index → (∀ k, Tbl.look 0 (s.slot n).now.a k < 2 ^ 48) → (t.slot n).now.word j = (s.slot n).now.word j) ∧
        t.rd u F.SLXSEL_index = (s.rd u F.SLXSEL_index + 1) % 128)) ∧
    (s.pw.clocked = true → ∃ t, exec .loopLoadWindow s = .next t ∧ t.winCycles = 0 ∧
      t.rd .engine F.EBLOAD_load = s.winCycles / 16000 % 4096 ∧
      (12000000 < s.winCycles → s.flag .engine F.EBSTAT_overload = false → t.flag .engine F.EBSTAT_overload = true ∧ t.event .engine 4 = true) ∧
      (s.winCycles ≤ 12000000 → t.flag .engine F.EBSTAT_overload = s.flag .engine F.EBSTAT_overload ∧ t.ctr = s.ctr))

/-! ### The microcode (08) -/

/-- R249, R250: every instruction's word is 64 bits wide and decodes to that instruction; words with an opcode that R250 lacks decode to none
(R251). -/
def Obligations.MicrocodeWordsDecode : Prop :=
  (∀ i : Mc, mcEncode i < 2 ^ 64 ∧ mcDecode (mcEncode i) = some i) ∧
  (∀ v, mcUses (bits v 58 6) = none → mcDecode v = none) ∧
  (∀ v, bits v 24 9 ≠ 0 → mcDecode v = none)

/-- What the data instructions compute (R248, R250): each data register and accumulator result, with its saturation and the flag it sets.
Every other register, accumulator and state word of the slot, and every other slot, keeps its value. Control of the microcode (R243, R250,
R251): BR and its eight conditions, OUT, EVT, END and FAULT; the cycle limit, a coefficient index that region mode lacks, and a word that
is no instruction put the slot in fault with the causes of R251. -/
def Obligations.Microcode : Prop :=
  ((∀ v : Int, (sat24 v).1 = clampInt (-8388608) 8388607 v ∧ ((sat24 v).2 = true ↔ (sat24 v).1 ≠ v) ∧
    (sat48 v).1 = clampInt (-140737488355328) 140737488355327 v ∧ ((sat48 v).2 = true ↔ (sat48 v).1 ≠ v)) ∧
  (∀ (v : Int) (k : Nat), 0 < k → rnd v k * 2 ^ k ≤ v + 2 ^ (k - 1) ∧ v + 2 ^ (k - 1) < (rnd v k + 1) * 2 ^ k) ∧
  ∀ (s : State) (n : Fin 96) (d a b sh : Fin 16) (c : Fin 64) (d4 a4 : Fin 4) (a6 : Fin 6) (w : Fin 64) (w2 : Fin 32) (imm : Fin 16777216),
    s.pw.clocked = true →
    let X := s.mx n a
    let Y := s.mx n b
    let C := s.coef n c
    let runs (i : Mc) (cost : Nat) (q : State → Prop) : Prop :=
      s.mcRuns n i = true → s.coefBad n i = false → (s.slot n).cyc + cost < s.cycMax n →
        ∃ t, q t ∧ t.slState n = 2 ∧ (t.slot n).pc = ((s.slot n).pc + 1) % 16384 ∧ (t.slot n).cyc = (s.slot n).cyc + cost ∧
          t.winCycles = s.winCycles + cost ∧ (∀ k, k ≠ n.val → t.slot k = s.slot k) ∧ (t.slot n).last = (s.slot n).last ∧
          t = { s with regs := t.regs, ctr := t.ctr, lanes := t.lanes, port := t.port, slots := t.slots, winCycles := t.winCycles }
    let flags (t : State) (x : Int × Bool) : Prop := t.flag (.slot n) F.SLSTAT_sat = (x.2 || s.flag (.slot n) F.SLSTAT_sat)
    let toX (c : Instr) (i : Mc) (cost : Nat) (v : Int × Bool) : Prop :=
      runs i cost (fun t => exec c s = .next t ∧ t.mx n d = v.1 ∧ (∀ k : Nat, k ≠ d.val → t.mx n k = s.mx n k) ∧
        (t.slot n).now.a = (s.slot n).now.a ∧ (t.slot n).now.w = (s.slot n).now.w ∧ flags t v)
    let toA (c : Instr) (i : Mc) (cost : Nat) (v : Int × Bool) : Prop :=
      runs i cost (fun t => exec c s = .next t ∧ t.ma n d4 = v.1 ∧ (∀ k : Nat, k ≠ d4.val → t.ma n k = s.ma n k) ∧
        (t.slot n).now.x = (s.slot n).now.x ∧ (t.slot n).now.w = (s.slot n).now.w ∧ flags t v)
    toX (.mcLdi n d imm) (.ldi d imm) 1 (signed 24 imm, false) ∧ toX (.mcMov n d a) (.mov d a) 1 (X, false) ∧
    toX (.mcIn n d a6) (.input d a6) 1 (signed 24 (((s.slot n).ins[a6.val]?).getD 0), false) ∧
    toX (.mcLds n d w) (.lds d w) 2 (s.mw n w, false) ∧ toX (.mcLdc n d c) (.ldc d c) 2 (C, false) ∧
    toX (.mcAdd n d a b) (.add d a b) 1 (sat24 (X + Y)) ∧ toX (.mcSub n d a b) (.sub d a b) 1 (sat24 (X - Y)) ∧
    toX (.mcNeg n d a) (.neg d a) 1 (sat24 (-X)) ∧ toX (.mcAbs n d a) (.abs d a) 1 (sat24 (X.natAbs : Int)) ∧
    toX (.mcMin n d a b) (.min d a b) 1 (if X ≤ Y then X else Y, false) ∧ toX (.mcMax n d a b) (.max d a b) 1 (if X ≤ Y then Y else X, false) ∧
    toX (.mcClp n d a c) (.clp d a c) 2
      (let l : Int := if C = -8388608 then 8388607 else C.natAbs; if l < max X (-l) then l else max X (-l), false) ∧
    toX (.mcShl n d a sh) (.shl d a sh) 1 (sat24 (X * 2 ^ sh.val)) ∧ toX (.mcShr n d a sh) (.shr d a sh) 1 (rnd X sh, false) ∧
    toX (.mcMul n d a b sh) (.mul d a b sh) 2 (sat24 (rnd (X * Y) (23 - sh))) ∧
    (Y ≠ 0 → toX (.mcDiv n d a b) (.div d a b) 12 (sat24 (Int.tdiv (X * 2 ^ 23) Y))) ∧
    (Y = 0 → toX (.mcDiv n d a b) (.div d a b) 12
      (if 0 < X then (8388607, true) else if X < 0 then (-8388608, true) else (0, false))) ∧
    toX (.mcRnd n d a4 sh) (.rnd d a4 sh) 1 (sat24 (rnd (s.ma n a4 * 2 ^ sh.val) 23)) ∧
    toX (.mcFf n d) (.ff d) 1 (sat24 (s.slot n).ff) ∧ toX (.mcInj n d) (.inj d) 1 (sat24 (s.injValue n)) ∧
    toA (.mcLda n d4 a) (.lda d4 a) 1 (X * 2 ^ 23, false) ∧
    toA (.mcLdsa n d4 w2) (.ldsa d4 w2) 2
      (signed 48 (unsigned 24 (s.mw n (2 * w2 + 1)) * 2 ^ 24 + unsigned 24 (s.mw n (2 * w2))), false) ∧
    toA (.mcClr n d4) (.clr d4) 1 (0, false) ∧ toA (.mcMac n d4 a c) (.mac d4 a c) 1 (sat48 (s.ma n d4 + X * C)) ∧
    toA (.mcMsu n d4 a c) (.msu d4 a c) 1 (sat48 (s.ma n d4 - X * C)) ∧ toA (.mcMacx n d4 a b) (.macx d4 a b) 1 (sat48 (s.ma n d4 + X * Y)) ∧
    toA (.mcAdda n d4 a4) (.adda d4 a4) 1 (sat48 (s.ma n d4 + s.ma n a4)) ∧
    runs (.sts w a) 1 (fun t => exec (.mcSts n w a) s = .next t ∧ t.mw n w = X ∧ (∀ k : Nat, k ≠ w.val → t.mw n k = s.mw n k) ∧
      (t.slot n).now.x = (s.slot n).now.x ∧ (t.slot n).now.a = (s.slot n).now.a) ∧
    runs (.stsa w2 a4) 2 (fun t => exec (.mcStsa n w2 a4) s = .next t ∧ t.mw n (2 * w2) = signed 24 (unsigned 48 (s.ma n a4) % 2 ^ 24) ∧
      t.mw n (2 * w2 + 1) = signed 24 (unsigned 48 (s.ma n a4) / 2 ^ 24) ∧
      (∀ k : Nat, k ≠ 2 * w2.val → k ≠ 2 * w2.val + 1 → t.mw n k = s.mw n k) ∧ (t.slot n).now.x = (s.slot n).now.x ∧
      (t.slot n).now.a = (s.slot n).now.a) ∧
    runs .nop 1 (fun t => exec (.mcNop n) s = .next t ∧ (t.slot n).now = (s.slot n).now)) ∧
  (∀ (s : State) (n : Fin 96) (a : Fin 16) (x : Fin 8), s.pw.clocked = true →
    let X := s.mx n a
    let ends (c : Instr) (cause : Nat) : Prop := ∃ t, exec c s = .next t ∧ t.slState n = 4 ∧ t.rd (.slot n) F.SLSTAT_cause = cause ∧
      t.rd (.slot n) F.USTAT_state = 5 ∧ t.event (.slot n) 1 = true ∧ (t.slot n).due = false ∧ (t.slot n).lane = none
    let taken : Bool := match x.val with
      | 0 => true | 1 => X == 0 | 2 => X != 0 | 3 => decide (X < 0) | 4 => decide (0 ≤ X) | 5 => decide (0 < X)
      | 6 => s.flag (.slot n) F.SLSTAT_sat | _ => (s.slot n).tune.isSome
    (∀ dest : Fin 16384, s.mcRuns n (.br dest x a) = true → (s.slot n).cyc + 2 < s.cycMax n →
      ∃ t, exec (.mcBr n dest x a) s = .next t ∧ (t.slot n).pc = (if taken then dest.val else ((s.slot n).pc + 1) % 16384) ∧
        (t.slot n).cyc = (s.slot n).cyc + (if taken then 2 else 1) ∧ (t.slot n).now = (s.slot n).now ∧ t.slState n = 2) ∧
    (∀ d : Fin 2, s.mcRuns n (.out d a) = true → (s.slot n).cyc + 1 < s.cycMax n → (s.slot n).tune = none →
      ∃ t, exec (.mcOut n d a) s = .next t ∧ t.lastOut n d = X ∧ (t.slot n).now = (s.slot n).now ∧ t.slState n = 2 ∧ t.mem = s.mem ∧
        ((s.outPort n d).1 = 4 → t.rd .spindle F.SPTCMD_torque = unsigned 24 X / 256) ∧
        (∀ v, s.outPort n d = (1, v) → s.flag (.vcm v) F.VCCTRL_enable = false → t.rd (.vcm v) F.VCOUT_cmd = s.rd (.vcm v) F.VCOUT_cmd)) ∧
    (∀ e : Fin 4, s.mcRuns n (.evt e) = true → (s.slot n).cyc + 1 < s.cycMax n →
      ∃ t, exec (.mcEvt n e) s = .next t ∧ t.event (.slot n) (8 + e.val) = true ∧ (t.slot n).now = (s.slot n).now ∧ t.slState n = 2) ∧
    (s.mcRuns n .stop = true → (s.slot n).cyc + 1 ≤ s.cycMax n → (s.slot n).stopping = false →
      ∃ t, exec (.mcEnd n) s = .next t ∧ t.slState n = 1 ∧ (t.slot n).due = false ∧ (t.slot n).lane = none ∧
        (t.slot n).last = (s.slot n).now ∧ t.counter 175 = (s.counter 175 + 1) % 2 ^ 48 ∧
        t.rd (.slot n) F.SLMAXCYC_max = max (s.rd (.slot n) F.SLMAXCYC_max) ((s.slot n).cyc + 1) % 2 ^ F.SLMAXCYC_max.w) ∧
    (s.mcRuns n .fault = true → (s.slot n).cyc + 1 ≤ s.cycMax n → ends (.mcFault n) 1) ∧
    (s.mcRuns n .fault = true → s.cycMax n < (s.slot n).cyc + 1 → ends (.mcFault n) 4) ∧
    (s.mcRuns n .nop = true → s.cycMax n ≤ (s.slot n).cyc + 1 → ends (.mcNop n) 4) ∧
    (∀ (d : Fin 16) (c : Fin 64), s.mcRuns n (.ldc d c) = true → s.flag (.slot n) F.SLCTRL_cmode = false → 16 ≤ c.val → ends (.mcLdc n d c) 3) ∧
    (s.slState n = 2 → mcDecode (s.mcAt n) = none → ends (.mcIllegalInstruction n) 3) ∧
    (s.slState n ≠ 2 → exec (.mcNop n) s = .next s ∧ exec (.mcEnd n) s = .next s ∧ exec (.mcIllegalInstruction n) s = .next s))

/-! ### The Fleran cores (09) -/

/-- R280 to R293: every instruction with operands its encoding admits is the one its word decodes to, and a word that decodes to an
instruction is that instruction's word. -/
def Obligations.FleranWordsDecode : Prop :=
  (∀ i : FInstr, i.wf = true → flerEncode i < 2 ^ 32 ∧ flerDecode (flerEncode i) = some i) ∧
  (∀ (w : Nat) (i : FInstr), w < 2 ^ 32 → flerDecode w = some i → i.wf = true ∧ flerEncode i = w)

/-- Words written out from the spec: the worked example of R294 and one microcode word from the table of R249. -/
def Obligations.WordsDecode : Prop :=
  flerDecode 0x698A0000 = some (.store .sw 12 10 0) ∧ flerDecode 0x69AA0004 = some (.store .sw 13 10 4) ∧
  flerDecode 0x680A001C = some (.store .sw 0 10 28) ∧ flerDecode 0xE16A0002 = some (.post 11 10 2) ∧
  flerDecode 0x8560000F = some (.branch .bne 11 0 15) ∧ flerDecode 0xF2400000 = some (.stamp 18) ∧
  flerDecode 0xF2600000 = none ∧ flerDecode 0x00000006 = none ∧
  mcDecode (0x19 * 2 ^ 58 + 3 * 2 ^ 54 + 1 * 2 ^ 50 + 2 * 2 ^ 46 + 4 * 2 ^ 36) = some (.mul 3 1 2 4) ∧
  mcDecode (0x19 * 2 ^ 58 + 3 * 2 ^ 54 + 1 * 2 ^ 50 + 2 * 2 ^ 46 + 5 * 2 ^ 40) = none ∧ mcDecode (0x03 * 2 ^ 58 + 6 * 2 ^ 50) = none

/-- Register and immediate operations, moves and RDC, WRC and STAMP (R271, R272, R282, R283, R286, R292): what rd receives; g0 stays zero;
every other register, every other core and, with sampling off, memory keep their contents, and pc goes on by 4. -/
def Obligations.FleranArithmetic : Prop :=
  (∀ a, a < 2 ^ 32 → a ≠ 0 → 2 ^ (31 - leadZeros a) ≤ a ∧ a < 2 ^ (32 - leadZeros a)) ∧ leadZeros 0 = 32 ∧ popCount 0 = 0 ∧
  (∀ a (b : Bool), a < 2 ^ 31 → popCount (2 * a + b2n b) = popCount a + b2n b) ∧
  ∀ (s : State) (c : Fin 9) (x : Pipe) (rd ra rb : Fin 32) (v : BitVec 16) (k : Fin 16) (t : State) (w src : Nat) (re : Bool),
    s.coreRuns c = true → s.fetchAt c x.err (s.core c).pc = .word t w src re →
    let A := s.greg c ra
    let B := s.greg c rb
    let pc := (s.core c).pc
    let imm := unsigned 32 (signed 16 v.toNat)
    let does (i : Instr) (f : FInstr) (regs : State → Prop) : Prop := flerDecode w = some f →
      ∃ u, exec i s = .next u ∧ regs u ∧ (u.core c).pc = (pc + 4) % 2 ^ 32 ∧ (u.core c).depth = (s.core c).depth ∧
        (∀ d, d ≠ c.val → u.core d = s.core d) ∧ (s.flag (coreUnit c) F.CSMPCTL_enable = false → u.mem = s.mem)
    let same (u : State) : Prop := ∀ n, u.greg c n = s.greg c n
    let gives (i : Instr) (f : FInstr) (y : Nat) : Prop := does i f (fun u =>
      (rd ≠ 0 → u.greg c rd = y % 2 ^ 32) ∧ u.greg c 0 = 0 ∧ ∀ n : Nat, n ≠ rd.val → u.greg c n = s.greg c n)
    gives (.add c x rd ra rb) (.alu .add rd ra rb) (A + B) ∧ gives (.sub c x rd ra rb) (.alu .sub rd ra rb) (A + 2 ^ 32 - B) ∧
    gives (.and c x rd ra rb) (.alu .and rd ra rb) (A &&& B) ∧ gives (.or c x rd ra rb) (.alu .or rd ra rb) (A ||| B) ∧
    gives (.xor c x rd ra rb) (.alu .xor rd ra rb) (A ^^^ B) ∧ gives (.andn c x rd ra rb) (.alu .andn rd ra rb) (A &&& (B ^^^ 0xFFFFFFFF)) ∧
    gives (.sll c x rd ra rb) (.alu .sll rd ra rb) (A * 2 ^ (B % 32)) ∧ gives (.srl c x rd ra rb) (.alu .srl rd ra rb) (A / 2 ^ (B % 32)) ∧
    gives (.sra c x rd ra rb) (.alu .sra rd ra rb) (unsigned 32 (signed 32 A / (2 ^ (B % 32) : Nat))) ∧
    gives (.clt c x rd ra rb) (.alu .clt rd ra rb) (if signed 32 A < signed 32 B then 1 else 0) ∧
    gives (.cltu c x rd ra rb) (.alu .cltu rd ra rb) (if A < B then 1 else 0) ∧
    gives (.mul c x rd ra rb) (.alu .mul rd ra rb) (A * B) ∧
    gives (.mulh c x rd ra rb) (.alu .mulh rd ra rb) (unsigned 32 (signed 32 A * signed 32 B / (2 ^ 32 : Nat))) ∧
    gives (.mulhu c x rd ra rb) (.alu .mulhu rd ra rb) (A * B / 2 ^ 32) ∧
    gives (.div c x rd ra rb) (.alu .div rd ra rb) (if B = 0 then 0xFFFFFFFF else unsigned 32 (Int.tdiv (signed 32 A) (signed 32 B))) ∧
    gives (.divu c x rd ra rb) (.alu .divu rd ra rb) (if B = 0 then 0xFFFFFFFF else A / B) ∧
    gives (.rem c x rd ra rb) (.alu .rem rd ra rb) (if B = 0 then A else unsigned 32 (Int.tmod (signed 32 A) (signed 32 B))) ∧
    gives (.remu c x rd ra rb) (.alu .remu rd ra rb) (if B = 0 then A else A % B) ∧
    gives (.clz c x rd ra) (.alu .clz rd ra 0) (leadZeros A) ∧ gives (.popc c x rd ra) (.alu .popc rd ra 0) (popCount A) ∧
    gives (.bswap c x rd ra) (.alu .bswap rd ra 0) (A % 256 * 2 ^ 24 + A / 2 ^ 8 % 256 * 2 ^ 16 + A / 2 ^ 16 % 256 * 2 ^ 8 + A / 2 ^ 24 % 256) ∧
    gives (.addi c x rd ra v) (.imm .addi rd ra v) (A + imm) ∧ gives (.andi c x rd ra v) (.imm .andi rd ra v) (A &&& v.toNat) ∧
    gives (.ori c x rd ra v) (.imm .ori rd ra v) (A ||| v.toNat) ∧ gives (.xori c x rd ra v) (.imm .xori rd ra v) (A ^^^ v.toNat) ∧
    gives (.clti c x rd ra v) (.imm .clti rd ra v) (if signed 32 A < signed 16 v.toNat then 1 else 0) ∧
    gives (.cltiu c x rd ra v) (.imm .cltiu rd ra v) (if A < imm then 1 else 0) ∧
    (∀ n : Fin 32, gives (.shi c x 0 rd ra n) (.shi 0 rd ra n) (A * 2 ^ n.val) ∧ gives (.shi c x 1 rd ra n) (.shi 1 rd ra n) (A / 2 ^ n.val) ∧
      gives (.shi c x 2 rd ra n) (.shi 2 rd ra n) (unsigned 32 (signed 32 A / (2 ^ n.val : Nat)))) ∧
    gives (.ldhi c x rd v) (.ldhi rd v) (v.toNat * 2 ^ 16) ∧ gives (.addpch c x rd v) (.addpch rd v) (pc + v.toNat * 2 ^ 16) ∧
    does (.pref c x ra v) (.pref ra v) same ∧ gives (.rdc c x rd k) (.rdc rd k) (t.creg c k) ∧
    does (.wrc c x ra k) (.wrc ra k) (fun u => same u ∧ (cregMask k ≠ 0 → Tbl.look 0 (u.core c).ctl k = A &&& cregMask k) ∧
      (k = 0 → (u.core c).ien = bitOf A 0) ∧ (k ∈ [(10 : Fin 16), 11, 15] → (u.core c).ctl = (s.core c).ctl)) ∧
    (flerDecode w = some (.stamp rd) → rd.val ≠ 0 → rd.val < 31 → ∃ u, exec (.stamp c x rd) s = .next u ∧
      u.greg c rd = s.time.ns % 2 ^ 32 ∧ u.greg c (rd.val + 1) = s.time.ns / 2 ^ 32 % 2 ^ 32 ∧
      (∀ n : Nat, n ≠ rd.val → n ≠ rd.val + 1 → u.greg c n = s.greg c n) ∧ (u.core c).pc = (pc + 4) % 2 ^ 32)

/-- Loads, stores and atomics (R284, R295): a load gives rd the value its place holds, extended as the load says; a store to local SRAM changes
its bytes and no other; an atomic leaves the old word in rd and the new one in memory; a misaligned access traps with code 6, an access
fault with code 7 or 8 and the address. -/
def Obligations.FleranMemory : Prop :=
  ∀ (s : State) (c : Fin 9) (x : Pipe) (rd ra rb : Fin 32) (v : BitVec 16) (t : State) (w src : Nat) (re : Bool),
    s.coreRuns c = true → s.fetchAt c x.err (s.core c).pc = .word t w src re → s.flag (coreUnit c) F.CSMPCTL_enable = false →
    (s.core c).depth < 2 →
    let pc := (s.core c).pc
    let a := (s.greg c ra + unsigned 32 (signed 16 v.toNat)) % 2 ^ 32
    let next (u : State) : Prop := (u.core c).pc = (pc + 4) % 2 ^ 32 ∧ (u.core c).depth = (s.core c).depth
    let traps (u : State) (code val : Nat) : Prop := (u.core c).depth = (s.core c).depth + 1 ∧ (u.core c).ien = false ∧
      Tbl.look 0 (u.core c).ctl (1 + 3 * (s.core c).depth) = pc % 2 ^ 32 ∧ Tbl.look 0 (u.core c).ctl (3 + 3 * (s.core c).depth) = val % 2 ^ 32 ∧
      Tbl.look 0 (u.core c).ctl (2 + 3 * (s.core c).depth) = b2n (s.core c).ien * 512 + code ∧ (∀ n, u.greg c n = s.greg c n)
    (∀ (b n : Nat), t.place c a = .own b → t.badWord c b = false → x.err ≠ .sram →
      t.loadMem c x.err a n false = .value t (t.readLE b n) 5 false) ∧
    (∀ m ∈ [(Instr.lb c x rd ra v, LoadOp.lb, 1, true), (.lbu c x rd ra v, .lbu, 1, false), (.lh c x rd ra v, .lh, 2, true),
        (.lhu c x rd ra v, .lhu, 2, false), (.lw c x rd ra v, .lw, 4, false), (.lwu c x rd ra v, .lwu, 4, false)],
      flerDecode w = some (.load m.2.1 rd ra v) →
      (∀ t' y k e, a % m.2.2.1 = 0 → t.loadMem c x.err a m.2.2.1 (m.2.1 == .lwu) = .value t' y k e → ∃ u, exec m.1 s = .next u ∧ next u ∧
        u.mem = t'.mem ∧ (∀ n : Nat, n ≠ rd.val → u.greg c n = t'.greg c n) ∧
        (rd ≠ 0 → u.greg c rd = (if m.2.2.2 then unsigned 32 (signed (8 * m.2.2.1) y) else y % 256 ^ m.2.2.1) % 2 ^ 32)) ∧
      (a % m.2.2.1 ≠ 0 → ∃ u, exec m.1 s = .next u ∧ traps u 6 a) ∧
      (a % m.2.2.1 = 0 → t.place c a = .none → ∃ u, exec m.1 s = .next u ∧ traps u 7 a)) ∧
    (∀ m ∈ [(Instr.sb c x rb ra v, StoreOp.sb, 1), (.sh c x rb ra v, .sh, 2), (.sw c x rb ra v, .sw, 4)],
      flerDecode w = some (.store m.2.1 rb ra v) →
      (∀ b, a % m.2.2 = 0 → t.place c a = .own b → ∃ u, exec m.1 s = .next u ∧ next u ∧ (∀ n, u.greg c n = s.greg c n) ∧
        u.readLE b m.2.2 = s.greg c rb % 256 ^ m.2.2 ∧ (∀ y, y < b ∨ b + m.2.2 ≤ y → u.byte y = t.byte y)) ∧
      (∀ b, a % m.2.2 = 0 → t.place c a = .cached b false → ∃ u, exec m.1 s = .next u ∧ traps u 8 a ∧ ∀ y, u.byte y = t.byte y) ∧
      (a % m.2.2 ≠ 0 → ∃ u, exec m.1 s = .next u ∧ traps u 6 a)) ∧
    (∀ m ∈ [(Instr.swap c x rd ra rb, AmoOp.swap), (.amoadd c x rd ra rb, .amoadd), (.amoand c x rd ra rb, .amoand),
        (.amoor c x rd ra rb, .amoor), (.cas c x rd ra rb, .cas)], flerDecode w = some (.amo m.2 rd ra rb) →
      let y := s.greg c ra
      let B := s.greg c rb
      (∀ b, y % 4 = 0 → t.place c y = .own b → t.badWord c b = false → x.err ≠ .sram →
        let old := t.readLE b 4
        let new := match m.2 with
          | .swap => B | .amoadd => (old + B) % 2 ^ 32 | .amoand => old &&& B | .amoor => old ||| B
          | .cas => if old = s.greg c rd then B else old
        ∃ u, exec m.1 s = .next u ∧ next u ∧ (rd ≠ 0 → u.greg c rd = old % 2 ^ 32) ∧ (∀ n : Nat, n ≠ rd.val → u.greg c n = s.greg c n) ∧
          u.readLE b 4 = new % 2 ^ 32 ∧ (∀ z, z < b ∨ b + 4 ≤ z → u.byte z = t.byte z)) ∧
      (y % 4 ≠ 0 → ∃ u, exec m.1 s = .next u ∧ traps u 6 y) ∧
      (∀ o, y % 4 = 0 → t.place c y = .window o → ∃ u, exec m.1 s = .next u ∧ traps u 8 y))

/-- Branches, jumps, traps and system instructions (R285, R286, R295 to R297, R305). -/
def Obligations.FleranControl : Prop :=
  ∀ (s : State) (c : Fin 9) (x : Pipe) (rd ra rb : Fin 32) (v : BitVec 16) (j : BitVec 26) (t : State) (w src : Nat) (re : Bool),
    s.coreRuns c = true → s.fetchAt c x.err (s.core c).pc = .word t w src re →
    let A := s.greg c ra
    let B := s.greg c rb
    let pc := (s.core c).pc
    let d := (s.core c).depth
    let goes (i : Instr) (dest : Nat) : Prop := ∃ u, exec i s = .next u ∧ (u.core c).pc = dest ∧ (∀ n, u.greg c n = s.greg c n) ∧ (u.core c).depth = d
    let link (i : Instr) (r : Fin 32) (dest : Nat) : Prop := ∃ u, exec i s = .next u ∧ (u.core c).pc = dest ∧
      (r ≠ 0 → u.greg c r = (pc + 4) % 2 ^ 32) ∧ (∀ n : Nat, n ≠ r.val → u.greg c n = s.greg c n)
    let rel (n : Nat) (o : Nat) : Nat := unsigned 32 ((pc : Int) + 4 * signed n o)
    let traps (i : Instr) (code val ret cls : Nat) : Prop :=
      (d < 2 → ∃ u, exec i s = .next u ∧ (u.core c).depth = d + 1 ∧ (u.core c).ien = false ∧
        (u.core c).pc = (Tbl.look 0 (s.core c).ctl 7 + 0x100 * d + 0x40 * cls) % 2 ^ 32 ∧ Tbl.look 0 (u.core c).ctl (1 + 3 * d) = ret % 2 ^ 32 ∧
        Tbl.look 0 (u.core c).ctl (2 + 3 * d) = b2n (s.core c).ien * 512 + code ∧ Tbl.look 0 (u.core c).ctl (3 + 3 * d) = val % 2 ^ 32 ∧
        u.rd (coreUnit c) F.CSTAT_lastcause = code % 2 ^ F.CSTAT_lastcause.w ∧ (∀ n, u.greg c n = s.greg c n)) ∧
      (2 ≤ d → ∃ u, exec i s = .next u ∧ u.flag (coreUnit c) F.CSTAT_doublefault = true ∧ u.rd (coreUnit c) F.USTAT_state = 5 ∧
        u.event (coreUnit c) 1 = true ∧ (u.core c).pc = pc ∧ (u.core c).depth = d ∧ (u.core c).ctl = (s.core c).ctl)
    (∀ m ∈ [(Instr.beq c x ra rb v, BrOp.beq, decide (A = B)), (.bne c x ra rb v, .bne, decide (A ≠ B)),
        (.blt c x ra rb v, .blt, decide (signed 32 A < signed 32 B)), (.bge c x ra rb v, .bge, decide (signed 32 B ≤ signed 32 A)),
        (.bltu c x ra rb v, .bltu, decide (A < B)), (.bgeu c x ra rb v, .bgeu, decide (B ≤ A))],
      flerDecode w = some (.branch m.2.1 ra rb v) → goes m.1 (if m.2.2 then rel 16 v.toNat else (pc + 4) % 2 ^ 32)) ∧
    (flerDecode w = some (.j j) → goes (.j c x j) (rel 26 j.toNat)) ∧
    (flerDecode w = some (.jal j) → link (.jal c x j) 31 (rel 26 j.toNat)) ∧
    (flerDecode w = some (.jalr rd ra v) → link (.jalr c x rd ra v) rd ((A + unsigned 32 (signed 16 v.toNat)) % 2 ^ 32 / 4 * 4)) ∧
    (flerDecode w = some (.trap v) → traps (.trap c x v) 5 v.toNat (pc + 4) 1) ∧
    (flerDecode w = some .tret → (d = 0 → traps (.tret c x) 3 (flerEncode .tret) pc 0) ∧
      (0 < d → ∃ u, exec (.tret c x) s = .next u ∧ (u.core c).depth = d - 1 ∧
        (u.core c).pc = Tbl.look 0 (s.core c).ctl (1 + 3 * (d - 1)) / 4 * 4 ∧
        (u.core c).ien = bitOf (Tbl.look 0 (s.core c).ctl (2 + 3 * (d - 1))) 9 ∧ (∀ n, u.greg c n = s.greg c n))) ∧
    (flerDecode w = none → traps (.illegalInstruction c x) 3 w pc 0) ∧
    (flerDecode w = some (.inv 1) → x.wrong = [] → ∃ u, exec (.inv c x 1) s = .next u ∧ (u.core c).l1d = [] ∧ (u.core c).side = [] ∧
      (u.core c).l1i = (t.core c).l1i ∧ (u.core c).pc = (pc + 4) % 2 ^ 32) ∧
    (flerDecode w = some (.inv 0) → x.wrong = [] → ∃ u, exec (.inv c x 0) s = .next u ∧ (u.core c).l1i = [] ∧ (u.core c).side = [] ∧
      (u.core c).l1d = (t.core c).l1d) ∧
    (flerDecode w = some (.inv 2) → (c.val = 8 → ∃ u, exec (.inv c x 2) s = .next u ∧ u.l2 = ⟨[], []⟩ ∧ (u.core c).pc = (pc + 4) % 2 ^ 32) ∧
      (c.val ≠ 8 → traps (.inv c x 2) 4 (flerEncode (.inv 2)) pc 0)) ∧
    (flerDecode w = some .halt → ∃ u, exec (.halt c x) s = .next u ∧ u.flag (coreUnit c) F.CSTAT_halted = true ∧
      u.rd (coreUnit c) F.USTAT_state = 4 ∧ u.event (coreUnit c) 2 = true ∧ u.coreRuns c = false ∧ (u.core c).pc = (pc + 4) % 2 ^ 32)

/-- The verbs that touch the engines, the host queues and the events (R287 to R293), waits and their ends (R291, R293), interrupts (R297) and
fetch faults (R295). -/
def Obligations.FleranVerbs : Prop :=
  ∀ (s : State) (c : Fin 9) (x : Pipe) (rd ra rb : Fin 32) (cycles : Nat),
    let pc := (s.core c).pc
    let A := s.greg c ra
    let gets (i : Instr) (n : Nat) : Prop := ∃ u, exec i s = .next u ∧ (rd ≠ 0 → u.greg c rd = n) ∧ (∀ k : Nat, k ≠ rd.val → u.greg c k = s.greg c k) ∧
      (u.core c).pc = (pc + 4) % 2 ^ 32
    (∀ (t : State) (w src : Nat) (re : Bool), s.coreRuns c = true → s.fetchAt c x.err pc = .word t w src re →
      (∀ q : BitVec 11, flerDecode w = some (.post rd ra q) →
        (8 ≤ q.toNat → gets (.post c x rd ra q) 2) ∧
        (∀ (t' : State) (l : List Nat), q.toNat < 8 → A % (4 * postWords q.toNat) = 0 →
          State.loadWords c x.err (postWords q.toNat) A t = (t', l, none) →
          (t'.postQueue (coreReq c) q.toNat l = none → gets (.post c x rd ra q) 1) ∧
          (∀ z, t'.postQueue (coreReq c) q.toNat l = some z → gets (.post c x rd ra q) 0 ∧
            (q.toNat = 3 → ∃ u, exec (.post c x rd ra q) s = .next u ∧ u.tb.dataQ = s.tb.dataQ ++ [trayDesc true false (coreReq c) l])))) ∧
      (∀ q : Fin 128, flerDecode w = some (.take rd ra q) → A % 64 = 0 →
        (t.mayTake c q = false → gets (.take c x rd ra q) 2) ∧
        (t.mayTake c q = true → t.waitingOn q = [] → gets (.take c x rd ra q) 1) ∧
        (∀ slot rest k t', t.mayTake c q = true → t.waitingOn q = slot :: rest → t.cmd slot = some k →
          State.storeWords c pc (wordsOf (k.entry slot) 16) A t = some t' → (∀ n, t'.greg c n = s.greg c n) → gets (.take c x rd ra q) 0 ∧
          ∃ u, exec (.take c x rd ra q) s = .next u ∧ u.waitingOn q = rest ∧ u.cmd slot = some { k with stage := .taken })) ∧
      (∀ q : Fin 128, flerDecode w = some (.give rd ra q) → A % 32 = 0 →
        (t.mayTake c q = false → gets (.give c x rd ra q) 2) ∧
        (∀ (t' : State) (l : List Nat), t.mayTake c q = true → State.loadWords c x.err 8 A t = (t', l, none) →
          (64 ≤ (t'.hc.recs.filter (fun z => z.queue == q.val)).length → gets (.give c x rd ra q) 1) ∧
          ((t'.hc.recs.filter (fun z => z.queue == q.val)).length < 64 → gets (.give c x rd ra q) 0))) ∧
      (∀ n : Fin 8, flerDecode w = some (.raise n) → ∃ u, exec (.raise c x n) s = .next u ∧ u.event (coreUnit c) (8 + n.val) = true ∧
        (∀ k, u.greg c k = s.greg c k) ∧ (u.core c).pc = (pc + 4) % 2 ^ 32) ∧
      (flerDecode w = some .fence → ∃ u, exec (.fence c x) s = .next u ∧ (∀ k, u.greg c k = s.greg c k) ∧ (u.core c).pc = (pc + 4) % 2 ^ 32) ∧
      (∀ kind : Fin 3, flerDecode w = some (.wait rd ra rb kind) →
        (t.waitHolds c ⟨kind.val, A, s.greg c rb, rd.val⟩ = true → gets (.wait c x rd ra rb kind) 0) ∧
        (t.waitHolds c ⟨kind.val, A, s.greg c rb, rd.val⟩ = false → ∃ u, exec (.wait c x rd ra rb kind) s = .next u ∧
          (u.core c).wait = some ⟨kind.val, A, s.greg c rb, rd.val⟩ ∧ u.coreRuns c = false ∧ (u.core c).pc = (pc + 4) % 2 ^ 32)) ∧
      (flerDecode w = some (.yield ra) → ∃ u, exec (.yield c x ra) s = .next u ∧ (u.core c).wait = some ⟨3, max 1 A, 0, 0⟩ ∧
        u.coreRuns c = false ∧ (u.core c).pc = (pc + 4) % 2 ^ 32)) ∧
    (∀ y : CWait, (s.core c).wait = some y → s.coreOn c = true →
      let ended (u : State) (n : Nat) : Prop := (u.core c).wait = none ∧ (y.rd ≠ 0 → u.greg c y.rd = n) ∧
        (∀ k, k ≠ y.rd → u.greg c k = s.greg c k) ∧ (u.core c).pc = pc ∧ u.mem = s.mem
      (y.kind ≤ 2 → s.waitHolds c y = true → ∃ u, exec (.waitWake c cycles) s = .next u ∧ ended u 0) ∧
      (y.kind ≤ 2 → s.waitHolds c y = false → s.creg c 12 ≠ 0 → s.creg c 12 ≤ cycles → ∃ u, exec (.waitTimeout c cycles) s = .next u ∧ ended u 1) ∧
      (y.kind = 3 → y.a ≤ cycles → ∃ u, exec (.yieldEnd c cycles) s = .next u ∧ (u.core c).wait = none ∧ (∀ k, u.greg c k = s.greg c k))) ∧
    (s.coreOn c = true → (s.core c).ien = true → (s.core c).depth < 2 → s.pendFor c &&& (s.creg c 9 * 2 ^ 32 + s.creg c 8) ≠ 0 →
      (∀ y, (s.core c).wait = some y → y.kind ≤ 3) → let d := (s.core c).depth
      ∃ u, exec (.interrupt c cycles) s = .next u ∧ (u.core c).depth = d + 1 ∧ (u.core c).ien = false ∧ (u.core c).wait = none ∧
        Tbl.look 0 (u.core c).ctl (1 + 3 * d) = pc % 2 ^ 32 ∧ Tbl.look 0 (u.core c).ctl (2 + 3 * d) = 512 + 256 + 16 ∧
        (u.core c).pc = (Tbl.look 0 (s.core c).ctl 7 + 0x100 * d + 0x80) % 2 ^ 32 ∧
        (∀ y, (s.core c).wait = some y → y.kind ≤ 2 → y.rd ≠ 0 → u.greg c y.rd = 2)) ∧
    (s.coreRuns c = true → s.place c pc = .none → (s.core c).depth < 2 → let d := (s.core c).depth
      ∃ u, exec (.instructionFetchFault c x false) s = .next u ∧ (u.core c).depth = d + 1 ∧ Tbl.look 0 (u.core c).ctl (1 + 3 * d) = pc % 2 ^ 32 ∧
        Tbl.look 0 (u.core c).ctl (2 + 3 * d) = b2n (s.core c).ien * 512 + 1 ∧ Tbl.look 0 (u.core c).ctl (3 + 3 * d) = pc % 2 ^ 32)

/-- Core control (R308, R311 to R313, R323): a start puts a ready core at KCSTART; reset empties caches, predictor, trap frames and waits and
leaves the core unstarted; hold only stops it; enabling sampling seeds its LFSR and clears its counts; a heartbeat fault raises
KEEP_JOBRESTART and restarts the core, the third in 60 s leaves it stopped. -/
def Obligations.CoreControl : Prop :=
  ∀ (s : State) (r : Requester) (n : Fin 8) (v : Word), let u : UnitId := .core n
    let kc : UnitId := .keeper
    (s.May r kc (0x100 + 0x40 * n.val) →
      (∀ i ∈ [Instr.coreReset r n v, .coreHold r n v, .coreRun r n v],
        (bitOf v.toNat 1 = true → ∃ t, exec i s = .next t ∧ t.rd u F.USTAT_state = 0 ∧ t.flag kc (F.kc n F.KCCTRL_run) = false ∧
          t.flag kc (F.kc n F.KCCTRL_hold) = false ∧ (t.core n).l1i = [] ∧ (t.core n).l1d = [] ∧ (t.core n).side = [] ∧ (t.core n).bht = [] ∧
          (t.core n).btb = [] ∧ (t.core n).depth = 0 ∧ (t.core n).wait = none ∧ (t.core n).badWords = (s.core n).badWords ∧
          t.coreRuns n = false ∧ (∀ d, d ≠ n.val → t.core d = s.core d)) ∧
        (bitOf v.toNat 1 = false → bitOf v.toNat 0 = true → s.flag kc (F.kc n F.KCCTRL_run) = false → s.rd u F.USTAT_state ∉ [3, 4, 5] →
          ∃ t, exec i s = .next t ∧ t.rd u F.USTAT_state = 3 ∧ t.flag kc (F.kc n F.KCCTRL_run) = true ∧
            (t.core n).pc = s.rd kc (F.kc n F.KCSTART_start) * 4 ∧ (∀ k, t.greg n k = s.greg n k) ∧ t.mem = s.mem ∧
            t.flag kc (F.kc n F.KCCTRL_hold) = bitOf v.toNat 2) ∧
        (bitOf v.toNat 1 = false → bitOf v.toNat 2 = true → ∃ t, exec i s = .next t ∧ t.coreRuns n = false ∧ t.mem = s.mem ∧
          (∀ k, t.greg n k = s.greg n k) ∧ t.flag kc (F.kc n F.KCCTRL_hold) = true))) ∧
    (∀ c : Fin 9, s.May r (coreUnit c) 0x60 → bitOf v.toNat 0 = true → ∃ t, exec (.samplingEnable r c v) s = .next t ∧
      t.flag (coreUnit c) F.CSMPCTL_enable = true ∧ t.rd (coreUnit c) F.CSMPHEAD_head = 0 ∧ t.rd (coreUnit c) F.CSMPLOST_dropped = 0 ∧
      t.rd (coreUnit c) F.CSMPLOST_skipped = 0 ∧ (t.core c).seq = 0 ∧ (t.core c).down = s.smpN c - 128 + (t.core c).lfsr ∧
      (t.core c).lfsr = smpNext (if F.CSMPCTL_seed.of v.toNat = 0 then 0x5A else F.CSMPCTL_seed.of v.toNat) ∧
      (t.core c).g = (s.core c).g ∧ t = { s with regs := t.regs, cores := t.cores }) ∧
    (∀ ok : Bool, s.pw.clocked = true → s.job n 0 ≠ 255 → (s.core n).dead = false →
      let recent := (s.core n).faults.filter (fun t => decide (s.time.ns < t + 60000000000))
      ∃ t, exec (.heartbeatTimeout n ok) s = .next t ∧ t.event .keeper 17 = true ∧ (t.core n).faults = recent ++ [s.time.ns] ∧
        (recent.length < 2 → t.rd u F.USTAT_state = 3 ∧ (t.core n).dead = false) ∧
        (2 ≤ recent.length → (t.core n).dead = true ∧ t.rd u F.USTAT_state = 0 ∧ (n.val = 0 → t.flag .nvme F.NVCTRL_cfs = true)))

/-! ### Time, triggers and timecode (10, 15) -/

/-- The time unit (R464 to R470): the first edge is a candidate, a confirming one sets the rate and starts tracking; a taken edge within
lockthr slews by the update of R464 and the fourth locks; an edge outside the window is an extra pulse; a missing pulse keeps the rate and
takes locked to holdover; loads step TIMENS only where steps are allowed, and are refused otherwise; a write of TMRATE is clamped. Camera
triggers (R330), the timecode set and the window-start strobe (R334, R335, R474). -/
def Obligations.TimeTriggersAndTimecode : Prop :=
  (∀ (s : State) (r : Requester) (v : Word) (rising : Bool) (held : Nat), s.time.ns < 2 ^ 64 →
    let cap : Int := (s.time.ns : Int) - held - signed 16 (s.rd .time F.TMPPSCFG_ofs)
    let st := s.rd .time F.TMSTAT_state
    (s.pw.clocked = true → s.rd .time F.TMCFG_src = 0 → rising = !s.flag .time F.TMCFG_edge → 50 ≤ held → s.flag .time F.TMSTAT_armed = false →
      (st = 1 → s.time.cand = none → ∃ t, exec (.ppsEdge rising held) s = .next t ∧ t.time.cand = some cap ∧ t.time.ns = s.time.ns ∧
        t.rd .time F.TMSTAT_state = 1 ∧ t.rate = s.rate) ∧
      (∀ a, st = 1 → s.time.cand = some a → (cap - a - 1000000000).natAbs ≤ 100000 → s.mustStep (captureError 1000000000 cap) = false →
        ∃ t, exec (.ppsEdge rising held) s = .next t ∧ t.rd .time F.TMSTAT_state = 2 ∧ t.time.ns = s.time.ns ∧
          t.time.expect = some (cap + 1000000000) ∧ t.time.okRun = 0 ∧
          t.rate = clampInt (-25600000) 25600000 (roundDiv ((1000000000 - (cap - a)) * 1000000000 * 256) (cap - a))) ∧
      (∀ a, st = 1 → s.time.cand = some a → 100000 < (cap - a - 1000000000).natAbs →
        ∃ t, exec (.ppsEdge rising held) s = .next t ∧ t.rd .time F.TMSTAT_state = 1 ∧ t.time.cand = some cap ∧ t.rate = s.rate) ∧
      (∀ x, st ∈ [2, 3] → s.time.expect = some x → (cap - x).natAbs ≤ s.rd .time F.TMPPSCFG_win * 100 → let e := captureError 1000000000 cap
        s.mustStep e = false → ∃ t, exec (.ppsEdge rising held) s = .next t ∧ t.time.ns = s.time.ns ∧ t.time.missRun = 0 ∧
          t.rd .time F.TMSTAT_misses = 0 ∧ t.rd .time F.TMERR_error = unsigned 32 e ∧ t.time.expect = some (cap + 1000000000) ∧
          t.counter 195 = (s.counter 195 + 1) % 2 ^ 48 ∧ t.rd .time F.TMPPSLO_cap_lo = unsigned 64 cap % 2 ^ 32 ∧
          (e.natAbs ≤ s.rd .time F.TMCFG_lockthr → t.rd .time F.TMSTAT_state = (if st = 2 ∧ 3 ≤ s.time.okRun then 3 else st) ∧
            (st = 2 → 3 ≤ s.time.okRun → t.event .time 1 = true)) ∧
          (s.rd .time F.TMCFG_lockthr < e.natAbs → st = 3 → 3 ≤ s.time.badRun → t.rd .time F.TMSTAT_state = 2 ∧ t.event .time 2 = true)) ∧
      (∀ x, st ∈ [2, 3, 4] → s.time.expect = some x → s.rd .time F.TMPPSCFG_win * 100 < (cap - x).natAbs →
        ∃ t, exec (.ppsEdge rising held) s = .next t ∧ t.event .time 4 = true ∧ t.time = s.time ∧ t.rate = s.rate ∧
          t.rd .time F.TMSTAT_state = st)) ∧
    (∀ e : Int, s.mustStep e = true ↔ s.rd .time F.TMCFG_stepthr ≠ 0 ∧ s.flag .time F.TMCFG_allowstep = true ∧
      s.rd .time F.TMCFG_stepthr * 1000 < e.natAbs) ∧
    (s.pw.clocked = true → (st = 3 → ∃ t, exec .ppsMissing s = .next t ∧ t.rd .time F.TMSTAT_state = 4 ∧ t.event .time 3 = true ∧
        t.event .time 2 = true ∧ t.rate = s.rate ∧ t.time.ns = s.time.ns) ∧
      (st = 4 → ∃ t, exec .ppsMissing s = .next t ∧ t.rd .time F.TMSTAT_state = (if 63 ≤ s.time.missRun then 1 else 4) ∧ t.rate = s.rate) ∧
      (st ∈ [0, 1] → exec .ppsMissing s = .next s)) ∧
    (s.May r .time 0x50 →
      (s.flag .time F.TMCFG_allowstep = true → (∃ t, exec (.timeLoadNow r) s = .next t ∧ t.time.ns = s.tmSet % 2 ^ 64 ∧ t.time.frac = 0 ∧
          t.event .time 5 = true) ∧
        (∃ t, exec (.timeLoadAtEdge r) s = .next t ∧ t.flag .time F.TMSTAT_armed = true ∧ t.time.ns = s.time.ns)) ∧
      (s.flag .time F.TMCFG_allowstep = false → ∀ i ∈ [(Instr.timeLoadNow r, 1), (.timeLoadAtEdge r, 2)],
        ∃ t, exec i.1 s = .next t ∧ t.time = s.time ∧ t.flag .time F.TMSTAT_refused = true ∧ t.event .time 5 = true ∧
          t.flag .time F.TMSTAT_armed = s.flag .time F.TMSTAT_armed ∧
          Queued s t 0 r.num UnitId.time.number 3 (UnitId.time.base + 0x50) i.2) ∧
      (∃ t, exec (.timeLoadCancel r) s = .next t ∧ t.flag .time F.TMSTAT_armed = false ∧ RegsBut s t [fieldKey .time F.TMSTAT_armed] ∧
        t = { s with regs := t.regs })) ∧
    (s.May r .time 0x6C → ∃ t, exec (.tmrateWrite r v) s = .next t ∧ t.rate = clampInt (-25600000) 25600000 (signed 32 v.toNat) ∧
      t.time.integ = t.rate ∧ RegsBut s t [fieldKey .time F.TMRATE_rate] ∧ t = { s with regs := t.regs, time := { s.time with integ := t.rate } })) ∧
  (∀ (s : State) (r : Requester) (n : Fin 4) (v : Word) (rising : Bool) (held : Nat),
    (s.pw.clocked = true → s.flag .time (F.TRGCFG_enable n) = true → edgeSelected (s.rd .time (F.TRGCFG_edge n)) rising = true →
      max 1 (s.rd .time (F.TRGCFG_filter n)) * 10 ≤ held → held ≤ s.time.ns →
      (s.flag .time (F.TRGSTAT_pending n) = false → ∃ t, exec (.triggerEdge n rising held) s = .next t ∧
        t.rd .time (F.TRGTLO_time_lo n) = (s.time.ns - held) % 2 ^ 32 ∧ t.rd .time (F.TRGTHI_time_hi n) = (s.time.ns - held) / 2 ^ 32 % 2 ^ 32 ∧
        t.flag .time (F.TRGSTAT_pending n) = true ∧ t.event .time (8 + n.val) = true ∧ t.flag .time (F.TRGSTAT_level n) = rising ∧ t.mem = s.mem) ∧
      (s.flag .time (F.TRGSTAT_pending n) = true → ∃ t, exec (.triggerEdge n rising held) s = .next t ∧ t.event .time 12 = true ∧
        t.rd .time (F.TRGTLO_time_lo n) = s.rd .time (F.TRGTLO_time_lo n) ∧ t.rd .time (F.TRGTHI_time_hi n) = s.rd .time (F.TRGTHI_time_hi n) ∧
        t.rd .time (F.TRGSTAT_dropped n) = (s.rd .time (F.TRGSTAT_dropped n) + 1) % 2 ^ (F.TRGSTAT_dropped n).w)) ∧
    (held < max 1 (s.rd .time (F.TRGCFG_filter n)) * 10 → exec (.triggerEdge n rising held) s = .next s) ∧
    (s.May r .time 0xC0 → ∃ t, exec (.trgackWrite r v) s = .next t ∧ t = { s with regs := t.regs } ∧
      (∀ k : Fin 4, t.flag .time (F.TRGSTAT_pending k) = (s.flag .time (F.TRGSTAT_pending k) && !bitOf v.toNat k)) ∧
      RegsBut s t ((List.range 4).map (fun k => fieldKey .time (F.TRGSTAT_pending k)))) ∧
    (s.May r .time 0xD8 → ∃ t, exec (.tcepochhiWrite r v) s = .next t ∧ t.tc = { s.tc with armed := true, req := r.num } ∧
      t.rd .time F.TCEPOCHHI_epoch_hi = v.toNat ∧ t = { s with regs := t.regs, tc := t.tc }) ∧
    (s.pw.clocked = true → let base := s.rd .time F.TCBASE_base
      let R := (2 * s.rd .time F.TCRATE_num + max 1 (s.rd .time F.TCRATE_den)) / (2 * max 1 (s.rd .time F.TCRATE_den))
      (s.tc.armed = true → tcSetOk base R = true → ∃ t, exec .windowStartStrobe s = .next t ∧ t.tc.armed = false ∧ t.tc.base = base ∧
        t.tc.epoch = s.rd .time F.TCEPOCHHI_epoch_hi * 2 ^ 32 + s.rd .time F.TCEPOCHLO_epoch_lo ∧ t.tc.stampNs = s.time.ns) ∧
      (s.tc.armed = true → tcSetOk base R = false → ∃ t, exec .windowStartStrobe s = .next t ∧ t.tc.armed = false ∧ t.tc.base = s.tc.base ∧
        t.tc.epoch = s.tc.epoch ∧ t.event .time 13 = true) ∧
      (s.tc.armed = false → ∃ t, exec .windowStartStrobe s = .next t ∧ t = { s with tc := t.tc } ∧ t.tc.stampNs = s.time.ns ∧
        (bitOf s.tc.base 31 = false → t.tc.stampTc = 0) ∧ (bitOf s.tc.base 31 = true → s.time.ns < s.tc.epoch → t.tc.stampTc = s.tc.base))))

/-- INDEX and CLOCK_MARK (R22, R74, R211, R224, R225, R480): at the index every following head goes on to the next group of its pass and its
sled's sign is that of the pass, zero while it holds; a mark moves the sleds in gear mode by the entry of their zone, and a missed one is
counted. -/
def Obligations.IndexAndMarks : Prop :=
  ∀ (s : State), s.pw.clocked = true →
    (∃ t, exec .index s = .next t ∧ t.counter 193 = (s.counter 193 + 1) % 2 ^ 48 ∧ t.mem = s.mem ∧ t.heads = s.heads ∧
      ∀ h < 4, let g := s.rd (.head h) F.HSEQSTAT_group
        let out := outward (s.rd (.head h) F.HSEQSTAT_layer) h
        let follows : Bool := s.hState h == 2 && !s.flag .tray F.TBSTAT_holding
        (follows = true → t.rd (.head h) F.HSEQSTAT_group = (if out then min (g + 1) 11775 else g - 1) % 2 ^ 14) ∧
        (follows = false → t.rd (.head h) F.HSEQSTAT_group = g) ∧
        (s.flag (.stepper h) F.STGCFG_auto = true →
          t.rd (.stepper h) F.STSTAT_gsign = (if follows then (if out then 1 else 3) else 0))) ∧
    (∀ h : Fin 4, s.flag (.head h) F.HCLKSTAT_locked = true → s.rd (.stepper h) F.STCTRL_mode = 2 → s.flag (.stepper h) F.STCTRL_enable = true →
      s.rd (.stepper h) F.STPOS_pos < 2 ^ 32 → (s.stp h).frac < 2 ^ 34 →
      let ratio : Int := (Tbl.look 0 s.gear (32 * h.val + ((Tbl.look (0, 0, 0) s.bg.loaded h.val).1 - 1)) : Nat)
      let sign : Int := if s.rd (.stepper h) F.STSTAT_gsign = 1 then 1 else if s.rd (.stepper h) F.STSTAT_gsign = 3 then -1 else 0
      ∃ t, exec (.clockMark (some h) false) s = .next t ∧ ((t.rd (.stepper h) F.STPOS_pos * 2 ^ 34 + (t.stp h).frac : Nat) : Int) =
        ((s.rd (.stepper h) F.STPOS_pos * 2 ^ 34 + (s.stp h).frac : Nat) + sign * ratio) % 2 ^ 66) ∧
    (∀ h : Fin 4, ∃ t, exec (.clockMark (some h) true) s = .next t ∧ t.mem = s.mem ∧
      t.rd (.head h) F.HCLKSTAT_missing = satAdd F.HCLKSTAT_missing.w (s.rd (.head h) F.HCLKSTAT_missing) 1)

/-- With no command waiting the device advances by one tick of its 125 MHz clock: TIMENS and its fraction go on by 8 ns corrected by the rate
(R463). That an empty queue is a tick is the model's choice. -/
def Obligations.IdleIsOneTick : Prop :=
  ∀ (s : State), s.pending = [] → s.time.ns + 16 < 2 ^ 64 → s.time.frac < 2 ^ 32 → s.rate.natAbs ≤ 25600000 →
    ∃ t, step s = .next t ∧ t.pending = [] ∧ t.mem = s.mem ∧ t.time.frac < 2 ^ 32 ∧
      (t.time.ns * 2 ^ 32 + t.time.frac : Int) = s.time.ns * 2 ^ 32 + s.time.frac + (8 * 2 ^ 32 + 8 * 2 ^ 32 * s.rate / 256000000000) ∧
      (s.pw.clocked = false → t = { s with time := t.time })

/-! ### Sessions, drains and loading (03, 10) -/

/-- Triggers (R333) and timed ends, the automatic flush (R324), the extension mailbox (R340, R341) and the frames of a pull (R338). -/
def Obligations.SessionsAndTriggers : Prop :=
  ∀ (s : State), s.pw.clocked = true → s.rcd.ps < 3 →
    (∀ n : Fin 4, let cap := s.rd .time (F.TRGTHI_time_hi n) * 2 ^ 32 + s.rd .time (F.TRGTLO_time_lo n)
      let a := s.trigAction n
      let dur := s.paramLE (0x14 + 8 * n.val) 4
      2 ≤ s.rd .power F.PWSTART_level → s.flag .time (F.TRGSTAT_pending n) = true → (∀ q ∈ s.rcd.seqs, q.input ≠ n.val) →
      (a ∈ [1, 3, 4] → (a = 3 → s.rcd.session ≠ 1) → s.startStat = .success → ∃ t, exec (.triggerTake n) s = .next t ∧
        t.flag .time (F.TRGSTAT_pending n) = false ∧ Tbl.look 0 t.rcd.trigOver n = 0 ∧ t.rcd.session = 1 ∧
        t.rcd.curSession = s.rcd.sessionNo ∧ t.rcd.sessionNo = s.rcd.sessionNo + 1 ∧
        t.rcd.seqs = s.rcd.seqs ++ (if a = 4 ∧ dur ≠ 0 then [⟨n.val, cap + dur * 1000000, s.rcd.sessionNo⟩] else []) ∧
        (s.writable = true → s.tb.jourQ.length < 64 → s.rcd.journal = [] →
          ∃ d ∈ t.tb.jourQ, d.pages = [(journalPage [jSession false s.rcd.sessionNo cap], Mark.none)])) ∧
      (a = 2 ∨ a = 3 → s.rcd.session = 1 → ∃ t, exec (.triggerTake n) s = .next t ∧ t.rcd.session = 2 ∧ t.rcd.closing = s.rcd.nextFlush ∧
        t.flag .time (F.TRGSTAT_pending n) = false ∧ t.rcd.seqs = s.rcd.seqs ∧ t.rcd.sessionNo = s.rcd.sessionNo ∧
        (s.writable = true → t.rcd.nextFlush = s.rcd.nextFlush + 1)) ∧
      (a = 1 ∨ a = 4 → s.openStat = .success → s.rcd.session = 1 → s.extends = false → ∃ t, exec (.triggerTake n) s = .next t ∧
        t.rcd.session = 1 ∧ t.rcd.seqs = s.rcd.seqs ∧ t.flag .time (F.TRGSTAT_pending n) = false ∧
        Queued s t 3 1 UnitId.event.number (16 + n.val) (cap % 2 ^ 32) (cap / 2 ^ 32 % 2 ^ 32))) ∧
    (∀ q, s.rcd.seqs.find? (fun q => decide (q.ends ≤ s.time.ns)) = some q →
      ∃ t, exec .timedSessionEnd s = .next t ∧ q ∉ t.rcd.seqs ∧
        (s.rcd.session = 1 → s.rcd.curSession = q.session → t.rcd.session = 2 ∧ t.rcd.closing = s.rcd.nextFlush) ∧
        (s.rcd.session ≠ 1 ∨ s.rcd.curSession ≠ q.session → t.rcd.session = s.rcd.session ∧ t.tb = s.tb)) ∧
    (s.param 3 ≠ 0 → s.writable = true → (s.rcd.flushes.map FlushSt.bound).foldl max 0 + 1 < s.tb.nextAcc →
      s.tb.lastData.isSome = true ∨ s.tb.wData ≠ [] → ∃ t, exec .autoFlush s = .next t ∧
        t.rcd.flushes = s.rcd.flushes ++ [⟨s.rcd.nextFlush, s.tb.nextAcc - 1, s.time.ns, s.tb.lastData, none⟩] ∧
        t.rcd.nextFlush = s.rcd.nextFlush + 1 ∧ s.tb.nextAcc - 1 ≤ t.tb.closeUpTo ∧ t.mem = s.mem) ∧
    (∀ (o : Op) (r : Roi) (nsid next todo : Nat) (out : List Byte) (pages : List (Option Nat)) (c : HCmd) (more : List Op),
      s.rcd.ops = o :: more → s.rp.busy o.id = false → s.Holds o c →
      (o.kind = .roi r nsid next todo out pages none → todo ≤ 1 → ∃ t, exec .roiFrameReady s = .next t ∧
        Replied s t o.slot c .success (out.length / (r.w * r.h) + 1) (next + 1) none (out ++ r.cut (pageBytes pages))) ∧
      (∀ k, o.kind = .roi r nsid next todo out pages (some k) → ∃ t, exec .roiFrameReady s = .next t ∧
        Replied s t o.slot c .unrecovered (out.length / (r.w * r.h)) next (some ((r.range next).1 + k)) out)) ∧
    (∀ (o : Op) (c : HCmd) (tag : Nat) (more : List Op), s.rcd.ops = o :: more → o.kind = .forwarded tag → s.Holds o c →
      (∃ t, exec (.forwardTimeout tag) s = .next t ∧ Replied s t o.slot c .aborted) ∧
      (let q := s.readLE (mailBase + 0x800C) 4
       let a := mailBase + 0x4000 + 64 * (q % 256)
       s.readLE (mailBase + 0x8008) 4 ≠ q → s.rcd.extRun = true → s.readLE a 1 = 2 → s.readLE (a + 8) 4 = tag →
        ∃ t, exec .extensionReply s = .next t ∧ t.readLE (mailBase + 0x800C) 4 = (q + 1) % 2 ^ 32 ∧ o.id ∉ t.rcd.ops.map Op.id ∧
          t.cmd o.slot = some { c with stage := .given } ∧ ∃ r ∈ t.hc.recs, r.slot = o.slot ∧ r.queue = o.queue)) ∧
    (let q := s.readLE (mailBase + 0x800C) 4
     let a := mailBase + 0x4000 + 64 * (q % 256)
     s.readLE (mailBase + 0x8008) 4 ≠ q → s.rcd.extRun = true →
      (s.readLE a 1 = 5 → s.readLE (a + 8) 1 = 0 → s.startStat = .success → ∃ t, exec .extensionReply s = .next t ∧ t.rcd.session = 1 ∧
        t.rcd.sessionNo = s.rcd.sessionNo + 1) ∧
      (s.readLE a 1 = 6 → ∃ t, exec .extensionReply s = .next t ∧
        Tbl.look 0 t.rcd.trigOver (s.readLE (a + 8) 1 % 4) = s.readLE (a + 9) 1 % 5 + 1))

/-- DRAIN_COMPLETE (R31, R101, R135, R355, R383, R568): what follows the first drain whose condition holds. Loading a cartridge (R70, R100,
R126, R188): a lead-in table that passes is copied and its serial kept; one that fails, or another serial, rejects the cartridge; with the
lead-ins read a blank log is a blank cartridge, and a written one is open or baked, its write pointer at the end of the log. -/
def Obligations.DrainsAndLoading : Prop :=
  (∀ (s : State) (failed : Nat) (d : Drain), s.pw.clocked = true → s.rcd.drains.find? s.drainReady = some d →
    (∀ ps, d = .power ps → ∃ t, exec (.drainComplete failed) s = .next t ∧ t.rcd.ps = ps ∧
      (3 ≤ ps → ∀ n < 8, t.flag .keeper (F.kc n F.KCCTRL_hold) = decide (ps = 4))) ∧
    (d = .bake → ∃ t, exec (.drainComplete failed) s = .next t ∧ t.rcd.bake = 2 ∧ t.rcd.drains = s.rcd.drains.erase d ∧
      (s.writable = true → t.rcd.ckpt.isSome = true) ∧ t.mem = s.mem ∧ t.regs = s.regs) ∧
    (d = .eject → ∃ t, exec (.drainComplete failed) s = .next t ∧ t.medium = none ∧ t.rcd.cart = 0 ∧ t.rcd.media = false ∧
      (s.medium.isSome = true → t.loader.isSome = true)) ∧
    (d = .shutdown false → (s.writable = false → ∃ t, exec (.drainComplete failed) s = .next t ∧ t.hc.shst = 2) ∧
      (s.writable = true → ∃ t, exec (.drainComplete failed) s = .next t ∧ .shutdown true ∈ t.rcd.drains ∧ t.rcd.ckpt.isSome = true ∧
        t.hc = s.hc)) ∧
    (d = .shutdown true → ∃ t, exec (.drainComplete failed) s = .next t ∧ t.hc = { s.hc with shst := 2 } ∧
      t.rcd.drains = s.rcd.drains.erase d ∧ t.mem = s.mem) ∧
    (d = .activation → ∃ t, exec (.drainComplete failed) s = .next t ∧ t.rcd.drains = s.rcd.drains.erase d ∧
      (s.writable = true → t.rcd.ckpt.isSome = true))) ∧
  (∀ (s : State) (c : Cartridge) (h : Fin 4), s.pw.clocked = true → s.medium = some c → s.rcd.cart = 0 →
    (s.hState h = hLeadin →
      (∀ x, c.leadIn h = some x → x.good = true → (∀ g ∈ s.leadsRead, (c.leadIn g).map LeadIn.serial = some x.serial) →
        c.indexOff ≤ 1024 → ∃ t, exec (.leadinReadDone h) s = .next t ∧ t.rcd.serial = x.serial ∧ bitOf t.rcd.leads h = true ∧
          t.rcd.cart = 0 ∧ (∀ w < 32, Tbl.look 0 t.lpt (256 * h.val + w) = leadWord x w) ∧
          (∀ l < 16, Tbl.look 0 t.layTrim (16 * h.val + l) =
            (x.depth[l]?).getD 0 % 65536 * 65536 + Tbl.look 0 s.layTrim (16 * h.val + l) % 65536) ∧
          t.regs = s.regs ∧ t.mem = s.mem ∧ t.medium = s.medium) ∧
      (c.leadIn h = none ∨ (∃ x, c.leadIn h = some x ∧ (x.good = false ∨ 1024 < c.indexOff ∨
          ∃ g ∈ s.leadsRead, (c.leadIn g).map LeadIn.serial ≠ some x.serial)) →
        ∃ t, exec (.leadinReadDone h) s = .next t ∧ t.rcd.cart = 4 ∧ t.medium = s.medium ∧ t.mem = s.mem)) ∧
    (∀ lost hidden fails : List Nat, s.leadsDone = true →
      (c.cmAnswers = true → c.factoryOk = true → c.cmNum 8 16 ≠ s.rcd.serial →
        ∃ t, exec (.mediaStateDecide lost hidden fails) s = .next t ∧ t.rcd.cart = 4 ∧ t.medium = s.medium) ∧
      (c.cmAnswers = false ∨ c.factoryOk = false ∨ c.cmNum 8 16 = s.rcd.serial →
        (s.posAt 0 = Pos.blank → ∃ t, exec (.mediaStateDecide lost hidden fails) s = .next t ∧ t.rcd.cart = 1 ∧
          t.rd .tray F.TBPOS_pointer = 0 ∧ t.tbSeq = 0 ∧ t.flag .tray F.TBHWCTRL_valid = true ∧ t.mem = s.mem ∧
          (c.cmAnswers = false ∨ c.factoryOk = false → t.event .media 8 = true ∧
            t.rcd.cmStatus = (if c.cmAnswers = false then 2 else 3))) ∧
        (s.posAt 0 ≠ Pos.blank → ∃ t, exec (.mediaStateDecide lost hidden fails) s = .next t ∧ (t.rcd.cart = 2 ∨ t.rcd.cart = 3) ∧
          t.rd .tray F.TBPOS_pointer = s.logEnd % 2 ^ F.TBPOS_pointer.w ∧ t.flag .tray F.TBHWCTRL_valid = true ∧
          t.medium = s.medium))))

/-! ### The NVMe controller (11) -/

/-- Links and resets of the PCIe function, enabling and shutdown (R345, R346, R382, R383, R504, R508). -/
def Obligations.NvmeController : Prop :=
  ∀ (s : State), s.pw.clocked = true →
    let stopped (t : State) : Prop := t.hc.en = false ∧ t.hc.css = 0 ∧ t.hc.shst = 0 ∧ t.hc.sqs = [] ∧ t.hc.cqs = [] ∧ t.hc.feats = [] ∧
      t.hc.aers = [] ∧ t.hc.heldEvents = [] ∧ t.flag .nvme F.NVCTRL_cfs = false ∧ t.medium = s.medium ∧ t.heads = s.heads ∧
      t.slots = s.slots ∧ t.cores = s.cores ∧ t.rcd.zones = s.rcd.zones ∧ t.rcd.pool = s.rcd.pool ∧ t.rcd.session = s.rcd.session ∧
      (∀ (k : Nat) (c : HCmd), s.hc.slots = [(k, some c)] → k ∉ s.hc.aers →
        (64 < c.queue → t.cmd k = some c) ∧ (c.queue ≤ 64 → c.stage = .taken → t.cmd k = some { c with discarded := true }) ∧
        (c.queue ≤ 64 → c.stage ≠ .taken → t.cmd k = none))
    let reset (t : State) : Prop := stopped t ∧ t.event .pcie 3 = true ∧
      t.rd .pcie F.PCRESET_count = satAdd 16 (s.rd .pcie F.PCRESET_count) 1
    let down (t : State) : Prop := t.flag .pcie F.PCLINK_up = false
    (∀ (speed : Fin 6) (width : Fin 9), s.hc.perst = true → s.flag .pcie F.PCLINK_up = false → ∃ t, exec (.pcieLinkup speed width) s = .next t ∧
      t.flag .pcie F.PCLINK_up = true ∧ t.rd .pcie F.PCLINK_speed = speed ∧ t.rd .pcie F.PCLINK_width = width ∧ t.event .pcie 1 = true ∧
      RegsBut s t ([fieldKey .pcie F.PCLINK_up, fieldKey .pcie F.PCLINK_speed, fieldKey .pcie F.PCLINK_width] ++ booked .pcie) ∧
      RegsOnly s t) ∧
    (∀ (speed : Fin 6) (width : Fin 9), s.hc.perst = false → exec (.pcieLinkup speed width) s = .next s) ∧
    (s.flag .pcie F.PCLINK_up = true → (∃ t, exec .pcieLinkdown s = .next t ∧ reset t ∧ down t ∧ t.event .pcie 2 = true) ∧
      (∃ t, exec .hotReset s = .next t ∧ reset t)) ∧
    (∃ t, exec .linkDisable s = .next t ∧ reset t ∧ down t) ∧ (∃ t, exec .functionLevelReset s = .next t ∧ reset t) ∧
    (∃ t, exec .perstDeassert s = .next t ∧ t.hc.perst = true ∧ t = { s with hc := t.hc }) ∧
    (exec .configurationRequest s = .next { s with hostOut := s.hostOut ++ [if s.hc.confReady then .config else .retryStatus] }) ∧
    (∀ (css : Fin 8) (asq acq : Fin 4096), s.hc.en = false → ∃ t, exec (.ccEnable css asq acq) s = .next t ∧ t.hc.en = true ∧
      t.hc.css = css ∧ t.sq 0 = some ⟨asq + 1, 0, 0, 0⟩ ∧ t.cq 0 = some ⟨acq + 1, 0, true, 0, 0, true⟩ ∧ t.event .nvme 1 = true ∧
      t.nvRdy = (css == 6 && s.flag .nvme F.NVCTRL_ready) ∧ RegsBut s t (booked .nvme) ∧ t.mem = s.mem) ∧
    (s.hc.en = true → (∃ t, exec .ccDisable s = .next t ∧ stopped t ∧ t.event .nvme 1 = true ∧
        t.rd .pcie F.PCRESET_count = s.rd .pcie F.PCRESET_count) ∧
      (∃ t, exec .normalShutdown s = .next t ∧ t.hc = { s.hc with shst := 1 } ∧ t.event .nvme 2 = true ∧
        t.rcd.drains = s.rcd.drains ++ [.shutdown false] ∧ s.tb.nextAcc - 1 ≤ t.tb.closeUpTo ∧ t.mem = s.mem) ∧
      (∃ t, exec .abruptShutdown s = .next t ∧ t.hc = { s.hc with shst := 2 } ∧ t.event .nvme 2 = true ∧ t.rcd = s.rcd ∧
        s.tb.nextAcc - 1 ≤ t.tb.closeUpTo ∧ t.mem = s.mem)) ∧
    (∀ (r : Requester) (v : Word), s.May r .nvme 0x40 →
      (∃ t, exec (.nvctrlReady r v) s = .next t ∧ t.rd .nvme F.NVCTRL_ready = F.NVCTRL_ready.of v.toNat ∧ t = { s with regs := t.regs }) ∧
      (∃ t, exec (.nvctrlCfs r v) s = .next t ∧ t.rd .nvme F.NVCTRL_ready = F.NVCTRL_ready.of v.toNat ∧
        t.flag .nvme F.NVCTRL_cfs = (s.flag .nvme F.NVCTRL_cfs || bitOf v.toNat 1) ∧ (bitOf v.toNat 1 = true → t.nvCfs = true) ∧
        t = { s with regs := t.regs }))

/-- Doorbells (R344, R384), fetching (R350, R351), write data (R351, R420) and completions (R353, R354). -/
def Obligations.NvmeQueues : Prop :=
  ∀ (s : State) (q : Fin 65), s.pw.clocked = true →
    let viol (t : State) (row v : Nat) : Prop := t.event .nvme 3 = true ∧
      t.rd .nvme F.NVVIOL_count = satAdd 16 (s.rd .nvme F.NVVIOL_count) 1 ∧ Queued s t 2 15 UnitId.nvme.number row (q.val % 2 ^ 32) v
    (∀ v : Word,
      (s.hc.en = false → (∃ t, exec (.sqTailDoorbell q v) s = .next t ∧ viol t 3 v.toNat ∧ t.hc = s.hc) ∧
        (∃ t, exec (.cqHeadDoorbell q v) s = .next t ∧ viol t 3 v.toNat ∧ t.hc = s.hc)) ∧
      (s.hc.en = true → s.hc.aers = [] →
        (s.sq q = none → ∃ t, exec (.sqTailDoorbell q v) s = .next t ∧ viol t 1 v.toNat ∧ t.hc.sqs = s.hc.sqs) ∧
        (s.cq q = none → ∃ t, exec (.cqHeadDoorbell q v) s = .next t ∧ viol t 1 v.toNat ∧ t.hc.cqs = s.hc.cqs) ∧
        (∀ x, s.sq q = some x →
          (v.toNat < x.size → ∃ t, exec (.sqTailDoorbell q v) s = .next t ∧ t.sq q = some { x with tail := v.toNat } ∧
            (∀ k, k ≠ q.val → t.sq k = s.sq k) ∧ t = { s with hc := { s.hc with sqs := t.hc.sqs } }) ∧
          (x.size ≤ v.toNat → ∃ t, exec (.sqTailDoorbell q v) s = .next t ∧ viol t 2 v.toNat ∧ t.sq q = some x)) ∧
        (∀ x, s.cq q = some x → x.head < x.size → x.tail < x.size →
          let posted := (x.tail + x.size - x.head) % x.size
          let moved := (v.toNat + x.size - x.head) % x.size
          (v.toNat < x.size → moved ≤ posted → ∃ t, exec (.cqHeadDoorbell q v) s = .next t ∧ t.cq q = some { x with head := v.toNat } ∧
            (∀ k, k ≠ q.val → t.cq k = s.cq k) ∧ t = { s with hc := { s.hc with cqs := t.hc.cqs } }) ∧
          (x.size ≤ v.toNat ∨ posted < moved → ∃ t, exec (.cqHeadDoorbell q v) s = .next t ∧ viol t 2 v.toNat ∧ t.cq q = some x)))) ∧
    (∀ (e : SqEntry) (x : Sq), s.nvRdy = true → s.hc.shst = 0 → s.flag .pcie F.PCLINK_up = true → s.fw.going = false →
      s.nextQueue = some q.val → s.sq q = some x →
      let k := s.freeSlot
      let c := e.cmd q (s.guestOfQueue q)
      let again := !(s.slotsWhere (fun c => c.queue == q.val && c.ident == e.cid)).isEmpty
      let moves := e.opc % 4 = 1 ∧ e.dlen ≠ 0
      (8192 ≤ s.allOutstanding → s.hc.limited = false → ∃ t, exec (.commandFetch q e) s = .next t ∧ t.event .nvme 5 = true ∧
        t.hc = { s.hc with limited := true }) ∧
      (s.allOutstanding < 8192 → e.prpBad = false →
        (¬moves → e.dmaBad = false → opcodeKnown q e.opc = true → ∃ t, exec (.commandFetch q e) s = .next t ∧ t.cmd k = some c ∧
          t.waitingOn q = s.waitingOn q ++ [k] ∧ t.sq q = some { x with head := (x.head + 1) % x.size } ∧
          (again = true → t.event .nvme 3 = true) ∧ (s.rcd.ps = 4 → t.event .nvme 6 = true) ∧ t.mem = s.mem) ∧
        (¬moves → e.dmaBad = false → opcodeKnown q e.opc = false → 2 ≤ s.rd .power F.PWSTART_level → ∃ t,
          exec (.commandFetch q e) s = .next t ∧ mkRec q k .invalidOpcode 0 0 none [] ∈ t.hc.recs ∧ t.waitingOn q = s.waitingOn q) ∧
        (moves → e.dmaBad = false → ∃ t, exec (.commandFetch q e) s = .next t ∧ t.waitingOn q = s.waitingOn q ∧ t.mem = s.mem ∧
          t.cmd k = some { c with stage := if unitsOf e.dlen ≤ s.freeUnits then .moving else .parked }) ∧
        (moves → e.dmaBad = true → ∃ t, exec (.commandFetch q e) s = .next t ∧ t.event .nvme 3 = true ∧
          mkRec q k .dataTransfer 0 0 none [] ∈ t.hc.recs)) ∧
      (s.allOutstanding < 8192 → e.prpBad = true → ∃ t, exec (.commandFetch q e) s = .next t ∧ t.event .nvme 3 = true ∧
        mkRec q k .prpOffset 0 0 none [] ∈ t.hc.recs)) ∧
    (∀ (slot : Fin 8192) (addr : Nat) (c : HCmd), s.cmd slot = some c → c.queue = q.val → 2 ≤ s.rd .power F.PWSTART_level →
      s.unitsFree addr c.pages.length = true → opcodeKnown q c.opc = true →
      let landed (i : Instr) : Prop := ∃ t, exec i s = .next t ∧ t.cmd slot = some { c with stage := .queued, dbuf := addr, pages := [] } ∧
        t.waitingOn q = s.waitingOn q ++ [slot.val] ∧
        (∀ (k p : Nat), c.pages[k]? = some p → t.readBytes (addr + 4096 * k) 4096 = leBytes 4096 p ∧
          t.readLE (tagAddr (addr + 4096 * k)) 4 = 0x80000000 + crc24 (leBytes 4096 p)) ∧ t.sq q = s.sq q
      (c.stage = .moving → landed (.writeDataLanded slot addr)) ∧
      (c.stage = .parked → c.pages.length ≤ s.freeUnits → landed (.parkedWriteResume slot addr))) ∧
    (∀ (r : CRec) (x : Cq) (c : HCmd), s.hc.recs.find? (fun r => r.queue == q.val) = some r → s.cq q = some x →
      s.cmd r.slot = some c → c.queue = q.val → c.fail = none → 1 < x.size →
      ((x.tail + 1) % x.size ≠ x.head → let tail := (x.tail + 1) % x.size
        ∃ t, exec (.completionPosted q) s = .next t ∧ t.hostOut = s.hostOut ++
            [.cqe q q (((s.sq q).map Sq.head).getD 0) c.ident r.status r.dw0 r.dw1 x.phase r.data] ∧
          t.hc.recs = s.hc.recs.erase r ∧ t.cmd r.slot = none ∧ t.counter 178 = (s.counter 178 + 1) % 2 ^ 48 ∧
          t.cq q = some { x with tail := tail, phase := if tail = 0 then !x.phase else x.phase } ∧
          (x.ien = true → x.vector ∈ t.port.msix)) ∧
      ((x.tail + 1) % x.size = x.head → ∃ t, exec (.completionPosted q) s = .next t ∧ t.event .nvme 3 = true ∧ t.hc = s.hc ∧
        t.hostOut = s.hostOut))

/-! ### NVMe commands (11) -/

/-- The command of a host that stands first on its queue is taken by the row of its operation code alone (R322, R349, R355, R356, R389,
R394): not while its core is held (R31), an activation is under way (R568) or no firmware serves; at level 1 all but a few end with
internal-error (R519), as all do whose core is left stopped (R370); and a pending unit attention answers in its place (R403). -/
def Obligations.HostCommandsAreTaken : Prop :=
  ∀ (i : Instr) (q : Nat) (mine : HCmd → Bool) (s : State) (slot : Nat) (c : HCmd) (n : Fin 65) (p : Fin 2) (k : Nat) (ins : Option Cartridge),
    ((q = 0 ∧ ∃ o, (i, o) ∈ [(Instr.deleteIoSq, 0x00), (.createIoSq, 0x01), (.getLogPage, 0x02), (.deleteIoCq, 0x04), (.createIoCq, 0x05),
        (.identify, 0x06), (.abort, 0x08), (.setFeatures, 0x09), (.getFeatures, 0x0A), (.asyncEventRequest, 0x0C),
        (.namespaceManagement, 0x0D), (.firmwareCommit, 0x10), (.firmwareImageDownload, 0x11), (.deviceSelfTest k, 0x14),
        (.namespaceAttachment, 0x15), (.nvmeBake, 0xC0), (.nvmeSession, 0xC4), (.cartridge ins, 0xC8)] ∧ mine = opcIs o) ∨
      (q = n.val ∧ q ≠ 0 ∧ ∃ o, (i, o) ∈ [(Instr.flush n, 0x00), (.write n, 0x01), (.read n, 0x02), (.verify n, 0x0C),
        (.zoneMgmtSend n, 0x79), (.zoneMgmtReceive n, 0x7A), (.zoneAppend n, 0x7D), (.roiPull n, 0x82)] ∧ mine = opcIs o) ∨
      (q = 65 + p.val ∧ ((∃ o, (i, o) ∈ [(Instr.testUnitReady p, 0x00), (.requestSense p, 0x03), (.inquiry p, 0x12),
          (.startStopUnit p ins, 0x1B), (.sendDiagnostic p k, 0x1D), (.read_10 p, 0x28), (.read_16 p, 0x88), (.write_10 p, 0x2A),
          (.write_16 p, 0x8A), (.verify_10 p, 0x2F), (.verify_16 p, 0x8F), (.synchronizeCache_10 p, 0x35), (.synchronizeCache_16 p, 0x91),
          (.writeBuffer p, 0x3B), (.logSense p, 0x4D), (.modeSelect_10 p, 0x55), (.modeSense_10 p, 0x5A), (.reportLuns p, 0xA0),
          (.sasBake p, 0xC0), (.partition p, 0xC1), (.sasSession p, 0xC4), (.recordingProfile p, 0xC5), (.timecode p, 0xC6),
          (.roiSetup p, 0xCA), (.roiRead p, 0xCB)] ∧ mine = opcIs o) ∨
        ∃ o a, (i, o, a) ∈ [(Instr.closeZone p, 0x94, 1), (.finishZone p, 0x94, 2), (.openZone p, 0x94, 3), (.resetWritePointer p, 0x94, 4),
          (.reportZones p, 0x95, 0), (.readCapacity_16 p, 0x9E, 0x10), (.reportSupportedOpcodes p, 0xA3, 0x0C)] ∧ mine = actIs o a))) →
    (s.waitingOn q = [] → exec i s = .next s) ∧
    (s.pw.clocked = true → (s.waitingOn q).head? = some slot → s.cmd slot = some c → c.queue = q → c.discarded = false →
      s.gate slot = none →
      (mine c = false ∨ s.fw.going = true ∨ s.rd .power F.PWSTART_level = 0 → exec i s = .next s) ∧
      (s.coreHeld q = true → (s.core (stockCore q)).dead = false → 2 ≤ s.rd .power F.PWSTART_level → exec i s = .next s) ∧
      (mine c = true → s.fw.going = false →
        (s.rd .power F.PWSTART_level = 1 → (q = 0 → c.opc ∉ [0x02, 0x06, 0x0A, 0x10, 0x11]) → (q = 65 → c.lun ≠ 0) →
          ∃ t, exec i s = .next t ∧ Replied s t slot c .internalError) ∧
        (2 ≤ s.rd .power F.PWSTART_level → (s.core (stockCore q)).dead = true →
          ∃ t, exec i s = .next t ∧ Replied s t slot c .internalError) ∧
        (∀ a, 65 ≤ q → 2 ≤ s.rd .power F.PWSTART_level → (s.core (stockCore q)).dead = false → s.coreHeld q = false →
          s.mediaPending = false → s.rcd.ops = [] → s.tb.dataQ = [] → c.passesUa = false → s.pendingUa c = some a →
          ∃ t, exec i s = .next t ∧ Replied s t slot c (.unitAttention a) ∧
            (t.nexusOf c).map Nexus.ua = (s.nexusOf c).map (fun n => n.ua.drop 1))))

/-- Queue management (R348, R384), logs and Identify (R347, R378), Abort (R355), features (R372 to R375) and asynchronous events
(R379). -/
def Obligations.NvmeAdminCommands : Prop :=
  ∀ (s : State) (slot : Nat) (c : HCmd), s.Front slot c → c.queue = 0 →
    let does (i : Instr) (P : State → Prop) : Prop := ∃ t, exec i s = .next t ∧ P t
    let answers (i : Instr) (x : Stat) : Prop := does i (fun t => Replied s t slot c x)
    let hostOnly (t : State) : Prop := t = { s with hc := t.hc }
    let q := bits (c.dword 10) 0 16
    let size := bits (c.dword 10) 16 16 + 1
    let vec := bits (c.dword 11) 16 16
    let t0 := s.taken slot c
    (c.opc = 0x05 →
      (q = 0 ∨ 64 < q ∨ (s.cq q).isSome = true → answers .createIoCq .invalidQueue) ∧
      (1 ≤ q → q ≤ 64 → s.cq q = none →
        (size < 2 ∨ 4096 < size → answers .createIoCq .invalidQueueSize) ∧
        (2 ≤ size → size ≤ 4096 → (64 < vec → answers .createIoCq .invalidVector) ∧
          (vec ≤ 64 → bitOf (c.dword 11) 0 = true → does .createIoCq (fun t => Replied s t slot c .success ∧ hostOnly t ∧
            t.cq q = some ⟨size, vec, bitOf (c.dword 11) 1, 0, 0, true⟩ ∧ ∀ k, k ≠ q → t.cq k = s.cq k))))) ∧
    (c.opc = 0x01 →
      (q = 0 ∨ 64 < q ∨ (s.sq q).isSome = true → answers .createIoSq .invalidQueue) ∧
      (1 ≤ q → q ≤ 64 → s.sq q = none →
        (size < 2 ∨ 4096 < size → answers .createIoSq .invalidQueueSize) ∧
        (2 ≤ size → size ≤ 4096 → (s.cq vec = none → answers .createIoSq .cqInvalid) ∧
          ((s.cq vec).isSome = true → vec ≠ q → answers .createIoSq .invalidQueue) ∧
          ((s.cq vec).isSome = true → vec = q → bitOf (c.dword 11) 0 = true → does .createIoSq (fun t => Replied s t slot c .success ∧
            hostOnly t ∧ t.sq q = some ⟨size, q, 0, 0⟩ ∧ ∀ k, k ≠ q → t.sq k = s.sq k))))) ∧
    (c.opc = 0x00 → (q = 0 ∨ s.sq q = none → answers .deleteIoSq .invalidQueue) ∧
      (q ≠ 0 → (s.sq q).isSome = true → does .deleteIoSq (fun t => Replied s t slot c .success ∧ t.sq q = none ∧
        (∀ k, k ≠ q → t.sq k = s.sq k) ∧ t.hc.cqs = s.hc.cqs))) ∧
    (c.opc = 0x04 → (q = 0 ∨ s.cq q = none → answers .deleteIoCq .invalidQueue) ∧
      (q ≠ 0 → (s.cq q).isSome = true → ((s.sq q).isSome = true → answers .deleteIoCq .invalidQueueDelete) ∧
        (s.sq q = none → does .deleteIoCq (fun t => Replied s t slot c .success ∧ t.cq q = none ∧ hostOnly t ∧
          ∀ k, k ≠ q → t.cq k = s.cq k)))) ∧
    (c.opc = 0x02 → let off := (c.dword 12 + c.dword 13 * 2 ^ 32) * (if c.lid = 0xC1 then 32 else 1)
      let len := 4 * (bits (c.dword 10) 16 16 + bits (c.dword 11) 0 16 * 65536 + 1)
      (c.lid ∉ [0x01, 0x02, 0x03, 0x05, 0x06, 0xBF, 0xC0, 0xC1, 0xC2] → answers .getLogPage .invalidLog) ∧
      (∀ bs, t0.logPage c.lid (c.nsid - 1) = some bs → does .getLogPage (fun t =>
        Replied s t slot c .success 0 0 none ((bs.drop off).take len) ∧ hostOnly t ∧
        (c.lid = 0xBF → bitOf (c.dword 10) 15 = false → ∀ v ∈ t.hc.zoneList, v / 2 ^ 32 ≠ c.nsid - 1)))) ∧
    (c.opc = 0x06 → (t0.identifyData c = none → answers .identify .invalidField) ∧
      (∀ bs, t0.identifyData c = some bs → does .identify (fun t => Replied s t slot c .success 0 0 none bs ∧ hostOnly t))) ∧
    (c.opc = 0x08 → (s.hc.slots = [(slot, some c)] → does .abort (fun t => Replied s t slot c .success 1)) ∧
      (∀ (k : Nat) (x : HCmd), k ≠ slot → s.hc.slots = [(slot, some c), (k, some x)] → x.queue = q →
        x.ident = bits (c.dword 10) 16 16 → x.untaken = true → x.discarded = false → does .abort (fun t => Replied s t slot c .success ∧
          k ∉ t.waitingOn x.queue ∧ mkRec x.queue k .abortRequested 0 0 none [] ∈ t.hc.recs))) ∧
    (c.opc = 0x09 → let v := c.dword 11
      let fid := bits (c.dword 10) 0 8
      let sets (w : Nat) : Prop := does .setFeatures (fun t => Replied s t slot c .success ∧ t.getFeature fid v = some (w, []))
      (fid = 0x01 → sets (v % 8)) ∧ (fid = 0x08 → sets (v % 65536)) ∧ (fid = 0x0B → sets v) ∧
      (fid = 0x04 → bits v 16 4 = 0 ∨ bits v 16 4 = 15 → bits v 20 2 ≤ 1 → sets (v % 65536)) ∧
      (fid = 0x04 → (bits v 16 4 ≠ 0 ∧ bits v 16 4 ≠ 15) ∨ 1 < bits v 20 2 → answers .setFeatures .invalidField) ∧
      (fid = 0x09 → v % 65536 ≤ 64 → sets (v % 65536 + bits v 16 1 * 65536)) ∧ (fid = 0x05 → v % 65536 ≠ 0 → answers .setFeatures .invalidField) ∧
      (fid = 0x07 → v % 65536 ≠ 65535 → v / 65536 ≠ 65535 → does .setFeatures (fun t => Replied s t slot c .success (63 * 65536 + 63))) ∧
      (fid = 0x02 → 4 < v % 32 → answers .setFeatures .invalidField) ∧
      (fid = 0x02 → bits v 5 3 = 0 → s.flag .thermal F.THSTAT_restrict = false → s.rcd.ps ∈ [0, 2] →
        (v % 32 = 0 ∨ v % 32 = 2 → does .setFeatures (fun t => Replied s t slot c .success ∧ t.rcd.ps = v % 32)) ∧
        (v % 32 = 1 ∨ v % 32 = 3 ∨ v % 32 = 4 → does .setFeatures (fun t => Replied s t slot c .success ∧ t.rcd.ps = s.rcd.ps ∧
          .power (v % 32) ∈ t.rcd.drains))) ∧
      (fid = 0xC1 → let bs := byteNums ((s.cmdData c).take 64)
        (paramsOk bs = false → answers .setFeatures .invalidField) ∧
        (paramsOk bs = true → s.rcd.session ≠ 1 → s.rcd.seqs = [] → does .setFeatures (fun t => Replied s t slot c .success ∧
          (∀ (i x : Nat), bs[i]? = some x → t.param i = x) ∧ t.rd .tray F.TBSEALTO_timeout = t.paramLE 4 2)) ∧
        (paramsOk bs = true → s.rcd.session = 1 → does .setFeatures (fun t => Replied s t slot c .success ∧ t.rcd.param = s.rcd.param ∧
          t.rcd.paramNext = some (paramTable bs)))) ∧
      (fid ∉ [0x01, 0x02, 0x04, 0x05, 0x06, 0x07, 0x08, 0x09, 0x0B, 0xC0, 0xC1] → answers .setFeatures .invalidField)) ∧
    (c.opc = 0x0A → let fid := bits (c.dword 10) 0 8
      (∀ r, t0.getFeature fid (c.dword 11) = some r → does .getFeatures (fun t => Replied s t slot c .success r.1 0 none r.2 ∧ hostOnly t)) ∧
      (fid ∉ [0x01, 0x02, 0x04, 0x05, 0x06, 0x07, 0x08, 0x09, 0x0B, 0xC0, 0xC1] → answers .getFeatures .invalidField)) ∧
    (c.opc = 0x0C →
      (∀ e rest, s.hc.heldEvents = e :: rest → does .asyncEventRequest (fun t => Replied s t slot c .success (e.1 + e.2.1 * 256 + e.2.2 * 65536) ∧
        t.hc.heldEvents = rest ∧ hostOnly t)) ∧
      (s.hc.heldEvents = [] → s.hc.aers.length < 8 → does .asyncEventRequest (fun t => t.hc.aers = s.hc.aers ++ [slot] ∧
        t.hc.recs = s.hc.recs ∧ t.cmd slot = some { c with stage := .taken } ∧ hostOnly t)) ∧
      (s.hc.heldEvents = [] → 8 ≤ s.hc.aers.length → answers .asyncEventRequest .aerLimit))

/-! ### Commands that both interfaces have (10, 11, 12) -/

/-- Namespaces and partitions (R358, R359, R395), bake (R336), sessions (R326 to R328), loading and ejecting (R355, R400), power (R371,
R372, R400), self-tests (R380, R485) and forwarded commands (R341), as the rows of NVMe and of SAS give them. -/
def Obligations.ManagementCommands : Prop :=
  ∀ (s : State) (slot : Nat) (c : HCmd) (p : Fin 2) (n : Fin 65) (k : Nat), s.Front slot c → s.mediaPending = false → s.rcd.ps < 3 →
    let does (i : Instr) (P : State → Prop) : Prop := ∃ t, exec i s = .next t ∧ P t
    let answers (i : Instr) (x : Stat) : Prop := does i (fun t => Replied s t slot c x)
    let nvme (opc : Nat) : Prop := c.queue = 0 ∧ c.opc = opc
    let sas (opc : Nat) : Prop := c.queue = 65 + p.val ∧ c.opc = opc ∧ c.cdbOk = true ∧ c.poolIndex.isSome = true
    let creates (i : Instr) (zones : Nat) : Prop :=
      (s.createStat zones ≠ .success → answers i (s.createStat zones)) ∧
      (∀ j, s.createStat zones = .success → s.freePool = some j → does i (fun t => t.pool j = ⟨zones, true, 0⟩ ∧
        Waits s t slot c (.ckpt s.rcd.nextCkpt (if isSasQueue c.queue then j else j + 1) true) ∧ t.rcd.gzones = s.rcd.gzones + zones ∧
        (∀ z < zones, t.zone j z = ⟨.empty, 0, s.rcd.gzones + z, 0⟩) ∧ ∀ m, m ≠ j → t.pool m = s.pool m))
    let deletes (i : Instr) (j : Nat) : Prop :=
      (s.openStat ≠ .success → answers i s.openStat) ∧
      (s.openStat = .success → (s.pool j).live = false → answers i .invalidNamespace) ∧
      (s.openStat = .success → (s.pool j).live = true → does i (fun t => t.pool j = ⟨(s.pool j).zones, false, 0⟩ ∧
        Waits s t slot c (.ckpt s.rcd.nextCkpt 0 false) ∧ t.rcd.gzones = s.rcd.gzones ∧ ∀ m, m ≠ j → t.pool m = s.pool m))
    let attaches (i : Instr) (j : Nat) (ro : Bool) : Prop :=
      let other := if isSasQueue c.queue then 0 else 2
      (s.rcd.cart = 0 → answers i .noCartridge) ∧ (s.rcd.cart = 4 → answers i .mediaIncompatible) ∧
      (s.rcd.cart ≠ 0 → s.rcd.cart ≠ 4 → ((s.pool j).live = false → answers i .invalidNamespace) ∧
        ((s.pool j).live = true → (s.attached c.queue j = true → answers i .nsAttached) ∧
          (s.attached c.queue j = false → bitOf (s.pool j).att other = true → s.allReadOnly j = false → answers i .alreadyAttached) ∧
          (s.attached c.queue j = false → bitOf (s.pool j).att other = false ∨ s.allReadOnly j = true → does i (fun t =>
            Replied s t slot c .success ∧ t.attached c.queue j = true ∧
            (s.allReadOnly j = true ∨ s.rcd.cart = 3 ∨ ro = true → bitOf (t.pool j).att (attBit c.queue) = false) ∧
            bitOf (t.pool j).att other = bitOf (s.pool j).att other ∧ ∀ m, m ≠ j → t.pool m = s.pool m))))
    let detaches (i : Instr) (j : Nat) : Prop :=
      (s.rcd.cart ≠ 0 → s.attached c.queue j = false → answers i .nsNotAttached) ∧
      (s.rcd.cart ≠ 0 → s.attached c.queue j = true → does i (fun t => Replied s t slot c .success ∧ t.attached c.queue j = false ∧
        (t.pool j).live = (s.pool j).live ∧ ∀ m, m ≠ j → t.pool m = s.pool m))
    let bakes (i : Instr) : Prop := (s.bakeStat ≠ .success → answers i s.bakeStat) ∧
      (s.bakeStat = .success → does i (fun t => Waits s t slot c .bake ∧ t.rcd.bake = 1 ∧ .bake ∈ t.rcd.drains ∧ t.rcd.cart = s.rcd.cart))
    let sessions (i : Instr) (ends : Bool) : Prop :=
      let data (m : Nat) : List Byte := if isSasQueue c.queue then (beBytes 4 m).take c.alloc else []
      s.widens = false → (ends = false → (s.startStat ≠ .success → answers i s.startStat) ∧
        (s.startStat = .success → does i (fun t => Replied s t slot c .success s.rcd.sessionNo 0 none (data s.rcd.sessionNo) ∧
          t.rcd.session = 1 ∧ t.rcd.curSession = s.rcd.sessionNo ∧ t.rcd.sessionNo = s.rcd.sessionNo + 1))) ∧
      (ends = true → (s.rcd.session ≠ 1 → answers i .sessionBusy) ∧
        (s.rcd.session = 1 → does i (fun t => Replied s t slot c .success s.rcd.curSession 0 none (data s.rcd.curSession) ∧
          t.rcd.session = 2 ∧ t.rcd.closing = s.rcd.nextFlush)))
    let loads (i : Instr) (ins : Option Cartridge) : Prop :=
      (s.medium.isSome = true → answers i .success) ∧ (s.medium = none → ins = none → s.loader = none → answers i .noCartridge) ∧
      (∀ x, s.medium = none → (if ins.isSome then ins else s.loader) = some x → does i (fun t => t.medium = some x ∧ t.loader = none ∧
        Waits s t slot c .load))
    let ejects (i : Instr) : Prop := (s.medium = none → answers i .noCartridge) ∧
      (s.medium.isSome = true → does i (fun t => Waits s t slot c .eject ∧ .eject ∈ t.rcd.drains ∧ t.medium = s.medium))
    let tests (i : Nat → Instr) (code : Nat) : Prop :=
      (code = 15 → does (i k) (fun t => Replied s t slot c .success ∧ t.rcd.selfTest = 0)) ∧
      (code ∉ [1, 2, 15] → answers (i k) .invalidField) ∧ (code = 1 ∨ code = 2 → s.rcd.selfTest ≠ 0 → answers (i k) .selfTestBusy) ∧
      (code = 2 → s.rcd.selfTest = 0 → does (i k) (fun t => Replied s t slot c .success ∧ t.rcd.selfTest = 2)) ∧
      (code = 1 → s.rcd.selfTest = 0 → does (i k) (fun t => Replied s t slot c .success ∧ ∃ r f, t.rcd.tests.head? = some (1, r, f, s.recs.hours) ∧
        (s.imagesMatch = false → f = 1 ∧ r = 7) ∧ (s.imagesMatch = true → s.recordsMatch = true → k = 0 → f = 0 ∧ r = 0)))
    let forwards (i : Instr) : Prop :=
      (s.extends = false → answers i .invalidOpcode) ∧ (s.extends = true → s.mailFull = true → answers i .busy) ∧
      (s.extends = true → s.mailFull = false → does i (fun t => Waits s t slot c (.forwarded (s.rcd.nextOp % 2 ^ 32)) ∧
        t.readLE (mailBase + 0x8000) 4 = (s.readLE (mailBase + 0x8000) 4 + 1) % 2 ^ 32))
    let bs := s.cmdData c
    (nvme 0x0D → let size := leNat (bs.take 8)
      (bits (c.dword 10) 0 4 = 0 → (size = 0 ∨ size % 262144 ≠ 0 ∨ size ≠ leNat ((bs.drop 8).take 8) ∨ bits (c.dword 11) 24 8 ≠ 2 →
          answers .namespaceManagement .invalidField) ∧
        (size ≠ 0 → size % 262144 = 0 → size = leNat ((bs.drop 8).take 8) → leNat ((bs.drop 26).take 1) = 0 → bits (c.dword 11) 24 8 = 2 →
          creates .namespaceManagement (size / 262144))) ∧
      (∀ j, bits (c.dword 10) 0 4 = 1 → c.poolIndex = some j → deletes .namespaceManagement j)) ∧
    (nvme 0x15 → ∀ j, c.poolIndex = some j → (leNat (bs.take 2) ≠ 1 ∨ leNat ((bs.drop 2).take 2) ≠ 1 →
        answers .namespaceAttachment .ctrlListInvalid) ∧
      (leNat (bs.take 2) = 1 → leNat ((bs.drop 2).take 2) = 1 → (bits (c.dword 10) 0 4 = 0 → attaches .namespaceAttachment j false) ∧
        (bits (c.dword 10) 0 4 = 1 → detaches .namespaceAttachment j))) ∧
    (nvme 0xC0 → (c.nsid ≠ 0 → answers .nvmeBake .invalidField) ∧ (c.nsid = 0 → bakes .nvmeBake)) ∧
    (nvme 0xC4 → sessions .nvmeSession (bitOf (c.dword 10) 0)) ∧
    (nvme 0xC8 → ∀ ins, (bits (c.dword 10) 0 2 = 0 → loads (.cartridge ins) ins) ∧ (bits (c.dword 10) 0 2 = 1 → ejects (.cartridge ins))) ∧
    (nvme 0x14 → tests .deviceSelfTest (bits (c.dword 10) 0 4)) ∧
    (c.queue = 0 → 0xD0 ≤ c.opc → c.opc ≤ 0xDF → forwards .nvmeForwardedAdmin) ∧
    (c.queue = n → n.val ≠ 0 → 0xD0 ≤ c.opc → c.opc ≤ 0xDF → forwards (.nvmeForwardedIo n)) ∧
    (c.queue = 65 + p.val → c.poolIndex.isSome = true → 0xD0 ≤ c.opc → c.opc ≤ 0xDF → forwards (.sasForwarded p)) ∧
    (sas 0xC1 → let act := c.cb 1 % 32
      (act = 0 → c.be 4 4 = 0 → answers (.partition p) .invalidField) ∧ (act = 0 → c.be 4 4 ≠ 0 → creates (.partition p) (c.be 4 4)) ∧
      (act = 1 → c.cb 2 ≤ 31 → deletes (.partition p) (c.cb 2)) ∧ (act = 2 → c.cb 2 ≤ 31 → attaches (.partition p) (c.cb 2) (bitOf (c.cb 3) 0)) ∧
      (act = 3 → c.cb 2 ≤ 31 → detaches (.partition p) (c.cb 2)) ∧ (act ∈ [1, 2, 3] → 31 < c.cb 2 → answers (.partition p) .invalidField) ∧
      (act = 4 → does (.partition p) (fun t => Replied s t slot c .success 0 0 none
        (((List.range 32).flatMap s.partitionEntry).take c.alloc)))) ∧
    (sas 0xC0 → bakes (.sasBake p)) ∧ (sas 0xC4 → sessions (.sasSession p) (bitOf (c.cb 1) 0)) ∧
    (sas 0x1D → ∀ j, c.poolIndex = some j → s.mediaStat c.queue j = .success → tests (.sendDiagnostic p)
      (if bitOf (c.cb 1) 2 || c.cb 1 / 32 = 1 then 1 else if c.cb 1 / 32 = 2 then 2 else if c.cb 1 / 32 = 4 then 15 else 0)) ∧
    (sas 0x1B → s.rcd.cart = 0 ∨ (∃ j, c.poolIndex = some j ∧ s.mediaStat c.queue j = .success) → ∀ ins, let i := Instr.startStopUnit p ins
      (bitOf (c.cb 4) 1 = true → c.cb 4 / 16 = 0 → c.cb 3 % 16 = 0 → bitOf (c.cb 1) 0 = false →
        (bitOf (c.cb 4) 0 = true → loads i ins) ∧ (bitOf (c.cb 4) 0 = false → ejects i)) ∧
      (bitOf (c.cb 4) 1 = false → (startStopPs (c.cb 4 / 16) (c.cb 3 % 16) (bitOf (c.cb 4) 0) = none → answers i .invalidField) ∧
        (∀ ps, startStopPs (c.cb 4 / 16) (c.cb 3 % 16) (bitOf (c.cb 4) 0) = some ps → s.flag .thermal F.THSTAT_restrict = false →
          (ps = s.rcd.ps → answers i .success) ∧
          (s.rcd.ps ≠ 1 → ps = 1 ∨ ps = 3 ∨ ps = 4 → does i (fun t => .power ps ∈ t.rcd.drains ∧ t.rcd.ps = s.rcd.ps ∧
            (bitOf (c.cb 1) 0 = false → Waits s t slot c (.power ps)) ∧ (bitOf (c.cb 1) 0 = true → Replied s t slot c .success))))))

/-- Writes and appends (R362, R365, R397), reads and verifies (R156, R364, R397), flushes (R367, R399), zone actions and reports (R356, R360,
R361, R363, R394, R396) and pulls (R337, R338, R357, R398), as the rows of NVMe and of SAS give them. -/
def Obligations.DataCommands : Prop :=
  ∀ (s : State) (slot : Nat) (c : HCmd) (p : Fin 2) (n : Fin 65) (k : Nat), s.Front slot c → s.mediaPending = false → s.rcd.ps < 3 →
    c.poolIndex = some k → s.tb.dataQ = [] → s.rcd.ops = [] → s.rp.busy s.rcd.nextOp = false →
    let does (i : Instr) (P : State → Prop) : Prop := ∃ t, exec i s = .next t ∧ P t
    let answers (i : Instr) (x : Stat) : Prop := does i (fun t => Replied s t slot c x)
    let nvme (opc : Nat) : Prop := c.queue = n ∧ n.val ≠ 0 ∧ c.opc = opc
    let on : Prop := s.mediaStat c.queue k = .success
    let sas (opc : Nat) : Prop := c.queue = 65 + p.val ∧ c.opc = opc ∧ c.cdbOk = true ∧ on
    let size := (s.pool k).zones * 262144
    let writes (i : Instr) (lba nb : Nat) (append fua : Bool) : Prop :=
      let j := lba / 262144
      let z := s.zone k j
      let x := s.writeStat c.queue k lba nb append
      (c.dlen < 4096 * nb → answers i .invalidField) ∧
      (4096 * nb ≤ c.dlen → (x ≠ .success → does i (fun t => Replied s t slot c x 0 0
          (if x = .outOfOrder ∨ x = .fullZone then some (j * 262144 + z.wp) else none) ∧ t.zone k j = z)) ∧
        (x = .success → nb = 0 → answers i .success) ∧
        (x = .success → nb ≠ 0 → ∃ e, does i (fun t => Waits s t slot c (.write k (j * 262144 + z.wp) nb append fua) ∧
          t.tb.dataQ = [⟨false, e, nb, j * 262144 + z.wp, c.dbuf, 0, 0, 6, false, [], s.rcd.nextOp, 0⟩] ∧ t.mem = s.mem ∧
          t.zone k j = ⟨if z.st = .explicitOpen then .explicitOpen else .implicitOpen, z.wp + nb, z.gzone, e⟩ ∧
          (z.st ≠ .empty → e = z.entry) ∧ (z.st = .empty → s.freeEntry = some e ∧ t.zent e = ⟨true, k, j, z.gzone, z.wp⟩))))
    let reads (i : Instr) (lba nb : Nat) (verify : Bool) : Prop :=
      (size < lba + nb → answers i .lbaRange) ∧
      (lba + nb ≤ size → 0 < nb → ((∀ a < nb, s.slotOfLba k (lba + a) = none) → does i (fun t =>
          Replied s t slot c .success 0 0 none (if verify then [] else pageBytes (s.pagesOf k lba nb)) ∧ t.mem = s.mem)) ∧
        ((∃ a < nb, (s.slotOfLba k (lba + a)).isSome = true) → (∀ a x, s.slotOfLba k a = some x → x / 816 ≤ 1507327) →
          does i (fun t => Waits s t slot c (.read k lba (s.pagesOf k lba nb) verify none) ∧ t.rp.busy s.rcd.nextOp = true ∧ t.mem = s.mem)))
    let flushes (i : Instr) (immed : Bool) : Prop :=
      (s.writable = false → does i (fun t => Replied s t slot c
        (if bitOf s.rcd.r18 (if isSasQueue c.queue then 1 else 0) then .internalError else .success) ∧ t.tb = s.tb)) ∧
      (s.writable = true → (immed = true → does i (fun t => Replied s t slot c .success ∧ t.rcd.nextFlush = s.rcd.nextFlush + 1)) ∧
        (immed = false → does i (fun t => Waits s t slot c (.flush s.rcd.nextFlush) ∧ t.rcd.nextFlush = s.rcd.nextFlush + 1 ∧
          s.tb.nextAcc - 1 ≤ t.tb.closeUpTo ∧ t.mem = s.mem)))
    let acts (i : Instr) (a : ZAction) (lba : Nat) : Prop :=
      let j := lba / 262144
      let z := s.zone k j
      (size ≤ lba → answers i .lbaRange) ∧ (lba < size → lba % 262144 ≠ 0 → answers i .invalidField) ∧
      (lba < size → lba % 262144 = 0 → (a = .reset → answers i (if z.full then .fullZone else .resetRefused)) ∧
        (a ≠ .reset → s.rcd.cart = 3 ∨ s.rcd.bake ≠ 0 → answers i .baked) ∧
        (a ≠ .reset → s.rcd.cart ≠ 3 → s.rcd.bake = 0 → (s.attachedRo c.queue k = true → answers i .writeProtected) ∧
          (s.attachedRo c.queue k = false →
            (a = .open → z.full = true → answers i .fullZone) ∧
            (a = .open → z.full = false → z.st = .empty → s.freeEntry = none → answers i .openLimit) ∧
            (a = .open → z.full = false → z.st ≠ .empty ∨ s.freeEntry.isSome = true → does i (fun t => Replied s t slot c .success ∧
              (t.zone k j).st = .explicitOpen ∧ (t.zone k j).wp = z.wp ∧ t.mem = s.mem)) ∧
            (a = .close → z.full = false → z.st ≠ .empty → does i (fun t => Replied s t slot c .success ∧
              t.zone k j = { z with st := .closed } ∧ t.mem = s.mem)) ∧
            (a = .finish → z.st = .readOnly → answers i .fullZone) ∧
            (a = .finish → z.st ≠ .readOnly → does i (fun t => Replied s t slot c .success ∧ (t.zone k j).st = .readOnly ∧
              (t.zone k j).wp = z.wp ∧ t.mem = s.mem)))))
    let reports (i : Instr) (isSas : Bool) (lba opt : Nat) (part : Bool) (room : Nat) : Prop :=
      (size ≤ lba → answers i .lbaRange) ∧ (lba < size → does i (fun t =>
        Replied s t slot c .success 0 0 none (s.zoneReport isSas k lba opt part room) ∧ t = { s with hc := t.hc }))
    let pulls (i : Instr) (r : Roi) (start room : Nat) : Prop :=
      let shut := r.valid = false ∨ r.count ≤ start ∨ 16777216 < r.w * r.h ∨
        ∃ f < r.count, s.rangeWritten k (r.range f).1 (r.range f).2 = false
      let m := min (r.count - start) (min room 16777216 / (r.w * r.h))
      let g := r.range start
      (shut → answers i .invalidField) ∧ (¬shut → m = 0 → does i (fun t => Replied s t slot c .success 0 start)) ∧
      (¬shut → m ≠ 0 → does i (fun t => Waits s t slot c (.roi r k start m [] (s.pagesOf k g.1 g.2) none)))
    (nvme 0x01 ∨ nvme 0x7D → ∀ i ∈ [Instr.write n, .zoneAppend n], (i = .zoneAppend n ↔ c.opc = 0x7D) →
      (c.writeFields = false → answers i .invalidField) ∧
      (c.writeFields = true → writes i c.slba c.nlb (c.opc = 0x7D) (bitOf (c.dword 12) 30))) ∧
    (nvme 0x02 → c.nlb ≤ 4096 → 4096 * c.nlb ≤ c.dlen → (on → reads (.read n) c.slba c.nlb false) ∧
      (¬on → answers (.read n) (s.mediaStat c.queue k))) ∧
    (nvme 0x0C → (on → reads (.verify n) c.slba c.nlb true) ∧ (¬on → answers (.verify n) (s.mediaStat c.queue k))) ∧
    (nvme 0x00 → flushes (.flush n) false) ∧
    (nvme 0x79 → bitOf (c.dword 13) 8 = false → on → let v := bits (c.dword 13) 0 8
      (v = 1 → acts (.zoneMgmtSend n) .close c.slba) ∧ (v = 2 → acts (.zoneMgmtSend n) .finish c.slba) ∧
      (v = 3 → acts (.zoneMgmtSend n) .open c.slba) ∧ (v = 4 → acts (.zoneMgmtSend n) .reset c.slba) ∧
      (v = 0 ∨ 5 < v → answers (.zoneMgmtSend n) .invalidField)) ∧
    (nvme 0x7A → let opt := bits (c.dword 13) 8 8
      (bits (c.dword 13) 0 8 ≠ 0 ∨ 7 < opt → answers (.zoneMgmtReceive n) .invalidField) ∧
      (bits (c.dword 13) 0 8 = 0 → opt ≤ 7 → on →
        reports (.zoneMgmtReceive n) false c.slba opt (bitOf (c.dword 13) 16) (4 * (c.dword 12 + 1)))) ∧
    (nvme 0x82 → on → pulls (.roiPull n) c.roi (bits (c.dword 3) 16 16) 16777216) ∧
    (∀ i o, (i, o) ∈ [(Instr.write_10 p, 0x2A), (.write_16 p, 0x8A)] → sas o → writes i c.lba c.blocks false (bitOf (c.cb 1) 3)) ∧
    (∀ i o v, (i, o, v) ∈ [(Instr.read_10 p, 0x28, false), (.read_16 p, 0x88, false), (.verify_10 p, 0x2F, true), (.verify_16 p, 0x8F, true)] →
      sas o → (4096 < c.blocks → answers i .invalidField) ∧ (c.blocks ≤ 4096 → reads i c.lba c.blocks v)) ∧
    (∀ i o, (i, o) ∈ [(Instr.synchronizeCache_10 p, 0x35), (.synchronizeCache_16 p, 0x91)] → sas o → flushes i (bitOf (c.cb 1) 1)) ∧
    (sas 0x94 → bitOf (c.cb 14) 0 = false → let v := c.cb 1 % 32
      (v = 1 → acts (.closeZone p) .close (c.be 2 8)) ∧ (v = 2 → acts (.finishZone p) .finish (c.be 2 8)) ∧
      (v = 3 → acts (.openZone p) .open (c.be 2 8)) ∧ (v = 4 → acts (.resetWritePointer p) .reset (c.be 2 8))) ∧
    (sas 0x95 → c.cb 1 % 32 = 0 → c.cb 14 % 64 ≤ 7 →
      reports (.reportZones p) true (c.be 2 8) (c.cb 14 % 64) (bitOf (c.cb 14) 7) c.alloc) ∧
    (sas 0xCA → c.alloc = 32 → let bs := s.cmdData c
      (roiOfList bs = none → answers (.roiSetup p) .invalidParam) ∧
      (∀ r, roiOfList bs = some r → (r.valid = false → answers (.roiSetup p) .invalidParam) ∧
        (r.valid = true → let left := s.hc.setups.filter (fun x => !(x.1 == p.val && x.2.1 == c.init && x.2.2.1 == k))
          (left.length < 64 → does (.roiSetup p) (fun t => Replied s t slot c .success ∧ t.hc.setups = left ++ [(p.val, c.init, k, r)])) ∧
          (64 ≤ left.length → answers (.roiSetup p) .roiResources)))) ∧
    (sas 0xCB → let found := s.hc.setups.find? (fun x => x.1 == p.val && x.2.1 == c.init && x.2.2.1 == k)
      (found = none → answers (.roiRead p) .noRoiSetup) ∧
      (∀ x, found = some x → pulls (.roiRead p) x.2.2.2 (c.be 2 2) c.alloc))

/-! ### The SAS ports (12) -/

/-- Links and connections (R387, R405), COMMAND, XFER_RDY and DATA frames with their violations (R389, R392, R393, R402, R406), responses
(R391) and task management (R404). -/
def Obligations.SasTransport : Prop :=
  ∀ (s : State) (p : Fin 2), s.pw.clocked = true →
    let does (i : Instr) (P : State → Prop) : Prop := ∃ t, exec i s = .next t ∧ P t
    let up : Prop := s.flag .sas (F.saUp p) = true
    let port := p.val
    let viol (t : State) (row init tag : Nat) : Prop := t.event .sas 4 = true ∧
      t.rd .sas F.SAVIOL_count = satAdd 16 (s.rd .sas F.SAVIOL_count) 1 ∧
      Queued s t 2 15 UnitId.sas.number row (port * 65536 + tag % 65536) (init % 2 ^ 32)
    let lost (t : State) : Prop := (∀ x ∈ t.hc.setups, x.1 ≠ port) ∧
      t.hc.nexuses.map Nexus.ua = s.hc.nexuses.map (fun n => if n.port = port then n.ua ++ [0x2907] else n.ua) ∧
      ∀ (k : Nat) (c : HCmd), s.hc.slots = [(k, some c)] → (c.queue ≠ 65 + port → t.cmd k = some c) ∧
        (c.queue = 65 + port → c.stage = .taken → t.cmd k = some { c with discarded := true }) ∧
        (c.queue = 65 + port → c.stage ≠ .taken → t.cmd k = none);
    (∀ rate : Fin 4, rate ≠ 0 → ¬up → bitOf (s.rd .sas F.SACTRL_phyen) p = true → does (.sasLinkup p rate) (fun t =>
      t.flag .sas (F.saUp p) = true ∧ t.rd .sas (F.saRate p) = rate ∧ t.event .sas 1 = true ∧
      RegsBut s t ([fieldKey .sas (F.saUp p), fieldKey .sas (F.saRate p)] ++ booked .sas) ∧ RegsOnly s t)) ∧
    (up → does (.sasLinkdown p) (fun t => t.flag .sas (F.saUp p) = false ∧ t.event .sas 2 = true ∧
      RegsBut s t ([fieldKey .sas (F.saUp p), fieldKey .sas (F.saRate p)] ++ booked .sas) ∧ RegsOnly s t)) ∧
    (∀ prot : Fin 3, up → exec (.connectionRequest p prot) s =
      .next { s with hostOut := s.hostOut ++ [if prot = 1 then .openAccept port else .openReject port] }) ∧
    ((does (.sasHardreset p) (fun t => lost t ∧ t.event .sas 3 = true ∧
        t.rd .sas (F.saHreset p) = satAdd 16 (s.rd .sas (F.saHreset p)) 1 ∧ Tbl.look 2000 t.hc.lossTime port = 2000 ∧
        Tbl.look 1000 t.hc.respTime port = 1000 ∧ (∀ n ∈ t.hc.nexuses, n.port = port → n.burst = 0))) ∧
      (¬up → does (.iTNexusLoss p) lost)) ∧
    (∀ f : CmdFrame, up →
      (f.bad = true → does (.sasCommandFrame p f) (fun t => viol t 1 f.init f.tag ∧ t.hostOut = s.hostOut ++ [.nak port] ∧ t.hc = s.hc)) ∧
      (f.bad = false →
        (1024 ≤ s.outstanding (65 + port) ∨ 8192 ≤ s.allOutstanding → does (.sasCommandFrame p f) (fun t =>
          t.hostOut = s.hostOut ++ [.response port f.init f.tag 0x28 0 0 f.dlen none []] ∧ t.event .sas 6 = true ∧ t.hc.slots = s.hc.slots)) ∧
        (s.outstanding (65 + port) < 1024 → s.allOutstanding < 8192 →
          let k := s.freeSlot
          let c := f.cmd port (s.guestOfInit f.init)
          let used := !(s.slotsWhere (fun x => x.ofNexus port f.init && x.ident == f.tag)).isEmpty
          let ended (t : State) (x : Stat) : Prop := mkRec (65 + port) k x 0 0 none [] ∈ t.hc.recs ∧ t.waitingOn (65 + port) = s.waitingOn (65 + port)
          let act : Bool := match sasActions c.opc with
            | some l => l.contains (c.cb 1 % 32)
            | none => true
          (used = true → does (.sasCommandFrame p f) (fun t => ended t .tagOverlap ∧ viol t 6 f.init f.tag)) ∧
          (used = false → f.addLen ≠ 0 → does (.sasCommandFrame p f) (fun t => ended t .invalidField ∧ viol t 7 f.init f.tag)) ∧
          (used = false → f.addLen = 0 → 16777216 < f.dlen → does (.sasCommandFrame p f) (fun t =>
            ended t .invalidField ∧ viol t 8 f.init f.tag)) ∧
          (used = false → f.addLen = 0 → f.dlen ≤ 16777216 →
            (s.flag .sas F.SACTRL_ready = false → does (.sasCommandFrame p f) (fun t => ended t .becomingReady)) ∧
            (s.flag .sas F.SACTRL_ready = true → sasKnown c.opc = true → act = true →
              (c.dataOut = false → does (.sasCommandFrame p f) (fun t => t.cmd k = some c ∧
                t.waitingOn (65 + port) = s.waitingOn (65 + port) ++ [k] ∧ (s.rcd.ps = 4 → t.event .sas 7 = true) ∧
                ((∀ n ∈ s.hc.nexuses, n.port ≠ port ∨ n.init ≠ f.init) → ∃ n ∈ t.hc.nexuses, n.port = port ∧ n.init = f.init ∧
                  n.ua.head? = some 0x2901) ∧ t.mem = s.mem)) ∧
              (c.dataOut = true → does (.sasCommandFrame p f) (fun t => t.waitingOn (65 + port) = s.waitingOn (65 + port) ∧
                t.cmd k = some { c with stage := .moving, pages := List.replicate (unitsOf c.dlen) 0 } ∧ t.mem = s.mem))))))) ∧
    (∀ (slot : Fin 8192) (c : HCmd), s.cmd slot = some c → c.queue = 65 + port → c.stage = .moving →
      let burst := min (c.dlen - c.got) (((s.nexusOf c).map Nexus.burstBytes).getD 1048576)
      (c.asked ≤ c.got → burst ≠ 0 → s.xfersOn c.queue < 16 → up → unitsOf (c.asked + burst) - unitsOf c.asked ≤ s.freeUnits →
        does (.xferRdySend slot) (fun t => t.cmd slot = some { c with asked := c.asked + burst } ∧
          t.hostOut = s.hostOut ++ [.xferRdy port c.init c.ident c.got burst] ∧
          t = { s with hc := { s.hc with slots := t.hc.slots }, hostOut := t.hostOut })) ∧
      (c.got < c.asked → does (.sasDataTimeout slot) (fun t => viol t 5 c.init c.ident ∧
        (c.discarded = false → mkRec c.queue slot .dataTimeout 0 0 none [] ∈ t.hc.recs))) ∧
      (∀ (data : List Byte) (offset addr : Nat), up → data.length ≤ 1024 → c.got < c.asked → s.hc.slots = [(slot.val, some c)] →
        let i (bad : Bool) := Instr.sasDataFrame p c.init c.ident offset data bad addr
        (does (i true) (fun t => viol t 1 c.init c.ident ∧ t.hostOut = s.hostOut ++ [.nak port] ∧ t.cmd slot = some c)) ∧
        (offset ≠ c.got → c.discarded = false → does (i false) (fun t => viol t 4 c.init c.ident ∧
          mkRec c.queue slot .wrongOffset 0 0 none [] ∈ t.hc.recs)) ∧
        (offset = c.got → c.asked < c.got + data.length → c.discarded = false → does (i false) (fun t => viol t 3 c.init c.ident ∧
          mkRec c.queue slot .tooMuchData 0 0 none [] ∈ t.hc.recs)) ∧
        (offset = c.got → c.got + data.length ≤ c.asked → c.got + data.length < c.dlen → does (i false) (fun t =>
          t.cmd slot = some { c with pages := fillPages c.pages offset data, got := c.got + data.length } ∧ t.mem = s.mem)) ∧
        (offset = c.got → c.got + data.length ≤ c.asked → c.dlen ≤ c.got + data.length → 2 ≤ s.rd .power F.PWSTART_level →
          s.unitsFree addr c.pages.length = true → does (i false) (fun t => t.waitingOn c.queue = s.waitingOn c.queue ++ [slot.val] ∧
            t.cmd slot = some { c with stage := .queued, dbuf := addr, pages := [], got := c.got + data.length } ∧
            ∀ (k x : Nat), (fillPages c.pages offset data)[k]? = some x → t.readBytes (addr + 4096 * k) 4096 = leBytes 4096 x)))) ∧
    (∀ (init tag offset addr : Nat) (data : List Byte), up → data.length ≤ 1024 → s.hc.slots = [] →
      does (.sasDataFrame p init tag offset data false addr) (fun t => viol t 2 init tag ∧ t.hc = s.hc ∧ t.mem = s.mem)) ∧
    (∀ (r : CRec) (c : HCmd), s.hc.recs.find? (fun r => r.queue == 65 + port) = some r → s.cmd r.slot = some c → c.queue = 65 + port → up →
      does (.responseSend p) (fun t => let data := r.data.take c.dlen
        t.hostOut = s.hostOut ++ [.response port c.init c.ident (r.status % 256) (r.status / 256 % 16) r.asc
          (c.dlen - data.length - c.got) (if bitOf r.status 12 then some r.info else none) data] ∧
        t.hc.recs = s.hc.recs.erase r ∧ t.cmd r.slot = none ∧ t.counter 181 = (s.counter 181 + 1) % 2 ^ 48)) ∧
    (∀ init tag ref lun : Nat, up →
      let done (t : State) (code : Nat) : Prop := t.hostOut = s.hostOut ++ [.tmResponse port init tag code]
      let hit (c : HCmd) (i : Instr) : Prop := does i (fun t => done t 0 ∧ ∀ k, s.hc.slots = [(k, some c)] →
        (c.stage = .taken → t.cmd k = some { c with discarded := true }) ∧ (c.stage ≠ .taken → t.cmd k = none))
      let miss (c : HCmd) (i : Instr) : Prop := does i (fun t => done t 0 ∧ ∀ k, s.hc.slots = [(k, some c)] → t.cmd k = some c)
      (∀ c : HCmd, let mine : Prop := c.queue = 65 + port ∧ c.init = init
        (mine → c.ident = ref → hit c (.abortTask p init tag ref)) ∧ (¬mine ∨ c.ident ≠ ref → miss c (.abortTask p init tag ref)) ∧
        (mine → c.lun = lun → hit c (.abortTaskSet p init tag lun) ∧ hit c (.clearTaskSet p init tag lun)) ∧
        (¬mine ∨ c.lun ≠ lun → miss c (.abortTaskSet p init tag lun) ∧ miss c (.clearTaskSet p init tag lun)) ∧
        (c.queue = 65 ∨ c.queue = 66 → c.lun = lun → hit c (.logicalUnitReset p init tag lun)) ∧
        (c.queue ≤ 64 ∨ c.lun ≠ lun → miss c (.logicalUnitReset p init tag lun)) ∧
        (mine → hit c (.iTNexusReset p init tag)) ∧ (¬mine → miss c (.iTNexusReset p init tag))) ∧
      does (.iTNexusReset p init tag) (fun t => (∀ x ∈ t.hc.setups, x.1 ≠ port ∨ x.2.1 ≠ init) ∧
        t.hc.nexuses.map Nexus.ua = s.hc.nexuses.map (fun n => if n.port = port ∧ n.init = init then n.ua ++ [0x2907] else n.ua)) ∧
      does (.logicalUnitReset p init tag lun) (fun t => ∀ x ∈ t.hc.setups, lunIndex lun ≠ some x.2.2.1) ∧
      (exec (.queryTask p init tag ref) s = .next { s with hostOut := s.hostOut ++ [.tmResponse port init tag
        (if (s.slotsWhere (fun c => c.ofNexus port init && c.ident == ref)).isEmpty then 0 else 8)] }))

/-- The rest of the SCSI commands (R380, R394 to R396, R402, R403): a CDB with a reserved bit set is refused; readiness, sense, inquiry
and capacity; log and mode pages; the attached LUNs and the operation codes; the recording profile (R324, R325) and timecode (R335, R373). -/
def Obligations.ScsiCommands : Prop :=
  ∀ (s : State) (slot : Nat) (c : HCmd) (p : Fin 2), s.Front slot c → c.queue = 65 + p.val → s.mediaPending = false →
    let does (i : Instr) (P : State → Prop) : Prop := ∃ t, exec i s = .next t ∧ P t
    let answers (i : Instr) (x : Stat) : Prop := does i (fun t => Replied s t slot c x)
    let hostOnly (t : State) : Prop := t = { s with hc := t.hc }
    let gives (i : Instr) (bs : List Byte) : Prop := does i (fun t => Replied s t slot c .success 0 0 none bs ∧ hostOnly t)
    let on : Prop := ∃ j, c.poolIndex = some j ∧ s.mediaStat c.queue j = .success
    let bs := s.cmdData c
    (c.cdbOk = false → (c.opc = 0x00 → answers (.testUnitReady p) .invalidField) ∧ (c.opc = 0x12 → answers (.inquiry p) .invalidField) ∧
      (c.opc = 0x28 → s.rcd.ops = [] → answers (.read_10 p) .invalidField) ∧ (c.opc = 0x2A → s.dataRoom = true → answers (.write_10 p) .invalidField)) ∧
    (c.cdbOk = true →
      (c.opc = 0x00 → (on → gives (.testUnitReady p) []) ∧ (c.poolIndex = none → answers (.testUnitReady p) .notAttached) ∧
        (∀ j, c.poolIndex = some j → s.mediaStat c.queue j ≠ .success → answers (.testUnitReady p) (s.mediaStat c.queue j))) ∧
      (c.opc = 0x03 → (bitOf (c.cb 1) 0 = true → gives (.requestSense p) ((leBytes 8 0x72).take (c.cb 4))) ∧
        (bitOf (c.cb 1) 0 = false → answers (.requestSense p) .invalidField)) ∧
      (c.opc = 0x12 → (bitOf (c.cb 1) 0 = false → c.cb 2 ≠ 0 → answers (.inquiry p) .invalidField) ∧
        (bitOf (c.cb 1) 0 = true → c.cb 2 ∉ [0x00, 0x80, 0x83, 0xB0, 0xB1, 0xB6] → answers (.inquiry p) .invalidField) ∧
        (bitOf (c.cb 1) 0 = true → c.cb 2 = 0x80 → ∃ h, h.length = 4 ∧ gives (.inquiry p) ((h ++ serialDigits).take (c.be 3 2))) ∧
        (bitOf (c.cb 1) 0 = false → c.cb 2 = 0 → ∃ d : List Byte, d.length = 96 ∧ gives (.inquiry p) (d.take (c.be 3 2)) ∧
          d[0]? = some (if c.poolIndex.any (s.attached c.queue) then 0x14 else 0x7F) ∧
          (d.drop 8).take 24 = asciiBytes 8 ['L', 'A', 'M', 'L', 'E', 'R', 'N', 'O'] ++ asciiBytes 16 ['T', 'H', '4', '8', '1', '6'])) ∧
      (c.opc = 0x4D → on → 2 ≤ s.rd .power F.PWSTART_level →
        (s.logSense (c.cb 2 % 64) = none → answers (.logSense p) .invalidField) ∧
        (∀ d, s.logSense (c.cb 2 % 64) = some d → c.cb 3 = 0 → bitOf (c.cb 1) 0 = false → gives (.logSense p) (d.take (c.be 7 2))) ∧
        (c.cb 2 % 64 ∉ [0x00, 0x0D, 0x10, 0x15, 0x30, 0x31, 0x32] → answers (.logSense p) .invalidField)) ∧
      (c.opc = 0x5A → on → let pg := c.cb 2 % 64
        (c.cb 2 / 64 = 3 ∨ c.cb 3 ≠ 0 ∨ pg ∉ [0x02, 0x0A, 0x19, 0x3F] → answers (.modeSense_10 p) .invalidField) ∧
        (c.cb 2 / 64 ≤ 2 → c.cb 3 = 0 → pg ∈ [0x02, 0x0A, 0x19] → ∃ h : List Byte, h.length = 8 ∧
          gives (.modeSense_10 p) ((h ++ s.modePage c (c.cb 2 / 64) pg).take (c.be 7 2)))) ∧
      (c.opc = 0x55 → on → (bitOf (c.cb 1) 4 = false ∨ bitOf (c.cb 1) 0 = true → answers (.modeSelect_10 p) .invalidField) ∧
        (bitOf (c.cb 1) 4 = true → bitOf (c.cb 1) 0 = false → c.be 7 2 ≠ 0 → c.be 7 2 ≤ bs.length → bs.take 8 = List.replicate 8 0 →
          let page := (bs.take (c.be 7 2)).drop 8
          let be (i : Nat) : Nat := leNat ((page.drop i).take 2).reverse
          (c.be 7 2 = 16 → page.take 2 = [0x19, 6] → s.modeFits c (0x19, page) = true → does (.modeSelect_10 p) (fun t =>
            Replied s t slot c .success ∧ t.lossMs p = be 4 ∧ t.respMs p = be 6 ∧ t.mem = s.mem ∧
            (t.lossMs p ≠ s.lossMs p → ∀ n ∈ t.hc.nexuses, n.port ≠ p.val ∨ n.init ≠ c.init → n.ua.getLast? = some 0x2A01))) ∧
          (c.be 7 2 = 24 → page.take 2 = [0x02, 14] → s.modeFits c (0x02, page) = true → does (.modeSelect_10 p) (fun t =>
            Replied s t slot c .success ∧ ∀ n ∈ t.hc.nexuses, n.port = p.val → n.init = c.init → n.burst = be 10)) ∧
          (c.be 7 2 = 16 → page.take 2 = [0x19, 6] → s.modeFits c (0x19, page) = false → answers (.modeSelect_10 p) .invalidParam))) ∧
      (c.opc = 0x9E → c.cb 1 % 32 = 0x10 → ∀ j, c.poolIndex = some j → s.mediaStat c.queue j = .success →
        ∃ d : List Byte, d.length = 32 ∧ gives (.readCapacity_16 p) (d.take c.alloc) ∧
          d.take 12 = beBytes 8 ((s.pool j).zones * 262144 - 1) ++ beBytes 4 4096) ∧
      (c.opc = 0xA0 → let l := (List.range 32).filter (s.attached c.queue)
        (c.cb 2 = 0 ∨ c.cb 2 = 2 → gives (.reportLuns p) ((beBytes 4 (8 * l.length) ++ leBytes 4 0 ++
          l.flatMap (fun n => beBytes 2 n ++ leBytes 6 0)).take (c.be 6 4))) ∧
        (c.cb 2 ≠ 0 → c.cb 2 ≠ 2 → answers (.reportLuns p) .invalidField)) ∧
      (c.opc = 0xA3 → c.cb 1 % 32 = 0x0C → on → (3 ≤ c.cb 2 % 8 → answers (.reportSupportedOpcodes p) .invalidField) ∧
        (c.cb 2 % 8 = 1 → sasActions (c.cb 3) = none → ∃ d : List Byte, gives (.reportSupportedOpcodes p) (d.take (c.be 6 4)) ∧
          d[1]? = some (if sasKnown (c.cb 3) = true then 3 else 1)) ∧
        (c.cb 2 % 8 = 0 → ∃ d : List Byte, gives (.reportSupportedOpcodes p) (d.take (c.be 6 4)) ∧
          d.take 4 = beBytes 4 (8 * sasOperations.length))) ∧
      (c.opc = 0xC5 → c.poolIndex.isSome = true → let nums := byteNums (bs.take 64)
        (bitOf (c.cb 1) 0 = false → gives (.recordingProfile p) (((List.range 64).map s.param).flatMap (leBytes 1))) ∧
        (bitOf (c.cb 1) 0 = true → paramsOk nums = false → answers (.recordingProfile p) .invalidParam) ∧
        (bitOf (c.cb 1) 0 = true → paramsOk nums = true → s.rcd.session ≠ 1 → s.rcd.seqs = [] → does (.recordingProfile p) (fun t =>
          Replied s t slot c .success ∧ ∀ (i x : Nat), nums[i]? = some x → t.param i = x))) ∧
      (c.opc = 0xC6 → c.poolIndex.isSome = true → let d := bs.take 16
        let base := leNat (d.take 4)
        let epoch := leNat ((d.drop 8).take 8)
        let fine := d.length = 16 ∧ allZero ((d.drop 4).take 4) = true ∧ tcSetOk base (tcR (s.rd .time F.TCRATE_num) s.tcDen) = true
        (bitOf (c.cb 1) 0 = false → gives (.timecode p) s.timecodeBytes) ∧
        (bitOf (c.cb 1) 0 = true → ¬fine → answers (.timecode p) .invalidParam) ∧
        (bitOf (c.cb 1) 0 = true → fine → s.widens = false → does (.timecode p) (fun t => Replied s t slot c .success ∧
          t.tc = { s.tc with armed := true, req := 1 } ∧ t.rd .time F.TCBASE_base = base ∧
          t.rd .time F.TCEPOCHLO_epoch_lo = epoch % 2 ^ 32 ∧ t.rd .time F.TCEPOCHHI_epoch_hi = epoch / 2 ^ 32))))

/-! ### Engines (13) -/

/-- The slice mover (R424 to R430): the oldest posted channel starts, or is refused with code 3 and residue dlen × dlines; a running one
moves its bytes in line order and ends with code 0, or after the bursts completed with the code of its abort, or with code 4; SMABORT by
the owner or the keeper. The status record goes where the descriptor says. -/
def Obligations.SliceMover : Prop :=
  ∀ (s : State) (n : Nat) (c : MoverChan), s.pw.clocked = true → Tbl.look none s.eng.chans n = some c →
    let d := sliceOf c.desc
    let st := sliceStatus c.desc
    let ended : State → Nat → Nat → Prop := fun t code residue =>
      Tbl.look (0, 0, 0) t.eng.last n = (code, c.owner, residue) ∧ Tbl.look none t.eng.chans n = none ∧ n ∉ t.eng.order ∧
      (∀ m, m ≠ n → Tbl.look none t.eng.chans m = Tbl.look none s.eng.chans m) ∧ t.eng.hashQ = s.eng.hashQ ∧
      (code = 1 ∨ code = 2 → t.event .mover 2 = true) ∧ (code = 3 ∨ code = 4 → t.event .mover 3 = true) ∧
      (code = 0 → t.rd .mover F.SMDONECNT_count = (s.rd .mover F.SMDONECNT_count + 1) % 2 ^ 32 ∧
        (bitOf (dw c.desc 0) 31 = true → t.event .mover 1 = true)) ∧
      (st ≠ 0 → st % 16 = 0 → mayReach c.owner true st 16 = true →
        t.readBytes st 16 = statusBytes code c.owner (dw c.desc 1) residue)
    (∀ q, s.eng.running = none → s.eng.order = n :: q →
      (sliceOk c.desc c.owner = true → ∃ t, exec .sliceChannelStart s = .next t ∧ t.eng.running = some n ∧
        t = { s with eng := { s.eng with running := t.eng.running } }) ∧
      (sliceOk c.desc c.owner = false → ∃ t, exec .sliceChannelStart s = .next t ∧ ended t 3 d.total ∧ t.eng.running = none ∧
        RegsBut s t (booked .mover) ∧ ∀ a, a < st ∨ st + 16 ≤ a → t.byte a = s.byte a)) ∧
    (∀ (bursts : Nat) (err : Fin 3), s.eng.running = some n → sliceOk c.desc c.owner = true →
      ((c.abort = 0 → err.val = 0 ∨ d.fill = true → ∃ t, exec (.sliceChannelDone bursts err) s = .next t ∧ ended t 0 0 ∧
        t.eng.running = none ∧ RegsBut s t (fieldKey .mover F.SMDONECNT_count :: booked .mover) ∧
        (∀ a, a < st ∨ st + 16 ≤ a → t.byte a = (s.moveBursts d d.total 0).1.byte a ∧
          ((∀ p < d.total, lineAddr d.dst d.dlen d.dstride p ≠ a) → t.byte a = s.byte a)) ∧
        (st = 0 → d.fill = true → ∀ p < d.total, t.byte (lineAddr d.dst d.dlen d.dstride p) =
          BitVec.ofNat 8 (d.pattern / 256 ^ (lineAddr d.dst d.dlen d.dstride p % 4))) ∧
        (st = 0 → d.fill = false → (∀ p < d.total, ∀ q < d.total,
            lineAddr d.dst d.dlen d.dstride p ≠ lineAddr d.src d.slen d.sstride q ∧
            (lineAddr d.dst d.dlen d.dstride p = lineAddr d.dst d.dlen d.dstride q → p = q)) →
          ∀ p < d.total, t.byte (lineAddr d.dst d.dlen d.dstride p) = s.byte (lineAddr d.src d.slen d.sstride p))) ∧
      (c.abort = 1 ∨ c.abort = 2 → err.val = 0 ∨ d.fill = true → ∃ t, exec (.sliceChannelDone bursts err) s = .next t ∧
        ended t c.abort (d.total - (s.moveBursts d bursts 0).2) ∧ t.eng.running = none ∧ RegsBut s t (booked .mover) ∧
        ∀ a, a < st ∨ st + 16 ≤ a → t.byte a = (s.moveBursts d bursts 0).1.byte a) ∧
      (err.val ≠ 0 → d.fill = false → (s.moveBursts d bursts 0).2 < d.total → ∃ t,
        exec (.sliceChannelDone bursts err) s = .next t ∧ ended t 4 (d.total - (s.moveBursts d bursts 0).2) ∧
        (err.val = 1 → t.event .dram 3 = true) ∧ (err.val = 2 → t.event .dram 7 = true) ∧
        ∀ a, a < st ∨ st + 16 ≤ a → t.byte a = (s.moveBursts d bursts 0).1.byte a))) ∧
    (∀ (r : Requester) (v : Word), s.May r .mover 0x54 → v.toNat % 32 = n →
      (r.num = c.owner ∨ r.num = 0 → s.eng.running ≠ some n → ∃ t, exec (.smabortWrite r v) s = .next t ∧ ended t 1 d.total ∧
        t.eng.running = s.eng.running ∧ RegsBut s t (booked .mover) ∧ ∀ a, a < st ∨ st + 16 ≤ a → t.byte a = s.byte a) ∧
      (r.num = c.owner ∨ r.num = 0 → s.eng.running = some n → c.abort = 0 → ∃ t, exec (.smabortWrite r v) s = .next t ∧
        Tbl.look none t.eng.chans n = some { c with abort := 1 } ∧
        (∀ m, m ≠ n → Tbl.look none t.eng.chans m = Tbl.look none s.eng.chans m) ∧
        t = { s with eng := { s.eng with chans := t.eng.chans } }) ∧
      (r.num ≠ c.owner → r.num ≠ 0 → ∃ t, exec (.smabortWrite r v) s = .next t ∧ t.event .mover 0 = true ∧ t.eng = s.eng ∧
        Queued s t 0 r.num UnitId.mover.number 3 (UnitId.mover.base + 0x54) v.toNat ∧ RegsBut s t (booked .mover ++ crumbKeys) ∧
        CrumbOnly s t)) ∧
    (∀ (r : Requester) (v : Word), s.May r .mover 0x54 → Tbl.look none s.eng.chans (v.toNat % 32) = none →
      exec (.smabortWrite r v) s = .next s)

/-- The hash engine (R431 to R433): messages run one at a time in the order posted; a valid one leaves its digest, or compares it, then its
status; codes 1 to 3 as R433 states, writing nothing but the status. The DRAM controller (R416, R417, R419): a go starts a training step,
or is refused with cause 3 while one runs or too soon on a channel in service; the end of the step; entry to panic and leaving it 4 KiB
beyond the threshold. -/
def Obligations.HashAndDram : Prop :=
  (∀ (s : State), s.pw.clocked = true →
    (∀ m q, s.eng.hashRun = none → s.eng.hashQ = m :: q → ∃ t, exec .hashMessageStart s = .next t ∧ t.eng.hashRun = some m ∧
      t.eng.hashQ = q ∧ t = { s with eng := { s.eng with hashRun := t.eng.hashRun, hashQ := t.eng.hashQ } }) ∧
    (∀ (d : List Nat) (r : Nat) (err : Fin 3) (done : Nat), s.eng.hashRun = some (d, r) →
      let a := hashResult d
      let g := sha384 (s.readBytes (hashSrc d) (hashLen d))
      let ended : State → Nat → Nat → Prop := fun t code k =>
        t.eng.hashRun = none ∧ t.eng.hashQ = s.eng.hashQ ∧ t.eng.chans = s.eng.chans ∧
        t.rd .hash F.HSCNT_count = (s.rd .hash F.HSCNT_count + 1) % 2 ^ 32 ∧
        (code = 0 → bitOf (dw d 0) 31 = true → t.event .hash 1 = true) ∧
        (code = 1 → t.event .hash 2 = true ∧ t.rd .hash F.HSMISCNT_count = (s.rd .hash F.HSMISCNT_count + 1) % 2 ^ 32) ∧
        (code ≠ 1 → t.rd .hash F.HSMISCNT_count = s.rd .hash F.HSMISCNT_count) ∧
        (code = 2 ∨ code = 3 → t.event .hash 3 = true) ∧
        (a % 64 = 0 → mayReach r true (a + 48) 16 = true → t.readBytes (a + 48) 16 = statusBytes code r (dw d 1) k) ∧
        (∀ x, x < a ∨ a + 64 ≤ x → t.byte x = s.byte x) ∧
        (code ≠ 2 → RegsBut s t (fieldKey .hash F.HSCNT_count :: fieldKey .hash F.HSMISCNT_count :: booked .hash))
      (hashOk d r = true → err.val = 0 ∨ hashLen d = 0 →
        (bitOf (dw d 0) 0 = false → ∃ t, exec (.hashMessageDone err done) s = .next t ∧ ended t 0 (hashLen d) ∧
          (mayReach r true a 48 = true → t.readBytes a 48 = g)) ∧
        (bitOf (dw d 0) 0 = true → ∃ t, exec (.hashMessageDone err done) s = .next t ∧
          ended t (if s.readBytes a 48 = g then 0 else 1) (hashLen d) ∧ t.readBytes a 48 = s.readBytes a 48)) ∧
      (hashOk d r = true → err.val ≠ 0 → hashLen d ≠ 0 → ∃ t, exec (.hashMessageDone err done) s = .next t ∧
        ended t 2 (min done (hashLen d)) ∧ t.readBytes a 48 = s.readBytes a 48) ∧
      (hashOk d r = false → ∃ t, exec (.hashMessageDone err done) s = .next t ∧ ended t 3 0 ∧ t.readBytes a 48 = s.readBytes a 48))) ∧
  (∀ (s : State), s.pw.clocked = true →
    (∀ (r : Requester) (v : Word), s.May r .dram 0x54 → bitOf v.toNat 31 = true →
      let ch := bits v.toNat 16 3
      let soon := bitOf (s.rd .dram F.DCSTAT_ready) ch = true ∧ ∃ e, Tbl.look none s.eng.trained ch = some e ∧ s.time.ns < e + 10000000
      (s.flag .dram F.DCTRAIN_go = false → ¬ soon → ∃ t, exec (.dctrainGo r v) s = .next t ∧ t.flag .dram F.DCTRAIN_go = true ∧
        t.rd .dram F.DCTRAIN_channel = ch ∧ t.rd .dram F.DCTRAIN_kind = bits v.toNat 8 2 ∧
        t.rd .dram F.DCTRAIN_bursts = bits v.toNat 0 8 ∧ t.flag .dram F.DCCMP_done = false ∧ t.rd .dram F.DCSTAT_step = 2 ^ ch ∧
        RegsBut s t ([F.DCTRAIN_go, F.DCTRAIN_channel, F.DCTRAIN_kind, F.DCTRAIN_bursts, F.DCCMP_done, F.DCSTAT_step].map (fieldKey .dram)) ∧
        t = { s with regs := t.regs }) ∧
      (s.flag .dram F.DCTRAIN_go = true ∨ soon → ∃ t, exec (.dctrainGo r v) s = .next t ∧
        Queued s t 0 r.num UnitId.dram.number 3 (UnitId.dram.base + 0x54) v.toNat ∧ RegsBut s t crumbKeys ∧ CrumbOnly s t)) ∧
    (∀ (fail : Fin 262144) (errors : Word), s.flag .dram F.DCTRAIN_go = true → ∃ t, exec (.trainDone fail errors) s = .next t ∧
      t.flag .dram F.DCTRAIN_go = false ∧ t.flag .dram F.DCCMP_done = true ∧ t.rd .dram F.DCCMP_fail = fail.val ∧
      t.rd .dram F.DCCMPCNT_count = errors.toNat ∧ t.rd .dram F.DCSTAT_step = 0 ∧ t.event .dram 6 = true ∧
      Tbl.look none t.eng.trained (s.rd .dram F.DCTRAIN_channel) = some s.time.ns ∧
      RegsBut s t ([F.DCTRAIN_go, F.DCSTAT_step, F.DCCMP_done, F.DCCMP_fail, F.DCCMPCNT_count].map (fieldKey .dram) ++ booked .dram) ∧
      t = { s with regs := t.regs, ctr := t.ctr, lanes := t.lanes, port := t.port, eng := { s.eng with trained := t.eng.trained } }) ∧
    (∀ (p : Fin 97) (level : Fin 32769) (due : Bool),
      let old := Tbl.look (0, 0, false) s.eng.ports p
      let feed := 1024 * min 32 (s.rd .dram F.DCRTPANIC_feed)
      let sink := 1024 * min 32 (s.rd .dram F.DCRTPANIC_sink)
      let enters := (p.val < 48 ∧ due = true ∧ level.val < feed) ∨ (48 ≤ p.val ∧ p.val < 96 ∧ sink < level.val)
      let leaves := (p.val < 48 ∧ feed + 4096 ≤ level.val) ∨ (48 ≤ p.val ∧ level.val + 4096 ≤ sink) ∨ p.val = 96
      ∃ t, exec (.rtPortPanic p level due) s = .next t ∧ (Tbl.look (0, 0, false) t.eng.ports p).1 = level.val ∧
        (∀ k, k ≠ p.val → Tbl.look (0, 0, false) t.eng.ports k = Tbl.look (0, 0, false) s.eng.ports k) ∧
        (old.2.2 = false → enters → Tbl.look (0, 0, false) t.eng.ports p = (level.val, min (2 ^ 15 - 1) (old.2.1 + 1), true) ∧
          t.event .dram 4 = true ∧ RegsBut s t (booked .dram)) ∧
        (old.2.2 = false → ¬ enters → Tbl.look (0, 0, false) t.eng.ports p = (level.val, min (2 ^ 15 - 1) old.2.1, false)) ∧
        (old.2.2 = true → ((Tbl.look (0, 0, false) t.eng.ports p).2.2 = false ↔ leaves)) ∧
        (old.2.2 = true ∨ ¬ enters → t.regs = s.regs ∧ t.ctr = s.ctr) ∧
        t = { s with regs := t.regs, ctr := t.ctr, lanes := t.lanes, port := t.port, eng := { s.eng with ports := t.eng.ports } }))

/-! ### The Onpex ring (17) -/

/-- Links, the master role and claims (R528 to R530, R545): block lock opens the bypass of an enabled port, block loss closes it; a claim of
a second serial within 1 ms is a conflict, which ends 10 ms after the last second serial. -/
def Obligations.RingLinksAndClaims : Prop :=
  ∀ (s : State) (portB : Bool) (serial : Nat), s.pw.clocked = true →
    let x := s.side portB
    let keys := fieldKey .ring F.RNSTAT_state :: fieldKey .ring F.RNSTAT_substate :: booked .ring
    let rest : State → Prop := fun t => t = { s with regs := t.regs, ctr := t.ctr, lanes := t.lanes, port := t.port, rg := t.rg }
    (∃ t, exec (.ringBlockLock portB) s = .next t ∧ t.event .ring 1 = true ∧ t.side (!portB) = s.side (!portB) ∧
      t.side portB = { x with lock := true, opened := s.portOn portB } ∧ t.rg.out = s.rg.out ∧
      (s.portOn portB = false → t.rnState portB = rnOff) ∧
      (s.portOn portB = true → t.rnState portB = (if s.rnState portB = rnOff then (if s.masters portB then rnMaster else rnListening)
        else s.rnState portB)) ∧ RegsBut s t keys ∧ rest t) ∧
    (∃ t, exec (.ringBlockLoss portB) s = .next t ∧ t.event .ring 2 = true ∧ t.side (!portB) = s.side (!portB) ∧
      t.side portB = { x with lock := false, opened := false } ∧ t.rg.out = s.rg.out ∧ RegsBut s t keys ∧ rest t) ∧
    (s.rg.claimant = true → s.rg.a.opened = true → ∃ t, exec .claimSend s = .next t ∧
      t.rg.out = s.rg.out ++ [.claim false Config.moduleSerial] ∧ t.rg.a.claim = some (Config.moduleSerial, s.time.ns) ∧
      (s.rg.a.claim.isNone = true → t.regs = s.regs ∧ t.rg.a.conflict = s.rg.a.conflict) ∧
      (∀ c τ, s.rg.a.claim = some (c, τ) → c ≠ Config.moduleSerial → s.time.ns ≤ τ + 1000000 → s.rg.a.conflict = false →
        t.rg.a.conflict = true ∧ t.rnState false = rnConflict ∧ t.event .ring 5 = true ∧ t.rg.a.second = some s.time.ns) ∧
      RegsBut s t keys ∧ rest t) ∧
    (∃ t, exec (.claimFrame portB serial true) s = .next t ∧ t.event .ring 12 = true ∧ t.counter 191 = (s.counter 191 + 1) % 2 ^ 48 ∧
      Queued s t 2 hwReq UnitId.ring.number 1 0 0 ∧ t.rg = s.rg ∧ RegsBut s t (booked .ring ++ crumbKeys) ∧ CrumbOnly s t) ∧
    (∃ t, exec (.claimFrame portB serial false) s = .next t ∧ (t.side portB).claim = some (serial, s.time.ns) ∧
      t.rg.out = (if serial = Config.moduleSerial ∧ s.masters portB = true then s.rg.out else s.rg.out ++ [.forward]) ∧
      ((∃ τ, x.claim = some (serial, τ)) → t.regs = s.regs ∧ t.crumbs = s.crumbs ∧ (t.side portB).conflict = x.conflict) ∧
      (∀ c τ, x.claim = some (c, τ) → c ≠ serial → Queued s t 2 hwReq UnitId.ring.number 4 serial 0 ∧ t.event .ring 12 = true ∧
        (x.conflict = false → s.time.ns ≤ τ + 1000000 → (t.side portB).conflict = true ∧ (t.side portB).second = some s.time.ns ∧
          t.rnState portB = rnConflict ∧ t.event .ring 5 = true) ∧
        (τ + 1000000 < s.time.ns → (t.side portB).conflict = x.conflict ∧ (t.side portB).second = x.second))) ∧
    (∀ τ, x.second = some τ → x.conflict = true → τ + 10000000 ≤ s.time.ns → ∃ t, exec (.conflictEnd portB) s = .next t ∧
      t.side portB = { x with conflict := false, second := none } ∧ t.side (!portB) = s.side (!portB) ∧
      t.rnState portB = (if s.portOn portB = false then rnOff else if s.masters portB then rnMaster else rnListening) ∧
      RegsBut s t [fieldKey .ring F.RNSTAT_state, fieldKey .ring F.RNSTAT_substate] ∧ t = { s with regs := t.regs, rg := t.rg })

/-- The master's cycle (R532 to R534, R536 to R540): joins are refused or wait for the next cycle start, which admits them, removes the
stations gone, advances the epoch on a change and sends the gather frame; a return fills the gather table and sends the scatter frame; an
open cycle, a complete one and a stale one give their results; RNREL names held stations. -/
def Obligations.RingMaster : Prop :=
  ∀ (s : State) (portB : Bool), s.pw.clocked = true →
    let x := s.side portB
    let result : State → Nat := fun t => t.rd .ring (if portB then F.RNRES_subres else F.RNRES_result)
    (∀ (hop serial : Nat) (wanted : Option (Fin 64)),
      (s.masters portB = false ∨ x.conflict = true → ∃ t, exec (.joinFrame portB hop serial wanted) s = .next t ∧
        t = { s with rg := { s.rg with out := s.rg.out ++ [.forward] } }) ∧
      (s.masters portB = true → x.conflict = false →
        (∀ n : Fin 64, wanted = some n → x.foreign n serial = true → ∃ t, exec (.joinFrame portB hop serial wanted) s = .next t ∧
          t = { s with rg := { s.rg with out := s.rg.out ++ [.refuse portB serial 2] } }) ∧
        ((∀ n : Fin 64, wanted = some n → x.foreign n serial = false) →
          (64 ≤ (stationsOf x.mask).length → ∃ t, exec (.joinFrame portB hop serial wanted) s = .next t ∧
            t = { s with rg := { s.rg with out := s.rg.out ++ [.refuse portB serial 3] } }) ∧
          ((stationsOf x.mask).length < 64 → ∃ t, exec (.joinFrame portB hop serial wanted) s = .next t ∧
            (hop, serial, (wanted.map (fun n => n.val)).getD 64) ∈ (t.side portB).joins ∧ t.rg.out = s.rg.out ∧
            t.side (!portB) = s.side (!portB) ∧ (t.side portB).mask = x.mask ∧ t = { s with rg := t.rg })))) ∧
    (s.masters portB = true → x.opened = true → x.conflict = false → x.mask < 2 ^ 64 → bitOf x.mask 0 = true →
      let left := (x.mask &&& (2 ^ 64 - 1 - x.gone % 2 ^ 64)) ||| 1
      (x.joins = [] → ∃ t, exec (.ringCycleStart portB) s = .next t ∧ (t.side portB).mask = left ∧
        (t.side portB).cycle = (x.cycle + 1) % 2 ^ 32 ∧ (t.side portB).gone = 0 ∧ (t.side portB).out = true ∧ t.rnState portB = rnMaster ∧
        (left = x.mask → (t.side portB).epoch = x.epoch) ∧
        (left ≠ x.mask → (t.side portB).epoch = (x.epoch + 1) % 65536 ∧ t.event .ring 6 = true) ∧
        (∃ f, t.rg.out = s.rg.out ++ [.gather portB f] ++
            (if (x.cycle + 1) % 2 ^ 32 % 1000 = 0 then [.sync portB s.time.ns 0] else []) ∧
          f.epoch = (t.side portB).epoch ∧ f.cycle = (x.cycle + 1) % 2 ^ 32 ∧ f.mask = left ∧ f.master = s.rd .join F.JNSTAT_device ∧
          f.recs.length = (stationsOf left).length ∧ f.crcOk = true ∧ f.err = false ∧ (s.rnState true ≠ rnNoMaster → f.recs[0]? = some (t.gatherRecord false))) ∧
        (portB = false → t.rd .ring F.RNCYCLE_cycle = (x.cycle + 1) % 2 ^ 32 ∧
          t.rd .ring F.RNSTAT_members = (stationsOf left).length ∧ (x.epoch < 65536 → t.rd .ring F.RNEPOCH_epoch = (t.side portB).epoch)) ∧
        t.mem = s.mem) ∧
      (∀ hop serial n, x.joins = [(hop, serial, 64)] → x.gone = 0 → n < 64 → bitOf x.mask n = false →
        (x.stationOf serial = some n ∨ x.stationOf serial = none ∧ x.freeStation x.mask = n) →
        ∃ t, exec (.ringCycleStart portB) s = .next t ∧ (t.side portB).mask = x.mask ||| 2 ^ n ∧ (t.side portB).joins = [] ∧
          (t.side portB).epoch = (x.epoch + 1) % 65536 ∧ t.event .ring 6 = true ∧ (t.side portB).stationOf serial = some n ∧
          bitOf (t.side portB).held n = ((x.stationOf serial).isSome || !s.flag .ring F.RNCTRL_autorel) ∧
          .admission portB serial n ((x.stationOf serial).isSome || !s.flag .ring F.RNCTRL_autorel) ∈ t.rg.out)) ∧
    (x.out = true → ∃ t, exec (.gatherTimeout portB) s = .next t ∧ t.side portB = { x with out := false, opens := x.opens + 1 } ∧
      result t = 2 ∧ (x.opens = 2 → t.event .ring 8 = true) ∧
      RegsBut s t (fieldKey .ring (if portB then F.RNRES_subres else F.RNRES_result) :: booked .ring) ∧ t.mem = s.mem ∧
      t.rg.out = s.rg.out) ∧
    (∀ (f : CycleFrame) (trip : Nat), x.out = true → f.cycle = x.cycle →
      let gb := s.tableAt F.RNGABASELO_base F.RNGABASEHI_base portB
      let sb := s.tableAt F.RNSCBASELO_base F.RNSCBASEHI_base portB
      ∃ t, exec (.gatherReturn portB f trip) s = .next t ∧
        (f.err = false → f.crcOk = true →
          (∀ n ∈ stationsOf x.mask, bitOf (f.wrote ||| 1) n = true → t.readBytes (gb + 16 * n) 16 = leBytes 16 (f.rcd n) ∧
            Tbl.look 0 (t.side portB).views n = f.rcd n + 1) ∧
          (∀ a, (∀ n ∈ stationsOf x.mask, bitOf (f.wrote ||| 1) n = true → a < gb + 16 * n ∨ gb + 16 * n + 16 ≤ a) → t.byte a = s.byte a) ∧
          t.rg.out = s.rg.out ++ [.scatter portB ⟨true, false, x.epoch, x.cycle, x.mask, s.rd .join F.JNSTAT_device,
            (stationsOf x.mask).map (fun n => t.readLE (sb + 16 * n) 8 + b2n (bitOf (x.rel &&& x.held) n) * 2 ^ 64),
            f.wrote &&& x.mask ||| 1⟩] ∧ t.crumbs = s.crumbs) ∧
        (f.err = true ∨ f.crcOk = false → t.mem = s.mem ∧ (t.side portB).views = x.views ∧ (t.side portB).flagged = true ∧
          (f.crcOk = false → t.event .ring 12 = true ∧ t.counter 191 = (s.counter 191 + 1) % 2 ^ 48)) ∧
        (portB = false → t.rd .ring F.RNLOOP_loop = min trip 65535) ∧ (t.side portB).opens = 0) ∧
    (∀ f : CycleFrame, x.out = true → f.cycle = x.cycle →
      (f.err = false → f.crcOk = true → x.flagged = false →
        ((∀ n ∈ stationsOf x.mask, bitOf x.wrote n = true ∧ (n = 0 ∨ bitOf (f.rcd n) 65 = true)) →
          ∃ t, exec (.scatterReturn portB f) s = .next t ∧ result t = 0 ∧ t.counter 189 = (s.counter 189 + 1) % 2 ^ 48 ∧
            t.rd .ring F.RNOUT0_out = f.rcd 0 % 2 ^ 32 ∧ t.rd .ring F.RNOUT1_out = f.rcd 0 / 2 ^ 32 % 2 ^ 32 ∧
            t.side portB = { x with out := false, gone := 0, held := x.held - (x.held &&& x.rel), rel := 0 }) ∧
        (∀ n, n ∈ stationsOf x.mask → bitOf x.wrote n = false → ∃ t, exec (.scatterReturn portB f) s = .next t ∧ result t = 1 ∧
          t.event .ring 7 = true ∧ t.counter 190 = (s.counter 190 + 1) % 2 ^ 48 ∧ bitOf (t.side portB).gone n = true ∧
          bitOf (t.side portB).stale n = true ∧ (t.side portB).out = false)) ∧
      (f.err = true ∨ f.crcOk = false → ∃ t, exec (.scatterReturn portB f) s = .next t ∧ result t = 1 ∧ t.event .ring 7 = true ∧
        t.counter 190 = (s.counter 190 + 1) % 2 ^ 48 ∧ (t.side portB).held = x.held ∧ (t.side portB).rel = x.rel ∧
        (∀ g ∈ [F.RNOUT0_out, F.RNOUT1_out], t.rd .ring g = s.rd .ring g))) ∧
    (∀ (r : Requester) (v : Word), s.May r .ring 0x90 → ∃ t, exec (.rnrelWrite r v) s = .next t ∧
      let p := s.flag .ring F.RNRSEL_ring
      t.side (!p) = s.side (!p) ∧ t.side p = { s.side p with rel := (s.side p).rel |||
        (if bitOf v.toNat 31 then (s.side p).held else (s.side p).held &&& 2 ^ (v.toNat % 64)) } ∧ t = { s with rg := t.rg })

/-- A station's cycle (R532, R533, R535 to R539, R545, R547): a frame is forwarded; an unadmitted station asks to join; an admitted one is a
member with its device number; a member writes its record, applies its scatter record unless held, and leaves held on the release bit; loss,
refusal, and the delay exchange. -/
def Obligations.RingStation : Prop :=
  ∀ (s : State), s.pw.clocked = true →
    (∀ (f : CycleFrame) (admitted : Option (Fin 64 × Fin 64 × Bool)), s.rg.claimant = false → s.rg.a.opened = true →
      let st := s.rnState false
      let bit := bitOf f.mask s.station
      (f.crcOk = false → ∃ t, exec (.gatherFrame f admitted) s = .next t ∧ t.rg.mine = none ∧ t.event .ring 12 = true ∧
        t.counter 191 = (s.counter 191 + 1) % 2 ^ 48 ∧ t.rnState false = st ∧ t.rg.out = s.rg.out ++ [.forward]) ∧
      (f.crcOk = true → s.otherMaster f = false →
        (st = rnMember → bit = true → ∃ t, exec (.gatherFrame f admitted) s = .next t ∧
          t.rg.mine = (if f.err then none else some f.epoch) ∧ t.rnState false = rnMember ∧ t.rg.out = s.rg.out ++ [.forward] ∧
          t.rd .ring F.RNCYCLE_cycle = f.cycle % 2 ^ 32 ∧ t.rd .ring F.RNEPOCH_epoch = f.epoch % 2 ^ 16 ∧
          t.rd .ring F.RNSTAT_members = (stationsOf f.mask).length ∧ t.rg.master = some f.master ∧
          RegsBut s t ([F.RNCYCLE_cycle, F.RNEPOCH_epoch, F.RNSTAT_members].map (fieldKey .ring)) ∧ t = { s with regs := t.regs, rg := t.rg }) ∧
        (st = rnMember → bit = false → ∃ t, exec (.gatherFrame f admitted) s = .next t ∧ t.rnState false = rnLost ∧
          t.event .ring 4 = true ∧ Queued s t 2 hwReq UnitId.ring.number 3 f.master 0 ∧ t.rg.mine = none) ∧
        (st = rnListening ∨ st = rnLost ∨ st = rnNoMaster → ∃ t, exec (.gatherFrame f admitted) s = .next t ∧ t.rnState false = rnJoining ∧
          t.rg.out = s.rg.out ++ [.forward, .join Config.moduleSerial
            (if s.flag .join F.STADDR_auto then 64 else s.rd .join F.STADDR_station)] ∧ t.mem = s.mem) ∧
        (∀ (root sub : Fin 64) (hold : Bool), st = rnJoining → admitted = some (root, sub, hold) →
          bitOf f.mask (if sub.val = 0 then root.val else sub.val) = true → ∃ t, exec (.gatherFrame f admitted) s = .next t ∧
            t.rnState false = rnMember ∧ t.rd .join F.JNSTAT_device = root.val * 64 + sub.val ∧ t.flag .join F.ULOCK_locked = true ∧
            t.rd .join F.STADDR_root = root.val ∧ t.rd .join F.STADDR_station = sub.val ∧ t.rd .join F.JNSTAT_result = 1 ∧
            t.flag .ring F.RNSTAT_held = hold ∧ t.event .ring 3 = true ∧ t.rg.mine = (if f.err then none else some f.epoch)) ∧
        (st = rnJoining → admitted = none → ∃ t, exec (.gatherFrame f admitted) s = .next t ∧ t.rnState false = rnJoining ∧
          t.rg.out = s.rg.out ++ [.forward])) ∧
      (f.crcOk = true → s.otherMaster f = true → st = rnMember → ∃ t, exec (.gatherFrame f admitted) s = .next t ∧
        Queued s t 2 hwReq UnitId.ring.number 4 f.master 0 ∧ t.rnState false = rnMember ∧ t.rg.master = s.rg.master ∧ t.rg.mine = s.rg.mine)) ∧
    (∀ f : CycleFrame, s.rg.claimant = false → s.rg.a.opened = true → s.rnState false = rnMember →
      let v := f.rcd s.station
      ∃ t, exec (.scatterFrame f) s = .next t ∧ t.rg.out = s.rg.out ++ [.forward] ∧ t.rnState false = rnMember ∧ t.mem = s.mem ∧
        (f.crcOk = true → f.err = false → s.rg.mine = some f.epoch → bitOf f.mask s.station = true →
          (s.flag .ring F.RNSTAT_held = false ∨ bitOf v 64 = true →
            t.rd .ring F.RNOUT0_out = v % 2 ^ 32 ∧ t.rd .ring F.RNOUT1_out = v / 2 ^ 32 % 2 ^ 32 ∧ t.flag .ring F.RNSTAT_held = false) ∧
          (s.flag .ring F.RNSTAT_held = true → bitOf v 64 = true → t.event .ring 13 = true) ∧
          (s.flag .ring F.RNSTAT_held = true → bitOf v 64 = false → t.flag .ring F.RNSTAT_held = true ∧
            ∀ g ∈ [F.RNOUT0_out, F.RNOUT1_out], t.rd .ring g = s.rd .ring g)) ∧
        (f.crcOk = false ∨ f.err = true ∨ s.rg.mine ≠ some f.epoch ∨ bitOf f.mask s.station = false →
          ∀ g ∈ [F.RNOUT0_out, F.RNOUT1_out, F.RNSTAT_held], t.rd .ring g = s.rd .ring g)) ∧
    (s.rg.claimant = false → (s.rnState false = rnMember → ∃ t, exec .ringLost s = .next t ∧ t.rnState false = rnLost ∧
        t.event .ring 4 = true ∧ t.rg.mine = none ∧ (∀ g ∈ [F.RNOUT0_out, F.RNOUT1_out], t.rd .ring g = s.rd .ring g)) ∧
      (s.rnState false = rnListening ∨ s.rnState false = rnJoining → ∃ t, exec .ringLost s = .next t ∧ t.rnState false = rnNoMaster ∧
        RegsBut s t [fieldKey .ring F.RNSTAT_state] ∧ t = { s with regs := t.regs })) ∧
    (∀ result : Fin 4, s.rnState false = rnJoining → ∃ t, exec (.joinRefused result) s = .next t ∧ t.rg.a.opened = false ∧
      t.rnState false = rnRefused ∧ t.rd .join F.JNSTAT_result = result.val ∧ t.event .join 1 = true ∧ t.rg.b = s.rg.b ∧
      RegsBut s t (fieldKey .ring F.RNSTAT_state :: fieldKey .join F.JNSTAT_result :: booked .join)) ∧
    (∀ t1 : Nat, s.rg.a.lock = true → ∃ t, exec (.delayRequestSend t1) s = .next t ∧
      t = { s with rg := { s.rg with t1 := some t1, out := s.rg.out ++ [.delayRequest] } }) ∧
    (∀ t2 t3 : Nat, ∃ t, exec (.delayRequestFrame t2 t3) s = .next t ∧
      t = { s with rg := { s.rg with out := s.rg.out ++ [.delayReply (t3 - t2)] } }) ∧
    (∀ t1 t4 turn : Nat, s.rg.t1 = some t1 → ∃ t, exec (.delayReplyFrame t4 turn) s = .next t ∧
      t.rd .time F.TMHOP_hop = (t4 - t1 - turn) / 2 % 2 ^ 16 ∧ t.rg = { s.rg with t1 := none } ∧
      RegsBut s t [fieldKey .time F.TMHOP_hop] ∧ t = { s with regs := t.regs, rg := t.rg })

/-- Sync frames (R471, R546): each goes on with hop and residence added; a member whose source is the ring acquires from two frames 10 ms
apart, takes frames inside the window and counts those outside it as extras. Ring messages (R541 to R543, R545): one at a time, sent up to
three times; a delivered one ends with code 0 and its event; one for this device enters the receive ring once and is acknowledged. -/
def Obligations.RingSyncAndMessages : Prop :=
  (∀ (s : State) (source : Nat) (corr : Int) (residence : Nat), s.pw.clocked = true →
    let hop : Int := ((s.rd .time F.TMHOP_hop * 65536 + 5) / 10 : Nat)
    let sent := s.rg.out ++ [.sync false source (corr + hop + residence)]
    let st := s.rd .time F.TMSTAT_state
    let now : Int := s.time.ns
    let e := now - (source : Int) - roundDiv (corr + hop) 65536
    (s.rd .time F.TMCFG_src ≠ 1 ∨ s.rnState false ≠ rnMember → ∃ t, exec (.ringSyncFrame source corr residence) s = .next t ∧
      t = { s with rg := { s.rg with out := sent } }) ∧
    (s.rd .time F.TMCFG_src = 1 → s.rnState false = rnMember →
      (st = 0 ∨ st = 1 → s.time.cand = none → ∃ t, exec (.ringSyncFrame source corr residence) s = .next t ∧
        t.rd .time F.TMSTAT_state = 1 ∧ t.time.cand = some now ∧ t.rg.out = sent ∧ t.time.ns = s.time.ns ∧ t.rate = s.rate) ∧
      (∀ a : Int, st = 1 → s.time.cand = some a → (now - a - 10000000).natAbs ≤ 100000 → s.mustStep e = false →
        ∃ t, exec (.ringSyncFrame source corr residence) s = .next t ∧ t.rd .time F.TMSTAT_state = 2 ∧ t.time.ns = s.time.ns ∧
          t.time.expect = some (now + 10000000) ∧
          t.rate = clampInt (-25600000) 25600000 (roundDiv ((10000000 - (now - a)) * 1000000000 * 256) (now - a)) ∧ t.rg.out = sent) ∧
      (∀ a : Int, st = 1 → s.time.cand = some a → 100000 < (now - a - 10000000).natAbs →
        ∃ t, exec (.ringSyncFrame source corr residence) s = .next t ∧ t.rd .time F.TMSTAT_state = 1 ∧ t.time.cand = some now ∧
          t.rate = s.rate ∧ t.rg.out = sent) ∧
      (∀ x : Int, st ∈ [2, 3] → s.time.expect = some x → (now - x).natAbs ≤ s.rd .time F.TMPPSCFG_win * 100 → s.mustStep e = false →
        ∃ t, exec (.ringSyncFrame source corr residence) s = .next t ∧ t.time.missRun = 0 ∧ t.rd .time F.TMSTAT_misses = 0 ∧
          t.rd .time F.TMERR_error = unsigned 32 (clampInt (-2147483648) 2147483647 e) ∧ t.time.expect = some (now + 10000000) ∧ t.time.ns = s.time.ns ∧ t.rg.out = sent) ∧
      (∀ x : Int, st ∈ [2, 3, 4] → s.time.expect = some x → s.rd .time F.TMPPSCFG_win * 100 < (now - x).natAbs →
        ∃ t, exec (.ringSyncFrame source corr residence) s = .next t ∧ t.event .time 4 = true ∧ t.time = s.time ∧ t.rate = s.rate ∧
          t.rd .time F.TMSTAT_state = st ∧ t.rg.out = sent ∧
          t.rd .time F.TMSTAT_extras = min (2 ^ F.TMSTAT_extras.w - 1) (s.rd .time F.TMSTAT_extras + 1)))) ∧
  (∀ (s : State), s.pw.clocked = true →
    let ended : State → RMsg → Nat → Prop := fun t m code =>
      t.rg.cur = none ∧
      (let a := m.word 5 + m.word 6 * 2 ^ 32
       (a ≠ 0 → t.readBytes a 16 = leBytes 4 (code * 2 ^ 28) ++ leBytes 4 (m.word 1) ++ leBytes 8 0 ∧
          ∀ b, b < a ∨ a + 16 ≤ b → t.byte b = s.byte b) ∧
       (a = 0 → t.mem = s.mem)) ∧
      (code = 0 → bitOf (m.word 0) 31 = true → t.event .ring 10 = true) ∧ RegsBut s t (booked .ring) ∧ t.rg.out = s.rg.out
    (∀ m more, s.rg.cur = none → s.rg.msgQ = m :: more →
      (m.invalid = true → ∃ t, exec .ringMessageSend s = .next t ∧ ended t m 4 ∧ t.rg.msgQ = more) ∧
      (m.invalid = false → ∃ t, exec .ringMessageSend s = .next t ∧ t.rg.cur = some { m with seq := s.rg.nextSeq, sends := 1 } ∧
        t.rg.msgQ = more ∧ t.rg.nextSeq = s.rg.nextSeq + 1 ∧ t.rg.out = s.rg.out ++ [s.messageFrame { m with seq := s.rg.nextSeq, sends := 1 }] ∧
        t = { s with rg := t.rg })) ∧
    (∀ (m : RMsg) (code : Fin 3), s.rg.cur = some m → ∃ t, exec (.ringMessageAck m.seq code) s = .next t ∧ ended t m code.val ∧
      t.rg.msgQ = s.rg.msgQ) ∧
    (∀ m, s.rg.cur = some m →
      (3 ≤ m.sends → ∃ t, exec .ringMessageTimeout s = .next t ∧ ended t m 3) ∧
      (m.sends < 3 → ∃ t, exec .ringMessageTimeout s = .next t ∧
        t = { s with rg := { s.rg with cur := some { m with sends := m.sends + 1 }, out := s.rg.out ++ [s.messageFrame { m with sends := m.sends + 1 }] } })) ∧
    (∀ (src dst seq tag : Nat) (data : List Byte) (coord : Option Coord) (bad member portB : Bool),
      (bad = true → ∃ t, exec (.ringMessageFrame src dst seq tag data coord bad member portB) s = .next t ∧ t.event .ring 12 = true ∧
        t.counter 191 = (s.counter 191 + 1) % 2 ^ 48 ∧ t.rg = s.rg ∧ t.mem = s.mem) ∧
      (bad = false → 992 < data.length → ∃ t, exec (.ringMessageFrame src dst seq tag data coord bad member portB) s = .next t ∧
        Queued s t 2 hwReq UnitId.ring.number 2 src dst ∧ t.event .ring 12 = true ∧ t.rg = s.rg ∧ t.mem = s.mem) ∧
      (bad = false → data.length ≤ 992 →
        (dst ≠ s.rd .join F.JNSTAT_device ∨ (s.side portB).opened = false →
          ∃ t, exec (.ringMessageFrame src dst seq tag data coord bad member portB) s = .next t ∧
            t = { s with rg := { s.rg with out := s.rg.out ++ [.forward] } }) ∧
        (dst = s.rd .join F.JNSTAT_device → (s.side portB).opened = true → member = false →
          ∃ t, exec (.ringMessageFrame src dst seq tag data coord bad member portB) s = .next t ∧
            Queued s t 2 hwReq UnitId.ring.number 5 src dst ∧ t.rg.out = s.rg.out ++ [.forward] ∧ t.mem = s.mem) ∧
        (dst = s.rd .join F.JNSTAT_device → (s.side portB).opened = true → member = true → coord = none →
          let h := s.rd .ring F.RNRXHEAD_head
          let base := s.rd .ring F.RNRXBASELO_base * 2 ^ 18 + s.rd .ring F.RNRXBASEHI_base * 2 ^ 32
          (Tbl.look 0 s.rg.seen src = seq + 1 → ∃ t, exec (.ringMessageFrame src dst seq tag data coord bad member portB) s = .next t ∧
            t = { s with rg := { s.rg with out := s.rg.out ++ [.ack src seq 0] } }) ∧
          (Tbl.look 0 s.rg.seen src ≠ seq + 1 → (h + 1) % 256 = s.rd .ring F.RNRXTAIL_tail →
            ∃ t, exec (.ringMessageFrame src dst seq tag data coord bad member portB) s = .next t ∧
              t = { s with rg := { s.rg with out := s.rg.out ++ [.ack src seq 1] } }) ∧
          (Tbl.look 0 s.rg.seen src ≠ seq + 1 → (h + 1) % 256 ≠ s.rd .ring F.RNRXTAIL_tail →
            ∃ t, exec (.ringMessageFrame src dst seq tag data coord bad member portB) s = .next t ∧
              t.rd .ring F.RNRXHEAD_head = (h + 1) % 256 ∧ t.event .ring 9 = true ∧ t.rg.out = s.rg.out ++ [.ack src seq 0] ∧
              Tbl.look 0 t.rg.seen src = seq + 1 ∧
              t.readBytes (base + 1024 * h) (32 + data.length) = leBytes 2 src ++ leBytes 2 data.length ++ leBytes 4 tag ++
                leBytes 8 s.time.ns ++ leBytes 16 0 ++ data ∧
              (∀ a, a < base + 1024 * h ∨ base + 1024 * h + 32 + data.length ≤ a → t.byte a = s.byte a) ∧
              RegsBut s t (fieldKey .ring F.RNRXHEAD_head :: booked .ring))) ∧
        (∀ c, dst = s.rd .join F.JNSTAT_device → (s.side portB).opened = true → member = true → coord = some c → s.coordRuns = false →
          Tbl.look 0 s.rg.seen src ≠ seq + 1 → ∃ t, exec (.ringMessageFrame src dst seq tag data coord bad member portB) s = .next t ∧
            t = { s with rg := { s.rg with out := s.rg.out ++ [.ack src seq 0], seen := t.rg.seen } } ∧
            Tbl.look 0 t.rg.seen src = seq + 1))))

/-! ### Remote accesses and the pair link (17) -/

/-- Remote accesses (R544, R545): a target serves them as requester 10 and replies; the blocks of the ring pod read zero and ignore writes; a
reply or a timeout ends the access of its requester. -/
def Obligations.RemoteAccesses : Prop :=
  ∀ (s : State), s.pw.clocked = true →
    (∀ (src off : Nat) (v : Word), s.onRing = true → off % 4 = 0 → off < 2 ^ 22 →
      (0x200000 ≤ off → off < 0x300000 → ∀ w ∈ [none, some v], ∃ t, exec (.remoteAccessRequest src off w) s = .next t ∧
        t = { s with rg := { s.rg with out := s.rg.out ++ [.reply src 0] } }) ∧
      (off < 0x200000 ∨ 0x300000 ≤ off →
        (∃ u t, exec (.registerWrite .ring off 4 v) s = .next u ∧ exec (.remoteAccessRequest src off (some v)) s = .next t ∧
          t = { u with rg := { u.rg with out := u.rg.out ++ [.reply src 0] } }) ∧
        (∃ t, exec (.remoteAccessRequest src off none) s = .next t ∧ t.mem = s.mem ∧
          t.rg = { s.rg with out := s.rg.out ++ [.reply src (s.busRead 10 off).2] }))) ∧
    (∀ (src off : Nat), s.onRing = true → off % 4 ≠ 0 ∨ 2 ^ 22 ≤ off → ∃ t, exec (.remoteAccessRequest src off none) s = .next t ∧
      Queued s t 2 hwReq UnitId.ring.number 6 src off ∧ t.event .ring 12 = true ∧ t.rg = s.rg ∧ t.mem = s.mem) ∧
    (∀ (q : Requester) (v : Word) (e : Nat × Nat × Nat × Option Nat), s.rg.remote.find? (fun x => x.1 == q.num) = some e →
      let left := s.rg.remote.filter (fun x => x.1 != q.num)
      let none32 : Nat := 0xFFFFFFFF
      (∃ t, exec (.remoteAccessReply q v) s = .next t ∧ t.rg = { s.rg with remote := left } ∧ t.regs = s.regs ∧ t.mem = s.mem ∧
        (q.core? = none → e.2.2.2 = none → t.read.data = v.toNat) ∧
        (∀ c w, q.core? = some c → (s.core c).wait = some w → w.kind = 4 → (t.core c).wait = none ∧
          (w.b = 4 → w.a = 0 → w.rd ≠ 0 → w.rd < 32 → t.greg c w.rd = v.toNat) ∧ (w.b = 0 → ∀ k, t.greg c k = s.greg c k))) ∧
      (∃ t, exec (.remoteAccessTimeout q) s = .next t ∧ t.rg = { s.rg with remote := left } ∧ t.mem = s.mem ∧
        t.rd .ring F.RWSTAT_timeouts = min 65535 (s.rd .ring F.RWSTAT_timeouts + 1) ∧ t.event .ring 11 = true ∧
        Queued s t 1 hwReq UnitId.ring.number 11 e.2.1 e.2.2.1 ∧
        RegsBut s t (fieldKey .ring F.RWSTAT_timeouts :: booked .ring ++ crumbKeys) ∧
        (q.core? = none → e.2.2.2 = none → t.read.data = none32) ∧
        (∀ c w, q.core? = some c → (s.core c).wait = some w → w.kind = 4 → (t.core c).wait = none ∧
          (w.b = 4 → w.a = 0 → w.rd ≠ 0 → w.rd < 32 → t.greg c w.rd = none32) ∧ (w.b = 0 → ∀ k, t.greg c k = s.greg c k))))

/-- The pair link (R462, R549, R551, R553): it comes up in the state its roles give; down, its waiting descriptors complete with code 2; three
heartbeats missed lose the peer, and a secondary whose takeover is not manual takes over; a role written anew on both sides pairs again. -/
def Obligations.PairLink : Prop :=
  ∀ (s : State) (r : Requester) (v : Word), s.pw.clocked = true →
    let role := roleActs (s.rd .pair F.PLCTRL_role)
    let new := roleActs (bits v.toNat 0 2)
    (∀ (lanes : Fin 5) (peer : Fin 3) (serial : Nat), lanes.val ∈ [1, 2, 4] → s.rd .pair F.PLSTAT_lanes = 0 →
      ∃ t, exec (.pairUp lanes peer serial) s = .next t ∧ t.rd .pair F.PLSTAT_lanes = lanes.val ∧ t.rd .pair F.PLSTAT_peer = peer.val ∧
        t.pl.serial = serial ∧ t.event .pair 1 = true ∧ t.mem = s.mem ∧ t.rd .pair F.PLCTRL_role = s.rd .pair F.PLCTRL_role ∧
        (s.pl.lost = false →
          (role = 0 ∨ peer.val = 0 → t.plState = 1) ∧
          (role ≠ 0 → peer.val = role → t.plState = 3 ∧ t.event .pair 3 = true) ∧
          (role ≠ 0 → peer.val ≠ 0 → peer.val ≠ role → t.plState = 2 ∧ (s.plState ≠ 2 → t.pl.paired = true ∧ t.rd .pair F.PLSTAT_missed = 0 ∧
            t.pl.exch = false))) ∧
        (s.pl.lost = true → s.pl.renewed = false ∨ s.pl.peerRenewed = false → t.plState = s.plState)) ∧
    (s.rd .pair F.PLSTAT_lanes ≠ 0 → s.pl.held = [] → ∃ t, exec .pairDown s = .next t ∧ t.rd .pair F.PLSTAT_lanes = 0 ∧
      t.rd .pair F.PLSTAT_peer = 0 ∧ t.plState = (if s.plState = 4 ∨ s.plState = 5 then s.plState else 0) ∧ t.event .pair 2 = true ∧
      t.pl.queue = [] ∧ (s.pl.queue = [] → t.mem = s.mem) ∧ (s.pl.queue ≠ [] → t.event .pair 8 = true) ∧
      (∀ words o c, s.pl.queue = [(words, o, c)] → let a := (words[7]?).getD 0 + (words[8]?).getD 0 * 2 ^ 32
        a ≠ 0 → t.readBytes a 16 = leBytes 4 (2 * 2 ^ 28) ++ leBytes 4 ((words[1]?).getD 0) ++ leBytes 8 0) ∧
      RegsBut s t ([F.PLSTAT_lanes, F.PLSTAT_peer, F.PLSTAT_state].map (fieldKey .pair) ++ booked .pair)) ∧
    (∀ pll : Fin 3, s.pl.held = [] → ∃ t, exec (.linkPllUnlock pll) s = .next t ∧ t.event .time 14 = true ∧
      (pll.val = 0 → t.flag .pcie F.PCLINK_up = false ∧ t.rd .pair F.PLSTAT_lanes = s.rd .pair F.PLSTAT_lanes ∧
        ∀ n < 2, t.flag .sas (F.saUp n) = s.flag .sas (F.saUp n)) ∧
      (pll.val = 1 → (∀ n < 2, t.flag .sas (F.saUp n) = false) ∧
        RegsBut s t ([F.saUp 0, F.saRate 0, F.saUp 1, F.saRate 1].map (fieldKey .sas) ++ booked .sas ++ booked .time)) ∧
      (pll.val = 2 → t.rd .pair F.PLSTAT_lanes = 0 ∧
        RegsBut s t ([F.PLSTAT_lanes, F.PLSTAT_peer, F.PLSTAT_state].map (fieldKey .pair) ++ booked .pair ++ booked .time))) ∧
    (s.rd .pair F.PLSTAT_lanes ≠ 0 → ∃ t, exec .heartbeatSend s = .next t ∧
      t = { s with pl := { s.pl with kicked := false }, rg := { s.rg with out := s.rg.out ++ [.heartbeat s.pl.kicked] } }) ∧
    (s.May r .pair 0x4C →
      (v.toNat % 65536 = 0x5A5A → ∃ t, exec (.plkickWrite r v) s = .next t ∧ t.pl.kicked = true ∧
        t = { s with pl := { s.pl with kicked := t.pl.kicked } }) ∧
      (v.toNat % 65536 ≠ 0x5A5A → exec (.plkickWrite r v) s = .next s)) ∧
    (∀ after : Bool, let n := if after then 1 else s.rd .pair F.PLSTAT_missed + 1
      (s.pl.paired = false ∨ n < 3 → ∃ t, exec (.heartbeatMiss after) s = .next t ∧ t.rd .pair F.PLSTAT_missed = min n 255 ∧
        RegsBut s t [fieldKey .pair F.PLSTAT_missed] ∧ t = { s with regs := t.regs }) ∧
      (s.pl.paired = true → 3 ≤ n → s.rg.gates = [] → s.pl.held = [] → ∃ t, exec (.heartbeatMiss after) s = .next t ∧ t.pl.paired = false ∧
        t.pl.lost = true ∧ t.pl.renewed = false ∧ t.pl.queue = [] ∧
        (s.rd .pair F.PLCTRL_role = 2 → s.flag .pair F.PLCTRL_manual = false → t.plState = 5 ∧ t.event .pair 5 = true) ∧
        (s.rd .pair F.PLCTRL_role ≠ 2 ∨ s.flag .pair F.PLCTRL_manual = true → t.plState = 4 ∧ t.event .pair 4 = true) ∧
        (s.rd .pair F.PLCTRL_role = 1 → s.writable = true → t.rcd.ckpt.isSome = true ∧ (s.tb.jourQ.length < 64 → s.rcd.journal = [] →
          ∃ d ∈ t.tb.jourQ, d.pages = [(journalPage [jSplit false s.firstUnwritten s.pl.serial], Mark.none)])))) ∧
    (s.May r .pair 0x40 →
      (bitOf v.toNat 3 = false → s.pl.lost = false → ∃ t, exec (.plctrlRole r v none) s = .next t ∧
        t.rd .pair F.PLCTRL_role = bits v.toNat 0 2 ∧ t.flag .pair F.PLCTRL_manual = bitOf v.toNat 2 ∧ t.mem = s.mem ∧
        (s.rd .pair F.PLSTAT_lanes = 0 → t.plState = s.plState) ∧
        (s.rd .pair F.PLSTAT_lanes ≠ 0 → let p := s.rd .pair F.PLSTAT_peer
          (new = 0 ∨ p = 0 → t.plState = 1) ∧ (new ≠ 0 → p = new → t.plState = 3 ∧ t.event .pair 3 = true) ∧
          (new ≠ 0 → p ≠ 0 → p ≠ new → t.plState = 2))) ∧
      (∀ p : Fin 3, bitOf v.toNat 3 = false → s.pl.lost = true → s.rd .pair F.PLSTAT_lanes ≠ 0 → new ≠ 0 → p.val ≠ 0 → p.val ≠ new →
        s.plState ≠ 2 → ∃ t, exec (.plctrlRole r v (some p)) s = .next t ∧ t.plState = 2 ∧ t.pl.paired = true ∧ t.pl.lost = false ∧
          t.pl.exch = true ∧ (new = 1 → ∃ ws, t.pl.queue = ([3], 7, some (.zones ws)) :: s.pl.queue ∧
            ws = s.zoneWps.map (fun e => (e.1, Tbl.look 1 s.pl.split e.1 - 1, e.2)))) ∧
      (bitOf v.toNat 3 = true → s.plState = 4 → bits v.toNat 0 2 = 2 → ∃ t, exec (.plctrlTakeover r v) s = .next t ∧ t.plState = 5 ∧
        t.event .pair 5 = true) ∧
      (bitOf v.toNat 3 = true → s.plState ≠ 4 ∨ bits v.toNat 0 2 ≠ 2 → ∃ t, exec (.plctrlTakeover r v) s = .next t ∧
        t.rd .pair F.PLCTRL_role = bits v.toNat 0 2 ∧ RegsBut s t [fieldKey .pair F.PLCTRL_role, fieldKey .pair F.PLCTRL_manual] ∧
        t = { s with regs := t.regs }))

/-- Mirroring (R550, R552): the primary sends its oldest descriptor and writes its status record; the secondary stores data, checks its tags and
writes its receive record; what the stock recorders ask of each other is carried out. -/
def Obligations.Mirroring : Prop :=
  ∀ (s : State), s.pw.clocked = true → s.plState = 2 →
    (∀ words o c more (room peerOk : Bool), s.pl.queue = (words, o, c) :: more → s.rd .pair F.PLCTRL_role = 1 ∨ c.isSome = true →
      s.pl.held = [] →
      let w (i : Nat) : Nat := (words[i]?).getD 0
      let a := w 7 + w 8 * 2 ^ 32
      let ended : State → Nat → Prop := fun t code => t.pl.queue = more ∧
        (a = 0 → t.mem = s.mem) ∧ (a ≠ 0 → t.readBytes a 16 = leBytes 4 (code * 2 ^ 28) ++ leBytes 4 (w 1) ++ leBytes 8 0 ∧
          ∀ b, b < a ∨ a + 16 ≤ b → t.byte b = s.byte b) ∧
        (code = 0 → bitOf (w 0) 31 = true → t.event .pair 6 = true) ∧ (code ≠ 0 → t.event .pair 8 = true) ∧ RegsBut s t (booked .pair)
      (mirrorBad words = true → ∃ t, exec (.mirrorSend room peerOk) s = .next t ∧ ended t 3 ∧ t.rg = s.rg) ∧
      (mirrorBad words = false → w 0 % 16 = 1 → c = none → room = true → s.pl.exch = false →
        ∃ t, exec (.mirrorSend room peerOk) s = .next t ∧ ended t (if peerOk then 0 else 4) ∧
          t.counter 192 = (s.counter 192 + w 4) % 2 ^ 48 ∧ t.rg.out = s.rg.out ++ [.mirror words
            ((List.range (w 4)).map (fun i => s.readLE (w 2 + w 3 * 2 ^ 32 + 4096 * i) 4096))]) ∧
      (mirrorBad words = false → w 0 % 16 = 1 → room = false ∨ s.pl.exch = true → exec (.mirrorSend room peerOk) s = .next s) ∧
      (mirrorBad words = false → w 0 % 16 ≠ 1 → ∃ t, exec (.mirrorSend room peerOk) s = .next t ∧ ended t 0 ∧
        t.rg.out = s.rg.out ++ [match c with | some c => .pairCoord c | none => .mirror words []])) ∧
    (∀ (words pages tags : List Nat) (addr : Nat), s.rd .pair F.PLCTRL_role = 2 → s.mirrorFull = false →
      let w (i : Nat) : Nat := (words[i]?).getD 0
      let h := s.rd .pair F.PLRXHEAD_head
      let base := s.rd .pair F.PLRXBASELO_base * 2 ^ 16 + s.rd .pair F.PLRXBASEHI_base * 2 ^ 32
      let record : List Nat := [w 0, w 1, w 4, w 5, w 6, w 9, w 10, w 11, w 12, w 13, w 14, w 15]
      (w 0 % 16 ≠ 1 → ∃ t, exec (.mirrorReceive words pages tags addr none) s = .next t ∧
        t.rd .pair F.PLRXHEAD_head = (h + 1) % 1024 ∧ t.event .pair 7 = true ∧ t.rg.out = s.rg.out ++ [.mirrorStatus (w 1) 0] ∧
        t.readBytes (base + 64 * h) 48 = record.flatMap (leBytes 4) ∧
        (∀ b, b < base + 64 * h ∨ base + 64 * h + 64 ≤ b → t.byte b = s.byte b) ∧ t.tb = s.tb ∧ t.rcd = s.rcd ∧
        RegsBut s t (fieldKey .pair F.PLRXHEAD_head :: booked .pair)) ∧
      (w 0 % 16 = 1 → pages.length = w 4 → tags.length = w 4 → s.unitsFree addr (w 4) = true → inBurst addr = true →
        ((∀ p ∈ pages.zip tags, crc24 (leBytes 4096 p.1) = p.2 % 2 ^ 24) → base + 64 * h + 64 ≤ 0x3C000000 →
          ∃ t, exec (.mirrorReceive words pages tags addr none) s = .next t ∧ t.rd .pair F.PLRXHEAD_head = (h + 1) % 1024 ∧
            t.rd .pair F.PLRXTAIL_tail = (h + 1) % 1024 ∧ t.event .pair 7 = true ∧ t.rg.out = s.rg.out ++ [.mirrorStatus (w 1) 0] ∧
            t.readBytes (base + 64 * h) 56 = record.flatMap (leBytes 4) ++ leBytes 8 addr ∧
            (∀ i < w 4, t.readBytes (addr + 4096 * i) 4096 = leBytes 4096 ((pages[i]?).getD 0)) ∧
            (s.writable = false → t.tb = s.tb ∧ t.rcd = s.rcd)) ∧
        ((∃ p ∈ pages.zip tags, crc24 (leBytes 4096 p.1) ≠ p.2 % 2 ^ 24) →
          ∃ t, exec (.mirrorReceive words pages tags addr none) s = .next t ∧
            t = { s with rg := { s.rg with out := s.rg.out ++ [.mirrorStatus (w 1) 4] } }))) ∧
    (∀ (words pages tags : List Nat) (addr station : Nat), s.coordRuns = true →
      ∃ t, exec (.mirrorReceive words pages tags addr (some (.record station))) s = .next t ∧ t.rg.recorder = station ∧ t.mem = s.mem)

/-! ### Background calibration, ageing and non-volatile records (16) -/

/-- A gather (R478, R479): the statistics are latched; the corrections of rows 2 to 4 and 6 move one step where their statistic says, and not
beyond their limits. Which way the asymmetry byte moves is a free value of the model. Background steps (R481, R482, R484): a request is
pending until its step ends; a window is granted only to a head that may use it; the end shows its result and corrects the trim of rows 7
and 8; a starved step and a forced window. -/
def Obligations.BackgroundCalibration : Prop :=
  (∀ (s : State) (b : Fin 48) (soft1 soft0 iter : Fin 65536) (beta : Option Int) (phase draw : Option (Nat × Nat)) (adapt : List Byte)
    (dith : Option (Fin 3 × Nat × Nat)), s.pw.clocked = true →
    let u : UnitId := .beam b
    let l := s.rd (.head (b.val / 12)) F.HSEQSTAT_layer
    let g := s.gain (b.val / 12) s.speedBit l (b.val % 12)
    (s.flag u F.BCALCTRL_enable = false → exec (.gatherLatch b soft1 soft0 iter beta phase draw adapt dith) s = .next s) ∧
    (s.flag u F.BCALCTRL_enable = true → ∃ t, exec (.gatherLatch b soft1 soft0 iter beta phase draw adapt dith) s = .next t ∧
      t.rd u F.BCSOFT1_mean = soft1.val ∧ t.rd u F.BCSOFT0_mean = soft0.val ∧ t.rd u F.BCITER_mean = iter.val ∧
      t.rd u F.BCGATH_count = (s.rd u F.BCGATH_count + 1) % 2 ^ 32 ∧
      (∀ x, beta = some x → t.rd u F.BCBETA_beta = unsigned 16 (clampInt (-32768) 32767 x)) ∧
      (beta = none → t.rd u F.BCBETA_beta = s.rd u F.BCBETA_beta ∧ t.lpt = s.lpt) ∧ t.mem = s.mem ∧
      (s.flag u F.BRCTRL_trimhold = true → (∀ i < 16, t.liveByte b i = s.liveByte b i) ∧ t.rd u F.BCDRAWOFS_ofs = s.rd u F.BCDRAWOFS_ofs) ∧
      (s.flag u F.BRCTRL_trimhold = false →
        (s.flag u F.BCALCTRL_dither = false → t.liveByte b 3 = s.liveByte b 3 ∧ t.rd u F.BCDRAWOFS_ofs = s.rd u F.BCDRAWOFS_ofs) ∧
        (s.flag u F.BCALCTRL_dither = true →
          (∀ p n, phase = some (p, n) →
            (n * 101 < p * 100 → s.liveByte b 3 < 127 → t.liveByte b 3 = s.liveByte b 3 + 1) ∧
            (n * 101 < p * 100 → s.liveByte b 3 = 127 → t.liveByte b 3 = 127 ∧ t.event u 10 = true) ∧
            (p * 101 < n * 100 → -127 < s.liveByte b 3 → t.liveByte b 3 = s.liveByte b 3 - 1) ∧
            (p * 100 ≤ n * 101 → n * 100 ≤ p * 101 → t.liveByte b 3 = s.liveByte b 3)) ∧
          (∀ p n, draw = some (p, n) → n * 101 < p * 100 → signed 8 (s.rd u F.BCDRAWOFS_ofs) < 127 →
            t.rd u F.BCDRAWOFS_ofs = unsigned 8 (signed 8 (s.rd u F.BCDRAWOFS_ofs) + 1))) ∧
        (let more : Int := if Config.asymmetryUp then 1 else -1
         (soft0.val < 50 * (soft1.val - soft0.val) → -127 ≤ s.liveByte b 2 + more → s.liveByte b 2 + more ≤ 127 →
            t.liveByte b 2 = s.liveByte b 2 + more) ∧
         (soft0.val < 50 * (soft0.val - soft1.val) → -127 ≤ s.liveByte b 2 - more → s.liveByte b 2 - more ≤ 127 →
            t.liveByte b 2 = s.liveByte b 2 - more) ∧
         (50 * (soft1.val - soft0.val) ≤ soft0.val → 50 * (soft0.val - soft1.val) ≤ soft0.val → t.liveByte b 2 = s.liveByte b 2)) ∧
        (s.flag u F.BCALCTRL_adapt = false ∨ adapt.length ≠ 7 → ∀ i < 11, 4 ≤ i → t.liveByte b i = s.liveByte b i) ∧
        (s.flag u F.BCALCTRL_adapt = true → adapt.length = 7 → ∀ i < 7, t.liveByte b (4 + i) = sbyte ((adapt[i]?).getD 0))) ∧
      (∀ x, beta = some x →
        (16 < x → 64 < g → t.gain (b.val / 12) s.speedBit l (b.val % 12) = g - 1) ∧
        (16 < x → g = 64 → t.lpt = s.lpt ∧ t.event u 10 = true) ∧
        (x < -16 → 64 ≤ g + 1 → g < 255 → t.gain (b.val / 12) s.speedBit l (b.val % 12) = g + 1) ∧
        (x < -16 → g = 255 → t.lpt = s.lpt ∧ t.event u 10 = true) ∧
        (-16 ≤ x → x ≤ 16 → t.lpt = s.lpt)))) ∧
  (∀ (s : State) (r : Requester) (h : Fin 4) (v : Word), s.pw.clocked = true →
    let u : UnitId := .head h
    let k := bits v.toNat 24 3
    (s.May r u 0x10C →
      (s.flag u F.HBGREQ_go = true → ∃ t, exec (.hbgreqGo r h v) s = .next t ∧
        Queued s t 0 r.num u.number 3 (u.base + 0x10C) v.toNat ∧ RegsBut s t crumbKeys ∧ CrumbOnly s t) ∧
      (s.flag u F.HBGREQ_go = false → bitOf v.toNat 31 = true → 1 ≤ k → k ≤ 3 → ∃ t, exec (.hbgreqGo r h v) s = .next t ∧
        t.flag u F.HBGREQ_go = true ∧ t.rd u F.HBGREQ_kind = k ∧ t.rd u F.HBGREQ_slot = bits v.toNat 16 7 ∧
        t.rd u F.HBGREQ_mode = bits v.toNat 12 3 ∧ t.rd u F.HBGREQ_amp = bits v.toNat 0 8 ∧
        RegsBut s t ([F.HBGREQ_go, F.HBGREQ_kind, F.HBGREQ_slot, F.HBGREQ_mode, F.HBGREQ_amp].map (fieldKey u)) ∧
        t = { s with regs := t.regs }) ∧
      (s.flag u F.HBGREQ_go = false → bitOf v.toNat 31 = true → k = 0 ∨ 4 ≤ k → s.bg.held = [] → ∃ t,
        exec (.hbgreqGo r h v) s = .next t ∧ t.flag u F.HBGREQ_go = false ∧ t.rd u F.HBGRES_result = 3 ∧ t.event u 15 = true)) ∧
    (∀ pos : Nat,
      (s.flag u F.HBGREQ_go = false ∨ (s.hState h ≠ hLocked ∧ s.hState h ≠ hHolding) ∨ (∃ t ∈ s.tb.sealed, t.pos = pos ∧ h.val ∈ t.heads) →
        exec (.bgStepGrant h pos) s = .next s) ∧
      (s.bgMay h pos = true → s.rd u F.HBGREQ_kind ≠ 3 → ∃ t, exec (.bgStepGrant h pos) s = .next t ∧
        Tbl.look 0 t.bg.running h = pos + 1 ∧ t = { s with bg := { s.bg with running := t.bg.running } }) ∧
      (s.bgMay h pos = true → s.rd u F.HBGREQ_kind = 3 → s.rd u F.HBGREQ_slot < 96 → (s.slot (s.rd u F.HBGREQ_slot)).tune = none →
        ∃ t, exec (.bgStepGrant h pos) s = .next t ∧ Tbl.look 0 t.bg.running h = pos + 1 ∧
          t.rd (.slot (s.rd u F.HBGREQ_slot)) F.SLTUNE_mode = s.rd u F.HBGREQ_mode % 8)) ∧
    (∀ p n : Fin 65536, Tbl.look 0 s.bg.running h ≠ 0 → s.bg.held = [] →
      (s.rd u F.HBGREQ_kind ≠ 3 → ∃ t, exec (.bgStepEnd h true p n) s = .next t ∧ t.rd u F.HBGRES_result = 2 ∧
        t.flag u F.HBGREQ_go = false ∧ t.event u 15 = true ∧ Tbl.look 0 t.bg.running h = 0 ∧
        RegsBut s t (fieldKey u F.HBGRES_result :: fieldKey u F.HBGREQ_go :: booked u)) ∧
      (∀ f, (s.rd u F.HBGREQ_kind = 1 ∧ f = F.HCALFOC_trim) ∨ (s.rd u F.HBGREQ_kind = 2 ∧ f = F.HCALTLT_trim) →
        let old := signed f.w (s.rd u f)
        ∃ t, exec (.bgStepEnd h false p n) s = .next t ∧ t.rd u F.HBGRESP_amp = p.val ∧ t.rd u F.HBGRESN_amp = n.val ∧
          t.flag u F.HBGREQ_go = false ∧ t.event u 15 = true ∧ Tbl.look 0 t.bg.running h = 0 ∧
          t.rd u F.HBGRES_steps = min 65535 (s.rd u F.HBGRES_steps + 1) ∧
          (100 * (p.val - n.val) ≤ p.val + n.val → 100 * (n.val - p.val) ≤ p.val + n.val →
            t.rd u f = s.rd u f ∧ t.rd u F.HBGRES_result = 1) ∧
          (p.val + n.val < 100 * (p.val - n.val) → -128 ≤ old → old < 127 →
            t.rd u f = unsigned f.w (old + 1) ∧ t.rd u F.HBGRES_result = 1) ∧
          (p.val + n.val < 100 * (p.val - n.val) → old = 127 → t.rd u f = s.rd u f ∧ t.rd u F.HBGRES_result = 3) ∧
          (p.val + n.val < 100 * (n.val - p.val) → -127 < old → old ≤ 128 →
            t.rd u f = unsigned f.w (old - 1) ∧ t.rd u F.HBGRES_result = 1)) ∧
      (∀ fault : Bool, ∀ m, s.rd u F.HBGREQ_kind = 3 → s.rd u F.HBGREQ_slot < 96 → (s.slot (s.rd u F.HBGREQ_slot)).tune = some m →
        ∃ t, exec (.bgStepEnd h fault p n) s = .next t ∧ t.rd u F.HBGRES_result = (if fault then 2 else 1) ∧ t.event u 15 = true ∧
          (t.slot (s.rd u F.HBGREQ_slot)).tune = some { m with ending := true } ∧ t.flag u F.HBGREQ_go = false)) ∧
    (s.flag u F.HBGREQ_go = true → ∃ t, exec (.keepStarved h) s = .next t ∧ t.event .keeper 20 = true ∧ RegsBut s t (booked .keeper) ∧
      RegsOnly s t) ∧
    (s.May r .media 0x60 →
      (bitOf v.toNat 31 = false → exec (.mbgskipWrite r v) s = .next s) ∧
      (bitOf v.toNat 31 = true → s.rp.trays = [] ∨ s.tb.sealed ≠ [] ∨ s.tb.writing.isSome = true → ∃ t,
        exec (.mbgskipWrite r v) s = .next t ∧ t.flag .media F.MBGSKIP_skip = true ∧ RegsBut s t [fieldKey .media F.MBGSKIP_skip] ∧
        t = { s with regs := t.regs }) ∧
      (bitOf v.toNat 31 = true → s.rp.trays ≠ [] → s.tb.sealed = [] → s.tb.writing = none → ∃ t, exec (.mbgskipWrite r v) s = .next t ∧
        t.rd .media F.MBGSKIP_count = min 65535 (s.rd .media F.MBGSKIP_count + 1) ∧ t.event .media 7 = true ∧
        t.flag .media F.MBGSKIP_skip = false ∧ RegsOnly s t)))

/-- Ageing (R487 to R490): a measurement enters the ledger, the first as the baseline; what R489 re-plans from it; a candidate's gain is
raised once, and the beam retired the second time within an hour or at health 0. -/
def Obligations.AgeingLedger : Prop :=
  ∀ (s : State) (e : Fin 305) (slope : Bool) (v : Word) (lpmax : Option (Fin 256)), s.pw.clocked = true →
    let a := s.age e
    let base := if a.count = 0 then v.toNat else a.base
    let named : State → Prop := fun t => t.event .keeper 23 = true ∧ Queued s t 3 0 UnitId.keeper.number 23 e.val 0
    (48 ≤ e.val → ∃ t, exec (.ageingMeasurement e slope v lpmax) s = .next t ∧
      t.age e = ⟨base, v.toNat, s.recs.hours, healthOf e slope base v.toNat, a.flags, min 65535 (a.count + 1)⟩ ∧
      (∀ d, d ≠ e.val → t.age d = s.age d) ∧ t.mem = s.mem ∧ t.tb = s.tb ∧
      (177 ≤ e.val → t = { s with recs := { s.recs with ages := t.recs.ages } } ∧
        (base < 100000 → (t.age e).health = min 100 (100 * (100000 - v.toNat) / (100000 - base)))) ∧
      (e.val = 68 → (3 * base < 2 * v.toNat → named t) ∧ (2 * v.toNat ≤ 3 * base → t.crumbs = s.crumbs ∧ t.regs = s.regs)) ∧
      (69 ≤ e.val → e.val < 169 →
        (v.toNat < 25 → Tbl.look 0 s.recs.planned e = 0 → named t ∧
          t.rd .thermal F.THLIM_throttle = max 90 (min 100 (s.rd .thermal F.THLIM_throttle) - 5)) ∧
        (25 ≤ v.toNat → t.regs = s.regs ∧ Tbl.look 0 t.recs.planned e = 0)) ∧
      (169 ≤ e.val → e.val < 177 → v.toNat < 24 → Tbl.look 0 s.recs.planned e = 0 → named t ∧ Tbl.look 0 t.recs.planned e = 1) ∧
      (∀ n, 52 ≤ e.val → e.val < 68 → Tbl.look 0 s.recs.planned e = 0 → beyondHalfDb v.toNat base = true →
        s.slotOfVcm (e.val - 52) = some n → v.toNat ≠ 0 → named t ∧
        (t.slot n).cpend = (s.slot n).cpend ++
          (List.range 16).map (fun r => (16 * r + 15, min 0x7FFFFF (0x400000 * base / v.toNat))))) ∧
    (e.val < 48 → ∃ t, exec (.ageingMeasurement e slope v lpmax) s = .next t ∧ (t.age e).count = min 65535 (a.count + 1) ∧ t.mem = s.mem ∧
      (Tbl.look (0, 0, 255) t.recs.halves (2 * e.val + b2n slope)).2.1 = v.toNat ∧
      (∀ d, d ≠ e.val → t.age d = s.age d) ∧
      (∀ x : Fin 256, lpmax = some x → x.val < s.rd (.laser (e.val / 12)) F.LPMAX_max → named t ∧
        t.rd (.laser (e.val / 12)) F.LPMAX_max = x.val) ∧
      (lpmax = none → t.rd (.laser (e.val / 12)) F.LPMAX_max = s.rd (.laser (e.val / 12)) F.LPMAX_max) ∧
      (s.flag (.beam e) F.BWSTAT_candidate = true →
        let last := Tbl.look 0 s.recs.planned (512 + e.val)
        (last = 0 ∨ last + 3600000000000 ≤ s.time.ns → t.flag (.beam e) F.BWSTAT_candidate = false ∧
          ∀ i < 32, t.gain (e.val / 12) (i / 16) (i % 16) (e.val % 12) =
            min 255 (s.gain (e.val / 12) (i / 16) (i % 16) (e.val % 12) + 4)) ∧
        (last ≠ 0 → s.time.ns < last + 3600000000000 → s.beamGone e = false →
          (s.mayRetire e = true → e.val ∈ t.tb.retiring ∧ t.flag (.beam e) F.BWCTRL_retire = true ∧ t.event .keeper 24 = true ∧
            bitOf (t.age e).flags 0 = true) ∧
          (s.mayRetire e = false → t.tb = s.tb ∧ t.event (.beam e) 5 = true ∧ bitOf (t.age e).flags 1 = true))) ∧
      (s.flag (.beam e) F.BWSTAT_candidate = false → s.beamGone e = false → s.mayRetire e = true →
        (((s.measure e slope v.toNat).age e).health = 0 → e.val ∈ t.tb.retiring ∧ t.event .keeper 24 = true) ∧
        (((s.measure e slope v.toNat).age e).health ≠ 0 → t.tb = s.tb)))

/-- The NOR unit (R560, R562): NORCMD is taken only from the loader's code in the keeper, its checks give results 1 and 3, and a command in
progress refuses another; the end programs or erases the bytes and nothing else. Record updates (R493 to R495): a request waits its turn,
one already waiting adds nothing; an update goes to the slot that is not current, with the next generation, and ends with the crust word
alone; a failed operation ends it with KEEP_RECFAIL and it is tried once more. -/
def Obligations.NorAndRecords : Prop :=
  (∀ (s : State) (r : Requester) (pc : Word) (len : Fin 512), s.pw.clocked = true →
    let off := UnitId.nor.base + 0x48
    let a := s.rd .nor F.NORADDR_offset
    let inside := 0x70000 ≤ pc.toNat ∧ pc.toNat ≤ 0x7FFFF
    (∀ i ∈ [(Instr.norProgram r pc len, 256 * len.val + 1), (.norErase r pc, 2)],
      (mayWrite r .nor 0x48 = false → ∃ t, exec i.1 s = .next t ∧ t.event .nor 0 = true ∧ t.event .nor 2 = true ∧
        Queued s t 0 r.num UnitId.nor.number 3 off i.2 ∧ CrumbOnly s t) ∧
      (mayWrite r .nor 0x48 = true → r ≠ .keeper ∨ ¬ inside → ∃ t, exec i.1 s = .next t ∧ t.event .nor 2 = true ∧
        Queued s t 0 r.num UnitId.nor.number 3 off i.2 ∧ RegsBut s t (booked .nor ++ crumbKeys) ∧ CrumbOnly s t) ∧
      (r = .keeper → inside → s.flag .nor F.NORSTAT_busy = true → ∃ t, exec i.1 s = .next t ∧
        Queued s t 0 r.num UnitId.nor.number 3 off i.2 ∧ RegsBut s t crumbKeys ∧ CrumbOnly s t) ∧
      (r = .keeper → inside → s.flag .nor F.NORSTAT_busy = false → a < 0x10000 → ∃ t, exec i.1 s = .next t ∧
        t.rd .nor F.NORSTAT_result = 1 ∧ t.event .nor 2 = true ∧ RegsBut s t (fieldKey .nor F.NORSTAT_result :: booked .nor) ∧ RegsOnly s t)) ∧
    (r = .keeper → inside → s.flag .nor F.NORSTAT_busy = false → 0x10000 ≤ a →
      (len.val = 0 ∨ 256 < len.val ∨ 256 < a % 256 + len.val → ∃ t, exec (.norProgram r pc len) s = .next t ∧
        t.rd .nor F.NORSTAT_result = 3 ∧ t.event .nor 2 = true ∧ RegsOnly s t) ∧
      (1 ≤ len.val → a % 256 + len.val ≤ 256 → ∃ t, exec (.norProgram r pc len) s = .next t ∧ t.flag .nor F.NORSTAT_busy = true ∧
        t.recs.nor = some ⟨false, a, s.readBytes (0x4000200000 + 4 * s.rd .nor F.NORSRC_addr) len.val, false⟩ ∧
        RegsBut s t [fieldKey .nor F.NORSTAT_busy] ∧ t = { s with regs := t.regs, recs := { s.recs with nor := t.recs.nor } }) ∧
      (a % 65536 ≠ 0 → ∃ t, exec (.norErase r pc) s = .next t ∧ t.rd .nor F.NORSTAT_result = 3 ∧ t.event .nor 2 = true ∧ RegsOnly s t) ∧
      (a % 65536 = 0 → ∃ t, exec (.norErase r pc) s = .next t ∧ t.flag .nor F.NORSTAT_busy = true ∧
        t.recs.nor = some ⟨true, a, [], false⟩ ∧ RegsBut s t [fieldKey .nor F.NORSTAT_busy] ∧
        t = { s with regs := t.regs, recs := { s.recs with nor := t.recs.nor } })) ∧
    (∀ o : NorOp, s.recs.nor = some o → o.rcd = false → s.recs.queue = [] →
      let n := if o.erase then 65536 else o.data.length
      (∃ t, exec (.norCommandDone false) s = .next t ∧ t.recs = { s.recs with nor := none } ∧ t.flag .nor F.NORSTAT_busy = false ∧
        t.rd .nor F.NORSTAT_result = 0 ∧ t.event .nor 1 = true ∧
        (o.erase = true → ∀ i < 65536, t.byte (norAddr (o.addr + i)) = 0xFF) ∧
        (o.erase = false → ∀ i < o.data.length, s.byte (norAddr (o.addr + i)) = 0xFF →
          t.byte (norAddr (o.addr + i)) = (o.data[i]?).getD 0) ∧
        (∀ x, x < norAddr o.addr ∨ norAddr o.addr + n ≤ x → t.byte x = s.byte x) ∧
        RegsBut s t (fieldKey .nor F.NORSTAT_busy :: fieldKey .nor F.NORSTAT_result :: booked .nor)) ∧
      (∃ t, exec (.norCommandDone true) s = .next t ∧ t.recs = { s.recs with nor := none } ∧ t.flag .nor F.NORSTAT_busy = false ∧
        t.rd .nor F.NORSTAT_result = 4 ∧ t.rd .nor F.EVRAW = s.rd .nor F.EVRAW ∧
        (∀ x, x < norAddr o.addr ∨ norAddr o.addr + n ≤ x → t.byte x = s.byte x)))) ∧
  (∀ (s : State), s.pw.clocked = true →
    (∀ k : Fin 10,
      let started : State → Bool → Prop := fun t again => ∃ j, t.recs.job = some j ∧ j.kind = k.val ∧ j.again = again ∧
        (s.recCurrent k.val = none → j.slot = 0 ∧ j.gen = 1) ∧
        (∀ x g vs, s.recCurrent k.val = some (x, g, vs) → j.gen = g + 1 ∧ j.slot = (if x = 0 then 1 else 0)) ∧
        (s.worn k.val (s.recSector k.val j.slot) = false → j.sector = s.recSector k.val j.slot) ∧
        j.ops = recOps k.val j.sector j.gen j.vals ∧ j.ops.head? = some ⟨true, sectorOff j.sector, [], true⟩ ∧
        j.ops.getLast? = some ⟨false, sectorOff j.sector + (recBody k.val j.gen j.vals).length, leBytes 4 crustWord, true⟩ ∧
        t.recs.nor = j.ops.head? ∧ t.flag .nor F.NORSTAT_busy = true ∧ t.mem = s.mem ∧ RegsBut s t [fieldKey .nor F.NORSTAT_busy]
      (k.val ∈ s.recs.queue → exec (.recordWriteRequest k) s = .next s) ∧
      (k.val ∉ s.recs.queue → s.recs.job.isSome = true ∨ s.recs.nor.isSome = true → ∃ t, exec (.recordWriteRequest k) s = .next t ∧
        t = { s with recs := { s.recs with queue := s.recs.queue ++ [k.val] } }) ∧
      (s.recs.queue = [] → s.recs.job = none → s.recs.nor = none → ∃ t, exec (.recordWriteRequest k) s = .next t ∧ started t false ∧
        t.recs.queue = []) ∧
      (∀ more, s.recs.retry = k.val :: more → s.recs.job = none → s.recs.nor = none → ∃ t, exec .recordRetry s = .next t ∧
        started t true ∧ t.recs.retry = more)) ∧
    (∀ (o : NorOp) (j : RecJob), s.recs.nor = some o → o.rcd = true → s.recs.job = some j → s.recs.queue = [] →
      (∀ o1 o2 more, j.ops = o1 :: o2 :: more → ∃ t, exec (.norCommandDone false) s = .next t ∧
        t.recs.job = some { j with ops := o2 :: more } ∧ t.recs.nor = some o2 ∧ t.flag .nor F.NORSTAT_busy = true ∧
        (o.erase = true → 0x7800000 ≤ o.addr → let e := 177 + (o.addr - 0x7800000) / 65536
          (t.age e).latest = (s.age e).latest + 1)) ∧
      (∀ o1, j.ops = [o1] → o.erase = false → s.recSector j.kind j.slot = j.sector → ∃ t, exec (.norCommandDone false) s = .next t ∧
        t.recs.job = none ∧ t.recs.nor = none ∧ Tbl.look (0, []) t.recs.slots (2 * j.kind + j.slot) = (j.gen, j.vals) ∧
        t.flag .nor F.NORSTAT_busy = false) ∧
      (∃ t, exec (.norCommandDone true) s = .next t ∧ t.recs.job = none ∧ t.recs.nor = none ∧ t.event .keeper 21 = true ∧
        t.recs.retry = (if j.again then s.recs.retry else s.recs.retry ++ [j.kind]) ∧ t.recs.slots = s.recs.slots ∧
        t.rd .nor F.NORSTAT_result = 4)))

/-! ### Firmware update (18) -/

/-- Firmware Image Download, Firmware Commit and WRITE BUFFER (R563 to R568, R570): a header opens a session; a block with its CRC is
programmed, one with another or a second copy is refused; the check passes only a complete session with a good image, and arms activation. -/
def Obligations.FirmwareDownloads : Prop :=
  ∀ (s : State) (slot : Nat) (c : HCmd), s.Front slot c →
    let does (i : Instr) (P : State → Prop) : Prop := ∃ t, exec i s = .next t ∧ P t
    let answers (i : Instr) (x : Stat) : Prop := does i (fun t => Replied s t slot c x)
    let off := 4 * c.dword 11
    let len := 4 * (c.dword 10 + 1)
    let act := bits (c.dword 10) 3 3
    let fs := bits (c.dword 10) 0 3
    (c.queue = 0 → c.opc = 0x11 →
      (off % 4096 ≠ 0 ∨ len % 4096 ≠ 0 ∨ 16777216 < len ∨ c.dlen < len → answers .firmwareImageDownload .invalidField) ∧
      (off = 0 → len = 8192 → 8192 ≤ c.dlen → (∀ x, s.fw.session = some x → x.sas = false) →
        Tbl.look 0 s.fw.heads 0 = 0 → Tbl.look 0 s.fw.heads 1 = 0 → let h := s.readBytes c.dbuf 8192
        (pkgOk h = true → does .firmwareImageDownload (fun t => Replied s t slot c .success ∧ t.fw.session = some (pkgSession false h) ∧
          t.fw.passed = false ∧ ∀ a, 0x4100000000 ≤ a → t.byte a = s.byte a)) ∧
        (pkgOk h = false → does .firmwareImageDownload (fun t => Replied s t slot c .invalidField ∧ t.fw.session = none))) ∧
      (off % 4096 = 0 → 8192 ≤ off → len = 4096 → 4096 ≤ c.dlen → let i := off / 4096 - 2
        let bs := s.readBytes c.dbuf 4096
        (s.fw.session = none → answers .firmwareImageDownload .invalidField) ∧
        (∀ x, s.fw.session = some x →
          (x.sas = true → does .firmwareImageDownload (fun t => Replied s t slot c .busy ∧ t.fw = s.fw)) ∧
          (x.sas = false → x.crcs[i]? ≠ some (crc32c bs) → does .firmwareImageDownload (fun t => Replied s t slot c .invalidField ∧
            t.fw = s.fw)) ∧
          (x.sas = false → x.crcs[i]? = some (crc32c bs) → i ∈ x.blocks → answers .firmwareImageDownload .overlapRange) ∧
          (x.sas = false → x.crcs[i]? = some (crc32c bs) → i ∉ x.blocks → x.target ≠ 0xFE → i / 16 ∉ x.sectors →
            does .firmwareImageDownload (fun t => Replied s t slot c .success ∧
              (∀ k < 4096, t.byte (norAddr (imageOff x.target + 4096 * i + k)) = (bs[k]?).getD 0) ∧
              t.fw.session = some { x with blocks := i :: x.blocks, sectors := i / 16 :: x.sectors } ∧
              ∀ a, 0x4100000000 ≤ a → (a < norAddr (imageOff x.target + 65536 * (i / 16)) ∨
                norAddr (imageOff x.target + 65536 * (i / 16)) + 65536 ≤ a) → t.byte a = s.byte a))))) ∧
    (c.queue = 0 → c.opc = 0x10 →
      (3 ≤ act → answers .firmwareCommit .invalidField) ∧ (act < 3 → 2 ≤ fs → answers .firmwareCommit .invalidSlot) ∧
      (act < 2 → fs < 2 → s.fw.session = none → answers .firmwareCommit .invalidImage) ∧
      (act < 3 → fs < 2 → ∀ x, s.fw.session = some x →
        (x.complete = false → does .firmwareCommit (fun t => Replied s t slot c .invalidImage ∧ t.fw = s.fw)) ∧
        (x.complete = true → x.target ≠ 0xFE → s.imgFailure x.target ≠ 0 → does .firmwareCommit (fun t =>
          Replied s t slot c .invalidImage ∧ t.event .keeper 25 = true ∧ t.fw = s.fw)) ∧
        (x.complete = true → x.target ≠ 0xFE → s.imgFailure x.target = 0 → does .firmwareCommit (fun t =>
          Replied s t slot c .success ∧ t.event .keeper 26 = true ∧ t.fw.session = none ∧ t.fw.passed = true ∧
          t.fw.armed = (s.fw.armed || decide (act ≠ 0)) ∧ t.mem = s.mem)) ∧
        (x.complete = true → x.target = 0xFE → s.enrolOk x.enrolBytes = true → does .firmwareCommit (fun t =>
          Replied s t slot c .success ∧ t.event .keeper 27 = true ∧ t.rd .key F.KEYMASK_mask = 0xFFF ∧ t.fw.armed = s.fw.armed ∧
          (∀ i < 12, t.rd .key (F.KEYSLOT i) = (if bitOf (s.rd .key F.KEYMASK_mask) i then s.rd .key (F.KEYSLOT i)
            else keyWord (sha384 ((x.enrolBytes.drop 0x20).take 97)) i)))) ∧
        (x.complete = true → x.target = 0xFE → s.enrolOk x.enrolBytes = false → does .firmwareCommit (fun t =>
          Replied s t slot c .invalidImage ∧ t.event .keeper 25 = true ∧
          ∀ i < 12, t.rd .key (F.KEYSLOT i) = s.rd .key (F.KEYSLOT i))))) ∧
    (∀ p : Fin 2, c.queue = 65 + p.val → c.opc = 0x3B → c.cdbOk = true → c.poolIndex.isSome = true →
      let mode := c.cb 1 % 32
      (mode ∉ [0x0E, 0x0F] → answers (.writeBuffer p) .invalidField) ∧
      (mode = 0x0F → c.be 6 3 = 0 → s.fw.passed = true → does (.writeBuffer p) (fun t => Replied s t slot c .success ∧ t.fw.going = true ∧
        Drain.activation ∈ t.rcd.drains)) ∧
      (mode = 0x0F → c.be 6 3 ≠ 0 ∨ s.fw.passed = false → does (.writeBuffer p) (fun t => Replied s t slot c .invalidField ∧ t.fw = s.fw)) ∧
      (mode = 0x0E → c.cb 2 ≠ 0 ∨ c.be 3 3 % 4096 ≠ 0 ∨ c.be 6 3 % 4096 ≠ 0 →
        does (.writeBuffer p) (fun t => (∃ x ∈ [Stat.invalidField, .invalidParam], Replied s t slot c x) ∧ t.fw = s.fw)) ∧
      (∀ x, mode = 0x0E → c.cb 2 = 0 → c.be 3 3 % 4096 = 0 → 8192 ≤ c.be 3 3 → c.be 6 3 = 4096 → 4096 ≤ c.dlen →
        s.fw.session = some x → x.sas = true → let i := c.be 3 3 / 4096 - 2
        let bs := s.readBytes c.dbuf 4096
        (x.crcs[i]? ≠ some (crc32c bs) → does (.writeBuffer p) (fun t => Replied s t slot c .invalidParam)) ∧
        (x.crcs[i]? = some (crc32c bs) → i ∉ x.blocks → x.target ≠ 0xFE → i / 16 ∉ x.sectors → x.blocks.length + 1 < x.crcs.length →
          does (.writeBuffer p) (fun t => Replied s t slot c .success ∧
            ∀ k < 4096, t.byte (norAddr (imageOff x.target + 4096 * i + k)) = (bs[k]?).getD 0))))

/-- Activation and the loader's services (R560, R561, R568, R572): with its drain done the device resets itself with cause 5 and starts the
new firmware; the loader resets the device for a normal start; the erase and program services check their operands and what they left. -/
def Obligations.ActivationAndLoaderServices : Prop :=
  ∀ (s : State) (err : Bool), s.pw.clocked = true →
    let off := s.greg 8 4
    let len := s.greg 8 6
    let data := s.readBytes (sramBase 8 + s.greg 8 5 % 0x80000) len
    let ended : State → Nat → Prop := fun t result => t.greg 8 2 = result ∧ (t.core 8).pc = Tbl.look 0 (s.core 8).g 31 ∧
      (∀ r, r ≠ 2 → t.greg 8 r = s.greg 8 r) ∧ (∀ d, d ≠ 8 → t.core d = s.core d) ∧
      (result = 0 → t.crumbs = s.crumbs ∧ t.regs = s.regs) ∧
      (result ≠ 0 → Queued s t 3 0 UnitId.keeper.number (0x40 + result) off 0)
    let toReset : State → Prop := fun t => t.pw.clocked = false ∧ t.rd .power F.PWCAUSE_cause = 2 ^ 5 ∧ t.fw.activated = true ∧
      t.medium.isSome = s.medium.isSome ∧ t.time.ns = s.time.ns ∧ (s.recs.nor = none → ∀ a, 0x4100000000 ≤ a → t.byte a = s.byte a)
    (s.fw.going = true → Drain.activation ∉ s.rcd.drains → s.drained = true → s.rcd.ckpt = none → s.rcd.ckptWanted = false →
      s.rcd.cmDue = false → s.recs.queue = [] → s.recs.job = none → ∃ t, exec .activationDrainDone s = .next t ∧ toReset t) ∧
    (s.fw.going = false ∨ Drain.activation ∈ s.rcd.drains ∨ s.drained = false ∨ s.rcd.ckpt.isSome = true ∨ s.recs.job.isSome = true →
      exec .activationDrainDone s = .next s) ∧
    (s.fw.loaderReset = true → ∃ t, exec .loaderActivationReset s = .next t ∧ toReset t ∧ t.rd .power F.PWMODE_mode = 0 ∧
      t.rd .power F.PWSKIP_skip = 0) ∧
    (s.keeperRuns = true →
      (off < 0x10000 ∨ off % 65536 ≠ 0 ∨ 0x8000000 ≤ off → ∃ t, exec (.loaderEraseCall err) s = .next t ∧ ended t 2 ∧ t.mem = s.mem) ∧
      (0x10000 ≤ off → off % 65536 = 0 → off < 0x8000000 → ∃ t, exec (.loaderEraseCall err) s = .next t ∧
        (∀ a, a < norAddr off ∨ norAddr off + 65536 ≤ a → t.byte a = s.byte a) ∧
        ((∀ i < 65536, t.byte (norAddr off + i) = 0xFF) → ended t 0) ∧
        (∀ i < 65536, t.byte (norAddr off + i) ≠ 0xFF → ended t 4) ∧
        (err = false → ∀ i < 65536, t.byte (norAddr off + i) = 0xFF)) ∧
      (off < 0x10000 ∨ len = 0 ∨ 256 < len ∨ 256 < off % 256 + len ∨ 0x8000000 ≤ off →
        ∃ t, exec (.loaderProgramCall err) s = .next t ∧ ended t 2 ∧ t.mem = s.mem) ∧
      (0x10000 ≤ off → off < 0x8000000 → 1 ≤ len → off % 256 + len ≤ 256 →
        (∀ i < len, s.byte (norAddr off + i) ≠ 0xFF → ∃ t, exec (.loaderProgramCall err) s = .next t ∧ ended t 1 ∧ t.mem = s.mem) ∧
        ((∀ i < len, s.byte (norAddr off + i) = 0xFF) → ∃ t, exec (.loaderProgramCall err) s = .next t ∧
          (∀ a, a < norAddr off ∨ norAddr off + len ≤ a → t.byte a = s.byte a) ∧
          (t.readBytes (norAddr off) len = data → ended t 0) ∧ (t.readBytes (norAddr off) len ≠ data → ended t 3) ∧
          (err = false → t.readBytes (norAddr off) len = data))))

/-! ### Power, start and the environment (16, 17, 19) -/

/-- Device resets (R462, R463, R502 to R504, R515, R597): each sets its cause and stops the islands; every register field but those R503 keeps
is at its reset value; NOR and time stay. VAUX down loses time and the kept fields but for the one-time words and addresses; VAUX up
latches the straps. -/
def Obligations.DeviceResets : Prop :=
  ∀ (s : State) (r : Requester) (v : Word),
    let resetTo : State → Nat → List Nat → Prop := fun t cause but =>
      t.pw.clocked = false ∧ t.pw.vaux = s.pw.vaux ∧ (s.pw.clocked = true → t.rd .power F.PWCAUSE_cause = 2 ^ cause) ∧
      bitOf (t.rd .power F.PWCAUSE_cause) cause = true ∧
      (∀ u f, fieldKey u f ∉ keptFields.map (fun p => fieldKey p.1 p.2) → t.rd u f = f.rst) ∧
      (∀ p ∈ keptFields, fieldKey p.1 p.2 ∉ fieldKey .power F.PWCAUSE_cause :: but → t.rd p.1 p.2 = s.rd p.1 p.2) ∧
      t.time.ns = s.time.ns ∧ t.micro = s.micro ∧ t.coefs = s.coefs ∧ t.pending = s.pending ∧ t.crumbs.queue = [] ∧ t.hc.slots = [] ∧
      (s.tb.writing = none → t.medium = s.medium) ∧ (s.recs.nor = none → ∀ a, 0x4000000000 ≤ a → t.byte a = s.byte a)
    (s.pw.vaux = true → (∃ t, exec .resetNLow s = .next t ∧ resetTo t 1 []) ∧ (∃ t, exec .supplyFall s = .next t ∧ resetTo t 2 []) ∧
      (∃ t, exec .referenceFault s = .next t ∧ resetTo t 3 [fieldKey .time F.TMSTAT_refbad] ∧ t.flag .time F.TMSTAT_refbad = true) ∧
      (∃ t, exec .thermalShutdown s = .next t ∧ resetTo t 4 [fieldKey .thermal F.THSTAT_shutdown] ∧
        t.flag .thermal F.THSTAT_shutdown = true)) ∧
    (s.May r .power 0x54 → (bitOf v.toNat 0 = true → ∃ t, exec (.pwctrlDevreset r v) s = .next t ∧ resetTo t 5 []) ∧
      (bitOf v.toNat 0 = false → exec (.pwctrlDevreset r v) s = .next s)) ∧
    (let stage := s.rd .power F.PWSTART_stage
     let recent := s.time.ns :: s.pw.wdog.filter (fun t => decide (s.time.ns < t + 60000000000))
     s.pw.clocked = true →
      (stage < 4 ∨ stage = 15 ∨ s.time.ns < s.pw.kick + max 100 (s.rd .power F.PWWDOG_timeout) * 1000000 →
        exec .watchdogExpire s = .next s) ∧
      (4 ≤ stage → stage ≠ 15 → s.pw.kick + max 100 (s.rd .power F.PWWDOG_timeout) * 1000000 ≤ s.time.ns →
        ∃ t, exec .watchdogExpire s = .next t ∧ resetTo t 6 [fieldKey .power F.PWMODE_mode] ∧ t.pw.wdog = recent ∧
          t.rd .power F.PWMODE_mode = (if 3 ≤ recent.length then 3 else s.rd .power F.PWMODE_mode))) ∧
    (s.May r .power 0x58 → ∃ t, exec (.pwwdogKick r v) s = .next t ∧ t.rd .power F.PWWDOG_timeout = v.toNat / 65536 ∧
      t.pw.kick = (if v.toNat % 65536 = 0x5A5A then s.time.ns else s.pw.kick) ∧ RegsBut s t [fieldKey .power F.PWWDOG_timeout] ∧
      t = { s with regs := t.regs, pw := { s.pw with kick := t.pw.kick } }) ∧
    (∃ t, exec .vauxDown s = .next t ∧ t.pw = ⟨false, false, [], 0⟩ ∧ t.time.ns = 0 ∧ t.micro = [] ∧
      (∀ i < 12, t.rd .key (F.KEYSLOT i) = s.rd .key (F.KEYSLOT i)) ∧ t.rd .time F.TMSTAT_refbad = 0 ∧
      t.rd .thermal F.THSTAT_shutdown = 0 ∧ (s.recs.nor = none → ∀ a, 0x4100000000 ≤ a → t.byte a = s.byte a)) ∧
    (∀ (bootmd tsrc : Fin 4) (ppspol mstr : Bool), s.pw.vaux = false → ∃ t, exec (.vauxUp bootmd tsrc ppspol mstr) s = .next t ∧
      t.pw.vaux = true ∧ t.pw.clocked = false ∧ t.rd .power F.PWCAUSE_cause = 1 ∧ t.time.ns = 0 ∧
      t.rd .power F.PWSTRAP_bootmd = bootmd.val ∧ t.rd .power F.PWMODE_mode = bootmd.val ∧ t.rd .power F.PWSKIP_skip = 0 ∧
      t.rd .power F.PWSTRAP_tsrc = tsrc.val ∧ t.rd .time F.TMCFG_src = tsrc.val ∧ t.flag .time F.TMCFG_edge = ppspol ∧
      t.flag .power F.PWSTRAP_ppspol = ppspol ∧ t.flag .power F.PWSTRAP_mstr = mstr ∧ t.mem = s.mem)

/-- The start sequence (R506 to R523): its stages in order, from the edge to media ready, the minimum service where the firmware or the
buffer fails, and the level each stage gives. -/
def Obligations.StartSequence : Prop :=
  ∀ (s : State),
    let at_ (n : Nat) : Prop := s.pw.clocked = true ∧ s.rd .power F.PWSTART_stage = n
    let minimal : State → Bool → Prop := fun t keeper => t.rd .power F.PWSTART_stage = 9 ∧ t.rd .power F.PWSTART_level = 1 ∧
      t.flag .power F.PWSTART_provider = keeper ∧ t.flag .nvme F.NVCTRL_ready = true ∧ t.flag .sas F.SACTRL_ready = true ∧
      t.hc.confReady = true
    (∀ mstr : Bool, s.pw.vaux = true → s.pw.clocked = false → ∃ t, exec (.startEdge mstr) s = .next t ∧ t.pw.clocked = true ∧
      t.rg.claimant = mstr ∧ t.rd .power F.PWSTART_stage = 2 ∧
      t.rd .power F.PWSTART_skipped = (if s.rd .power F.PWMODE_mode = 0 then 0 else s.rd .power F.PWSKIP_skip % 256) ∧ t.mem = s.mem ∧
      (bitOf (s.rd .power F.PWCAUSE_cause) 6 = true → t.event .power 4 = true)) ∧
    (s.pw.clocked = true → s.rd .power F.PWSTART_stage ≤ 2 → s.rd .power F.PWSTART_level = 0 → ∃ t, exec .proofingDone s = .next t ∧
      t.rd .power F.PWSTART_stage = 3 ∧ (∀ a, 0x4000200000 ≤ a → a < 0x4000280000 → t.byte a = 0) ∧
      (bitOf (s.rd .power F.PWSTART_skipped) 0 = false → ∀ a, 0x4000000000 ≤ a → a < 0x4000200000 → t.byte a = 0) ∧
      (bitOf (s.rd .power F.PWSTART_skipped) 0 = true → ∀ a, 0x4000000000 ≤ a → a < 0x4000200000 → t.byte a = s.byte a) ∧
      (bitOf (s.rd .power F.PWSTART_skipped) 2 = true → t.micro = s.micro ∧ t.coefs = s.coefs ∧ t.slots = s.slots) ∧
      (bitOf (s.rd .power F.PWSTART_skipped) 2 = false → t.micro = [] ∧ t.coefs = [] ∧ t.slots = []) ∧
      RegsBut s t [fieldKey .power F.PWSTART_stage]) ∧
    (at_ 3 → let bs := s.readBytes (norAddr 0) 65536
      (sha384 bs = Config.loaderDigest → ∃ t, exec .loaderCheck s = .next t ∧ t.rd .power F.PWSTART_stage = 4 ∧
        t.readBytes 0x4000270000 65536 = bs ∧ t.rd .keeper F.USTAT_state = 3 ∧ (t.core 8).pc = 0x70000 ∧ t.pw.kick = s.time.ns ∧
        RegsBut s t [fieldKey .power F.PWSTART_stage, fieldKey .keeper F.USTAT_state]) ∧
      (sha384 bs ≠ Config.loaderDigest → ∃ t, exec .loaderCheck s = .next t ∧ t.rd .power F.PWSTART_stage = 15 ∧
        RegsBut s t [fieldKey .power F.PWSTART_stage] ∧ t = { s with regs := t.regs })) ∧
    (at_ 4 →
      (s.rd .power F.PWMODE_mode < 2 → s.imgFailure 0 = 0 → ∃ t, exec .keeperImageStart s = .next t ∧ t.rd .power F.PWSTART_stage = 5 ∧
        (t.core 8).pc = s.imgNum 0 0x18 4 ∧ t.hc.confReady = true ∧ RegsBut s t [fieldKey .power F.PWSTART_stage]) ∧
      (2 ≤ s.rd .power F.PWMODE_mode ∨ s.imgFailure 0 ≠ 0 → ∃ t, exec .keeperImageStart s = .next t ∧ minimal t false ∧ t.mem = s.mem)) ∧
    (∀ (pass : Fin 256) (eyes : List (Nat × Nat)), at_ 5 →
      let good (n : Nat) : Prop := bitOf pass.val n = true ∧ 12 ≤ ((eyes[n]?).getD (0, 0)).1 ∧ 12 ≤ ((eyes[n]?).getD (0, 0)).2
      ((∀ n < 8, good n) → ∃ t, exec (.dramTrainingDone pass eyes) s = .next t ∧ t.rd .dram F.DCSTAT_ready = 255 ∧
        t.rd .power F.PWSTART_stage = 6 ∧ t.rd .power F.PWSTART_level = 1 ∧ t.rd .power F.PWSTART_half = s.rd .power F.PWSTART_half) ∧
      ((∀ n < 4, good n) ∧ (∃ n < 8, 4 ≤ n ∧ ¬ good n) ∨ (∀ n < 8, 4 ≤ n → good n) ∧ (∃ n < 4, ¬ good n) →
        ∃ t, exec (.dramTrainingDone pass eyes) s = .next t ∧ t.flag .power F.PWSTART_half = true ∧ t.rd .power F.PWSTART_stage = 6 ∧
          t.rd .power F.PWSTART_level = 1 ∧ ∀ n < 8, ¬ good n → t.rd (.channel n) F.USTAT_state = 5) ∧
      ((∃ n < 4, ¬ good n) → (∃ n < 8, 4 ≤ n ∧ ¬ good n) → ∃ t, exec (.dramTrainingDone pass eyes) s = .next t ∧ minimal t true)) ∧
    (at_ 6 → ∃ t, exec .jobLoad s = .next t ∧
      (t.rd .power F.PWSTART_stage = 7 ∧ t.rd .power F.PWSTART_level = 2 ∧
          (∀ c < 7, t.flag .keeper (F.kc c F.KCCTRL_run) = true ∧ t.job c 0 = 2) ∧ (∀ q < 67, Tbl.look 0 t.hc.qcores q = 2 ^ stockCore q) ∨
        minimal t true)) ∧
    (∀ ins : Option Cartridge, at_ 7 → s.fw.activated = false → ∃ t, exec (.startupLinksEnable ins) s = .next t ∧
      t.flag .nvme F.NVCTRL_ready = true ∧ t.flag .sas F.SACTRL_ready = true ∧ t.flag .ring F.RNCTRL_porta = true ∧
      t.flag .ring F.RNCTRL_portb = true ∧ t.medium = (if s.medium.isSome then s.medium else ins) ∧ t.mem = s.mem ∧
      (t.medium = none ∨ s.flag .engine F.EBCTRL_enable = false → t.rd .power F.PWSTART_stage = 9) ∧
      (t.medium.isSome = true → s.flag .engine F.EBCTRL_enable = true → t.rd .power F.PWSTART_stage = 8)) ∧
    (s.pw.clocked = true →
      (s.medium = none ∨ s.rcd.cart = 0 ∨ s.rcd.cart = 4 ∨ s.rcd.media = true ∨ (∃ h < 4, (s.hd h).acquired = false ∧ s.hState h ≠ hFault) →
        exec .mediaReady s = .next s) ∧
      (s.medium.isSome = true → s.rcd.cart ∈ [1, 2, 3] → s.rcd.media = false → s.rcd.ckpt = none → s.rcd.ckptWanted = false →
        s.rcd.cmDue = false → s.tb.copiesDue = [] → s.tb.copiesOut = [] → (∀ h < 4, (s.hd h).acquired = true ∧ s.hState h ≠ hFault) →
        s.rcd.ops = [] → ∃ t, exec .mediaReady s = .next t ∧ t.rcd.media = true ∧ t.event .power 2 = true ∧ t.mem = s.mem ∧
          (s.rd .power F.PWSTART_stage = 8 → t.rd .power F.PWSTART_stage = 9) ∧
          (∀ h < 4, s.readyBeams h < 2 → bitOf (t.rd .tray F.TBHEADS_enable) h = false) ∧
          (s.rd .power F.PWSTART_level = 2 → s.flag .engine F.EBCTRL_enable = true →
            ((∀ h < 4, s.readyBeams h = 12) → s.flag .power F.PWSTART_half = false → t.rd .power F.PWSTART_level = 4) ∧
            ((∃ h < 4, 2 ≤ s.readyBeams h) → (∃ h < 4, s.readyBeams h ≠ 12) → t.rd .power F.PWSTART_level = 3)) ∧
          (s.rd .power F.PWSTART_level ≠ 2 → t.rd .power F.PWSTART_level = s.rd .power F.PWSTART_level)))

/-- Idle power states (R31, R324): idleps3 leads to PS3 once nothing is outstanding; in PS4 the cores are held while no command is outstanding
and go on when one arrives. The thermal unit and the fan (R596 to R598, R600, R601): a sample's temperatures, peaks and composite;
throttling and stop-writing with their hysteresis; a sensor in fault; the tach, its check, the fan fault with the restriction it brings,
and recovery. -/
def Obligations.PowerStatesThermalAndFan : Prop :=
  (∀ (s : State), s.pw.clocked = true →
    let held : State → Bool → Prop := fun t b => (∀ n < 8, t.flag .keeper (F.kc n F.KCCTRL_hold) = b) ∧
      RegsBut s t ((List.range 8).map (fun n => fieldKey .keeper (F.kc n F.KCCTRL_hold))) ∧ t = { s with regs := t.regs }
    (s.paramLE 8 2 = 0 ∨ 3 ≤ s.rcd.ps ∨ s.allOutstanding ≠ 0 → exec .idlePs3 s = .next s) ∧
    (s.paramLE 8 2 ≠ 0 → s.rcd.ps < 3 → s.allOutstanding = 0 → ∃ t, exec .idlePs3 s = .next t ∧ Drain.power 3 ∈ t.rcd.drains ∧
      t.rcd.ps = s.rcd.ps ∧ t.mem = s.mem ∧
      (s.rcd.ps = 1 → s.flag .thermal F.THSTAT_restrict = false → Drain.power 0 ∈ t.rcd.drains ∧ 2 ∈ t.tb.paused)) ∧
    (s.rcd.ps = 4 → s.allOutstanding ≠ 0 → (∃ t, exec .ps4Wake s = .next t ∧ held t false) ∧ exec .ps4IdleTimeout s = .next s) ∧
    (s.rcd.ps = 4 → s.allOutstanding = 0 → (∃ t, exec .ps4IdleTimeout s = .next t ∧ held t true) ∧ exec .ps4Wake s = .next s) ∧
    (s.rcd.ps ≠ 4 → exec .ps4Wake s = .next s ∧ exec .ps4IdleTimeout s = .next s)) ∧
  (∀ (s : State), s.pw.clocked = true →
    (∀ a b d : Int, (∀ x ∈ [a, b, d], -640 ≤ x ∧ x ≤ 2400) →
      let c := max a (max b d)
      let lim : Int := (min 100 (max 90 (s.rd .thermal F.THLIM_throttle)) : Nat)
      ∃ t, exec (.thermalSample (some a) (some b) (some d)) s = .next t ∧
        t.rd .thermal (F.THDIE_temp 0) = unsigned 16 a ∧ t.rd .thermal (F.THDIE_temp 1) = unsigned 16 b ∧
        t.rd .thermal (F.THDIE_temp 2) = unsigned 16 d ∧ t.rd .thermal F.THCOMP_comp = unsigned 16 c ∧
        (s.rd .thermal (F.THDIE_peak 0) < 65536 →
          signed 16 (t.rd .thermal (F.THDIE_peak 0)) = max a (signed 16 (s.rd .thermal (F.THDIE_peak 0)))) ∧
        t.flag .thermal F.THSTAT_sensor = false ∧ t.mem = s.mem ∧
        (16 * lim ≤ c → t.flag .thermal F.THSTAT_throttle = true ∧ t.flag .thermal F.THSTAT_restrict = true ∧
          t.rd .fan F.FNDUTY_applied = 1024 ∧ t.th.cool = 0 ∧ (s.flag .thermal F.THSTAT_throttle = false → t.event .thermal 1 = true ∧
            t.counter 249 = (s.counter 249 + 1) % 2 ^ 48)) ∧
        (c < 16 * (lim - 5) → t.th.cool = s.th.cool + 1 ∧ (s.flag .thermal F.THSTAT_throttle = true →
          (s.th.cool + 1 < 10000 → t.flag .thermal F.THSTAT_throttle = true) ∧
          (10000 ≤ s.th.cool + 1 → t.flag .thermal F.THSTAT_throttle = false ∧ t.event .thermal 3 = true))) ∧
        (16 * 110 ≤ c → t.flag .thermal F.THSTAT_stopwrite = true ∧
          (s.flag .thermal F.THSTAT_stopwrite = false → t.event .thermal 2 = true)) ∧
        (c < 16 * 105 → s.flag .thermal F.THSTAT_stopwrite = true → t.flag .thermal F.THSTAT_stopwrite = decide (s.th.cold + 1 < 1000))) ∧
    (∀ (a : Int) (x y : Option Int), a < -640 ∨ 2400 < a → ∃ t, exec (.thermalSample (some a) x y) s = .next t ∧
      t.flag .thermal F.THSTAT_sensor = true ∧ t.rd .fan F.FNDUTY_applied = 1024 ∧
      (s.flag .thermal F.THSTAT_sensor = false → t.event .thermal 4 = true)) ∧
    (∀ us : Nat, ∃ t, exec (.fanTachPulse us) s = .next t ∧ t.counter 250 = (s.counter 250 + 1) % 2 ^ 48 ∧
      t.th.pulse = some s.time.ns ∧ t.mem = s.mem ∧ t.flag .fan F.FNSTAT_checking = false ∧
      (s.th.pulse.isSome = true → 0 < us → t.rd .fan F.FNTACH_rpm = min 65535 (30000000 / us)) ∧
      (s.flag .fan F.FNSTAT_checking = true → t.th.hold = true ∧ t.rd .fan F.FNDUTY_applied = 1024)) ∧
    (let m := if 5 ≤ s.rd .fan F.FNCFG_mindu ∧ s.rd .fan F.FNCFG_mindu ≤ 100 then s.rd .fan F.FNCFG_mindu else 20
     let slow := s.rd .fan F.FNDUTY_applied * 100 < m * 1024
     (slow ∨ s.flag .fan F.FNSTAT_checking = true ∨ s.flag .fan F.FNSTAT_fault = true → exec .fanNotach s = .next s) ∧
     (¬ slow → s.flag .fan F.FNSTAT_checking = false → s.flag .fan F.FNSTAT_fault = false → ∃ t, exec .fanNotach s = .next t ∧
      t.flag .fan F.FNSTAT_checking = true ∧ t.flag .fan F.FNSTAT_forced = true ∧ t.rd .fan F.FNDUTY_applied = 1024 ∧
      t.event .fan 1 = true ∧ t.mem = s.mem)) ∧
    (∀ i ∈ [Instr.fanFault, .fanShort], i = .fanShort ∨ s.flag .fan F.FNSTAT_checking = true → ∃ t, exec i s = .next t ∧
      t.flag .fan F.FNSTAT_fault = true ∧ t.flag .thermal F.THSTAT_fanfault = true ∧ t.flag .fan F.FNSTAT_checking = false ∧
      t.event .fan 2 = true ∧ t.flag .thermal F.THSTAT_restrict = true ∧ t.rd .fan F.FNDUTY_applied = 1024 ∧
      (s.rcd.ops = [] → Queued s t 1 hwReq UnitId.fan.number 2 0 0) ∧
      (i = .fanShort → t.flag .fan F.FNSTAT_short = true ∧ t.event .fan 4 = true)) ∧
    ((s.flag .fan F.FNSTAT_fault = true → ∃ t, exec .fanRecover s = .next t ∧ t.flag .fan F.FNSTAT_fault = false ∧
        t.flag .thermal F.THSTAT_fanfault = false ∧ t.event .fan 3 = true ∧ t.th.hold = false) ∧
      (s.flag .fan F.FNSTAT_fault = false → ∃ t, exec .fanRecover s = .next t ∧ t.th.hold = false ∧ t.mem = s.mem ∧
        (s.flag .thermal F.THSTAT_throttle = false → s.flag .thermal F.THSTAT_sensor = false → s.flag .fan F.FNCTRL_force = false →
          s.flag .fan F.FNSTAT_checking = false → t.flag .fan F.FNSTAT_forced = false ∧
          (s.flag .fan F.FNSTAT_forced = true → t.rd .fan F.FNDUTY_applied = s.rd .fan F.FNDUTY_cmd % 2 ^ 11)))) ∧
    (∀ h : Fin 4, s.flag (.head h) F.HSVPWR_on = true → ∃ t, exec (.emitterEnable h) s = .next t ∧ (t.hd h).emitters = true ∧
      (∀ k, k ≠ h.val → t.hd k = s.hd k) ∧ t = { s with heads := t.heads }) ∧
    (∀ mv : Nat, s.rd .vmot F.VMUVT_warn ≤ mv → ∃ t, exec (.vmotAboveWarn mv) s = .next t ∧
      t.rd .vmot F.VMVOLT_volt = min mv 65535 ∧ t.flag .vmot F.VMSTAT_uvwarn = false ∧ t.flag .vmot F.VMSTAT_uvfault = false ∧
      t.flag .fan F.FNSTAT_short = false ∧ t.vmotNs = s.time.ns ∧
      RegsBut s t ([F.VMVOLT_volt, F.VMSTAT_uvwarn, F.VMSTAT_uvfault].map (fieldKey .vmot) ++ [fieldKey .fan F.FNSTAT_short]) ∧
      t = { s with regs := t.regs, vmotNs := t.vmotNs }))

/-! ### The whole device (01, 15) -/

/-- A step takes the command at the front of the queue and is that command's effect on the state with the queue's rest; with nothing waiting it is
one clock tick (the model's choice, log entry 40). -/
def Obligations.StepRunsTheCommand : Prop :=
  ∀ (s : State), (∀ c rest, s.pending = c :: rest → step s = exec c { s with pending := rest }) ∧ (s.pending = [] → step s = .next s.idle)

/-- What reset leaves: every register field at the reset value of its table, no counter, event or crumb, no command waiting; a sound state. The
zeros of fields the spec gives no reset value are the model's choice (log entry 1). -/
def Obligations.ResetState : Prop :=
  State.reset.Sound ∧ State.reset.pending = [] ∧ State.reset.crumbs.queue = [] ∧ State.reset.mem = [] ∧ State.reset.medium = none ∧
  (∀ u f, State.reset.rd u f = f.rst) ∧ (∀ n, State.reset.counter n = 0) ∧ (∀ u b, State.reset.event u b = false) ∧
  State.reset.rd .power F.PWSTART_level = 0 ∧ State.reset.rd .power F.PWWDOG_timeout = 2000 ∧ State.reset.rd .fan F.FNDUTY_applied = 1024 ∧
  State.reset.rd .join F.STADDR_auto = 1 ∧ State.reset.rd .thermal F.THLIM_throttle = 100 ∧
  (∀ b < 48, State.reset.rd (.beam b) F.BCALCTRL_blocks = 1200) ∧ State.reset.rd .ring F.RNSTAT_state = 0

/-- Every command completes, whatever the state, and leaves the queue of waiting commands alone; and what State.Sound says of a state (buffer memory
and the register file in their canonical form, counters of 48 bits, at most 64 crumbs, TIMENS of 64 bits: R410, R445, R451, R463) every command
and every step keep. -/
def Obligations.EveryStepKeepsSoundness : Prop :=
  ∀ (s : State), s.Sound → (∀ c, ∃ t, exec c s = .next t ∧ t.Sound ∧ t.pending = s.pending) ∧ ∃ t, step s = .next t ∧ t.Sound

/-- Buffer memory (R410): a byte stored is the byte read there and no other changes; a run of bytes stored reads back; the canonical form is kept
and is unique, so that memories that read alike are equal. -/
def Obligations.BufferMemory : Prop :=
  (∀ (s : State) (a x : Nat) (b : Byte), (s.setByte a b).byte x = if x = a then b else s.byte x) ∧
  (∀ (s : State) (a : Nat) (bs : List Byte), (s.storeBytes a bs).readBytes a bs.length = bs ∧
    (∀ x, x < a ∨ a + bs.length ≤ x → (s.storeBytes a bs).byte x = s.byte x) ∧ (s.storeBytes a bs) = { s with mem := (s.storeBytes a bs).mem }) ∧
  (∀ (s : State) (a n v : Nat), (s.storeLE a n v).readLE a n = v % 256 ^ n) ∧
  (∀ (s : State) (a : Nat) (bs : List Byte), Memory.wf s.mem = true → Memory.wf (s.storeBytes a bs).mem = true ∧
    Memory.wf (s.engineStore a bs).mem = true) ∧
  (∀ (s t : State), Memory.wf s.mem = true → Memory.wf t.mem = true → (∀ a, s.byte a = t.byte a) → s.mem = t.mem)
end

