-- ==== Sys2Proof/Laws/Tbl.lean ====
section
/-! SUPPORT. The laws of sparse tables: reading after writing, and the canonical form that every operation keeps. -/

namespace Sys2Proof

/-! ### Reading after writing -/

@[simp] theorem Tbl.find_list_same {α : Type} (t : Tbl α) (i : Nat) (v : α) : Tbl.find (Tbl.list t i v) i = some v := by
  induction t with
  | nil => simp [Tbl.list, Tbl.find]
  | cons e t ih =>
    obtain ⟨k, w⟩ := e
    simp only [Tbl.list]
    split
    · simp [Tbl.find]
    · split
      · simp [Tbl.find]
      · simp [Tbl.find, *]

theorem Tbl.find_list_other {α : Type} (t : Tbl α) {i j : Nat} (v : α) (h : j ≠ i) :
    Tbl.find (Tbl.list t i v) j = Tbl.find t j := by
  induction t with
  | nil => simp [Tbl.list, Tbl.find, h]
  | cons e t ih =>
    obtain ⟨k, w⟩ := e
    simp only [Tbl.list]
    split
    · simp [Tbl.find, h]
    · split
      · rename_i hk
        subst hk
        simp [Tbl.find, h]
      · simp [Tbl.find, ih]

@[simp] theorem Tbl.find_drop_same {α : Type} (t : Tbl α) (i : Nat) : Tbl.find (Tbl.drop t i) i = none := by
  induction t with
  | nil => rfl
  | cons e t ih =>
    obtain ⟨k, w⟩ := e
    simp only [Tbl.drop]
    split
    · exact ih
    · simp [Tbl.find, *]

theorem Tbl.find_drop_other {α : Type} (t : Tbl α) {i j : Nat} (h : j ≠ i) : Tbl.find (Tbl.drop t i) j = Tbl.find t j := by
  induction t with
  | nil => rfl
  | cons e t ih =>
    obtain ⟨k, w⟩ := e
    simp only [Tbl.drop]
    split
    · rename_i hk
      subst hk
      simp [Tbl.find, h, ih]
    · simp [Tbl.find, ih]

/-- A key just written reads as written. -/
@[simp] theorem Tbl.look_put_same {α : Type} [DecidableEq α] (d : α) (t : Tbl α) (i : Nat) (v : α) :
    Tbl.look d (Tbl.put d t i v) i = v := by
  unfold Tbl.look Tbl.put
  split <;> simp [*]

/-- A write to one key leaves every other key as it was. -/
theorem Tbl.look_put_other {α : Type} [DecidableEq α] (d e : α) (t : Tbl α) {i j : Nat} (v : α) (h : j ≠ i) :
    Tbl.look e (Tbl.put d t i v) j = Tbl.look e t j := by
  unfold Tbl.look Tbl.put
  split
  · rw [Tbl.find_drop_other t h]
  · rw [Tbl.find_list_other t v h]

/-- Reading any key after a write. -/
theorem Tbl.look_put {α : Type} [DecidableEq α] (d : α) (t : Tbl α) (i j : Nat) (v : α) :
    Tbl.look d (Tbl.put d t i v) j = if j = i then v else Tbl.look d t j := by
  split
  · rename_i h
    subst h
    simp
  · exact Tbl.look_put_other d d t v ‹_›

@[simp] theorem Tbl.look_nil {α : Type} (d : α) (i : Nat) : Tbl.look d ([] : Tbl α) i = d := rfl

/-! ### Keys in order -/

theorem Tbl.rising_weaken {α : Type} {t : Tbl α} {b c : Option Nat} (h : Tbl.rising b t = true)
    (hc : ∀ m, c = some m → ∃ n, b = some n ∧ m ≤ n) : Tbl.rising c t = true := by
  cases t with
  | nil => rfl
  | cons e t =>
    obtain ⟨k, w⟩ := e
    simp only [Tbl.rising, Bool.and_eq_true] at h ⊢
    refine ⟨?_, h.2⟩
    cases c with
    | none => rfl
    | some m =>
      obtain ⟨n, hb, hmn⟩ := hc m rfl
      subst hb
      simp only [decide_eq_true_eq] at h ⊢
      omega

theorem Tbl.rising_drop {α : Type} (t : Tbl α) (i : Nat) : ∀ b, Tbl.rising b t = true → Tbl.rising b (Tbl.drop t i) = true := by
  induction t with
  | nil => intro b h; exact h
  | cons e t ih =>
    obtain ⟨k, w⟩ := e
    intro b h
    simp only [Tbl.drop]
    split
    · simp only [Tbl.rising, Bool.and_eq_true] at h
      refine ih b (Tbl.rising_weaken h.2 ?_)
      intro m hm
      subst hm
      exact ⟨k, rfl, by simpa using (Nat.le_of_lt (by simpa using h.1))⟩
    · simp only [Tbl.rising, Bool.and_eq_true] at h ⊢
      exact ⟨h.1, ih _ h.2⟩

theorem Tbl.rising_list {α : Type} (t : Tbl α) (i : Nat) (v : α) :
    ∀ b, Tbl.rising b t = true → (∀ m, b = some m → m < i) → Tbl.rising b (Tbl.list t i v) = true := by
  induction t with
  | nil =>
    intro b _ hb
    cases b with
    | none => rfl
    | some m => simpa [Tbl.list, Tbl.rising] using hb m rfl
  | cons e t ih =>
    obtain ⟨k, w⟩ := e
    intro b h hb
    simp only [Tbl.rising, Bool.and_eq_true] at h
    simp only [Tbl.list]
    split
    · rename_i hik
      simp only [Tbl.rising, Bool.and_eq_true]
      refine ⟨?_, by simpa using hik, h.2⟩
      cases b with
      | none => rfl
      | some m => simpa using hb m rfl
    · split
      · rename_i hik
        subst hik
        simp only [Tbl.rising, Bool.and_eq_true]
        exact ⟨h.1, h.2⟩
      · simp only [Tbl.rising, Bool.and_eq_true]
        refine ⟨h.1, ih _ h.2 ?_⟩
        intro m hm
        cases hm
        omega

/-- A write keeps the keys rising. -/
theorem Tbl.rising_put {α : Type} [DecidableEq α] (d : α) (t : Tbl α) (i : Nat) (v : α) (h : Tbl.rising none t = true) :
    Tbl.rising none (Tbl.put d t i v) = true := by
  unfold Tbl.put
  split
  · exact Tbl.rising_drop t i none h
  · exact Tbl.rising_list t i v none h (by simp)

theorem Tbl.rising_filter {α : Type} (p : Nat × α → Bool) (t : Tbl α) :
    ∀ b, Tbl.rising b t = true → Tbl.rising b (List.filter p t) = true := by
  induction t with
  | nil => intro b h; exact h
  | cons e t ih =>
    obtain ⟨k, w⟩ := e
    intro b h
    simp only [Tbl.rising, Bool.and_eq_true] at h
    simp only [List.filter]
    split
    · simp only [Tbl.rising, Bool.and_eq_true]
      exact ⟨h.1, ih _ h.2⟩
    · refine ih b (Tbl.rising_weaken h.2 ?_)
      intro m hm
      subst hm
      exact ⟨k, rfl, Nat.le_of_lt (by simpa using h.1)⟩

/-! ### What is listed -/

/-- What a table lists after a write was listed before, or is what was written. -/
theorem Tbl.mem_put {α : Type} [DecidableEq α] (d : α) (t : Tbl α) (i : Nat) (v : α) {e : Nat × α}
    (h : e ∈ Tbl.put d t i v) : (e = (i, v) ∧ v ≠ d) ∨ e ∈ t := by
  have hl : ∀ t : Tbl α, e ∈ Tbl.list t i v → e = (i, v) ∨ e ∈ t := by
    intro t
    induction t with
    | nil => intro h; simpa [Tbl.list] using h
    | cons x t ih =>
      obtain ⟨k, w⟩ := x
      intro h
      simp only [Tbl.list] at h
      split at h
      · simpa using h
      · split at h
        · simp only [List.mem_cons] at h ⊢
          grind
        · simp only [List.mem_cons] at h ⊢
          rcases h with h | h
          · grind
          · have := ih h
            grind
  have hd : ∀ t : Tbl α, e ∈ Tbl.drop t i → e ∈ t := by
    intro t
    induction t with
    | nil => intro h; exact h
    | cons x t ih =>
      obtain ⟨k, w⟩ := x
      intro h
      simp only [Tbl.drop] at h
      split at h
      · exact List.mem_cons_of_mem _ (ih h)
      · simp only [List.mem_cons] at h ⊢
        rcases h with h | h
        · exact Or.inl h
        · exact Or.inr (ih h)
  unfold Tbl.put at h
  split at h
  · exact Or.inr (hd t h)
  · rcases hl t h with h | h
    · exact Or.inl ⟨h, ‹_›⟩
    · exact Or.inr h

/-- A property of every value listed survives a write that has it. -/
theorem Tbl.forall_put {α : Type} [DecidableEq α] {P : Nat × α → Prop} (d : α) (t : Tbl α) (i : Nat) (v : α)
    (h : ∀ e ∈ t, P e) (hv : v ≠ d → P (i, v)) : ∀ e ∈ Tbl.put d t i v, P e := by
  intro e he
  rcases Tbl.mem_put d t i v he with ⟨rfl, hne⟩ | he
  · exact hv hne
  · exact h e he

/-- A write in the form of the default keeps the canonical form. -/
theorem Tbl.wf_put {α : Type} [DecidableEq α] (d : Nat → α) (t : Tbl α) (i : Nat) (v : α) (h : Tbl.wf d t = true) :
    Tbl.wf d (Tbl.put (d i) t i v) = true := by
  unfold Tbl.wf at h ⊢
  rw [Bool.and_eq_true] at h ⊢
  refine ⟨Tbl.rising_put _ _ _ _ h.1, ?_⟩
  rw [List.all_eq_true] at h ⊢
  refine Tbl.forall_put (P := fun e => decide (e.2 ≠ d e.1) = true) _ _ _ _ h.2 ?_
  intro hv
  simpa using hv

/-- Dropping entries keeps the canonical form. -/
theorem Tbl.wf_filter {α : Type} [DecidableEq α] (d : Nat → α) (p : Nat × α → Bool) (t : Tbl α) (h : Tbl.wf d t = true) :
    Tbl.wf d (List.filter p t) = true := by
  unfold Tbl.wf at h ⊢
  rw [Bool.and_eq_true] at h ⊢
  refine ⟨Tbl.rising_filter p t none h.1, ?_⟩
  rw [List.all_eq_true] at h ⊢
  intro e he
  exact h.2 e (List.mem_filter.mp he).1

end Sys2Proof
end

