-- ==== Sys2Proof/Laws/State.lean ====
section
/-! SUPPORT. What each named operation leaves as it was: one lemma for each field of the state and each operation of Ops.lean that does not
write it. -/

namespace Sys2Proof.Machine

/-! ### wr -/

@[simp] theorem State.wr_pending (s : State) (u : UnitId) (f : Field) (v : Nat) : (s.wr u f v).pending = s.pending := rfl

@[simp] theorem State.wr_read (s : State) (u : UnitId) (f : Field) (v : Nat) : (s.wr u f v).read = s.read := rfl

@[simp] theorem State.wr_crumbs (s : State) (u : UnitId) (f : Field) (v : Nat) : (s.wr u f v).crumbs = s.crumbs := rfl

@[simp] theorem State.wr_lanes (s : State) (u : UnitId) (f : Field) (v : Nat) : (s.wr u f v).lanes = s.lanes := rfl

@[simp] theorem State.wr_ctr (s : State) (u : UnitId) (f : Field) (v : Nat) : (s.wr u f v).ctr = s.ctr := rfl

@[simp] theorem State.wr_port (s : State) (u : UnitId) (f : Field) (v : Nat) : (s.wr u f v).port = s.port := rfl

@[simp] theorem State.wr_mem (s : State) (u : UnitId) (f : Field) (v : Nat) : (s.wr u f v).mem = s.mem := rfl

@[simp] theorem State.wr_l2 (s : State) (u : UnitId) (f : Field) (v : Nat) : (s.wr u f v).l2 = s.l2 := rfl

@[simp] theorem State.wr_time (s : State) (u : UnitId) (f : Field) (v : Nat) : (s.wr u f v).time = s.time := rfl

@[simp] theorem State.wr_tc (s : State) (u : UnitId) (f : Field) (v : Nat) : (s.wr u f v).tc = s.tc := rfl

@[simp] theorem State.wr_tb (s : State) (u : UnitId) (f : Field) (v : Nat) : (s.wr u f v).tb = s.tb := rfl

@[simp] theorem State.wr_hc (s : State) (u : UnitId) (f : Field) (v : Nat) : (s.wr u f v).hc = s.hc := rfl

@[simp] theorem State.wr_hostOut (s : State) (u : UnitId) (f : Field) (v : Nat) : (s.wr u f v).hostOut = s.hostOut := rfl

@[simp] theorem State.wr_rcd (s : State) (u : UnitId) (f : Field) (v : Nat) : (s.wr u f v).rcd = s.rcd := rfl

@[simp] theorem State.wr_medium (s : State) (u : UnitId) (f : Field) (v : Nat) : (s.wr u f v).medium = s.medium := rfl

@[simp] theorem State.wr_loader (s : State) (u : UnitId) (f : Field) (v : Nat) : (s.wr u f v).loader = s.loader := rfl

@[simp] theorem State.wr_rp (s : State) (u : UnitId) (f : Field) (v : Nat) : (s.wr u f v).rp = s.rp := rfl

@[simp] theorem State.wr_slots (s : State) (u : UnitId) (f : Field) (v : Nat) : (s.wr u f v).slots = s.slots := rfl

@[simp] theorem State.wr_coefs (s : State) (u : UnitId) (f : Field) (v : Nat) : (s.wr u f v).coefs = s.coefs := rfl

@[simp] theorem State.wr_micro (s : State) (u : UnitId) (f : Field) (v : Nat) : (s.wr u f v).micro = s.micro := rfl

@[simp] theorem State.wr_dac (s : State) (u : UnitId) (f : Field) (v : Nat) : (s.wr u f v).dac = s.dac := rfl

@[simp] theorem State.wr_winCycles (s : State) (u : UnitId) (f : Field) (v : Nat) : (s.wr u f v).winCycles = s.winCycles := rfl

@[simp] theorem State.wr_adcIn (s : State) (u : UnitId) (f : Field) (v : Nat) : (s.wr u f v).adcIn = s.adcIn := rfl

@[simp] theorem State.wr_eng (s : State) (u : UnitId) (f : Field) (v : Nat) : (s.wr u f v).eng = s.eng := rfl

@[simp] theorem State.wr_heads (s : State) (u : UnitId) (f : Field) (v : Nat) : (s.wr u f v).heads = s.heads := rfl

@[simp] theorem State.wr_layTrim (s : State) (u : UnitId) (f : Field) (v : Nat) : (s.wr u f v).layTrim = s.layTrim := rfl

@[simp] theorem State.wr_spin (s : State) (u : UnitId) (f : Field) (v : Nat) : (s.wr u f v).spin = s.spin := rfl

@[simp] theorem State.wr_steps (s : State) (u : UnitId) (f : Field) (v : Nat) : (s.wr u f v).steps = s.steps := rfl

@[simp] theorem State.wr_stepTab (s : State) (u : UnitId) (f : Field) (v : Nat) : (s.wr u f v).stepTab = s.stepTab := rfl

@[simp] theorem State.wr_gear (s : State) (u : UnitId) (f : Field) (v : Nat) : (s.wr u f v).gear = s.gear := rfl

@[simp] theorem State.wr_vmotNs (s : State) (u : UnitId) (f : Field) (v : Nat) : (s.wr u f v).vmotNs = s.vmotNs := rfl

@[simp] theorem State.wr_safeHold (s : State) (u : UnitId) (f : Field) (v : Nat) : (s.wr u f v).safeHold = s.safeHold := rfl

@[simp] theorem State.wr_recs (s : State) (u : UnitId) (f : Field) (v : Nat) : (s.wr u f v).recs = s.recs := rfl

@[simp] theorem State.wr_lpt (s : State) (u : UnitId) (f : Field) (v : Nat) : (s.wr u f v).lpt = s.lpt := rfl

@[simp] theorem State.wr_bg (s : State) (u : UnitId) (f : Field) (v : Nat) : (s.wr u f v).bg = s.bg := rfl

@[simp] theorem State.wr_rg (s : State) (u : UnitId) (f : Field) (v : Nat) : (s.wr u f v).rg = s.rg := rfl

@[simp] theorem State.wr_pl (s : State) (u : UnitId) (f : Field) (v : Nat) : (s.wr u f v).pl = s.pl := rfl

@[simp] theorem State.wr_cores (s : State) (u : UnitId) (f : Field) (v : Nat) : (s.wr u f v).cores = s.cores := rfl

@[simp] theorem State.wr_pw (s : State) (u : UnitId) (f : Field) (v : Nat) : (s.wr u f v).pw = s.pw := rfl

@[simp] theorem State.wr_th (s : State) (u : UnitId) (f : Field) (v : Nat) : (s.wr u f v).th = s.th := rfl

@[simp] theorem State.wr_fw (s : State) (u : UnitId) (f : Field) (v : Nat) : (s.wr u f v).fw = s.fw := rfl

/-! ### setFlag -/

@[simp] theorem State.setFlag_pending (s : State) (u : UnitId) (f : Field) (b : Bool) : (s.setFlag u f b).pending = s.pending := rfl

@[simp] theorem State.setFlag_read (s : State) (u : UnitId) (f : Field) (b : Bool) : (s.setFlag u f b).read = s.read := rfl

@[simp] theorem State.setFlag_crumbs (s : State) (u : UnitId) (f : Field) (b : Bool) : (s.setFlag u f b).crumbs = s.crumbs := rfl

@[simp] theorem State.setFlag_lanes (s : State) (u : UnitId) (f : Field) (b : Bool) : (s.setFlag u f b).lanes = s.lanes := rfl

@[simp] theorem State.setFlag_ctr (s : State) (u : UnitId) (f : Field) (b : Bool) : (s.setFlag u f b).ctr = s.ctr := rfl

@[simp] theorem State.setFlag_port (s : State) (u : UnitId) (f : Field) (b : Bool) : (s.setFlag u f b).port = s.port := rfl

@[simp] theorem State.setFlag_mem (s : State) (u : UnitId) (f : Field) (b : Bool) : (s.setFlag u f b).mem = s.mem := rfl

@[simp] theorem State.setFlag_l2 (s : State) (u : UnitId) (f : Field) (b : Bool) : (s.setFlag u f b).l2 = s.l2 := rfl

@[simp] theorem State.setFlag_time (s : State) (u : UnitId) (f : Field) (b : Bool) : (s.setFlag u f b).time = s.time := rfl

@[simp] theorem State.setFlag_tc (s : State) (u : UnitId) (f : Field) (b : Bool) : (s.setFlag u f b).tc = s.tc := rfl

@[simp] theorem State.setFlag_tb (s : State) (u : UnitId) (f : Field) (b : Bool) : (s.setFlag u f b).tb = s.tb := rfl

@[simp] theorem State.setFlag_hc (s : State) (u : UnitId) (f : Field) (b : Bool) : (s.setFlag u f b).hc = s.hc := rfl

@[simp] theorem State.setFlag_hostOut (s : State) (u : UnitId) (f : Field) (b : Bool) : (s.setFlag u f b).hostOut = s.hostOut := rfl

@[simp] theorem State.setFlag_rcd (s : State) (u : UnitId) (f : Field) (b : Bool) : (s.setFlag u f b).rcd = s.rcd := rfl

@[simp] theorem State.setFlag_medium (s : State) (u : UnitId) (f : Field) (b : Bool) : (s.setFlag u f b).medium = s.medium := rfl

@[simp] theorem State.setFlag_loader (s : State) (u : UnitId) (f : Field) (b : Bool) : (s.setFlag u f b).loader = s.loader := rfl

@[simp] theorem State.setFlag_rp (s : State) (u : UnitId) (f : Field) (b : Bool) : (s.setFlag u f b).rp = s.rp := rfl

@[simp] theorem State.setFlag_slots (s : State) (u : UnitId) (f : Field) (b : Bool) : (s.setFlag u f b).slots = s.slots := rfl

@[simp] theorem State.setFlag_coefs (s : State) (u : UnitId) (f : Field) (b : Bool) : (s.setFlag u f b).coefs = s.coefs := rfl

@[simp] theorem State.setFlag_micro (s : State) (u : UnitId) (f : Field) (b : Bool) : (s.setFlag u f b).micro = s.micro := rfl

@[simp] theorem State.setFlag_dac (s : State) (u : UnitId) (f : Field) (b : Bool) : (s.setFlag u f b).dac = s.dac := rfl

@[simp] theorem State.setFlag_winCycles (s : State) (u : UnitId) (f : Field) (b : Bool) : (s.setFlag u f b).winCycles = s.winCycles := rfl

@[simp] theorem State.setFlag_adcIn (s : State) (u : UnitId) (f : Field) (b : Bool) : (s.setFlag u f b).adcIn = s.adcIn := rfl

@[simp] theorem State.setFlag_eng (s : State) (u : UnitId) (f : Field) (b : Bool) : (s.setFlag u f b).eng = s.eng := rfl

@[simp] theorem State.setFlag_heads (s : State) (u : UnitId) (f : Field) (b : Bool) : (s.setFlag u f b).heads = s.heads := rfl

@[simp] theorem State.setFlag_layTrim (s : State) (u : UnitId) (f : Field) (b : Bool) : (s.setFlag u f b).layTrim = s.layTrim := rfl

@[simp] theorem State.setFlag_spin (s : State) (u : UnitId) (f : Field) (b : Bool) : (s.setFlag u f b).spin = s.spin := rfl

@[simp] theorem State.setFlag_steps (s : State) (u : UnitId) (f : Field) (b : Bool) : (s.setFlag u f b).steps = s.steps := rfl

@[simp] theorem State.setFlag_stepTab (s : State) (u : UnitId) (f : Field) (b : Bool) : (s.setFlag u f b).stepTab = s.stepTab := rfl

@[simp] theorem State.setFlag_gear (s : State) (u : UnitId) (f : Field) (b : Bool) : (s.setFlag u f b).gear = s.gear := rfl

@[simp] theorem State.setFlag_vmotNs (s : State) (u : UnitId) (f : Field) (b : Bool) : (s.setFlag u f b).vmotNs = s.vmotNs := rfl

@[simp] theorem State.setFlag_safeHold (s : State) (u : UnitId) (f : Field) (b : Bool) : (s.setFlag u f b).safeHold = s.safeHold := rfl

@[simp] theorem State.setFlag_recs (s : State) (u : UnitId) (f : Field) (b : Bool) : (s.setFlag u f b).recs = s.recs := rfl

@[simp] theorem State.setFlag_lpt (s : State) (u : UnitId) (f : Field) (b : Bool) : (s.setFlag u f b).lpt = s.lpt := rfl

@[simp] theorem State.setFlag_bg (s : State) (u : UnitId) (f : Field) (b : Bool) : (s.setFlag u f b).bg = s.bg := rfl

@[simp] theorem State.setFlag_rg (s : State) (u : UnitId) (f : Field) (b : Bool) : (s.setFlag u f b).rg = s.rg := rfl

@[simp] theorem State.setFlag_pl (s : State) (u : UnitId) (f : Field) (b : Bool) : (s.setFlag u f b).pl = s.pl := rfl

@[simp] theorem State.setFlag_cores (s : State) (u : UnitId) (f : Field) (b : Bool) : (s.setFlag u f b).cores = s.cores := rfl

@[simp] theorem State.setFlag_pw (s : State) (u : UnitId) (f : Field) (b : Bool) : (s.setFlag u f b).pw = s.pw := rfl

@[simp] theorem State.setFlag_th (s : State) (u : UnitId) (f : Field) (b : Bool) : (s.setFlag u f b).th = s.th := rfl

@[simp] theorem State.setFlag_fw (s : State) (u : UnitId) (f : Field) (b : Bool) : (s.setFlag u f b).fw = s.fw := rfl

/-! ### incWrap -/

@[simp] theorem State.incWrap_pending (s : State) (u : UnitId) (f : Field) (k : Nat) : (s.incWrap u f k).pending = s.pending := rfl

@[simp] theorem State.incWrap_read (s : State) (u : UnitId) (f : Field) (k : Nat) : (s.incWrap u f k).read = s.read := rfl

@[simp] theorem State.incWrap_crumbs (s : State) (u : UnitId) (f : Field) (k : Nat) : (s.incWrap u f k).crumbs = s.crumbs := rfl

@[simp] theorem State.incWrap_lanes (s : State) (u : UnitId) (f : Field) (k : Nat) : (s.incWrap u f k).lanes = s.lanes := rfl

@[simp] theorem State.incWrap_ctr (s : State) (u : UnitId) (f : Field) (k : Nat) : (s.incWrap u f k).ctr = s.ctr := rfl

@[simp] theorem State.incWrap_port (s : State) (u : UnitId) (f : Field) (k : Nat) : (s.incWrap u f k).port = s.port := rfl

@[simp] theorem State.incWrap_mem (s : State) (u : UnitId) (f : Field) (k : Nat) : (s.incWrap u f k).mem = s.mem := rfl

@[simp] theorem State.incWrap_l2 (s : State) (u : UnitId) (f : Field) (k : Nat) : (s.incWrap u f k).l2 = s.l2 := rfl

@[simp] theorem State.incWrap_time (s : State) (u : UnitId) (f : Field) (k : Nat) : (s.incWrap u f k).time = s.time := rfl

@[simp] theorem State.incWrap_tc (s : State) (u : UnitId) (f : Field) (k : Nat) : (s.incWrap u f k).tc = s.tc := rfl

@[simp] theorem State.incWrap_tb (s : State) (u : UnitId) (f : Field) (k : Nat) : (s.incWrap u f k).tb = s.tb := rfl

@[simp] theorem State.incWrap_hc (s : State) (u : UnitId) (f : Field) (k : Nat) : (s.incWrap u f k).hc = s.hc := rfl

@[simp] theorem State.incWrap_hostOut (s : State) (u : UnitId) (f : Field) (k : Nat) : (s.incWrap u f k).hostOut = s.hostOut := rfl

@[simp] theorem State.incWrap_rcd (s : State) (u : UnitId) (f : Field) (k : Nat) : (s.incWrap u f k).rcd = s.rcd := rfl

@[simp] theorem State.incWrap_medium (s : State) (u : UnitId) (f : Field) (k : Nat) : (s.incWrap u f k).medium = s.medium := rfl

@[simp] theorem State.incWrap_loader (s : State) (u : UnitId) (f : Field) (k : Nat) : (s.incWrap u f k).loader = s.loader := rfl

@[simp] theorem State.incWrap_rp (s : State) (u : UnitId) (f : Field) (k : Nat) : (s.incWrap u f k).rp = s.rp := rfl

@[simp] theorem State.incWrap_slots (s : State) (u : UnitId) (f : Field) (k : Nat) : (s.incWrap u f k).slots = s.slots := rfl

@[simp] theorem State.incWrap_coefs (s : State) (u : UnitId) (f : Field) (k : Nat) : (s.incWrap u f k).coefs = s.coefs := rfl

@[simp] theorem State.incWrap_micro (s : State) (u : UnitId) (f : Field) (k : Nat) : (s.incWrap u f k).micro = s.micro := rfl

@[simp] theorem State.incWrap_dac (s : State) (u : UnitId) (f : Field) (k : Nat) : (s.incWrap u f k).dac = s.dac := rfl

@[simp] theorem State.incWrap_winCycles (s : State) (u : UnitId) (f : Field) (k : Nat) : (s.incWrap u f k).winCycles = s.winCycles := rfl

@[simp] theorem State.incWrap_adcIn (s : State) (u : UnitId) (f : Field) (k : Nat) : (s.incWrap u f k).adcIn = s.adcIn := rfl

@[simp] theorem State.incWrap_eng (s : State) (u : UnitId) (f : Field) (k : Nat) : (s.incWrap u f k).eng = s.eng := rfl

@[simp] theorem State.incWrap_heads (s : State) (u : UnitId) (f : Field) (k : Nat) : (s.incWrap u f k).heads = s.heads := rfl

@[simp] theorem State.incWrap_layTrim (s : State) (u : UnitId) (f : Field) (k : Nat) : (s.incWrap u f k).layTrim = s.layTrim := rfl

@[simp] theorem State.incWrap_spin (s : State) (u : UnitId) (f : Field) (k : Nat) : (s.incWrap u f k).spin = s.spin := rfl

@[simp] theorem State.incWrap_steps (s : State) (u : UnitId) (f : Field) (k : Nat) : (s.incWrap u f k).steps = s.steps := rfl

@[simp] theorem State.incWrap_stepTab (s : State) (u : UnitId) (f : Field) (k : Nat) : (s.incWrap u f k).stepTab = s.stepTab := rfl

@[simp] theorem State.incWrap_gear (s : State) (u : UnitId) (f : Field) (k : Nat) : (s.incWrap u f k).gear = s.gear := rfl

@[simp] theorem State.incWrap_vmotNs (s : State) (u : UnitId) (f : Field) (k : Nat) : (s.incWrap u f k).vmotNs = s.vmotNs := rfl

@[simp] theorem State.incWrap_safeHold (s : State) (u : UnitId) (f : Field) (k : Nat) : (s.incWrap u f k).safeHold = s.safeHold := rfl

@[simp] theorem State.incWrap_recs (s : State) (u : UnitId) (f : Field) (k : Nat) : (s.incWrap u f k).recs = s.recs := rfl

@[simp] theorem State.incWrap_lpt (s : State) (u : UnitId) (f : Field) (k : Nat) : (s.incWrap u f k).lpt = s.lpt := rfl

@[simp] theorem State.incWrap_bg (s : State) (u : UnitId) (f : Field) (k : Nat) : (s.incWrap u f k).bg = s.bg := rfl

@[simp] theorem State.incWrap_rg (s : State) (u : UnitId) (f : Field) (k : Nat) : (s.incWrap u f k).rg = s.rg := rfl

@[simp] theorem State.incWrap_pl (s : State) (u : UnitId) (f : Field) (k : Nat) : (s.incWrap u f k).pl = s.pl := rfl

@[simp] theorem State.incWrap_cores (s : State) (u : UnitId) (f : Field) (k : Nat) : (s.incWrap u f k).cores = s.cores := rfl

@[simp] theorem State.incWrap_pw (s : State) (u : UnitId) (f : Field) (k : Nat) : (s.incWrap u f k).pw = s.pw := rfl

@[simp] theorem State.incWrap_th (s : State) (u : UnitId) (f : Field) (k : Nat) : (s.incWrap u f k).th = s.th := rfl

@[simp] theorem State.incWrap_fw (s : State) (u : UnitId) (f : Field) (k : Nat) : (s.incWrap u f k).fw = s.fw := rfl

/-! ### incSat -/

@[simp] theorem State.incSat_pending (s : State) (u : UnitId) (f : Field) (k : Nat) : (s.incSat u f k).pending = s.pending := rfl

@[simp] theorem State.incSat_read (s : State) (u : UnitId) (f : Field) (k : Nat) : (s.incSat u f k).read = s.read := rfl

@[simp] theorem State.incSat_crumbs (s : State) (u : UnitId) (f : Field) (k : Nat) : (s.incSat u f k).crumbs = s.crumbs := rfl

@[simp] theorem State.incSat_lanes (s : State) (u : UnitId) (f : Field) (k : Nat) : (s.incSat u f k).lanes = s.lanes := rfl

@[simp] theorem State.incSat_ctr (s : State) (u : UnitId) (f : Field) (k : Nat) : (s.incSat u f k).ctr = s.ctr := rfl

@[simp] theorem State.incSat_port (s : State) (u : UnitId) (f : Field) (k : Nat) : (s.incSat u f k).port = s.port := rfl

@[simp] theorem State.incSat_mem (s : State) (u : UnitId) (f : Field) (k : Nat) : (s.incSat u f k).mem = s.mem := rfl

@[simp] theorem State.incSat_l2 (s : State) (u : UnitId) (f : Field) (k : Nat) : (s.incSat u f k).l2 = s.l2 := rfl

@[simp] theorem State.incSat_time (s : State) (u : UnitId) (f : Field) (k : Nat) : (s.incSat u f k).time = s.time := rfl

@[simp] theorem State.incSat_tc (s : State) (u : UnitId) (f : Field) (k : Nat) : (s.incSat u f k).tc = s.tc := rfl

@[simp] theorem State.incSat_tb (s : State) (u : UnitId) (f : Field) (k : Nat) : (s.incSat u f k).tb = s.tb := rfl

@[simp] theorem State.incSat_hc (s : State) (u : UnitId) (f : Field) (k : Nat) : (s.incSat u f k).hc = s.hc := rfl

@[simp] theorem State.incSat_hostOut (s : State) (u : UnitId) (f : Field) (k : Nat) : (s.incSat u f k).hostOut = s.hostOut := rfl

@[simp] theorem State.incSat_rcd (s : State) (u : UnitId) (f : Field) (k : Nat) : (s.incSat u f k).rcd = s.rcd := rfl

@[simp] theorem State.incSat_medium (s : State) (u : UnitId) (f : Field) (k : Nat) : (s.incSat u f k).medium = s.medium := rfl

@[simp] theorem State.incSat_loader (s : State) (u : UnitId) (f : Field) (k : Nat) : (s.incSat u f k).loader = s.loader := rfl

@[simp] theorem State.incSat_rp (s : State) (u : UnitId) (f : Field) (k : Nat) : (s.incSat u f k).rp = s.rp := rfl

@[simp] theorem State.incSat_slots (s : State) (u : UnitId) (f : Field) (k : Nat) : (s.incSat u f k).slots = s.slots := rfl

@[simp] theorem State.incSat_coefs (s : State) (u : UnitId) (f : Field) (k : Nat) : (s.incSat u f k).coefs = s.coefs := rfl

@[simp] theorem State.incSat_micro (s : State) (u : UnitId) (f : Field) (k : Nat) : (s.incSat u f k).micro = s.micro := rfl

@[simp] theorem State.incSat_dac (s : State) (u : UnitId) (f : Field) (k : Nat) : (s.incSat u f k).dac = s.dac := rfl

@[simp] theorem State.incSat_winCycles (s : State) (u : UnitId) (f : Field) (k : Nat) : (s.incSat u f k).winCycles = s.winCycles := rfl

@[simp] theorem State.incSat_adcIn (s : State) (u : UnitId) (f : Field) (k : Nat) : (s.incSat u f k).adcIn = s.adcIn := rfl

@[simp] theorem State.incSat_eng (s : State) (u : UnitId) (f : Field) (k : Nat) : (s.incSat u f k).eng = s.eng := rfl

@[simp] theorem State.incSat_heads (s : State) (u : UnitId) (f : Field) (k : Nat) : (s.incSat u f k).heads = s.heads := rfl

@[simp] theorem State.incSat_layTrim (s : State) (u : UnitId) (f : Field) (k : Nat) : (s.incSat u f k).layTrim = s.layTrim := rfl

@[simp] theorem State.incSat_spin (s : State) (u : UnitId) (f : Field) (k : Nat) : (s.incSat u f k).spin = s.spin := rfl

@[simp] theorem State.incSat_steps (s : State) (u : UnitId) (f : Field) (k : Nat) : (s.incSat u f k).steps = s.steps := rfl

@[simp] theorem State.incSat_stepTab (s : State) (u : UnitId) (f : Field) (k : Nat) : (s.incSat u f k).stepTab = s.stepTab := rfl

@[simp] theorem State.incSat_gear (s : State) (u : UnitId) (f : Field) (k : Nat) : (s.incSat u f k).gear = s.gear := rfl

@[simp] theorem State.incSat_vmotNs (s : State) (u : UnitId) (f : Field) (k : Nat) : (s.incSat u f k).vmotNs = s.vmotNs := rfl

@[simp] theorem State.incSat_safeHold (s : State) (u : UnitId) (f : Field) (k : Nat) : (s.incSat u f k).safeHold = s.safeHold := rfl

@[simp] theorem State.incSat_recs (s : State) (u : UnitId) (f : Field) (k : Nat) : (s.incSat u f k).recs = s.recs := rfl

@[simp] theorem State.incSat_lpt (s : State) (u : UnitId) (f : Field) (k : Nat) : (s.incSat u f k).lpt = s.lpt := rfl

@[simp] theorem State.incSat_bg (s : State) (u : UnitId) (f : Field) (k : Nat) : (s.incSat u f k).bg = s.bg := rfl

@[simp] theorem State.incSat_rg (s : State) (u : UnitId) (f : Field) (k : Nat) : (s.incSat u f k).rg = s.rg := rfl

@[simp] theorem State.incSat_pl (s : State) (u : UnitId) (f : Field) (k : Nat) : (s.incSat u f k).pl = s.pl := rfl

@[simp] theorem State.incSat_cores (s : State) (u : UnitId) (f : Field) (k : Nat) : (s.incSat u f k).cores = s.cores := rfl

@[simp] theorem State.incSat_pw (s : State) (u : UnitId) (f : Field) (k : Nat) : (s.incSat u f k).pw = s.pw := rfl

@[simp] theorem State.incSat_th (s : State) (u : UnitId) (f : Field) (k : Nat) : (s.incSat u f k).th = s.th := rfl

@[simp] theorem State.incSat_fw (s : State) (u : UnitId) (f : Field) (k : Nat) : (s.incSat u f k).fw = s.fw := rfl

/-! ### bump -/

@[simp] theorem State.bump_pending (s : State) (i n : Nat) : (s.bump i n).pending = s.pending := by unfold State.bump; dsimp only; split <;> rfl

@[simp] theorem State.bump_read (s : State) (i n : Nat) : (s.bump i n).read = s.read := by unfold State.bump; dsimp only; split <;> rfl

@[simp] theorem State.bump_crumbs (s : State) (i n : Nat) : (s.bump i n).crumbs = s.crumbs := by unfold State.bump; dsimp only; split <;> rfl

@[simp] theorem State.bump_lanes (s : State) (i n : Nat) : (s.bump i n).lanes = s.lanes := by unfold State.bump; dsimp only; split <;> rfl

@[simp] theorem State.bump_port (s : State) (i n : Nat) : (s.bump i n).port = s.port := by unfold State.bump; dsimp only; split <;> rfl

@[simp] theorem State.bump_mem (s : State) (i n : Nat) : (s.bump i n).mem = s.mem := by unfold State.bump; dsimp only; split <;> rfl

@[simp] theorem State.bump_l2 (s : State) (i n : Nat) : (s.bump i n).l2 = s.l2 := by unfold State.bump; dsimp only; split <;> rfl

@[simp] theorem State.bump_time (s : State) (i n : Nat) : (s.bump i n).time = s.time := by unfold State.bump; dsimp only; split <;> rfl

@[simp] theorem State.bump_tc (s : State) (i n : Nat) : (s.bump i n).tc = s.tc := by unfold State.bump; dsimp only; split <;> rfl

@[simp] theorem State.bump_tb (s : State) (i n : Nat) : (s.bump i n).tb = s.tb := by unfold State.bump; dsimp only; split <;> rfl

@[simp] theorem State.bump_hc (s : State) (i n : Nat) : (s.bump i n).hc = s.hc := by unfold State.bump; dsimp only; split <;> rfl

@[simp] theorem State.bump_hostOut (s : State) (i n : Nat) : (s.bump i n).hostOut = s.hostOut := by unfold State.bump; dsimp only; split <;> rfl

@[simp] theorem State.bump_rcd (s : State) (i n : Nat) : (s.bump i n).rcd = s.rcd := by unfold State.bump; dsimp only; split <;> rfl

@[simp] theorem State.bump_medium (s : State) (i n : Nat) : (s.bump i n).medium = s.medium := by unfold State.bump; dsimp only; split <;> rfl

@[simp] theorem State.bump_loader (s : State) (i n : Nat) : (s.bump i n).loader = s.loader := by unfold State.bump; dsimp only; split <;> rfl

@[simp] theorem State.bump_rp (s : State) (i n : Nat) : (s.bump i n).rp = s.rp := by unfold State.bump; dsimp only; split <;> rfl

@[simp] theorem State.bump_slots (s : State) (i n : Nat) : (s.bump i n).slots = s.slots := by unfold State.bump; dsimp only; split <;> rfl

@[simp] theorem State.bump_coefs (s : State) (i n : Nat) : (s.bump i n).coefs = s.coefs := by unfold State.bump; dsimp only; split <;> rfl

@[simp] theorem State.bump_micro (s : State) (i n : Nat) : (s.bump i n).micro = s.micro := by unfold State.bump; dsimp only; split <;> rfl

@[simp] theorem State.bump_dac (s : State) (i n : Nat) : (s.bump i n).dac = s.dac := by unfold State.bump; dsimp only; split <;> rfl

@[simp] theorem State.bump_winCycles (s : State) (i n : Nat) : (s.bump i n).winCycles = s.winCycles := by unfold State.bump; dsimp only; split <;> rfl

@[simp] theorem State.bump_adcIn (s : State) (i n : Nat) : (s.bump i n).adcIn = s.adcIn := by unfold State.bump; dsimp only; split <;> rfl

@[simp] theorem State.bump_eng (s : State) (i n : Nat) : (s.bump i n).eng = s.eng := by unfold State.bump; dsimp only; split <;> rfl

@[simp] theorem State.bump_heads (s : State) (i n : Nat) : (s.bump i n).heads = s.heads := by unfold State.bump; dsimp only; split <;> rfl

@[simp] theorem State.bump_layTrim (s : State) (i n : Nat) : (s.bump i n).layTrim = s.layTrim := by unfold State.bump; dsimp only; split <;> rfl

@[simp] theorem State.bump_spin (s : State) (i n : Nat) : (s.bump i n).spin = s.spin := by unfold State.bump; dsimp only; split <;> rfl

@[simp] theorem State.bump_steps (s : State) (i n : Nat) : (s.bump i n).steps = s.steps := by unfold State.bump; dsimp only; split <;> rfl

@[simp] theorem State.bump_stepTab (s : State) (i n : Nat) : (s.bump i n).stepTab = s.stepTab := by unfold State.bump; dsimp only; split <;> rfl

@[simp] theorem State.bump_gear (s : State) (i n : Nat) : (s.bump i n).gear = s.gear := by unfold State.bump; dsimp only; split <;> rfl

@[simp] theorem State.bump_vmotNs (s : State) (i n : Nat) : (s.bump i n).vmotNs = s.vmotNs := by unfold State.bump; dsimp only; split <;> rfl

@[simp] theorem State.bump_safeHold (s : State) (i n : Nat) : (s.bump i n).safeHold = s.safeHold := by unfold State.bump; dsimp only; split <;> rfl

@[simp] theorem State.bump_recs (s : State) (i n : Nat) : (s.bump i n).recs = s.recs := by unfold State.bump; dsimp only; split <;> rfl

@[simp] theorem State.bump_lpt (s : State) (i n : Nat) : (s.bump i n).lpt = s.lpt := by unfold State.bump; dsimp only; split <;> rfl

@[simp] theorem State.bump_bg (s : State) (i n : Nat) : (s.bump i n).bg = s.bg := by unfold State.bump; dsimp only; split <;> rfl

@[simp] theorem State.bump_rg (s : State) (i n : Nat) : (s.bump i n).rg = s.rg := by unfold State.bump; dsimp only; split <;> rfl

@[simp] theorem State.bump_pl (s : State) (i n : Nat) : (s.bump i n).pl = s.pl := by unfold State.bump; dsimp only; split <;> rfl

@[simp] theorem State.bump_cores (s : State) (i n : Nat) : (s.bump i n).cores = s.cores := by unfold State.bump; dsimp only; split <;> rfl

@[simp] theorem State.bump_pw (s : State) (i n : Nat) : (s.bump i n).pw = s.pw := by unfold State.bump; dsimp only; split <;> rfl

@[simp] theorem State.bump_th (s : State) (i n : Nat) : (s.bump i n).th = s.th := by unfold State.bump; dsimp only; split <;> rfl

@[simp] theorem State.bump_fw (s : State) (i n : Nat) : (s.bump i n).fw = s.fw := by unfold State.bump; dsimp only; split <;> rfl

/-! ### setEvBit -/

@[simp] theorem State.setEvBit_pending (s : State) (u : UnitId) (b : Nat) : (s.setEvBit u b).pending = s.pending := by unfold State.setEvBit; split <;> simp

@[simp] theorem State.setEvBit_read (s : State) (u : UnitId) (b : Nat) : (s.setEvBit u b).read = s.read := by unfold State.setEvBit; split <;> simp

@[simp] theorem State.setEvBit_crumbs (s : State) (u : UnitId) (b : Nat) : (s.setEvBit u b).crumbs = s.crumbs := by unfold State.setEvBit; split <;> simp

@[simp] theorem State.setEvBit_lanes (s : State) (u : UnitId) (b : Nat) : (s.setEvBit u b).lanes = s.lanes := by unfold State.setEvBit; split <;> simp

@[simp] theorem State.setEvBit_port (s : State) (u : UnitId) (b : Nat) : (s.setEvBit u b).port = s.port := by unfold State.setEvBit; split <;> simp

@[simp] theorem State.setEvBit_mem (s : State) (u : UnitId) (b : Nat) : (s.setEvBit u b).mem = s.mem := by unfold State.setEvBit; split <;> simp

@[simp] theorem State.setEvBit_l2 (s : State) (u : UnitId) (b : Nat) : (s.setEvBit u b).l2 = s.l2 := by unfold State.setEvBit; split <;> simp

@[simp] theorem State.setEvBit_time (s : State) (u : UnitId) (b : Nat) : (s.setEvBit u b).time = s.time := by unfold State.setEvBit; split <;> simp

@[simp] theorem State.setEvBit_tc (s : State) (u : UnitId) (b : Nat) : (s.setEvBit u b).tc = s.tc := by unfold State.setEvBit; split <;> simp

@[simp] theorem State.setEvBit_tb (s : State) (u : UnitId) (b : Nat) : (s.setEvBit u b).tb = s.tb := by unfold State.setEvBit; split <;> simp

@[simp] theorem State.setEvBit_hc (s : State) (u : UnitId) (b : Nat) : (s.setEvBit u b).hc = s.hc := by unfold State.setEvBit; split <;> simp

@[simp] theorem State.setEvBit_hostOut (s : State) (u : UnitId) (b : Nat) : (s.setEvBit u b).hostOut = s.hostOut := by unfold State.setEvBit; split <;> simp

@[simp] theorem State.setEvBit_rcd (s : State) (u : UnitId) (b : Nat) : (s.setEvBit u b).rcd = s.rcd := by unfold State.setEvBit; split <;> simp

@[simp] theorem State.setEvBit_medium (s : State) (u : UnitId) (b : Nat) : (s.setEvBit u b).medium = s.medium := by unfold State.setEvBit; split <;> simp

@[simp] theorem State.setEvBit_loader (s : State) (u : UnitId) (b : Nat) : (s.setEvBit u b).loader = s.loader := by unfold State.setEvBit; split <;> simp

@[simp] theorem State.setEvBit_rp (s : State) (u : UnitId) (b : Nat) : (s.setEvBit u b).rp = s.rp := by unfold State.setEvBit; split <;> simp

@[simp] theorem State.setEvBit_slots (s : State) (u : UnitId) (b : Nat) : (s.setEvBit u b).slots = s.slots := by unfold State.setEvBit; split <;> simp

@[simp] theorem State.setEvBit_coefs (s : State) (u : UnitId) (b : Nat) : (s.setEvBit u b).coefs = s.coefs := by unfold State.setEvBit; split <;> simp

@[simp] theorem State.setEvBit_micro (s : State) (u : UnitId) (b : Nat) : (s.setEvBit u b).micro = s.micro := by unfold State.setEvBit; split <;> simp

@[simp] theorem State.setEvBit_dac (s : State) (u : UnitId) (b : Nat) : (s.setEvBit u b).dac = s.dac := by unfold State.setEvBit; split <;> simp

@[simp] theorem State.setEvBit_winCycles (s : State) (u : UnitId) (b : Nat) : (s.setEvBit u b).winCycles = s.winCycles := by unfold State.setEvBit; split <;> simp

@[simp] theorem State.setEvBit_adcIn (s : State) (u : UnitId) (b : Nat) : (s.setEvBit u b).adcIn = s.adcIn := by unfold State.setEvBit; split <;> simp

@[simp] theorem State.setEvBit_eng (s : State) (u : UnitId) (b : Nat) : (s.setEvBit u b).eng = s.eng := by unfold State.setEvBit; split <;> simp

@[simp] theorem State.setEvBit_heads (s : State) (u : UnitId) (b : Nat) : (s.setEvBit u b).heads = s.heads := by unfold State.setEvBit; split <;> simp

@[simp] theorem State.setEvBit_layTrim (s : State) (u : UnitId) (b : Nat) : (s.setEvBit u b).layTrim = s.layTrim := by unfold State.setEvBit; split <;> simp

@[simp] theorem State.setEvBit_spin (s : State) (u : UnitId) (b : Nat) : (s.setEvBit u b).spin = s.spin := by unfold State.setEvBit; split <;> simp

@[simp] theorem State.setEvBit_steps (s : State) (u : UnitId) (b : Nat) : (s.setEvBit u b).steps = s.steps := by unfold State.setEvBit; split <;> simp

@[simp] theorem State.setEvBit_stepTab (s : State) (u : UnitId) (b : Nat) : (s.setEvBit u b).stepTab = s.stepTab := by unfold State.setEvBit; split <;> simp

@[simp] theorem State.setEvBit_gear (s : State) (u : UnitId) (b : Nat) : (s.setEvBit u b).gear = s.gear := by unfold State.setEvBit; split <;> simp

@[simp] theorem State.setEvBit_vmotNs (s : State) (u : UnitId) (b : Nat) : (s.setEvBit u b).vmotNs = s.vmotNs := by unfold State.setEvBit; split <;> simp

@[simp] theorem State.setEvBit_safeHold (s : State) (u : UnitId) (b : Nat) : (s.setEvBit u b).safeHold = s.safeHold := by unfold State.setEvBit; split <;> simp

@[simp] theorem State.setEvBit_recs (s : State) (u : UnitId) (b : Nat) : (s.setEvBit u b).recs = s.recs := by unfold State.setEvBit; split <;> simp

@[simp] theorem State.setEvBit_lpt (s : State) (u : UnitId) (b : Nat) : (s.setEvBit u b).lpt = s.lpt := by unfold State.setEvBit; split <;> simp

@[simp] theorem State.setEvBit_bg (s : State) (u : UnitId) (b : Nat) : (s.setEvBit u b).bg = s.bg := by unfold State.setEvBit; split <;> simp

@[simp] theorem State.setEvBit_rg (s : State) (u : UnitId) (b : Nat) : (s.setEvBit u b).rg = s.rg := by unfold State.setEvBit; split <;> simp

@[simp] theorem State.setEvBit_pl (s : State) (u : UnitId) (b : Nat) : (s.setEvBit u b).pl = s.pl := by unfold State.setEvBit; split <;> simp

@[simp] theorem State.setEvBit_cores (s : State) (u : UnitId) (b : Nat) : (s.setEvBit u b).cores = s.cores := by unfold State.setEvBit; split <;> simp

@[simp] theorem State.setEvBit_pw (s : State) (u : UnitId) (b : Nat) : (s.setEvBit u b).pw = s.pw := by unfold State.setEvBit; split <;> simp

@[simp] theorem State.setEvBit_th (s : State) (u : UnitId) (b : Nat) : (s.setEvBit u b).th = s.th := by unfold State.setEvBit; split <;> simp

@[simp] theorem State.setEvBit_fw (s : State) (u : UnitId) (b : Nat) : (s.setEvBit u b).fw = s.fw := by unfold State.setEvBit; split <;> simp

/-! ### sendMsix -/

@[simp] theorem State.sendMsix_pending (s : State) (v : Nat) : (s.sendMsix v).pending = s.pending := by simp [State.sendMsix]

@[simp] theorem State.sendMsix_read (s : State) (v : Nat) : (s.sendMsix v).read = s.read := by simp [State.sendMsix]

@[simp] theorem State.sendMsix_crumbs (s : State) (v : Nat) : (s.sendMsix v).crumbs = s.crumbs := by simp [State.sendMsix]

@[simp] theorem State.sendMsix_lanes (s : State) (v : Nat) : (s.sendMsix v).lanes = s.lanes := by simp [State.sendMsix]

@[simp] theorem State.sendMsix_mem (s : State) (v : Nat) : (s.sendMsix v).mem = s.mem := by simp [State.sendMsix]

@[simp] theorem State.sendMsix_l2 (s : State) (v : Nat) : (s.sendMsix v).l2 = s.l2 := by simp [State.sendMsix]

@[simp] theorem State.sendMsix_time (s : State) (v : Nat) : (s.sendMsix v).time = s.time := by simp [State.sendMsix]

@[simp] theorem State.sendMsix_tc (s : State) (v : Nat) : (s.sendMsix v).tc = s.tc := by simp [State.sendMsix]

@[simp] theorem State.sendMsix_tb (s : State) (v : Nat) : (s.sendMsix v).tb = s.tb := by simp [State.sendMsix]

@[simp] theorem State.sendMsix_hc (s : State) (v : Nat) : (s.sendMsix v).hc = s.hc := by simp [State.sendMsix]

@[simp] theorem State.sendMsix_hostOut (s : State) (v : Nat) : (s.sendMsix v).hostOut = s.hostOut := by simp [State.sendMsix]

@[simp] theorem State.sendMsix_rcd (s : State) (v : Nat) : (s.sendMsix v).rcd = s.rcd := by simp [State.sendMsix]

@[simp] theorem State.sendMsix_medium (s : State) (v : Nat) : (s.sendMsix v).medium = s.medium := by simp [State.sendMsix]

@[simp] theorem State.sendMsix_loader (s : State) (v : Nat) : (s.sendMsix v).loader = s.loader := by simp [State.sendMsix]

@[simp] theorem State.sendMsix_rp (s : State) (v : Nat) : (s.sendMsix v).rp = s.rp := by simp [State.sendMsix]

@[simp] theorem State.sendMsix_slots (s : State) (v : Nat) : (s.sendMsix v).slots = s.slots := by simp [State.sendMsix]

@[simp] theorem State.sendMsix_coefs (s : State) (v : Nat) : (s.sendMsix v).coefs = s.coefs := by simp [State.sendMsix]

@[simp] theorem State.sendMsix_micro (s : State) (v : Nat) : (s.sendMsix v).micro = s.micro := by simp [State.sendMsix]

@[simp] theorem State.sendMsix_dac (s : State) (v : Nat) : (s.sendMsix v).dac = s.dac := by simp [State.sendMsix]

@[simp] theorem State.sendMsix_winCycles (s : State) (v : Nat) : (s.sendMsix v).winCycles = s.winCycles := by simp [State.sendMsix]

@[simp] theorem State.sendMsix_adcIn (s : State) (v : Nat) : (s.sendMsix v).adcIn = s.adcIn := by simp [State.sendMsix]

@[simp] theorem State.sendMsix_eng (s : State) (v : Nat) : (s.sendMsix v).eng = s.eng := by simp [State.sendMsix]

@[simp] theorem State.sendMsix_heads (s : State) (v : Nat) : (s.sendMsix v).heads = s.heads := by simp [State.sendMsix]

@[simp] theorem State.sendMsix_layTrim (s : State) (v : Nat) : (s.sendMsix v).layTrim = s.layTrim := by simp [State.sendMsix]

@[simp] theorem State.sendMsix_spin (s : State) (v : Nat) : (s.sendMsix v).spin = s.spin := by simp [State.sendMsix]

@[simp] theorem State.sendMsix_steps (s : State) (v : Nat) : (s.sendMsix v).steps = s.steps := by simp [State.sendMsix]

@[simp] theorem State.sendMsix_stepTab (s : State) (v : Nat) : (s.sendMsix v).stepTab = s.stepTab := by simp [State.sendMsix]

@[simp] theorem State.sendMsix_gear (s : State) (v : Nat) : (s.sendMsix v).gear = s.gear := by simp [State.sendMsix]

@[simp] theorem State.sendMsix_vmotNs (s : State) (v : Nat) : (s.sendMsix v).vmotNs = s.vmotNs := by simp [State.sendMsix]

@[simp] theorem State.sendMsix_safeHold (s : State) (v : Nat) : (s.sendMsix v).safeHold = s.safeHold := by simp [State.sendMsix]

@[simp] theorem State.sendMsix_recs (s : State) (v : Nat) : (s.sendMsix v).recs = s.recs := by simp [State.sendMsix]

@[simp] theorem State.sendMsix_lpt (s : State) (v : Nat) : (s.sendMsix v).lpt = s.lpt := by simp [State.sendMsix]

@[simp] theorem State.sendMsix_bg (s : State) (v : Nat) : (s.sendMsix v).bg = s.bg := by simp [State.sendMsix]

@[simp] theorem State.sendMsix_rg (s : State) (v : Nat) : (s.sendMsix v).rg = s.rg := by simp [State.sendMsix]

@[simp] theorem State.sendMsix_pl (s : State) (v : Nat) : (s.sendMsix v).pl = s.pl := by simp [State.sendMsix]

@[simp] theorem State.sendMsix_cores (s : State) (v : Nat) : (s.sendMsix v).cores = s.cores := by simp [State.sendMsix]

@[simp] theorem State.sendMsix_pw (s : State) (v : Nat) : (s.sendMsix v).pw = s.pw := by simp [State.sendMsix]

@[simp] theorem State.sendMsix_th (s : State) (v : Nat) : (s.sendMsix v).th = s.th := by simp [State.sendMsix]

@[simp] theorem State.sendMsix_fw (s : State) (v : Nat) : (s.sendMsix v).fw = s.fw := by simp [State.sendMsix]

/-! ### laneMessage -/

@[simp] theorem State.laneMessage_pending (s : State) (n : Nat) : (s.laneMessage n).pending = s.pending := by unfold State.laneMessage; dsimp only; split <;> simp

@[simp] theorem State.laneMessage_read (s : State) (n : Nat) : (s.laneMessage n).read = s.read := by unfold State.laneMessage; dsimp only; split <;> simp

@[simp] theorem State.laneMessage_crumbs (s : State) (n : Nat) : (s.laneMessage n).crumbs = s.crumbs := by unfold State.laneMessage; dsimp only; split <;> simp

@[simp] theorem State.laneMessage_mem (s : State) (n : Nat) : (s.laneMessage n).mem = s.mem := by unfold State.laneMessage; dsimp only; split <;> simp

@[simp] theorem State.laneMessage_l2 (s : State) (n : Nat) : (s.laneMessage n).l2 = s.l2 := by unfold State.laneMessage; dsimp only; split <;> simp

@[simp] theorem State.laneMessage_time (s : State) (n : Nat) : (s.laneMessage n).time = s.time := by unfold State.laneMessage; dsimp only; split <;> simp

@[simp] theorem State.laneMessage_tc (s : State) (n : Nat) : (s.laneMessage n).tc = s.tc := by unfold State.laneMessage; dsimp only; split <;> simp

@[simp] theorem State.laneMessage_tb (s : State) (n : Nat) : (s.laneMessage n).tb = s.tb := by unfold State.laneMessage; dsimp only; split <;> simp

@[simp] theorem State.laneMessage_hc (s : State) (n : Nat) : (s.laneMessage n).hc = s.hc := by unfold State.laneMessage; dsimp only; split <;> simp

@[simp] theorem State.laneMessage_hostOut (s : State) (n : Nat) : (s.laneMessage n).hostOut = s.hostOut := by unfold State.laneMessage; dsimp only; split <;> simp

@[simp] theorem State.laneMessage_rcd (s : State) (n : Nat) : (s.laneMessage n).rcd = s.rcd := by unfold State.laneMessage; dsimp only; split <;> simp

@[simp] theorem State.laneMessage_medium (s : State) (n : Nat) : (s.laneMessage n).medium = s.medium := by unfold State.laneMessage; dsimp only; split <;> simp

@[simp] theorem State.laneMessage_loader (s : State) (n : Nat) : (s.laneMessage n).loader = s.loader := by unfold State.laneMessage; dsimp only; split <;> simp

@[simp] theorem State.laneMessage_rp (s : State) (n : Nat) : (s.laneMessage n).rp = s.rp := by unfold State.laneMessage; dsimp only; split <;> simp

@[simp] theorem State.laneMessage_slots (s : State) (n : Nat) : (s.laneMessage n).slots = s.slots := by unfold State.laneMessage; dsimp only; split <;> simp

@[simp] theorem State.laneMessage_coefs (s : State) (n : Nat) : (s.laneMessage n).coefs = s.coefs := by unfold State.laneMessage; dsimp only; split <;> simp

@[simp] theorem State.laneMessage_micro (s : State) (n : Nat) : (s.laneMessage n).micro = s.micro := by unfold State.laneMessage; dsimp only; split <;> simp

@[simp] theorem State.laneMessage_dac (s : State) (n : Nat) : (s.laneMessage n).dac = s.dac := by unfold State.laneMessage; dsimp only; split <;> simp

@[simp] theorem State.laneMessage_winCycles (s : State) (n : Nat) : (s.laneMessage n).winCycles = s.winCycles := by unfold State.laneMessage; dsimp only; split <;> simp

@[simp] theorem State.laneMessage_adcIn (s : State) (n : Nat) : (s.laneMessage n).adcIn = s.adcIn := by unfold State.laneMessage; dsimp only; split <;> simp

@[simp] theorem State.laneMessage_eng (s : State) (n : Nat) : (s.laneMessage n).eng = s.eng := by unfold State.laneMessage; dsimp only; split <;> simp

@[simp] theorem State.laneMessage_heads (s : State) (n : Nat) : (s.laneMessage n).heads = s.heads := by unfold State.laneMessage; dsimp only; split <;> simp

@[simp] theorem State.laneMessage_layTrim (s : State) (n : Nat) : (s.laneMessage n).layTrim = s.layTrim := by unfold State.laneMessage; dsimp only; split <;> simp

@[simp] theorem State.laneMessage_spin (s : State) (n : Nat) : (s.laneMessage n).spin = s.spin := by unfold State.laneMessage; dsimp only; split <;> simp

@[simp] theorem State.laneMessage_steps (s : State) (n : Nat) : (s.laneMessage n).steps = s.steps := by unfold State.laneMessage; dsimp only; split <;> simp

@[simp] theorem State.laneMessage_stepTab (s : State) (n : Nat) : (s.laneMessage n).stepTab = s.stepTab := by unfold State.laneMessage; dsimp only; split <;> simp

@[simp] theorem State.laneMessage_gear (s : State) (n : Nat) : (s.laneMessage n).gear = s.gear := by unfold State.laneMessage; dsimp only; split <;> simp

@[simp] theorem State.laneMessage_vmotNs (s : State) (n : Nat) : (s.laneMessage n).vmotNs = s.vmotNs := by unfold State.laneMessage; dsimp only; split <;> simp

@[simp] theorem State.laneMessage_safeHold (s : State) (n : Nat) : (s.laneMessage n).safeHold = s.safeHold := by unfold State.laneMessage; dsimp only; split <;> simp

@[simp] theorem State.laneMessage_recs (s : State) (n : Nat) : (s.laneMessage n).recs = s.recs := by unfold State.laneMessage; dsimp only; split <;> simp

@[simp] theorem State.laneMessage_lpt (s : State) (n : Nat) : (s.laneMessage n).lpt = s.lpt := by unfold State.laneMessage; dsimp only; split <;> simp

@[simp] theorem State.laneMessage_bg (s : State) (n : Nat) : (s.laneMessage n).bg = s.bg := by unfold State.laneMessage; dsimp only; split <;> simp

@[simp] theorem State.laneMessage_rg (s : State) (n : Nat) : (s.laneMessage n).rg = s.rg := by unfold State.laneMessage; dsimp only; split <;> simp

@[simp] theorem State.laneMessage_pl (s : State) (n : Nat) : (s.laneMessage n).pl = s.pl := by unfold State.laneMessage; dsimp only; split <;> simp

@[simp] theorem State.laneMessage_cores (s : State) (n : Nat) : (s.laneMessage n).cores = s.cores := by unfold State.laneMessage; dsimp only; split <;> simp

@[simp] theorem State.laneMessage_pw (s : State) (n : Nat) : (s.laneMessage n).pw = s.pw := by unfold State.laneMessage; dsimp only; split <;> simp

@[simp] theorem State.laneMessage_th (s : State) (n : Nat) : (s.laneMessage n).th = s.th := by unfold State.laneMessage; dsimp only; split <;> simp

@[simp] theorem State.laneMessage_fw (s : State) (n : Nat) : (s.laneMessage n).fw = s.fw := by unfold State.laneMessage; dsimp only; split <;> simp

/-! ### raise0 -/

@[simp] theorem State.raise0_pending (s : State) (u : UnitId) (b : Nat) : (s.raise0 u b).pending = s.pending := by unfold State.raise0 State.afterEv; split <;> (try split) <;> simp

@[simp] theorem State.raise0_read (s : State) (u : UnitId) (b : Nat) : (s.raise0 u b).read = s.read := by unfold State.raise0 State.afterEv; split <;> (try split) <;> simp

@[simp] theorem State.raise0_crumbs (s : State) (u : UnitId) (b : Nat) : (s.raise0 u b).crumbs = s.crumbs := by unfold State.raise0 State.afterEv; split <;> (try split) <;> simp

@[simp] theorem State.raise0_mem (s : State) (u : UnitId) (b : Nat) : (s.raise0 u b).mem = s.mem := by unfold State.raise0 State.afterEv; split <;> (try split) <;> simp

@[simp] theorem State.raise0_l2 (s : State) (u : UnitId) (b : Nat) : (s.raise0 u b).l2 = s.l2 := by unfold State.raise0 State.afterEv; split <;> (try split) <;> simp

@[simp] theorem State.raise0_time (s : State) (u : UnitId) (b : Nat) : (s.raise0 u b).time = s.time := by unfold State.raise0 State.afterEv; split <;> (try split) <;> simp

@[simp] theorem State.raise0_tc (s : State) (u : UnitId) (b : Nat) : (s.raise0 u b).tc = s.tc := by unfold State.raise0 State.afterEv; split <;> (try split) <;> simp

@[simp] theorem State.raise0_tb (s : State) (u : UnitId) (b : Nat) : (s.raise0 u b).tb = s.tb := by unfold State.raise0 State.afterEv; split <;> (try split) <;> simp

@[simp] theorem State.raise0_hc (s : State) (u : UnitId) (b : Nat) : (s.raise0 u b).hc = s.hc := by unfold State.raise0 State.afterEv; split <;> (try split) <;> simp

@[simp] theorem State.raise0_hostOut (s : State) (u : UnitId) (b : Nat) : (s.raise0 u b).hostOut = s.hostOut := by unfold State.raise0 State.afterEv; split <;> (try split) <;> simp

@[simp] theorem State.raise0_rcd (s : State) (u : UnitId) (b : Nat) : (s.raise0 u b).rcd = s.rcd := by unfold State.raise0 State.afterEv; split <;> (try split) <;> simp

@[simp] theorem State.raise0_medium (s : State) (u : UnitId) (b : Nat) : (s.raise0 u b).medium = s.medium := by unfold State.raise0 State.afterEv; split <;> (try split) <;> simp

@[simp] theorem State.raise0_loader (s : State) (u : UnitId) (b : Nat) : (s.raise0 u b).loader = s.loader := by unfold State.raise0 State.afterEv; split <;> (try split) <;> simp

@[simp] theorem State.raise0_rp (s : State) (u : UnitId) (b : Nat) : (s.raise0 u b).rp = s.rp := by unfold State.raise0 State.afterEv; split <;> (try split) <;> simp

@[simp] theorem State.raise0_slots (s : State) (u : UnitId) (b : Nat) : (s.raise0 u b).slots = s.slots := by unfold State.raise0 State.afterEv; split <;> (try split) <;> simp

@[simp] theorem State.raise0_coefs (s : State) (u : UnitId) (b : Nat) : (s.raise0 u b).coefs = s.coefs := by unfold State.raise0 State.afterEv; split <;> (try split) <;> simp

@[simp] theorem State.raise0_micro (s : State) (u : UnitId) (b : Nat) : (s.raise0 u b).micro = s.micro := by unfold State.raise0 State.afterEv; split <;> (try split) <;> simp

@[simp] theorem State.raise0_dac (s : State) (u : UnitId) (b : Nat) : (s.raise0 u b).dac = s.dac := by unfold State.raise0 State.afterEv; split <;> (try split) <;> simp

@[simp] theorem State.raise0_winCycles (s : State) (u : UnitId) (b : Nat) : (s.raise0 u b).winCycles = s.winCycles := by unfold State.raise0 State.afterEv; split <;> (try split) <;> simp

@[simp] theorem State.raise0_adcIn (s : State) (u : UnitId) (b : Nat) : (s.raise0 u b).adcIn = s.adcIn := by unfold State.raise0 State.afterEv; split <;> (try split) <;> simp

@[simp] theorem State.raise0_eng (s : State) (u : UnitId) (b : Nat) : (s.raise0 u b).eng = s.eng := by unfold State.raise0 State.afterEv; split <;> (try split) <;> simp

@[simp] theorem State.raise0_heads (s : State) (u : UnitId) (b : Nat) : (s.raise0 u b).heads = s.heads := by unfold State.raise0 State.afterEv; split <;> (try split) <;> simp

@[simp] theorem State.raise0_layTrim (s : State) (u : UnitId) (b : Nat) : (s.raise0 u b).layTrim = s.layTrim := by unfold State.raise0 State.afterEv; split <;> (try split) <;> simp

@[simp] theorem State.raise0_spin (s : State) (u : UnitId) (b : Nat) : (s.raise0 u b).spin = s.spin := by unfold State.raise0 State.afterEv; split <;> (try split) <;> simp

@[simp] theorem State.raise0_steps (s : State) (u : UnitId) (b : Nat) : (s.raise0 u b).steps = s.steps := by unfold State.raise0 State.afterEv; split <;> (try split) <;> simp

@[simp] theorem State.raise0_stepTab (s : State) (u : UnitId) (b : Nat) : (s.raise0 u b).stepTab = s.stepTab := by unfold State.raise0 State.afterEv; split <;> (try split) <;> simp

@[simp] theorem State.raise0_gear (s : State) (u : UnitId) (b : Nat) : (s.raise0 u b).gear = s.gear := by unfold State.raise0 State.afterEv; split <;> (try split) <;> simp

@[simp] theorem State.raise0_vmotNs (s : State) (u : UnitId) (b : Nat) : (s.raise0 u b).vmotNs = s.vmotNs := by unfold State.raise0 State.afterEv; split <;> (try split) <;> simp

@[simp] theorem State.raise0_safeHold (s : State) (u : UnitId) (b : Nat) : (s.raise0 u b).safeHold = s.safeHold := by unfold State.raise0 State.afterEv; split <;> (try split) <;> simp

@[simp] theorem State.raise0_recs (s : State) (u : UnitId) (b : Nat) : (s.raise0 u b).recs = s.recs := by unfold State.raise0 State.afterEv; split <;> (try split) <;> simp

@[simp] theorem State.raise0_lpt (s : State) (u : UnitId) (b : Nat) : (s.raise0 u b).lpt = s.lpt := by unfold State.raise0 State.afterEv; split <;> (try split) <;> simp

@[simp] theorem State.raise0_bg (s : State) (u : UnitId) (b : Nat) : (s.raise0 u b).bg = s.bg := by unfold State.raise0 State.afterEv; split <;> (try split) <;> simp

@[simp] theorem State.raise0_rg (s : State) (u : UnitId) (b : Nat) : (s.raise0 u b).rg = s.rg := by unfold State.raise0 State.afterEv; split <;> (try split) <;> simp

@[simp] theorem State.raise0_pl (s : State) (u : UnitId) (b : Nat) : (s.raise0 u b).pl = s.pl := by unfold State.raise0 State.afterEv; split <;> (try split) <;> simp

@[simp] theorem State.raise0_cores (s : State) (u : UnitId) (b : Nat) : (s.raise0 u b).cores = s.cores := by unfold State.raise0 State.afterEv; split <;> (try split) <;> simp

@[simp] theorem State.raise0_pw (s : State) (u : UnitId) (b : Nat) : (s.raise0 u b).pw = s.pw := by unfold State.raise0 State.afterEv; split <;> (try split) <;> simp

@[simp] theorem State.raise0_th (s : State) (u : UnitId) (b : Nat) : (s.raise0 u b).th = s.th := by unfold State.raise0 State.afterEv; split <;> (try split) <;> simp

@[simp] theorem State.raise0_fw (s : State) (u : UnitId) (b : Nat) : (s.raise0 u b).fw = s.fw := by unfold State.raise0 State.afterEv; split <;> (try split) <;> simp

/-! ### raise -/

@[simp] theorem State.raise_pending (s : State) (u : UnitId) (b : Nat) : (s.raise u b).pending = s.pending := by unfold State.raise State.noteWrap; split <;> simp

@[simp] theorem State.raise_read (s : State) (u : UnitId) (b : Nat) : (s.raise u b).read = s.read := by unfold State.raise State.noteWrap; split <;> simp

@[simp] theorem State.raise_crumbs (s : State) (u : UnitId) (b : Nat) : (s.raise u b).crumbs = s.crumbs := by unfold State.raise State.noteWrap; split <;> simp

@[simp] theorem State.raise_mem (s : State) (u : UnitId) (b : Nat) : (s.raise u b).mem = s.mem := by unfold State.raise State.noteWrap; split <;> simp

@[simp] theorem State.raise_l2 (s : State) (u : UnitId) (b : Nat) : (s.raise u b).l2 = s.l2 := by unfold State.raise State.noteWrap; split <;> simp

@[simp] theorem State.raise_time (s : State) (u : UnitId) (b : Nat) : (s.raise u b).time = s.time := by unfold State.raise State.noteWrap; split <;> simp

@[simp] theorem State.raise_tc (s : State) (u : UnitId) (b : Nat) : (s.raise u b).tc = s.tc := by unfold State.raise State.noteWrap; split <;> simp

@[simp] theorem State.raise_tb (s : State) (u : UnitId) (b : Nat) : (s.raise u b).tb = s.tb := by unfold State.raise State.noteWrap; split <;> simp

@[simp] theorem State.raise_hc (s : State) (u : UnitId) (b : Nat) : (s.raise u b).hc = s.hc := by unfold State.raise State.noteWrap; split <;> simp

@[simp] theorem State.raise_hostOut (s : State) (u : UnitId) (b : Nat) : (s.raise u b).hostOut = s.hostOut := by unfold State.raise State.noteWrap; split <;> simp

@[simp] theorem State.raise_rcd (s : State) (u : UnitId) (b : Nat) : (s.raise u b).rcd = s.rcd := by unfold State.raise State.noteWrap; split <;> simp

@[simp] theorem State.raise_medium (s : State) (u : UnitId) (b : Nat) : (s.raise u b).medium = s.medium := by unfold State.raise State.noteWrap; split <;> simp

@[simp] theorem State.raise_loader (s : State) (u : UnitId) (b : Nat) : (s.raise u b).loader = s.loader := by unfold State.raise State.noteWrap; split <;> simp

@[simp] theorem State.raise_rp (s : State) (u : UnitId) (b : Nat) : (s.raise u b).rp = s.rp := by unfold State.raise State.noteWrap; split <;> simp

@[simp] theorem State.raise_slots (s : State) (u : UnitId) (b : Nat) : (s.raise u b).slots = s.slots := by unfold State.raise State.noteWrap; split <;> simp

@[simp] theorem State.raise_coefs (s : State) (u : UnitId) (b : Nat) : (s.raise u b).coefs = s.coefs := by unfold State.raise State.noteWrap; split <;> simp

@[simp] theorem State.raise_micro (s : State) (u : UnitId) (b : Nat) : (s.raise u b).micro = s.micro := by unfold State.raise State.noteWrap; split <;> simp

@[simp] theorem State.raise_dac (s : State) (u : UnitId) (b : Nat) : (s.raise u b).dac = s.dac := by unfold State.raise State.noteWrap; split <;> simp

@[simp] theorem State.raise_winCycles (s : State) (u : UnitId) (b : Nat) : (s.raise u b).winCycles = s.winCycles := by unfold State.raise State.noteWrap; split <;> simp

@[simp] theorem State.raise_adcIn (s : State) (u : UnitId) (b : Nat) : (s.raise u b).adcIn = s.adcIn := by unfold State.raise State.noteWrap; split <;> simp

@[simp] theorem State.raise_eng (s : State) (u : UnitId) (b : Nat) : (s.raise u b).eng = s.eng := by unfold State.raise State.noteWrap; split <;> simp

@[simp] theorem State.raise_heads (s : State) (u : UnitId) (b : Nat) : (s.raise u b).heads = s.heads := by unfold State.raise State.noteWrap; split <;> simp

@[simp] theorem State.raise_layTrim (s : State) (u : UnitId) (b : Nat) : (s.raise u b).layTrim = s.layTrim := by unfold State.raise State.noteWrap; split <;> simp

@[simp] theorem State.raise_spin (s : State) (u : UnitId) (b : Nat) : (s.raise u b).spin = s.spin := by unfold State.raise State.noteWrap; split <;> simp

@[simp] theorem State.raise_steps (s : State) (u : UnitId) (b : Nat) : (s.raise u b).steps = s.steps := by unfold State.raise State.noteWrap; split <;> simp

@[simp] theorem State.raise_stepTab (s : State) (u : UnitId) (b : Nat) : (s.raise u b).stepTab = s.stepTab := by unfold State.raise State.noteWrap; split <;> simp

@[simp] theorem State.raise_gear (s : State) (u : UnitId) (b : Nat) : (s.raise u b).gear = s.gear := by unfold State.raise State.noteWrap; split <;> simp

@[simp] theorem State.raise_vmotNs (s : State) (u : UnitId) (b : Nat) : (s.raise u b).vmotNs = s.vmotNs := by unfold State.raise State.noteWrap; split <;> simp

@[simp] theorem State.raise_safeHold (s : State) (u : UnitId) (b : Nat) : (s.raise u b).safeHold = s.safeHold := by unfold State.raise State.noteWrap; split <;> simp

@[simp] theorem State.raise_recs (s : State) (u : UnitId) (b : Nat) : (s.raise u b).recs = s.recs := by unfold State.raise State.noteWrap; split <;> simp

@[simp] theorem State.raise_lpt (s : State) (u : UnitId) (b : Nat) : (s.raise u b).lpt = s.lpt := by unfold State.raise State.noteWrap; split <;> simp

@[simp] theorem State.raise_bg (s : State) (u : UnitId) (b : Nat) : (s.raise u b).bg = s.bg := by unfold State.raise State.noteWrap; split <;> simp

@[simp] theorem State.raise_rg (s : State) (u : UnitId) (b : Nat) : (s.raise u b).rg = s.rg := by unfold State.raise State.noteWrap; split <;> simp

@[simp] theorem State.raise_pl (s : State) (u : UnitId) (b : Nat) : (s.raise u b).pl = s.pl := by unfold State.raise State.noteWrap; split <;> simp

@[simp] theorem State.raise_cores (s : State) (u : UnitId) (b : Nat) : (s.raise u b).cores = s.cores := by unfold State.raise State.noteWrap; split <;> simp

@[simp] theorem State.raise_pw (s : State) (u : UnitId) (b : Nat) : (s.raise u b).pw = s.pw := by unfold State.raise State.noteWrap; split <;> simp

@[simp] theorem State.raise_th (s : State) (u : UnitId) (b : Nat) : (s.raise u b).th = s.th := by unfold State.raise State.noteWrap; split <;> simp

@[simp] theorem State.raise_fw (s : State) (u : UnitId) (b : Nat) : (s.raise u b).fw = s.fw := by unfold State.raise State.noteWrap; split <;> simp

/-! ### count -/

@[simp] theorem State.count_pending (s : State) (i n : Nat) : (s.count i n).pending = s.pending := by unfold State.count State.noteWrap; split <;> simp

@[simp] theorem State.count_read (s : State) (i n : Nat) : (s.count i n).read = s.read := by unfold State.count State.noteWrap; split <;> simp

@[simp] theorem State.count_crumbs (s : State) (i n : Nat) : (s.count i n).crumbs = s.crumbs := by unfold State.count State.noteWrap; split <;> simp

@[simp] theorem State.count_mem (s : State) (i n : Nat) : (s.count i n).mem = s.mem := by unfold State.count State.noteWrap; split <;> simp

@[simp] theorem State.count_l2 (s : State) (i n : Nat) : (s.count i n).l2 = s.l2 := by unfold State.count State.noteWrap; split <;> simp

@[simp] theorem State.count_time (s : State) (i n : Nat) : (s.count i n).time = s.time := by unfold State.count State.noteWrap; split <;> simp

@[simp] theorem State.count_tc (s : State) (i n : Nat) : (s.count i n).tc = s.tc := by unfold State.count State.noteWrap; split <;> simp

@[simp] theorem State.count_tb (s : State) (i n : Nat) : (s.count i n).tb = s.tb := by unfold State.count State.noteWrap; split <;> simp

@[simp] theorem State.count_hc (s : State) (i n : Nat) : (s.count i n).hc = s.hc := by unfold State.count State.noteWrap; split <;> simp

@[simp] theorem State.count_hostOut (s : State) (i n : Nat) : (s.count i n).hostOut = s.hostOut := by unfold State.count State.noteWrap; split <;> simp

@[simp] theorem State.count_rcd (s : State) (i n : Nat) : (s.count i n).rcd = s.rcd := by unfold State.count State.noteWrap; split <;> simp

@[simp] theorem State.count_medium (s : State) (i n : Nat) : (s.count i n).medium = s.medium := by unfold State.count State.noteWrap; split <;> simp

@[simp] theorem State.count_loader (s : State) (i n : Nat) : (s.count i n).loader = s.loader := by unfold State.count State.noteWrap; split <;> simp

@[simp] theorem State.count_rp (s : State) (i n : Nat) : (s.count i n).rp = s.rp := by unfold State.count State.noteWrap; split <;> simp

@[simp] theorem State.count_slots (s : State) (i n : Nat) : (s.count i n).slots = s.slots := by unfold State.count State.noteWrap; split <;> simp

@[simp] theorem State.count_coefs (s : State) (i n : Nat) : (s.count i n).coefs = s.coefs := by unfold State.count State.noteWrap; split <;> simp

@[simp] theorem State.count_micro (s : State) (i n : Nat) : (s.count i n).micro = s.micro := by unfold State.count State.noteWrap; split <;> simp

@[simp] theorem State.count_dac (s : State) (i n : Nat) : (s.count i n).dac = s.dac := by unfold State.count State.noteWrap; split <;> simp

@[simp] theorem State.count_winCycles (s : State) (i n : Nat) : (s.count i n).winCycles = s.winCycles := by unfold State.count State.noteWrap; split <;> simp

@[simp] theorem State.count_adcIn (s : State) (i n : Nat) : (s.count i n).adcIn = s.adcIn := by unfold State.count State.noteWrap; split <;> simp

@[simp] theorem State.count_eng (s : State) (i n : Nat) : (s.count i n).eng = s.eng := by unfold State.count State.noteWrap; split <;> simp

@[simp] theorem State.count_heads (s : State) (i n : Nat) : (s.count i n).heads = s.heads := by unfold State.count State.noteWrap; split <;> simp

@[simp] theorem State.count_layTrim (s : State) (i n : Nat) : (s.count i n).layTrim = s.layTrim := by unfold State.count State.noteWrap; split <;> simp

@[simp] theorem State.count_spin (s : State) (i n : Nat) : (s.count i n).spin = s.spin := by unfold State.count State.noteWrap; split <;> simp

@[simp] theorem State.count_steps (s : State) (i n : Nat) : (s.count i n).steps = s.steps := by unfold State.count State.noteWrap; split <;> simp

@[simp] theorem State.count_stepTab (s : State) (i n : Nat) : (s.count i n).stepTab = s.stepTab := by unfold State.count State.noteWrap; split <;> simp

@[simp] theorem State.count_gear (s : State) (i n : Nat) : (s.count i n).gear = s.gear := by unfold State.count State.noteWrap; split <;> simp

@[simp] theorem State.count_vmotNs (s : State) (i n : Nat) : (s.count i n).vmotNs = s.vmotNs := by unfold State.count State.noteWrap; split <;> simp

@[simp] theorem State.count_safeHold (s : State) (i n : Nat) : (s.count i n).safeHold = s.safeHold := by unfold State.count State.noteWrap; split <;> simp

@[simp] theorem State.count_recs (s : State) (i n : Nat) : (s.count i n).recs = s.recs := by unfold State.count State.noteWrap; split <;> simp

@[simp] theorem State.count_lpt (s : State) (i n : Nat) : (s.count i n).lpt = s.lpt := by unfold State.count State.noteWrap; split <;> simp

@[simp] theorem State.count_bg (s : State) (i n : Nat) : (s.count i n).bg = s.bg := by unfold State.count State.noteWrap; split <;> simp

@[simp] theorem State.count_rg (s : State) (i n : Nat) : (s.count i n).rg = s.rg := by unfold State.count State.noteWrap; split <;> simp

@[simp] theorem State.count_pl (s : State) (i n : Nat) : (s.count i n).pl = s.pl := by unfold State.count State.noteWrap; split <;> simp

@[simp] theorem State.count_cores (s : State) (i n : Nat) : (s.count i n).cores = s.cores := by unfold State.count State.noteWrap; split <;> simp

@[simp] theorem State.count_pw (s : State) (i n : Nat) : (s.count i n).pw = s.pw := by unfold State.count State.noteWrap; split <;> simp

@[simp] theorem State.count_th (s : State) (i n : Nat) : (s.count i n).th = s.th := by unfold State.count State.noteWrap; split <;> simp

@[simp] theorem State.count_fw (s : State) (i n : Nat) : (s.count i n).fw = s.fw := by unfold State.count State.noteWrap; split <;> simp

/-! ### lockviol -/

@[simp] theorem State.lockviol_pending (s : State) (u : UnitId) : (s.lockviol u).pending = s.pending := by simp [State.lockviol]

@[simp] theorem State.lockviol_read (s : State) (u : UnitId) : (s.lockviol u).read = s.read := by simp [State.lockviol]

@[simp] theorem State.lockviol_crumbs (s : State) (u : UnitId) : (s.lockviol u).crumbs = s.crumbs := by simp [State.lockviol]

@[simp] theorem State.lockviol_mem (s : State) (u : UnitId) : (s.lockviol u).mem = s.mem := by simp [State.lockviol]

@[simp] theorem State.lockviol_l2 (s : State) (u : UnitId) : (s.lockviol u).l2 = s.l2 := by simp [State.lockviol]

@[simp] theorem State.lockviol_time (s : State) (u : UnitId) : (s.lockviol u).time = s.time := by simp [State.lockviol]

@[simp] theorem State.lockviol_tc (s : State) (u : UnitId) : (s.lockviol u).tc = s.tc := by simp [State.lockviol]

@[simp] theorem State.lockviol_tb (s : State) (u : UnitId) : (s.lockviol u).tb = s.tb := by simp [State.lockviol]

@[simp] theorem State.lockviol_hc (s : State) (u : UnitId) : (s.lockviol u).hc = s.hc := by simp [State.lockviol]

@[simp] theorem State.lockviol_hostOut (s : State) (u : UnitId) : (s.lockviol u).hostOut = s.hostOut := by simp [State.lockviol]

@[simp] theorem State.lockviol_rcd (s : State) (u : UnitId) : (s.lockviol u).rcd = s.rcd := by simp [State.lockviol]

@[simp] theorem State.lockviol_medium (s : State) (u : UnitId) : (s.lockviol u).medium = s.medium := by simp [State.lockviol]

@[simp] theorem State.lockviol_loader (s : State) (u : UnitId) : (s.lockviol u).loader = s.loader := by simp [State.lockviol]

@[simp] theorem State.lockviol_rp (s : State) (u : UnitId) : (s.lockviol u).rp = s.rp := by simp [State.lockviol]

@[simp] theorem State.lockviol_slots (s : State) (u : UnitId) : (s.lockviol u).slots = s.slots := by simp [State.lockviol]

@[simp] theorem State.lockviol_coefs (s : State) (u : UnitId) : (s.lockviol u).coefs = s.coefs := by simp [State.lockviol]

@[simp] theorem State.lockviol_micro (s : State) (u : UnitId) : (s.lockviol u).micro = s.micro := by simp [State.lockviol]

@[simp] theorem State.lockviol_dac (s : State) (u : UnitId) : (s.lockviol u).dac = s.dac := by simp [State.lockviol]

@[simp] theorem State.lockviol_winCycles (s : State) (u : UnitId) : (s.lockviol u).winCycles = s.winCycles := by simp [State.lockviol]

@[simp] theorem State.lockviol_adcIn (s : State) (u : UnitId) : (s.lockviol u).adcIn = s.adcIn := by simp [State.lockviol]

@[simp] theorem State.lockviol_eng (s : State) (u : UnitId) : (s.lockviol u).eng = s.eng := by simp [State.lockviol]

@[simp] theorem State.lockviol_heads (s : State) (u : UnitId) : (s.lockviol u).heads = s.heads := by simp [State.lockviol]

@[simp] theorem State.lockviol_layTrim (s : State) (u : UnitId) : (s.lockviol u).layTrim = s.layTrim := by simp [State.lockviol]

@[simp] theorem State.lockviol_spin (s : State) (u : UnitId) : (s.lockviol u).spin = s.spin := by simp [State.lockviol]

@[simp] theorem State.lockviol_steps (s : State) (u : UnitId) : (s.lockviol u).steps = s.steps := by simp [State.lockviol]

@[simp] theorem State.lockviol_stepTab (s : State) (u : UnitId) : (s.lockviol u).stepTab = s.stepTab := by simp [State.lockviol]

@[simp] theorem State.lockviol_gear (s : State) (u : UnitId) : (s.lockviol u).gear = s.gear := by simp [State.lockviol]

@[simp] theorem State.lockviol_vmotNs (s : State) (u : UnitId) : (s.lockviol u).vmotNs = s.vmotNs := by simp [State.lockviol]

@[simp] theorem State.lockviol_safeHold (s : State) (u : UnitId) : (s.lockviol u).safeHold = s.safeHold := by simp [State.lockviol]

@[simp] theorem State.lockviol_recs (s : State) (u : UnitId) : (s.lockviol u).recs = s.recs := by simp [State.lockviol]

@[simp] theorem State.lockviol_lpt (s : State) (u : UnitId) : (s.lockviol u).lpt = s.lpt := by simp [State.lockviol]

@[simp] theorem State.lockviol_bg (s : State) (u : UnitId) : (s.lockviol u).bg = s.bg := by simp [State.lockviol]

@[simp] theorem State.lockviol_rg (s : State) (u : UnitId) : (s.lockviol u).rg = s.rg := by simp [State.lockviol]

@[simp] theorem State.lockviol_pl (s : State) (u : UnitId) : (s.lockviol u).pl = s.pl := by simp [State.lockviol]

@[simp] theorem State.lockviol_cores (s : State) (u : UnitId) : (s.lockviol u).cores = s.cores := by simp [State.lockviol]

@[simp] theorem State.lockviol_pw (s : State) (u : UnitId) : (s.lockviol u).pw = s.pw := by simp [State.lockviol]

@[simp] theorem State.lockviol_th (s : State) (u : UnitId) : (s.lockviol u).th = s.th := by simp [State.lockviol]

@[simp] theorem State.lockviol_fw (s : State) (u : UnitId) : (s.lockviol u).fw = s.fw := by simp [State.lockviol]

/-! ### offerCrumb -/

@[simp] theorem State.offerCrumb_pending (s : State) (c : Crumb) : (s.offerCrumb c).pending = s.pending := by unfold State.offerCrumb State.acceptCrumb; dsimp only; split <;> (try split) <;> simp

@[simp] theorem State.offerCrumb_read (s : State) (c : Crumb) : (s.offerCrumb c).read = s.read := by unfold State.offerCrumb State.acceptCrumb; dsimp only; split <;> (try split) <;> simp

@[simp] theorem State.offerCrumb_mem (s : State) (c : Crumb) : (s.offerCrumb c).mem = s.mem := by unfold State.offerCrumb State.acceptCrumb; dsimp only; split <;> (try split) <;> simp

@[simp] theorem State.offerCrumb_l2 (s : State) (c : Crumb) : (s.offerCrumb c).l2 = s.l2 := by unfold State.offerCrumb State.acceptCrumb; dsimp only; split <;> (try split) <;> simp

@[simp] theorem State.offerCrumb_time (s : State) (c : Crumb) : (s.offerCrumb c).time = s.time := by unfold State.offerCrumb State.acceptCrumb; dsimp only; split <;> (try split) <;> simp

@[simp] theorem State.offerCrumb_tc (s : State) (c : Crumb) : (s.offerCrumb c).tc = s.tc := by unfold State.offerCrumb State.acceptCrumb; dsimp only; split <;> (try split) <;> simp

@[simp] theorem State.offerCrumb_tb (s : State) (c : Crumb) : (s.offerCrumb c).tb = s.tb := by unfold State.offerCrumb State.acceptCrumb; dsimp only; split <;> (try split) <;> simp

@[simp] theorem State.offerCrumb_hc (s : State) (c : Crumb) : (s.offerCrumb c).hc = s.hc := by unfold State.offerCrumb State.acceptCrumb; dsimp only; split <;> (try split) <;> simp

@[simp] theorem State.offerCrumb_hostOut (s : State) (c : Crumb) : (s.offerCrumb c).hostOut = s.hostOut := by unfold State.offerCrumb State.acceptCrumb; dsimp only; split <;> (try split) <;> simp

@[simp] theorem State.offerCrumb_rcd (s : State) (c : Crumb) : (s.offerCrumb c).rcd = s.rcd := by unfold State.offerCrumb State.acceptCrumb; dsimp only; split <;> (try split) <;> simp

@[simp] theorem State.offerCrumb_medium (s : State) (c : Crumb) : (s.offerCrumb c).medium = s.medium := by unfold State.offerCrumb State.acceptCrumb; dsimp only; split <;> (try split) <;> simp

@[simp] theorem State.offerCrumb_loader (s : State) (c : Crumb) : (s.offerCrumb c).loader = s.loader := by unfold State.offerCrumb State.acceptCrumb; dsimp only; split <;> (try split) <;> simp

@[simp] theorem State.offerCrumb_rp (s : State) (c : Crumb) : (s.offerCrumb c).rp = s.rp := by unfold State.offerCrumb State.acceptCrumb; dsimp only; split <;> (try split) <;> simp

@[simp] theorem State.offerCrumb_slots (s : State) (c : Crumb) : (s.offerCrumb c).slots = s.slots := by unfold State.offerCrumb State.acceptCrumb; dsimp only; split <;> (try split) <;> simp

@[simp] theorem State.offerCrumb_coefs (s : State) (c : Crumb) : (s.offerCrumb c).coefs = s.coefs := by unfold State.offerCrumb State.acceptCrumb; dsimp only; split <;> (try split) <;> simp

@[simp] theorem State.offerCrumb_micro (s : State) (c : Crumb) : (s.offerCrumb c).micro = s.micro := by unfold State.offerCrumb State.acceptCrumb; dsimp only; split <;> (try split) <;> simp

@[simp] theorem State.offerCrumb_dac (s : State) (c : Crumb) : (s.offerCrumb c).dac = s.dac := by unfold State.offerCrumb State.acceptCrumb; dsimp only; split <;> (try split) <;> simp

@[simp] theorem State.offerCrumb_winCycles (s : State) (c : Crumb) : (s.offerCrumb c).winCycles = s.winCycles := by unfold State.offerCrumb State.acceptCrumb; dsimp only; split <;> (try split) <;> simp

@[simp] theorem State.offerCrumb_adcIn (s : State) (c : Crumb) : (s.offerCrumb c).adcIn = s.adcIn := by unfold State.offerCrumb State.acceptCrumb; dsimp only; split <;> (try split) <;> simp

@[simp] theorem State.offerCrumb_eng (s : State) (c : Crumb) : (s.offerCrumb c).eng = s.eng := by unfold State.offerCrumb State.acceptCrumb; dsimp only; split <;> (try split) <;> simp

@[simp] theorem State.offerCrumb_heads (s : State) (c : Crumb) : (s.offerCrumb c).heads = s.heads := by unfold State.offerCrumb State.acceptCrumb; dsimp only; split <;> (try split) <;> simp

@[simp] theorem State.offerCrumb_layTrim (s : State) (c : Crumb) : (s.offerCrumb c).layTrim = s.layTrim := by unfold State.offerCrumb State.acceptCrumb; dsimp only; split <;> (try split) <;> simp

@[simp] theorem State.offerCrumb_spin (s : State) (c : Crumb) : (s.offerCrumb c).spin = s.spin := by unfold State.offerCrumb State.acceptCrumb; dsimp only; split <;> (try split) <;> simp

@[simp] theorem State.offerCrumb_steps (s : State) (c : Crumb) : (s.offerCrumb c).steps = s.steps := by unfold State.offerCrumb State.acceptCrumb; dsimp only; split <;> (try split) <;> simp

@[simp] theorem State.offerCrumb_stepTab (s : State) (c : Crumb) : (s.offerCrumb c).stepTab = s.stepTab := by unfold State.offerCrumb State.acceptCrumb; dsimp only; split <;> (try split) <;> simp

@[simp] theorem State.offerCrumb_gear (s : State) (c : Crumb) : (s.offerCrumb c).gear = s.gear := by unfold State.offerCrumb State.acceptCrumb; dsimp only; split <;> (try split) <;> simp

@[simp] theorem State.offerCrumb_vmotNs (s : State) (c : Crumb) : (s.offerCrumb c).vmotNs = s.vmotNs := by unfold State.offerCrumb State.acceptCrumb; dsimp only; split <;> (try split) <;> simp

@[simp] theorem State.offerCrumb_safeHold (s : State) (c : Crumb) : (s.offerCrumb c).safeHold = s.safeHold := by unfold State.offerCrumb State.acceptCrumb; dsimp only; split <;> (try split) <;> simp

@[simp] theorem State.offerCrumb_recs (s : State) (c : Crumb) : (s.offerCrumb c).recs = s.recs := by unfold State.offerCrumb State.acceptCrumb; dsimp only; split <;> (try split) <;> simp

@[simp] theorem State.offerCrumb_lpt (s : State) (c : Crumb) : (s.offerCrumb c).lpt = s.lpt := by unfold State.offerCrumb State.acceptCrumb; dsimp only; split <;> (try split) <;> simp

@[simp] theorem State.offerCrumb_bg (s : State) (c : Crumb) : (s.offerCrumb c).bg = s.bg := by unfold State.offerCrumb State.acceptCrumb; dsimp only; split <;> (try split) <;> simp

@[simp] theorem State.offerCrumb_rg (s : State) (c : Crumb) : (s.offerCrumb c).rg = s.rg := by unfold State.offerCrumb State.acceptCrumb; dsimp only; split <;> (try split) <;> simp

@[simp] theorem State.offerCrumb_pl (s : State) (c : Crumb) : (s.offerCrumb c).pl = s.pl := by unfold State.offerCrumb State.acceptCrumb; dsimp only; split <;> (try split) <;> simp

@[simp] theorem State.offerCrumb_cores (s : State) (c : Crumb) : (s.offerCrumb c).cores = s.cores := by unfold State.offerCrumb State.acceptCrumb; dsimp only; split <;> (try split) <;> simp

@[simp] theorem State.offerCrumb_pw (s : State) (c : Crumb) : (s.offerCrumb c).pw = s.pw := by unfold State.offerCrumb State.acceptCrumb; dsimp only; split <;> (try split) <;> simp

@[simp] theorem State.offerCrumb_th (s : State) (c : Crumb) : (s.offerCrumb c).th = s.th := by unfold State.offerCrumb State.acceptCrumb; dsimp only; split <;> (try split) <;> simp

@[simp] theorem State.offerCrumb_fw (s : State) (c : Crumb) : (s.offerCrumb c).fw = s.fw := by unfold State.offerCrumb State.acceptCrumb; dsimp only; split <;> (try split) <;> simp

/-! ### crumb -/

@[simp] theorem State.crumb_pending (s : State) (cls req : Nat) (u : UnitId) (code d6 d7 : Nat) : (s.crumb cls req u code d6 d7).pending = s.pending := by simp [State.crumb]

@[simp] theorem State.crumb_read (s : State) (cls req : Nat) (u : UnitId) (code d6 d7 : Nat) : (s.crumb cls req u code d6 d7).read = s.read := by simp [State.crumb]

@[simp] theorem State.crumb_mem (s : State) (cls req : Nat) (u : UnitId) (code d6 d7 : Nat) : (s.crumb cls req u code d6 d7).mem = s.mem := by simp [State.crumb]

@[simp] theorem State.crumb_l2 (s : State) (cls req : Nat) (u : UnitId) (code d6 d7 : Nat) : (s.crumb cls req u code d6 d7).l2 = s.l2 := by simp [State.crumb]

@[simp] theorem State.crumb_time (s : State) (cls req : Nat) (u : UnitId) (code d6 d7 : Nat) : (s.crumb cls req u code d6 d7).time = s.time := by simp [State.crumb]

@[simp] theorem State.crumb_tc (s : State) (cls req : Nat) (u : UnitId) (code d6 d7 : Nat) : (s.crumb cls req u code d6 d7).tc = s.tc := by simp [State.crumb]

@[simp] theorem State.crumb_tb (s : State) (cls req : Nat) (u : UnitId) (code d6 d7 : Nat) : (s.crumb cls req u code d6 d7).tb = s.tb := by simp [State.crumb]

@[simp] theorem State.crumb_hc (s : State) (cls req : Nat) (u : UnitId) (code d6 d7 : Nat) : (s.crumb cls req u code d6 d7).hc = s.hc := by simp [State.crumb]

@[simp] theorem State.crumb_hostOut (s : State) (cls req : Nat) (u : UnitId) (code d6 d7 : Nat) : (s.crumb cls req u code d6 d7).hostOut = s.hostOut := by simp [State.crumb]

@[simp] theorem State.crumb_rcd (s : State) (cls req : Nat) (u : UnitId) (code d6 d7 : Nat) : (s.crumb cls req u code d6 d7).rcd = s.rcd := by simp [State.crumb]

@[simp] theorem State.crumb_medium (s : State) (cls req : Nat) (u : UnitId) (code d6 d7 : Nat) : (s.crumb cls req u code d6 d7).medium = s.medium := by simp [State.crumb]

@[simp] theorem State.crumb_loader (s : State) (cls req : Nat) (u : UnitId) (code d6 d7 : Nat) : (s.crumb cls req u code d6 d7).loader = s.loader := by simp [State.crumb]

@[simp] theorem State.crumb_rp (s : State) (cls req : Nat) (u : UnitId) (code d6 d7 : Nat) : (s.crumb cls req u code d6 d7).rp = s.rp := by simp [State.crumb]

@[simp] theorem State.crumb_slots (s : State) (cls req : Nat) (u : UnitId) (code d6 d7 : Nat) : (s.crumb cls req u code d6 d7).slots = s.slots := by simp [State.crumb]

@[simp] theorem State.crumb_coefs (s : State) (cls req : Nat) (u : UnitId) (code d6 d7 : Nat) : (s.crumb cls req u code d6 d7).coefs = s.coefs := by simp [State.crumb]

@[simp] theorem State.crumb_micro (s : State) (cls req : Nat) (u : UnitId) (code d6 d7 : Nat) : (s.crumb cls req u code d6 d7).micro = s.micro := by simp [State.crumb]

@[simp] theorem State.crumb_dac (s : State) (cls req : Nat) (u : UnitId) (code d6 d7 : Nat) : (s.crumb cls req u code d6 d7).dac = s.dac := by simp [State.crumb]

@[simp] theorem State.crumb_winCycles (s : State) (cls req : Nat) (u : UnitId) (code d6 d7 : Nat) : (s.crumb cls req u code d6 d7).winCycles = s.winCycles := by simp [State.crumb]

@[simp] theorem State.crumb_adcIn (s : State) (cls req : Nat) (u : UnitId) (code d6 d7 : Nat) : (s.crumb cls req u code d6 d7).adcIn = s.adcIn := by simp [State.crumb]

@[simp] theorem State.crumb_eng (s : State) (cls req : Nat) (u : UnitId) (code d6 d7 : Nat) : (s.crumb cls req u code d6 d7).eng = s.eng := by simp [State.crumb]

@[simp] theorem State.crumb_heads (s : State) (cls req : Nat) (u : UnitId) (code d6 d7 : Nat) : (s.crumb cls req u code d6 d7).heads = s.heads := by simp [State.crumb]

@[simp] theorem State.crumb_layTrim (s : State) (cls req : Nat) (u : UnitId) (code d6 d7 : Nat) : (s.crumb cls req u code d6 d7).layTrim = s.layTrim := by simp [State.crumb]

@[simp] theorem State.crumb_spin (s : State) (cls req : Nat) (u : UnitId) (code d6 d7 : Nat) : (s.crumb cls req u code d6 d7).spin = s.spin := by simp [State.crumb]

@[simp] theorem State.crumb_steps (s : State) (cls req : Nat) (u : UnitId) (code d6 d7 : Nat) : (s.crumb cls req u code d6 d7).steps = s.steps := by simp [State.crumb]

@[simp] theorem State.crumb_stepTab (s : State) (cls req : Nat) (u : UnitId) (code d6 d7 : Nat) : (s.crumb cls req u code d6 d7).stepTab = s.stepTab := by simp [State.crumb]

@[simp] theorem State.crumb_gear (s : State) (cls req : Nat) (u : UnitId) (code d6 d7 : Nat) : (s.crumb cls req u code d6 d7).gear = s.gear := by simp [State.crumb]

@[simp] theorem State.crumb_vmotNs (s : State) (cls req : Nat) (u : UnitId) (code d6 d7 : Nat) : (s.crumb cls req u code d6 d7).vmotNs = s.vmotNs := by simp [State.crumb]

@[simp] theorem State.crumb_safeHold (s : State) (cls req : Nat) (u : UnitId) (code d6 d7 : Nat) : (s.crumb cls req u code d6 d7).safeHold = s.safeHold := by simp [State.crumb]

@[simp] theorem State.crumb_recs (s : State) (cls req : Nat) (u : UnitId) (code d6 d7 : Nat) : (s.crumb cls req u code d6 d7).recs = s.recs := by simp [State.crumb]

@[simp] theorem State.crumb_lpt (s : State) (cls req : Nat) (u : UnitId) (code d6 d7 : Nat) : (s.crumb cls req u code d6 d7).lpt = s.lpt := by simp [State.crumb]

@[simp] theorem State.crumb_bg (s : State) (cls req : Nat) (u : UnitId) (code d6 d7 : Nat) : (s.crumb cls req u code d6 d7).bg = s.bg := by simp [State.crumb]

@[simp] theorem State.crumb_rg (s : State) (cls req : Nat) (u : UnitId) (code d6 d7 : Nat) : (s.crumb cls req u code d6 d7).rg = s.rg := by simp [State.crumb]

@[simp] theorem State.crumb_pl (s : State) (cls req : Nat) (u : UnitId) (code d6 d7 : Nat) : (s.crumb cls req u code d6 d7).pl = s.pl := by simp [State.crumb]

@[simp] theorem State.crumb_cores (s : State) (cls req : Nat) (u : UnitId) (code d6 d7 : Nat) : (s.crumb cls req u code d6 d7).cores = s.cores := by simp [State.crumb]

@[simp] theorem State.crumb_pw (s : State) (cls req : Nat) (u : UnitId) (code d6 d7 : Nat) : (s.crumb cls req u code d6 d7).pw = s.pw := by simp [State.crumb]

@[simp] theorem State.crumb_th (s : State) (cls req : Nat) (u : UnitId) (code d6 d7 : Nat) : (s.crumb cls req u code d6 d7).th = s.th := by simp [State.crumb]

@[simp] theorem State.crumb_fw (s : State) (cls req : Nat) (u : UnitId) (code d6 d7 : Nat) : (s.crumb cls req u code d6 d7).fw = s.fw := by simp [State.crumb]

/-! ### report -/

@[simp] theorem State.report_pending (s : State) (u : UnitId) (b d6 d7 : Nat) : (s.report u b d6 d7).pending = s.pending := by simp [State.report]

@[simp] theorem State.report_read (s : State) (u : UnitId) (b d6 d7 : Nat) : (s.report u b d6 d7).read = s.read := by simp [State.report]

@[simp] theorem State.report_mem (s : State) (u : UnitId) (b d6 d7 : Nat) : (s.report u b d6 d7).mem = s.mem := by simp [State.report]

@[simp] theorem State.report_l2 (s : State) (u : UnitId) (b d6 d7 : Nat) : (s.report u b d6 d7).l2 = s.l2 := by simp [State.report]

@[simp] theorem State.report_time (s : State) (u : UnitId) (b d6 d7 : Nat) : (s.report u b d6 d7).time = s.time := by simp [State.report]

@[simp] theorem State.report_tc (s : State) (u : UnitId) (b d6 d7 : Nat) : (s.report u b d6 d7).tc = s.tc := by simp [State.report]

@[simp] theorem State.report_tb (s : State) (u : UnitId) (b d6 d7 : Nat) : (s.report u b d6 d7).tb = s.tb := by simp [State.report]

@[simp] theorem State.report_hc (s : State) (u : UnitId) (b d6 d7 : Nat) : (s.report u b d6 d7).hc = s.hc := by simp [State.report]

@[simp] theorem State.report_hostOut (s : State) (u : UnitId) (b d6 d7 : Nat) : (s.report u b d6 d7).hostOut = s.hostOut := by simp [State.report]

@[simp] theorem State.report_rcd (s : State) (u : UnitId) (b d6 d7 : Nat) : (s.report u b d6 d7).rcd = s.rcd := by simp [State.report]

@[simp] theorem State.report_medium (s : State) (u : UnitId) (b d6 d7 : Nat) : (s.report u b d6 d7).medium = s.medium := by simp [State.report]

@[simp] theorem State.report_loader (s : State) (u : UnitId) (b d6 d7 : Nat) : (s.report u b d6 d7).loader = s.loader := by simp [State.report]

@[simp] theorem State.report_rp (s : State) (u : UnitId) (b d6 d7 : Nat) : (s.report u b d6 d7).rp = s.rp := by simp [State.report]

@[simp] theorem State.report_slots (s : State) (u : UnitId) (b d6 d7 : Nat) : (s.report u b d6 d7).slots = s.slots := by simp [State.report]

@[simp] theorem State.report_coefs (s : State) (u : UnitId) (b d6 d7 : Nat) : (s.report u b d6 d7).coefs = s.coefs := by simp [State.report]

@[simp] theorem State.report_micro (s : State) (u : UnitId) (b d6 d7 : Nat) : (s.report u b d6 d7).micro = s.micro := by simp [State.report]

@[simp] theorem State.report_dac (s : State) (u : UnitId) (b d6 d7 : Nat) : (s.report u b d6 d7).dac = s.dac := by simp [State.report]

@[simp] theorem State.report_winCycles (s : State) (u : UnitId) (b d6 d7 : Nat) : (s.report u b d6 d7).winCycles = s.winCycles := by simp [State.report]

@[simp] theorem State.report_adcIn (s : State) (u : UnitId) (b d6 d7 : Nat) : (s.report u b d6 d7).adcIn = s.adcIn := by simp [State.report]

@[simp] theorem State.report_eng (s : State) (u : UnitId) (b d6 d7 : Nat) : (s.report u b d6 d7).eng = s.eng := by simp [State.report]

@[simp] theorem State.report_heads (s : State) (u : UnitId) (b d6 d7 : Nat) : (s.report u b d6 d7).heads = s.heads := by simp [State.report]

@[simp] theorem State.report_layTrim (s : State) (u : UnitId) (b d6 d7 : Nat) : (s.report u b d6 d7).layTrim = s.layTrim := by simp [State.report]

@[simp] theorem State.report_spin (s : State) (u : UnitId) (b d6 d7 : Nat) : (s.report u b d6 d7).spin = s.spin := by simp [State.report]

@[simp] theorem State.report_steps (s : State) (u : UnitId) (b d6 d7 : Nat) : (s.report u b d6 d7).steps = s.steps := by simp [State.report]

@[simp] theorem State.report_stepTab (s : State) (u : UnitId) (b d6 d7 : Nat) : (s.report u b d6 d7).stepTab = s.stepTab := by simp [State.report]

@[simp] theorem State.report_gear (s : State) (u : UnitId) (b d6 d7 : Nat) : (s.report u b d6 d7).gear = s.gear := by simp [State.report]

@[simp] theorem State.report_vmotNs (s : State) (u : UnitId) (b d6 d7 : Nat) : (s.report u b d6 d7).vmotNs = s.vmotNs := by simp [State.report]

@[simp] theorem State.report_safeHold (s : State) (u : UnitId) (b d6 d7 : Nat) : (s.report u b d6 d7).safeHold = s.safeHold := by simp [State.report]

@[simp] theorem State.report_recs (s : State) (u : UnitId) (b d6 d7 : Nat) : (s.report u b d6 d7).recs = s.recs := by simp [State.report]

@[simp] theorem State.report_lpt (s : State) (u : UnitId) (b d6 d7 : Nat) : (s.report u b d6 d7).lpt = s.lpt := by simp [State.report]

@[simp] theorem State.report_bg (s : State) (u : UnitId) (b d6 d7 : Nat) : (s.report u b d6 d7).bg = s.bg := by simp [State.report]

@[simp] theorem State.report_rg (s : State) (u : UnitId) (b d6 d7 : Nat) : (s.report u b d6 d7).rg = s.rg := by simp [State.report]

@[simp] theorem State.report_pl (s : State) (u : UnitId) (b d6 d7 : Nat) : (s.report u b d6 d7).pl = s.pl := by simp [State.report]

@[simp] theorem State.report_cores (s : State) (u : UnitId) (b d6 d7 : Nat) : (s.report u b d6 d7).cores = s.cores := by simp [State.report]

@[simp] theorem State.report_pw (s : State) (u : UnitId) (b d6 d7 : Nat) : (s.report u b d6 d7).pw = s.pw := by simp [State.report]

@[simp] theorem State.report_th (s : State) (u : UnitId) (b d6 d7 : Nat) : (s.report u b d6 d7).th = s.th := by simp [State.report]

@[simp] theorem State.report_fw (s : State) (u : UnitId) (b d6 d7 : Nat) : (s.report u b d6 d7).fw = s.fw := by simp [State.report]

/-! ### refuse -/

@[simp] theorem State.refuse_pending (s : State) (req : Nat) (u : UnitId) (c off v : Nat) : (s.refuse req u c off v).pending = s.pending := by simp [State.refuse]

@[simp] theorem State.refuse_read (s : State) (req : Nat) (u : UnitId) (c off v : Nat) : (s.refuse req u c off v).read = s.read := by simp [State.refuse]

@[simp] theorem State.refuse_mem (s : State) (req : Nat) (u : UnitId) (c off v : Nat) : (s.refuse req u c off v).mem = s.mem := by simp [State.refuse]

@[simp] theorem State.refuse_l2 (s : State) (req : Nat) (u : UnitId) (c off v : Nat) : (s.refuse req u c off v).l2 = s.l2 := by simp [State.refuse]

@[simp] theorem State.refuse_time (s : State) (req : Nat) (u : UnitId) (c off v : Nat) : (s.refuse req u c off v).time = s.time := by simp [State.refuse]

@[simp] theorem State.refuse_tc (s : State) (req : Nat) (u : UnitId) (c off v : Nat) : (s.refuse req u c off v).tc = s.tc := by simp [State.refuse]

@[simp] theorem State.refuse_tb (s : State) (req : Nat) (u : UnitId) (c off v : Nat) : (s.refuse req u c off v).tb = s.tb := by simp [State.refuse]

@[simp] theorem State.refuse_hc (s : State) (req : Nat) (u : UnitId) (c off v : Nat) : (s.refuse req u c off v).hc = s.hc := by simp [State.refuse]

@[simp] theorem State.refuse_hostOut (s : State) (req : Nat) (u : UnitId) (c off v : Nat) : (s.refuse req u c off v).hostOut = s.hostOut := by simp [State.refuse]

@[simp] theorem State.refuse_rcd (s : State) (req : Nat) (u : UnitId) (c off v : Nat) : (s.refuse req u c off v).rcd = s.rcd := by simp [State.refuse]

@[simp] theorem State.refuse_medium (s : State) (req : Nat) (u : UnitId) (c off v : Nat) : (s.refuse req u c off v).medium = s.medium := by simp [State.refuse]

@[simp] theorem State.refuse_loader (s : State) (req : Nat) (u : UnitId) (c off v : Nat) : (s.refuse req u c off v).loader = s.loader := by simp [State.refuse]

@[simp] theorem State.refuse_rp (s : State) (req : Nat) (u : UnitId) (c off v : Nat) : (s.refuse req u c off v).rp = s.rp := by simp [State.refuse]

@[simp] theorem State.refuse_slots (s : State) (req : Nat) (u : UnitId) (c off v : Nat) : (s.refuse req u c off v).slots = s.slots := by simp [State.refuse]

@[simp] theorem State.refuse_coefs (s : State) (req : Nat) (u : UnitId) (c off v : Nat) : (s.refuse req u c off v).coefs = s.coefs := by simp [State.refuse]

@[simp] theorem State.refuse_micro (s : State) (req : Nat) (u : UnitId) (c off v : Nat) : (s.refuse req u c off v).micro = s.micro := by simp [State.refuse]

@[simp] theorem State.refuse_dac (s : State) (req : Nat) (u : UnitId) (c off v : Nat) : (s.refuse req u c off v).dac = s.dac := by simp [State.refuse]

@[simp] theorem State.refuse_winCycles (s : State) (req : Nat) (u : UnitId) (c off v : Nat) : (s.refuse req u c off v).winCycles = s.winCycles := by simp [State.refuse]

@[simp] theorem State.refuse_adcIn (s : State) (req : Nat) (u : UnitId) (c off v : Nat) : (s.refuse req u c off v).adcIn = s.adcIn := by simp [State.refuse]

@[simp] theorem State.refuse_eng (s : State) (req : Nat) (u : UnitId) (c off v : Nat) : (s.refuse req u c off v).eng = s.eng := by simp [State.refuse]

@[simp] theorem State.refuse_heads (s : State) (req : Nat) (u : UnitId) (c off v : Nat) : (s.refuse req u c off v).heads = s.heads := by simp [State.refuse]

@[simp] theorem State.refuse_layTrim (s : State) (req : Nat) (u : UnitId) (c off v : Nat) : (s.refuse req u c off v).layTrim = s.layTrim := by simp [State.refuse]

@[simp] theorem State.refuse_spin (s : State) (req : Nat) (u : UnitId) (c off v : Nat) : (s.refuse req u c off v).spin = s.spin := by simp [State.refuse]

@[simp] theorem State.refuse_steps (s : State) (req : Nat) (u : UnitId) (c off v : Nat) : (s.refuse req u c off v).steps = s.steps := by simp [State.refuse]

@[simp] theorem State.refuse_stepTab (s : State) (req : Nat) (u : UnitId) (c off v : Nat) : (s.refuse req u c off v).stepTab = s.stepTab := by simp [State.refuse]

@[simp] theorem State.refuse_gear (s : State) (req : Nat) (u : UnitId) (c off v : Nat) : (s.refuse req u c off v).gear = s.gear := by simp [State.refuse]

@[simp] theorem State.refuse_vmotNs (s : State) (req : Nat) (u : UnitId) (c off v : Nat) : (s.refuse req u c off v).vmotNs = s.vmotNs := by simp [State.refuse]

@[simp] theorem State.refuse_safeHold (s : State) (req : Nat) (u : UnitId) (c off v : Nat) : (s.refuse req u c off v).safeHold = s.safeHold := by simp [State.refuse]

@[simp] theorem State.refuse_recs (s : State) (req : Nat) (u : UnitId) (c off v : Nat) : (s.refuse req u c off v).recs = s.recs := by simp [State.refuse]

@[simp] theorem State.refuse_lpt (s : State) (req : Nat) (u : UnitId) (c off v : Nat) : (s.refuse req u c off v).lpt = s.lpt := by simp [State.refuse]

@[simp] theorem State.refuse_bg (s : State) (req : Nat) (u : UnitId) (c off v : Nat) : (s.refuse req u c off v).bg = s.bg := by simp [State.refuse]

@[simp] theorem State.refuse_rg (s : State) (req : Nat) (u : UnitId) (c off v : Nat) : (s.refuse req u c off v).rg = s.rg := by simp [State.refuse]

@[simp] theorem State.refuse_pl (s : State) (req : Nat) (u : UnitId) (c off v : Nat) : (s.refuse req u c off v).pl = s.pl := by simp [State.refuse]

@[simp] theorem State.refuse_cores (s : State) (req : Nat) (u : UnitId) (c off v : Nat) : (s.refuse req u c off v).cores = s.cores := by simp [State.refuse]

@[simp] theorem State.refuse_pw (s : State) (req : Nat) (u : UnitId) (c off v : Nat) : (s.refuse req u c off v).pw = s.pw := by simp [State.refuse]

@[simp] theorem State.refuse_th (s : State) (req : Nat) (u : UnitId) (c off v : Nat) : (s.refuse req u c off v).th = s.th := by simp [State.refuse]

@[simp] theorem State.refuse_fw (s : State) (req : Nat) (u : UnitId) (c off v : Nat) : (s.refuse req u c off v).fw = s.fw := by simp [State.refuse]

/-! ### setByte -/

@[simp] theorem State.setByte_pending (s : State) (a : Nat) (b : Byte) : (s.setByte a b).pending = s.pending := rfl

@[simp] theorem State.setByte_regs (s : State) (a : Nat) (b : Byte) : (s.setByte a b).regs = s.regs := rfl

@[simp] theorem State.setByte_read (s : State) (a : Nat) (b : Byte) : (s.setByte a b).read = s.read := rfl

@[simp] theorem State.setByte_crumbs (s : State) (a : Nat) (b : Byte) : (s.setByte a b).crumbs = s.crumbs := rfl

@[simp] theorem State.setByte_lanes (s : State) (a : Nat) (b : Byte) : (s.setByte a b).lanes = s.lanes := rfl

@[simp] theorem State.setByte_ctr (s : State) (a : Nat) (b : Byte) : (s.setByte a b).ctr = s.ctr := rfl

@[simp] theorem State.setByte_port (s : State) (a : Nat) (b : Byte) : (s.setByte a b).port = s.port := rfl

@[simp] theorem State.setByte_l2 (s : State) (a : Nat) (b : Byte) : (s.setByte a b).l2 = s.l2 := rfl

@[simp] theorem State.setByte_time (s : State) (a : Nat) (b : Byte) : (s.setByte a b).time = s.time := rfl

@[simp] theorem State.setByte_tc (s : State) (a : Nat) (b : Byte) : (s.setByte a b).tc = s.tc := rfl

@[simp] theorem State.setByte_tb (s : State) (a : Nat) (b : Byte) : (s.setByte a b).tb = s.tb := rfl

@[simp] theorem State.setByte_hc (s : State) (a : Nat) (b : Byte) : (s.setByte a b).hc = s.hc := rfl

@[simp] theorem State.setByte_hostOut (s : State) (a : Nat) (b : Byte) : (s.setByte a b).hostOut = s.hostOut := rfl

@[simp] theorem State.setByte_rcd (s : State) (a : Nat) (b : Byte) : (s.setByte a b).rcd = s.rcd := rfl

@[simp] theorem State.setByte_medium (s : State) (a : Nat) (b : Byte) : (s.setByte a b).medium = s.medium := rfl

@[simp] theorem State.setByte_loader (s : State) (a : Nat) (b : Byte) : (s.setByte a b).loader = s.loader := rfl

@[simp] theorem State.setByte_rp (s : State) (a : Nat) (b : Byte) : (s.setByte a b).rp = s.rp := rfl

@[simp] theorem State.setByte_slots (s : State) (a : Nat) (b : Byte) : (s.setByte a b).slots = s.slots := rfl

@[simp] theorem State.setByte_coefs (s : State) (a : Nat) (b : Byte) : (s.setByte a b).coefs = s.coefs := rfl

@[simp] theorem State.setByte_micro (s : State) (a : Nat) (b : Byte) : (s.setByte a b).micro = s.micro := rfl

@[simp] theorem State.setByte_dac (s : State) (a : Nat) (b : Byte) : (s.setByte a b).dac = s.dac := rfl

@[simp] theorem State.setByte_winCycles (s : State) (a : Nat) (b : Byte) : (s.setByte a b).winCycles = s.winCycles := rfl

@[simp] theorem State.setByte_adcIn (s : State) (a : Nat) (b : Byte) : (s.setByte a b).adcIn = s.adcIn := rfl

@[simp] theorem State.setByte_eng (s : State) (a : Nat) (b : Byte) : (s.setByte a b).eng = s.eng := rfl

@[simp] theorem State.setByte_heads (s : State) (a : Nat) (b : Byte) : (s.setByte a b).heads = s.heads := rfl

@[simp] theorem State.setByte_layTrim (s : State) (a : Nat) (b : Byte) : (s.setByte a b).layTrim = s.layTrim := rfl

@[simp] theorem State.setByte_spin (s : State) (a : Nat) (b : Byte) : (s.setByte a b).spin = s.spin := rfl

@[simp] theorem State.setByte_steps (s : State) (a : Nat) (b : Byte) : (s.setByte a b).steps = s.steps := rfl

@[simp] theorem State.setByte_stepTab (s : State) (a : Nat) (b : Byte) : (s.setByte a b).stepTab = s.stepTab := rfl

@[simp] theorem State.setByte_gear (s : State) (a : Nat) (b : Byte) : (s.setByte a b).gear = s.gear := rfl

@[simp] theorem State.setByte_vmotNs (s : State) (a : Nat) (b : Byte) : (s.setByte a b).vmotNs = s.vmotNs := rfl

@[simp] theorem State.setByte_safeHold (s : State) (a : Nat) (b : Byte) : (s.setByte a b).safeHold = s.safeHold := rfl

@[simp] theorem State.setByte_recs (s : State) (a : Nat) (b : Byte) : (s.setByte a b).recs = s.recs := rfl

@[simp] theorem State.setByte_lpt (s : State) (a : Nat) (b : Byte) : (s.setByte a b).lpt = s.lpt := rfl

@[simp] theorem State.setByte_bg (s : State) (a : Nat) (b : Byte) : (s.setByte a b).bg = s.bg := rfl

@[simp] theorem State.setByte_rg (s : State) (a : Nat) (b : Byte) : (s.setByte a b).rg = s.rg := rfl

@[simp] theorem State.setByte_pl (s : State) (a : Nat) (b : Byte) : (s.setByte a b).pl = s.pl := rfl

@[simp] theorem State.setByte_cores (s : State) (a : Nat) (b : Byte) : (s.setByte a b).cores = s.cores := rfl

@[simp] theorem State.setByte_pw (s : State) (a : Nat) (b : Byte) : (s.setByte a b).pw = s.pw := rfl

@[simp] theorem State.setByte_th (s : State) (a : Nat) (b : Byte) : (s.setByte a b).th = s.th := rfl

@[simp] theorem State.setByte_fw (s : State) (a : Nat) (b : Byte) : (s.setByte a b).fw = s.fw := rfl

/-! ### storeBytes -/

@[simp] theorem State.storeBytes_pending (bs : List Byte) : ∀ (s : State) (a : Nat), (s.storeBytes a bs).pending = s.pending := by
  induction bs with
  | nil => intro s a; rfl
  | cons b bs ih => intro s a; exact ih _ _

@[simp] theorem State.storeBytes_regs (bs : List Byte) : ∀ (s : State) (a : Nat), (s.storeBytes a bs).regs = s.regs := by
  induction bs with
  | nil => intro s a; rfl
  | cons b bs ih => intro s a; exact ih _ _

@[simp] theorem State.storeBytes_read (bs : List Byte) : ∀ (s : State) (a : Nat), (s.storeBytes a bs).read = s.read := by
  induction bs with
  | nil => intro s a; rfl
  | cons b bs ih => intro s a; exact ih _ _

@[simp] theorem State.storeBytes_crumbs (bs : List Byte) : ∀ (s : State) (a : Nat), (s.storeBytes a bs).crumbs = s.crumbs := by
  induction bs with
  | nil => intro s a; rfl
  | cons b bs ih => intro s a; exact ih _ _

@[simp] theorem State.storeBytes_lanes (bs : List Byte) : ∀ (s : State) (a : Nat), (s.storeBytes a bs).lanes = s.lanes := by
  induction bs with
  | nil => intro s a; rfl
  | cons b bs ih => intro s a; exact ih _ _

@[simp] theorem State.storeBytes_ctr (bs : List Byte) : ∀ (s : State) (a : Nat), (s.storeBytes a bs).ctr = s.ctr := by
  induction bs with
  | nil => intro s a; rfl
  | cons b bs ih => intro s a; exact ih _ _

@[simp] theorem State.storeBytes_port (bs : List Byte) : ∀ (s : State) (a : Nat), (s.storeBytes a bs).port = s.port := by
  induction bs with
  | nil => intro s a; rfl
  | cons b bs ih => intro s a; exact ih _ _

@[simp] theorem State.storeBytes_l2 (bs : List Byte) : ∀ (s : State) (a : Nat), (s.storeBytes a bs).l2 = s.l2 := by
  induction bs with
  | nil => intro s a; rfl
  | cons b bs ih => intro s a; exact ih _ _

@[simp] theorem State.storeBytes_time (bs : List Byte) : ∀ (s : State) (a : Nat), (s.storeBytes a bs).time = s.time := by
  induction bs with
  | nil => intro s a; rfl
  | cons b bs ih => intro s a; exact ih _ _

@[simp] theorem State.storeBytes_tc (bs : List Byte) : ∀ (s : State) (a : Nat), (s.storeBytes a bs).tc = s.tc := by
  induction bs with
  | nil => intro s a; rfl
  | cons b bs ih => intro s a; exact ih _ _

@[simp] theorem State.storeBytes_tb (bs : List Byte) : ∀ (s : State) (a : Nat), (s.storeBytes a bs).tb = s.tb := by
  induction bs with
  | nil => intro s a; rfl
  | cons b bs ih => intro s a; exact ih _ _

@[simp] theorem State.storeBytes_hc (bs : List Byte) : ∀ (s : State) (a : Nat), (s.storeBytes a bs).hc = s.hc := by
  induction bs with
  | nil => intro s a; rfl
  | cons b bs ih => intro s a; exact ih _ _

@[simp] theorem State.storeBytes_hostOut (bs : List Byte) : ∀ (s : State) (a : Nat), (s.storeBytes a bs).hostOut = s.hostOut := by
  induction bs with
  | nil => intro s a; rfl
  | cons b bs ih => intro s a; exact ih _ _

@[simp] theorem State.storeBytes_rcd (bs : List Byte) : ∀ (s : State) (a : Nat), (s.storeBytes a bs).rcd = s.rcd := by
  induction bs with
  | nil => intro s a; rfl
  | cons b bs ih => intro s a; exact ih _ _

@[simp] theorem State.storeBytes_medium (bs : List Byte) : ∀ (s : State) (a : Nat), (s.storeBytes a bs).medium = s.medium := by
  induction bs with
  | nil => intro s a; rfl
  | cons b bs ih => intro s a; exact ih _ _

@[simp] theorem State.storeBytes_loader (bs : List Byte) : ∀ (s : State) (a : Nat), (s.storeBytes a bs).loader = s.loader := by
  induction bs with
  | nil => intro s a; rfl
  | cons b bs ih => intro s a; exact ih _ _

@[simp] theorem State.storeBytes_rp (bs : List Byte) : ∀ (s : State) (a : Nat), (s.storeBytes a bs).rp = s.rp := by
  induction bs with
  | nil => intro s a; rfl
  | cons b bs ih => intro s a; exact ih _ _

@[simp] theorem State.storeBytes_slots (bs : List Byte) : ∀ (s : State) (a : Nat), (s.storeBytes a bs).slots = s.slots := by
  induction bs with
  | nil => intro s a; rfl
  | cons b bs ih => intro s a; exact ih _ _

@[simp] theorem State.storeBytes_coefs (bs : List Byte) : ∀ (s : State) (a : Nat), (s.storeBytes a bs).coefs = s.coefs := by
  induction bs with
  | nil => intro s a; rfl
  | cons b bs ih => intro s a; exact ih _ _

@[simp] theorem State.storeBytes_micro (bs : List Byte) : ∀ (s : State) (a : Nat), (s.storeBytes a bs).micro = s.micro := by
  induction bs with
  | nil => intro s a; rfl
  | cons b bs ih => intro s a; exact ih _ _

@[simp] theorem State.storeBytes_dac (bs : List Byte) : ∀ (s : State) (a : Nat), (s.storeBytes a bs).dac = s.dac := by
  induction bs with
  | nil => intro s a; rfl
  | cons b bs ih => intro s a; exact ih _ _

@[simp] theorem State.storeBytes_winCycles (bs : List Byte) : ∀ (s : State) (a : Nat), (s.storeBytes a bs).winCycles = s.winCycles := by
  induction bs with
  | nil => intro s a; rfl
  | cons b bs ih => intro s a; exact ih _ _

@[simp] theorem State.storeBytes_adcIn (bs : List Byte) : ∀ (s : State) (a : Nat), (s.storeBytes a bs).adcIn = s.adcIn := by
  induction bs with
  | nil => intro s a; rfl
  | cons b bs ih => intro s a; exact ih _ _

@[simp] theorem State.storeBytes_eng (bs : List Byte) : ∀ (s : State) (a : Nat), (s.storeBytes a bs).eng = s.eng := by
  induction bs with
  | nil => intro s a; rfl
  | cons b bs ih => intro s a; exact ih _ _

@[simp] theorem State.storeBytes_heads (bs : List Byte) : ∀ (s : State) (a : Nat), (s.storeBytes a bs).heads = s.heads := by
  induction bs with
  | nil => intro s a; rfl
  | cons b bs ih => intro s a; exact ih _ _

@[simp] theorem State.storeBytes_layTrim (bs : List Byte) : ∀ (s : State) (a : Nat), (s.storeBytes a bs).layTrim = s.layTrim := by
  induction bs with
  | nil => intro s a; rfl
  | cons b bs ih => intro s a; exact ih _ _

@[simp] theorem State.storeBytes_spin (bs : List Byte) : ∀ (s : State) (a : Nat), (s.storeBytes a bs).spin = s.spin := by
  induction bs with
  | nil => intro s a; rfl
  | cons b bs ih => intro s a; exact ih _ _

@[simp] theorem State.storeBytes_steps (bs : List Byte) : ∀ (s : State) (a : Nat), (s.storeBytes a bs).steps = s.steps := by
  induction bs with
  | nil => intro s a; rfl
  | cons b bs ih => intro s a; exact ih _ _

@[simp] theorem State.storeBytes_stepTab (bs : List Byte) : ∀ (s : State) (a : Nat), (s.storeBytes a bs).stepTab = s.stepTab := by
  induction bs with
  | nil => intro s a; rfl
  | cons b bs ih => intro s a; exact ih _ _

@[simp] theorem State.storeBytes_gear (bs : List Byte) : ∀ (s : State) (a : Nat), (s.storeBytes a bs).gear = s.gear := by
  induction bs with
  | nil => intro s a; rfl
  | cons b bs ih => intro s a; exact ih _ _

@[simp] theorem State.storeBytes_vmotNs (bs : List Byte) : ∀ (s : State) (a : Nat), (s.storeBytes a bs).vmotNs = s.vmotNs := by
  induction bs with
  | nil => intro s a; rfl
  | cons b bs ih => intro s a; exact ih _ _

@[simp] theorem State.storeBytes_safeHold (bs : List Byte) : ∀ (s : State) (a : Nat), (s.storeBytes a bs).safeHold = s.safeHold := by
  induction bs with
  | nil => intro s a; rfl
  | cons b bs ih => intro s a; exact ih _ _

@[simp] theorem State.storeBytes_recs (bs : List Byte) : ∀ (s : State) (a : Nat), (s.storeBytes a bs).recs = s.recs := by
  induction bs with
  | nil => intro s a; rfl
  | cons b bs ih => intro s a; exact ih _ _

@[simp] theorem State.storeBytes_lpt (bs : List Byte) : ∀ (s : State) (a : Nat), (s.storeBytes a bs).lpt = s.lpt := by
  induction bs with
  | nil => intro s a; rfl
  | cons b bs ih => intro s a; exact ih _ _

@[simp] theorem State.storeBytes_bg (bs : List Byte) : ∀ (s : State) (a : Nat), (s.storeBytes a bs).bg = s.bg := by
  induction bs with
  | nil => intro s a; rfl
  | cons b bs ih => intro s a; exact ih _ _

@[simp] theorem State.storeBytes_rg (bs : List Byte) : ∀ (s : State) (a : Nat), (s.storeBytes a bs).rg = s.rg := by
  induction bs with
  | nil => intro s a; rfl
  | cons b bs ih => intro s a; exact ih _ _

@[simp] theorem State.storeBytes_pl (bs : List Byte) : ∀ (s : State) (a : Nat), (s.storeBytes a bs).pl = s.pl := by
  induction bs with
  | nil => intro s a; rfl
  | cons b bs ih => intro s a; exact ih _ _

@[simp] theorem State.storeBytes_cores (bs : List Byte) : ∀ (s : State) (a : Nat), (s.storeBytes a bs).cores = s.cores := by
  induction bs with
  | nil => intro s a; rfl
  | cons b bs ih => intro s a; exact ih _ _

@[simp] theorem State.storeBytes_pw (bs : List Byte) : ∀ (s : State) (a : Nat), (s.storeBytes a bs).pw = s.pw := by
  induction bs with
  | nil => intro s a; rfl
  | cons b bs ih => intro s a; exact ih _ _

@[simp] theorem State.storeBytes_th (bs : List Byte) : ∀ (s : State) (a : Nat), (s.storeBytes a bs).th = s.th := by
  induction bs with
  | nil => intro s a; rfl
  | cons b bs ih => intro s a; exact ih _ _

@[simp] theorem State.storeBytes_fw (bs : List Byte) : ∀ (s : State) (a : Nat), (s.storeBytes a bs).fw = s.fw := by
  induction bs with
  | nil => intro s a; rfl
  | cons b bs ih => intro s a; exact ih _ _

/-! ### storeLE -/

@[simp] theorem State.storeLE_pending (s : State) (a n v : Nat) : (s.storeLE a n v).pending = s.pending := by simp [State.storeLE]

@[simp] theorem State.storeLE_regs (s : State) (a n v : Nat) : (s.storeLE a n v).regs = s.regs := by simp [State.storeLE]

@[simp] theorem State.storeLE_read (s : State) (a n v : Nat) : (s.storeLE a n v).read = s.read := by simp [State.storeLE]

@[simp] theorem State.storeLE_crumbs (s : State) (a n v : Nat) : (s.storeLE a n v).crumbs = s.crumbs := by simp [State.storeLE]

@[simp] theorem State.storeLE_lanes (s : State) (a n v : Nat) : (s.storeLE a n v).lanes = s.lanes := by simp [State.storeLE]

@[simp] theorem State.storeLE_ctr (s : State) (a n v : Nat) : (s.storeLE a n v).ctr = s.ctr := by simp [State.storeLE]

@[simp] theorem State.storeLE_port (s : State) (a n v : Nat) : (s.storeLE a n v).port = s.port := by simp [State.storeLE]

@[simp] theorem State.storeLE_l2 (s : State) (a n v : Nat) : (s.storeLE a n v).l2 = s.l2 := by simp [State.storeLE]

@[simp] theorem State.storeLE_time (s : State) (a n v : Nat) : (s.storeLE a n v).time = s.time := by simp [State.storeLE]

@[simp] theorem State.storeLE_tc (s : State) (a n v : Nat) : (s.storeLE a n v).tc = s.tc := by simp [State.storeLE]

@[simp] theorem State.storeLE_tb (s : State) (a n v : Nat) : (s.storeLE a n v).tb = s.tb := by simp [State.storeLE]

@[simp] theorem State.storeLE_hc (s : State) (a n v : Nat) : (s.storeLE a n v).hc = s.hc := by simp [State.storeLE]

@[simp] theorem State.storeLE_hostOut (s : State) (a n v : Nat) : (s.storeLE a n v).hostOut = s.hostOut := by simp [State.storeLE]

@[simp] theorem State.storeLE_rcd (s : State) (a n v : Nat) : (s.storeLE a n v).rcd = s.rcd := by simp [State.storeLE]

@[simp] theorem State.storeLE_medium (s : State) (a n v : Nat) : (s.storeLE a n v).medium = s.medium := by simp [State.storeLE]

@[simp] theorem State.storeLE_loader (s : State) (a n v : Nat) : (s.storeLE a n v).loader = s.loader := by simp [State.storeLE]

@[simp] theorem State.storeLE_rp (s : State) (a n v : Nat) : (s.storeLE a n v).rp = s.rp := by simp [State.storeLE]

@[simp] theorem State.storeLE_slots (s : State) (a n v : Nat) : (s.storeLE a n v).slots = s.slots := by simp [State.storeLE]

@[simp] theorem State.storeLE_coefs (s : State) (a n v : Nat) : (s.storeLE a n v).coefs = s.coefs := by simp [State.storeLE]

@[simp] theorem State.storeLE_micro (s : State) (a n v : Nat) : (s.storeLE a n v).micro = s.micro := by simp [State.storeLE]

@[simp] theorem State.storeLE_dac (s : State) (a n v : Nat) : (s.storeLE a n v).dac = s.dac := by simp [State.storeLE]

@[simp] theorem State.storeLE_winCycles (s : State) (a n v : Nat) : (s.storeLE a n v).winCycles = s.winCycles := by simp [State.storeLE]

@[simp] theorem State.storeLE_adcIn (s : State) (a n v : Nat) : (s.storeLE a n v).adcIn = s.adcIn := by simp [State.storeLE]

@[simp] theorem State.storeLE_eng (s : State) (a n v : Nat) : (s.storeLE a n v).eng = s.eng := by simp [State.storeLE]

@[simp] theorem State.storeLE_heads (s : State) (a n v : Nat) : (s.storeLE a n v).heads = s.heads := by simp [State.storeLE]

@[simp] theorem State.storeLE_layTrim (s : State) (a n v : Nat) : (s.storeLE a n v).layTrim = s.layTrim := by simp [State.storeLE]

@[simp] theorem State.storeLE_spin (s : State) (a n v : Nat) : (s.storeLE a n v).spin = s.spin := by simp [State.storeLE]

@[simp] theorem State.storeLE_steps (s : State) (a n v : Nat) : (s.storeLE a n v).steps = s.steps := by simp [State.storeLE]

@[simp] theorem State.storeLE_stepTab (s : State) (a n v : Nat) : (s.storeLE a n v).stepTab = s.stepTab := by simp [State.storeLE]

@[simp] theorem State.storeLE_gear (s : State) (a n v : Nat) : (s.storeLE a n v).gear = s.gear := by simp [State.storeLE]

@[simp] theorem State.storeLE_vmotNs (s : State) (a n v : Nat) : (s.storeLE a n v).vmotNs = s.vmotNs := by simp [State.storeLE]

@[simp] theorem State.storeLE_safeHold (s : State) (a n v : Nat) : (s.storeLE a n v).safeHold = s.safeHold := by simp [State.storeLE]

@[simp] theorem State.storeLE_recs (s : State) (a n v : Nat) : (s.storeLE a n v).recs = s.recs := by simp [State.storeLE]

@[simp] theorem State.storeLE_lpt (s : State) (a n v : Nat) : (s.storeLE a n v).lpt = s.lpt := by simp [State.storeLE]

@[simp] theorem State.storeLE_bg (s : State) (a n v : Nat) : (s.storeLE a n v).bg = s.bg := by simp [State.storeLE]

@[simp] theorem State.storeLE_rg (s : State) (a n v : Nat) : (s.storeLE a n v).rg = s.rg := by simp [State.storeLE]

@[simp] theorem State.storeLE_pl (s : State) (a n v : Nat) : (s.storeLE a n v).pl = s.pl := by simp [State.storeLE]

@[simp] theorem State.storeLE_cores (s : State) (a n v : Nat) : (s.storeLE a n v).cores = s.cores := by simp [State.storeLE]

@[simp] theorem State.storeLE_pw (s : State) (a n v : Nat) : (s.storeLE a n v).pw = s.pw := by simp [State.storeLE]

@[simp] theorem State.storeLE_th (s : State) (a n v : Nat) : (s.storeLE a n v).th = s.th := by simp [State.storeLE]

@[simp] theorem State.storeLE_fw (s : State) (a n v : Nat) : (s.storeLE a n v).fw = s.fw := by simp [State.storeLE]

/-! ### dropL2 -/

@[simp] theorem State.dropL2_pending (s : State) (a n : Nat) : (s.dropL2 a n).pending = s.pending := by unfold State.dropL2; split <;> rfl

@[simp] theorem State.dropL2_regs (s : State) (a n : Nat) : (s.dropL2 a n).regs = s.regs := by unfold State.dropL2; split <;> rfl

@[simp] theorem State.dropL2_read (s : State) (a n : Nat) : (s.dropL2 a n).read = s.read := by unfold State.dropL2; split <;> rfl

@[simp] theorem State.dropL2_crumbs (s : State) (a n : Nat) : (s.dropL2 a n).crumbs = s.crumbs := by unfold State.dropL2; split <;> rfl

@[simp] theorem State.dropL2_lanes (s : State) (a n : Nat) : (s.dropL2 a n).lanes = s.lanes := by unfold State.dropL2; split <;> rfl

@[simp] theorem State.dropL2_ctr (s : State) (a n : Nat) : (s.dropL2 a n).ctr = s.ctr := by unfold State.dropL2; split <;> rfl

@[simp] theorem State.dropL2_port (s : State) (a n : Nat) : (s.dropL2 a n).port = s.port := by unfold State.dropL2; split <;> rfl

@[simp] theorem State.dropL2_mem (s : State) (a n : Nat) : (s.dropL2 a n).mem = s.mem := by unfold State.dropL2; split <;> rfl

@[simp] theorem State.dropL2_time (s : State) (a n : Nat) : (s.dropL2 a n).time = s.time := by unfold State.dropL2; split <;> rfl

@[simp] theorem State.dropL2_tc (s : State) (a n : Nat) : (s.dropL2 a n).tc = s.tc := by unfold State.dropL2; split <;> rfl

@[simp] theorem State.dropL2_tb (s : State) (a n : Nat) : (s.dropL2 a n).tb = s.tb := by unfold State.dropL2; split <;> rfl

@[simp] theorem State.dropL2_hc (s : State) (a n : Nat) : (s.dropL2 a n).hc = s.hc := by unfold State.dropL2; split <;> rfl

@[simp] theorem State.dropL2_hostOut (s : State) (a n : Nat) : (s.dropL2 a n).hostOut = s.hostOut := by unfold State.dropL2; split <;> rfl

@[simp] theorem State.dropL2_rcd (s : State) (a n : Nat) : (s.dropL2 a n).rcd = s.rcd := by unfold State.dropL2; split <;> rfl

@[simp] theorem State.dropL2_medium (s : State) (a n : Nat) : (s.dropL2 a n).medium = s.medium := by unfold State.dropL2; split <;> rfl

@[simp] theorem State.dropL2_loader (s : State) (a n : Nat) : (s.dropL2 a n).loader = s.loader := by unfold State.dropL2; split <;> rfl

@[simp] theorem State.dropL2_rp (s : State) (a n : Nat) : (s.dropL2 a n).rp = s.rp := by unfold State.dropL2; split <;> rfl

@[simp] theorem State.dropL2_slots (s : State) (a n : Nat) : (s.dropL2 a n).slots = s.slots := by unfold State.dropL2; split <;> rfl

@[simp] theorem State.dropL2_coefs (s : State) (a n : Nat) : (s.dropL2 a n).coefs = s.coefs := by unfold State.dropL2; split <;> rfl

@[simp] theorem State.dropL2_micro (s : State) (a n : Nat) : (s.dropL2 a n).micro = s.micro := by unfold State.dropL2; split <;> rfl

@[simp] theorem State.dropL2_dac (s : State) (a n : Nat) : (s.dropL2 a n).dac = s.dac := by unfold State.dropL2; split <;> rfl

@[simp] theorem State.dropL2_winCycles (s : State) (a n : Nat) : (s.dropL2 a n).winCycles = s.winCycles := by unfold State.dropL2; split <;> rfl

@[simp] theorem State.dropL2_adcIn (s : State) (a n : Nat) : (s.dropL2 a n).adcIn = s.adcIn := by unfold State.dropL2; split <;> rfl

@[simp] theorem State.dropL2_eng (s : State) (a n : Nat) : (s.dropL2 a n).eng = s.eng := by unfold State.dropL2; split <;> rfl

@[simp] theorem State.dropL2_heads (s : State) (a n : Nat) : (s.dropL2 a n).heads = s.heads := by unfold State.dropL2; split <;> rfl

@[simp] theorem State.dropL2_layTrim (s : State) (a n : Nat) : (s.dropL2 a n).layTrim = s.layTrim := by unfold State.dropL2; split <;> rfl

@[simp] theorem State.dropL2_spin (s : State) (a n : Nat) : (s.dropL2 a n).spin = s.spin := by unfold State.dropL2; split <;> rfl

@[simp] theorem State.dropL2_steps (s : State) (a n : Nat) : (s.dropL2 a n).steps = s.steps := by unfold State.dropL2; split <;> rfl

@[simp] theorem State.dropL2_stepTab (s : State) (a n : Nat) : (s.dropL2 a n).stepTab = s.stepTab := by unfold State.dropL2; split <;> rfl

@[simp] theorem State.dropL2_gear (s : State) (a n : Nat) : (s.dropL2 a n).gear = s.gear := by unfold State.dropL2; split <;> rfl

@[simp] theorem State.dropL2_vmotNs (s : State) (a n : Nat) : (s.dropL2 a n).vmotNs = s.vmotNs := by unfold State.dropL2; split <;> rfl

@[simp] theorem State.dropL2_safeHold (s : State) (a n : Nat) : (s.dropL2 a n).safeHold = s.safeHold := by unfold State.dropL2; split <;> rfl

@[simp] theorem State.dropL2_recs (s : State) (a n : Nat) : (s.dropL2 a n).recs = s.recs := by unfold State.dropL2; split <;> rfl

@[simp] theorem State.dropL2_lpt (s : State) (a n : Nat) : (s.dropL2 a n).lpt = s.lpt := by unfold State.dropL2; split <;> rfl

@[simp] theorem State.dropL2_bg (s : State) (a n : Nat) : (s.dropL2 a n).bg = s.bg := by unfold State.dropL2; split <;> rfl

@[simp] theorem State.dropL2_rg (s : State) (a n : Nat) : (s.dropL2 a n).rg = s.rg := by unfold State.dropL2; split <;> rfl

@[simp] theorem State.dropL2_pl (s : State) (a n : Nat) : (s.dropL2 a n).pl = s.pl := by unfold State.dropL2; split <;> rfl

@[simp] theorem State.dropL2_cores (s : State) (a n : Nat) : (s.dropL2 a n).cores = s.cores := by unfold State.dropL2; split <;> rfl

@[simp] theorem State.dropL2_pw (s : State) (a n : Nat) : (s.dropL2 a n).pw = s.pw := by unfold State.dropL2; split <;> rfl

@[simp] theorem State.dropL2_th (s : State) (a n : Nat) : (s.dropL2 a n).th = s.th := by unfold State.dropL2; split <;> rfl

@[simp] theorem State.dropL2_fw (s : State) (a n : Nat) : (s.dropL2 a n).fw = s.fw := by unfold State.dropL2; split <;> rfl

/-! ### heal -/

@[simp] theorem State.heal_pending (s : State) (a n : Nat) : (s.heal a n).pending = s.pending := by unfold State.heal; split <;> rfl

@[simp] theorem State.heal_regs (s : State) (a n : Nat) : (s.heal a n).regs = s.regs := by unfold State.heal; split <;> rfl

@[simp] theorem State.heal_read (s : State) (a n : Nat) : (s.heal a n).read = s.read := by unfold State.heal; split <;> rfl

@[simp] theorem State.heal_crumbs (s : State) (a n : Nat) : (s.heal a n).crumbs = s.crumbs := by unfold State.heal; split <;> rfl

@[simp] theorem State.heal_lanes (s : State) (a n : Nat) : (s.heal a n).lanes = s.lanes := by unfold State.heal; split <;> rfl

@[simp] theorem State.heal_ctr (s : State) (a n : Nat) : (s.heal a n).ctr = s.ctr := by unfold State.heal; split <;> rfl

@[simp] theorem State.heal_port (s : State) (a n : Nat) : (s.heal a n).port = s.port := by unfold State.heal; split <;> rfl

@[simp] theorem State.heal_mem (s : State) (a n : Nat) : (s.heal a n).mem = s.mem := by unfold State.heal; split <;> rfl

@[simp] theorem State.heal_l2 (s : State) (a n : Nat) : (s.heal a n).l2 = s.l2 := by unfold State.heal; split <;> rfl

@[simp] theorem State.heal_time (s : State) (a n : Nat) : (s.heal a n).time = s.time := by unfold State.heal; split <;> rfl

@[simp] theorem State.heal_tc (s : State) (a n : Nat) : (s.heal a n).tc = s.tc := by unfold State.heal; split <;> rfl

@[simp] theorem State.heal_tb (s : State) (a n : Nat) : (s.heal a n).tb = s.tb := by unfold State.heal; split <;> rfl

@[simp] theorem State.heal_hc (s : State) (a n : Nat) : (s.heal a n).hc = s.hc := by unfold State.heal; split <;> rfl

@[simp] theorem State.heal_hostOut (s : State) (a n : Nat) : (s.heal a n).hostOut = s.hostOut := by unfold State.heal; split <;> rfl

@[simp] theorem State.heal_rcd (s : State) (a n : Nat) : (s.heal a n).rcd = s.rcd := by unfold State.heal; split <;> rfl

@[simp] theorem State.heal_medium (s : State) (a n : Nat) : (s.heal a n).medium = s.medium := by unfold State.heal; split <;> rfl

@[simp] theorem State.heal_loader (s : State) (a n : Nat) : (s.heal a n).loader = s.loader := by unfold State.heal; split <;> rfl

@[simp] theorem State.heal_rp (s : State) (a n : Nat) : (s.heal a n).rp = s.rp := by unfold State.heal; split <;> rfl

@[simp] theorem State.heal_slots (s : State) (a n : Nat) : (s.heal a n).slots = s.slots := by unfold State.heal; split <;> rfl

@[simp] theorem State.heal_coefs (s : State) (a n : Nat) : (s.heal a n).coefs = s.coefs := by unfold State.heal; split <;> rfl

@[simp] theorem State.heal_micro (s : State) (a n : Nat) : (s.heal a n).micro = s.micro := by unfold State.heal; split <;> rfl

@[simp] theorem State.heal_dac (s : State) (a n : Nat) : (s.heal a n).dac = s.dac := by unfold State.heal; split <;> rfl

@[simp] theorem State.heal_winCycles (s : State) (a n : Nat) : (s.heal a n).winCycles = s.winCycles := by unfold State.heal; split <;> rfl

@[simp] theorem State.heal_adcIn (s : State) (a n : Nat) : (s.heal a n).adcIn = s.adcIn := by unfold State.heal; split <;> rfl

@[simp] theorem State.heal_eng (s : State) (a n : Nat) : (s.heal a n).eng = s.eng := by unfold State.heal; split <;> rfl

@[simp] theorem State.heal_heads (s : State) (a n : Nat) : (s.heal a n).heads = s.heads := by unfold State.heal; split <;> rfl

@[simp] theorem State.heal_layTrim (s : State) (a n : Nat) : (s.heal a n).layTrim = s.layTrim := by unfold State.heal; split <;> rfl

@[simp] theorem State.heal_spin (s : State) (a n : Nat) : (s.heal a n).spin = s.spin := by unfold State.heal; split <;> rfl

@[simp] theorem State.heal_steps (s : State) (a n : Nat) : (s.heal a n).steps = s.steps := by unfold State.heal; split <;> rfl

@[simp] theorem State.heal_stepTab (s : State) (a n : Nat) : (s.heal a n).stepTab = s.stepTab := by unfold State.heal; split <;> rfl

@[simp] theorem State.heal_gear (s : State) (a n : Nat) : (s.heal a n).gear = s.gear := by unfold State.heal; split <;> rfl

@[simp] theorem State.heal_vmotNs (s : State) (a n : Nat) : (s.heal a n).vmotNs = s.vmotNs := by unfold State.heal; split <;> rfl

@[simp] theorem State.heal_safeHold (s : State) (a n : Nat) : (s.heal a n).safeHold = s.safeHold := by unfold State.heal; split <;> rfl

@[simp] theorem State.heal_recs (s : State) (a n : Nat) : (s.heal a n).recs = s.recs := by unfold State.heal; split <;> rfl

@[simp] theorem State.heal_lpt (s : State) (a n : Nat) : (s.heal a n).lpt = s.lpt := by unfold State.heal; split <;> rfl

@[simp] theorem State.heal_bg (s : State) (a n : Nat) : (s.heal a n).bg = s.bg := by unfold State.heal; split <;> rfl

@[simp] theorem State.heal_rg (s : State) (a n : Nat) : (s.heal a n).rg = s.rg := by unfold State.heal; split <;> rfl

@[simp] theorem State.heal_pl (s : State) (a n : Nat) : (s.heal a n).pl = s.pl := by unfold State.heal; split <;> rfl

@[simp] theorem State.heal_pw (s : State) (a n : Nat) : (s.heal a n).pw = s.pw := by unfold State.heal; split <;> rfl

@[simp] theorem State.heal_th (s : State) (a n : Nat) : (s.heal a n).th = s.th := by unfold State.heal; split <;> rfl

@[simp] theorem State.heal_fw (s : State) (a n : Nat) : (s.heal a n).fw = s.fw := by unfold State.heal; split <;> rfl

/-! ### engineStore -/

@[simp] theorem State.engineStore_pending (s : State) (a : Nat) (bs : List Byte) : (s.engineStore a bs).pending = s.pending := by simp [State.engineStore]

@[simp] theorem State.engineStore_regs (s : State) (a : Nat) (bs : List Byte) : (s.engineStore a bs).regs = s.regs := by simp [State.engineStore]

@[simp] theorem State.engineStore_read (s : State) (a : Nat) (bs : List Byte) : (s.engineStore a bs).read = s.read := by simp [State.engineStore]

@[simp] theorem State.engineStore_crumbs (s : State) (a : Nat) (bs : List Byte) : (s.engineStore a bs).crumbs = s.crumbs := by simp [State.engineStore]

@[simp] theorem State.engineStore_lanes (s : State) (a : Nat) (bs : List Byte) : (s.engineStore a bs).lanes = s.lanes := by simp [State.engineStore]

@[simp] theorem State.engineStore_ctr (s : State) (a : Nat) (bs : List Byte) : (s.engineStore a bs).ctr = s.ctr := by simp [State.engineStore]

@[simp] theorem State.engineStore_port (s : State) (a : Nat) (bs : List Byte) : (s.engineStore a bs).port = s.port := by simp [State.engineStore]

@[simp] theorem State.engineStore_time (s : State) (a : Nat) (bs : List Byte) : (s.engineStore a bs).time = s.time := by simp [State.engineStore]

@[simp] theorem State.engineStore_tc (s : State) (a : Nat) (bs : List Byte) : (s.engineStore a bs).tc = s.tc := by simp [State.engineStore]

@[simp] theorem State.engineStore_tb (s : State) (a : Nat) (bs : List Byte) : (s.engineStore a bs).tb = s.tb := by simp [State.engineStore]

@[simp] theorem State.engineStore_hc (s : State) (a : Nat) (bs : List Byte) : (s.engineStore a bs).hc = s.hc := by simp [State.engineStore]

@[simp] theorem State.engineStore_hostOut (s : State) (a : Nat) (bs : List Byte) : (s.engineStore a bs).hostOut = s.hostOut := by simp [State.engineStore]

@[simp] theorem State.engineStore_rcd (s : State) (a : Nat) (bs : List Byte) : (s.engineStore a bs).rcd = s.rcd := by simp [State.engineStore]

@[simp] theorem State.engineStore_medium (s : State) (a : Nat) (bs : List Byte) : (s.engineStore a bs).medium = s.medium := by simp [State.engineStore]

@[simp] theorem State.engineStore_loader (s : State) (a : Nat) (bs : List Byte) : (s.engineStore a bs).loader = s.loader := by simp [State.engineStore]

@[simp] theorem State.engineStore_rp (s : State) (a : Nat) (bs : List Byte) : (s.engineStore a bs).rp = s.rp := by simp [State.engineStore]

@[simp] theorem State.engineStore_slots (s : State) (a : Nat) (bs : List Byte) : (s.engineStore a bs).slots = s.slots := by simp [State.engineStore]

@[simp] theorem State.engineStore_coefs (s : State) (a : Nat) (bs : List Byte) : (s.engineStore a bs).coefs = s.coefs := by simp [State.engineStore]

@[simp] theorem State.engineStore_micro (s : State) (a : Nat) (bs : List Byte) : (s.engineStore a bs).micro = s.micro := by simp [State.engineStore]

@[simp] theorem State.engineStore_dac (s : State) (a : Nat) (bs : List Byte) : (s.engineStore a bs).dac = s.dac := by simp [State.engineStore]

@[simp] theorem State.engineStore_winCycles (s : State) (a : Nat) (bs : List Byte) : (s.engineStore a bs).winCycles = s.winCycles := by simp [State.engineStore]

@[simp] theorem State.engineStore_adcIn (s : State) (a : Nat) (bs : List Byte) : (s.engineStore a bs).adcIn = s.adcIn := by simp [State.engineStore]

@[simp] theorem State.engineStore_eng (s : State) (a : Nat) (bs : List Byte) : (s.engineStore a bs).eng = s.eng := by simp [State.engineStore]

@[simp] theorem State.engineStore_heads (s : State) (a : Nat) (bs : List Byte) : (s.engineStore a bs).heads = s.heads := by simp [State.engineStore]

@[simp] theorem State.engineStore_layTrim (s : State) (a : Nat) (bs : List Byte) : (s.engineStore a bs).layTrim = s.layTrim := by simp [State.engineStore]

@[simp] theorem State.engineStore_spin (s : State) (a : Nat) (bs : List Byte) : (s.engineStore a bs).spin = s.spin := by simp [State.engineStore]

@[simp] theorem State.engineStore_steps (s : State) (a : Nat) (bs : List Byte) : (s.engineStore a bs).steps = s.steps := by simp [State.engineStore]

@[simp] theorem State.engineStore_stepTab (s : State) (a : Nat) (bs : List Byte) : (s.engineStore a bs).stepTab = s.stepTab := by simp [State.engineStore]

@[simp] theorem State.engineStore_gear (s : State) (a : Nat) (bs : List Byte) : (s.engineStore a bs).gear = s.gear := by simp [State.engineStore]

@[simp] theorem State.engineStore_vmotNs (s : State) (a : Nat) (bs : List Byte) : (s.engineStore a bs).vmotNs = s.vmotNs := by simp [State.engineStore]

@[simp] theorem State.engineStore_safeHold (s : State) (a : Nat) (bs : List Byte) : (s.engineStore a bs).safeHold = s.safeHold := by simp [State.engineStore]

@[simp] theorem State.engineStore_recs (s : State) (a : Nat) (bs : List Byte) : (s.engineStore a bs).recs = s.recs := by simp [State.engineStore]

@[simp] theorem State.engineStore_lpt (s : State) (a : Nat) (bs : List Byte) : (s.engineStore a bs).lpt = s.lpt := by simp [State.engineStore]

@[simp] theorem State.engineStore_bg (s : State) (a : Nat) (bs : List Byte) : (s.engineStore a bs).bg = s.bg := by simp [State.engineStore]

@[simp] theorem State.engineStore_rg (s : State) (a : Nat) (bs : List Byte) : (s.engineStore a bs).rg = s.rg := by simp [State.engineStore]

@[simp] theorem State.engineStore_pl (s : State) (a : Nat) (bs : List Byte) : (s.engineStore a bs).pl = s.pl := by simp [State.engineStore]

@[simp] theorem State.engineStore_pw (s : State) (a : Nat) (bs : List Byte) : (s.engineStore a bs).pw = s.pw := by simp [State.engineStore]

@[simp] theorem State.engineStore_th (s : State) (a : Nat) (bs : List Byte) : (s.engineStore a bs).th = s.th := by simp [State.engineStore]

@[simp] theorem State.engineStore_fw (s : State) (a : Nat) (bs : List Byte) : (s.engineStore a bs).fw = s.fw := by simp [State.engineStore]

end Sys2Proof.Machine
end

