-- ==== Sys2Proof/Laws/Fields.lean ====
section
/-! SUPPORT. What reading a register field answers after each named operation: the field written reads as written, an event raised reads
as occurred, and every other field reads as before. -/

namespace Sys2Proof.Machine

/-- A key that raising an event of `u` and counting leave alone. -/
def calm (u : UnitId) (k : Nat) : Bool :=
  k != ctwrapKey && k != fieldKey .counterPod F.EVRAW && k != fieldKey u F.EVRAW

/-! ### Fields written -/

theorem State.rd_wr_same (s : State) (u : UnitId) (f : Field) (v : Nat) : (s.wr u f v).rd u f = v % 2 ^ f.w := by
  simp [State.rd, State.wr]

theorem State.rd_wr_other (s : State) {u v : UnitId} {f g : Field} (x : Nat) (h : fieldKey v g ≠ fieldKey u f) :
    (s.wr u f x).rd v g = s.rd v g := by
  simp [State.rd, State.wr, Tbl.look_put_other _ _ _ _ h]

theorem State.look_wr_other (s : State) {u : UnitId} {f : Field} {d k : Nat} (x : Nat) (h : k ≠ fieldKey u f) :
    Tbl.look d (s.wr u f x).regs k = Tbl.look d s.regs k := by
  simp [State.wr, Tbl.look_put_other _ _ _ _ h]

/-! ### Counting -/

theorem State.look_bump (s : State) (i n : Nat) {d k : Nat} (h : k ≠ ctwrapKey) :
    Tbl.look d (s.bump i n).regs k = Tbl.look d s.regs k := by
  unfold State.bump
  dsimp only
  split
  · rfl
  · exact State.look_wr_other _ _ h

theorem State.look_setEvBit (s : State) (u : UnitId) (b : Nat) {d k : Nat} (h : k ≠ ctwrapKey) (hu : k ≠ fieldKey u F.EVRAW) :
    Tbl.look d (s.setEvBit u b).regs k = Tbl.look d s.regs k := by
  unfold State.setEvBit
  split
  · rfl
  · rw [State.look_bump _ _ _ h, State.look_wr_other _ _ hu]

theorem State.look_sendMsix (s : State) (v : Nat) {d k : Nat} (h : k ≠ ctwrapKey) :
    Tbl.look d (s.sendMsix v).regs k = Tbl.look d s.regs k := State.look_bump _ _ _ h

theorem State.look_laneMessage (s : State) (n : Nat) {d k : Nat} (h : k ≠ ctwrapKey) :
    Tbl.look d (s.laneMessage n).regs k = Tbl.look d s.regs k := by
  unfold State.laneMessage
  dsimp only
  split
  · exact State.look_sendMsix _ _ h
  · rfl

theorem State.look_afterEv (s0 s : State) (u : UnitId) {d k : Nat} (h : k ≠ ctwrapKey) :
    Tbl.look d (State.afterEv s0 s u).regs k = Tbl.look d s.regs k := by
  unfold State.afterEv
  split
  · rfl
  · split
    · exact State.look_laneMessage _ _ h
    · rfl

theorem State.look_raise0 (s : State) (u : UnitId) (b : Nat) {d k : Nat} (h : k ≠ ctwrapKey) (hu : k ≠ fieldKey u F.EVRAW) :
    Tbl.look d (s.raise0 u b).regs k = Tbl.look d s.regs k := by
  unfold State.raise0
  rw [State.look_afterEv _ _ _ h, State.look_setEvBit _ _ _ h hu]

theorem State.look_noteWrap (s t : State) {d k : Nat} (h : k ≠ ctwrapKey) (hc : k ≠ fieldKey .counterPod F.EVRAW) :
    Tbl.look d (State.noteWrap s t).regs k = Tbl.look d t.regs k := by
  unfold State.noteWrap
  split
  · rfl
  · exact State.look_raise0 _ _ _ h hc

/-- Counting leaves every field but CTWRAPLAST and the counter pod's events. -/
theorem State.look_count (s : State) (i n : Nat) {d k : Nat} (h : calm .counterPod k = true) :
    Tbl.look d (s.count i n).regs k = Tbl.look d s.regs k := by
  simp only [calm, Bool.and_eq_true, bne_iff_ne] at h
  unfold State.count
  rw [State.look_noteWrap _ _ h.1.1 h.1.2, State.look_bump _ _ _ h.1.1]

/-- Raising an event leaves every field but the unit's EVRAW, CTWRAPLAST and the counter pod's events. -/
theorem State.look_raise (s : State) (u : UnitId) (b : Nat) {d k : Nat} (h : calm u k = true) :
    Tbl.look d (s.raise u b).regs k = Tbl.look d s.regs k := by
  simp only [calm, Bool.and_eq_true, bne_iff_ne] at h
  unfold State.raise
  rw [State.look_noteWrap _ _ h.1.1 h.1.2, State.look_raise0 _ _ _ h.1.1 h.2]

theorem State.rd_count (s : State) (i n : Nat) {u : UnitId} {f : Field} (h : calm .counterPod (fieldKey u f) = true) :
    (s.count i n).rd u f = s.rd u f := State.look_count s i n h

theorem State.rd_raise (s : State) (u : UnitId) (b : Nat) {v : UnitId} {f : Field} (h : calm u (fieldKey v f) = true) :
    (s.raise u b).rd v f = s.rd v f := State.look_raise s u b h

/-! ### Events -/

theorem bitOf_eq (n i : Nat) : bitOf n i = n.testBit i := by
  simp only [bitOf, Nat.testBit_eq_decide_div_mod_eq]
  rfl

theorem State.event_wr_other (s : State) {u v : UnitId} {f : Field} (x b : Nat) (h : fieldKey v F.EVRAW ≠ fieldKey u f) :
    (s.wr u f x).event v b = s.event v b := by
  simp only [State.event, State.rd_wr_other _ _ h]

theorem State.event_bump (s : State) (i n : Nat) {v : UnitId} (c : Nat) (hv : fieldKey v F.EVRAW ≠ ctwrapKey) :
    (s.bump i n).event v c = s.event v c := by
  simp only [State.event, State.rd, State.look_bump _ _ _ hv]

/-- Setting an event bit clears no event. -/
theorem State.event_setEvBit_mono (s : State) (u : UnitId) (b : Nat) {v : UnitId} {c : Nat} (hv : fieldKey v F.EVRAW ≠ ctwrapKey)
    (hc : c < 32) (h : s.event v c = true) : (s.setEvBit u b).event v c = true := by
  unfold State.setEvBit
  split
  · exact h
  · rw [State.event_bump _ _ _ _ hv]
    by_cases e : fieldKey v F.EVRAW = fieldKey u F.EVRAW
    · unfold State.event State.rd at h ⊢
      rw [show (F.EVRAW : Field).rst = 0 from rfl] at h ⊢
      rw [bitOf_eq] at h
      simp only [State.wr, bitOf_eq, e, Tbl.look_put_same, Nat.testBit_mod_two_pow, Nat.testBit_or]
      rw [e] at h
      simp [hc, h]
    · rw [State.event_wr_other _ _ _ e]
      exact h

theorem State.event_setEvBit (s : State) (u : UnitId) {b : Nat} (hu : fieldKey u F.EVRAW ≠ ctwrapKey) (hb : b < 32) :
    (s.setEvBit u b).event u b = true := by
  unfold State.setEvBit
  split
  · assumption
  · rw [State.event_bump _ _ _ _ hu]
    simp only [State.event, State.rd_wr_same, bitOf_eq, Nat.testBit_mod_two_pow, Nat.testBit_or, Nat.testBit_two_pow_self]
    simp [hb]

theorem State.event_afterEv (s0 s : State) (u : UnitId) {v : UnitId} (c : Nat) (hv : fieldKey v F.EVRAW ≠ ctwrapKey) :
    (State.afterEv s0 s u).event v c = s.event v c := by
  simp only [State.event, State.rd, State.look_afterEv _ _ _ hv]

theorem State.event_raise0_mono (s : State) (u : UnitId) (b : Nat) {v : UnitId} {c : Nat} (hv : fieldKey v F.EVRAW ≠ ctwrapKey)
    (hc : c < 32) (h : s.event v c = true) : (s.raise0 u b).event v c = true := by
  unfold State.raise0
  rw [State.event_afterEv _ _ _ _ hv]
  exact State.event_setEvBit_mono _ _ _ hv hc h

theorem State.event_noteWrap (s t : State) {v : UnitId} {c : Nat} (hv : fieldKey v F.EVRAW ≠ ctwrapKey)
    (hc : c < 32) (h : t.event v c = true) : (State.noteWrap s t).event v c = true := by
  unfold State.noteWrap
  split
  · exact h
  · exact State.event_raise0_mono _ _ _ hv hc h

/-- Raising an event clears no event. -/
theorem State.event_raise_mono (s : State) (u : UnitId) (b : Nat) {v : UnitId} {c : Nat} (hv : fieldKey v F.EVRAW ≠ ctwrapKey)
    (hc : c < 32) (h : s.event v c = true) : (s.raise u b).event v c = true :=
  State.event_noteWrap _ _ hv hc (State.event_raise0_mono _ _ _ hv hc h)

/-- An event raised has occurred. -/
theorem State.event_raise (s : State) (u : UnitId) {b : Nat} (hu : fieldKey u F.EVRAW ≠ ctwrapKey) (hb : b < 32) :
    (s.raise u b).event u b = true := by
  refine State.event_noteWrap _ _ hu hb ?_
  unfold State.raise0
  rw [State.event_afterEv _ _ _ _ hu]
  exact State.event_setEvBit _ _ hu hb

/-- Counting clears no event. -/
theorem State.event_count (s : State) (i n : Nat) {v : UnitId} {c : Nat} (hv : fieldKey v F.EVRAW ≠ ctwrapKey)
    (hc : c < 32) (h : s.event v c = true) : (s.count i n).event v c = true := by
  refine State.event_noteWrap _ _ hv hc ?_
  rw [State.event_bump _ _ _ _ hv]
  exact h

end Sys2Proof.Machine
end

