-- ==== Sys2Proof/Laws/Frames.lean ====
section
/-! SUPPORT. How the frames of Safety.lean pass through the named operations: register fields but for listed keys (`RegsBut`), and all
state but registers, counters and lane messages (`RegsOnly`). -/

namespace Sys2Proof.Machine

/-! ### Register fields -/

theorem key_ne {k j : Nat} {l : List Nat} (hk : k ∉ l) (m : j ∈ l) : k ≠ j := fun e => hk (e.symm ▸ m)

theorem RegsBut.refl (s : State) (l : List Nat) : RegsBut s s l := fun _ _ _ => rfl

theorem RegsBut.trans {s t u : State} {l : List Nat} (h : RegsBut s t l) (g : RegsBut t u l) : RegsBut s u l :=
  fun k d hk => (g k d hk).trans (h k d hk)

theorem RegsBut.weaken {s t : State} {l m : List Nat} (h : RegsBut s t l) (hm : ∀ k ∈ l, k ∈ m) : RegsBut s t m :=
  fun k d hk => h k d (fun x => hk (hm k x))

/-- A state whose register table is that of `t` differs from `s` as `t` does. -/
theorem RegsBut.same {s t u : State} {l : List Nat} (h : RegsBut s t l) (e : u.regs = t.regs) : RegsBut s u l :=
  fun k d hk => by rw [e]; exact h k d hk

theorem RegsBut.wr {s t : State} {l : List Nat} {u : UnitId} {f : Field} {v : Nat} (h : RegsBut s t l) (m : fieldKey u f ∈ l) :
    RegsBut s (t.wr u f v) l :=
  fun k d hk => (State.look_wr_other t v (key_ne hk m)).trans (h k d hk)

theorem RegsBut.setFlag {s t : State} {l : List Nat} {u : UnitId} {f : Field} {b : Bool} (h : RegsBut s t l)
    (m : fieldKey u f ∈ l) : RegsBut s (t.setFlag u f b) l := h.wr m

theorem RegsBut.incWrap {s t : State} {l : List Nat} {u : UnitId} {f : Field} {n : Nat} (h : RegsBut s t l)
    (m : fieldKey u f ∈ l) : RegsBut s (t.incWrap u f n) l := h.wr m

theorem RegsBut.incSat {s t : State} {l : List Nat} {u : UnitId} {f : Field} {n : Nat} (h : RegsBut s t l)
    (m : fieldKey u f ∈ l) : RegsBut s (t.incSat u f n) l := h.wr m

theorem RegsBut.bump {s t : State} {l : List Nat} {i n : Nat} (h : RegsBut s t l) (m : ctwrapKey ∈ l) : RegsBut s (t.bump i n) l :=
  fun k d hk => (State.look_bump t i n (key_ne hk m)).trans (h k d hk)

theorem RegsBut.laneMessage {s t : State} {l : List Nat} {n : Nat} (h : RegsBut s t l) (m : ctwrapKey ∈ l) :
    RegsBut s (t.laneMessage n) l :=
  fun k d hk => (State.look_laneMessage t n (key_ne hk m)).trans (h k d hk)

theorem RegsBut.noteWrap {s r t : State} {l : List Nat} (h : RegsBut s t l) (m : ctwrapKey ∈ l)
    (c : fieldKey .counterPod F.EVRAW ∈ l) : RegsBut s (State.noteWrap r t) l :=
  fun k d hk => (State.look_noteWrap r t (key_ne hk m) (key_ne hk c)).trans (h k d hk)

theorem RegsBut.count {s t : State} {l : List Nat} {i n : Nat} (h : RegsBut s t l) (m : ctwrapKey ∈ l)
    (c : fieldKey .counterPod F.EVRAW ∈ l) : RegsBut s (t.count i n) l := (h.bump m).noteWrap m c

theorem RegsBut.raise0 {s t : State} {l : List Nat} {u : UnitId} {b : Nat} (h : RegsBut s t l) (m : ctwrapKey ∈ l)
    (r : fieldKey u F.EVRAW ∈ l) : RegsBut s (t.raise0 u b) l :=
  fun k d hk => (State.look_raise0 t u b (key_ne hk m) (key_ne hk r)).trans (h k d hk)

theorem RegsBut.raise {s t : State} {l : List Nat} {u : UnitId} {b : Nat} (h : RegsBut s t l) (m : ctwrapKey ∈ l)
    (c : fieldKey .counterPod F.EVRAW ∈ l) (r : fieldKey u F.EVRAW ∈ l) : RegsBut s (t.raise u b) l := (h.raise0 m r).noteWrap m c

theorem RegsBut.ite {s t u : State} {l : List Nat} {c : Prop} [Decidable c] (h : c → RegsBut s t l) (g : ¬c → RegsBut s u l) :
    RegsBut s (if c then t else u) l := by
  split
  · exact h ‹_›
  · exact g ‹_›

/-- The register field at a key not listed. -/
theorem RegsBut.rd {s t : State} {l : List Nat} {u : UnitId} {f : Field} (h : RegsBut s t l) (m : fieldKey u f ∉ l) :
    t.rd u f = s.rd u f := h _ _ m

/-! ### All state but registers, counters and lane messages -/

theorem RegsOnly.refl (s : State) : RegsOnly s s := rfl

theorem RegsOnly.trans {s t u : State} (h : RegsOnly s t) (g : RegsOnly t u) : RegsOnly s u := by
  unfold RegsOnly at *
  rw [h] at g
  exact g

theorem RegsOnly.wr {s t : State} {u : UnitId} {f : Field} {v : Nat} (h : RegsOnly s t) : RegsOnly s (t.wr u f v) :=
  h.trans rfl

theorem RegsOnly.setFlag {s t : State} {u : UnitId} {f : Field} {b : Bool} (h : RegsOnly s t) : RegsOnly s (t.setFlag u f b) := h.wr

theorem RegsOnly.incWrap {s t : State} {u : UnitId} {f : Field} {n : Nat} (h : RegsOnly s t) : RegsOnly s (t.incWrap u f n) := h.wr

theorem RegsOnly.incSat {s t : State} {u : UnitId} {f : Field} {n : Nat} (h : RegsOnly s t) : RegsOnly s (t.incSat u f n) := h.wr

theorem RegsOnly.bump {s t : State} {i n : Nat} (h : RegsOnly s t) : RegsOnly s (t.bump i n) := by
  refine h.trans ?_
  unfold RegsOnly
  apply State.ext <;> simp

theorem RegsOnly.laneMessage {s t : State} {n : Nat} (h : RegsOnly s t) : RegsOnly s (t.laneMessage n) := by
  refine h.trans ?_
  unfold RegsOnly
  apply State.ext <;> simp

theorem RegsOnly.raise0 {s t : State} {u : UnitId} {b : Nat} (h : RegsOnly s t) : RegsOnly s (t.raise0 u b) := by
  refine h.trans ?_
  unfold RegsOnly
  apply State.ext <;> simp

theorem RegsOnly.count {s t : State} {i n : Nat} (h : RegsOnly s t) : RegsOnly s (t.count i n) := by
  refine h.trans ?_
  unfold RegsOnly
  apply State.ext <;> simp

theorem RegsOnly.raise {s t : State} {u : UnitId} {b : Nat} (h : RegsOnly s t) : RegsOnly s (t.raise u b) := by
  refine h.trans ?_
  unfold RegsOnly
  apply State.ext <;> simp

theorem RegsOnly.ite {s t u : State} {c : Prop} [Decidable c] (h : c → RegsOnly s t) (g : ¬c → RegsOnly s u) :
    RegsOnly s (if c then t else u) := by
  split
  · exact h ‹_›
  · exact g ‹_›

/-! ### Commands that a clocked device serves -/

@[simp] theorem live_clocked {s t : State} (h : s.pw.clocked = true) : live s t = .next t := by
  simp [live, h]

/-- A register write that nothing refuses takes its effect. -/
theorem State.guardReg_may {s : State} {r : Requester} {u : UnitId} {o : Nat} (h : s.May r u o) (v : Nat) (f : State → State) :
    s.guardReg r u o v f = f s := by
  obtain ⟨h1, h2, h3⟩ := h
  simp [State.guardReg, h1, h2, h3]

/-- The command that writes one named register, which nothing refuses. -/
theorem State.live_guardReg {s : State} {r : Requester} {u : UnitId} {o : Nat} (h : s.May r u o) (v : Nat) (f : State → State) :
    live s (s.guardReg r u o v f) = .next (f s) := by
  rw [State.guardReg_may h, live_clocked h.1]

end Sys2Proof.Machine
end

