-- ==== Sys2Proof/Laws/Crumbs.lean ====
section
/-! SUPPORT. What offering a crumb does (R444, R445): the queue takes it where it has room, and nothing outside the crumb unit, the event
unit's registers, counters and lanes changes. -/

namespace Sys2Proof.Machine

theorem CrumbOnly.refl (s : State) : CrumbOnly s s := rfl
theorem CrumbOnly.trans {s t u : State} (h : CrumbOnly s t) (g : CrumbOnly t u) : CrumbOnly s u := by
  unfold CrumbOnly at *; rw [h] at g; exact g
theorem RegsOnly.crumb {s t : State} (h : RegsOnly s t) : CrumbOnly s t := by
  unfold RegsOnly CrumbOnly at *; rw [h]

theorem State.acceptCrumb_only (s : State) (c : Crumb) : CrumbOnly s (s.acceptCrumb c) := by
  unfold State.acceptCrumb CrumbOnly
  dsimp only
  split <;> apply State.ext <;> simp
theorem State.offerCrumb_only (s : State) (c : Crumb) : CrumbOnly s (s.offerCrumb c) := by
  unfold State.offerCrumb
  split
  · exact RegsOnly.crumb (RegsOnly.refl s).incWrap.raise
  · exact State.acceptCrumb_only _ _

theorem crumbKeys_cw : ctwrapKey ∈ crumbKeys := by decide
theorem crumbKeys_cp : fieldKey .counterPod F.EVRAW ∈ crumbKeys := by decide
theorem crumbKeys_ev : fieldKey .event F.EVRAW ∈ crumbKeys := by decide
theorem crumbKeys_fl : fieldKey .event F.CRSTAT_flood ∈ crumbKeys := by decide
theorem crumbKeys_lo : fieldKey .event F.CRLOST_count ∈ crumbKeys := by decide

theorem RegsBut.offerCrumb {s t : State} (c : Crumb) {l : List Nat} (hl : ∀ k ∈ crumbKeys, k ∈ l) (h : RegsBut s t l) : RegsBut s (t.offerCrumb c) l := by
  have m := hl _ crumbKeys_cw
  have m1 := hl _ crumbKeys_cp
  have m2 := hl _ crumbKeys_ev
  unfold State.offerCrumb
  split
  · exact (h.incWrap (hl _ crumbKeys_lo)).raise m m1 m2
  · unfold State.acceptCrumb
    dsimp only
    split
    · exact (((h.count m m1).setFlag (hl _ crumbKeys_fl)).raise m m1 m2).same rfl
    · exact (h.count m m1).same rfl

/-- A crumb offered while the queue has room is queued (R445). -/
theorem State.offerCrumb_queued (s : State) (c : Crumb) (h : s.crumbs.queue.length < 64) :
    ∃ fl, (s.offerCrumb c).crumbs.queue = s.crumbs.queue ++ [{c with flood := fl}] := by
  unfold State.offerCrumb
  rw [if_neg (by omega)]
  unfold State.acceptCrumb
  dsimp only
  split <;> exact ⟨_, by simp; rfl⟩

/-- The crumb of a refused write (R57). -/
theorem State.refuse_spec (s : State) (r : Requester) (u : UnitId) (c off v : Nat) (ho : off < 2^32) (hv : v < 2^32) (hc : c < 256) :
    Queued s (s.refuse r.num u c off v) 0 r.num u.number c off v ∧ RegsBut s (s.refuse r.num u c off v) crumbKeys ∧ CrumbOnly s (s.refuse r.num u c off v) := by
  refine ⟨?_, RegsBut.offerCrumb _ (fun _ h => h) (RegsBut.refl _ _), State.offerCrumb_only _ _⟩
  intro h
  obtain ⟨fl, e⟩ := State.offerCrumb_queued s ⟨0, r.num, u.number, c % 256, off % 2^32, v % 2^32, s.time.ns, false⟩ h
  refine ⟨fl, ?_⟩
  unfold State.refuse State.crumb
  rw [e]
  rw [Nat.mod_eq_of_lt ho, Nat.mod_eq_of_lt hv, Nat.mod_eq_of_lt hc]

/-- A crumb of any class: queued where there is room, and nothing else changes (R444, R445). -/
theorem State.crumb_spec (s : State) (cls req : Nat) (u : UnitId) (code d6 d7 : Nat) :
    Queued s (s.crumb cls req u code d6 d7) cls req u.number (code % 256) (d6 % 2 ^ 32) (d7 % 2 ^ 32) ∧
      RegsBut s (s.crumb cls req u code d6 d7) crumbKeys ∧ CrumbOnly s (s.crumb cls req u code d6 d7) := by
  refine ⟨?_, RegsBut.offerCrumb _ (fun _ h => h) (RegsBut.refl _ _), State.offerCrumb_only _ _⟩
  intro h
  obtain ⟨fl, e⟩ := State.offerCrumb_queued s ⟨cls, req, u.number, code % 256, d6 % 2 ^ 32, d7 % 2 ^ 32, s.time.ns, false⟩ h
  exact ⟨fl, e⟩

end Sys2Proof.Machine
end

