-- ==== Sys2Proof/Laws/Kept.lean ====
section
/-! SUPPORT. Soundness (Safety.lean) with the queue of waiting commands held at `q`: how it passes through record updates, choices and
folds, and the named operations of Ops.lean. -/

namespace Sys2Proof.Machine

/-- A value reduced to `w` bits is below `2 ^ w`. -/
theorem unsigned_lt (w : Nat) (x : Int) : unsigned w x < 2 ^ w := by
  unfold unsigned
  have h : (0 : Int) < ((2 ^ w : Nat) : Int) := Int.natCast_pos.mpr (Nat.two_pow_pos w)
  have h1 := Int.emod_lt_of_pos x h
  have h2 := Int.emod_nonneg x (Int.ne_of_gt h)
  omega

/-- A state is sound and its queue of waiting commands is `Q`. -/
def Kept (Q : List Instr) (s : State) : Prop := s.pending = Q ∧ s.Sound

/-- The outcome is a next state, and it is sound. -/
def KeptOut (Q : List Instr) (o : Out) : Prop :=
  match o with
  | .next t => Kept Q t
  | _ => False

/-- A state that agrees in what soundness reads is as sound. -/
theorem Kept.same {Q : List Instr} {s t : State} (h : Kept Q s) (hp : t.pending = s.pending) (hm : t.mem = s.mem)
    (hr : t.regs = s.regs) (hv : t.ctr.val = s.ctr.val) (hw : t.ctr.wraps = s.ctr.wraps) (hq : t.crumbs.queue = s.crumbs.queue)
    (ht : t.time.ns = s.time.ns) : Kept Q t := by
  unfold Kept State.Sound at *
  rw [hp, hm, hr, hv, hw, hq, ht]
  exact h

/-- A record update that leaves what soundness reads keeps it. -/
theorem Kept.mk {Q : List Instr} {s : State} {f_read : ReadPort} {c_crumbs : CrumbUnit} {f_lanes : Lanes} {c_ctr : Counters}
    {f_port : Port} {f_l2 : L2Cache} {c_time : TimeUnit} {f_tc : Timecode} {f_tb : TrayBuilder} {f_hc : HostCtl} {f_hostOut : List
    HostMsg} {f_rcd : Recorder} {f_medium : Option Cartridge} {f_loader : Option Cartridge} {f_rp : ReadPath} {f_slots : Tbl SlotSt}
    {f_coefs : Tbl Nat} {f_micro : Tbl Nat} {f_dac : Tbl Nat} {f_winCycles : Nat} {f_adcIn : Tbl Nat} {f_eng : Engines} {f_heads : Tbl
    HeadSt} {f_layTrim : Tbl Nat} {f_spin : SpinSt} {f_steps : Tbl StepSt} {f_stepTab : Tbl Nat} {f_gear : Tbl Nat} {f_vmotNs : Nat}
    {f_safeHold : Bool} {f_recs : Records} {f_lpt : Tbl Nat} {f_bg : Background} {f_rg : RingSt} {f_pl : PairSt} {f_cores : Tbl
    CoreSt} {f_pw : Power} {f_th : Thermal} {f_fw : Firmware}
    (hv : c_ctr.val = s.ctr.val) (hw : c_ctr.wraps = s.ctr.wraps) (hq : c_crumbs.queue = s.crumbs.queue)
    (ht : c_time.ns = s.time.ns) (h : Kept Q s) :
    Kept Q (State.mk s.pending s.regs f_read c_crumbs f_lanes c_ctr f_port s.mem f_l2 c_time f_tc f_tb f_hc f_hostOut f_rcd
    f_medium f_loader f_rp f_slots f_coefs f_micro f_dac f_winCycles f_adcIn f_eng f_heads f_layTrim f_spin f_steps f_stepTab f_gear
    f_vmotNs f_safeHold f_recs f_lpt f_bg f_rg f_pl f_cores f_pw f_th f_fw) := Kept.same h rfl rfl rfl hv hw hq ht

theorem Kept.ite {Q : List Instr} {c : Prop} [Decidable c] {a b : State} (ha : c → Kept Q a) (hb : ¬c → Kept Q b) :
    Kept Q (if c then a else b) := by
  split
  · exact ha ‹_›
  · exact hb ‹_›

theorem Kept.foldl {α : Type} {Q : List Instr} {f : State → α → State} (hf : ∀ t x, Kept Q t → Kept Q (f t x)) (l : List α) :
    ∀ s, Kept Q s → Kept Q (l.foldl f s) := by
  induction l with
  | nil => intro s h; exact h
  | cons x l ih => intro s h; exact ih _ (hf s x h)

theorem Kept.foldl_fst {α β : Type} {Q : List Instr} {f : State × β → α → State × β}
    (hf : ∀ a x, Kept Q a.1 → Kept Q (f a x).1) (l : List α) : ∀ a, Kept Q a.1 → Kept Q (l.foldl f a).1 := by
  induction l with
  | nil => intro a h; exact h
  | cons x l ih => intro a h; exact ih _ (hf a x h)

theorem Kept.ite_fst {β : Type} {Q : List Instr} {c : Prop} [Decidable c] {a b : State × β} (ha : c → Kept Q a.1)
    (hb : ¬c → Kept Q b.1) : Kept Q (if c then a else b).1 := by
  split
  · exact ha ‹_›
  · exact hb ‹_›

theorem KeptOut.next {Q : List Instr} {t : State} (h : Kept Q t) : KeptOut Q (.next t) := h

theorem KeptOut.live {Q : List Instr} {s t : State} (hs : Kept Q s) (ht : Kept Q t) : KeptOut Q (live s t) :=
  Kept.ite (fun _ => ht) (fun _ => hs)

theorem KeptOut.ite {Q : List Instr} {c : Prop} [Decidable c] {a b : Out} (ha : c → KeptOut Q a) (hb : ¬c → KeptOut Q b) :
    KeptOut Q (if c then a else b) := by
  split
  · exact ha ‹_›
  · exact hb ‹_›

/-! ### Registers, counters and events -/

theorem State.wr_kept {Q : List Instr} {s : State} (u : UnitId) (f : Field) (v : Nat) (h : Kept Q s) : Kept Q (s.wr u f v) :=
  ⟨h.1, h.2.1, Tbl.rising_put _ _ _ _ h.2.2.1, h.2.2.2⟩

theorem State.bump_kept {Q : List Instr} {s : State} (i n : Nat) (h : Kept Q s) : Kept Q (s.bump i n) := by
  obtain ⟨hp, hm, hr, ⟨hv, hv'⟩, hw, hq, ht⟩ := h
  unfold State.bump
  simp only []
  split
  · exact ⟨hp, hm, hr, ⟨Tbl.rising_put _ _ _ _ hv, Tbl.forall_put (P := fun e => e.2 < 2 ^ 48) _ _ _ _ hv' (fun _ => ‹_›)⟩, hw, hq, ht⟩
  · refine State.wr_kept _ _ _ ⟨hp, hm, hr, ⟨Tbl.rising_put _ _ _ _ hv, ?_⟩, ?_, hq, ht⟩
    · exact Tbl.forall_put (P := fun e => e.2 < 2 ^ 48) _ _ _ _ hv' (fun _ => Nat.mod_lt _ (by decide))
    · exact Tbl.forall_put (P := fun e => e.2 < 2 ^ 16) _ _ _ _ hw (fun _ => Nat.mod_lt _ (by decide))

/-! ### Memory -/

theorem State.setByte_kept {Q : List Instr} {s : State} (a : Nat) (b : Byte) (h : Kept Q s) : Kept Q (s.setByte a b) :=
  ⟨h.1, Tbl.wf_put memDefault _ _ _ h.2.1, h.2.2⟩

end Sys2Proof.Machine
end

