-- ==== Sys2Proof/Laws/KeptOps.lean ====
section
/-! SUPPORT. Soundness is kept by every operation and meaning of Machine/Ops.lean. -/

namespace Sys2Proof.Machine

theorem State.setFlag_kept {Q : List Instr} (s : State) (u : UnitId) (f : Field) (b : Bool) (h0 : Kept Q s) :
    Kept Q (State.setFlag s u f b) := by
  unfold State.setFlag
  try dsimp only
  repeat' first | intro _ | (with_reducible first | assumption | apply State.wr_kept | apply Kept.foldl | apply Kept.foldl_fst) | (with_reducible refine Kept.mk rfl rfl rfl rfl ?_; with_reducible first | assumption | apply State.wr_kept | apply Kept.foldl | apply Kept.foldl_fst) | split | dsimp only | with_reducible apply Kept.ite

theorem State.incWrap_kept {Q : List Instr} (s : State) (u : UnitId) (f : Field) (k : Nat) (h0 : Kept Q s) :
    Kept Q (State.incWrap s u f k) := by
  unfold State.incWrap
  try dsimp only
  repeat' first | intro _ | (with_reducible first | assumption | apply State.wr_kept | apply Kept.foldl | apply Kept.foldl_fst) | (with_reducible refine Kept.mk rfl rfl rfl rfl ?_; with_reducible first | assumption | apply State.wr_kept | apply Kept.foldl | apply Kept.foldl_fst) | split | dsimp only | with_reducible apply Kept.ite

theorem State.incSat_kept {Q : List Instr} (s : State) (u : UnitId) (f : Field) (k : Nat) (h0 : Kept Q s) :
    Kept Q (State.incSat s u f k) := by
  unfold State.incSat
  try dsimp only
  repeat' first | intro _ | (with_reducible first | assumption | apply State.wr_kept | apply Kept.foldl | apply Kept.foldl_fst) | (with_reducible refine Kept.mk rfl rfl rfl rfl ?_; with_reducible first | assumption | apply State.wr_kept | apply Kept.foldl | apply Kept.foldl_fst) | split | dsimp only | with_reducible apply Kept.ite

theorem State.setEvBit_kept {Q : List Instr} (s : State) (u : UnitId) (bit : Nat) (h0 : Kept Q s) :
    Kept Q (State.setEvBit s u bit) := by
  unfold State.setEvBit
  try dsimp only
  repeat' first | intro _ | (with_reducible first | assumption | apply State.wr_kept | apply State.bump_kept | apply Kept.foldl | apply Kept.foldl_fst) | (with_reducible refine Kept.mk rfl rfl rfl rfl ?_; with_reducible first | assumption | apply State.wr_kept | apply State.bump_kept | apply Kept.foldl | apply Kept.foldl_fst) | split | dsimp only | with_reducible apply Kept.ite

theorem State.sendMsix_kept {Q : List Instr} (s : State) (v : Nat) (h0 : Kept Q s) :
    Kept Q (State.sendMsix s v) := by
  unfold State.sendMsix
  try dsimp only
  repeat' first | intro _ | (with_reducible first | assumption | apply State.bump_kept | apply Kept.foldl | apply Kept.foldl_fst) | (with_reducible refine Kept.mk rfl rfl rfl rfl ?_; with_reducible first | assumption | apply State.bump_kept | apply Kept.foldl | apply Kept.foldl_fst) | split | dsimp only | with_reducible apply Kept.ite

theorem State.laneMessage_kept {Q : List Instr} (s : State) (lane : Nat) (h0 : Kept Q s) :
    Kept Q (State.laneMessage s lane) := by
  unfold State.laneMessage
  try dsimp only
  repeat' first | intro _ | (with_reducible first | assumption | apply State.sendMsix_kept | apply Kept.foldl | apply Kept.foldl_fst) | (with_reducible refine Kept.mk rfl rfl rfl rfl ?_; with_reducible first | assumption | apply State.sendMsix_kept | apply Kept.foldl | apply Kept.foldl_fst) | split | dsimp only | with_reducible apply Kept.ite

theorem State.afterEv_kept {Q : List Instr} (s0 s : State) (u : UnitId) (h0 : Kept Q s0) (h1 : Kept Q s) :
    Kept Q (State.afterEv s0 s u) := by
  unfold State.afterEv
  try dsimp only
  repeat' first | intro _ | (with_reducible first | assumption | apply State.laneMessage_kept | apply Kept.foldl | apply Kept.foldl_fst) | (with_reducible refine Kept.mk rfl rfl rfl rfl ?_; with_reducible first | assumption | apply State.laneMessage_kept | apply Kept.foldl | apply Kept.foldl_fst) | split | dsimp only | with_reducible apply Kept.ite

theorem State.raise0_kept {Q : List Instr} (s : State) (u : UnitId) (bit : Nat) (h0 : Kept Q s) :
    Kept Q (State.raise0 s u bit) := by
  unfold State.raise0
  try dsimp only
  repeat' first | intro _ | (with_reducible first | assumption | apply State.afterEv_kept | apply State.setEvBit_kept | apply Kept.foldl | apply Kept.foldl_fst) | (with_reducible refine Kept.mk rfl rfl rfl rfl ?_; with_reducible first | assumption | apply State.afterEv_kept | apply State.setEvBit_kept | apply Kept.foldl | apply Kept.foldl_fst) | split | dsimp only | with_reducible apply Kept.ite

theorem State.noteWrap_kept {Q : List Instr} (s t : State) (h0 : Kept Q s) (h1 : Kept Q t) :
    Kept Q (State.noteWrap s t) := by
  unfold State.noteWrap
  try dsimp only
  repeat' first | intro _ | (with_reducible first | assumption | apply State.raise0_kept | apply Kept.foldl | apply Kept.foldl_fst) | (with_reducible refine Kept.mk rfl rfl rfl rfl ?_; with_reducible first | assumption | apply State.raise0_kept | apply Kept.foldl | apply Kept.foldl_fst) | split | dsimp only | with_reducible apply Kept.ite

theorem State.raise_kept {Q : List Instr} (s : State) (u : UnitId) (bit : Nat) (h0 : Kept Q s) :
    Kept Q (State.raise s u bit) := by
  unfold State.raise
  try dsimp only
  repeat' first | intro _ | (with_reducible first | assumption | apply State.noteWrap_kept | apply State.raise0_kept | apply Kept.foldl | apply Kept.foldl_fst) | (with_reducible refine Kept.mk rfl rfl rfl rfl ?_; with_reducible first | assumption | apply State.noteWrap_kept | apply State.raise0_kept | apply Kept.foldl | apply Kept.foldl_fst) | split | dsimp only | with_reducible apply Kept.ite

theorem State.count_kept {Q : List Instr} (s : State) (i : Nat) (n : Nat) (h0 : Kept Q s) :
    Kept Q (State.count s i n) := by
  unfold State.count
  try dsimp only
  repeat' first | intro _ | (with_reducible first | assumption | apply State.noteWrap_kept | apply State.bump_kept | apply Kept.foldl | apply Kept.foldl_fst) | (with_reducible refine Kept.mk rfl rfl rfl rfl ?_; with_reducible first | assumption | apply State.noteWrap_kept | apply State.bump_kept | apply Kept.foldl | apply Kept.foldl_fst) | split | dsimp only | with_reducible apply Kept.ite

theorem State.lockviol_kept {Q : List Instr} (s : State) (u : UnitId) (h0 : Kept Q s) :
    Kept Q (State.lockviol s u) := by
  unfold State.lockviol
  try dsimp only
  repeat' first | intro _ | (with_reducible first | assumption | apply State.raise_kept | apply Kept.foldl | apply Kept.foldl_fst) | (with_reducible refine Kept.mk rfl rfl rfl rfl ?_; with_reducible first | assumption | apply State.raise_kept | apply Kept.foldl | apply Kept.foldl_fst) | split | dsimp only | with_reducible apply Kept.ite

theorem State.acceptCrumb_kept {Q : List Instr} (s : State) (c : Crumb) (h0 : Kept Q s) (hl : s.crumbs.queue.length < 64) :
    Kept Q (State.acceptCrumb s c) := by
  have h1 := State.count_kept s 187 1 h0
  have key : ∀ t : State, Kept Q t → t.crumbs = s.crumbs → ∀ b n, Kept Q { t with crumbs := { t.crumbs with
      queue := t.crumbs.queue ++ [{ c with flood := b }], accepted := n } } := by
    intro t ht hc b n
    refine ⟨ht.1, ht.2.1, ht.2.2.1, ht.2.2.2.1, ht.2.2.2.2.1, ?_, ht.2.2.2.2.2.2⟩
    simp [hc]
    omega
  unfold State.acceptCrumb
  dsimp only
  split
  · exact key _ (State.raise_kept _ _ _ (State.setFlag_kept _ _ _ _ h1)) (by simp) _ _
  · exact key _ h1 (by simp) _ _

theorem State.offerCrumb_kept {Q : List Instr} (s : State) (c : Crumb) (h0 : Kept Q s) :
    Kept Q (State.offerCrumb s c) := by
  unfold State.offerCrumb
  split
  · exact State.raise_kept _ _ _ (State.incWrap_kept _ _ _ _ h0)
  · exact State.acceptCrumb_kept _ _ h0 (by omega)

theorem State.crumb_kept {Q : List Instr} (s : State) (cls req : Nat) (u : UnitId) (code d6 d7 : Nat) (h0 : Kept Q s) :
    Kept Q (State.crumb s cls req u code d6 d7) := by
  unfold State.crumb
  try dsimp only
  repeat' first | intro _ | (with_reducible first | assumption | apply State.offerCrumb_kept | apply Kept.foldl | apply Kept.foldl_fst) | (with_reducible refine Kept.mk rfl rfl rfl rfl ?_; with_reducible first | assumption | apply State.offerCrumb_kept | apply Kept.foldl | apply Kept.foldl_fst) | split | dsimp only | with_reducible apply Kept.ite

theorem State.report_kept {Q : List Instr} (s : State) (u : UnitId) (bit d6 d7 : Nat) (h0 : Kept Q s) :
    Kept Q (State.report s u bit d6 d7) := by
  unfold State.report
  try dsimp only
  repeat' first | intro _ | (with_reducible first | assumption | apply State.crumb_kept | apply Kept.foldl | apply Kept.foldl_fst) | (with_reducible refine Kept.mk rfl rfl rfl rfl ?_; with_reducible first | assumption | apply State.crumb_kept | apply Kept.foldl | apply Kept.foldl_fst) | split | dsimp only | with_reducible apply Kept.ite

theorem State.refuse_kept {Q : List Instr} (s : State) (req : Nat) (u : UnitId) (c off v : Nat) (h0 : Kept Q s) :
    Kept Q (State.refuse s req u c off v) := by
  unfold State.refuse
  try dsimp only
  repeat' first | intro _ | (with_reducible first | assumption | apply State.crumb_kept | apply Kept.foldl | apply Kept.foldl_fst) | (with_reducible refine Kept.mk rfl rfl rfl rfl ?_; with_reducible first | assumption | apply State.crumb_kept | apply Kept.foldl | apply Kept.foldl_fst) | split | dsimp only | with_reducible apply Kept.ite

theorem State.storeBytes_kept {Q : List Instr} (s : State) (a : Nat) (x0 : List Byte) (h0 : Kept Q s) :
    Kept Q (State.storeBytes s a x0) := by
  induction x0 generalizing s a with
  | nil => exact h0
  | cons b bs ih => exact ih _ _ (State.setByte_kept _ _ h0)

theorem State.storeLE_kept {Q : List Instr} (s : State) (a n v : Nat) (h0 : Kept Q s) :
    Kept Q (State.storeLE s a n v) := by
  unfold State.storeLE
  try dsimp only
  repeat' first | intro _ | (with_reducible first | assumption | apply State.storeBytes_kept | apply Kept.foldl | apply Kept.foldl_fst) | (with_reducible refine Kept.mk rfl rfl rfl rfl ?_; with_reducible first | assumption | apply State.storeBytes_kept | apply Kept.foldl | apply Kept.foldl_fst) | split | dsimp only | with_reducible apply Kept.ite

theorem State.dropL2_kept {Q : List Instr} (s : State) (a n : Nat) (h0 : Kept Q s) :
    Kept Q (State.dropL2 s a n) := by
  unfold State.dropL2
  try dsimp only
  repeat' first | intro _ | (with_reducible first | assumption | apply Kept.foldl | apply Kept.foldl_fst) | (with_reducible refine Kept.mk rfl rfl rfl rfl ?_; with_reducible first | assumption | apply Kept.foldl | apply Kept.foldl_fst) | split | dsimp only | with_reducible apply Kept.ite

theorem State.heal_kept {Q : List Instr} (s : State) (a n : Nat) (h0 : Kept Q s) :
    Kept Q (State.heal s a n) := by
  unfold State.heal
  try dsimp only
  repeat' first | intro _ | (with_reducible first | assumption | apply Kept.foldl | apply Kept.foldl_fst) | (with_reducible refine Kept.mk rfl rfl rfl rfl ?_; with_reducible first | assumption | apply Kept.foldl | apply Kept.foldl_fst) | split | dsimp only | with_reducible apply Kept.ite

theorem State.engineStore_kept {Q : List Instr} (s : State) (a : Nat) (bs : List Byte) (h0 : Kept Q s) :
    Kept Q (State.engineStore s a bs) := by
  unfold State.engineStore
  try dsimp only
  repeat' first | intro _ | (with_reducible first | assumption | apply State.storeBytes_kept | apply State.dropL2_kept | apply State.heal_kept | apply Kept.foldl | apply Kept.foldl_fst) | (with_reducible refine Kept.mk rfl rfl rfl rfl ?_; with_reducible first | assumption | apply State.storeBytes_kept | apply State.dropL2_kept | apply State.heal_kept | apply Kept.foldl | apply Kept.foldl_fst) | split | dsimp only | with_reducible apply Kept.ite

theorem State.eccFix_kept {Q : List Instr} (s : State) (a : Nat) (h0 : Kept Q s) :
    Kept Q (State.eccFix s a) := by
  unfold State.eccFix
  try dsimp only
  repeat' first | intro _ | (with_reducible first | assumption | apply State.incSat_kept | apply State.raise_kept | apply Kept.foldl | apply Kept.foldl_fst) | (with_reducible refine Kept.mk rfl rfl rfl rfl ?_; with_reducible first | assumption | apply State.incSat_kept | apply State.raise_kept | apply Kept.foldl | apply Kept.foldl_fst) | split | dsimp only | with_reducible apply Kept.ite

theorem State.eccFail_kept {Q : List Instr} (s : State) (a : Nat) (h0 : Kept Q s) :
    Kept Q (State.eccFail s a) := by
  unfold State.eccFail
  try dsimp only
  repeat' first | intro _ | (with_reducible first | assumption | apply State.incSat_kept | apply State.wr_kept | apply State.raise_kept | apply Kept.foldl | apply Kept.foldl_fst) | (with_reducible refine Kept.mk rfl rfl rfl rfl ?_; with_reducible first | assumption | apply State.incSat_kept | apply State.wr_kept | apply State.raise_kept | apply Kept.foldl | apply Kept.foldl_fst) | split | dsimp only | with_reducible apply Kept.ite

theorem State.sramPar_kept {Q : List Instr} (s : State) (h0 : Kept Q s) :
    Kept Q (State.sramPar s) := by
  unfold State.sramPar
  try dsimp only
  repeat' first | intro _ | (with_reducible first | assumption | apply State.incWrap_kept | apply State.raise_kept | apply Kept.foldl | apply Kept.foldl_fst) | (with_reducible refine Kept.mk rfl rfl rfl rfl ?_; with_reducible first | assumption | apply State.incWrap_kept | apply State.raise_kept | apply Kept.foldl | apply Kept.foldl_fst) | split | dsimp only | with_reducible apply Kept.ite

theorem State.crcFail_kept {Q : List Instr} (s : State) (lba : Nat) (h0 : Kept Q s) :
    Kept Q (State.crcFail s lba) := by
  unfold State.crcFail
  try dsimp only
  repeat' first | intro _ | (with_reducible first | assumption | apply State.report_kept | apply State.incWrap_kept | apply State.raise_kept | apply Kept.foldl | apply Kept.foldl_fst) | (with_reducible refine Kept.mk rfl rfl rfl rfl ?_; with_reducible first | assumption | apply State.report_kept | apply State.incWrap_kept | apply State.raise_kept | apply Kept.foldl | apply Kept.foldl_fst) | split | dsimp only | with_reducible apply Kept.ite

end Sys2Proof.Machine
end

