-- ==== Sys2Proof/Laws/KeptAccess.lean ====
section
/-! SUPPORT. Soundness is kept by every operation and meaning of Machine/Access.lean. -/

namespace Sys2Proof.Machine

theorem State.violation_kept {Q : List Instr} (s : State) (r : Requester) (u : UnitId) (cause off v : Nat) (h0 : Kept Q s) :
    Kept Q (State.violation s r u cause off v) := by
  unfold State.violation
  try dsimp only
  repeat' first | intro _ | (with_reducible first | assumption | apply State.refuse_kept | apply State.lockviol_kept | apply Kept.foldl | apply Kept.foldl_fst) | (with_reducible refine Kept.mk rfl rfl rfl rfl ?_; with_reducible first | assumption | apply State.refuse_kept | apply State.lockviol_kept | apply Kept.foldl | apply Kept.foldl_fst) | split | dsimp only [id_eq] | with_reducible apply Kept.ite

theorem State.guard_kept {Q : List Instr} (s : State) (r : Requester) (off n v : Nat) (f : State → State) (h0 : Kept Q s) (h1 : ∀ a0, Kept Q a0 → Kept Q (f a0)) :
    Kept Q (State.guard s r off n v f) := by
  unfold State.guard
  try dsimp only
  repeat' first | intro _ | (with_reducible first | assumption | apply h1 | apply State.violation_kept | apply Kept.foldl | apply Kept.foldl_fst) | (with_reducible refine Kept.mk rfl rfl rfl rfl ?_; with_reducible first | assumption | apply h1 | apply State.violation_kept | apply Kept.foldl | apply Kept.foldl_fst) | split | dsimp only [id_eq] | with_reducible apply Kept.ite

theorem State.guardReg_kept {Q : List Instr} (s : State) (r : Requester) (u : UnitId) (o v : Nat) (f : State → State) (h0 : Kept Q s) (h1 : ∀ a0, Kept Q a0 → Kept Q (f a0)) :
    Kept Q (State.guardReg s r u o v f) := by
  unfold State.guardReg
  try dsimp only
  repeat' first | intro _ | (with_reducible first | assumption | apply h1 | apply State.violation_kept | apply Kept.foldl | apply Kept.foldl_fst) | (with_reducible refine Kept.mk rfl rfl rfl rfl ?_; with_reducible first | assumption | apply h1 | apply State.violation_kept | apply Kept.foldl | apply Kept.foldl_fst) | split | dsimp only [id_eq] | with_reducible apply Kept.ite

theorem State.storeField_kept {Q : List Instr} (s : State) (u : UnitId) (v : Nat) (f : Field) (h0 : Kept Q s) :
    Kept Q (State.storeField s u v f) := by
  unfold State.storeField
  try dsimp only
  repeat' first | intro _ | (with_reducible first | assumption | apply State.wr_kept | apply Kept.foldl | apply Kept.foldl_fst) | (with_reducible refine Kept.mk rfl rfl rfl rfl ?_; with_reducible first | assumption | apply State.wr_kept | apply Kept.foldl | apply Kept.foldl_fst) | split | dsimp only [id_eq] | with_reducible apply Kept.ite

theorem State.storeReg_kept {Q : List Instr} (s : State) (u : UnitId) (o v : Nat) (h0 : Kept Q s) :
    Kept Q (State.storeReg s u o v) := by
  unfold State.storeReg
  try dsimp only
  repeat' first | intro _ | (with_reducible first | assumption | apply State.storeField_kept | apply Kept.foldl | apply Kept.foldl_fst) | (with_reducible refine Kept.mk rfl rfl rfl rfl ?_; with_reducible first | assumption | apply State.storeField_kept | apply Kept.foldl | apply Kept.foldl_fst) | split | dsimp only [id_eq] | with_reducible apply Kept.ite

end Sys2Proof.Machine
end

