-- ==== Sys2Proof/Laws/KeptHost.lean ====
section
/-! SUPPORT. Soundness is kept by every operation and meaning of Machine/Host.lean. -/

namespace Sys2Proof.Machine

theorem State.setCmd_kept {Q : List Instr} (s : State) (slot : Nat) (c : Option HCmd) (h0 : Kept Q s) :
    Kept Q (State.setCmd s slot c) := by
  unfold State.setCmd
  try dsimp only
  repeat' first | intro _ | (with_reducible first | assumption | apply Kept.foldl | apply Kept.foldl_fst) | (with_reducible refine Kept.mk rfl rfl rfl rfl ?_; with_reducible first | assumption | apply Kept.foldl | apply Kept.foldl_fst) | split | dsimp only | with_reducible apply Kept.ite

theorem State.setWaiting_kept {Q : List Instr} (s : State) (q : Nat) (l : List Nat) (h0 : Kept Q s) :
    Kept Q (State.setWaiting s q l) := by
  unfold State.setWaiting
  try dsimp only
  repeat' first | intro _ | (with_reducible first | assumption | apply Kept.foldl | apply Kept.foldl_fst) | (with_reducible refine Kept.mk rfl rfl rfl rfl ?_; with_reducible first | assumption | apply Kept.foldl | apply Kept.foldl_fst) | split | dsimp only | with_reducible apply Kept.ite

theorem State.enqueue_kept {Q : List Instr} (s : State) (slot : Nat) (h0 : Kept Q s) :
    Kept Q (State.enqueue s slot) := by
  unfold State.enqueue
  try dsimp only
  repeat' first | intro _ | (with_reducible first | assumption | apply State.setCmd_kept | apply State.setWaiting_kept | apply State.raise_kept | apply Kept.foldl | apply Kept.foldl_fst) | (with_reducible refine Kept.mk rfl rfl rfl rfl ?_; with_reducible first | assumption | apply State.setCmd_kept | apply State.setWaiting_kept | apply State.raise_kept | apply Kept.foldl | apply Kept.foldl_fst) | split | dsimp only | with_reducible apply Kept.ite

theorem State.giveRec_kept {Q : List Instr} (s : State) (r : CRec) (h0 : Kept Q s) :
    Kept Q (State.giveRec s r) := by
  unfold State.giveRec
  try dsimp only
  repeat' first | intro _ | (with_reducible first | assumption | apply State.setCmd_kept | apply State.report_kept | apply State.raise_kept | apply Kept.foldl | apply Kept.foldl_fst) | (with_reducible refine Kept.mk rfl rfl rfl rfl ?_; with_reducible first | assumption | apply State.setCmd_kept | apply State.report_kept | apply State.raise_kept | apply Kept.foldl | apply Kept.foldl_fst) | split | dsimp only | with_reducible apply Kept.ite

theorem State.setGate_kept {Q : List Instr} (s : State) (slot : Nat) (g : Option (List Nat × Option Stat × Option CRec)) (h0 : Kept Q s) :
    Kept Q (State.setGate s slot g) := by
  unfold State.setGate
  try dsimp only
  repeat' first | intro _ | (with_reducible first | assumption | apply Kept.foldl | apply Kept.foldl_fst) | (with_reducible refine Kept.mk rfl rfl rfl rfl ?_; with_reducible first | assumption | apply Kept.foldl | apply Kept.foldl_fst) | split | dsimp only | with_reducible apply Kept.ite

theorem State.finish_kept {Q : List Instr} (s : State) (slot : Nat) (x : Stat) (dw0 : Nat) (dw1 : Nat) (info : Option Nat) (data : List Byte) (h0 : Kept Q s) :
    Kept Q (State.finish s slot x dw0 dw1 info data) := by
  unfold State.finish
  try dsimp only
  repeat' first | intro _ | (with_reducible first | assumption | apply State.giveRec_kept | apply State.setGate_kept | apply Kept.foldl | apply Kept.foldl_fst) | (with_reducible refine Kept.mk rfl rfl rfl rfl ?_; with_reducible first | assumption | apply State.giveRec_kept | apply State.setGate_kept | apply Kept.foldl | apply Kept.foldl_fst) | split | dsimp only | with_reducible apply Kept.ite

theorem State.answerGate_kept {Q : List Instr} (s : State) (slot dev : Nat) (x : Stat) (h0 : Kept Q s) :
    Kept Q (State.answerGate s slot dev x) := by
  unfold State.answerGate
  try dsimp only
  repeat' first | intro _ | (with_reducible first | assumption | apply State.setGate_kept | apply State.giveRec_kept | apply Kept.foldl | apply Kept.foldl_fst) | (with_reducible refine Kept.mk rfl rfl rfl rfl ?_; with_reducible first | assumption | apply State.setGate_kept | apply State.giveRec_kept | apply Kept.foldl | apply Kept.foldl_fst) | split | dsimp only | with_reducible apply Kept.ite

theorem State.addOp_kept {Q : List Instr} (s : State) (slot : Nat) (k : OpKind) (h0 : Kept Q s) :
    Kept Q (State.addOp s slot k) := by
  unfold State.addOp
  try dsimp only
  repeat' first | intro _ | (with_reducible first | assumption | apply Kept.foldl | apply Kept.foldl_fst) | (with_reducible refine Kept.mk rfl rfl rfl rfl ?_; with_reducible first | assumption | apply Kept.foldl | apply Kept.foldl_fst) | split | dsimp only | with_reducible apply Kept.ite

theorem State.dropOp_kept {Q : List Instr} (s : State) (id : Nat) (h0 : Kept Q s) :
    Kept Q (State.dropOp s id) := by
  unfold State.dropOp
  try dsimp only
  repeat' first | intro _ | (with_reducible first | assumption | apply Kept.foldl | apply Kept.foldl_fst) | (with_reducible refine Kept.mk rfl rfl rfl rfl ?_; with_reducible first | assumption | apply Kept.foldl | apply Kept.foldl_fst) | split | dsimp only | with_reducible apply Kept.ite

theorem State.setOp_kept {Q : List Instr} (s : State) (id : Nat) (k : OpKind) (h0 : Kept Q s) :
    Kept Q (State.setOp s id k) := by
  unfold State.setOp
  try dsimp only
  repeat' first | intro _ | (with_reducible first | assumption | apply Kept.foldl | apply Kept.foldl_fst) | (with_reducible refine Kept.mk rfl rfl rfl rfl ?_; with_reducible first | assumption | apply Kept.foldl | apply Kept.foldl_fst) | split | dsimp only | with_reducible apply Kept.ite

theorem State.endOp_kept {Q : List Instr} (s : State) (o : Op) (x : Stat) (dw0 : Nat) (dw1 : Nat) (info : Option Nat) (data : List Byte) (h0 : Kept Q s) :
    Kept Q (State.endOp s o x dw0 dw1 info data) := by
  unfold State.endOp
  try dsimp only
  repeat' first | intro _ | (with_reducible first | assumption | apply State.dropOp_kept | apply State.finish_kept | apply Kept.foldl | apply Kept.foldl_fst) | (with_reducible refine Kept.mk rfl rfl rfl rfl ?_; with_reducible first | assumption | apply State.dropOp_kept | apply State.finish_kept | apply Kept.foldl | apply Kept.foldl_fst) | split | dsimp only | with_reducible apply Kept.ite

theorem State.asyncEvent_kept {Q : List Instr} (s : State) (ty info log : Nat) (h0 : Kept Q s) :
    Kept Q (State.asyncEvent s ty info log) := by
  unfold State.asyncEvent
  try dsimp only
  repeat' first | intro _ | (with_reducible first | assumption | apply State.finish_kept | apply Kept.foldl | apply Kept.foldl_fst) | (with_reducible refine Kept.mk rfl rfl rfl rfl ?_; with_reducible first | assumption | apply State.finish_kept | apply Kept.foldl | apply Kept.foldl_fst) | split | dsimp only | with_reducible apply Kept.ite

theorem State.vendorEvent_kept {Q : List Instr} (s : State) (info : Nat) (h0 : Kept Q s) :
    Kept Q (State.vendorEvent s info) := by
  unfold State.vendorEvent
  try dsimp only
  repeat' first | intro _ | (with_reducible first | assumption | apply State.asyncEvent_kept | apply Kept.foldl | apply Kept.foldl_fst) | (with_reducible refine Kept.mk rfl rfl rfl rfl ?_; with_reducible first | assumption | apply State.asyncEvent_kept | apply Kept.foldl | apply Kept.foldl_fst) | split | dsimp only | with_reducible apply Kept.ite

theorem State.attention_kept {Q : List Instr} (s : State) (asc : Nat) (p : Nexus → Bool) (h0 : Kept Q s) :
    Kept Q (State.attention s asc p) := by
  unfold State.attention
  try dsimp only
  repeat' first | intro _ | (with_reducible first | assumption | apply Kept.foldl | apply Kept.foldl_fst) | (with_reducible refine Kept.mk rfl rfl rfl rfl ?_; with_reducible first | assumption | apply Kept.foldl | apply Kept.foldl_fst) | split | dsimp only | with_reducible apply Kept.ite

theorem State.useUnits_kept {Q : List Instr} (s : State) (a n : Nat) (b : Bool) (h0 : Kept Q s) :
    Kept Q (State.useUnits s a n b) := by
  unfold State.useUnits
  try dsimp only
  repeat' first | intro _ | (with_reducible first | assumption | apply Kept.foldl | apply Kept.foldl_fst) | (with_reducible refine Kept.mk rfl rfl rfl rfl ?_; with_reducible first | assumption | apply Kept.foldl | apply Kept.foldl_fst) | split | dsimp only | with_reducible apply Kept.ite

theorem State.landPage_kept {Q : List Instr} (s : State) (a page : Nat) (h0 : Kept Q s) :
    Kept Q (State.landPage s a page) := by
  unfold State.landPage
  try dsimp only
  repeat' first | intro _ | (with_reducible first | assumption | apply State.engineStore_kept | apply Kept.foldl | apply Kept.foldl_fst) | (with_reducible refine Kept.mk rfl rfl rfl rfl ?_; with_reducible first | assumption | apply State.engineStore_kept | apply Kept.foldl | apply Kept.foldl_fst) | split | dsimp only | with_reducible apply Kept.ite

theorem State.landPages_kept {Q : List Instr} (s : State) (a : Nat) (x0 : List Nat) (h0 : Kept Q s) :
    Kept Q (State.landPages s a x0) := by
  induction x0 generalizing s a with
  | nil =>
    unfold State.landPages
    try dsimp only
    repeat' first | intro _ | (with_reducible first | assumption | apply State.landPage_kept | apply Kept.foldl | apply Kept.foldl_fst) | (with_reducible refine Kept.mk rfl rfl rfl rfl ?_; with_reducible first | assumption | apply State.landPage_kept | apply Kept.foldl | apply Kept.foldl_fst) | split | dsimp only | with_reducible apply Kept.ite
  | cons b bs ih =>
    unfold State.landPages
    try dsimp only
    repeat' first | intro _ | (with_reducible first | apply ih | assumption | apply State.landPage_kept | apply Kept.foldl | apply Kept.foldl_fst) | (with_reducible refine Kept.mk rfl rfl rfl rfl ?_; with_reducible first | assumption | apply State.landPage_kept | apply Kept.foldl | apply Kept.foldl_fst) | split | dsimp only | with_reducible apply Kept.ite

theorem State.releaseUnit_kept {Q : List Instr} (s : State) (a : Nat) (h0 : Kept Q s) :
    Kept Q (State.releaseUnit s a) := by
  unfold State.releaseUnit
  try dsimp only
  repeat' first | intro _ | (with_reducible first | assumption | apply State.engineStore_kept | apply State.useUnits_kept | apply Kept.foldl | apply Kept.foldl_fst) | (with_reducible refine Kept.mk rfl rfl rfl rfl ?_; with_reducible first | assumption | apply State.engineStore_kept | apply State.useUnits_kept | apply Kept.foldl | apply Kept.foldl_fst) | split | dsimp only | with_reducible apply Kept.ite

end Sys2Proof.Machine
end

