-- ==== Sys2Proof/Laws/KeptGroup.lean ====
section
/-! SUPPORT. Soundness is kept by every operation and meaning of Machine/Group.lean. -/

namespace Sys2Proof.Machine

theorem State.postCoord_kept {Q : List Instr} (s : State) (dst : Nat) (c : Coord) (h0 : Kept Q s) :
    Kept Q (State.postCoord s dst c) := by
  unfold State.postCoord
  try dsimp only
  repeat' first | intro _ | (with_reducible first | assumption | apply Kept.foldl | apply Kept.foldl_fst) | (with_reducible refine Kept.mk rfl rfl rfl rfl ?_; with_reducible first | assumption | apply Kept.foldl | apply Kept.foldl_fst) | split | dsimp only | with_reducible apply Kept.ite

theorem State.mirror_kept {Q : List Instr} (s : State) (words : List Nat) (c : Option Coord) (h0 : Kept Q s) :
    Kept Q (State.mirror s words c) := by
  unfold State.mirror
  try dsimp only
  repeat' first | intro _ | (with_reducible first | assumption | apply Kept.foldl | apply Kept.foldl_fst) | (with_reducible refine Kept.mk rfl rfl rfl rfl ?_; with_reducible first | assumption | apply Kept.foldl | apply Kept.foldl_fst) | split | dsimp only | with_reducible apply Kept.ite

theorem State.tellPeer_kept {Q : List Instr} (s : State) (c : Coord) (h0 : Kept Q s) :
    Kept Q (State.tellPeer s c) := by
  unfold State.tellPeer
  try dsimp only
  repeat' first | intro _ | (with_reducible first | assumption | apply State.mirror_kept | apply Kept.foldl | apply Kept.foldl_fst) | (with_reducible refine Kept.mk rfl rfl rfl rfl ?_; with_reducible first | assumption | apply State.mirror_kept | apply Kept.foldl | apply Kept.foldl_fst) | split | dsimp only | with_reducible apply Kept.ite

theorem State.tellGroup_kept {Q : List Instr} (s : State) (c : Coord) (h0 : Kept Q s) :
    Kept Q (State.tellGroup s c) := by
  unfold State.tellGroup
  try dsimp only
  repeat' first | intro _ | (with_reducible first | assumption | apply State.postCoord_kept | apply Kept.foldl | apply Kept.foldl_fst) | (with_reducible refine Kept.mk rfl rfl rfl rfl ?_; with_reducible first | assumption | apply State.postCoord_kept | apply Kept.foldl | apply Kept.foldl_fst) | split | dsimp only | with_reducible apply Kept.ite

theorem State.awaitOthers_kept {Q : List Instr} (s : State) (slot : Nat) (peer : Bool) (h0 : Kept Q s) :
    Kept Q (State.awaitOthers s slot peer) := by
  unfold State.awaitOthers
  try dsimp only
  repeat' first | intro _ | (with_reducible first | assumption | apply State.setGate_kept | apply Kept.foldl | apply Kept.foldl_fst) | (with_reducible refine Kept.mk rfl rfl rfl rfl ?_; with_reducible first | assumption | apply State.setGate_kept | apply Kept.foldl | apply Kept.foldl_fst) | split | dsimp only | with_reducible apply Kept.ite

theorem State.nextRecorder_kept {Q : List Instr} (s : State) (h0 : Kept Q s) :
    Kept Q (State.nextRecorder s) := by
  unfold State.nextRecorder
  try dsimp only
  repeat' first | intro _ | (with_reducible first | assumption | apply State.postCoord_kept | apply State.vendorEvent_kept | apply Kept.foldl | apply Kept.foldl_fst) | (with_reducible refine Kept.mk rfl rfl rfl rfl ?_; with_reducible first | assumption | apply State.postCoord_kept | apply State.vendorEvent_kept | apply Kept.foldl | apply Kept.foldl_fst) | split | dsimp only | with_reducible apply Kept.ite

theorem State.passRecording_kept {Q : List Instr} (s : State) (h0 : Kept Q s) :
    Kept Q (State.passRecording s) := by
  unfold State.passRecording
  try dsimp only
  repeat' first | intro _ | (with_reducible first | assumption | apply State.nextRecorder_kept | apply State.postCoord_kept | apply Kept.foldl | apply Kept.foldl_fst) | (with_reducible refine Kept.mk rfl rfl rfl rfl ?_; with_reducible first | assumption | apply State.nextRecorder_kept | apply State.postCoord_kept | apply Kept.foldl | apply Kept.foldl_fst) | split | dsimp only | with_reducible apply Kept.ite

theorem State.answer_kept {Q : List Instr} (s : State) (dev id : Nat) (x : Stat) (h0 : Kept Q s) :
    Kept Q (State.answer s dev id x) := by
  unfold State.answer
  try dsimp only
  repeat' first | intro _ | (with_reducible first | assumption | apply State.mirror_kept | apply State.postCoord_kept | apply Kept.foldl | apply Kept.foldl_fst) | (with_reducible refine Kept.mk rfl rfl rfl rfl ?_; with_reducible first | assumption | apply State.mirror_kept | apply State.postCoord_kept | apply Kept.foldl | apply Kept.foldl_fst) | split | dsimp only | with_reducible apply Kept.ite

theorem State.answerFlush_kept {Q : List Instr} (s : State) (flush : Nat) (x : Stat) (h0 : Kept Q s) :
    Kept Q (State.answerFlush s flush x) := by
  unfold State.answerFlush
  try dsimp only
  repeat' first | intro _ | (with_reducible first | assumption | apply State.answer_kept | apply Kept.foldl | apply Kept.foldl_fst) | (with_reducible refine Kept.mk rfl rfl rfl rfl ?_; with_reducible first | assumption | apply State.answer_kept | apply Kept.foldl | apply Kept.foldl_fst) | split | dsimp only | with_reducible apply Kept.ite

end Sys2Proof.Machine
end

