-- ==== Sys2Proof/Laws/KeptPlacement.lean ====
section
/-! SUPPORT. Soundness is kept by every operation and meaning of Machine/Placement.lean. -/

namespace Sys2Proof.Machine

theorem State.setPos_kept {Q : List Instr} (s : State) (T : Nat) (p : Pos) (h0 : Kept Q s) :
    Kept Q (State.setPos s T p) := by
  unfold State.setPos
  try dsimp only
  repeat' first | intro _ | (with_reducible first | assumption | apply Kept.foldl | apply Kept.foldl_fst) | (with_reducible refine Kept.mk rfl rfl rfl rfl ?_; with_reducible first | assumption | apply Kept.foldl | apply Kept.foldl_fst) | split | dsimp only | with_reducible apply Kept.ite

theorem State.setZone_kept {Q : List Instr} (s : State) (nsid j : Nat) (z : ZoneSt) (h0 : Kept Q s) :
    Kept Q (State.setZone s nsid j z) := by
  unfold State.setZone
  try dsimp only
  repeat' first | intro _ | (with_reducible first | assumption | apply Kept.foldl | apply Kept.foldl_fst) | (with_reducible refine Kept.mk rfl rfl rfl rfl ?_; with_reducible first | assumption | apply Kept.foldl | apply Kept.foldl_fst) | split | dsimp only | with_reducible apply Kept.ite

theorem State.setPool_kept {Q : List Instr} (s : State) (nsid : Nat) (e : NsEnt) (h0 : Kept Q s) :
    Kept Q (State.setPool s nsid e) := by
  unfold State.setPool
  try dsimp only
  repeat' first | intro _ | (with_reducible first | assumption | apply Kept.foldl | apply Kept.foldl_fst) | (with_reducible refine Kept.mk rfl rfl rfl rfl ?_; with_reducible first | assumption | apply Kept.foldl | apply Kept.foldl_fst) | split | dsimp only | with_reducible apply Kept.ite

theorem State.zoneReadOnly_kept {Q : List Instr} (s : State) (nsid j : Nat) (h0 : Kept Q s) :
    Kept Q (State.zoneReadOnly s nsid j) := by
  unfold State.zoneReadOnly
  try dsimp only
  repeat' first | intro _ | (with_reducible first | assumption | apply State.setZone_kept | apply State.asyncEvent_kept | apply Kept.foldl | apply Kept.foldl_fst) | (with_reducible refine Kept.mk rfl rfl rfl rfl ?_; with_reducible first | assumption | apply State.setZone_kept | apply State.asyncEvent_kept | apply Kept.foldl | apply Kept.foldl_fst) | split | dsimp only | with_reducible apply Kept.ite

theorem State.setZent_kept {Q : List Instr} (s : State) (e : Nat) (z : ZEnt) (h0 : Kept Q s) :
    Kept Q (State.setZent s e z) := by
  unfold State.setZent
  try dsimp only
  repeat' first | intro _ | (with_reducible first | assumption | apply Kept.foldl | apply Kept.foldl_fst) | (with_reducible refine Kept.mk rfl rfl rfl rfl ?_; with_reducible first | assumption | apply Kept.foldl | apply Kept.foldl_fst) | split | dsimp only | with_reducible apply Kept.ite

theorem State.closeEntry_kept {Q : List Instr} (s : State) (e : Nat) (h0 : Kept Q s) :
    Kept Q (State.closeEntry s e) := by
  unfold State.closeEntry
  try dsimp only
  repeat' first | intro _ | (with_reducible first | assumption | apply State.setZent_kept | apply State.zoneReadOnly_kept | apply Kept.foldl | apply Kept.foldl_fst) | (with_reducible refine Kept.mk rfl rfl rfl rfl ?_; with_reducible first | assumption | apply State.setZent_kept | apply State.zoneReadOnly_kept | apply Kept.foldl | apply Kept.foldl_fst) | split | dsimp only | with_reducible apply Kept.ite

theorem State.setCapacity_kept {Q : List Instr} (s : State) (h0 : Kept Q s) :
    Kept Q (State.setCapacity s) := by
  unfold State.setCapacity
  try dsimp only
  repeat' first | intro _ | (with_reducible first | assumption | apply State.closeEntry_kept | apply State.setFlag_kept | apply State.raise_kept | apply State.passRecording_kept | apply Kept.foldl | apply Kept.foldl_fst) | (with_reducible refine Kept.mk rfl rfl rfl rfl ?_; with_reducible first | assumption | apply State.closeEntry_kept | apply State.setFlag_kept | apply State.raise_kept | apply State.passRecording_kept | apply Kept.foldl | apply Kept.foldl_fst) | split | dsimp only | with_reducible apply Kept.ite

theorem State.mapPut_kept {Q : List Instr} (s : State) (nsid lba slot : Nat) (h0 : Kept Q s) :
    Kept Q (State.mapPut s nsid lba slot) := by
  unfold State.mapPut
  try dsimp only
  repeat' first | intro _ | (with_reducible first | assumption | apply State.setCapacity_kept | apply Kept.foldl | apply Kept.foldl_fst) | (with_reducible refine Kept.mk rfl rfl rfl rfl ?_; with_reducible first | assumption | apply State.setCapacity_kept | apply Kept.foldl | apply Kept.foldl_fst) | split | dsimp only | with_reducible apply Kept.ite

theorem State.setHw_kept {Q : List Instr} (s : State) (e v : Nat) (h0 : Kept Q s) :
    Kept Q (State.setHw s e v) := by
  unfold State.setHw
  try dsimp only
  repeat' first | intro _ | (with_reducible first | assumption | apply Kept.foldl | apply Kept.foldl_fst) | (with_reducible refine Kept.mk rfl rfl rfl rfl ?_; with_reducible first | assumption | apply Kept.foldl | apply Kept.foldl_fst) | split | dsimp only | with_reducible apply Kept.ite

theorem State.noteSpare_kept {Q : List Instr} (s t : State) (h0 : Kept Q s) (h1 : Kept Q t) :
    Kept Q (State.noteSpare s t) := by
  unfold State.noteSpare
  try dsimp only
  repeat' first | intro _ | (with_reducible first | assumption | apply State.asyncEvent_kept | apply Kept.foldl | apply Kept.foldl_fst) | (with_reducible refine Kept.mk rfl rfl rfl rfl ?_; with_reducible first | assumption | apply State.asyncEvent_kept | apply Kept.foldl | apply Kept.foldl_fst) | split | dsimp only | with_reducible apply Kept.ite

theorem State.postJournal_kept {Q : List Instr} (s : State) (recs : List Nat) (m : Mark) (h0 : Kept Q s) :
    Kept Q (State.postJournal s recs m) := by
  unfold State.postJournal
  try dsimp only
  repeat' first | intro _ | (with_reducible first | assumption | apply Kept.foldl | apply Kept.foldl_fst) | (with_reducible refine Kept.mk rfl rfl rfl rfl ?_; with_reducible first | assumption | apply Kept.foldl | apply Kept.foldl_fst) | split | dsimp only | with_reducible apply Kept.ite

theorem State.flushBacklog_kept {Q : List Instr} (s : State) (h0 : Kept Q s) :
    Kept Q (State.flushBacklog s) := by
  unfold State.flushBacklog
  try dsimp only
  repeat' first | intro _ | (with_reducible first | assumption | apply Kept.foldl | apply Kept.foldl_fst) | (with_reducible refine Kept.mk rfl rfl rfl rfl ?_; with_reducible first | assumption | apply Kept.foldl | apply Kept.foldl_fst) | split | dsimp only | with_reducible apply Kept.ite

theorem State.closeAll_kept {Q : List Instr} (s : State) (h0 : Kept Q s) :
    Kept Q (State.closeAll s) := by
  unfold State.closeAll
  try dsimp only
  repeat' first | intro _ | (with_reducible first | assumption | apply Kept.foldl | apply Kept.foldl_fst) | (with_reducible refine Kept.mk rfl rfl rfl rfl ?_; with_reducible first | assumption | apply Kept.foldl | apply Kept.foldl_fst) | split | dsimp only | with_reducible apply Kept.ite

theorem State.startFlush_kept {Q : List Instr} (s : State) (h0 : Kept Q s) :
    Kept Q (State.startFlush s) := by
  unfold State.startFlush
  try dsimp only
  repeat' first | intro _ | (with_reducible first | assumption | apply State.closeAll_kept | apply State.postJournal_kept | apply Kept.foldl | apply Kept.foldl_fst) | (with_reducible refine Kept.mk rfl rfl rfl rfl ?_; with_reducible first | assumption | apply State.closeAll_kept | apply State.postJournal_kept | apply Kept.foldl | apply Kept.foldl_fst) | split | dsimp only | with_reducible apply Kept.ite

theorem State.psOps_kept {Q : List Instr} (s : State) (h0 : Kept Q s) :
    Kept Q (State.psOps s) := by
  unfold State.psOps
  try dsimp only
  repeat' first | intro _ | (with_reducible first | assumption | apply State.endOp_kept | apply Kept.foldl | apply Kept.foldl_fst) | (with_reducible refine Kept.mk rfl rfl rfl rfl ?_; with_reducible first | assumption | apply State.endOp_kept | apply Kept.foldl | apply Kept.foldl_fst) | split | dsimp only | with_reducible apply Kept.ite

end Sys2Proof.Machine
end

