-- ==== Sys2Proof/Laws/KeptTray.lean ====
section
/-! SUPPORT. Soundness is kept by every operation and meaning of Machine/Tray.lean. -/

namespace Sys2Proof.Machine

theorem State.setTbSeq_kept {Q : List Instr} (s : State) (n : Nat) (h0 : Kept Q s) :
    Kept Q (State.setTbSeq s n) := by
  unfold State.setTbSeq
  try dsimp only
  repeat' first | intro _ | (with_reducible first | assumption | apply State.wr_kept | apply Kept.foldl | apply Kept.foldl_fst) | (with_reducible refine Kept.mk rfl rfl rfl rfl ?_; with_reducible first | assumption | apply State.wr_kept | apply Kept.foldl | apply Kept.foldl_fst) | split | dsimp only | with_reducible apply Kept.ite

theorem State.placeForced_kept {Q : List Instr} (s : State) (T : Nat) (h0 : Kept Q s) :
    Kept Q (State.placeForced s T) := by
  unfold State.placeForced
  try dsimp only
  repeat' first | intro _ | (with_reducible first | assumption | apply State.setFlag_kept | apply State.incSat_kept | apply State.raise_kept | apply State.count_kept | apply State.postJournal_kept | apply Kept.foldl | apply Kept.foldl_fst) | (with_reducible refine Kept.mk rfl rfl rfl rfl ?_; with_reducible first | assumption | apply State.setFlag_kept | apply State.incSat_kept | apply State.raise_kept | apply State.count_kept | apply State.postJournal_kept | apply Kept.foldl | apply Kept.foldl_fst) | split | dsimp only | with_reducible apply Kept.ite

theorem State.fillTray_kept {Q : List Instr} (s : State) (t0 : Tray) (h0 : Kept Q s) :
    Kept Q (State.fillTray s t0) := by
  unfold State.fillTray
  try dsimp only
  repeat' first | intro _ | (with_reducible first | assumption | apply State.admitted_kept | apply Kept.foldl | apply Kept.foldl_fst) | (with_reducible refine Kept.mk rfl rfl rfl rfl ?_; with_reducible first | assumption | apply State.admitted_kept | apply Kept.foldl | apply Kept.foldl_fst) | split | dsimp only | with_reducible apply Kept.ite

theorem State.applyRetiring_kept {Q : List Instr} (s : State) (seq : Nat) (h0 : Kept Q s) :
    Kept Q (State.applyRetiring s seq) := by
  unfold State.applyRetiring
  try dsimp only
  repeat' first | intro _ | (with_reducible first | assumption | apply State.setFlag_kept | apply State.wr_kept | apply State.postJournal_kept | apply Kept.foldl | apply Kept.foldl_fst) | (with_reducible refine Kept.mk rfl rfl rfl rfl ?_; with_reducible first | assumption | apply State.setFlag_kept | apply State.wr_kept | apply State.postJournal_kept | apply Kept.foldl | apply Kept.foldl_fst) | split | dsimp only | with_reducible apply Kept.ite

theorem State.noteSteps_kept {Q : List Instr} (s : State) (h0 : Kept Q s) :
    Kept Q (State.noteSteps s) := by
  unfold State.noteSteps
  try dsimp only
  repeat' first | intro _ | (with_reducible first | assumption | apply State.setFlag_kept | apply Kept.foldl | apply Kept.foldl_fst) | (with_reducible refine Kept.mk rfl rfl rfl rfl ?_; with_reducible first | assumption | apply State.setFlag_kept | apply Kept.foldl | apply Kept.foldl_fst) | split | dsimp only | with_reducible apply Kept.ite

theorem State.sealTray_kept {Q : List Instr} (s : State) (h0 : Kept Q s) :
    Kept Q (State.sealTray s) := by
  unfold State.sealTray
  try dsimp only
  repeat' first | intro _ | (with_reducible first | assumption | apply State.applyRetiring_kept | apply State.fillTray_kept | apply State.wr_kept | apply State.raise_kept | apply State.noteSteps_kept | apply Kept.foldl | apply Kept.foldl_fst) | (with_reducible refine Kept.mk rfl rfl rfl rfl ?_; with_reducible first | assumption | apply State.applyRetiring_kept | apply State.fillTray_kept | apply State.wr_kept | apply State.raise_kept | apply State.noteSteps_kept | apply Kept.foldl | apply Kept.foldl_fst) | split | dsimp only | with_reducible apply Kept.ite

theorem State.advance_kept {Q : List Instr} (s : State) (T : Nat) (h0 : Kept Q s) :
    Kept Q (State.advance s T) := by
  unfold State.advance
  try dsimp only
  repeat' first | intro _ | (with_reducible first | assumption | apply State.wr_kept | apply State.setCapacity_kept | apply Kept.foldl | apply Kept.foldl_fst) | (with_reducible refine Kept.mk rfl rfl rfl rfl ?_; with_reducible first | assumption | apply State.wr_kept | apply State.setCapacity_kept | apply Kept.foldl | apply Kept.foldl_fst) | split | dsimp only | with_reducible apply Kept.ite

theorem State.loseGate_kept {Q : List Instr} (s : State) (b cause : Nat) (h0 : Kept Q s) :
    Kept Q (State.loseGate s b cause) := by
  unfold State.loseGate
  try dsimp only
  repeat' first | intro _ | (with_reducible first | assumption | apply State.wr_kept | apply State.setFlag_kept | apply State.raise_kept | apply State.count_kept | apply Kept.foldl | apply Kept.foldl_fst) | (with_reducible refine Kept.mk rfl rfl rfl rfl ?_; with_reducible first | assumption | apply State.wr_kept | apply State.setFlag_kept | apply State.raise_kept | apply State.count_kept | apply Kept.foldl | apply Kept.foldl_fst) | split | dsimp only | with_reducible apply Kept.ite

theorem State.abandonTray_kept {Q : List Instr} (s : State) (h0 : Kept Q s) :
    Kept Q (State.abandonTray s) := by
  unfold State.abandonTray
  try dsimp only
  repeat' first | intro _ | (with_reducible first | assumption | apply State.raise_kept | apply State.postJournal_kept | apply Kept.foldl | apply Kept.foldl_fst) | (with_reducible refine Kept.mk rfl rfl rfl rfl ?_; with_reducible first | assumption | apply State.raise_kept | apply State.postJournal_kept | apply Kept.foldl | apply Kept.foldl_fst) | split | dsimp only | with_reducible apply Kept.ite

theorem State.countBeams_kept {Q : List Instr} (s : State) (t : Tray) (h0 : Kept Q s) :
    Kept Q (State.countBeams s t) := by
  unfold State.countBeams
  try dsimp only
  repeat' first | intro _ | (with_reducible first | assumption | apply State.count_kept | apply Kept.foldl | apply Kept.foldl_fst) | (with_reducible refine Kept.mk rfl rfl rfl rfl ?_; with_reducible first | assumption | apply State.count_kept | apply Kept.foldl | apply Kept.foldl_fst) | split | dsimp only | with_reducible apply Kept.ite

theorem State.noteWriter_kept {Q : List Instr} (s : State) (seq serial : Nat) (h0 : Kept Q s) :
    Kept Q (State.noteWriter s seq serial) := by
  unfold State.noteWriter
  try dsimp only
  repeat' first | intro _ | (with_reducible first | assumption | apply State.postJournal_kept | apply Kept.foldl | apply Kept.foldl_fst) | (with_reducible refine Kept.mk rfl rfl rfl rfl ?_; with_reducible first | assumption | apply State.postJournal_kept | apply Kept.foldl | apply Kept.foldl_fst) | split | dsimp only | with_reducible apply Kept.ite

theorem State.releaseTrays_kept {Q : List Instr} (s : State) (h0 : Kept Q s) :
    Kept Q (State.releaseTrays s) := by
  unfold State.releaseTrays
  try dsimp only
  repeat' first | intro _ | (with_reducible first | assumption | apply State.releaseUnit_kept | apply Kept.foldl | apply Kept.foldl_fst) | (with_reducible refine Kept.mk rfl rfl rfl rfl ?_; with_reducible first | assumption | apply State.releaseUnit_kept | apply Kept.foldl | apply Kept.foldl_fst) | split | dsimp only | with_reducible apply Kept.ite

theorem State.mapSlots_kept {Q : List Instr} (s : State) (T : Nat) (x0 : Nat) (x1 : List Slot) (x2 : Slot → Bool) (h0 : Kept Q s) :
    Kept Q (State.mapSlots s T x0 x1 x2) := by
  induction x1 generalizing s x0 with
  | nil => unfold State.mapSlots; exact h0
  | cons b bs ih =>
    unfold State.mapSlots
    apply ih
    split
    · exact State.mapPut_kept _ _ _ _ h0
    · exact h0

theorem State.noteOpen_kept {Q : List Instr} (s : State) (w : PCw) (a : Nat) (h0 : Kept Q s) :
    Kept Q (State.noteOpen s w a) := by
  unfold State.noteOpen
  try dsimp only
  repeat' first | intro _ | (with_reducible first | assumption | apply Kept.foldl | apply Kept.foldl_fst) | (with_reducible refine Kept.mk rfl rfl rfl rfl ?_; with_reducible first | assumption | apply Kept.foldl | apply Kept.foldl_fst) | split | dsimp only | with_reducible apply Kept.ite

theorem State.noteSlots_kept {Q : List Instr} (s : State) (T : Nat) (x0 : Nat) (x1 : List Slot) (x2 : Slot → Bool) (h0 : Kept Q s) :
    Kept Q (State.noteSlots s T x0 x1 x2) := by
  induction x1 generalizing s x0 with
  | nil => unfold State.noteSlots; exact h0
  | cons b bs ih =>
    unfold State.noteSlots
    apply ih
    split
    · exact State.noteOpen_kept _ _ _ h0
    · exact h0

theorem State.noteAttempts_kept {Q : List Instr} (s : State) (fails : Nat) (h0 : Kept Q s) :
    Kept Q (State.noteAttempts s fails) := by
  unfold State.noteAttempts
  try dsimp only
  repeat' first | intro _ | (with_reducible first | assumption | apply State.raise_kept | apply Kept.foldl | apply Kept.foldl_fst) | (with_reducible refine Kept.mk rfl rfl rfl rfl ?_; with_reducible first | assumption | apply State.raise_kept | apply Kept.foldl | apply Kept.foldl_fst) | split | dsimp only | with_reducible apply Kept.ite

theorem State.judgeCopy_kept {Q : List Instr} (s : State) (T b : Nat) (ok : Bool) (slots : List Slot) (id : Nat) (h0 : Kept Q s) :
    Kept Q (State.judgeCopy s T b ok slots id) := by
  unfold State.judgeCopy
  try dsimp only
  repeat' first | intro _ | (with_reducible first | assumption | apply State.noteAttempts_kept | apply State.mapSlots_kept | apply State.noteSlots_kept | apply State.wr_kept | apply Kept.foldl | apply Kept.foldl_fst) | (with_reducible refine Kept.mk rfl rfl rfl rfl ?_; with_reducible first | assumption | apply State.noteAttempts_kept | apply State.mapSlots_kept | apply State.noteSlots_kept | apply State.wr_kept | apply Kept.foldl | apply Kept.foldl_fst) | split | dsimp only | with_reducible apply Kept.ite

theorem State.judgeBlock_kept {Q : List Instr} (s : State) (h : Held) (b : Nat) (ok : Bool) (h0 : Kept Q s) :
    Kept Q (State.judgeBlock s h b ok) := by
  unfold State.judgeBlock
  try dsimp only
  repeat' first | intro _ | (with_reducible first | assumption | apply State.judgeCopy_kept | apply State.noteOpen_kept | apply State.mapPut_kept | apply State.releaseTrays_kept | apply Kept.foldl | apply Kept.foldl_fst) | (with_reducible refine Kept.mk rfl rfl rfl rfl ?_; with_reducible first | assumption | apply State.judgeCopy_kept | apply State.noteOpen_kept | apply State.mapPut_kept | apply State.releaseTrays_kept | apply Kept.foldl | apply Kept.foldl_fst) | split | dsimp only | with_reducible apply Kept.ite

theorem State.startCkpt_kept {Q : List Instr} (s : State) (h0 : Kept Q s) :
    Kept Q (State.startCkpt s) := by
  unfold State.startCkpt
  try dsimp only
  repeat' first | intro _ | (with_reducible first | assumption | apply Kept.foldl | apply Kept.foldl_fst) | (with_reducible refine Kept.mk rfl rfl rfl rfl ?_; with_reducible first | assumption | apply Kept.foldl | apply Kept.foldl_fst) | split | dsimp only | with_reducible apply Kept.ite

end Sys2Proof.Machine
end

