-- ==== Sys2Proof/Laws/KeptWrite.lean ====
section
/-! SUPPORT. Soundness is kept by every operation and meaning of Machine/Write.lean. -/

namespace Sys2Proof.Machine

theorem State.opDesc_kept {Q : List Instr} (s : State) (id code taken : Nat) (h0 : Kept Q s) :
    Kept Q (State.opDesc s id code taken) := by
  unfold State.opDesc
  try dsimp only
  repeat' first | intro _ | (with_reducible first | assumption | apply State.count_kept | apply State.setOp_kept | apply State.endOp_kept | apply State.releaseUnit_kept | apply State.setZone_kept | apply Kept.foldl | apply Kept.foldl_fst) | (with_reducible refine Kept.mk rfl rfl rfl rfl ?_; with_reducible first | assumption | apply State.count_kept | apply State.setOp_kept | apply State.endOp_kept | apply State.releaseUnit_kept | apply State.setZone_kept | apply Kept.foldl | apply Kept.foldl_fst) | split | dsimp only | with_reducible apply Kept.ite

theorem State.completeDesc_kept {Q : List Instr} (s : State) (d : Desc) (code stop : Nat) (h0 : Kept Q s) :
    Kept Q (State.completeDesc s d code stop) := by
  unfold State.completeDesc
  try dsimp only
  repeat' first | intro _ | (with_reducible first | assumption | apply State.engineStore_kept | apply State.raise_kept | apply State.opDesc_kept | apply Kept.foldl | apply Kept.foldl_fst) | (with_reducible refine Kept.mk rfl rfl rfl rfl ?_; with_reducible first | assumption | apply State.engineStore_kept | apply State.raise_kept | apply State.opDesc_kept | apply Kept.foldl | apply Kept.foldl_fst) | split | dsimp only | with_reducible apply Kept.ite

theorem State.refuseUnit_kept {Q : List Instr} (s : State) (bit nsid lba : Nat) (h0 : Kept Q s) :
    Kept Q (State.refuseUnit s bit nsid lba) := by
  unfold State.refuseUnit
  try dsimp only
  repeat' first | intro _ | (with_reducible first | assumption | apply State.report_kept | apply State.raise_kept | apply Kept.foldl | apply Kept.foldl_fst) | (with_reducible refine Kept.mk rfl rfl rfl rfl ?_; with_reducible first | assumption | apply State.report_kept | apply State.raise_kept | apply Kept.foldl | apply Kept.foldl_fst) | split | dsimp only | with_reducible apply Kept.ite

theorem State.popData_kept {Q : List Instr} (s : State) (h0 : Kept Q s) :
    Kept Q (State.popData s) := by
  unfold State.popData
  try dsimp only
  repeat' first | intro _ | (with_reducible first | assumption | apply Kept.foldl | apply Kept.foldl_fst) | (with_reducible refine Kept.mk rfl rfl rfl rfl ?_; with_reducible first | assumption | apply Kept.foldl | apply Kept.foldl_fst) | split | dsimp only | with_reducible apply Kept.ite

theorem State.takeUnit_kept {Q : List Instr} (s : State) (d : Desc) (lba src : Nat) (h0 : Kept Q s) :
    Kept Q (State.takeUnit s d lba src) := by
  unfold State.takeUnit
  try dsimp only
  repeat' first | intro _ | (with_reducible first | assumption | apply State.setZent_kept | apply State.setHw_kept | apply State.closeEntry_kept | apply Kept.foldl | apply Kept.foldl_fst) | (with_reducible refine Kept.mk rfl rfl rfl rfl ?_; with_reducible first | assumption | apply State.setZent_kept | apply State.setHw_kept | apply State.closeEntry_kept | apply Kept.foldl | apply Kept.foldl_fst) | split | dsimp only | with_reducible apply Kept.ite

theorem execTrayUnitTake_kept {Q : List Instr} (eccFail : Bool) (s : State) (h0 : Kept Q s) :
    KeptOut Q (execTrayUnitTake eccFail s) := by
  unfold execTrayUnitTake
  try dsimp only
  repeat' first | intro _ | (with_reducible first | assumption | apply live_kept | apply State.popData_kept | apply State.completeDesc_kept | apply State.refuseUnit_kept | apply State.eccFail_kept | apply State.crcFail_kept | apply State.takeUnit_kept | apply State.count_kept | apply Kept.foldl | apply Kept.foldl_fst | apply KeptOut.live | apply KeptOut.next) | (with_reducible refine Kept.mk rfl rfl rfl rfl ?_; with_reducible first | assumption | apply live_kept | apply State.popData_kept | apply State.completeDesc_kept | apply State.refuseUnit_kept | apply State.eccFail_kept | apply State.crcFail_kept | apply State.takeUnit_kept | apply State.count_kept | apply Kept.foldl | apply Kept.foldl_fst) | split | dsimp only | with_reducible apply Kept.ite

theorem State.setPageHead_kept {Q : List Instr} (s : State) (journal : Bool) (d : Option Desc) (h0 : Kept Q s) :
    Kept Q (State.setPageHead s journal d) := by
  unfold State.setPageHead
  try dsimp only
  repeat' first | intro _ | (with_reducible first | assumption | apply Kept.foldl | apply Kept.foldl_fst) | (with_reducible refine Kept.mk rfl rfl rfl rfl ?_; with_reducible first | assumption | apply Kept.foldl | apply Kept.foldl_fst) | split | dsimp only | with_reducible apply Kept.ite

theorem execTrayPageTake_kept {Q : List Instr} (journal eccFail : Bool) (s : State) (h0 : Kept Q s) :
    KeptOut Q (execTrayPageTake journal eccFail s) := by
  unfold execTrayPageTake
  try dsimp only
  repeat' first | intro _ | (with_reducible first | assumption | apply live_kept | apply State.setPageHead_kept | apply State.completeDesc_kept | apply State.refuseUnit_kept | apply State.eccFail_kept | apply State.crcFail_kept | apply State.count_kept | apply State.flushBacklog_kept | apply Kept.foldl | apply Kept.foldl_fst | apply KeptOut.live | apply KeptOut.next) | (with_reducible refine Kept.mk rfl rfl rfl rfl ?_; with_reducible first | assumption | apply live_kept | apply State.setPageHead_kept | apply State.completeDesc_kept | apply State.refuseUnit_kept | apply State.eccFail_kept | apply State.crcFail_kept | apply State.count_kept | apply State.flushBacklog_kept | apply Kept.foldl | apply Kept.foldl_fst) | split | dsimp only | with_reducible apply Kept.ite

theorem execTraySeal_kept {Q : List Instr} (s : State) (h0 : Kept Q s) :
    KeptOut Q (execTraySeal s) := by
  unfold execTraySeal
  try dsimp only
  repeat' first | intro _ | (with_reducible first | assumption | apply State.placeForced_kept | apply live_kept | apply State.sealTray_kept | apply Kept.foldl | apply Kept.foldl_fst | apply KeptOut.live | apply KeptOut.next) | (with_reducible refine Kept.mk rfl rfl rfl rfl ?_; with_reducible first | assumption | apply State.placeForced_kept | apply live_kept | apply State.sealTray_kept | apply Kept.foldl | apply Kept.foldl_fst) | split | dsimp only | with_reducible apply Kept.ite

theorem execSealTimeout_kept {Q : List Instr} (s : State) (h0 : Kept Q s) :
    KeptOut Q (execSealTimeout s) := by
  unfold execSealTimeout
  try dsimp only
  repeat' first | intro _ | (with_reducible first | assumption | apply live_kept | apply Kept.foldl | apply Kept.foldl_fst | apply KeptOut.live | apply KeptOut.next) | (with_reducible refine Kept.mk rfl rfl rfl rfl ?_; with_reducible first | assumption | apply live_kept | apply Kept.foldl | apply Kept.foldl_fst) | split | dsimp only | with_reducible apply Kept.ite

theorem State.tbCtrl_kept {Q : List Instr} (t : State) (v : Nat) (h0 : Kept Q t) :
    Kept Q (State.tbCtrl t v) := by
  unfold State.tbCtrl
  try dsimp only
  repeat' first | intro _ | (with_reducible first | assumption | apply State.storeReg_kept | apply State.closeAll_kept | apply Kept.foldl | apply Kept.foldl_fst) | (with_reducible refine Kept.mk rfl rfl rfl rfl ?_; with_reducible first | assumption | apply State.storeReg_kept | apply State.closeAll_kept | apply Kept.foldl | apply Kept.foldl_fst) | split | dsimp only | with_reducible apply Kept.ite

theorem execTbctrlSealnow_kept {Q : List Instr} (r : Requester) (v : Word) (s : State) (h0 : Kept Q s) :
    KeptOut Q (execTbctrlSealnow r v s) := by
  unfold execTbctrlSealnow
  try dsimp only
  repeat' first | intro _ | (with_reducible first | assumption | apply live_kept | apply State.guardReg_kept | apply State.tbCtrl_kept | apply Kept.foldl | apply Kept.foldl_fst | apply KeptOut.live | apply KeptOut.next) | (with_reducible refine Kept.mk rfl rfl rfl rfl ?_; with_reducible first | assumption | apply live_kept | apply State.guardReg_kept | apply State.tbCtrl_kept | apply Kept.foldl | apply Kept.foldl_fst) | split | dsimp only | with_reducible apply Kept.ite

theorem execOuterParityDone_kept {Q : List Instr} (seq : Nat) (s : State) (h0 : Kept Q s) :
    KeptOut Q (execOuterParityDone seq s) := by
  unfold execOuterParityDone
  try dsimp only
  repeat' first | intro _ | (with_reducible first | assumption | apply live_kept | apply Kept.foldl | apply Kept.foldl_fst | apply KeptOut.live | apply KeptOut.next) | (with_reducible refine Kept.mk rfl rfl rfl rfl ?_; with_reducible first | assumption | apply live_kept | apply Kept.foldl | apply Kept.foldl_fst) | split | dsimp only | with_reducible apply Kept.ite

theorem execTrayReadinessCheck_kept {Q : List Instr} (s : State) (h0 : Kept Q s) :
    KeptOut Q (execTrayReadinessCheck s) := by
  unfold execTrayReadinessCheck
  try dsimp only
  repeat' first | intro _ | (with_reducible first | assumption | apply live_kept | apply State.noteSteps_kept | apply State.setFlag_kept | apply Kept.foldl | apply Kept.foldl_fst | apply KeptOut.live | apply KeptOut.next) | (with_reducible refine Kept.mk rfl rfl rfl rfl ?_; with_reducible first | assumption | apply live_kept | apply State.noteSteps_kept | apply State.setFlag_kept | apply Kept.foldl | apply Kept.foldl_fst) | split | dsimp only | with_reducible apply Kept.ite

theorem execHeadReadyTimeout_kept {Q : List Instr} (s : State) (h0 : Kept Q s) :
    KeptOut Q (execHeadReadyTimeout s) := by
  unfold execHeadReadyTimeout
  try dsimp only
  repeat' first | intro _ | (with_reducible first | assumption | apply live_kept | apply State.wr_kept | apply Kept.foldl | apply Kept.foldl_fst | apply KeptOut.live | apply KeptOut.next) | (with_reducible refine Kept.mk rfl rfl rfl rfl ?_; with_reducible first | assumption | apply live_kept | apply State.wr_kept | apply Kept.foldl | apply Kept.foldl_fst) | split | dsimp only | with_reducible apply Kept.ite

theorem execTrayWindowWrite_kept {Q : List Instr} (s : State) (h0 : Kept Q s) :
    KeptOut Q (execTrayWindowWrite s) := by
  unfold execTrayWindowWrite
  try dsimp only
  repeat' first | intro _ | (with_reducible first | assumption | apply live_kept | apply State.setFlag_kept | apply State.loseGate_kept | apply State.abandonTray_kept | apply Kept.foldl | apply Kept.foldl_fst | apply KeptOut.live | apply KeptOut.next) | (with_reducible refine Kept.mk rfl rfl rfl rfl ?_; with_reducible first | assumption | apply live_kept | apply State.setFlag_kept | apply State.loseGate_kept | apply State.abandonTray_kept | apply Kept.foldl | apply Kept.foldl_fst) | split | dsimp only | with_reducible apply Kept.ite

theorem State.ckptEvery_kept {Q : List Instr} (s : State) (h0 : Kept Q s) :
    Kept Q (State.ckptEvery s) := by
  unfold State.ckptEvery
  try dsimp only
  repeat' first | intro _ | (with_reducible first | assumption | apply State.startCkpt_kept | apply Kept.foldl | apply Kept.foldl_fst) | (with_reducible refine Kept.mk rfl rfl rfl rfl ?_; with_reducible first | assumption | apply State.startCkpt_kept | apply Kept.foldl | apply Kept.foldl_fst) | split | dsimp only | with_reducible apply Kept.ite

theorem State.endTray_kept {Q : List Instr} (s : State) (w : Writing) (h0 : Kept Q s) :
    Kept Q (State.endTray s w) := by
  unfold State.endTray
  try dsimp only
  repeat' first | intro _ | (with_reducible first | assumption | apply State.setFlag_kept | apply State.setPos_kept | apply State.count_kept | apply State.setTbSeq_kept | apply State.ckptEvery_kept | apply State.countBeams_kept | apply State.incWrap_kept | apply State.noteWriter_kept | apply State.noteSpare_kept | apply State.advance_kept | apply State.noteSteps_kept | apply Kept.foldl | apply Kept.foldl_fst) | (with_reducible refine Kept.mk rfl rfl rfl rfl ?_; with_reducible first | assumption | apply State.setFlag_kept | apply State.setPos_kept | apply State.count_kept | apply State.setTbSeq_kept | apply State.ckptEvery_kept | apply State.countBeams_kept | apply State.incWrap_kept | apply State.noteWriter_kept | apply State.noteSpare_kept | apply State.advance_kept | apply State.noteSteps_kept | apply Kept.foldl | apply Kept.foldl_fst) | split | dsimp only | with_reducible apply Kept.ite

theorem State.shutGate_kept {Q : List Instr} (s : State) (b : Nat) (h0 : Kept Q s) :
    Kept Q (State.shutGate s b) := by
  unfold State.shutGate
  try dsimp only
  repeat' first | intro _ | (with_reducible first | assumption | apply State.endTray_kept | apply Kept.foldl | apply Kept.foldl_fst) | (with_reducible refine Kept.mk rfl rfl rfl rfl ?_; with_reducible first | assumption | apply State.endTray_kept | apply Kept.foldl | apply Kept.foldl_fst) | split | dsimp only | with_reducible apply Kept.ite

theorem execBlockPayloadEnd_kept {Q : List Instr} (b : Fin 48) (s : State) (h0 : Kept Q s) :
    KeptOut Q (execBlockPayloadEnd b s) := by
  unfold execBlockPayloadEnd
  try dsimp only
  repeat' first | intro _ | (with_reducible first | assumption | apply live_kept | apply State.setFlag_kept | apply State.shutGate_kept | apply Kept.foldl | apply Kept.foldl_fst | apply KeptOut.live | apply KeptOut.next) | (with_reducible refine Kept.mk rfl rfl rfl rfl ?_; with_reducible first | assumption | apply live_kept | apply State.setFlag_kept | apply State.shutGate_kept | apply Kept.foldl | apply Kept.foldl_fst) | split | dsimp only | with_reducible apply Kept.ite

theorem State.dropGates_kept {Q : List Instr} (s : State) (bs : List Nat) (cause : Nat) (h0 : Kept Q s) :
    Kept Q (State.dropGates s bs cause) := by
  unfold State.dropGates
  try dsimp only
  repeat' first | intro _ | (with_reducible first | assumption | apply State.loseGate_kept | apply State.abandonTray_kept | apply State.shutGate_kept | apply Kept.foldl | apply Kept.foldl_fst) | (with_reducible refine Kept.mk rfl rfl rfl rfl ?_; with_reducible first | assumption | apply State.loseGate_kept | apply State.abandonTray_kept | apply State.shutGate_kept | apply Kept.foldl | apply Kept.foldl_fst) | split | dsimp only | with_reducible apply Kept.ite

theorem State.dropHeadGates_kept {Q : List Instr} (s : State) (h cause : Nat) (h0 : Kept Q s) :
    Kept Q (State.dropHeadGates s h cause) := by
  unfold State.dropHeadGates
  try dsimp only
  repeat' first | intro _ | (with_reducible first | assumption | apply State.dropGates_kept | apply Kept.foldl | apply Kept.foldl_fst) | (with_reducible refine Kept.mk rfl rfl rfl rfl ?_; with_reducible first | assumption | apply State.dropGates_kept | apply Kept.foldl | apply Kept.foldl_fst) | split | dsimp only | with_reducible apply Kept.ite

theorem execBeamUnderrun_kept {Q : List Instr} (b : Fin 48) (s : State) (h0 : Kept Q s) :
    KeptOut Q (execBeamUnderrun b s) := by
  unfold execBeamUnderrun
  try dsimp only
  repeat' first | intro _ | (with_reducible first | assumption | apply live_kept | apply State.raise_kept | apply State.dropGates_kept | apply Kept.foldl | apply Kept.foldl_fst | apply KeptOut.live | apply KeptOut.next) | (with_reducible refine Kept.mk rfl rfl rfl rfl ?_; with_reducible first | assumption | apply live_kept | apply State.raise_kept | apply State.dropGates_kept | apply Kept.foldl | apply Kept.foldl_fst) | split | dsimp only | with_reducible apply Kept.ite

theorem State.ckptOps_kept {Q : List Instr} (s : State) (n : Nat) (h0 : Kept Q s) :
    Kept Q (State.ckptOps s n) := by
  unfold State.ckptOps
  try dsimp only
  repeat' first | intro _ | (with_reducible first | assumption | apply State.endOp_kept | apply State.take_kept | apply Kept.foldl | apply Kept.foldl_fst) | (with_reducible refine Kept.mk rfl rfl rfl rfl ?_; with_reducible first | assumption | apply State.endOp_kept | apply State.take_kept | apply Kept.foldl | apply Kept.foldl_fst) | split | dsimp only | with_reducible apply Kept.ite

theorem State.ckptValid_kept {Q : List Instr} (s : State) (c : Ckpt) (h0 : Kept Q s) :
    Kept Q (State.ckptValid s c) := by
  unfold State.ckptValid
  try dsimp only
  repeat' first | intro _ | (with_reducible first | assumption | apply State.count_kept | apply State.ckptOps_kept | apply State.postJournal_kept | apply State.startCkpt_kept | apply Kept.foldl | apply Kept.foldl_fst) | (with_reducible refine Kept.mk rfl rfl rfl rfl ?_; with_reducible first | assumption | apply State.count_kept | apply State.ckptOps_kept | apply State.postJournal_kept | apply State.startCkpt_kept | apply Kept.foldl | apply Kept.foldl_fst) | split | dsimp only | with_reducible apply Kept.ite

theorem State.ckptStep_kept {Q : List Instr} (s : State) (h0 : Kept Q s) :
    Kept Q (State.ckptStep s) := by
  unfold State.ckptStep
  try dsimp only
  repeat' first | intro _ | (with_reducible first | assumption | apply State.ckptValid_kept | apply Kept.foldl | apply Kept.foldl_fst) | (with_reducible refine Kept.mk rfl rfl rfl rfl ?_; with_reducible first | assumption | apply State.ckptValid_kept | apply Kept.foldl | apply Kept.foldl_fst) | split | dsimp only | with_reducible apply Kept.ite

theorem State.bakeStep_kept {Q : List Instr} (s : State) (h0 : Kept Q s) :
    Kept Q (State.bakeStep s) := by
  unfold State.bakeStep
  try dsimp only
  repeat' first | intro _ | (with_reducible first | assumption | apply Kept.foldl | apply Kept.foldl_fst) | (with_reducible refine Kept.mk rfl rfl rfl rfl ?_; with_reducible first | assumption | apply Kept.foldl | apply Kept.foldl_fst) | split | dsimp only | with_reducible apply Kept.ite

theorem State.fuaOps_kept {Q : List Instr} (s : State) (h0 : Kept Q s) :
    Kept Q (State.fuaOps s) := by
  unfold State.fuaOps
  try dsimp only
  repeat' first | intro _ | (with_reducible first | assumption | apply State.endOp_kept | apply Kept.foldl | apply Kept.foldl_fst) | (with_reducible refine Kept.mk rfl rfl rfl rfl ?_; with_reducible first | assumption | apply State.endOp_kept | apply Kept.foldl | apply Kept.foldl_fst) | split | dsimp only | with_reducible apply Kept.ite

theorem State.noteSeen_kept {Q : List Instr} (s : State) (b cw : Nat) (seen : Seen) (h0 : Kept Q s) :
    Kept Q (State.noteSeen s b cw seen) := by
  unfold State.noteSeen
  try dsimp only
  repeat' first | intro _ | (with_reducible first | assumption | apply State.wr_kept | apply State.raise_kept | apply State.incWrap_kept | apply State.count_kept | apply Kept.foldl | apply Kept.foldl_fst) | (with_reducible refine Kept.mk rfl rfl rfl rfl ?_; with_reducible first | assumption | apply State.wr_kept | apply State.raise_kept | apply State.incWrap_kept | apply State.count_kept | apply Kept.foldl | apply Kept.foldl_fst) | split | dsimp only | with_reducible apply Kept.ite

theorem execDrawVerdict_kept {Q : List Instr} (pos : Nat) (b : Fin 48) (seen : Seen) (s : State) (h0 : Kept Q s) :
    KeptOut Q (execDrawVerdict pos b seen s) := by
  unfold execDrawVerdict
  try dsimp only
  repeat' first | intro _ | (with_reducible first | assumption | apply State.noteSeen_kept | apply State.wr_kept | apply State.incWrap_kept | apply State.count_kept | apply State.raise_kept | apply live_kept | apply State.judgeBlock_kept | apply State.fuaOps_kept | apply State.ckptStep_kept | apply State.bakeStep_kept | apply Kept.foldl | apply Kept.foldl_fst | apply KeptOut.live | apply KeptOut.next) | (with_reducible refine Kept.mk rfl rfl rfl rfl ?_; with_reducible first | assumption | apply State.noteSeen_kept | apply State.wr_kept | apply State.incWrap_kept | apply State.count_kept | apply State.raise_kept | apply live_kept | apply State.judgeBlock_kept | apply State.fuaOps_kept | apply State.ckptStep_kept | apply State.bakeStep_kept | apply Kept.foldl | apply Kept.foldl_fst) | split | dsimp only | with_reducible apply Kept.ite

theorem execDrawIntervalEnd_kept {Q : List Instr} (b : Fin 48) (s : State) (h0 : Kept Q s) :
    KeptOut Q (execDrawIntervalEnd b s) := by
  unfold execDrawIntervalEnd
  try dsimp only
  repeat' first | intro _ | (with_reducible first | assumption | apply live_kept | apply State.incSat_kept | apply State.setFlag_kept | apply State.raise_kept | apply State.wr_kept | apply Kept.foldl | apply Kept.foldl_fst | apply KeptOut.live | apply KeptOut.next) | (with_reducible refine Kept.mk rfl rfl rfl rfl ?_; with_reducible first | assumption | apply live_kept | apply State.incSat_kept | apply State.setFlag_kept | apply State.raise_kept | apply State.wr_kept | apply Kept.foldl | apply Kept.foldl_fst) | split | dsimp only | with_reducible apply Kept.ite

theorem State.tbZid_kept {Q : List Instr} (t : State) (v : Nat) (h0 : Kept Q t) :
    Kept Q (State.tbZid t v) := by
  unfold State.tbZid
  try dsimp only
  repeat' first | intro _ | (with_reducible first | assumption | apply State.raise_kept | apply State.closeEntry_kept | apply State.setZent_kept | apply Kept.foldl | apply Kept.foldl_fst) | (with_reducible refine Kept.mk rfl rfl rfl rfl ?_; with_reducible first | assumption | apply State.raise_kept | apply State.closeEntry_kept | apply State.setZent_kept | apply Kept.foldl | apply Kept.foldl_fst) | split | dsimp only | with_reducible apply Kept.ite

theorem execTbzidWrite_kept {Q : List Instr} (r : Requester) (v : Word) (s : State) (h0 : Kept Q s) :
    KeptOut Q (execTbzidWrite r v s) := by
  unfold execTbzidWrite
  try dsimp only
  repeat' first | intro _ | (with_reducible first | assumption | apply live_kept | apply State.guardReg_kept | apply State.tbZid_kept | apply Kept.foldl | apply Kept.foldl_fst | apply KeptOut.live | apply KeptOut.next) | (with_reducible refine Kept.mk rfl rfl rfl rfl ?_; with_reducible first | assumption | apply live_kept | apply State.guardReg_kept | apply State.tbZid_kept | apply Kept.foldl | apply Kept.foldl_fst) | split | dsimp only | with_reducible apply Kept.ite

theorem State.tbZwp_kept {Q : List Instr} (t : State) (v : Nat) (h0 : Kept Q t) :
    Kept Q (State.tbZwp t v) := by
  unfold State.tbZwp
  try dsimp only
  repeat' first | intro _ | (with_reducible first | assumption | apply State.raise_kept | apply State.setZent_kept | apply Kept.foldl | apply Kept.foldl_fst) | (with_reducible refine Kept.mk rfl rfl rfl rfl ?_; with_reducible first | assumption | apply State.raise_kept | apply State.setZent_kept | apply Kept.foldl | apply Kept.foldl_fst) | split | dsimp only | with_reducible apply Kept.ite

theorem execTbzwpWrite_kept {Q : List Instr} (r : Requester) (v : Word) (s : State) (h0 : Kept Q s) :
    KeptOut Q (execTbzwpWrite r v s) := by
  unfold execTbzwpWrite
  try dsimp only
  repeat' first | intro _ | (with_reducible first | assumption | apply live_kept | apply State.guardReg_kept | apply State.tbZwp_kept | apply Kept.foldl | apply Kept.foldl_fst | apply KeptOut.live | apply KeptOut.next) | (with_reducible refine Kept.mk rfl rfl rfl rfl ?_; with_reducible first | assumption | apply live_kept | apply State.guardReg_kept | apply State.tbZwp_kept | apply Kept.foldl | apply Kept.foldl_fst) | split | dsimp only | with_reducible apply Kept.ite

theorem State.hwZero_kept {Q : List Instr} (t : State) (h0 : Kept Q t) :
    Kept Q (State.hwZero t) := by
  unfold State.hwZero
  try dsimp only
  repeat' first | intro _ | (with_reducible first | assumption | apply Kept.foldl | apply Kept.foldl_fst) | (with_reducible refine Kept.mk rfl rfl rfl rfl ?_; with_reducible first | assumption | apply Kept.foldl | apply Kept.foldl_fst) | split | dsimp only | with_reducible apply Kept.ite

theorem execTbhwctrlZero_kept {Q : List Instr} (r : Requester) (s : State) (h0 : Kept Q s) :
    KeptOut Q (execTbhwctrlZero r s) := by
  unfold execTbhwctrlZero
  try dsimp only
  repeat' first | intro _ | (with_reducible first | assumption | apply live_kept | apply State.guardReg_kept | apply State.hwZero_kept | apply Kept.foldl | apply Kept.foldl_fst | apply KeptOut.live | apply KeptOut.next) | (with_reducible refine Kept.mk rfl rfl rfl rfl ?_; with_reducible first | assumption | apply live_kept | apply State.guardReg_kept | apply State.hwZero_kept | apply Kept.foldl | apply Kept.foldl_fst) | split | dsimp only | with_reducible apply Kept.ite

theorem execHwZeroDone_kept {Q : List Instr} (s : State) (h0 : Kept Q s) :
    KeptOut Q (execHwZeroDone s) := by
  unfold execHwZeroDone
  try dsimp only
  repeat' first | intro _ | (with_reducible first | assumption | apply State.setHw_kept | apply live_kept | apply State.setFlag_kept | apply Kept.foldl | apply Kept.foldl_fst | apply KeptOut.live | apply KeptOut.next) | (with_reducible refine Kept.mk rfl rfl rfl rfl ?_; with_reducible first | assumption | apply State.setHw_kept | apply live_kept | apply State.setFlag_kept | apply Kept.foldl | apply Kept.foldl_fst) | split | dsimp only | with_reducible apply Kept.ite

theorem State.hwValid_kept {Q : List Instr} (t : State) (h0 : Kept Q t) :
    Kept Q (State.hwValid t) := by
  unfold State.hwValid
  try dsimp only
  repeat' first | intro _ | (with_reducible first | assumption | apply State.setFlag_kept | apply Kept.foldl | apply Kept.foldl_fst) | (with_reducible refine Kept.mk rfl rfl rfl rfl ?_; with_reducible first | assumption | apply State.setFlag_kept | apply Kept.foldl | apply Kept.foldl_fst) | split | dsimp only | with_reducible apply Kept.ite

theorem execTbhwctrlValid_kept {Q : List Instr} (r : Requester) (s : State) (h0 : Kept Q s) :
    KeptOut Q (execTbhwctrlValid r s) := by
  unfold execTbhwctrlValid
  try dsimp only
  repeat' first | intro _ | (with_reducible first | assumption | apply live_kept | apply State.guardReg_kept | apply State.hwValid_kept | apply Kept.foldl | apply Kept.foldl_fst | apply KeptOut.live | apply KeptOut.next) | (with_reducible refine Kept.mk rfl rfl rfl rfl ?_; with_reducible first | assumption | apply live_kept | apply State.guardReg_kept | apply State.hwValid_kept | apply Kept.foldl | apply Kept.foldl_fst) | split | dsimp only | with_reducible apply Kept.ite

theorem State.tbHwData_kept {Q : List Instr} (t : State) (r : Requester) (v : Nat) (h0 : Kept Q t) :
    Kept Q (State.tbHwData t r v) := by
  unfold State.tbHwData
  try dsimp only
  repeat' first | intro _ | (with_reducible first | assumption | apply State.refuse_kept | apply State.raise_kept | apply State.setHw_kept | apply Kept.foldl | apply Kept.foldl_fst) | (with_reducible refine Kept.mk rfl rfl rfl rfl ?_; with_reducible first | assumption | apply State.refuse_kept | apply State.raise_kept | apply State.setHw_kept | apply Kept.foldl | apply Kept.foldl_fst) | split | dsimp only | with_reducible apply Kept.ite

theorem execTbhwdataWrite_kept {Q : List Instr} (r : Requester) (v : Word) (s : State) (h0 : Kept Q s) :
    KeptOut Q (execTbhwdataWrite r v s) := by
  unfold execTbhwdataWrite
  try dsimp only
  repeat' first | intro _ | (with_reducible first | assumption | apply live_kept | apply State.guardReg_kept | apply State.tbHwData_kept | apply Kept.foldl | apply Kept.foldl_fst | apply KeptOut.live | apply KeptOut.next) | (with_reducible refine Kept.mk rfl rfl rfl rfl ?_; with_reducible first | assumption | apply live_kept | apply State.guardReg_kept | apply State.tbHwData_kept | apply Kept.foldl | apply Kept.foldl_fst) | split | dsimp only | with_reducible apply Kept.ite

theorem State.useParams_kept {Q : List Instr} (s : State) (p : Tbl Nat) (h0 : Kept Q s) :
    Kept Q (State.useParams s p) := by
  unfold State.useParams
  try dsimp only
  repeat' first | intro _ | (with_reducible first | assumption | apply State.wr_kept | apply State.setFlag_kept | apply Kept.foldl | apply Kept.foldl_fst) | (with_reducible refine Kept.mk rfl rfl rfl rfl ?_; with_reducible first | assumption | apply State.wr_kept | apply State.setFlag_kept | apply Kept.foldl | apply Kept.foldl_fst) | split | dsimp only | with_reducible apply Kept.ite

theorem State.paramsDue_kept {Q : List Instr} (s : State) (h0 : Kept Q s) :
    Kept Q (State.paramsDue s) := by
  unfold State.paramsDue
  try dsimp only
  repeat' first | intro _ | (with_reducible first | assumption | apply State.useParams_kept | apply Kept.foldl | apply Kept.foldl_fst) | (with_reducible refine Kept.mk rfl rfl rfl rfl ?_; with_reducible first | assumption | apply State.useParams_kept | apply Kept.foldl | apply Kept.foldl_fst) | split | dsimp only | with_reducible apply Kept.ite

theorem State.endFlush_kept {Q : List Instr} (s : State) (f : FlushSt) (h0 : Kept Q s) :
    Kept Q (State.endFlush s f) := by
  unfold State.endFlush
  try dsimp only
  repeat' first | intro _ | (with_reducible first | assumption | apply State.count_kept | apply State.answerFlush_kept | apply State.endOp_kept | apply State.paramsDue_kept | apply State.startCkpt_kept | apply Kept.foldl | apply Kept.foldl_fst) | (with_reducible refine Kept.mk rfl rfl rfl rfl ?_; with_reducible first | assumption | apply State.count_kept | apply State.answerFlush_kept | apply State.endOp_kept | apply State.paramsDue_kept | apply State.startCkpt_kept | apply Kept.foldl | apply Kept.foldl_fst) | split | dsimp only | with_reducible apply Kept.ite

theorem execFlushComplete_kept {Q : List Instr} (s : State) (h0 : Kept Q s) :
    KeptOut Q (execFlushComplete s) := by
  unfold execFlushComplete
  try dsimp only
  repeat' first | intro _ | (with_reducible first | assumption | apply live_kept | apply State.endFlush_kept | apply Kept.foldl | apply Kept.foldl_fst | apply KeptOut.live | apply KeptOut.next) | (with_reducible refine Kept.mk rfl rfl rfl rfl ?_; with_reducible first | assumption | apply live_kept | apply State.endFlush_kept | apply Kept.foldl | apply Kept.foldl_fst) | split | dsimp only | with_reducible apply Kept.ite

theorem State.retireBeam_kept {Q : List Instr} (s : State) (b : Nat) (h0 : Kept Q s) :
    Kept Q (State.retireBeam s b) := by
  unfold State.retireBeam
  try dsimp only
  repeat' first | intro _ | (with_reducible first | assumption | apply State.setFlag_kept | apply State.raise_kept | apply Kept.foldl | apply Kept.foldl_fst) | (with_reducible refine Kept.mk rfl rfl rfl rfl ?_; with_reducible first | assumption | apply State.setFlag_kept | apply State.raise_kept | apply Kept.foldl | apply Kept.foldl_fst) | split | dsimp only | with_reducible apply Kept.ite

theorem execBwctrlRetire_kept {Q : List Instr} (r : Requester) (b : Fin 48) (s : State) (h0 : Kept Q s) :
    KeptOut Q (execBwctrlRetire r b s) := by
  unfold execBwctrlRetire
  try dsimp only
  repeat' first | intro _ | (with_reducible first | assumption | apply live_kept | apply State.guardReg_kept | apply State.retireBeam_kept | apply Kept.foldl | apply Kept.foldl_fst | apply KeptOut.live | apply KeptOut.next) | (with_reducible refine Kept.mk rfl rfl rfl rfl ?_; with_reducible first | assumption | apply live_kept | apply State.guardReg_kept | apply State.retireBeam_kept | apply Kept.foldl | apply Kept.foldl_fst) | split | dsimp only | with_reducible apply Kept.ite

theorem State.endBake_kept {Q : List Instr} (s : State) (h0 : Kept Q s) :
    Kept Q (State.endBake s) := by
  unfold State.endBake
  try dsimp only
  repeat' first | intro _ | (with_reducible first | assumption | apply State.asyncEvent_kept | apply State.passRecording_kept | apply State.endOp_kept | apply Kept.foldl | apply Kept.foldl_fst) | (with_reducible refine Kept.mk rfl rfl rfl rfl ?_; with_reducible first | assumption | apply State.asyncEvent_kept | apply State.passRecording_kept | apply State.endOp_kept | apply Kept.foldl | apply Kept.foldl_fst) | split | dsimp only | with_reducible apply Kept.ite

theorem execCmUpdate_kept {Q : List Instr} (fail : Option (Bool × Nat)) (s : State) (h0 : Kept Q s) :
    KeptOut Q (execCmUpdate fail s) := by
  unfold execCmUpdate
  try dsimp only
  repeat' first | intro _ | (with_reducible first | assumption | apply live_kept | apply State.report_kept | apply State.raise_kept | apply State.endBake_kept | apply Kept.foldl | apply Kept.foldl_fst | apply KeptOut.live | apply KeptOut.next) | (with_reducible refine Kept.mk rfl rfl rfl rfl ?_; with_reducible first | assumption | apply live_kept | apply State.report_kept | apply State.raise_kept | apply State.endBake_kept | apply Kept.foldl | apply Kept.foldl_fst) | split | dsimp only | with_reducible apply Kept.ite

end Sys2Proof.Machine
end

