-- ==== Sys2Proof/Laws/KeptSlots.lean ====
section
/-! SUPPORT. Soundness is kept by every operation and meaning of Machine/Slots.lean. -/

namespace Sys2Proof.Machine

theorem State.updSlot_kept {Q : List Instr} (s : State) (n : Nat) (f : SlotSt → SlotSt) (h0 : Kept Q s) :
    Kept Q (State.updSlot s n f) := by
  unfold State.updSlot
  try dsimp only
  repeat' first | intro _ | (with_reducible first | assumption | apply Kept.foldl | apply Kept.foldl_fst) | (with_reducible refine Kept.mk rfl rfl rfl rfl ?_; with_reducible first | assumption | apply Kept.foldl | apply Kept.foldl_fst) | split | dsimp only | with_reducible apply Kept.ite

theorem State.slotStart_kept {Q : List Instr} (s : State) (n : Nat) (h0 : Kept Q s) :
    Kept Q (State.slotStart s n) := by
  unfold State.slotStart
  try dsimp only
  repeat' first | intro _ | (with_reducible first | assumption | apply State.setFlag_kept | apply State.wr_kept | apply State.updSlot_kept | apply Kept.foldl | apply Kept.foldl_fst) | (with_reducible refine Kept.mk rfl rfl rfl rfl ?_; with_reducible first | assumption | apply State.setFlag_kept | apply State.wr_kept | apply State.updSlot_kept | apply Kept.foldl | apply Kept.foldl_fst) | split | dsimp only | with_reducible apply Kept.ite

theorem State.slotStop_kept {Q : List Instr} (s : State) (n : Nat) (h0 : Kept Q s) :
    Kept Q (State.slotStop s n) := by
  unfold State.slotStop
  try dsimp only
  repeat' first | intro _ | (with_reducible first | assumption | apply State.setFlag_kept | apply State.updSlot_kept | apply State.wr_kept | apply Kept.foldl | apply Kept.foldl_fst) | (with_reducible refine Kept.mk rfl rfl rfl rfl ?_; with_reducible first | assumption | apply State.setFlag_kept | apply State.updSlot_kept | apply State.wr_kept | apply Kept.foldl | apply Kept.foldl_fst) | split | dsimp only | with_reducible apply Kept.ite

theorem State.runSlot_kept {Q : List Instr} (s : State) (n : Nat) (h0 : Kept Q s) :
    Kept Q (State.runSlot s n) := by
  unfold State.runSlot
  try dsimp only
  repeat' first | intro _ | (with_reducible first | assumption | apply State.slotStart_kept | apply Kept.foldl | apply Kept.foldl_fst) | (with_reducible refine Kept.mk rfl rfl rfl rfl ?_; with_reducible first | assumption | apply State.slotStart_kept | apply Kept.foldl | apply Kept.foldl_fst) | split | dsimp only | with_reducible apply Kept.ite

theorem State.stopSlots_kept {Q : List Instr} (s : State) (ns : List Nat) (h0 : Kept Q s) :
    Kept Q (State.stopSlots s ns) := by
  unfold State.stopSlots
  try dsimp only
  repeat' first | intro _ | (with_reducible first | assumption | apply State.slotStop_kept | apply Kept.foldl | apply Kept.foldl_fst) | (with_reducible refine Kept.mk rfl rfl rfl rfl ?_; with_reducible first | assumption | apply State.slotStop_kept | apply Kept.foldl | apply Kept.foldl_fst) | split | dsimp only | with_reducible apply Kept.ite

theorem State.setMx_kept {Q : List Instr} (s : State) (n i : Nat) (v : Int) (h0 : Kept Q s) :
    Kept Q (State.setMx s n i v) := by
  unfold State.setMx
  try dsimp only
  repeat' first | intro _ | (with_reducible first | assumption | apply State.updSlot_kept | apply Kept.foldl | apply Kept.foldl_fst) | (with_reducible refine Kept.mk rfl rfl rfl rfl ?_; with_reducible first | assumption | apply State.updSlot_kept | apply Kept.foldl | apply Kept.foldl_fst) | split | dsimp only | with_reducible apply Kept.ite

theorem State.setMa_kept {Q : List Instr} (s : State) (n i : Nat) (v : Int) (h0 : Kept Q s) :
    Kept Q (State.setMa s n i v) := by
  unfold State.setMa
  try dsimp only
  repeat' first | intro _ | (with_reducible first | assumption | apply State.updSlot_kept | apply Kept.foldl | apply Kept.foldl_fst) | (with_reducible refine Kept.mk rfl rfl rfl rfl ?_; with_reducible first | assumption | apply State.updSlot_kept | apply Kept.foldl | apply Kept.foldl_fst) | split | dsimp only | with_reducible apply Kept.ite

theorem State.setMw_kept {Q : List Instr} (s : State) (n i : Nat) (v : Int) (h0 : Kept Q s) :
    Kept Q (State.setMw s n i v) := by
  unfold State.setMw
  try dsimp only
  repeat' first | intro _ | (with_reducible first | assumption | apply State.updSlot_kept | apply Kept.foldl | apply Kept.foldl_fst) | (with_reducible refine Kept.mk rfl rfl rfl rfl ?_; with_reducible first | assumption | apply State.updSlot_kept | apply Kept.foldl | apply Kept.foldl_fst) | split | dsimp only | with_reducible apply Kept.ite

theorem State.noteSat_kept {Q : List Instr} (s : State) (n : Nat) (b : Bool) (h0 : Kept Q s) :
    Kept Q (State.noteSat s n b) := by
  unfold State.noteSat
  try dsimp only
  repeat' first | intro _ | (with_reducible first | assumption | apply State.setFlag_kept | apply State.raise_kept | apply Kept.foldl | apply Kept.foldl_fst) | (with_reducible refine Kept.mk rfl rfl rfl rfl ?_; with_reducible first | assumption | apply State.setFlag_kept | apply State.raise_kept | apply Kept.foldl | apply Kept.foldl_fst) | split | dsimp only | with_reducible apply Kept.ite

end Sys2Proof.Machine
end

