-- ==== Sys2Proof/Laws/KeptHeads.lean ====
section
/-! SUPPORT. Soundness is kept by every operation and meaning of Machine/Heads.lean. -/

namespace Sys2Proof.Machine

theorem State.updHd_kept {Q : List Instr} (s : State) (h : Nat) (f : HeadSt → HeadSt) (h0 : Kept Q s) :
    Kept Q (State.updHd s h f) := by
  unfold State.updHd
  try dsimp only
  repeat' first | intro _ | (with_reducible first | assumption | apply Kept.foldl | apply Kept.foldl_fst) | (with_reducible refine Kept.mk rfl rfl rfl rfl ?_; with_reducible first | assumption | apply Kept.foldl | apply Kept.foldl_fst) | split | dsimp only | with_reducible apply Kept.ite

theorem State.setHState_kept {Q : List Instr} (s : State) (h st : Nat) (h0 : Kept Q s) :
    Kept Q (State.setHState s h st) := by
  unfold State.setHState
  try dsimp only
  repeat' first | intro _ | (with_reducible first | assumption | apply State.wr_kept | apply Kept.foldl | apply Kept.foldl_fst) | (with_reducible refine Kept.mk rfl rfl rfl rfl ?_; with_reducible first | assumption | apply State.wr_kept | apply Kept.foldl | apply Kept.foldl_fst) | split | dsimp only | with_reducible apply Kept.ite

theorem State.refresh_kept {Q : List Instr} (s : State) (h : Nat) (h0 : Kept Q s) :
    Kept Q (State.refresh s h) := by
  unfold State.refresh
  try dsimp only
  repeat' first | intro _ | (with_reducible first | assumption | apply State.setFlag_kept | apply State.wr_kept | apply Kept.foldl | apply Kept.foldl_fst) | (with_reducible refine Kept.mk rfl rfl rfl rfl ?_; with_reducible first | assumption | apply State.setFlag_kept | apply State.wr_kept | apply Kept.foldl | apply Kept.foldl_fst) | split | dsimp only | with_reducible apply Kept.ite

theorem State.setFlt_kept {Q : List Instr} (s : State) (h b : Nat) (h0 : Kept Q s) :
    Kept Q (State.setFlt s h b) := by
  unfold State.setFlt
  try dsimp only
  repeat' first | intro _ | (with_reducible first | assumption | apply State.wr_kept | apply Kept.foldl | apply Kept.foldl_fst) | (with_reducible refine Kept.mk rfl rfl rfl rfl ?_; with_reducible first | assumption | apply State.wr_kept | apply Kept.foldl | apply Kept.foldl_fst) | split | dsimp only | with_reducible apply Kept.ite

theorem State.checkSource_kept {Q : List Instr} (s : State) (h0 : Kept Q s) :
    Kept Q (State.checkSource s) := by
  unfold State.checkSource
  try dsimp only
  repeat' first | intro _ | (with_reducible first | assumption | apply State.wr_kept | apply State.raise_kept | apply State.setFlag_kept | apply Kept.foldl | apply Kept.foldl_fst) | (with_reducible refine Kept.mk rfl rfl rfl rfl ?_; with_reducible first | assumption | apply State.wr_kept | apply State.raise_kept | apply State.setFlag_kept | apply Kept.foldl | apply Kept.foldl_fst) | split | dsimp only | with_reducible apply Kept.ite

theorem State.lockSynth_kept {Q : List Instr} (s : State) (h : Nat) (h0 : Kept Q s) :
    Kept Q (State.lockSynth s h) := by
  unfold State.lockSynth
  try dsimp only
  repeat' first | intro _ | (with_reducible first | assumption | apply State.setFlag_kept | apply State.raise_kept | apply State.checkSource_kept | apply State.refresh_kept | apply Kept.foldl | apply Kept.foldl_fst) | (with_reducible refine Kept.mk rfl rfl rfl rfl ?_; with_reducible first | assumption | apply State.setFlag_kept | apply State.raise_kept | apply State.checkSource_kept | apply State.refresh_kept | apply Kept.foldl | apply Kept.foldl_fst) | split | dsimp only | with_reducible apply Kept.ite

theorem State.offTrack_kept {Q : List Instr} (s : State) (h : Nat) (h0 : Kept Q s) :
    Kept Q (State.offTrack s h) := by
  unfold State.offTrack
  try dsimp only
  repeat' first | intro _ | (with_reducible first | assumption | apply State.dropHeadGates_kept | apply State.raise_kept | apply State.count_kept | apply Kept.foldl | apply Kept.foldl_fst) | (with_reducible refine Kept.mk rfl rfl rfl rfl ?_; with_reducible first | assumption | apply State.dropHeadGates_kept | apply State.raise_kept | apply State.count_kept | apply Kept.foldl | apply Kept.foldl_fst) | split | dsimp only | with_reducible apply Kept.ite

theorem State.loseSynth_kept {Q : List Instr} (s : State) (h : Nat) (h0 : Kept Q s) :
    Kept Q (State.loseSynth s h) := by
  unfold State.loseSynth
  try dsimp only
  repeat' first | intro _ | (with_reducible first | assumption | apply State.setFlag_kept | apply State.raise_kept | apply State.offTrack_kept | apply State.updHd_kept | apply State.checkSource_kept | apply State.refresh_kept | apply Kept.foldl | apply Kept.foldl_fst) | (with_reducible refine Kept.mk rfl rfl rfl rfl ?_; with_reducible first | assumption | apply State.setFlag_kept | apply State.raise_kept | apply State.offTrack_kept | apply State.updHd_kept | apply State.checkSource_kept | apply State.refresh_kept | apply Kept.foldl | apply Kept.foldl_fst) | split | dsimp only | with_reducible apply Kept.ite

theorem State.beginSeq_kept {Q : List Instr} (s : State) (h seq step endState group layer : Nat) (pair : Bool) (h0 : Kept Q s) :
    Kept Q (State.beginSeq s h seq step endState group layer pair) := by
  unfold State.beginSeq
  try dsimp only
  repeat' first | intro _ | (with_reducible first | assumption | apply State.setFlag_kept | apply State.wr_kept | apply State.updHd_kept | apply State.refresh_kept | apply Kept.foldl | apply Kept.foldl_fst) | (with_reducible refine Kept.mk rfl rfl rfl rfl ?_; with_reducible first | assumption | apply State.setFlag_kept | apply State.wr_kept | apply State.updHd_kept | apply State.refresh_kept | apply Kept.foldl | apply Kept.foldl_fst) | split | dsimp only | with_reducible apply Kept.ite

theorem State.clearAdc_kept {Q : List Instr} (s : State) (h : Nat) (h0 : Kept Q s) :
    Kept Q (State.clearAdc s h) := by
  unfold State.clearAdc
  try dsimp only
  repeat' first | intro _ | (with_reducible first | assumption | apply State.setFlag_kept | apply State.wr_kept | apply Kept.foldl | apply Kept.foldl_fst) | (with_reducible refine Kept.mk rfl rfl rfl rfl ?_; with_reducible first | assumption | apply State.setFlag_kept | apply State.wr_kept | apply Kept.foldl | apply Kept.foldl_fst) | split | dsimp only | with_reducible apply Kept.ite

theorem State.setEmitter_kept {Q : List Instr} (s : State) (h : Nat) (on : Bool) (h0 : Kept Q s) :
    Kept Q (State.setEmitter s h on) := by
  unfold State.setEmitter
  try dsimp only
  repeat' first | intro _ | (with_reducible first | assumption | apply State.setFlag_kept | apply State.updHd_kept | apply Kept.foldl | apply Kept.foldl_fst) | (with_reducible refine Kept.mk rfl rfl rfl rfl ?_; with_reducible first | assumption | apply State.setFlag_kept | apply State.updHd_kept | apply Kept.foldl | apply Kept.foldl_fst) | split | dsimp only | with_reducible apply Kept.ite

theorem State.beginAcquire_kept {Q : List Instr} (s : State) (h seq group layer : Nat) (pair : Bool) (h0 : Kept Q s) :
    Kept Q (State.beginAcquire s h seq group layer pair) := by
  unfold State.beginAcquire
  try dsimp only
  repeat' first | intro _ | (with_reducible first | assumption | apply State.clearAdc_kept | apply State.setEmitter_kept | apply State.setHState_kept | apply State.stopSlots_kept | apply State.slotStart_kept | apply State.updHd_kept | apply State.jump_kept | apply State.beginSeq_kept | apply Kept.foldl | apply Kept.foldl_fst) | (with_reducible refine Kept.mk rfl rfl rfl rfl ?_; with_reducible first | assumption | apply State.clearAdc_kept | apply State.setEmitter_kept | apply State.setHState_kept | apply State.stopSlots_kept | apply State.slotStart_kept | apply State.updHd_kept | apply State.jump_kept | apply State.beginSeq_kept | apply Kept.foldl | apply Kept.foldl_fst) | split | dsimp only | with_reducible apply Kept.ite

theorem State.seqDone_kept {Q : List Instr} (s : State) (h st : Nat) (h0 : Kept Q s) :
    Kept Q (State.seqDone s h st) := by
  unfold State.seqDone
  try dsimp only
  repeat' first | intro _ | (with_reducible first | assumption | apply State.setFlag_kept | apply State.wr_kept | apply State.setHState_kept | apply State.updHd_kept | apply State.raise_kept | apply State.refresh_kept | apply Kept.foldl | apply Kept.foldl_fst) | (with_reducible refine Kept.mk rfl rfl rfl rfl ?_; with_reducible first | assumption | apply State.setFlag_kept | apply State.wr_kept | apply State.setHState_kept | apply State.updHd_kept | apply State.raise_kept | apply State.refresh_kept | apply Kept.foldl | apply Kept.foldl_fst) | split | dsimp only | with_reducible apply Kept.ite

theorem State.setLevel_kept {Q : List Instr} (s : State) (n : Nat) (h0 : Kept Q s) :
    Kept Q (State.setLevel s n) := by
  unfold State.setLevel
  try dsimp only
  repeat' first | intro _ | (with_reducible first | assumption | apply State.wr_kept | apply State.raise_kept | apply Kept.foldl | apply Kept.foldl_fst) | (with_reducible refine Kept.mk rfl rfl rfl rfl ?_; with_reducible first | assumption | apply State.wr_kept | apply State.raise_kept | apply Kept.foldl | apply Kept.foldl_fst) | split | dsimp only | with_reducible apply Kept.ite

theorem State.lowerLevel_kept {Q : List Instr} (s : State) (h0 : Kept Q s) :
    Kept Q (State.lowerLevel s) := by
  unfold State.lowerLevel
  try dsimp only
  repeat' first | intro _ | (with_reducible first | assumption | apply State.raise_kept | apply State.setLevel_kept | apply Kept.foldl | apply Kept.foldl_fst) | (with_reducible refine Kept.mk rfl rfl rfl rfl ?_; with_reducible first | assumption | apply State.raise_kept | apply State.setLevel_kept | apply Kept.foldl | apply Kept.foldl_fst) | split | dsimp only | with_reducible apply Kept.ite

theorem State.seqFault_kept {Q : List Instr} (s : State) (h result : Nat) (h0 : Kept Q s) :
    Kept Q (State.seqFault s h result) := by
  unfold State.seqFault
  try dsimp only
  repeat' first | intro _ | (with_reducible first | assumption | apply State.setFlag_kept | apply State.wr_kept | apply State.setHState_kept | apply State.updHd_kept | apply State.raise_kept | apply State.refresh_kept | apply State.lowerLevel_kept | apply Kept.foldl | apply Kept.foldl_fst) | (with_reducible refine Kept.mk rfl rfl rfl rfl ?_; with_reducible first | assumption | apply State.setFlag_kept | apply State.wr_kept | apply State.setHState_kept | apply State.updHd_kept | apply State.raise_kept | apply State.refresh_kept | apply State.lowerLevel_kept | apply Kept.foldl | apply Kept.foldl_fst) | split | dsimp only | with_reducible apply Kept.ite

theorem State.endSeq_kept {Q : List Instr} (s : State) (h st : Nat) (h0 : Kept Q s) :
    Kept Q (State.endSeq s h st) := by
  unfold State.endSeq
  try dsimp only
  repeat' first | intro _ | (with_reducible first | assumption | apply State.setHState_kept | apply State.updHd_kept | apply State.seqDone_kept | apply Kept.foldl | apply Kept.foldl_fst) | (with_reducible refine Kept.mk rfl rfl rfl rfl ?_; with_reducible first | assumption | apply State.setHState_kept | apply State.updHd_kept | apply State.seqDone_kept | apply Kept.foldl | apply Kept.foldl_fst) | split | dsimp only | with_reducible apply Kept.ite

theorem State.failSeq_kept {Q : List Instr} (s : State) (h result : Nat) (h0 : Kept Q s) :
    Kept Q (State.failSeq s h result) := by
  unfold State.failSeq
  try dsimp only
  repeat' first | intro _ | (with_reducible first | assumption | apply State.setHState_kept | apply State.updHd_kept | apply State.refresh_kept | apply State.seqFault_kept | apply State.seqDone_kept | apply Kept.foldl | apply Kept.foldl_fst) | (with_reducible refine Kept.mk rfl rfl rfl rfl ?_; with_reducible first | assumption | apply State.setHState_kept | apply State.updHd_kept | apply State.refresh_kept | apply State.seqFault_kept | apply State.seqDone_kept | apply Kept.foldl | apply Kept.foldl_fst) | split | dsimp only | with_reducible apply Kept.ite

theorem State.refuseSeq_kept {Q : List Instr} (s : State) (h result : Nat) (h0 : Kept Q s) :
    Kept Q (State.refuseSeq s h result) := by
  unfold State.refuseSeq
  try dsimp only
  repeat' first | intro _ | (with_reducible first | assumption | apply State.wr_kept | apply State.raise_kept | apply Kept.foldl | apply Kept.foldl_fst) | (with_reducible refine Kept.mk rfl rfl rfl rfl ?_; with_reducible first | assumption | apply State.wr_kept | apply State.raise_kept | apply Kept.foldl | apply Kept.foldl_fst) | split | dsimp only | with_reducible apply Kept.ite

theorem State.release_kept {Q : List Instr} (s : State) (h : Nat) (pair : Bool) (h0 : Kept Q s) :
    Kept Q (State.release s h pair) := by
  unfold State.release
  try dsimp only
  repeat' first | intro _ | (with_reducible first | assumption | apply State.wr_kept | apply State.raise_kept | apply State.dropHeadGates_kept | apply State.updHd_kept | apply State.jump_kept | apply State.clearAdc_kept | apply State.loseSynth_kept | apply State.stopSlots_kept | apply State.setHState_kept | apply State.beginSeq_kept | apply Kept.foldl | apply Kept.foldl_fst) | (with_reducible refine Kept.mk rfl rfl rfl rfl ?_; with_reducible first | assumption | apply State.wr_kept | apply State.raise_kept | apply State.dropHeadGates_kept | apply State.updHd_kept | apply State.jump_kept | apply State.clearAdc_kept | apply State.loseSynth_kept | apply State.stopSlots_kept | apply State.setHState_kept | apply State.beginSeq_kept | apply Kept.foldl | apply Kept.foldl_fst) | split | dsimp only | with_reducible apply Kept.ite

theorem State.startSeq_kept {Q : List Instr} (s : State) (h cmd layer group : Nat) (pair : Bool) (h0 : Kept Q s) :
    Kept Q (State.startSeq s h cmd layer group pair) := by
  unfold State.startSeq
  try dsimp only
  repeat' first | intro _ | (with_reducible first | assumption | apply State.release_kept | apply State.updHd_kept | apply State.setHState_kept | apply State.beginSeq_kept | apply State.beginAcquire_kept | apply Kept.foldl | apply Kept.foldl_fst) | (with_reducible refine Kept.mk rfl rfl rfl rfl ?_; with_reducible first | assumption | apply State.release_kept | apply State.updHd_kept | apply State.setHState_kept | apply State.beginSeq_kept | apply State.beginAcquire_kept | apply Kept.foldl | apply Kept.foldl_fst) | split | dsimp only | with_reducible apply Kept.ite

theorem State.seqNow_kept {Q : List Instr} (s : State) (h cmd layer group : Nat) (pair : Bool) (h0 : Kept Q s) :
    Kept Q (State.seqNow s h cmd layer group pair) := by
  unfold State.seqNow
  try dsimp only
  repeat' first | intro _ | (with_reducible first | assumption | apply State.refuseSeq_kept | apply State.startSeq_kept | apply Kept.foldl | apply Kept.foldl_fst) | (with_reducible refine Kept.mk rfl rfl rfl rfl ?_; with_reducible first | assumption | apply State.refuseSeq_kept | apply State.startSeq_kept | apply Kept.foldl | apply Kept.foldl_fst) | split | dsimp only | with_reducible apply Kept.ite

theorem State.seqCommand_kept {Q : List Instr} (s : State) (h cmd layer group : Nat) (pair : Bool) (h0 : Kept Q s) :
    Kept Q (State.seqCommand s h cmd layer group pair) := by
  unfold State.seqCommand
  try dsimp only
  repeat' first | intro _ | (with_reducible first | assumption | apply State.seqNow_kept | apply Kept.foldl | apply Kept.foldl_fst) | (with_reducible refine Kept.mk rfl rfl rfl rfl ?_; with_reducible first | assumption | apply State.seqNow_kept | apply Kept.foldl | apply Kept.foldl_fst) | split | dsimp only | with_reducible apply Kept.ite

theorem State.jumpDone_kept {Q : List Instr} (s : State) (h : Nat) (h0 : Kept Q s) :
    Kept Q (State.jumpDone s h) := by
  unfold State.jumpDone
  try dsimp only
  repeat' first | intro _ | (with_reducible first | assumption | apply State.jump_kept | apply State.updHd_kept | apply State.seqDone_kept | apply Kept.foldl | apply Kept.foldl_fst) | (with_reducible refine Kept.mk rfl rfl rfl rfl ?_; with_reducible first | assumption | apply State.jump_kept | apply State.updHd_kept | apply State.seqDone_kept | apply Kept.foldl | apply Kept.foldl_fst) | split | dsimp only | with_reducible apply Kept.ite

theorem State.seekDone_kept {Q : List Instr} (s : State) (h : Nat) (h0 : Kept Q s) :
    Kept Q (State.seekDone s h) := by
  unfold State.seekDone
  try dsimp only
  repeat' first | intro _ | (with_reducible first | assumption | apply State.wr_kept | apply State.updHd_kept | apply State.count_kept | apply Kept.foldl | apply Kept.foldl_fst) | (with_reducible refine Kept.mk rfl rfl rfl rfl ?_; with_reducible first | assumption | apply State.wr_kept | apply State.updHd_kept | apply State.count_kept | apply Kept.foldl | apply Kept.foldl_fst) | split | dsimp only | with_reducible apply Kept.ite

theorem State.stepDone_kept {Q : List Instr} (s : State) (h : Nat) (h0 : Kept Q s) :
    Kept Q (State.stepDone s h) := by
  unfold State.stepDone
  try dsimp only
  repeat' first | intro _ | (with_reducible first | assumption | apply State.updHd_kept | apply State.refresh_kept | apply State.runSlot_kept | apply State.lockSynth_kept | apply State.slotStart_kept | apply State.seekDone_kept | apply State.endSeq_kept | apply State.wr_kept | apply State.count_kept | apply State.jumpDone_kept | apply State.setHState_kept | apply State.setEmitter_kept | apply Kept.foldl | apply Kept.foldl_fst) | (with_reducible refine Kept.mk rfl rfl rfl rfl ?_; with_reducible first | assumption | apply State.updHd_kept | apply State.refresh_kept | apply State.runSlot_kept | apply State.lockSynth_kept | apply State.slotStart_kept | apply State.seekDone_kept | apply State.endSeq_kept | apply State.wr_kept | apply State.count_kept | apply State.jumpDone_kept | apply State.setHState_kept | apply State.setEmitter_kept | apply Kept.foldl | apply Kept.foldl_fst) | split | dsimp only | with_reducible apply Kept.ite

theorem State.focusLost_kept {Q : List Instr} (s : State) (h : Nat) (h0 : Kept Q s) :
    Kept Q (State.focusLost s h) := by
  unfold State.focusLost
  try dsimp only
  repeat' first | intro _ | (with_reducible first | assumption | apply State.dropHeadGates_kept | apply State.raise_kept | apply State.setFlt_kept | apply State.count_kept | apply State.setHState_kept | apply State.updHd_kept | apply State.jump_kept | apply State.stopSlots_kept | apply State.beginSeq_kept | apply Kept.foldl | apply Kept.foldl_fst) | (with_reducible refine Kept.mk rfl rfl rfl rfl ?_; with_reducible first | assumption | apply State.dropHeadGates_kept | apply State.raise_kept | apply State.setFlt_kept | apply State.count_kept | apply State.setHState_kept | apply State.updHd_kept | apply State.jump_kept | apply State.stopSlots_kept | apply State.beginSeq_kept | apply Kept.foldl | apply Kept.foldl_fst) | split | dsimp only | with_reducible apply Kept.ite

theorem State.trackLost_kept {Q : List Instr} (s : State) (h : Nat) (h0 : Kept Q s) :
    Kept Q (State.trackLost s h) := by
  unfold State.trackLost
  try dsimp only
  repeat' first | intro _ | (with_reducible first | assumption | apply State.dropHeadGates_kept | apply State.raise_kept | apply State.setFlt_kept | apply State.updHd_kept | apply State.beginSeq_kept | apply Kept.foldl | apply Kept.foldl_fst) | (with_reducible refine Kept.mk rfl rfl rfl rfl ?_; with_reducible first | assumption | apply State.dropHeadGates_kept | apply State.raise_kept | apply State.setFlt_kept | apply State.updHd_kept | apply State.beginSeq_kept | apply Kept.foldl | apply Kept.foldl_fst) | split | dsimp only | with_reducible apply Kept.ite

theorem State.layerLost_kept {Q : List Instr} (s : State) (h : Nat) (h0 : Kept Q s) :
    Kept Q (State.layerLost s h) := by
  unfold State.layerLost
  try dsimp only
  repeat' first | intro _ | (with_reducible first | assumption | apply State.dropHeadGates_kept | apply State.raise_kept | apply State.setFlt_kept | apply State.updHd_kept | apply State.beginSeq_kept | apply Kept.foldl | apply Kept.foldl_fst) | (with_reducible refine Kept.mk rfl rfl rfl rfl ?_; with_reducible first | assumption | apply State.dropHeadGates_kept | apply State.raise_kept | apply State.setFlt_kept | apply State.updHd_kept | apply State.beginSeq_kept | apply Kept.foldl | apply Kept.foldl_fst) | split | dsimp only | with_reducible apply Kept.ite

theorem State.tiltLimit_kept {Q : List Instr} (s : State) (h : Nat) (h0 : Kept Q s) :
    Kept Q (State.tiltLimit s h) := by
  unfold State.tiltLimit
  try dsimp only
  repeat' first | intro _ | (with_reducible first | assumption | apply State.raise_kept | apply State.setFlt_kept | apply State.updHd_kept | apply State.refresh_kept | apply Kept.foldl | apply Kept.foldl_fst) | (with_reducible refine Kept.mk rfl rfl rfl rfl ?_; with_reducible first | assumption | apply State.raise_kept | apply State.setFlt_kept | apply State.updHd_kept | apply State.refresh_kept | apply Kept.foldl | apply Kept.foldl_fst) | split | dsimp only | with_reducible apply Kept.ite

theorem State.svLaser_kept {Q : List Instr} (s : State) (h : Nat) (h0 : Kept Q s) :
    Kept Q (State.svLaser s h) := by
  unfold State.svLaser
  try dsimp only
  repeat' first | intro _ | (with_reducible first | assumption | apply State.raise_kept | apply State.setFlt_kept | apply State.setEmitter_kept | apply State.focusLost_kept | apply Kept.foldl | apply Kept.foldl_fst) | (with_reducible refine Kept.mk rfl rfl rfl rfl ?_; with_reducible first | assumption | apply State.raise_kept | apply State.setFlt_kept | apply State.setEmitter_kept | apply State.focusLost_kept | apply Kept.foldl | apply Kept.foldl_fst) | split | dsimp only | with_reducible apply Kept.ite

end Sys2Proof.Machine
end

