-- ==== Sys2Proof/Laws/KeptTime.lean ====
section
/-! SUPPORT. Soundness is kept by every operation and meaning of Machine/Time.lean. -/

namespace Sys2Proof.Machine

theorem State.stepTime_kept {Q : List Instr} (s : State) (d : Int) (h0 : Kept Q s) :
    Kept Q (State.stepTime s d) := by
  refine State.raise_kept _ _ _ ⟨h0.1, h0.2.1, h0.2.2.1, h0.2.2.2.1, h0.2.2.2.2.1, h0.2.2.2.2.2.1, ?_⟩
  exact unsigned_lt 64 _

theorem State.setRate_kept {Q : List Instr} (s : State) (r i : Int) (h0 : Kept Q s) :
    Kept Q (State.setRate s r i) := by
  unfold State.setRate
  try dsimp only
  repeat' first | intro _ | (with_reducible first | assumption | apply State.wr_kept | apply Kept.foldl | apply Kept.foldl_fst) | (with_reducible refine Kept.mk rfl rfl rfl rfl ?_; with_reducible first | assumption | apply State.wr_kept | apply Kept.foldl | apply Kept.foldl_fst) | split | dsimp only | with_reducible apply Kept.ite

theorem State.tmEnter_kept {Q : List Instr} (s : State) (st : Nat) (h0 : Kept Q s) :
    Kept Q (State.tmEnter s st) := by
  unfold State.tmEnter
  try dsimp only
  repeat' first | intro _ | (with_reducible first | assumption | apply State.wr_kept | apply State.raise_kept | apply Kept.foldl | apply Kept.foldl_fst) | (with_reducible refine Kept.mk rfl rfl rfl rfl ?_; with_reducible first | assumption | apply State.wr_kept | apply State.raise_kept | apply Kept.foldl | apply Kept.foldl_fst) | split | dsimp only | with_reducible apply Kept.ite

theorem State.slew_kept {Q : List Instr} (s : State) (e : Int) (tauNum tauDen : Nat) (h0 : Kept Q s) :
    Kept Q (State.slew s e tauNum tauDen) := by
  unfold State.slew
  try dsimp only
  repeat' first | intro _ | (with_reducible first | assumption | apply State.setRate_kept | apply State.raise_kept | apply Kept.foldl | apply Kept.foldl_fst) | (with_reducible refine Kept.mk rfl rfl rfl rfl ?_; with_reducible first | assumption | apply State.setRate_kept | apply State.raise_kept | apply Kept.foldl | apply Kept.foldl_fst) | split | dsimp only | with_reducible apply Kept.ite

theorem State.judgeLock_kept {Q : List Instr} (s : State) (e : Int) (h0 : Kept Q s) :
    Kept Q (State.judgeLock s e) := by
  unfold State.judgeLock
  try dsimp only
  repeat' first | intro _ | (with_reducible first | assumption | apply State.tmEnter_kept | apply Kept.foldl | apply Kept.foldl_fst) | (with_reducible refine Kept.mk rfl rfl rfl rfl ?_; with_reducible first | assumption | apply State.tmEnter_kept | apply Kept.foldl | apply Kept.foldl_fst) | split | dsimp only | with_reducible apply Kept.ite

theorem State.tmUpdate_kept {Q : List Instr} (s : State) (c e period : Int) (tauNum tauDen : Nat) (pulse : Bool) (h0 : Kept Q s) :
    Kept Q (State.tmUpdate s c e period tauNum tauDen pulse) := by
  unfold State.tmUpdate
  try dsimp only
  repeat' first | intro _ | (with_reducible first | assumption | apply State.count_kept | apply State.wr_kept | apply State.stepTime_kept | apply State.slew_kept | apply State.judgeLock_kept | apply Kept.foldl | apply Kept.foldl_fst) | (with_reducible refine Kept.mk rfl rfl rfl rfl ?_; with_reducible first | assumption | apply State.count_kept | apply State.wr_kept | apply State.stepTime_kept | apply State.slew_kept | apply State.judgeLock_kept | apply Kept.foldl | apply Kept.foldl_fst) | split | dsimp only | with_reducible apply Kept.ite

theorem State.refuseLoad_kept {Q : List Instr} (s : State) (req cmd : Nat) (h0 : Kept Q s) :
    Kept Q (State.refuseLoad s req cmd) := by
  unfold State.refuseLoad
  try dsimp only
  repeat' first | intro _ | (with_reducible first | assumption | apply State.refuse_kept | apply State.setFlag_kept | apply State.raise_kept | apply Kept.foldl | apply Kept.foldl_fst) | (with_reducible refine Kept.mk rfl rfl rfl rfl ?_; with_reducible first | assumption | apply State.refuse_kept | apply State.setFlag_kept | apply State.raise_kept | apply Kept.foldl | apply Kept.foldl_fst) | split | dsimp only | with_reducible apply Kept.ite

theorem State.checkArmed_kept {Q : List Instr} (s : State) (h0 : Kept Q s) :
    Kept Q (State.checkArmed s) := by
  unfold State.checkArmed
  try dsimp only
  repeat' first | intro _ | (with_reducible first | assumption | apply State.setFlag_kept | apply State.refuseLoad_kept | apply Kept.foldl | apply Kept.foldl_fst) | (with_reducible refine Kept.mk rfl rfl rfl rfl ?_; with_reducible first | assumption | apply State.setFlag_kept | apply State.refuseLoad_kept | apply Kept.foldl | apply Kept.foldl_fst) | split | dsimp only | with_reducible apply Kept.ite

theorem State.loadAtEdge_kept {Q : List Instr} (s : State) (c : Int) (h0 : Kept Q s) :
    Kept Q (State.loadAtEdge s c) := by
  unfold State.loadAtEdge
  try dsimp only
  repeat' first | intro _ | (with_reducible first | assumption | apply State.setFlag_kept | apply State.stepTime_kept | apply Kept.foldl | apply Kept.foldl_fst) | (with_reducible refine Kept.mk rfl rfl rfl rfl ?_; with_reducible first | assumption | apply State.setFlag_kept | apply State.stepTime_kept | apply Kept.foldl | apply Kept.foldl_fst) | split | dsimp only | with_reducible apply Kept.ite

theorem State.acquireEdge_kept {Q : List Instr} (s : State) (c : Int) (h0 : Kept Q s) :
    Kept Q (State.acquireEdge s c) := by
  unfold State.acquireEdge
  try dsimp only
  repeat' first | intro _ | (with_reducible first | assumption | apply State.checkArmed_kept | apply State.loadAtEdge_kept | apply State.setRate_kept | apply State.tmEnter_kept | apply State.stepTime_kept | apply Kept.foldl | apply Kept.foldl_fst) | (with_reducible refine Kept.mk rfl rfl rfl rfl ?_; with_reducible first | assumption | apply State.checkArmed_kept | apply State.loadAtEdge_kept | apply State.setRate_kept | apply State.tmEnter_kept | apply State.stepTime_kept | apply Kept.foldl | apply Kept.foldl_fst) | split | dsimp only | with_reducible apply Kept.ite

theorem State.trackEdge_kept {Q : List Instr} (s : State) (c : Int) (h0 : Kept Q s) :
    Kept Q (State.trackEdge s c) := by
  unfold State.trackEdge
  try dsimp only
  repeat' first | intro _ | (with_reducible first | assumption | apply State.wr_kept | apply State.tmEnter_kept | apply State.checkArmed_kept | apply State.loadAtEdge_kept | apply State.tmUpdate_kept | apply State.incSat_kept | apply State.raise_kept | apply Kept.foldl | apply Kept.foldl_fst) | (with_reducible refine Kept.mk rfl rfl rfl rfl ?_; with_reducible first | assumption | apply State.wr_kept | apply State.tmEnter_kept | apply State.checkArmed_kept | apply State.loadAtEdge_kept | apply State.tmUpdate_kept | apply State.incSat_kept | apply State.raise_kept | apply Kept.foldl | apply Kept.foldl_fst) | split | dsimp only | with_reducible apply Kept.ite

theorem execPpsEdge_kept {Q : List Instr} (rising : Bool) (held : Nat) (s : State) (h0 : Kept Q s) :
    KeptOut Q (execPpsEdge rising held s) := by
  unfold execPpsEdge
  try dsimp only
  repeat' first | intro _ | (with_reducible first | assumption | apply State.tmEnter_kept | apply State.wr_kept | apply live_kept | apply State.acquireEdge_kept | apply State.trackEdge_kept | apply Kept.foldl | apply Kept.foldl_fst | apply KeptOut.live | apply KeptOut.next) | (with_reducible refine Kept.mk rfl rfl rfl rfl ?_; with_reducible first | assumption | apply State.tmEnter_kept | apply State.wr_kept | apply live_kept | apply State.acquireEdge_kept | apply State.trackEdge_kept | apply Kept.foldl | apply Kept.foldl_fst) | split | dsimp only | with_reducible apply Kept.ite

theorem State.missEdge_kept {Q : List Instr} (s : State) (p : Int) (h0 : Kept Q s) :
    Kept Q (State.missEdge s p) := by
  unfold State.missEdge
  try dsimp only
  repeat' first | intro _ | (with_reducible first | assumption | apply State.incSat_kept | apply State.raise_kept | apply State.tmEnter_kept | apply Kept.foldl | apply Kept.foldl_fst) | (with_reducible refine Kept.mk rfl rfl rfl rfl ?_; with_reducible first | assumption | apply State.incSat_kept | apply State.raise_kept | apply State.tmEnter_kept | apply Kept.foldl | apply Kept.foldl_fst) | split | dsimp only | with_reducible apply Kept.ite

theorem execPpsMissing_kept {Q : List Instr} (s : State) (h0 : Kept Q s) :
    KeptOut Q (execPpsMissing s) := by
  unfold execPpsMissing
  try dsimp only
  repeat' first | intro _ | (with_reducible first | assumption | apply live_kept | apply State.missEdge_kept | apply Kept.foldl | apply Kept.foldl_fst | apply KeptOut.live | apply KeptOut.next) | (with_reducible refine Kept.mk rfl rfl rfl rfl ?_; with_reducible first | assumption | apply live_kept | apply State.missEdge_kept | apply Kept.foldl | apply Kept.foldl_fst) | split | dsimp only | with_reducible apply Kept.ite

theorem State.tmLoadNow_kept {Q : List Instr} (t : State) (r : Requester) (h0 : Kept Q t) :
    Kept Q (State.tmLoadNow t r) := by
  unfold State.tmLoadNow
  try dsimp only
  repeat' first | intro _ | (with_reducible first | assumption | apply State.stepTime_kept | apply State.refuseLoad_kept | apply Kept.foldl | apply Kept.foldl_fst) | (with_reducible refine Kept.mk rfl rfl rfl rfl ?_; with_reducible first | assumption | apply State.stepTime_kept | apply State.refuseLoad_kept | apply Kept.foldl | apply Kept.foldl_fst) | split | dsimp only | with_reducible apply Kept.ite

theorem execTimeLoadNow_kept {Q : List Instr} (r : Requester) (s : State) (h0 : Kept Q s) :
    KeptOut Q (execTimeLoadNow r s) := by
  unfold execTimeLoadNow
  try dsimp only
  repeat' first | intro _ | (with_reducible first | assumption | apply live_kept | apply State.guardReg_kept | apply State.tmLoadNow_kept | apply Kept.foldl | apply Kept.foldl_fst | apply KeptOut.live | apply KeptOut.next) | (with_reducible refine Kept.mk rfl rfl rfl rfl ?_; with_reducible first | assumption | apply live_kept | apply State.guardReg_kept | apply State.tmLoadNow_kept | apply Kept.foldl | apply Kept.foldl_fst) | split | dsimp only | with_reducible apply Kept.ite

theorem State.tmLoadEdge_kept {Q : List Instr} (t : State) (r : Requester) (h0 : Kept Q t) :
    Kept Q (State.tmLoadEdge t r) := by
  unfold State.tmLoadEdge
  try dsimp only
  repeat' first | intro _ | (with_reducible first | assumption | apply State.setFlag_kept | apply State.refuseLoad_kept | apply Kept.foldl | apply Kept.foldl_fst) | (with_reducible refine Kept.mk rfl rfl rfl rfl ?_; with_reducible first | assumption | apply State.setFlag_kept | apply State.refuseLoad_kept | apply Kept.foldl | apply Kept.foldl_fst) | split | dsimp only | with_reducible apply Kept.ite

theorem execTimeLoadAtEdge_kept {Q : List Instr} (r : Requester) (s : State) (h0 : Kept Q s) :
    KeptOut Q (execTimeLoadAtEdge r s) := by
  unfold execTimeLoadAtEdge
  try dsimp only
  repeat' first | intro _ | (with_reducible first | assumption | apply live_kept | apply State.guardReg_kept | apply State.tmLoadEdge_kept | apply Kept.foldl | apply Kept.foldl_fst | apply KeptOut.live | apply KeptOut.next) | (with_reducible refine Kept.mk rfl rfl rfl rfl ?_; with_reducible first | assumption | apply live_kept | apply State.guardReg_kept | apply State.tmLoadEdge_kept | apply Kept.foldl | apply Kept.foldl_fst) | split | dsimp only | with_reducible apply Kept.ite

theorem execTimeLoadCancel_kept {Q : List Instr} (r : Requester) (s : State) (h0 : Kept Q s) :
    KeptOut Q (execTimeLoadCancel r s) := by
  unfold execTimeLoadCancel
  try dsimp only
  repeat' first | intro _ | (with_reducible first | assumption | apply live_kept | apply State.guardReg_kept | apply State.setFlag_kept | apply Kept.foldl | apply Kept.foldl_fst | apply KeptOut.live | apply KeptOut.next) | (with_reducible refine Kept.mk rfl rfl rfl rfl ?_; with_reducible first | assumption | apply live_kept | apply State.guardReg_kept | apply State.setFlag_kept | apply Kept.foldl | apply Kept.foldl_fst) | split | dsimp only | with_reducible apply Kept.ite

theorem execTmrateWrite_kept {Q : List Instr} (r : Requester) (v : Word) (s : State) (h0 : Kept Q s) :
    KeptOut Q (execTmrateWrite r v s) := by
  unfold execTmrateWrite
  try dsimp only
  repeat' first | intro _ | (with_reducible first | assumption | apply live_kept | apply State.guardReg_kept | apply State.setRate_kept | apply Kept.foldl | apply Kept.foldl_fst | apply KeptOut.live | apply KeptOut.next) | (with_reducible refine Kept.mk rfl rfl rfl rfl ?_; with_reducible first | assumption | apply live_kept | apply State.guardReg_kept | apply State.setRate_kept | apply Kept.foldl | apply Kept.foldl_fst) | split | dsimp only | with_reducible apply Kept.ite

theorem execTriggerEdge_kept {Q : List Instr} (n : Fin 4) (rising : Bool) (held : Nat) (s : State) (h0 : Kept Q s) :
    KeptOut Q (execTriggerEdge n rising held s) := by
  unfold execTriggerEdge
  try dsimp only
  repeat' first | intro _ | (with_reducible first | assumption | apply State.setFlag_kept | apply State.count_kept | apply live_kept | apply State.incWrap_kept | apply State.raise_kept | apply State.vendorEvent_kept | apply State.wr_kept | apply Kept.foldl | apply Kept.foldl_fst | apply KeptOut.live | apply KeptOut.next) | (with_reducible refine Kept.mk rfl rfl rfl rfl ?_; with_reducible first | assumption | apply State.setFlag_kept | apply State.count_kept | apply live_kept | apply State.incWrap_kept | apply State.raise_kept | apply State.vendorEvent_kept | apply State.wr_kept | apply Kept.foldl | apply Kept.foldl_fst) | split | dsimp only | with_reducible apply Kept.ite

theorem State.trgAck_kept {Q : List Instr} (t : State) (v : Nat) (h0 : Kept Q t) :
    Kept Q (State.trgAck t v) := by
  unfold State.trgAck
  try dsimp only
  repeat' first | intro _ | (with_reducible first | assumption | apply State.setFlag_kept | apply Kept.foldl | apply Kept.foldl_fst) | (with_reducible refine Kept.mk rfl rfl rfl rfl ?_; with_reducible first | assumption | apply State.setFlag_kept | apply Kept.foldl | apply Kept.foldl_fst) | split | dsimp only | with_reducible apply Kept.ite

theorem execTrgackWrite_kept {Q : List Instr} (r : Requester) (v : Word) (s : State) (h0 : Kept Q s) :
    KeptOut Q (execTrgackWrite r v s) := by
  unfold execTrgackWrite
  try dsimp only
  repeat' first | intro _ | (with_reducible first | assumption | apply live_kept | apply State.guardReg_kept | apply State.trgAck_kept | apply Kept.foldl | apply Kept.foldl_fst | apply KeptOut.live | apply KeptOut.next) | (with_reducible refine Kept.mk rfl rfl rfl rfl ?_; with_reducible first | assumption | apply live_kept | apply State.guardReg_kept | apply State.trgAck_kept | apply Kept.foldl | apply Kept.foldl_fst) | split | dsimp only | with_reducible apply Kept.ite

theorem State.tcEpochHi_kept {Q : List Instr} (t : State) (r : Requester) (v : Nat) (h0 : Kept Q t) :
    Kept Q (State.tcEpochHi t r v) := by
  unfold State.tcEpochHi
  try dsimp only
  repeat' first | intro _ | (with_reducible first | assumption | apply State.wr_kept | apply Kept.foldl | apply Kept.foldl_fst) | (with_reducible refine Kept.mk rfl rfl rfl rfl ?_; with_reducible first | assumption | apply State.wr_kept | apply Kept.foldl | apply Kept.foldl_fst) | split | dsimp only | with_reducible apply Kept.ite

theorem execTcepochhiWrite_kept {Q : List Instr} (r : Requester) (v : Word) (s : State) (h0 : Kept Q s) :
    KeptOut Q (execTcepochhiWrite r v s) := by
  unfold execTcepochhiWrite
  try dsimp only
  repeat' first | intro _ | (with_reducible first | assumption | apply live_kept | apply State.guardReg_kept | apply State.tcEpochHi_kept | apply Kept.foldl | apply Kept.foldl_fst | apply KeptOut.live | apply KeptOut.next) | (with_reducible refine Kept.mk rfl rfl rfl rfl ?_; with_reducible first | assumption | apply live_kept | apply State.guardReg_kept | apply State.tcEpochHi_kept | apply Kept.foldl | apply Kept.foldl_fst) | split | dsimp only | with_reducible apply Kept.ite

theorem State.commitTimecode_kept {Q : List Instr} (s : State) (h0 : Kept Q s) :
    Kept Q (State.commitTimecode s) := by
  unfold State.commitTimecode
  try dsimp only
  repeat' first | intro _ | (with_reducible first | assumption | apply State.refuse_kept | apply State.raise_kept | apply Kept.foldl | apply Kept.foldl_fst) | (with_reducible refine Kept.mk rfl rfl rfl rfl ?_; with_reducible first | assumption | apply State.refuse_kept | apply State.raise_kept | apply Kept.foldl | apply Kept.foldl_fst) | split | dsimp only | with_reducible apply Kept.ite

theorem execWindowStartStrobe_kept {Q : List Instr} (s : State) (h0 : Kept Q s) :
    KeptOut Q (execWindowStartStrobe s) := by
  unfold execWindowStartStrobe
  try dsimp only
  repeat' first | intro _ | (with_reducible first | assumption | apply State.commitTimecode_kept | apply live_kept | apply Kept.foldl | apply Kept.foldl_fst | apply KeptOut.live | apply KeptOut.next) | (with_reducible refine Kept.mk rfl rfl rfl rfl ?_; with_reducible first | assumption | apply State.commitTimecode_kept | apply live_kept | apply Kept.foldl | apply Kept.foldl_fst) | split | dsimp only | with_reducible apply Kept.ite

theorem State.tick_kept {Q : List Instr} (s : State) (h0 : Kept Q s) :
    Kept Q (State.tick s) := by
  unfold State.tick
  dsimp only
  split
  · exact State.count_kept _ _ _ ⟨h0.1, h0.2.1, h0.2.2.1, h0.2.2.2.1, h0.2.2.2.2.1, h0.2.2.2.2.2.1, unsigned_lt 64 _⟩
  · exact ⟨h0.1, h0.2.1, h0.2.2.1, h0.2.2.2.1, h0.2.2.2.2.1, h0.2.2.2.2.2.1, unsigned_lt 64 _⟩

end Sys2Proof.Machine
end

