-- ==== Sys2Proof/Laws/KeptMotors.lean ====
section
/-! SUPPORT. Soundness is kept by every operation and meaning of Machine/Motors.lean. -/

namespace Sys2Proof.Machine

theorem State.setSp_kept {Q : List Instr} (s : State) (st : Nat) (h0 : Kept Q s) :
    Kept Q (State.setSp s st) := by
  unfold State.setSp
  try dsimp only
  repeat' first | intro _ | (with_reducible first | assumption | apply State.wr_kept | apply Kept.foldl | apply Kept.foldl_fst) | (with_reducible refine Kept.mk rfl rfl rfl rfl ?_; with_reducible first | assumption | apply State.wr_kept | apply Kept.foldl | apply Kept.foldl_fst) | split | dsimp only | with_reducible apply Kept.ite

theorem State.updSpin_kept {Q : List Instr} (s : State) (f : SpinSt → SpinSt) (h0 : Kept Q s) :
    Kept Q (State.updSpin s f) := by
  unfold State.updSpin
  try dsimp only
  repeat' first | intro _ | (with_reducible first | assumption | apply Kept.foldl | apply Kept.foldl_fst) | (with_reducible refine Kept.mk rfl rfl rfl rfl ?_; with_reducible first | assumption | apply Kept.foldl | apply Kept.foldl_fst) | split | dsimp only | with_reducible apply Kept.ite

theorem State.endTake_kept {Q : List Instr} (s : State) (h0 : Kept Q s) :
    Kept Q (State.endTake s) := by
  unfold State.endTake
  try dsimp only
  repeat' first | intro _ | (with_reducible first | assumption | apply State.setFlag_kept | apply State.updHd_kept | apply State.refresh_kept | apply Kept.foldl | apply Kept.foldl_fst) | (with_reducible refine Kept.mk rfl rfl rfl rfl ?_; with_reducible first | assumption | apply State.setFlag_kept | apply State.updHd_kept | apply State.refresh_kept | apply Kept.foldl | apply Kept.foldl_fst) | split | dsimp only | with_reducible apply Kept.ite

theorem State.dropClock_kept {Q : List Instr} (s : State) (h0 : Kept Q s) :
    Kept Q (State.dropClock s) := by
  unfold State.dropClock
  try dsimp only
  repeat' first | intro _ | (with_reducible first | assumption | apply State.updSpin_kept | apply State.setFlag_kept | apply State.wr_kept | apply Kept.foldl | apply Kept.foldl_fst) | (with_reducible refine Kept.mk rfl rfl rfl rfl ?_; with_reducible first | assumption | apply State.updSpin_kept | apply State.setFlag_kept | apply State.wr_kept | apply Kept.foldl | apply Kept.foldl_fst) | split | dsimp only | with_reducible apply Kept.ite

theorem State.spinOff_kept {Q : List Instr} (s : State) (st : Nat) (h0 : Kept Q s) :
    Kept Q (State.spinOff s st) := by
  unfold State.spinOff
  try dsimp only
  repeat' first | intro _ | (with_reducible first | assumption | apply State.endTake_kept | apply State.dropClock_kept | apply State.updSpin_kept | apply State.setSp_kept | apply State.slotStop_kept | apply Kept.foldl | apply Kept.foldl_fst) | (with_reducible refine Kept.mk rfl rfl rfl rfl ?_; with_reducible first | assumption | apply State.endTake_kept | apply State.dropClock_kept | apply State.updSpin_kept | apply State.setSp_kept | apply State.slotStop_kept | apply Kept.foldl | apply Kept.foldl_fst) | split | dsimp only | with_reducible apply Kept.ite

theorem State.spinFault_kept {Q : List Instr} (s : State) (cause : Nat) (h0 : Kept Q s) :
    Kept Q (State.spinFault s cause) := by
  unfold State.spinFault
  try dsimp only
  repeat' first | intro _ | (with_reducible first | assumption | apply State.spinOff_kept | apply State.wr_kept | apply Kept.foldl | apply Kept.foldl_fst) | (with_reducible refine Kept.mk rfl rfl rfl rfl ?_; with_reducible first | assumption | apply State.spinOff_kept | apply State.wr_kept | apply Kept.foldl | apply Kept.foldl_fst) | split | dsimp only | with_reducible apply Kept.ite

theorem State.spinRefuse_kept {Q : List Instr} (s : State) (h0 : Kept Q s) :
    Kept Q (State.spinRefuse s) := by
  unfold State.spinRefuse
  try dsimp only
  repeat' first | intro _ | (with_reducible first | assumption | apply State.raise_kept | apply Kept.foldl | apply Kept.foldl_fst) | (with_reducible refine Kept.mk rfl rfl rfl rfl ?_; with_reducible first | assumption | apply State.raise_kept | apply Kept.foldl | apply Kept.foldl_fst) | split | dsimp only | with_reducible apply Kept.ite

theorem State.spinRamp_kept {Q : List Instr} (s : State) (h0 : Kept Q s) :
    Kept Q (State.spinRamp s) := by
  unfold State.spinRamp
  try dsimp only
  repeat' first | intro _ | (with_reducible first | assumption | apply State.endTake_kept | apply State.updSpin_kept | apply State.setSp_kept | apply Kept.foldl | apply Kept.foldl_fst) | (with_reducible refine Kept.mk rfl rfl rfl rfl ?_; with_reducible first | assumption | apply State.endTake_kept | apply State.updSpin_kept | apply State.setSp_kept | apply Kept.foldl | apply Kept.foldl_fst) | split | dsimp only | with_reducible apply Kept.ite

theorem State.spinCheck_kept {Q : List Instr} (s : State) (h0 : Kept Q s) :
    Kept Q (State.spinCheck s) := by
  unfold State.spinCheck
  try dsimp only
  repeat' first | intro _ | (with_reducible first | assumption | apply State.spinOff_kept | apply State.wr_kept | apply State.updSpin_kept | apply Kept.foldl | apply Kept.foldl_fst) | (with_reducible refine Kept.mk rfl rfl rfl rfl ?_; with_reducible first | assumption | apply State.spinOff_kept | apply State.wr_kept | apply State.updSpin_kept | apply Kept.foldl | apply Kept.foldl_fst) | split | dsimp only | with_reducible apply Kept.ite

theorem State.spinStart_kept {Q : List Instr} (s : State) (slow : Bool) (h0 : Kept Q s) :
    Kept Q (State.spinStart s slow) := by
  unfold State.spinStart
  try dsimp only
  repeat' first | intro _ | (with_reducible first | assumption | apply State.spinRefuse_kept | apply State.setFlag_kept | apply State.spinRamp_kept | apply State.spinCheck_kept | apply Kept.foldl | apply Kept.foldl_fst) | (with_reducible refine Kept.mk rfl rfl rfl rfl ?_; with_reducible first | assumption | apply State.spinRefuse_kept | apply State.setFlag_kept | apply State.spinRamp_kept | apply State.spinCheck_kept | apply Kept.foldl | apply Kept.foldl_fst) | split | dsimp only | with_reducible apply Kept.ite

theorem State.spinChange_kept {Q : List Instr} (s : State) (slow : Bool) (h0 : Kept Q s) :
    Kept Q (State.spinChange s slow) := by
  unfold State.spinChange
  try dsimp only
  repeat' first | intro _ | (with_reducible first | assumption | apply State.setFlag_kept | apply State.spinRamp_kept | apply State.spinRefuse_kept | apply Kept.foldl | apply Kept.foldl_fst) | (with_reducible refine Kept.mk rfl rfl rfl rfl ?_; with_reducible first | assumption | apply State.setFlag_kept | apply State.spinRamp_kept | apply State.spinRefuse_kept | apply Kept.foldl | apply Kept.foldl_fst) | split | dsimp only | with_reducible apply Kept.ite

theorem State.spinStop_kept {Q : List Instr} (s : State) (h0 : Kept Q s) :
    Kept Q (State.spinStop s) := by
  unfold State.spinStop
  try dsimp only
  repeat' first | intro _ | (with_reducible first | assumption | apply State.spinOff_kept | apply State.endTake_kept | apply State.setSp_kept | apply Kept.foldl | apply Kept.foldl_fst) | (with_reducible refine Kept.mk rfl rfl rfl rfl ?_; with_reducible first | assumption | apply State.spinOff_kept | apply State.endTake_kept | apply State.setSp_kept | apply Kept.foldl | apply Kept.foldl_fst) | split | dsimp only | with_reducible apply Kept.ite

theorem State.spinBrake_kept {Q : List Instr} (s : State) (h0 : Kept Q s) :
    Kept Q (State.spinBrake s) := by
  unfold State.spinBrake
  try dsimp only
  repeat' first | intro _ | (with_reducible first | assumption | apply State.spinOff_kept | apply State.updSpin_kept | apply Kept.foldl | apply Kept.foldl_fst) | (with_reducible refine Kept.mk rfl rfl rfl rfl ?_; with_reducible first | assumption | apply State.spinOff_kept | apply State.updSpin_kept | apply Kept.foldl | apply Kept.foldl_fst) | split | dsimp only | with_reducible apply Kept.ite

theorem State.spinCoast_kept {Q : List Instr} (s : State) (h0 : Kept Q s) :
    Kept Q (State.spinCoast s) := by
  unfold State.spinCoast
  try dsimp only
  repeat' first | intro _ | (with_reducible first | assumption | apply State.spinOff_kept | apply Kept.foldl | apply Kept.foldl_fst) | (with_reducible refine Kept.mk rfl rfl rfl rfl ?_; with_reducible first | assumption | apply State.spinOff_kept | apply Kept.foldl | apply Kept.foldl_fst) | split | dsimp only | with_reducible apply Kept.ite

theorem State.spCommand_kept {Q : List Instr} (s : State) (cmd : Nat) (slow : Bool) (h0 : Kept Q s) :
    Kept Q (State.spCommand s cmd slow) := by
  unfold State.spCommand
  try dsimp only
  repeat' first | intro _ | (with_reducible first | assumption | apply State.spinStart_kept | apply State.spinChange_kept | apply State.spinStop_kept | apply State.spinBrake_kept | apply State.spinCoast_kept | apply State.spinRefuse_kept | apply Kept.foldl | apply Kept.foldl_fst) | (with_reducible refine Kept.mk rfl rfl rfl rfl ?_; with_reducible first | assumption | apply State.spinStart_kept | apply State.spinChange_kept | apply State.spinStop_kept | apply State.spinBrake_kept | apply State.spinCoast_kept | apply State.spinRefuse_kept | apply Kept.foldl | apply Kept.foldl_fst) | split | dsimp only | with_reducible apply Kept.ite

theorem State.spWrite_kept {Q : List Instr} (s : State) (r : Requester) (cmd : Nat) (slow : Bool) (h0 : Kept Q s) :
    Kept Q (State.spWrite s r cmd slow) := by
  unfold State.spWrite
  try dsimp only
  repeat' first | intro _ | (with_reducible first | assumption | apply State.guardReg_kept | apply State.spCommand_kept | apply Kept.foldl | apply Kept.foldl_fst) | (with_reducible refine Kept.mk rfl rfl rfl rfl ?_; with_reducible first | assumption | apply State.guardReg_kept | apply State.spCommand_kept | apply Kept.foldl | apply Kept.foldl_fst) | split | dsimp only | with_reducible apply Kept.ite

theorem execSpinStart_kept {Q : List Instr} (r : Requester) (slow : Bool) (s : State) (h0 : Kept Q s) :
    KeptOut Q (execSpinStart r slow s) := by
  unfold execSpinStart
  try dsimp only
  repeat' first | intro _ | (with_reducible first | assumption | apply live_kept | apply State.spWrite_kept | apply Kept.foldl | apply Kept.foldl_fst | apply KeptOut.live | apply KeptOut.next) | (with_reducible refine Kept.mk rfl rfl rfl rfl ?_; with_reducible first | assumption | apply live_kept | apply State.spWrite_kept | apply Kept.foldl | apply Kept.foldl_fst) | split | dsimp only | with_reducible apply Kept.ite

theorem execSpinChange_kept {Q : List Instr} (r : Requester) (slow : Bool) (s : State) (h0 : Kept Q s) :
    KeptOut Q (execSpinChange r slow s) := by
  unfold execSpinChange
  try dsimp only
  repeat' first | intro _ | (with_reducible first | assumption | apply live_kept | apply State.spWrite_kept | apply Kept.foldl | apply Kept.foldl_fst | apply KeptOut.live | apply KeptOut.next) | (with_reducible refine Kept.mk rfl rfl rfl rfl ?_; with_reducible first | assumption | apply live_kept | apply State.spWrite_kept | apply Kept.foldl | apply Kept.foldl_fst) | split | dsimp only | with_reducible apply Kept.ite

theorem execSpinStop_kept {Q : List Instr} (r : Requester) (s : State) (h0 : Kept Q s) :
    KeptOut Q (execSpinStop r s) := by
  unfold execSpinStop
  try dsimp only
  repeat' first | intro _ | (with_reducible first | assumption | apply live_kept | apply State.spWrite_kept | apply Kept.foldl | apply Kept.foldl_fst | apply KeptOut.live | apply KeptOut.next) | (with_reducible refine Kept.mk rfl rfl rfl rfl ?_; with_reducible first | assumption | apply live_kept | apply State.spWrite_kept | apply Kept.foldl | apply Kept.foldl_fst) | split | dsimp only | with_reducible apply Kept.ite

theorem execSpinShortBrake_kept {Q : List Instr} (r : Requester) (s : State) (h0 : Kept Q s) :
    KeptOut Q (execSpinShortBrake r s) := by
  unfold execSpinShortBrake
  try dsimp only
  repeat' first | intro _ | (with_reducible first | assumption | apply live_kept | apply State.spWrite_kept | apply Kept.foldl | apply Kept.foldl_fst | apply KeptOut.live | apply KeptOut.next) | (with_reducible refine Kept.mk rfl rfl rfl rfl ?_; with_reducible first | assumption | apply live_kept | apply State.spWrite_kept | apply Kept.foldl | apply Kept.foldl_fst) | split | dsimp only | with_reducible apply Kept.ite

theorem execSpinCoast_kept {Q : List Instr} (r : Requester) (s : State) (h0 : Kept Q s) :
    KeptOut Q (execSpinCoast r s) := by
  unfold execSpinCoast
  try dsimp only
  repeat' first | intro _ | (with_reducible first | assumption | apply live_kept | apply State.spWrite_kept | apply Kept.foldl | apply Kept.foldl_fst | apply KeptOut.live | apply KeptOut.next) | (with_reducible refine Kept.mk rfl rfl rfl rfl ?_; with_reducible first | assumption | apply live_kept | apply State.spWrite_kept | apply Kept.foldl | apply Kept.foldl_fst) | split | dsimp only | with_reducible apply Kept.ite

theorem State.spinShow_kept {Q : List Instr} (s : State) (count speed : Nat) (angle : Option Nat) (h0 : Kept Q s) :
    Kept Q (State.spinShow s count speed angle) := by
  unfold State.spinShow
  try dsimp only
  repeat' first | intro _ | (with_reducible first | assumption | apply State.wr_kept | apply State.count_kept | apply State.setFlag_kept | apply Kept.foldl | apply Kept.foldl_fst) | (with_reducible refine Kept.mk rfl rfl rfl rfl ?_; with_reducible first | assumption | apply State.wr_kept | apply State.count_kept | apply State.setFlag_kept | apply Kept.foldl | apply Kept.foldl_fst) | split | dsimp only | with_reducible apply Kept.ite

theorem execSpindleTick_kept {Q : List Instr} (ia ib ic : Int) (count : Fin 4096) (speed : Nat) (angle : Option (Fin 262144)) (s : State) (h0 : Kept Q s) :
    KeptOut Q (execSpindleTick ia ib ic count speed angle s) := by
  unfold execSpindleTick
  try dsimp only
  repeat' first | intro _ | (with_reducible first | assumption | apply State.spinShow_kept | apply State.count_kept | apply State.updSpin_kept | apply live_kept | apply State.raise_kept | apply State.spinFault_kept | apply Kept.foldl | apply Kept.foldl_fst | apply KeptOut.live | apply KeptOut.next) | (with_reducible refine Kept.mk rfl rfl rfl rfl ?_; with_reducible first | assumption | apply State.spinShow_kept | apply State.count_kept | apply State.updSpin_kept | apply live_kept | apply State.raise_kept | apply State.spinFault_kept | apply Kept.foldl | apply Kept.foldl_fst) | split | dsimp only | with_reducible apply Kept.ite

theorem execSpinRestDetected_kept {Q : List Instr} (s : State) (h0 : Kept Q s) :
    KeptOut Q (execSpinRestDetected s) := by
  unfold execSpinRestDetected
  try dsimp only
  repeat' first | intro _ | (with_reducible first | assumption | apply live_kept | apply State.setSp_kept | apply State.spinOff_kept | apply State.raise_kept | apply Kept.foldl | apply Kept.foldl_fst | apply KeptOut.live | apply KeptOut.next) | (with_reducible refine Kept.mk rfl rfl rfl rfl ?_; with_reducible first | assumption | apply live_kept | apply State.setSp_kept | apply State.spinOff_kept | apply State.raise_kept | apply Kept.foldl | apply Kept.foldl_fst) | split | dsimp only | with_reducible apply Kept.ite

theorem execSpinAlignDone_kept {Q : List Instr} (cs : List Nat) (s : State) (h0 : Kept Q s) :
    KeptOut Q (execSpinAlignDone cs s) := by
  unfold execSpinAlignDone
  try dsimp only
  repeat' first | intro _ | (with_reducible first | assumption | apply State.updSpin_kept | apply State.wr_kept | apply live_kept | apply State.setSp_kept | apply State.slotStart_kept | apply State.count_kept | apply State.raise_kept | apply State.spinFault_kept | apply Kept.foldl | apply Kept.foldl_fst | apply KeptOut.live | apply KeptOut.next) | (with_reducible refine Kept.mk rfl rfl rfl rfl ?_; with_reducible first | assumption | apply State.updSpin_kept | apply State.wr_kept | apply live_kept | apply State.setSp_kept | apply State.slotStart_kept | apply State.count_kept | apply State.raise_kept | apply State.spinFault_kept | apply Kept.foldl | apply Kept.foldl_fst) | split | dsimp only | with_reducible apply Kept.ite

theorem execSpinEncoderTimeout_kept {Q : List Instr} (reverse : Bool) (s : State) (h0 : Kept Q s) :
    KeptOut Q (execSpinEncoderTimeout reverse s) := by
  unfold execSpinEncoderTimeout
  try dsimp only
  repeat' first | intro _ | (with_reducible first | assumption | apply live_kept | apply State.setSp_kept | apply State.updSpin_kept | apply State.raise_kept | apply State.spinFault_kept | apply Kept.foldl | apply Kept.foldl_fst | apply KeptOut.live | apply KeptOut.next) | (with_reducible refine Kept.mk rfl rfl rfl rfl ?_; with_reducible first | assumption | apply live_kept | apply State.setSp_kept | apply State.updSpin_kept | apply State.raise_kept | apply State.spinFault_kept | apply Kept.foldl | apply Kept.foldl_fst) | split | dsimp only | with_reducible apply Kept.ite

theorem State.takeWith_kept {Q : List Instr} (s : State) (h : Nat) (h0 : Kept Q s) :
    Kept Q (State.takeWith s h) := by
  unfold State.takeWith
  try dsimp only
  repeat' first | intro _ | (with_reducible first | assumption | apply State.updSpin_kept | apply State.beginAcquire_kept | apply Kept.foldl | apply Kept.foldl_fst) | (with_reducible refine Kept.mk rfl rfl rfl rfl ?_; with_reducible first | assumption | apply State.updSpin_kept | apply State.beginAcquire_kept | apply Kept.foldl | apply Kept.foldl_fst) | split | dsimp only | with_reducible apply Kept.ite

theorem execSpinSpeedReached_kept {Q : List Instr} (s : State) (h0 : Kept Q s) :
    KeptOut Q (execSpinSpeedReached s) := by
  unfold execSpinSpeedReached
  try dsimp only
  repeat' first | intro _ | (with_reducible first | assumption | apply live_kept | apply State.setSp_kept | apply State.updSpin_kept | apply State.takeWith_kept | apply Kept.foldl | apply Kept.foldl_fst | apply KeptOut.live | apply KeptOut.next) | (with_reducible refine Kept.mk rfl rfl rfl rfl ?_; with_reducible first | assumption | apply live_kept | apply State.setSp_kept | apply State.updSpin_kept | apply State.takeWith_kept | apply Kept.foldl | apply Kept.foldl_fst) | split | dsimp only | with_reducible apply Kept.ite

theorem State.nextTake_kept {Q : List Instr} (s : State) (h0 : Kept Q s) :
    Kept Q (State.nextTake s) := by
  unfold State.nextTake
  try dsimp only
  repeat' first | intro _ | (with_reducible first | assumption | apply State.takeWith_kept | apply State.setSp_kept | apply State.updSpin_kept | apply State.spCommand_kept | apply State.load_kept | apply State.endOp_kept | apply State.wr_kept | apply State.raise_kept | apply Kept.foldl | apply Kept.foldl_fst) | (with_reducible refine Kept.mk rfl rfl rfl rfl ?_; with_reducible first | assumption | apply State.takeWith_kept | apply State.setSp_kept | apply State.updSpin_kept | apply State.spCommand_kept | apply State.load_kept | apply State.endOp_kept | apply State.wr_kept | apply State.raise_kept | apply Kept.foldl | apply Kept.foldl_fst) | split | dsimp only | with_reducible apply Kept.ite

theorem execClockTakeDone_kept {Q : List Instr} (ok : Bool) (index : Fin 4096) (s : State) (h0 : Kept Q s) :
    KeptOut Q (execClockTakeDone ok index s) := by
  unfold execClockTakeDone
  try dsimp only
  repeat' first | intro _ | (with_reducible first | assumption | apply State.lockSynth_kept | apply State.setFlag_kept | apply State.wr_kept | apply State.updHd_kept | apply State.updSpin_kept | apply live_kept | apply State.raise_kept | apply State.setSp_kept | apply State.seqFault_kept | apply State.nextTake_kept | apply Kept.foldl | apply Kept.foldl_fst | apply KeptOut.live | apply KeptOut.next) | (with_reducible refine Kept.mk rfl rfl rfl rfl ?_; with_reducible first | assumption | apply State.lockSynth_kept | apply State.setFlag_kept | apply State.wr_kept | apply State.updHd_kept | apply State.updSpin_kept | apply live_kept | apply State.raise_kept | apply State.setSp_kept | apply State.seqFault_kept | apply State.nextTake_kept | apply Kept.foldl | apply Kept.foldl_fst) | split | dsimp only | with_reducible apply Kept.ite

theorem execSpeedErrorPersist_kept {Q : List Instr} (s : State) (h0 : Kept Q s) :
    KeptOut Q (execSpeedErrorPersist s) := by
  unfold execSpeedErrorPersist
  try dsimp only
  repeat' first | intro _ | (with_reducible first | assumption | apply live_kept | apply State.raise_kept | apply Kept.foldl | apply Kept.foldl_fst | apply KeptOut.live | apply KeptOut.next) | (with_reducible refine Kept.mk rfl rfl rfl rfl ?_; with_reducible first | assumption | apply live_kept | apply State.raise_kept | apply Kept.foldl | apply Kept.foldl_fst) | split | dsimp only | with_reducible apply Kept.ite

theorem State.vmotSample_kept {Q : List Instr} (s : State) (mv : Nat) (h0 : Kept Q s) :
    Kept Q (State.vmotSample s mv) := by
  unfold State.vmotSample
  try dsimp only
  repeat' first | intro _ | (with_reducible first | assumption | apply State.wr_kept | apply Kept.foldl | apply Kept.foldl_fst) | (with_reducible refine Kept.mk rfl rfl rfl rfl ?_; with_reducible first | assumption | apply State.wr_kept | apply Kept.foldl | apply Kept.foldl_fst) | split | dsimp only | with_reducible apply Kept.ite

theorem execVmotRegencut_kept {Q : List Instr} (mv : Nat) (s : State) (h0 : Kept Q s) :
    KeptOut Q (execVmotRegencut mv s) := by
  unfold execVmotRegencut
  try dsimp only
  repeat' first | intro _ | (with_reducible first | assumption | apply live_kept | apply State.vmotSample_kept | apply State.setFlag_kept | apply State.raise_kept | apply Kept.foldl | apply Kept.foldl_fst | apply KeptOut.live | apply KeptOut.next) | (with_reducible refine Kept.mk rfl rfl rfl rfl ?_; with_reducible first | assumption | apply live_kept | apply State.vmotSample_kept | apply State.setFlag_kept | apply State.raise_kept | apply Kept.foldl | apply Kept.foldl_fst) | split | dsimp only | with_reducible apply Kept.ite

theorem execVmotBrake_kept {Q : List Instr} (mv : Nat) (s : State) (h0 : Kept Q s) :
    KeptOut Q (execVmotBrake mv s) := by
  unfold execVmotBrake
  try dsimp only
  repeat' first | intro _ | (with_reducible first | assumption | apply State.updSpin_kept | apply State.setSp_kept | apply live_kept | apply State.vmotSample_kept | apply State.setFlag_kept | apply State.raise_kept | apply Kept.foldl | apply Kept.foldl_fst | apply KeptOut.live | apply KeptOut.next) | (with_reducible refine Kept.mk rfl rfl rfl rfl ?_; with_reducible first | assumption | apply State.updSpin_kept | apply State.setSp_kept | apply live_kept | apply State.vmotSample_kept | apply State.setFlag_kept | apply State.raise_kept | apply Kept.foldl | apply Kept.foldl_fst) | split | dsimp only | with_reducible apply Kept.ite

theorem execVmotWatchRelease_kept {Q : List Instr} (mv : Nat) (s : State) (h0 : Kept Q s) :
    KeptOut Q (execVmotWatchRelease mv s) := by
  unfold execVmotWatchRelease
  try dsimp only
  repeat' first | intro _ | (with_reducible first | assumption | apply State.vmotSample_kept | apply State.setFlag_kept | apply live_kept | apply State.updSpin_kept | apply State.setSp_kept | apply Kept.foldl | apply Kept.foldl_fst | apply KeptOut.live | apply KeptOut.next) | (with_reducible refine Kept.mk rfl rfl rfl rfl ?_; with_reducible first | assumption | apply State.vmotSample_kept | apply State.setFlag_kept | apply live_kept | apply State.updSpin_kept | apply State.setSp_kept | apply Kept.foldl | apply Kept.foldl_fst) | split | dsimp only | with_reducible apply Kept.ite

theorem execVmotOver_kept {Q : List Instr} (mv : Nat) (s : State) (h0 : Kept Q s) :
    KeptOut Q (execVmotOver mv s) := by
  unfold execVmotOver
  try dsimp only
  repeat' first | intro _ | (with_reducible first | assumption | apply live_kept | apply State.vmotSample_kept | apply State.setFlag_kept | apply State.raise_kept | apply Kept.foldl | apply Kept.foldl_fst | apply KeptOut.live | apply KeptOut.next) | (with_reducible refine Kept.mk rfl rfl rfl rfl ?_; with_reducible first | assumption | apply live_kept | apply State.vmotSample_kept | apply State.setFlag_kept | apply State.raise_kept | apply Kept.foldl | apply Kept.foldl_fst) | split | dsimp only | with_reducible apply Kept.ite

theorem execVmotUvwarn_kept {Q : List Instr} (mv : Nat) (s : State) (h0 : Kept Q s) :
    KeptOut Q (execVmotUvwarn mv s) := by
  unfold execVmotUvwarn
  try dsimp only
  repeat' first | intro _ | (with_reducible first | assumption | apply live_kept | apply State.vmotSample_kept | apply State.setFlag_kept | apply State.raise_kept | apply Kept.foldl | apply Kept.foldl_fst | apply KeptOut.live | apply KeptOut.next) | (with_reducible refine Kept.mk rfl rfl rfl rfl ?_; with_reducible first | assumption | apply live_kept | apply State.vmotSample_kept | apply State.setFlag_kept | apply State.raise_kept | apply Kept.foldl | apply Kept.foldl_fst) | split | dsimp only | with_reducible apply Kept.ite

theorem State.vcmRamp_kept {Q : List Instr} (s : State) (n : Nat) (h0 : Kept Q s) :
    Kept Q (State.vcmRamp s n) := by
  unfold State.vcmRamp
  try dsimp only
  repeat' first | intro _ | (with_reducible first | assumption | apply State.setFlag_kept | apply Kept.foldl | apply Kept.foldl_fst) | (with_reducible refine Kept.mk rfl rfl rfl rfl ?_; with_reducible first | assumption | apply State.setFlag_kept | apply Kept.foldl | apply Kept.foldl_fst) | split | dsimp only | with_reducible apply Kept.ite

theorem State.updStep_kept {Q : List Instr} (s : State) (n : Nat) (f : StepSt → StepSt) (h0 : Kept Q s) :
    Kept Q (State.updStep s n f) := by
  unfold State.updStep
  try dsimp only
  repeat' first | intro _ | (with_reducible first | assumption | apply Kept.foldl | apply Kept.foldl_fst) | (with_reducible refine Kept.mk rfl rfl rfl rfl ?_; with_reducible first | assumption | apply Kept.foldl | apply Kept.foldl_fst) | split | dsimp only | with_reducible apply Kept.ite

theorem State.stepOff_kept {Q : List Instr} (s : State) (n : Nat) (h0 : Kept Q s) :
    Kept Q (State.stepOff s n) := by
  unfold State.stepOff
  try dsimp only
  repeat' first | intro _ | (with_reducible first | assumption | apply State.updStep_kept | apply State.setFlag_kept | apply Kept.foldl | apply Kept.foldl_fst) | (with_reducible refine Kept.mk rfl rfl rfl rfl ?_; with_reducible first | assumption | apply State.updStep_kept | apply State.setFlag_kept | apply Kept.foldl | apply Kept.foldl_fst) | split | dsimp only | with_reducible apply Kept.ite

theorem execVmotUvfault_kept {Q : List Instr} (mv : Nat) (s : State) (h0 : Kept Q s) :
    KeptOut Q (execVmotUvfault mv s) := by
  unfold execVmotUvfault
  try dsimp only
  repeat' first | intro _ | (with_reducible first | assumption | apply State.vmotSample_kept | apply State.setFlag_kept | apply State.raise_kept | apply State.spinFault_kept | apply State.stepOff_kept | apply State.release_kept | apply live_kept | apply State.vcmRamp_kept | apply Kept.foldl | apply Kept.foldl_fst | apply KeptOut.live | apply KeptOut.next) | (with_reducible refine Kept.mk rfl rfl rfl rfl ?_; with_reducible first | assumption | apply State.vmotSample_kept | apply State.setFlag_kept | apply State.raise_kept | apply State.spinFault_kept | apply State.stepOff_kept | apply State.release_kept | apply live_kept | apply State.vcmRamp_kept | apply Kept.foldl | apply Kept.foldl_fst) | split | dsimp only | with_reducible apply Kept.ite

theorem State.stStore_kept {Q : List Instr} (s : State) (n v : Nat) (h0 : Kept Q s) :
    Kept Q (State.stStore s n v) := by
  unfold State.stStore
  try dsimp only
  repeat' first | intro _ | (with_reducible first | assumption | apply State.storeReg_kept | apply State.stepOff_kept | apply Kept.foldl | apply Kept.foldl_fst) | (with_reducible refine Kept.mk rfl rfl rfl rfl ?_; with_reducible first | assumption | apply State.storeReg_kept | apply State.stepOff_kept | apply Kept.foldl | apply Kept.foldl_fst) | split | dsimp only | with_reducible apply Kept.ite

theorem State.stModeStop_kept {Q : List Instr} (s : State) (n v : Nat) (h0 : Kept Q s) :
    Kept Q (State.stModeStop s n v) := by
  unfold State.stModeStop
  try dsimp only
  repeat' first | intro _ | (with_reducible first | assumption | apply State.stStore_kept | apply Kept.foldl | apply Kept.foldl_fst) | (with_reducible refine Kept.mk rfl rfl rfl rfl ?_; with_reducible first | assumption | apply State.stStore_kept | apply Kept.foldl | apply Kept.foldl_fst) | split | dsimp only | with_reducible apply Kept.ite

theorem State.beginMove_kept {Q : List Instr} (s : State) (n : Nat) (h0 : Kept Q s) :
    Kept Q (State.beginMove s n) := by
  unfold State.beginMove
  try dsimp only
  repeat' first | intro _ | (with_reducible first | assumption | apply State.setFlag_kept | apply State.raise_kept | apply State.updStep_kept | apply Kept.foldl | apply Kept.foldl_fst) | (with_reducible refine Kept.mk rfl rfl rfl rfl ?_; with_reducible first | assumption | apply State.setFlag_kept | apply State.raise_kept | apply State.updStep_kept | apply Kept.foldl | apply Kept.foldl_fst) | split | dsimp only | with_reducible apply Kept.ite

theorem State.stModeMove_kept {Q : List Instr} (s : State) (n v : Nat) (h0 : Kept Q s) :
    Kept Q (State.stModeMove s n v) := by
  unfold State.stModeMove
  try dsimp only
  repeat' first | intro _ | (with_reducible first | assumption | apply State.raise_kept | apply State.stStore_kept | apply State.beginMove_kept | apply Kept.foldl | apply Kept.foldl_fst) | (with_reducible refine Kept.mk rfl rfl rfl rfl ?_; with_reducible first | assumption | apply State.raise_kept | apply State.stStore_kept | apply State.beginMove_kept | apply Kept.foldl | apply Kept.foldl_fst) | split | dsimp only | with_reducible apply Kept.ite

theorem State.stModeGear_kept {Q : List Instr} (s : State) (n v : Nat) (h0 : Kept Q s) :
    Kept Q (State.stModeGear s n v) := by
  unfold State.stModeGear
  try dsimp only
  repeat' first | intro _ | (with_reducible first | assumption | apply State.raise_kept | apply State.stStore_kept | apply State.updStep_kept | apply State.setFlag_kept | apply Kept.foldl | apply Kept.foldl_fst) | (with_reducible refine Kept.mk rfl rfl rfl rfl ?_; with_reducible first | assumption | apply State.raise_kept | apply State.stStore_kept | apply State.updStep_kept | apply State.setFlag_kept | apply Kept.foldl | apply Kept.foldl_fst) | split | dsimp only | with_reducible apply Kept.ite

theorem State.stCtrl_kept {Q : List Instr} (s : State) (n v : Nat) (h0 : Kept Q s) :
    Kept Q (State.stCtrl s n v) := by
  unfold State.stCtrl
  try dsimp only
  repeat' first | intro _ | (with_reducible first | assumption | apply State.stModeMove_kept | apply State.stModeGear_kept | apply State.stModeStop_kept | apply Kept.foldl | apply Kept.foldl_fst) | (with_reducible refine Kept.mk rfl rfl rfl rfl ?_; with_reducible first | assumption | apply State.stModeMove_kept | apply State.stModeGear_kept | apply State.stModeStop_kept | apply Kept.foldl | apply Kept.foldl_fst) | split | dsimp only | with_reducible apply Kept.ite

theorem execStepModeStop_kept {Q : List Instr} (r : Requester) (n : Fin 5) (enable : Bool) (s : State) (h0 : Kept Q s) :
    KeptOut Q (execStepModeStop r n enable s) := by
  unfold execStepModeStop
  try dsimp only
  repeat' first | intro _ | (with_reducible first | assumption | apply live_kept | apply State.guardReg_kept | apply State.stModeStop_kept | apply Kept.foldl | apply Kept.foldl_fst | apply KeptOut.live | apply KeptOut.next) | (with_reducible refine Kept.mk rfl rfl rfl rfl ?_; with_reducible first | assumption | apply live_kept | apply State.guardReg_kept | apply State.stModeStop_kept | apply Kept.foldl | apply Kept.foldl_fst) | split | dsimp only | with_reducible apply Kept.ite

theorem execStepModeMove_kept {Q : List Instr} (r : Requester) (n : Fin 5) (enable : Bool) (s : State) (h0 : Kept Q s) :
    KeptOut Q (execStepModeMove r n enable s) := by
  unfold execStepModeMove
  try dsimp only
  repeat' first | intro _ | (with_reducible first | assumption | apply live_kept | apply State.guardReg_kept | apply State.stModeMove_kept | apply Kept.foldl | apply Kept.foldl_fst | apply KeptOut.live | apply KeptOut.next) | (with_reducible refine Kept.mk rfl rfl rfl rfl ?_; with_reducible first | assumption | apply live_kept | apply State.guardReg_kept | apply State.stModeMove_kept | apply Kept.foldl | apply Kept.foldl_fst) | split | dsimp only | with_reducible apply Kept.ite

theorem execStepModeGear_kept {Q : List Instr} (r : Requester) (n : Fin 5) (enable : Bool) (s : State) (h0 : Kept Q s) :
    KeptOut Q (execStepModeGear r n enable s) := by
  unfold execStepModeGear
  try dsimp only
  repeat' first | intro _ | (with_reducible first | assumption | apply live_kept | apply State.guardReg_kept | apply State.stModeGear_kept | apply Kept.foldl | apply Kept.foldl_fst | apply KeptOut.live | apply KeptOut.next) | (with_reducible refine Kept.mk rfl rfl rfl rfl ?_; with_reducible first | assumption | apply live_kept | apply State.guardReg_kept | apply State.stModeGear_kept | apply Kept.foldl | apply Kept.foldl_fst) | split | dsimp only | with_reducible apply Kept.ite

theorem State.stTarget_kept {Q : List Instr} (s : State) (n v : Nat) (h0 : Kept Q s) :
    Kept Q (State.stTarget s n v) := by
  unfold State.stTarget
  try dsimp only
  repeat' first | intro _ | (with_reducible first | assumption | apply State.wr_kept | apply State.beginMove_kept | apply Kept.foldl | apply Kept.foldl_fst) | (with_reducible refine Kept.mk rfl rfl rfl rfl ?_; with_reducible first | assumption | apply State.wr_kept | apply State.beginMove_kept | apply Kept.foldl | apply Kept.foldl_fst) | split | dsimp only | with_reducible apply Kept.ite

theorem execSttargetWrite_kept {Q : List Instr} (r : Requester) (n : Fin 5) (v : Word) (s : State) (h0 : Kept Q s) :
    KeptOut Q (execSttargetWrite r n v s) := by
  unfold execSttargetWrite
  try dsimp only
  repeat' first | intro _ | (with_reducible first | assumption | apply live_kept | apply State.guardReg_kept | apply State.stTarget_kept | apply Kept.foldl | apply Kept.foldl_fst | apply KeptOut.live | apply KeptOut.next) | (with_reducible refine Kept.mk rfl rfl rfl rfl ?_; with_reducible first | assumption | apply live_kept | apply State.guardReg_kept | apply State.stTarget_kept | apply Kept.foldl | apply Kept.foldl_fst) | split | dsimp only | with_reducible apply Kept.ite

theorem State.stPos_kept {Q : List Instr} (s : State) (n v : Nat) (h0 : Kept Q s) :
    Kept Q (State.stPos s n v) := by
  unfold State.stPos
  try dsimp only
  repeat' first | intro _ | (with_reducible first | assumption | apply State.wr_kept | apply State.updStep_kept | apply Kept.foldl | apply Kept.foldl_fst) | (with_reducible refine Kept.mk rfl rfl rfl rfl ?_; with_reducible first | assumption | apply State.wr_kept | apply State.updStep_kept | apply Kept.foldl | apply Kept.foldl_fst) | split | dsimp only | with_reducible apply Kept.ite

theorem execStposWrite_kept {Q : List Instr} (r : Requester) (n : Fin 5) (v : Word) (s : State) (h0 : Kept Q s) :
    KeptOut Q (execStposWrite r n v s) := by
  unfold execStposWrite
  try dsimp only
  repeat' first | intro _ | (with_reducible first | assumption | apply live_kept | apply State.guardReg_kept | apply State.stPos_kept | apply Kept.foldl | apply Kept.foldl_fst | apply KeptOut.live | apply KeptOut.next) | (with_reducible refine Kept.mk rfl rfl rfl rfl ?_; with_reducible first | assumption | apply live_kept | apply State.guardReg_kept | apply State.stPos_kept | apply Kept.foldl | apply Kept.foldl_fst) | split | dsimp only | with_reducible apply Kept.ite

theorem State.stTable_kept {Q : List Instr} (s : State) (n v : Nat) (h0 : Kept Q s) :
    Kept Q (State.stTable s n v) := by
  unfold State.stTable
  try dsimp only
  repeat' first | intro _ | (with_reducible first | assumption | apply State.wr_kept | apply State.raise_kept | apply Kept.foldl | apply Kept.foldl_fst) | (with_reducible refine Kept.mk rfl rfl rfl rfl ?_; with_reducible first | assumption | apply State.wr_kept | apply State.raise_kept | apply Kept.foldl | apply Kept.foldl_fst) | split | dsimp only | with_reducible apply Kept.ite

theorem execSttdataWrite_kept {Q : List Instr} (r : Requester) (n : Fin 5) (v : Word) (s : State) (h0 : Kept Q s) :
    KeptOut Q (execSttdataWrite r n v s) := by
  unfold execSttdataWrite
  try dsimp only
  repeat' first | intro _ | (with_reducible first | assumption | apply live_kept | apply State.guardReg_kept | apply State.stTable_kept | apply Kept.foldl | apply Kept.foldl_fst | apply KeptOut.live | apply KeptOut.next) | (with_reducible refine Kept.mk rfl rfl rfl rfl ?_; with_reducible first | assumption | apply live_kept | apply State.guardReg_kept | apply State.stTable_kept | apply Kept.foldl | apply Kept.foldl_fst) | split | dsimp only | with_reducible apply Kept.ite

theorem State.gearAdd_kept {Q : List Instr} (s : State) (n : Nat) (d : Int) (h0 : Kept Q s) :
    Kept Q (State.gearAdd s n d) := by
  unfold State.gearAdd
  try dsimp only
  repeat' first | intro _ | (with_reducible first | assumption | apply State.wr_kept | apply State.updStep_kept | apply State.setFlag_kept | apply Kept.foldl | apply Kept.foldl_fst) | (with_reducible refine Kept.mk rfl rfl rfl rfl ?_; with_reducible first | assumption | apply State.wr_kept | apply State.updStep_kept | apply State.setFlag_kept | apply Kept.foldl | apply Kept.foldl_fst) | split | dsimp only | with_reducible apply Kept.ite

theorem State.stFollow_kept {Q : List Instr} (s : State) (n v : Nat) (h0 : Kept Q s) :
    Kept Q (State.stFollow s n v) := by
  unfold State.stFollow
  try dsimp only
  repeat' first | intro _ | (with_reducible first | assumption | apply State.gearAdd_kept | apply Kept.foldl | apply Kept.foldl_fst) | (with_reducible refine Kept.mk rfl rfl rfl rfl ?_; with_reducible first | assumption | apply State.gearAdd_kept | apply Kept.foldl | apply Kept.foldl_fst) | split | dsimp only | with_reducible apply Kept.ite

theorem execStfollowWrite_kept {Q : List Instr} (r : Requester) (n : Fin 5) (v : Word) (s : State) (h0 : Kept Q s) :
    KeptOut Q (execStfollowWrite r n v s) := by
  unfold execStfollowWrite
  try dsimp only
  repeat' first | intro _ | (with_reducible first | assumption | apply live_kept | apply State.guardReg_kept | apply State.stFollow_kept | apply Kept.foldl | apply Kept.foldl_fst | apply KeptOut.live | apply KeptOut.next) | (with_reducible refine Kept.mk rfl rfl rfl rfl ?_; with_reducible first | assumption | apply live_kept | apply State.guardReg_kept | apply State.stFollow_kept | apply Kept.foldl | apply Kept.foldl_fst) | split | dsimp only | with_reducible apply Kept.ite

theorem execStepDone_kept {Q : List Instr} (n : Fin 5) (pos : Word) (s : State) (h0 : Kept Q s) :
    KeptOut Q (execStepDone n pos s) := by
  unfold execStepDone
  try dsimp only
  repeat' first | intro _ | (with_reducible first | assumption | apply State.updStep_kept | apply State.setFlag_kept | apply live_kept | apply State.wr_kept | apply State.raise_kept | apply Kept.foldl | apply Kept.foldl_fst | apply KeptOut.live | apply KeptOut.next) | (with_reducible refine Kept.mk rfl rfl rfl rfl ?_; with_reducible first | assumption | apply State.updStep_kept | apply State.setFlag_kept | apply live_kept | apply State.wr_kept | apply State.raise_kept | apply Kept.foldl | apply Kept.foldl_fst) | split | dsimp only | with_reducible apply Kept.ite

theorem execStepOvercurrent_kept {Q : List Instr} (n : Fin 5) (s : State) (h0 : Kept Q s) :
    KeptOut Q (execStepOvercurrent n s) := by
  unfold execStepOvercurrent
  try dsimp only
  repeat' first | intro _ | (with_reducible first | assumption | apply live_kept | apply State.stepOff_kept | apply State.setFlag_kept | apply State.wr_kept | apply State.raise_kept | apply Kept.foldl | apply Kept.foldl_fst | apply KeptOut.live | apply KeptOut.next) | (with_reducible refine Kept.mk rfl rfl rfl rfl ?_; with_reducible first | assumption | apply live_kept | apply State.stepOff_kept | apply State.setFlag_kept | apply State.wr_kept | apply State.raise_kept | apply Kept.foldl | apply Kept.foldl_fst) | split | dsimp only | with_reducible apply Kept.ite

theorem execStepStandstill_kept {Q : List Instr} (n : Fin 5) (s : State) (h0 : Kept Q s) :
    KeptOut Q (execStepStandstill n s) := by
  unfold execStepStandstill
  try dsimp only
  repeat' first | intro _ | (with_reducible first | assumption | apply live_kept | apply State.updStep_kept | apply State.setFlag_kept | apply Kept.foldl | apply Kept.foldl_fst | apply KeptOut.live | apply KeptOut.next) | (with_reducible refine Kept.mk rfl rfl rfl rfl ?_; with_reducible first | assumption | apply live_kept | apply State.updStep_kept | apply State.setFlag_kept | apply Kept.foldl | apply Kept.foldl_fst) | split | dsimp only | with_reducible apply Kept.ite

theorem execStepLimit_kept {Q : List Instr} (out : Bool) (s : State) (h0 : Kept Q s) :
    KeptOut Q (execStepLimit out s) := by
  unfold execStepLimit
  try dsimp only
  repeat' first | intro _ | (with_reducible first | assumption | apply State.setFlag_kept | apply State.updStep_kept | apply State.raise_kept | apply live_kept | apply State.wr_kept | apply Kept.foldl | apply Kept.foldl_fst | apply KeptOut.live | apply KeptOut.next) | (with_reducible refine Kept.mk rfl rfl rfl rfl ?_; with_reducible first | assumption | apply State.setFlag_kept | apply State.updStep_kept | apply State.raise_kept | apply live_kept | apply State.wr_kept | apply Kept.foldl | apply Kept.foldl_fst) | split | dsimp only | with_reducible apply Kept.ite

theorem execVcctrlRetract_kept {Q : List Instr} (r : Requester) (n : Fin 16) (s : State) (h0 : Kept Q s) :
    KeptOut Q (execVcctrlRetract r n s) := by
  unfold execVcctrlRetract
  try dsimp only
  repeat' first | intro _ | (with_reducible first | assumption | apply live_kept | apply State.guardReg_kept | apply State.vcmRamp_kept | apply Kept.foldl | apply Kept.foldl_fst | apply KeptOut.live | apply KeptOut.next) | (with_reducible refine Kept.mk rfl rfl rfl rfl ?_; with_reducible first | assumption | apply live_kept | apply State.guardReg_kept | apply State.vcmRamp_kept | apply Kept.foldl | apply Kept.foldl_fst) | split | dsimp only | with_reducible apply Kept.ite

theorem execVcmRampDone_kept {Q : List Instr} (n : Fin 16) (s : State) (h0 : Kept Q s) :
    KeptOut Q (execVcmRampDone n s) := by
  unfold execVcmRampDone
  try dsimp only
  repeat' first | intro _ | (with_reducible first | assumption | apply State.setFlag_kept | apply live_kept | apply State.wr_kept | apply Kept.foldl | apply Kept.foldl_fst | apply KeptOut.live | apply KeptOut.next) | (with_reducible refine Kept.mk rfl rfl rfl rfl ?_; with_reducible first | assumption | apply State.setFlag_kept | apply live_kept | apply State.wr_kept | apply Kept.foldl | apply Kept.foldl_fst) | split | dsimp only | with_reducible apply Kept.ite

theorem execVcmSafeHoldEnd_kept {Q : List Instr} (n : Fin 16) (s : State) (h0 : Kept Q s) :
    KeptOut Q (execVcmSafeHoldEnd n s) := by
  unfold execVcmSafeHoldEnd
  try dsimp only
  repeat' first | intro _ | (with_reducible first | assumption | apply live_kept | apply State.wr_kept | apply Kept.foldl | apply Kept.foldl_fst | apply KeptOut.live | apply KeptOut.next) | (with_reducible refine Kept.mk rfl rfl rfl rfl ?_; with_reducible first | assumption | apply live_kept | apply State.wr_kept | apply Kept.foldl | apply Kept.foldl_fst) | split | dsimp only | with_reducible apply Kept.ite

end Sys2Proof.Machine
end

