-- ==== Sys2Proof/Laws/KeptServo.lean ====
section
/-! SUPPORT. Soundness is kept by every operation and meaning of Machine/Servo.lean. -/

namespace Sys2Proof.Machine

theorem execSynthLock_kept {Q : List Instr} (h : Fin 4) (err : Int) (s : State) (h0 : Kept Q s) :
    KeptOut Q (execSynthLock h err s) := by
  unfold execSynthLock
  try dsimp only
  repeat' first | intro _ | (with_reducible first | assumption | apply live_kept | apply State.wr_kept | apply State.lockSynth_kept | apply Kept.foldl | apply Kept.foldl_fst | apply KeptOut.live | apply KeptOut.next) | (with_reducible refine Kept.mk rfl rfl rfl rfl ?_; with_reducible first | assumption | apply live_kept | apply State.wr_kept | apply State.lockSynth_kept | apply Kept.foldl | apply Kept.foldl_fst) | split | dsimp only | with_reducible apply Kept.ite

theorem execSynthLost_kept {Q : List Instr} (h : Fin 4) (s : State) (h0 : Kept Q s) :
    KeptOut Q (execSynthLost h s) := by
  unfold execSynthLost
  try dsimp only
  repeat' first | intro _ | (with_reducible first | assumption | apply live_kept | apply State.loseSynth_kept | apply Kept.foldl | apply Kept.foldl_fst | apply KeptOut.live | apply KeptOut.next) | (with_reducible refine Kept.mk rfl rfl rfl rfl ?_; with_reducible first | assumption | apply live_kept | apply State.loseSynth_kept | apply Kept.foldl | apply Kept.foldl_fst) | split | dsimp only | with_reducible apply Kept.ite

theorem State.showWedge_kept {Q : List Instr} (s : State) (h : Fin 4) (x : Wedge) (h0 : Kept Q s) :
    Kept Q (State.showWedge s h x) := by
  unfold State.showWedge
  try dsimp only
  repeat' first | intro _ | (with_reducible first | assumption | apply State.setFlag_kept | apply State.wr_kept | apply State.count_kept | apply Kept.foldl | apply Kept.foldl_fst) | (with_reducible refine Kept.mk rfl rfl rfl rfl ?_; with_reducible first | assumption | apply State.setFlag_kept | apply State.wr_kept | apply State.count_kept | apply Kept.foldl | apply Kept.foldl_fst) | split | dsimp only | with_reducible apply Kept.ite

theorem State.wedgeGate_kept {Q : List Instr} (s : State) (h : Fin 4) (x : Wedge) (h0 : Kept Q s) :
    Kept Q (State.wedgeGate s h x) := by
  unfold State.wedgeGate
  try dsimp only
  repeat' first | intro _ | (with_reducible first | assumption | apply State.offTrack_kept | apply Kept.foldl | apply Kept.foldl_fst) | (with_reducible refine Kept.mk rfl rfl rfl rfl ?_; with_reducible first | assumption | apply State.offTrack_kept | apply Kept.foldl | apply Kept.foldl_fst) | split | dsimp only | with_reducible apply Kept.ite

theorem State.wedgeLock_kept {Q : List Instr} (s : State) (h : Fin 4) (x : Wedge) (tracking : Bool) (h0 : Kept Q s) :
    Kept Q (State.wedgeLock s h x tracking) := by
  unfold State.wedgeLock
  try dsimp only
  repeat' first | intro _ | (with_reducible first | assumption | apply State.trackLost_kept | apply Kept.foldl | apply Kept.foldl_fst) | (with_reducible refine Kept.mk rfl rfl rfl rfl ?_; with_reducible first | assumption | apply State.trackLost_kept | apply Kept.foldl | apply Kept.foldl_fst) | split | dsimp only | with_reducible apply Kept.ite

theorem execWedgePosition_kept {Q : List Instr} (h : Fin 4) (num : Fin 1024) (parityOk : Bool) (dj : List Nat) (gray : Nat) (s : State) (h0 : Kept Q s) :
    KeptOut Q (execWedgePosition h num parityOk dj gray s) := by
  unfold execWedgePosition
  try dsimp only
  repeat' first | intro _ | (with_reducible first | assumption | apply State.updHd_kept | apply State.showWedge_kept | apply State.raise_kept | apply live_kept | apply State.wedgeGate_kept | apply State.wedgeLock_kept | apply State.refresh_kept | apply Kept.foldl | apply Kept.foldl_fst | apply KeptOut.live | apply KeptOut.next) | (with_reducible refine Kept.mk rfl rfl rfl rfl ?_; with_reducible first | assumption | apply State.updHd_kept | apply State.showWedge_kept | apply State.raise_kept | apply live_kept | apply State.wedgeGate_kept | apply State.wedgeLock_kept | apply State.refresh_kept | apply Kept.foldl | apply Kept.foldl_fst) | split | dsimp only | with_reducible apply Kept.ite

theorem execServoConversionDone_kept {Q : List Instr} (h : Fin 4) (c : Fin 6) (raw : BitVec 12) (plus : Bool) (s : State) (h0 : Kept Q s) :
    KeptOut Q (execServoConversionDone h c raw plus s) := by
  unfold execServoConversionDone
  try dsimp only
  repeat' first | intro _ | (with_reducible first | assumption | apply State.run_kept | apply State.wr_kept | apply State.updHd_kept | apply live_kept | apply Kept.foldl | apply Kept.foldl_fst | apply KeptOut.live | apply KeptOut.next) | (with_reducible refine Kept.mk rfl rfl rfl rfl ?_; with_reducible first | assumption | apply State.run_kept | apply State.wr_kept | apply State.updHd_kept | apply live_kept | apply Kept.foldl | apply Kept.foldl_fst) | split | dsimp only | with_reducible apply Kept.ite

theorem execAdcFreezeTrip_kept {Q : List Instr} (h : Fin 4) (c : Fin 6) (s : State) (h0 : Kept Q s) :
    KeptOut Q (execAdcFreezeTrip h c s) := by
  unfold execAdcFreezeTrip
  try dsimp only
  repeat' first | intro _ | (with_reducible first | assumption | apply State.setFlag_kept | apply State.raise_kept | apply State.setFlt_kept | apply live_kept | apply State.dropHeadGates_kept | apply State.refresh_kept | apply Kept.foldl | apply Kept.foldl_fst | apply KeptOut.live | apply KeptOut.next) | (with_reducible refine Kept.mk rfl rfl rfl rfl ?_; with_reducible first | assumption | apply State.setFlag_kept | apply State.raise_kept | apply State.setFlt_kept | apply live_kept | apply State.dropHeadGates_kept | apply State.refresh_kept | apply Kept.foldl | apply Kept.foldl_fst) | split | dsimp only | with_reducible apply Kept.ite

theorem State.hadcCfg_kept {Q : List Instr} (t : State) (h : Nat) (c : Nat) (v : Nat) (h0 : Kept Q t) :
    Kept Q (State.hadcCfg t h c v) := by
  unfold State.hadcCfg
  try dsimp only
  repeat' first | intro _ | (with_reducible first | assumption | apply State.storeReg_kept | apply State.updHd_kept | apply Kept.foldl | apply Kept.foldl_fst) | (with_reducible refine Kept.mk rfl rfl rfl rfl ?_; with_reducible first | assumption | apply State.storeReg_kept | apply State.updHd_kept | apply Kept.foldl | apply Kept.foldl_fst) | split | dsimp only | with_reducible apply Kept.ite

theorem execHadccfgGainWrite_kept {Q : List Instr} (r : Requester) (h : Fin 4) (c : Fin 6) (v : Word) (s : State) (h0 : Kept Q s) :
    KeptOut Q (execHadccfgGainWrite r h c v s) := by
  unfold execHadccfgGainWrite
  try dsimp only
  repeat' first | intro _ | (with_reducible first | assumption | apply live_kept | apply State.guardReg_kept | apply State.hadcCfg_kept | apply Kept.foldl | apply Kept.foldl_fst | apply KeptOut.live | apply KeptOut.next) | (with_reducible refine Kept.mk rfl rfl rfl rfl ?_; with_reducible first | assumption | apply live_kept | apply State.guardReg_kept | apply State.hadcCfg_kept | apply Kept.foldl | apply Kept.foldl_fst) | split | dsimp only | with_reducible apply Kept.ite

theorem execComparatorTrip_kept {Q : List Instr} (h : Fin 4) (lay : Bool) (level : Nat) (s : State) (h0 : Kept Q s) :
    KeptOut Q (execComparatorTrip h lay level s) := by
  unfold execComparatorTrip
  try dsimp only
  repeat' first | intro _ | (with_reducible first | assumption | apply State.updHd_kept | apply live_kept | apply State.setFlt_kept | apply State.dropHeadGates_kept | apply State.raise_kept | apply State.refresh_kept | apply Kept.foldl | apply Kept.foldl_fst | apply KeptOut.live | apply KeptOut.next) | (with_reducible refine Kept.mk rfl rfl rfl rfl ?_; with_reducible first | assumption | apply State.updHd_kept | apply live_kept | apply State.setFlt_kept | apply State.dropHeadGates_kept | apply State.raise_kept | apply State.refresh_kept | apply Kept.foldl | apply Kept.foldl_fst) | split | dsimp only | with_reducible apply Kept.ite

theorem execComparatorRelease_kept {Q : List Instr} (h : Fin 4) (lay : Bool) (level : Nat) (s : State) (h0 : Kept Q s) :
    KeptOut Q (execComparatorRelease h lay level s) := by
  unfold execComparatorRelease
  try dsimp only
  repeat' first | intro _ | (with_reducible first | assumption | apply live_kept | apply State.updHd_kept | apply State.refresh_kept | apply Kept.foldl | apply Kept.foldl_fst | apply KeptOut.live | apply KeptOut.next) | (with_reducible refine Kept.mk rfl rfl rfl rfl ?_; with_reducible first | assumption | apply live_kept | apply State.updHd_kept | apply State.refresh_kept | apply Kept.foldl | apply Kept.foldl_fst) | split | dsimp only | with_reducible apply Kept.ite

theorem State.seqWrite_kept {Q : List Instr} (s : State) (r : Requester) (h cmd layer group : Nat) (pair : Bool) (h0 : Kept Q s) :
    Kept Q (State.seqWrite s r h cmd layer group pair) := by
  unfold State.seqWrite
  try dsimp only
  repeat' first | intro _ | (with_reducible first | assumption | apply State.guardReg_kept | apply State.seqCommand_kept | apply Kept.foldl | apply Kept.foldl_fst) | (with_reducible refine Kept.mk rfl rfl rfl rfl ?_; with_reducible first | assumption | apply State.guardReg_kept | apply State.seqCommand_kept | apply Kept.foldl | apply Kept.foldl_fst) | split | dsimp only | with_reducible apply Kept.ite

theorem execSeqAcquire_kept {Q : List Instr} (r : Requester) (h : Fin 4) (pair : Bool) (layer : Fin 16) (group : Fin 16384) (s : State) (h0 : Kept Q s) :
    KeptOut Q (execSeqAcquire r h pair layer group s) := by
  unfold execSeqAcquire
  try dsimp only
  repeat' first | intro _ | (with_reducible first | assumption | apply live_kept | apply State.seqWrite_kept | apply Kept.foldl | apply Kept.foldl_fst | apply KeptOut.live | apply KeptOut.next) | (with_reducible refine Kept.mk rfl rfl rfl rfl ?_; with_reducible first | assumption | apply live_kept | apply State.seqWrite_kept | apply Kept.foldl | apply Kept.foldl_fst) | split | dsimp only | with_reducible apply Kept.ite

theorem execSeqSeek_kept {Q : List Instr} (r : Requester) (h : Fin 4) (pair : Bool) (layer : Fin 16) (group : Fin 16384) (s : State) (h0 : Kept Q s) :
    KeptOut Q (execSeqSeek r h pair layer group s) := by
  unfold execSeqSeek
  try dsimp only
  repeat' first | intro _ | (with_reducible first | assumption | apply live_kept | apply State.seqWrite_kept | apply Kept.foldl | apply Kept.foldl_fst | apply KeptOut.live | apply KeptOut.next) | (with_reducible refine Kept.mk rfl rfl rfl rfl ?_; with_reducible first | assumption | apply live_kept | apply State.seqWrite_kept | apply Kept.foldl | apply Kept.foldl_fst) | split | dsimp only | with_reducible apply Kept.ite

theorem execSeqLayer_kept {Q : List Instr} (r : Requester) (h : Fin 4) (pair : Bool) (layer : Fin 16) (group : Fin 16384) (s : State) (h0 : Kept Q s) :
    KeptOut Q (execSeqLayer r h pair layer group s) := by
  unfold execSeqLayer
  try dsimp only
  repeat' first | intro _ | (with_reducible first | assumption | apply live_kept | apply State.seqWrite_kept | apply Kept.foldl | apply Kept.foldl_fst | apply KeptOut.live | apply KeptOut.next) | (with_reducible refine Kept.mk rfl rfl rfl rfl ?_; with_reducible first | assumption | apply live_kept | apply State.seqWrite_kept | apply Kept.foldl | apply Kept.foldl_fst) | split | dsimp only | with_reducible apply Kept.ite

theorem execSeqSeekLayer_kept {Q : List Instr} (r : Requester) (h : Fin 4) (pair : Bool) (layer : Fin 16) (group : Fin 16384) (s : State) (h0 : Kept Q s) :
    KeptOut Q (execSeqSeekLayer r h pair layer group s) := by
  unfold execSeqSeekLayer
  try dsimp only
  repeat' first | intro _ | (with_reducible first | assumption | apply live_kept | apply State.seqWrite_kept | apply Kept.foldl | apply Kept.foldl_fst | apply KeptOut.live | apply KeptOut.next) | (with_reducible refine Kept.mk rfl rfl rfl rfl ?_; with_reducible first | assumption | apply live_kept | apply State.seqWrite_kept | apply Kept.foldl | apply Kept.foldl_fst) | split | dsimp only | with_reducible apply Kept.ite

theorem execSeqHold_kept {Q : List Instr} (r : Requester) (h : Fin 4) (pair : Bool) (layer : Fin 16) (group : Fin 16384) (s : State) (h0 : Kept Q s) :
    KeptOut Q (execSeqHold r h pair layer group s) := by
  unfold execSeqHold
  try dsimp only
  repeat' first | intro _ | (with_reducible first | assumption | apply live_kept | apply State.seqWrite_kept | apply Kept.foldl | apply Kept.foldl_fst | apply KeptOut.live | apply KeptOut.next) | (with_reducible refine Kept.mk rfl rfl rfl rfl ?_; with_reducible first | assumption | apply live_kept | apply State.seqWrite_kept | apply Kept.foldl | apply Kept.foldl_fst) | split | dsimp only | with_reducible apply Kept.ite

theorem execSeqLeadin_kept {Q : List Instr} (r : Requester) (h : Fin 4) (pair : Bool) (layer : Fin 16) (group : Fin 16384) (s : State) (h0 : Kept Q s) :
    KeptOut Q (execSeqLeadin r h pair layer group s) := by
  unfold execSeqLeadin
  try dsimp only
  repeat' first | intro _ | (with_reducible first | assumption | apply live_kept | apply State.seqWrite_kept | apply Kept.foldl | apply Kept.foldl_fst | apply KeptOut.live | apply KeptOut.next) | (with_reducible refine Kept.mk rfl rfl rfl rfl ?_; with_reducible first | assumption | apply live_kept | apply State.seqWrite_kept | apply Kept.foldl | apply Kept.foldl_fst) | split | dsimp only | with_reducible apply Kept.ite

theorem execSeqRelease_kept {Q : List Instr} (r : Requester) (h : Fin 4) (pair : Bool) (layer : Fin 16) (group : Fin 16384) (s : State) (h0 : Kept Q s) :
    KeptOut Q (execSeqRelease r h pair layer group s) := by
  unfold execSeqRelease
  try dsimp only
  repeat' first | intro _ | (with_reducible first | assumption | apply live_kept | apply State.seqWrite_kept | apply Kept.foldl | apply Kept.foldl_fst | apply KeptOut.live | apply KeptOut.next) | (with_reducible refine Kept.mk rfl rfl rfl rfl ?_; with_reducible first | assumption | apply live_kept | apply State.seqWrite_kept | apply Kept.foldl | apply Kept.foldl_fst) | split | dsimp only | with_reducible apply Kept.ite

theorem execSeqStepTimeout_kept {Q : List Instr} (h : Fin 4) (s : State) (h0 : Kept Q s) :
    KeptOut Q (execSeqStepTimeout h s) := by
  unfold execSeqStepTimeout
  try dsimp only
  repeat' first | intro _ | (with_reducible first | assumption | apply live_kept | apply State.failSeq_kept | apply Kept.foldl | apply Kept.foldl_fst | apply KeptOut.live | apply KeptOut.next) | (with_reducible refine Kept.mk rfl rfl rfl rfl ?_; with_reducible first | assumption | apply live_kept | apply State.failSeq_kept | apply Kept.foldl | apply Kept.foldl_fst) | split | dsimp only | with_reducible apply Kept.ite

theorem execLayerJumpAuto_kept {Q : List Instr} (s : State) (h0 : Kept Q s) :
    KeptOut Q (execLayerJumpAuto s) := by
  unfold execLayerJumpAuto
  try dsimp only
  repeat' first | intro _ | (with_reducible first | assumption | apply State.setHState_kept | apply State.updHd_kept | apply State.jump_kept | apply State.beginSeq_kept | apply State.wr_kept | apply live_kept | apply State.count_kept | apply Kept.foldl | apply Kept.foldl_fst | apply KeptOut.live | apply KeptOut.next) | (with_reducible refine Kept.mk rfl rfl rfl rfl ?_; with_reducible first | assumption | apply State.setHState_kept | apply State.updHd_kept | apply State.jump_kept | apply State.beginSeq_kept | apply State.wr_kept | apply live_kept | apply State.count_kept | apply Kept.foldl | apply Kept.foldl_fst) | split | dsimp only | with_reducible apply Kept.ite

theorem execLayerJumpTimeout_kept {Q : List Instr} (h : Fin 4) (s : State) (h0 : Kept Q s) :
    KeptOut Q (execLayerJumpTimeout h s) := by
  unfold execLayerJumpTimeout
  try dsimp only
  repeat' first | intro _ | (with_reducible first | assumption | apply State.jump_kept | apply State.seqFault_kept | apply State.updHd_kept | apply live_kept | apply State.seqDone_kept | apply Kept.foldl | apply Kept.foldl_fst | apply KeptOut.live | apply KeptOut.next) | (with_reducible refine Kept.mk rfl rfl rfl rfl ?_; with_reducible first | assumption | apply State.jump_kept | apply State.seqFault_kept | apply State.updHd_kept | apply live_kept | apply State.seqDone_kept | apply Kept.foldl | apply Kept.foldl_fst) | split | dsimp only | with_reducible apply Kept.ite

theorem execFocusReacquireTimer_kept {Q : List Instr} (h : Fin 4) (s : State) (h0 : Kept Q s) :
    KeptOut Q (execFocusReacquireTimer h s) := by
  unfold execFocusReacquireTimer
  try dsimp only
  repeat' first | intro _ | (with_reducible first | assumption | apply live_kept | apply State.updHd_kept | apply State.beginAcquire_kept | apply State.seqFault_kept | apply Kept.foldl | apply Kept.foldl_fst | apply KeptOut.live | apply KeptOut.next) | (with_reducible refine Kept.mk rfl rfl rfl rfl ?_; with_reducible first | assumption | apply live_kept | apply State.updHd_kept | apply State.beginAcquire_kept | apply State.seqFault_kept | apply Kept.foldl | apply Kept.foldl_fst) | split | dsimp only | with_reducible apply Kept.ite

theorem execHoldKickback_kept {Q : List Instr} (h : Fin 4) (s : State) (h0 : Kept Q s) :
    KeptOut Q (execHoldKickback h s) := by
  unfold execHoldKickback
  try dsimp only
  repeat' first | intro _ | (with_reducible first | assumption | apply live_kept | apply State.wr_kept | apply Kept.foldl | apply Kept.foldl_fst | apply KeptOut.live | apply KeptOut.next) | (with_reducible refine Kept.mk rfl rfl rfl rfl ?_; with_reducible first | assumption | apply live_kept | apply State.wr_kept | apply Kept.foldl | apply Kept.foldl_fst) | split | dsimp only | with_reducible apply Kept.ite

end Sys2Proof.Machine
end

