-- ==== Sys2Proof/Laws/KeptLoop.lean ====
section
/-! SUPPORT. Soundness is kept by every operation and meaning of Machine/Loop.lean. -/

namespace Sys2Proof.Machine

theorem State.driveVcm_kept {Q : List Instr} (s : State) (i : Nat) (c : Int) (h0 : Kept Q s) :
    Kept Q (State.driveVcm s i c) := by
  unfold State.driveVcm
  try dsimp only
  repeat' first | intro _ | (with_reducible first | assumption | apply State.wr_kept | apply State.setFlag_kept | apply State.raise_kept | apply Kept.foldl | apply Kept.foldl_fst) | (with_reducible refine Kept.mk rfl rfl rfl rfl ?_; with_reducible first | assumption | apply State.wr_kept | apply State.setFlag_kept | apply State.raise_kept | apply Kept.foldl | apply Kept.foldl_fst) | split | dsimp only | with_reducible apply Kept.ite

theorem State.applyOut_kept {Q : List Instr} (s : State) (n j : Nat) (v : Int) (h0 : Kept Q s) :
    Kept Q (State.applyOut s n j v) := by
  unfold State.applyOut
  try dsimp only
  repeat' first | intro _ | (with_reducible first | assumption | apply State.wr_kept | apply State.driveVcm_kept | apply State.stFollow_kept | apply Kept.foldl | apply Kept.foldl_fst) | (with_reducible refine Kept.mk rfl rfl rfl rfl ?_; with_reducible first | assumption | apply State.wr_kept | apply State.driveVcm_kept | apply State.stFollow_kept | apply Kept.foldl | apply Kept.foldl_fst) | split | dsimp only | with_reducible apply Kept.ite

theorem State.reapply_kept {Q : List Instr} (s : State) (n : Nat) (h0 : Kept Q s) :
    Kept Q (State.reapply s n) := by
  unfold State.reapply
  try dsimp only
  repeat' first | intro _ | (with_reducible first | assumption | apply State.applyOut_kept | apply Kept.foldl | apply Kept.foldl_fst) | (with_reducible refine Kept.mk rfl rfl rfl rfl ?_; with_reducible first | assumption | apply State.applyOut_kept | apply Kept.foldl | apply Kept.foldl_fst) | split | dsimp only | with_reducible apply Kept.ite

theorem State.setBusy_kept {Q : List Instr} (s : State) (lane : Nat) (b : Bool) (h0 : Kept Q s) :
    Kept Q (State.setBusy s lane b) := by
  unfold State.setBusy
  try dsimp only
  repeat' first | intro _ | (with_reducible first | assumption | apply State.wr_kept | apply Kept.foldl | apply Kept.foldl_fst) | (with_reducible refine Kept.mk rfl rfl rfl rfl ?_; with_reducible first | assumption | apply State.wr_kept | apply Kept.foldl | apply Kept.foldl_fst) | split | dsimp only | with_reducible apply Kept.ite

theorem State.openOut_kept {Q : List Instr} (s : State) (n j : Nat) (h0 : Kept Q s) :
    Kept Q (State.openOut s n j) := by
  unfold State.openOut
  try dsimp only
  repeat' first | intro _ | (with_reducible first | assumption | apply State.applyOut_kept | apply Kept.foldl | apply Kept.foldl_fst) | (with_reducible refine Kept.mk rfl rfl rfl rfl ?_; with_reducible first | assumption | apply State.applyOut_kept | apply Kept.foldl | apply Kept.foldl_fst) | split | dsimp only | with_reducible apply Kept.ite

theorem State.slotAction_kept {Q : List Instr} (s : State) (n : Nat) (h0 : Kept Q s) :
    Kept Q (State.slotAction s n) := by
  unfold State.slotAction
  try dsimp only
  repeat' first | intro _ | (with_reducible first | assumption | apply State.updSlot_kept | apply State.openOut_kept | apply State.vcmRamp_kept | apply Kept.foldl | apply Kept.foldl_fst) | (with_reducible refine Kept.mk rfl rfl rfl rfl ?_; with_reducible first | assumption | apply State.updSlot_kept | apply State.openOut_kept | apply State.vcmRamp_kept | apply Kept.foldl | apply Kept.foldl_fst) | split | dsimp only | with_reducible apply Kept.ite

theorem State.stockFault_kept {Q : List Instr} (s : State) (n cause : Nat) (h0 : Kept Q s) :
    Kept Q (State.stockFault s n cause) := by
  unfold State.stockFault
  try dsimp only
  repeat' first | intro _ | (with_reducible first | assumption | apply State.focusLost_kept | apply State.trackLost_kept | apply State.updHd_kept | apply State.refresh_kept | apply State.tiltLimit_kept | apply State.layerLost_kept | apply State.svLaser_kept | apply Kept.foldl | apply Kept.foldl_fst) | (with_reducible refine Kept.mk rfl rfl rfl rfl ?_; with_reducible first | assumption | apply State.focusLost_kept | apply State.trackLost_kept | apply State.updHd_kept | apply State.refresh_kept | apply State.tiltLimit_kept | apply State.layerLost_kept | apply State.svLaser_kept | apply Kept.foldl | apply Kept.foldl_fst) | split | dsimp only | with_reducible apply Kept.ite

theorem State.slotFault_kept {Q : List Instr} (s : State) (n cause : Nat) (h0 : Kept Q s) :
    Kept Q (State.slotFault s n cause) := by
  unfold State.slotFault
  try dsimp only
  repeat' first | intro _ | (with_reducible first | assumption | apply State.setBusy_kept | apply State.wr_kept | apply State.updSlot_kept | apply State.raise_kept | apply State.slotAction_kept | apply State.stockFault_kept | apply Kept.foldl | apply Kept.foldl_fst) | (with_reducible refine Kept.mk rfl rfl rfl rfl ?_; with_reducible first | assumption | apply State.setBusy_kept | apply State.wr_kept | apply State.updSlot_kept | apply State.raise_kept | apply State.slotAction_kept | apply State.stockFault_kept | apply Kept.foldl | apply Kept.foldl_fst) | split | dsimp only | with_reducible apply Kept.ite

theorem State.trigger_kept {Q : List Instr} (s : State) (n ch : Nat) (same : Bool) (h0 : Kept Q s) :
    Kept Q (State.trigger s n ch same) := by
  unfold State.trigger
  try dsimp only
  repeat' first | intro _ | (with_reducible first | assumption | apply State.updHd_kept | apply State.incSat_kept | apply State.raise_kept | apply State.setFlt_kept | apply Kept.foldl | apply Kept.foldl_fst) | (with_reducible refine Kept.mk rfl rfl rfl rfl ?_; with_reducible first | assumption | apply State.updHd_kept | apply State.incSat_kept | apply State.raise_kept | apply State.setFlt_kept | apply Kept.foldl | apply Kept.foldl_fst) | split | dsimp only | with_reducible apply Kept.ite

theorem State.showTick_kept {Q : List Instr} (s : State) (n k : Nat) (h0 : Kept Q s) :
    Kept Q (State.showTick s n k) := by
  unfold State.showTick
  try dsimp only
  repeat' first | intro _ | (with_reducible first | assumption | apply State.wr_kept | apply Kept.foldl | apply Kept.foldl_fst) | (with_reducible refine Kept.mk rfl rfl rfl rfl ?_; with_reducible first | assumption | apply State.wr_kept | apply Kept.foldl | apply Kept.foldl_fst) | split | dsimp only | with_reducible apply Kept.ite

theorem execSlotSampleInstant_kept {Q : List Instr} (n : Fin 96) (k : Nat) (ext : List Int) (prof : Int) (same : Bool) (s : State) (h0 : Kept Q s) :
    KeptOut Q (execSlotSampleInstant n k ext prof same s) := by
  unfold execSlotSampleInstant
  try dsimp only
  repeat' first | intro _ | (with_reducible first | assumption | apply State.showTick_kept | apply live_kept | apply State.incWrap_kept | apply State.count_kept | apply State.raise_kept | apply State.trigger_kept | apply State.wr_kept | apply State.updSlot_kept | apply Kept.foldl | apply Kept.foldl_fst | apply KeptOut.live | apply KeptOut.next) | (with_reducible refine Kept.mk rfl rfl rfl rfl ?_; with_reducible first | assumption | apply State.showTick_kept | apply live_kept | apply State.incWrap_kept | apply State.count_kept | apply State.raise_kept | apply State.trigger_kept | apply State.wr_kept | apply State.updSlot_kept | apply Kept.foldl | apply Kept.foldl_fst) | split | dsimp only | with_reducible apply Kept.ite

theorem State.sampleStart_kept {Q : List Instr} (s : State) (n : Nat) (h0 : Kept Q s) :
    Kept Q (State.sampleStart s n) := by
  unfold State.sampleStart
  try dsimp only
  repeat' first | intro _ | (with_reducible first | assumption | apply State.wr_kept | apply State.setFlag_kept | apply State.updSlot_kept | apply Kept.foldl | apply Kept.foldl_fst) | (with_reducible refine Kept.mk rfl rfl rfl rfl ?_; with_reducible first | assumption | apply State.wr_kept | apply State.setFlag_kept | apply State.updSlot_kept | apply Kept.foldl | apply Kept.foldl_fst) | split | dsimp only | with_reducible apply Kept.ite

theorem State.tuneStart_kept {Q : List Instr} (s : State) (n : Nat) (h0 : Kept Q s) :
    Kept Q (State.tuneStart s n) := by
  unfold State.tuneStart
  try dsimp only
  repeat' first | intro _ | (with_reducible first | assumption | apply State.updSlot_kept | apply Kept.foldl | apply Kept.foldl_fst) | (with_reducible refine Kept.mk rfl rfl rfl rfl ?_; with_reducible first | assumption | apply State.updSlot_kept | apply Kept.foldl | apply Kept.foldl_fst) | split | dsimp only | with_reducible apply Kept.ite

theorem State.capture_kept {Q : List Instr} (s : State) (n : Nat) (h0 : Kept Q s) :
    Kept Q (State.capture s n) := by
  unfold State.capture
  try dsimp only
  repeat' first | intro _ | (with_reducible first | assumption | apply State.updSlot_kept | apply State.incSat_kept | apply State.raise_kept | apply State.engineStore_kept | apply State.incWrap_kept | apply Kept.foldl | apply Kept.foldl_fst) | (with_reducible refine Kept.mk rfl rfl rfl rfl ?_; with_reducible first | assumption | apply State.updSlot_kept | apply State.incSat_kept | apply State.raise_kept | apply State.engineStore_kept | apply State.incWrap_kept | apply Kept.foldl | apply Kept.foldl_fst) | split | dsimp only | with_reducible apply Kept.ite

theorem State.endSample_kept {Q : List Instr} (s : State) (n : Nat) (h0 : Kept Q s) :
    Kept Q (State.endSample s n) := by
  unfold State.endSample
  try dsimp only
  repeat' first | intro _ | (with_reducible first | assumption | apply State.setBusy_kept | apply State.capture_kept | apply State.updSlot_kept | apply State.wr_kept | apply Kept.foldl | apply Kept.foldl_fst) | (with_reducible refine Kept.mk rfl rfl rfl rfl ?_; with_reducible first | assumption | apply State.setBusy_kept | apply State.capture_kept | apply State.updSlot_kept | apply State.wr_kept | apply Kept.foldl | apply Kept.foldl_fst) | split | dsimp only | with_reducible apply Kept.ite

theorem State.latchAdc_kept {Q : List Instr} (s : State) (n : Nat) (h0 : Kept Q s) :
    Kept Q (State.latchAdc s n) := by
  unfold State.latchAdc
  try dsimp only
  repeat' first | intro _ | (with_reducible first | assumption | apply State.updSlot_kept | apply Kept.foldl | apply Kept.foldl_fst) | (with_reducible refine Kept.mk rfl rfl rfl rfl ?_; with_reducible first | assumption | apply State.updSlot_kept | apply Kept.foldl | apply Kept.foldl_fst) | split | dsimp only | with_reducible apply Kept.ite

theorem State.parity_kept {Q : List Instr} (s : State) (n kind : Nat) (fail : Bool) (addr : Nat) (h0 : Kept Q s) :
    Kept Q (State.parity s n kind fail addr) := by
  unfold State.parity
  try dsimp only
  repeat' first | intro _ | (with_reducible first | assumption | apply State.slotFault_kept | apply State.wr_kept | apply State.raise_kept | apply State.incSat_kept | apply Kept.foldl | apply Kept.foldl_fst) | (with_reducible refine Kept.mk rfl rfl rfl rfl ?_; with_reducible first | assumption | apply State.slotFault_kept | apply State.wr_kept | apply State.raise_kept | apply State.incSat_kept | apply Kept.foldl | apply Kept.foldl_fst) | split | dsimp only | with_reducible apply Kept.ite

theorem State.startSample_kept {Q : List Instr} (s : State) (n lane : Nat) (h0 : Kept Q s) :
    Kept Q (State.startSample s n lane) := by
  unfold State.startSample
  try dsimp only
  repeat' first | intro _ | (with_reducible first | assumption | apply State.latchAdc_kept | apply State.sampleStart_kept | apply State.tuneStart_kept | apply State.slotFault_kept | apply State.reapply_kept | apply State.incWrap_kept | apply State.count_kept | apply State.endSample_kept | apply State.wr_kept | apply State.setBusy_kept | apply State.updSlot_kept | apply Kept.foldl | apply Kept.foldl_fst) | (with_reducible refine Kept.mk rfl rfl rfl rfl ?_; with_reducible first | assumption | apply State.latchAdc_kept | apply State.sampleStart_kept | apply State.tuneStart_kept | apply State.slotFault_kept | apply State.reapply_kept | apply State.incWrap_kept | apply State.count_kept | apply State.endSample_kept | apply State.wr_kept | apply State.setBusy_kept | apply State.updSlot_kept | apply Kept.foldl | apply Kept.foldl_fst) | split | dsimp only | with_reducible apply Kept.ite

theorem execSlotDispatch_kept {Q : List Instr} (lane : Fin 4) (par : Option (Fin 3 × Bool × Nat)) (capLost : Bool) (s : State) (h0 : Kept Q s) :
    KeptOut Q (execSlotDispatch lane par capLost s) := by
  unfold execSlotDispatch
  try dsimp only
  repeat' first | intro _ | (with_reducible first | assumption | apply State.updSlot_kept | apply State.wr_kept | apply State.setBusy_kept | apply State.startSample_kept | apply State.parity_kept | apply live_kept | apply Kept.foldl | apply Kept.foldl_fst | apply KeptOut.live | apply KeptOut.next) | (with_reducible refine Kept.mk rfl rfl rfl rfl ?_; with_reducible first | assumption | apply State.updSlot_kept | apply State.wr_kept | apply State.setBusy_kept | apply State.startSample_kept | apply State.parity_kept | apply live_kept | apply Kept.foldl | apply Kept.foldl_fst) | split | dsimp only | with_reducible apply Kept.ite

theorem State.runBit_kept {Q : List Instr} (s : State) (n : Nat) (b : Bool) (h0 : Kept Q s) :
    Kept Q (State.runBit s n b) := by
  unfold State.runBit
  try dsimp only
  repeat' first | intro _ | (with_reducible first | assumption | apply State.slotStart_kept | apply State.slotStop_kept | apply Kept.foldl | apply Kept.foldl_fst) | (with_reducible refine Kept.mk rfl rfl rfl rfl ?_; with_reducible first | assumption | apply State.slotStart_kept | apply State.slotStop_kept | apply Kept.foldl | apply Kept.foldl_fst) | split | dsimp only | with_reducible apply Kept.ite

theorem State.slCtrl_kept {Q : List Instr} (s : State) (n v : Nat) (h0 : Kept Q s) :
    Kept Q (State.slCtrl s n v) := by
  unfold State.slCtrl
  try dsimp only
  repeat' first | intro _ | (with_reducible first | assumption | apply State.run_kept | apply State.storeReg_kept | apply State.setFlag_kept | apply State.raise_kept | apply State.runBit_kept | apply Kept.foldl | apply Kept.foldl_fst) | (with_reducible refine Kept.mk rfl rfl rfl rfl ?_; with_reducible first | assumption | apply State.run_kept | apply State.storeReg_kept | apply State.setFlag_kept | apply State.raise_kept | apply State.runBit_kept | apply Kept.foldl | apply Kept.foldl_fst) | split | dsimp only | with_reducible apply Kept.ite

theorem execSlotRunWrite_kept {Q : List Instr} (r : Requester) (n : Fin 96) (v : Word) (s : State) (h0 : Kept Q s) :
    KeptOut Q (execSlotRunWrite r n v s) := by
  unfold execSlotRunWrite
  try dsimp only
  repeat' first | intro _ | (with_reducible first | assumption | apply live_kept | apply State.guardReg_kept | apply State.slCtrl_kept | apply Kept.foldl | apply Kept.foldl_fst | apply KeptOut.live | apply KeptOut.next) | (with_reducible refine Kept.mk rfl rfl rfl rfl ?_; with_reducible first | assumption | apply live_kept | apply State.guardReg_kept | apply State.slCtrl_kept | apply Kept.foldl | apply Kept.foldl_fst) | split | dsimp only | with_reducible apply Kept.ite

theorem State.slConfig_kept {Q : List Instr} (s : State) (n o v : Nat) (h0 : Kept Q s) :
    Kept Q (State.slConfig s n o v) := by
  unfold State.slConfig
  try dsimp only
  repeat' first | intro _ | (with_reducible first | assumption | apply State.storeReg_kept | apply State.raise_kept | apply Kept.foldl | apply Kept.foldl_fst) | (with_reducible refine Kept.mk rfl rfl rfl rfl ?_; with_reducible first | assumption | apply State.storeReg_kept | apply State.raise_kept | apply Kept.foldl | apply Kept.foldl_fst) | split | dsimp only | with_reducible apply Kept.ite

theorem execSlotConfigWrite_kept {Q : List Instr} (r : Requester) (n : Fin 96) (i : Fin 13) (v : Word) (s : State) (h0 : Kept Q s) :
    KeptOut Q (execSlotConfigWrite r n i v s) := by
  unfold execSlotConfigWrite
  try dsimp only
  repeat' first | intro _ | (with_reducible first | assumption | apply live_kept | apply State.guardReg_kept | apply State.slConfig_kept | apply Kept.foldl | apply Kept.foldl_fst | apply KeptOut.live | apply KeptOut.next) | (with_reducible refine Kept.mk rfl rfl rfl rfl ?_; with_reducible first | assumption | apply live_kept | apply State.guardReg_kept | apply State.slConfig_kept | apply Kept.foldl | apply Kept.foldl_fst) | split | dsimp only | with_reducible apply Kept.ite

theorem State.slCdata_kept {Q : List Instr} (s : State) (n v : Nat) (h0 : Kept Q s) :
    Kept Q (State.slCdata s n v) := by
  unfold State.slCdata
  try dsimp only
  repeat' first | intro _ | (with_reducible first | assumption | apply State.raise_kept | apply State.updSlot_kept | apply State.wr_kept | apply Kept.foldl | apply Kept.foldl_fst) | (with_reducible refine Kept.mk rfl rfl rfl rfl ?_; with_reducible first | assumption | apply State.raise_kept | apply State.updSlot_kept | apply State.wr_kept | apply Kept.foldl | apply Kept.foldl_fst) | split | dsimp only | with_reducible apply Kept.ite

theorem execSlcdataWrite_kept {Q : List Instr} (r : Requester) (n : Fin 96) (v : Word) (s : State) (h0 : Kept Q s) :
    KeptOut Q (execSlcdataWrite r n v s) := by
  unfold execSlcdataWrite
  try dsimp only
  repeat' first | intro _ | (with_reducible first | assumption | apply live_kept | apply State.guardReg_kept | apply State.slCdata_kept | apply Kept.foldl | apply Kept.foldl_fst | apply KeptOut.live | apply KeptOut.next) | (with_reducible refine Kept.mk rfl rfl rfl rfl ?_; with_reducible first | assumption | apply live_kept | apply State.guardReg_kept | apply State.slCdata_kept | apply Kept.foldl | apply Kept.foldl_fst) | split | dsimp only | with_reducible apply Kept.ite

theorem State.slCsel_kept {Q : List Instr} (s : State) (n v : Nat) (h0 : Kept Q s) :
    Kept Q (State.slCsel s n v) := by
  unfold State.slCsel
  try dsimp only
  repeat' first | intro _ | (with_reducible first | assumption | apply State.storeReg_kept | apply State.updSlot_kept | apply Kept.foldl | apply Kept.foldl_fst) | (with_reducible refine Kept.mk rfl rfl rfl rfl ?_; with_reducible first | assumption | apply State.storeReg_kept | apply State.updSlot_kept | apply Kept.foldl | apply Kept.foldl_fst) | split | dsimp only | with_reducible apply Kept.ite

theorem execSlcselWrite_kept {Q : List Instr} (r : Requester) (n : Fin 96) (v : Word) (s : State) (h0 : Kept Q s) :
    KeptOut Q (execSlcselWrite r n v s) := by
  unfold execSlcselWrite
  try dsimp only
  repeat' first | intro _ | (with_reducible first | assumption | apply live_kept | apply State.guardReg_kept | apply State.slCsel_kept | apply Kept.foldl | apply Kept.foldl_fst | apply KeptOut.live | apply KeptOut.next) | (with_reducible refine Kept.mk rfl rfl rfl rfl ?_; with_reducible first | assumption | apply live_kept | apply State.guardReg_kept | apply State.slCsel_kept | apply Kept.foldl | apply Kept.foldl_fst) | split | dsimp only | with_reducible apply Kept.ite

theorem State.bankSwap_kept {Q : List Instr} (s : State) (n : Nat) (h0 : Kept Q s) :
    Kept Q (State.bankSwap s n) := by
  unfold State.bankSwap
  try dsimp only
  repeat' first | intro _ | (with_reducible first | assumption | apply State.wr_kept | apply State.setFlag_kept | apply Kept.foldl | apply Kept.foldl_fst) | (with_reducible refine Kept.mk rfl rfl rfl rfl ?_; with_reducible first | assumption | apply State.wr_kept | apply State.setFlag_kept | apply Kept.foldl | apply Kept.foldl_fst) | split | dsimp only | with_reducible apply Kept.ite

theorem execSlbankSwap_kept {Q : List Instr} (r : Requester) (n : Fin 96) (s : State) (h0 : Kept Q s) :
    KeptOut Q (execSlbankSwap r n s) := by
  unfold execSlbankSwap
  try dsimp only
  repeat' first | intro _ | (with_reducible first | assumption | apply live_kept | apply State.guardReg_kept | apply State.bankSwap_kept | apply Kept.foldl | apply Kept.foldl_fst | apply KeptOut.live | apply KeptOut.next) | (with_reducible refine Kept.mk rfl rfl rfl rfl ?_; with_reducible first | assumption | apply live_kept | apply State.guardReg_kept | apply State.bankSwap_kept | apply Kept.foldl | apply Kept.foldl_fst) | split | dsimp only | with_reducible apply Kept.ite

theorem State.slTune_kept {Q : List Instr} (s : State) (n v : Nat) (h0 : Kept Q s) :
    Kept Q (State.slTune s n v) := by
  unfold State.slTune
  try dsimp only
  repeat' first | intro _ | (with_reducible first | assumption | apply State.updSlot_kept | apply State.raise_kept | apply State.storeReg_kept | apply State.wr_kept | apply State.setFlag_kept | apply Kept.foldl | apply Kept.foldl_fst) | (with_reducible refine Kept.mk rfl rfl rfl rfl ?_; with_reducible first | assumption | apply State.updSlot_kept | apply State.raise_kept | apply State.storeReg_kept | apply State.wr_kept | apply State.setFlag_kept | apply Kept.foldl | apply Kept.foldl_fst) | split | dsimp only | with_reducible apply Kept.ite

theorem State.tuneWrite_kept {Q : List Instr} (s : State) (r : Requester) (n : Nat) (v mode : Nat) (h0 : Kept Q s) :
    Kept Q (State.tuneWrite s r n v mode) := by
  unfold State.tuneWrite
  try dsimp only
  repeat' first | intro _ | (with_reducible first | assumption | apply State.guardReg_kept | apply State.slTune_kept | apply Kept.foldl | apply Kept.foldl_fst) | (with_reducible refine Kept.mk rfl rfl rfl rfl ?_; with_reducible first | assumption | apply State.guardReg_kept | apply State.slTune_kept | apply Kept.foldl | apply Kept.foldl_fst) | split | dsimp only | with_reducible apply Kept.ite

theorem execTuneRelay_kept {Q : List Instr} (r : Requester) (n : Fin 96) (v : Word) (s : State) (h0 : Kept Q s) :
    KeptOut Q (execTuneRelay r n v s) := by
  unfold execTuneRelay
  try dsimp only
  repeat' first | intro _ | (with_reducible first | assumption | apply live_kept | apply State.tuneWrite_kept | apply Kept.foldl | apply Kept.foldl_fst | apply KeptOut.live | apply KeptOut.next) | (with_reducible refine Kept.mk rfl rfl rfl rfl ?_; with_reducible first | assumption | apply live_kept | apply State.tuneWrite_kept | apply Kept.foldl | apply Kept.foldl_fst) | split | dsimp only | with_reducible apply Kept.ite

theorem execTuneSine_kept {Q : List Instr} (r : Requester) (n : Fin 96) (v : Word) (s : State) (h0 : Kept Q s) :
    KeptOut Q (execTuneSine r n v s) := by
  unfold execTuneSine
  try dsimp only
  repeat' first | intro _ | (with_reducible first | assumption | apply live_kept | apply State.tuneWrite_kept | apply Kept.foldl | apply Kept.foldl_fst | apply KeptOut.live | apply KeptOut.next) | (with_reducible refine Kept.mk rfl rfl rfl rfl ?_; with_reducible first | assumption | apply live_kept | apply State.tuneWrite_kept | apply Kept.foldl | apply Kept.foldl_fst) | split | dsimp only | with_reducible apply Kept.ite

theorem execTuneChirp_kept {Q : List Instr} (r : Requester) (n : Fin 96) (v : Word) (s : State) (h0 : Kept Q s) :
    KeptOut Q (execTuneChirp r n v s) := by
  unfold execTuneChirp
  try dsimp only
  repeat' first | intro _ | (with_reducible first | assumption | apply live_kept | apply State.tuneWrite_kept | apply Kept.foldl | apply Kept.foldl_fst | apply KeptOut.live | apply KeptOut.next) | (with_reducible refine Kept.mk rfl rfl rfl rfl ?_; with_reducible first | assumption | apply live_kept | apply State.tuneWrite_kept | apply Kept.foldl | apply Kept.foldl_fst) | split | dsimp only | with_reducible apply Kept.ite

theorem execTunePrbs_kept {Q : List Instr} (r : Requester) (n : Fin 96) (v : Word) (s : State) (h0 : Kept Q s) :
    KeptOut Q (execTunePrbs r n v s) := by
  unfold execTunePrbs
  try dsimp only
  repeat' first | intro _ | (with_reducible first | assumption | apply live_kept | apply State.tuneWrite_kept | apply Kept.foldl | apply Kept.foldl_fst | apply KeptOut.live | apply KeptOut.next) | (with_reducible refine Kept.mk rfl rfl rfl rfl ?_; with_reducible first | assumption | apply live_kept | apply State.tuneWrite_kept | apply Kept.foldl | apply Kept.foldl_fst) | split | dsimp only | with_reducible apply Kept.ite

theorem execTuneOff_kept {Q : List Instr} (r : Requester) (n : Fin 96) (v : Word) (s : State) (h0 : Kept Q s) :
    KeptOut Q (execTuneOff r n v s) := by
  unfold execTuneOff
  try dsimp only
  repeat' first | intro _ | (with_reducible first | assumption | apply live_kept | apply State.tuneWrite_kept | apply Kept.foldl | apply Kept.foldl_fst | apply KeptOut.live | apply KeptOut.next) | (with_reducible refine Kept.mk rfl rfl rfl rfl ?_; with_reducible first | assumption | apply live_kept | apply State.tuneWrite_kept | apply Kept.foldl | apply Kept.foldl_fst) | split | dsimp only | with_reducible apply Kept.ite

theorem State.tuneReg_kept {Q : List Instr} (s : State) (n o v : Nat) (h0 : Kept Q s) :
    Kept Q (State.tuneReg s n o v) := by
  unfold State.tuneReg
  try dsimp only
  repeat' first | intro _ | (with_reducible first | assumption | apply State.raise_kept | apply State.storeReg_kept | apply Kept.foldl | apply Kept.foldl_fst) | (with_reducible refine Kept.mk rfl rfl rfl rfl ?_; with_reducible first | assumption | apply State.raise_kept | apply State.storeReg_kept | apply Kept.foldl | apply Kept.foldl_fst) | split | dsimp only | with_reducible apply Kept.ite

theorem State.tuneEnd_kept {Q : List Instr} (s : State) (n : Nat) (h0 : Kept Q s) :
    Kept Q (State.tuneEnd s n) := by
  unfold State.tuneEnd
  try dsimp only
  repeat' first | intro _ | (with_reducible first | assumption | apply State.wr_kept | apply State.setFlag_kept | apply State.updSlot_kept | apply Kept.foldl | apply Kept.foldl_fst) | (with_reducible refine Kept.mk rfl rfl rfl rfl ?_; with_reducible first | assumption | apply State.wr_kept | apply State.setFlag_kept | apply State.updSlot_kept | apply Kept.foldl | apply Kept.foldl_fst) | split | dsimp only | with_reducible apply Kept.ite

theorem execSlotTunedone_kept {Q : List Instr} (n : Fin 96) (s : State) (h0 : Kept Q s) :
    KeptOut Q (execSlotTunedone n s) := by
  unfold execSlotTunedone
  try dsimp only
  repeat' first | intro _ | (with_reducible first | assumption | apply live_kept | apply State.wr_kept | apply State.tuneEnd_kept | apply State.raise_kept | apply Kept.foldl | apply Kept.foldl_fst | apply KeptOut.live | apply KeptOut.next) | (with_reducible refine Kept.mk rfl rfl rfl rfl ?_; with_reducible first | assumption | apply live_kept | apply State.wr_kept | apply State.tuneEnd_kept | apply State.raise_kept | apply Kept.foldl | apply Kept.foldl_fst) | split | dsimp only | with_reducible apply Kept.ite

theorem execSlotCapdone_kept {Q : List Instr} (n : Fin 96) (s : State) (h0 : Kept Q s) :
    KeptOut Q (execSlotCapdone n s) := by
  unfold execSlotCapdone
  try dsimp only
  repeat' first | intro _ | (with_reducible first | assumption | apply live_kept | apply State.tuneEnd_kept | apply State.raise_kept | apply Kept.foldl | apply Kept.foldl_fst | apply KeptOut.live | apply KeptOut.next) | (with_reducible refine Kept.mk rfl rfl rfl rfl ?_; with_reducible first | assumption | apply live_kept | apply State.tuneEnd_kept | apply State.raise_kept | apply Kept.foldl | apply Kept.foldl_fst) | split | dsimp only | with_reducible apply Kept.ite

theorem State.mcCommit_kept {Q : List Instr} (s : State) (v : Nat) (h0 : Kept Q s) :
    Kept Q (State.mcCommit s v) := by
  unfold State.mcCommit
  try dsimp only
  repeat' first | intro _ | (with_reducible first | assumption | apply State.raise_kept | apply State.wr_kept | apply Kept.foldl | apply Kept.foldl_fst) | (with_reducible refine Kept.mk rfl rfl rfl rfl ?_; with_reducible first | assumption | apply State.raise_kept | apply State.wr_kept | apply Kept.foldl | apply Kept.foldl_fst) | split | dsimp only | with_reducible apply Kept.ite

theorem execEbmchiWrite_kept {Q : List Instr} (r : Requester) (v : Word) (s : State) (h0 : Kept Q s) :
    KeptOut Q (execEbmchiWrite r v s) := by
  unfold execEbmchiWrite
  try dsimp only
  repeat' first | intro _ | (with_reducible first | assumption | apply live_kept | apply State.guardReg_kept | apply State.mcCommit_kept | apply Kept.foldl | apply Kept.foldl_fst | apply KeptOut.live | apply KeptOut.next) | (with_reducible refine Kept.mk rfl rfl rfl rfl ?_; with_reducible first | assumption | apply live_kept | apply State.guardReg_kept | apply State.mcCommit_kept | apply Kept.foldl | apply Kept.foldl_fst) | split | dsimp only | with_reducible apply Kept.ite

theorem State.slXdata_kept {Q : List Instr} (s : State) (n v : Nat) (h0 : Kept Q s) :
    Kept Q (State.slXdata s n v) := by
  unfold State.slXdata
  try dsimp only
  repeat' first | intro _ | (with_reducible first | assumption | apply State.updSlot_kept | apply State.wr_kept | apply State.raise_kept | apply Kept.foldl | apply Kept.foldl_fst) | (with_reducible refine Kept.mk rfl rfl rfl rfl ?_; with_reducible first | assumption | apply State.updSlot_kept | apply State.wr_kept | apply State.raise_kept | apply Kept.foldl | apply Kept.foldl_fst) | split | dsimp only | with_reducible apply Kept.ite

theorem execSlxdataWrite_kept {Q : List Instr} (r : Requester) (n : Fin 96) (v : Word) (s : State) (h0 : Kept Q s) :
    KeptOut Q (execSlxdataWrite r n v s) := by
  unfold execSlxdataWrite
  try dsimp only
  repeat' first | intro _ | (with_reducible first | assumption | apply live_kept | apply State.guardReg_kept | apply State.slXdata_kept | apply Kept.foldl | apply Kept.foldl_fst | apply KeptOut.live | apply KeptOut.next) | (with_reducible refine Kept.mk rfl rfl rfl rfl ?_; with_reducible first | assumption | apply live_kept | apply State.guardReg_kept | apply State.slXdata_kept | apply Kept.foldl | apply Kept.foldl_fst) | split | dsimp only | with_reducible apply Kept.ite

theorem execLoopLoadWindow_kept {Q : List Instr} (s : State) (h0 : Kept Q s) :
    KeptOut Q (execLoopLoadWindow s) := by
  unfold execLoopLoadWindow
  try dsimp only
  repeat' first | intro _ | (with_reducible first | assumption | apply State.load_kept | apply State.wr_kept | apply live_kept | apply State.setFlag_kept | apply State.raise_kept | apply Kept.foldl | apply Kept.foldl_fst | apply KeptOut.live | apply KeptOut.next) | (with_reducible refine Kept.mk rfl rfl rfl rfl ?_; with_reducible first | assumption | apply State.load_kept | apply State.wr_kept | apply live_kept | apply State.setFlag_kept | apply State.raise_kept | apply Kept.foldl | apply Kept.foldl_fst) | split | dsimp only | with_reducible apply Kept.ite

theorem execVcmCoilFault_kept {Q : List Instr} (n : Fin 16) (short : Bool) (s : State) (h0 : Kept Q s) :
    KeptOut Q (execVcmCoilFault n short s) := by
  unfold execVcmCoilFault
  try dsimp only
  repeat' first | intro _ | (with_reducible first | assumption | apply State.setFlag_kept | apply State.wr_kept | apply State.raise_kept | apply live_kept | apply State.slotFault_kept | apply Kept.foldl | apply Kept.foldl_fst | apply KeptOut.live | apply KeptOut.next) | (with_reducible refine Kept.mk rfl rfl rfl rfl ?_; with_reducible first | assumption | apply State.setFlag_kept | apply State.wr_kept | apply State.raise_kept | apply live_kept | apply State.slotFault_kept | apply Kept.foldl | apply Kept.foldl_fst) | split | dsimp only | with_reducible apply Kept.ite

end Sys2Proof.Machine
end

