-- ==== Sys2Proof/Laws/KeptRead.lean ====
section
/-! SUPPORT. Soundness is kept by every operation and meaning of Machine/Read.lean. -/

namespace Sys2Proof.Machine

theorem State.updRp_kept {Q : List Instr} (s : State) (f : ReadPath → ReadPath) (h0 : Kept Q s) :
    Kept Q (State.updRp s f) := by
  unfold State.updRp
  try dsimp only
  repeat' first | intro _ | (with_reducible first | assumption | apply Kept.foldl | apply Kept.foldl_fst) | (with_reducible refine Kept.mk rfl rfl rfl rfl ?_; with_reducible first | assumption | apply Kept.foldl | apply Kept.foldl_fst) | split | dsimp only | with_reducible apply Kept.ite

theorem State.flushRecs_kept {Q : List Instr} (s : State) (x0 : Nat) (h0 : Kept Q s) :
    Kept Q (State.flushRecs s x0) := by
  induction x0 generalizing s with
  | zero =>
    unfold State.flushRecs
    try dsimp only
    repeat' first | intro _ | (with_reducible first | assumption | apply State.setFlag_kept | apply State.updRp_kept | apply State.raise_kept | apply State.engineStore_kept | apply State.wr_kept | apply Kept.foldl | apply Kept.foldl_fst) | (with_reducible refine Kept.mk rfl rfl rfl rfl ?_; with_reducible first | assumption | apply State.setFlag_kept | apply State.updRp_kept | apply State.raise_kept | apply State.engineStore_kept | apply State.wr_kept | apply Kept.foldl | apply Kept.foldl_fst) | split | dsimp only | with_reducible apply Kept.ite
  | succ n ih =>
    unfold State.flushRecs
    try dsimp only
    repeat' first | intro _ | (with_reducible first | apply ih | assumption | apply State.setFlag_kept | apply State.updRp_kept | apply State.raise_kept | apply State.engineStore_kept | apply State.wr_kept | apply Kept.foldl | apply Kept.foldl_fst) | (with_reducible refine Kept.mk rfl rfl rfl rfl ?_; with_reducible first | assumption | apply State.setFlag_kept | apply State.updRp_kept | apply State.raise_kept | apply State.engineStore_kept | apply State.wr_kept | apply Kept.foldl | apply Kept.foldl_fst) | split | dsimp only | with_reducible apply Kept.ite

theorem State.addRec_kept {Q : List Instr} (s : State) (w0 w1 tag : Nat) (h0 : Kept Q s) :
    Kept Q (State.addRec s w0 w1 tag) := by
  unfold State.addRec
  try dsimp only
  repeat' first | intro _ | (with_reducible first | assumption | apply State.updRp_kept | apply State.flushRecs_kept | apply Kept.foldl | apply Kept.foldl_fst) | (with_reducible refine Kept.mk rfl rfl rfl rfl ?_; with_reducible first | assumption | apply State.updRp_kept | apply State.flushRecs_kept | apply Kept.foldl | apply Kept.foldl_fst) | split | dsimp only | with_reducible apply Kept.ite

theorem State.descRec_kept {Q : List Instr} (s : State) (d : RDesc) (kind code : Nat) (h0 : Kept Q s) :
    Kept Q (State.descRec s d kind code) := by
  unfold State.descRec
  try dsimp only
  repeat' first | intro _ | (with_reducible first | assumption | apply State.addRec_kept | apply State.raise_kept | apply Kept.foldl | apply Kept.foldl_fst) | (with_reducible refine Kept.mk rfl rfl rfl rfl ?_; with_reducible first | assumption | apply State.addRec_kept | apply State.raise_kept | apply Kept.foldl | apply Kept.foldl_fst) | split | dsimp only | with_reducible apply Kept.ite

theorem State.fillQueue_kept {Q : List Instr} (s : State) (h0 : Kept Q s) :
    Kept Q (State.fillQueue s) := by
  unfold State.fillQueue
  try dsimp only
  repeat' first | intro _ | (with_reducible first | assumption | apply State.updRp_kept | apply State.take_kept | apply Kept.foldl | apply Kept.foldl_fst) | (with_reducible refine Kept.mk rfl rfl rfl rfl ?_; with_reducible first | assumption | apply State.updRp_kept | apply State.take_kept | apply Kept.foldl | apply Kept.foldl_fst) | split | dsimp only | with_reducible apply Kept.ite

theorem State.numDesc_kept {Q : List Instr} (s : State) (d : RDesc) (h0 : Kept Q s) :
    Kept Q (State.numDesc s d).1 := by
  unfold State.numDesc
  try dsimp only
  repeat' first | intro _ | (with_reducible first | assumption | apply State.updRp_kept | apply Kept.foldl | apply Kept.foldl_fst) | (with_reducible refine Kept.mk rfl rfl rfl rfl ?_; with_reducible first | assumption | apply State.updRp_kept | apply Kept.foldl | apply Kept.foldl_fst) | split | dsimp only | with_reducible apply Kept.ite

theorem State.postRead_kept {Q : List Instr} (s : State) (d : RDesc) (h0 : Kept Q s) :
    Kept Q (State.postRead s d) := by
  unfold State.postRead
  try dsimp only
  repeat' first | intro _ | (with_reducible first | assumption | apply State.numDesc_kept | apply State.descRec_kept | apply State.updRp_kept | apply State.fillQueue_kept | apply Kept.foldl | apply Kept.foldl_fst) | (with_reducible refine Kept.mk rfl rfl rfl rfl ?_; with_reducible first | assumption | apply State.numDesc_kept | apply State.descRec_kept | apply State.updRp_kept | apply State.fillQueue_kept | apply Kept.foldl | apply Kept.foldl_fst) | split | dsimp only | with_reducible apply Kept.ite

theorem State.postLbas_kept {Q : List Instr} (s : State) (op nsid lba n : Nat) (verify : Bool) (skip : Nat) (h0 : Kept Q s) :
    Kept Q (State.postLbas s op nsid lba n verify skip) := by
  unfold State.postLbas
  try dsimp only
  repeat' first | intro _ | (with_reducible first | assumption | apply State.postRead_kept | apply Kept.foldl | apply Kept.foldl_fst) | (with_reducible refine Kept.mk rfl rfl rfl rfl ?_; with_reducible first | assumption | apply State.postRead_kept | apply Kept.foldl | apply Kept.foldl_fst) | split | dsimp only | with_reducible apply Kept.ite

theorem State.countRead_kept {Q : List Instr} (s : State) (o : Op) (n : Nat) (h0 : Kept Q s) :
    Kept Q (State.countRead s o n) := by
  unfold State.countRead
  try dsimp only
  repeat' first | intro _ | (with_reducible first | assumption | apply State.count_kept | apply Kept.foldl | apply Kept.foldl_fst) | (with_reducible refine Kept.mk rfl rfl rfl rfl ?_; with_reducible first | assumption | apply State.count_kept | apply Kept.foldl | apply Kept.foldl_fst) | split | dsimp only | with_reducible apply Kept.ite

theorem State.opReadStep_kept {Q : List Instr} (s : State) (id : Nat) (h0 : Kept Q s) :
    Kept Q (State.opReadStep s id) := by
  unfold State.opReadStep
  try dsimp only
  repeat' first | intro _ | (with_reducible first | assumption | apply State.countRead_kept | apply State.take_kept | apply State.endOp_kept | apply Kept.foldl | apply Kept.foldl_fst) | (with_reducible refine Kept.mk rfl rfl rfl rfl ?_; with_reducible first | assumption | apply State.countRead_kept | apply State.take_kept | apply State.endOp_kept | apply Kept.foldl | apply Kept.foldl_fst) | split | dsimp only | with_reducible apply Kept.ite

theorem State.opPage_kept {Q : List Instr} (s : State) (id k : Nat) (page : Option Nat) (h0 : Kept Q s) :
    Kept Q (State.opPage s id k page) := by
  unfold State.opPage
  try dsimp only
  repeat' first | intro _ | (with_reducible first | assumption | apply State.setOp_kept | apply Kept.foldl | apply Kept.foldl_fst) | (with_reducible refine Kept.mk rfl rfl rfl rfl ?_; with_reducible first | assumption | apply State.setOp_kept | apply Kept.foldl | apply Kept.foldl_fst) | split | dsimp only | with_reducible apply Kept.ite

theorem State.opDescDone_kept {Q : List Instr} (s : State) (d : RDesc) (h0 : Kept Q s) :
    Kept Q (State.opDescDone s d) := by
  unfold State.opDescDone
  try dsimp only
  repeat' first | intro _ | (with_reducible first | assumption | apply State.opReadStep_kept | apply Kept.foldl | apply Kept.foldl_fst) | (with_reducible refine Kept.mk rfl rfl rfl rfl ?_; with_reducible first | assumption | apply State.opReadStep_kept | apply Kept.foldl | apply Kept.foldl_fst) | split | dsimp only | with_reducible apply Kept.ite

theorem State.setRtray_kept {Q : List Instr} (s : State) (t : RTray) (h0 : Kept Q s) :
    Kept Q (State.setRtray s t) := by
  unfold State.setRtray
  try dsimp only
  repeat' first | intro _ | (with_reducible first | assumption | apply State.updRp_kept | apply Kept.foldl | apply Kept.foldl_fst) | (with_reducible refine Kept.mk rfl rfl rfl rfl ?_; with_reducible first | assumption | apply State.updRp_kept | apply Kept.foldl | apply Kept.foldl_fst) | split | dsimp only | with_reducible apply Kept.ite

theorem State.deliver_kept {Q : List Instr} (s : State) (d : RDesc) (q : Nat) (c : Cw) (h0 : Kept Q s) :
    Kept Q (State.deliver s d q c) := by
  unfold State.deliver
  try dsimp only
  repeat' first | intro _ | (with_reducible first | assumption | apply State.count_kept | apply State.opPage_kept | apply State.engineStore_kept | apply Kept.foldl | apply Kept.foldl_fst) | (with_reducible refine Kept.mk rfl rfl rfl rfl ?_; with_reducible first | assumption | apply State.count_kept | apply State.opPage_kept | apply State.engineStore_kept | apply Kept.foldl | apply Kept.foldl_fst) | split | dsimp only | with_reducible apply Kept.ite

theorem State.cwOk_kept {Q : List Instr} (s : State) (t : RTray) (b p step : Nat) (h0 : Kept Q s) :
    Kept Q (State.cwOk s t b p step).1 := by
  unfold State.cwOk
  try dsimp only
  repeat' first | intro _ | (with_reducible first | assumption | apply State.deliver_kept | apply Kept.foldl | apply Kept.foldl_fst) | (with_reducible refine Kept.mk rfl rfl rfl rfl ?_; with_reducible first | assumption | apply State.deliver_kept | apply Kept.foldl | apply Kept.foldl_fst) | split | dsimp only | with_reducible apply Kept.ite

theorem State.realloc_kept {Q : List Instr} (s : State) (T : Nat) (x : RBlk) (h0 : Kept Q s) :
    Kept Q (State.realloc s T x).1 := by
  unfold State.realloc
  try dsimp only
  repeat' first | intro _ | (with_reducible first | assumption | apply State.wr_kept | apply State.raise_kept | apply Kept.foldl | apply Kept.foldl_fst) | (with_reducible refine Kept.mk rfl rfl rfl rfl ?_; with_reducible first | assumption | apply State.wr_kept | apply State.raise_kept | apply Kept.foldl | apply Kept.foldl_fst) | split | dsimp only | with_reducible apply Kept.ite

theorem State.blockRec_kept {Q : List Instr} (s : State) (d : RDesc) (x : RBlk) (h0 : Kept Q s) :
    Kept Q (State.blockRec s d x) := by
  unfold State.blockRec
  try dsimp only
  repeat' first | intro _ | (with_reducible first | assumption | apply State.report_kept | apply State.raise_kept | apply State.count_kept | apply State.realloc_kept | apply State.wr_kept | apply State.addRec_kept | apply Kept.foldl | apply Kept.foldl_fst) | (with_reducible refine Kept.mk rfl rfl rfl rfl ?_; with_reducible first | assumption | apply State.report_kept | apply State.raise_kept | apply State.count_kept | apply State.realloc_kept | apply State.wr_kept | apply State.addRec_kept | apply Kept.foldl | apply Kept.foldl_fst) | split | dsimp only | with_reducible apply Kept.ite

theorem State.missing_kept {Q : List Instr} (s : State) (t : RTray) (h0 : Kept Q s) :
    Kept Q (State.missing s t) := by
  unfold State.missing
  try dsimp only
  repeat' first | intro _ | (with_reducible first | assumption | apply State.opPage_kept | apply Kept.foldl | apply Kept.foldl_fst) | (with_reducible refine Kept.mk rfl rfl rfl rfl ?_; with_reducible first | assumption | apply State.opPage_kept | apply Kept.foldl | apply Kept.foldl_fst) | split | dsimp only | with_reducible apply Kept.ite

theorem State.endTrayRead_kept {Q : List Instr} (s : State) (t : RTray) (h0 : Kept Q s) :
    Kept Q (State.endTrayRead s t) := by
  unfold State.endTrayRead
  try dsimp only
  repeat' first | intro _ | (with_reducible first | assumption | apply State.updRp_kept | apply State.blockRec_kept | apply State.missing_kept | apply State.count_kept | apply State.descRec_kept | apply State.opDescDone_kept | apply State.fillQueue_kept | apply Kept.foldl | apply Kept.foldl_fst) | (with_reducible refine Kept.mk rfl rfl rfl rfl ?_; with_reducible first | assumption | apply State.updRp_kept | apply State.blockRec_kept | apply State.missing_kept | apply State.count_kept | apply State.descRec_kept | apply State.opDescDone_kept | apply State.fillQueue_kept | apply Kept.foldl | apply Kept.foldl_fst) | split | dsimp only | with_reducible apply Kept.ite

theorem State.changeSpeed_kept {Q : List Instr} (s : State) (slow : Bool) (h0 : Kept Q s) :
    Kept Q (State.changeSpeed s slow).1 := by
  unfold State.changeSpeed
  try dsimp only
  repeat' first | intro _ | (with_reducible first | assumption | apply State.spinChange_kept | apply Kept.foldl | apply Kept.foldl_fst) | (with_reducible refine Kept.mk rfl rfl rfl rfl ?_; with_reducible first | assumption | apply State.spinChange_kept | apply Kept.foldl | apply Kept.foldl_fst) | split | dsimp only | with_reducible apply Kept.ite

theorem State.batchStep_kept {Q : List Instr} (s : State) (h0 : Kept Q s) :
    Kept Q (State.batchStep s) := by
  unfold State.batchStep
  try dsimp only
  repeat' first | intro _ | (with_reducible first | assumption | apply State.changeSpeed_kept | apply State.updRp_kept | apply Kept.foldl | apply Kept.foldl_fst) | (with_reducible refine Kept.mk rfl rfl rfl rfl ?_; with_reducible first | assumption | apply State.changeSpeed_kept | apply State.updRp_kept | apply Kept.foldl | apply Kept.foldl_fst) | split | dsimp only | with_reducible apply Kept.ite

theorem State.ladder_kept {Q : List Instr} (s : State) (num : Nat) (x0 : Nat) (h0 : Kept Q s) :
    Kept Q (State.ladder s num x0) := by
  induction x0 generalizing s num with
  | zero =>
    unfold State.ladder
    try dsimp only
    repeat' first | intro _ | (with_reducible first | assumption | apply State.endTrayRead_kept | apply State.setRtray_kept | apply State.setFlag_kept | apply State.batchStep_kept | apply Kept.foldl | apply Kept.foldl_fst) | (with_reducible refine Kept.mk rfl rfl rfl rfl ?_; with_reducible first | assumption | apply State.endTrayRead_kept | apply State.setRtray_kept | apply State.setFlag_kept | apply State.batchStep_kept | apply Kept.foldl | apply Kept.foldl_fst) | split | dsimp only | with_reducible apply Kept.ite
  | succ n ih =>
    unfold State.ladder
    try dsimp only
    repeat' first | intro _ | (with_reducible first | apply ih | assumption | apply State.endTrayRead_kept | apply State.setRtray_kept | apply State.setFlag_kept | apply State.batchStep_kept | apply Kept.foldl | apply Kept.foldl_fst) | (with_reducible refine Kept.mk rfl rfl rfl rfl ?_; with_reducible first | assumption | apply State.endTrayRead_kept | apply State.setRtray_kept | apply State.setFlag_kept | apply State.batchStep_kept | apply Kept.foldl | apply Kept.foldl_fst) | split | dsimp only | with_reducible apply Kept.ite

theorem State.headsTo_kept {Q : List Instr} (s : State) (T : Nat) (seek : Bool) (h0 : Kept Q s) :
    Kept Q (State.headsTo s T seek) := by
  unfold State.headsTo
  try dsimp only
  repeat' first | intro _ | (with_reducible first | assumption | apply State.wr_kept | apply State.setHState_kept | apply State.updHd_kept | apply State.count_kept | apply Kept.foldl | apply Kept.foldl_fst) | (with_reducible refine Kept.mk rfl rfl rfl rfl ?_; with_reducible first | assumption | apply State.wr_kept | apply State.setHState_kept | apply State.updHd_kept | apply State.count_kept | apply Kept.foldl | apply Kept.foldl_fst) | split | dsimp only | with_reducible apply Kept.ite

theorem execReadDescriptorStart_kept {Q : List Instr} (s : State) (h0 : Kept Q s) :
    KeptOut Q (execReadDescriptorStart s) := by
  unfold execReadDescriptorStart
  try dsimp only
  repeat' first | intro _ | (with_reducible first | assumption | apply State.updRp_kept | apply live_kept | apply State.headsTo_kept | apply State.fillQueue_kept | apply Kept.foldl | apply Kept.foldl_fst | apply KeptOut.live | apply KeptOut.next) | (with_reducible refine Kept.mk rfl rfl rfl rfl ?_; with_reducible first | assumption | apply State.updRp_kept | apply live_kept | apply State.headsTo_kept | apply State.fillQueue_kept | apply Kept.foldl | apply Kept.foldl_fst) | split | dsimp only | with_reducible apply Kept.ite

theorem execReadQueueEmptyResume_kept {Q : List Instr} (s : State) (h0 : Kept Q s) :
    KeptOut Q (execReadQueueEmptyResume s) := by
  unfold execReadQueueEmptyResume
  try dsimp only
  repeat' first | intro _ | (with_reducible first | assumption | apply State.updRp_kept | apply State.headsTo_kept | apply live_kept | apply Kept.foldl | apply Kept.foldl_fst | apply KeptOut.live | apply KeptOut.next) | (with_reducible refine Kept.mk rfl rfl rfl rfl ?_; with_reducible first | assumption | apply State.updRp_kept | apply State.headsTo_kept | apply live_kept | apply Kept.foldl | apply Kept.foldl_fst) | split | dsimp only | with_reducible apply Kept.ite

theorem execPositionBlank_kept {Q : List Instr} (pos : Nat) (s : State) (h0 : Kept Q s) :
    KeptOut Q (execPositionBlank pos s) := by
  unfold execPositionBlank
  try dsimp only
  repeat' first | intro _ | (with_reducible first | assumption | apply State.updRp_kept | apply State.missing_kept | apply live_kept | apply State.descRec_kept | apply State.opDescDone_kept | apply State.fillQueue_kept | apply Kept.foldl | apply Kept.foldl_fst | apply KeptOut.live | apply KeptOut.next) | (with_reducible refine Kept.mk rfl rfl rfl rfl ?_; with_reducible first | assumption | apply State.updRp_kept | apply State.missing_kept | apply live_kept | apply State.descRec_kept | apply State.opDescDone_kept | apply State.fillQueue_kept | apply Kept.foldl | apply Kept.foldl_fst) | split | dsimp only | with_reducible apply Kept.ite

theorem State.setLive_kept {Q : List Instr} (s : State) (b : Nat) (bs : List Byte) (h0 : Kept Q s) :
    Kept Q (State.setLive s b bs) := by
  unfold State.setLive
  try dsimp only
  repeat' first | intro _ | (with_reducible first | assumption | apply State.wr_kept | apply State.take_kept | apply Kept.foldl | apply Kept.foldl_fst) | (with_reducible refine Kept.mk rfl rfl rfl rfl ?_; with_reducible first | assumption | apply State.wr_kept | apply State.take_kept | apply Kept.foldl | apply Kept.foldl_fst) | split | dsimp only | with_reducible apply Kept.ite

theorem State.agc_kept {Q : List Instr} (s : State) (b peak : Nat) (mean : Int) (h0 : Kept Q s) :
    Kept Q (State.agc s b peak mean) := by
  unfold State.agc
  try dsimp only
  repeat' first | intro _ | (with_reducible first | assumption | apply State.setLive_kept | apply State.raise_kept | apply Kept.foldl | apply Kept.foldl_fst) | (with_reducible refine Kept.mk rfl rfl rfl rfl ?_; with_reducible first | assumption | apply State.setLive_kept | apply State.raise_kept | apply Kept.foldl | apply Kept.foldl_fst) | split | dsimp only | with_reducible apply Kept.ite

theorem State.exportDeep_kept {Q : List Instr} (s : State) (t : RTray) (b p : Nat) (h0 : Kept Q s) :
    Kept Q (State.exportDeep s t b p).1 := by
  unfold State.exportDeep
  try dsimp only
  repeat' first | intro _ | (with_reducible first | assumption | apply State.raise_kept | apply State.wr_kept | apply State.updRp_kept | apply Kept.foldl | apply Kept.foldl_fst) | (with_reducible refine Kept.mk rfl rfl rfl rfl ?_; with_reducible first | assumption | apply State.raise_kept | apply State.wr_kept | apply State.updRp_kept | apply Kept.foldl | apply Kept.foldl_fst) | split | dsimp only | with_reducible apply Kept.ite

theorem State.runPool_kept {Q : List Instr} (s : State) (h0 : Kept Q s) :
    Kept Q (State.runPool s) := by
  unfold State.runPool
  try dsimp only
  repeat' first | intro _ | (with_reducible first | assumption | apply State.updRp_kept | apply State.wr_kept | apply Kept.foldl | apply Kept.foldl_fst) | (with_reducible refine Kept.mk rfl rfl rfl rfl ?_; with_reducible first | assumption | apply State.updRp_kept | apply State.wr_kept | apply Kept.foldl | apply Kept.foldl_fst) | split | dsimp only | with_reducible apply Kept.ite

theorem State.inlineBlock_kept {Q : List Instr} (s : State) (t : RTray) (b : Nat) (seen : Seen) (h0 : Kept Q s) :
    Kept Q (State.inlineBlock s t b seen).1 := by
  unfold State.inlineBlock
  try dsimp only
  repeat' first | intro _ | (with_reducible first | assumption | apply State.noteSeen_kept | apply State.count_kept | apply State.cwOk_kept | apply State.raise_kept | apply State.exportDeep_kept | apply State.runPool_kept | apply Kept.foldl | apply Kept.foldl_fst) | (with_reducible refine Kept.mk rfl rfl rfl rfl ?_; with_reducible first | assumption | apply State.noteSeen_kept | apply State.count_kept | apply State.cwOk_kept | apply State.raise_kept | apply State.exportDeep_kept | apply State.runPool_kept | apply Kept.foldl | apply Kept.foldl_fst) | split | dsimp only | with_reducible apply Kept.ite

theorem execInlineVerdict_kept {Q : List Instr} (pos : Nat) (b : Fin 48) (seen : Seen) (peak : Nat) (mean : Int) (s : State) (h0 : Kept Q s) :
    KeptOut Q (execInlineVerdict pos b seen peak mean s) := by
  unfold execInlineVerdict
  try dsimp only
  repeat' first | intro _ | (with_reducible first | assumption | apply State.inlineBlock_kept | apply live_kept | apply State.agc_kept | apply State.setRtray_kept | apply State.ladder_kept | apply Kept.foldl | apply Kept.foldl_fst | apply KeptOut.live | apply KeptOut.next) | (with_reducible refine Kept.mk rfl rfl rfl rfl ?_; with_reducible first | assumption | apply State.inlineBlock_kept | apply live_kept | apply State.agc_kept | apply State.setRtray_kept | apply State.ladder_kept | apply Kept.foldl | apply Kept.foldl_fst) | split | dsimp only | with_reducible apply Kept.ite

theorem execDeepDecodeDone_kept {Q : List Instr} (pos : Nat) (b : Fin 48) (p : Fin 24) (ok : Bool) (s : State) (h0 : Kept Q s) :
    KeptOut Q (execDeepDecodeDone pos b p ok s) := by
  unfold execDeepDecodeDone
  try dsimp only
  repeat' first | intro _ | (with_reducible first | assumption | apply State.updRp_kept | apply State.wr_kept | apply State.incWrap_kept | apply State.count_kept | apply State.cwOk_kept | apply live_kept | apply State.setRtray_kept | apply State.runPool_kept | apply State.ladder_kept | apply Kept.foldl | apply Kept.foldl_fst | apply KeptOut.live | apply KeptOut.next) | (with_reducible refine Kept.mk rfl rfl rfl rfl ?_; with_reducible first | assumption | apply State.updRp_kept | apply State.wr_kept | apply State.incWrap_kept | apply State.count_kept | apply State.cwOk_kept | apply live_kept | apply State.setRtray_kept | apply State.runPool_kept | apply State.ladder_kept | apply Kept.foldl | apply Kept.foldl_fst) | split | dsimp only | with_reducible apply Kept.ite

theorem execSinkOverflow_kept {Q : List Instr} (pos : Nat) (b : Fin 48) (p : Fin 24) (s : State) (h0 : Kept Q s) :
    KeptOut Q (execSinkOverflow pos b p s) := by
  unfold execSinkOverflow
  try dsimp only
  repeat' first | intro _ | (with_reducible first | assumption | apply State.raise_kept | apply live_kept | apply State.setRtray_kept | apply State.ladder_kept | apply Kept.foldl | apply Kept.foldl_fst | apply KeptOut.live | apply KeptOut.next) | (with_reducible refine Kept.mk rfl rfl rfl rfl ?_; with_reducible first | assumption | apply State.raise_kept | apply live_kept | apply State.setRtray_kept | apply State.ladder_kept | apply Kept.foldl | apply Kept.foldl_fst) | split | dsimp only | with_reducible apply Kept.ite

theorem State.passBlock_kept {Q : List Instr} (s : State) (t : RTray) (x : Nat × Seen × List Nat) (h0 : Kept Q s) :
    Kept Q (State.passBlock s t x).1 := by
  unfold State.passBlock
  try dsimp only
  repeat' first | intro _ | (with_reducible first | assumption | apply State.noteSeen_kept | apply State.cwOk_kept | apply Kept.foldl | apply Kept.foldl_fst) | (with_reducible refine Kept.mk rfl rfl rfl rfl ?_; with_reducible first | assumption | apply State.noteSeen_kept | apply State.cwOk_kept | apply Kept.foldl | apply Kept.foldl_fst) | split | dsimp only | with_reducible apply Kept.ite

theorem execStep3PassEnd_kept {Q : List Instr} (pos : Nat) (seens : List (Nat × Seen × List Nat)) (s : State) (h0 : Kept Q s) :
    KeptOut Q (execStep3PassEnd pos seens s) := by
  unfold execStep3PassEnd
  try dsimp only
  repeat' first | intro _ | (with_reducible first | assumption | apply State.passBlock_kept | apply State.count_kept | apply live_kept | apply State.setRtray_kept | apply State.ladder_kept | apply Kept.foldl | apply Kept.foldl_fst | apply KeptOut.live | apply KeptOut.next) | (with_reducible refine Kept.mk rfl rfl rfl rfl ?_; with_reducible first | assumption | apply State.passBlock_kept | apply State.count_kept | apply live_kept | apply State.setRtray_kept | apply State.ladder_kept | apply Kept.foldl | apply Kept.foldl_fst) | split | dsimp only | with_reducible apply Kept.ite

theorem execOuterRecovery_kept {Q : List Instr} (pos : Nat) (p : Fin 24) (bad : List Nat) (s : State) (h0 : Kept Q s) :
    KeptOut Q (execOuterRecovery pos p bad s) := by
  unfold execOuterRecovery
  try dsimp only
  repeat' first | intro _ | (with_reducible first | assumption | apply State.incWrap_kept | apply State.count_kept | apply State.cwOk_kept | apply live_kept | apply State.setRtray_kept | apply State.ladder_kept | apply Kept.foldl | apply Kept.foldl_fst | apply KeptOut.live | apply KeptOut.next) | (with_reducible refine Kept.mk rfl rfl rfl rfl ?_; with_reducible first | assumption | apply State.incWrap_kept | apply State.count_kept | apply State.cwOk_kept | apply live_kept | apply State.setRtray_kept | apply State.ladder_kept | apply Kept.foldl | apply Kept.foldl_fst) | split | dsimp only | with_reducible apply Kept.ite

theorem State.failBatch_kept {Q : List Instr} (s : State) (h0 : Kept Q s) :
    Kept Q (State.failBatch s) := by
  unfold State.failBatch
  try dsimp only
  repeat' first | intro _ | (with_reducible first | assumption | apply State.endTrayRead_kept | apply Kept.foldl | apply Kept.foldl_fst) | (with_reducible refine Kept.mk rfl rfl rfl rfl ?_; with_reducible first | assumption | apply State.endTrayRead_kept | apply Kept.foldl | apply Kept.foldl_fst) | split | dsimp only | with_reducible apply Kept.ite

theorem execStep5GatherTimeout_kept {Q : List Instr} (s : State) (h0 : Kept Q s) :
    KeptOut Q (execStep5GatherTimeout s) := by
  unfold execStep5GatherTimeout
  try dsimp only
  repeat' first | intro _ | (with_reducible first | assumption | apply State.count_kept | apply State.changeSpeed_kept | apply live_kept | apply State.updRp_kept | apply State.setFlag_kept | apply State.failBatch_kept | apply Kept.foldl | apply Kept.foldl_fst | apply KeptOut.live | apply KeptOut.next) | (with_reducible refine Kept.mk rfl rfl rfl rfl ?_; with_reducible first | assumption | apply State.count_kept | apply State.changeSpeed_kept | apply live_kept | apply State.updRp_kept | apply State.setFlag_kept | apply State.failBatch_kept | apply Kept.foldl | apply Kept.foldl_fst) | split | dsimp only | with_reducible apply Kept.ite

theorem execSpeedChangeDone_kept {Q : List Instr} (relocked : Bool) (s : State) (h0 : Kept Q s) :
    KeptOut Q (execSpeedChangeDone relocked s) := by
  unfold execSpeedChangeDone
  try dsimp only
  repeat' first | intro _ | (with_reducible first | assumption | apply State.setSp_kept | apply State.raise_kept | apply live_kept | apply State.updRp_kept | apply State.failBatch_kept | apply State.changeSpeed_kept | apply State.setFlag_kept | apply State.psOps_kept | apply Kept.foldl | apply Kept.foldl_fst | apply KeptOut.live | apply KeptOut.next) | (with_reducible refine Kept.mk rfl rfl rfl rfl ?_; with_reducible first | assumption | apply State.setSp_kept | apply State.raise_kept | apply live_kept | apply State.updRp_kept | apply State.failBatch_kept | apply State.changeSpeed_kept | apply State.setFlag_kept | apply State.psOps_kept | apply Kept.foldl | apply Kept.foldl_fst) | split | dsimp only | with_reducible apply Kept.ite

theorem State.mrsTail_kept {Q : List Instr} (t : State) (v : Nat) (h0 : Kept Q t) :
    Kept Q (State.mrsTail t v) := by
  unfold State.mrsTail
  try dsimp only
  repeat' first | intro _ | (with_reducible first | assumption | apply State.storeReg_kept | apply State.flushRecs_kept | apply Kept.foldl | apply Kept.foldl_fst) | (with_reducible refine Kept.mk rfl rfl rfl rfl ?_; with_reducible first | assumption | apply State.storeReg_kept | apply State.flushRecs_kept | apply Kept.foldl | apply Kept.foldl_fst) | split | dsimp only | with_reducible apply Kept.ite

theorem execMrstailWrite_kept {Q : List Instr} (r : Requester) (v : Word) (s : State) (h0 : Kept Q s) :
    KeptOut Q (execMrstailWrite r v s) := by
  unfold execMrstailWrite
  try dsimp only
  repeat' first | intro _ | (with_reducible first | assumption | apply live_kept | apply State.guardReg_kept | apply State.mrsTail_kept | apply Kept.foldl | apply Kept.foldl_fst | apply KeptOut.live | apply KeptOut.next) | (with_reducible refine Kept.mk rfl rfl rfl rfl ?_; with_reducible first | assumption | apply live_kept | apply State.guardReg_kept | apply State.mrsTail_kept | apply Kept.foldl | apply Kept.foldl_fst) | split | dsimp only | with_reducible apply Kept.ite

theorem execReadTableSwap_kept {Q : List Instr} (b : Fin 48) (l0 : Fin 16) (z0 : Fin 32) (l : Fin 16) (z : Fin 32) (s : State) (h0 : Kept Q s) :
    KeptOut Q (execReadTableSwap b l0 z0 l z s) := by
  unfold execReadTableSwap
  try dsimp only
  repeat' first | intro _ | (with_reducible first | assumption | apply State.engineStore_kept | apply live_kept | apply State.setLive_kept | apply State.take_kept | apply Kept.foldl | apply Kept.foldl_fst | apply KeptOut.live | apply KeptOut.next) | (with_reducible refine Kept.mk rfl rfl rfl rfl ?_; with_reducible first | assumption | apply State.engineStore_kept | apply live_kept | apply State.setLive_kept | apply State.take_kept | apply Kept.foldl | apply Kept.foldl_fst) | split | dsimp only | with_reducible apply Kept.ite

theorem execBrliveWrite_kept {Q : List Instr} (r : Requester) (b : Fin 48) (i : Fin 4) (v : Word) (s : State) (h0 : Kept Q s) :
    KeptOut Q (execBrliveWrite r b i v s) := by
  unfold execBrliveWrite
  try dsimp only
  repeat' first | intro _ | (with_reducible first | assumption | apply live_kept | apply State.guardReg_kept | apply State.storeReg_kept | apply Kept.foldl | apply Kept.foldl_fst | apply KeptOut.live | apply KeptOut.next) | (with_reducible refine Kept.mk rfl rfl rfl rfl ?_; with_reducible first | assumption | apply live_kept | apply State.guardReg_kept | apply State.storeReg_kept | apply Kept.foldl | apply Kept.foldl_fst) | split | dsimp only | with_reducible apply Kept.ite

theorem State.mrBaseHi_kept {Q : List Instr} (t : State) (v : Nat) (h0 : Kept Q t) :
    Kept Q (State.mrBaseHi t v) := by
  unfold State.mrBaseHi
  try dsimp only
  repeat' first | intro _ | (with_reducible first | assumption | apply State.storeReg_kept | apply State.updRp_kept | apply State.setFlag_kept | apply Kept.foldl | apply Kept.foldl_fst) | (with_reducible refine Kept.mk rfl rfl rfl rfl ?_; with_reducible first | assumption | apply State.storeReg_kept | apply State.updRp_kept | apply State.setFlag_kept | apply Kept.foldl | apply Kept.foldl_fst) | split | dsimp only | with_reducible apply Kept.ite

theorem execMrbasehiWrite_kept {Q : List Instr} (r : Requester) (v : Word) (s : State) (h0 : Kept Q s) :
    KeptOut Q (execMrbasehiWrite r v s) := by
  unfold execMrbasehiWrite
  try dsimp only
  repeat' first | intro _ | (with_reducible first | assumption | apply live_kept | apply State.guardReg_kept | apply State.mrBaseHi_kept | apply Kept.foldl | apply Kept.foldl_fst | apply KeptOut.live | apply KeptOut.next) | (with_reducible refine Kept.mk rfl rfl rfl rfl ?_; with_reducible first | assumption | apply live_kept | apply State.guardReg_kept | apply State.mrBaseHi_kept | apply Kept.foldl | apply Kept.foldl_fst) | split | dsimp only | with_reducible apply Kept.ite

theorem execMrbaseApply_kept {Q : List Instr} (s : State) (h0 : Kept Q s) :
    KeptOut Q (execMrbaseApply s) := by
  unfold execMrbaseApply
  try dsimp only
  repeat' first | intro _ | (with_reducible first | assumption | apply live_kept | apply State.updRp_kept | apply State.setFlag_kept | apply Kept.foldl | apply Kept.foldl_fst | apply KeptOut.live | apply KeptOut.next) | (with_reducible refine Kept.mk rfl rfl rfl rfl ?_; with_reducible first | assumption | apply live_kept | apply State.updRp_kept | apply State.setFlag_kept | apply Kept.foldl | apply Kept.foldl_fst) | split | dsimp only | with_reducible apply Kept.ite

end Sys2Proof.Machine
end

