-- ==== Sys2Proof/Laws/KeptRecords.lean ====
section
/-! SUPPORT. Soundness is kept by every operation and meaning of Machine/Records.lean. -/

namespace Sys2Proof.Machine

theorem State.norErase_kept {Q : List Instr} (s : State) (off : Nat) (n : Nat) (h0 : Kept Q s) :
    Kept Q (State.norErase s off n) :=
  ⟨h0.1, Tbl.wf_filter memDefault _ _ h0.2.1, h0.2.2⟩

theorem State.norProgram_kept {Q : List Instr} (s : State) (off : Nat) (x0 : List Byte) (h0 : Kept Q s) :
    Kept Q (State.norProgram s off x0) := by
  induction x0 generalizing s off with
  | nil =>
    unfold State.norProgram
    try dsimp only
    repeat' first | intro _ | (with_reducible first | assumption | apply State.setByte_kept | apply Kept.foldl | apply Kept.foldl_fst) | (with_reducible refine Kept.mk rfl rfl rfl rfl ?_; with_reducible first | assumption | apply State.setByte_kept | apply Kept.foldl | apply Kept.foldl_fst) | split | dsimp only | with_reducible apply Kept.ite
  | cons b bs ih =>
    unfold State.norProgram
    try dsimp only
    repeat' first | intro _ | (with_reducible first | apply ih | assumption | apply State.setByte_kept | apply Kept.foldl | apply Kept.foldl_fst) | (with_reducible refine Kept.mk rfl rfl rfl rfl ?_; with_reducible first | assumption | apply State.setByte_kept | apply Kept.foldl | apply Kept.foldl_fst) | split | dsimp only | with_reducible apply Kept.ite

theorem State.norFail_kept {Q : List Instr} (s : State) (off n : Nat) (data : List Byte) (h0 : Kept Q s) :
    Kept Q (State.norFail s off n data) := by
  unfold State.norFail
  try dsimp only
  repeat' first | intro _ | (with_reducible first | assumption | apply State.storeBytes_kept | apply Kept.foldl | apply Kept.foldl_fst) | (with_reducible refine Kept.mk rfl rfl rfl rfl ?_; with_reducible first | assumption | apply State.storeBytes_kept | apply Kept.foldl | apply Kept.foldl_fst) | split | dsimp only | with_reducible apply Kept.ite

theorem State.norIssue_kept {Q : List Instr} (s : State) (o : NorOp) (h0 : Kept Q s) :
    Kept Q (State.norIssue s o) := by
  unfold State.norIssue
  try dsimp only
  repeat' first | intro _ | (with_reducible first | assumption | apply State.setFlag_kept | apply Kept.foldl | apply Kept.foldl_fst) | (with_reducible refine Kept.mk rfl rfl rfl rfl ?_; with_reducible first | assumption | apply State.setFlag_kept | apply Kept.foldl | apply Kept.foldl_fst) | split | dsimp only | with_reducible apply Kept.ite

theorem State.norEffect_kept {Q : List Instr} (s : State) (o : NorOp) (err : Bool) (h0 : Kept Q s) :
    Kept Q (State.norEffect s o err) := by
  unfold State.norEffect
  try dsimp only
  repeat' first | intro _ | (with_reducible first | assumption | apply State.norFail_kept | apply State.norErase_kept | apply State.norProgram_kept | apply Kept.foldl | apply Kept.foldl_fst) | (with_reducible refine Kept.mk rfl rfl rfl rfl ?_; with_reducible first | assumption | apply State.norFail_kept | apply State.norErase_kept | apply State.norProgram_kept | apply Kept.foldl | apply Kept.foldl_fst) | split | dsimp only | with_reducible apply Kept.ite

theorem State.norEnd_kept {Q : List Instr} (s : State) (o : NorOp) (err : Bool) (h0 : Kept Q s) :
    Kept Q (State.norEnd s o err) := by
  unfold State.norEnd
  try dsimp only
  repeat' first | intro _ | (with_reducible first | assumption | apply State.norEffect_kept | apply State.setFlag_kept | apply State.wr_kept | apply State.raise_kept | apply Kept.foldl | apply Kept.foldl_fst) | (with_reducible refine Kept.mk rfl rfl rfl rfl ?_; with_reducible first | assumption | apply State.norEffect_kept | apply State.setFlag_kept | apply State.wr_kept | apply State.raise_kept | apply Kept.foldl | apply Kept.foldl_fst) | split | dsimp only | with_reducible apply Kept.ite

theorem State.norCommand_kept {Q : List Instr} (s : State) (r : Requester) (pc v : Nat) (h0 : Kept Q s) :
    Kept Q (State.norCommand s r pc v) := by
  unfold State.norCommand
  try dsimp only
  repeat' first | intro _ | (with_reducible first | assumption | apply State.violation_kept | apply State.raise_kept | apply State.refuse_kept | apply State.wr_kept | apply State.norIssue_kept | apply Kept.foldl | apply Kept.foldl_fst) | (with_reducible refine Kept.mk rfl rfl rfl rfl ?_; with_reducible first | assumption | apply State.violation_kept | apply State.raise_kept | apply State.refuse_kept | apply State.wr_kept | apply State.norIssue_kept | apply Kept.foldl | apply Kept.foldl_fst) | split | dsimp only | with_reducible apply Kept.ite

theorem execNorProgram_kept {Q : List Instr} (r : Requester) (pc : Word) (len : Fin 512) (s : State) (h0 : Kept Q s) :
    KeptOut Q (execNorProgram r pc len s) := by
  unfold execNorProgram
  try dsimp only
  repeat' first | intro _ | (with_reducible first | assumption | apply live_kept | apply State.norCommand_kept | apply Kept.foldl | apply Kept.foldl_fst | apply KeptOut.live | apply KeptOut.next) | (with_reducible refine Kept.mk rfl rfl rfl rfl ?_; with_reducible first | assumption | apply live_kept | apply State.norCommand_kept | apply Kept.foldl | apply Kept.foldl_fst) | split | dsimp only | with_reducible apply Kept.ite

theorem execNorErase_kept {Q : List Instr} (r : Requester) (pc : Word) (s : State) (h0 : Kept Q s) :
    KeptOut Q (execNorErase r pc s) := by
  unfold execNorErase
  try dsimp only
  repeat' first | intro _ | (with_reducible first | assumption | apply live_kept | apply State.norCommand_kept | apply Kept.foldl | apply Kept.foldl_fst | apply KeptOut.live | apply KeptOut.next) | (with_reducible refine Kept.mk rfl rfl rfl rfl ?_; with_reducible first | assumption | apply live_kept | apply State.norCommand_kept | apply Kept.foldl | apply Kept.foldl_fst) | split | dsimp only | with_reducible apply Kept.ite

theorem State.setAge_kept {Q : List Instr} (s : State) (e : Nat) (a : Age) (h0 : Kept Q s) :
    Kept Q (State.setAge s e a) := by
  unfold State.setAge
  try dsimp only
  repeat' first | intro _ | (with_reducible first | assumption | apply Kept.foldl | apply Kept.foldl_fst) | (with_reducible refine Kept.mk rfl rfl rfl rfl ?_; with_reducible first | assumption | apply Kept.foldl | apply Kept.foldl_fst) | split | dsimp only | with_reducible apply Kept.ite

theorem State.measure_kept {Q : List Instr} (s : State) (e : Nat) (slope : Bool) (v : Nat) (h0 : Kept Q s) :
    Kept Q (State.measure s e slope v) := by
  unfold State.measure
  try dsimp only
  repeat' first | intro _ | (with_reducible first | assumption | apply State.count_kept | apply State.setAge_kept | apply Kept.foldl | apply Kept.foldl_fst) | (with_reducible refine Kept.mk rfl rfl rfl rfl ?_; with_reducible first | assumption | apply State.count_kept | apply State.setAge_kept | apply Kept.foldl | apply Kept.foldl_fst) | split | dsimp only | with_reducible apply Kept.ite

theorem State.setFields_kept {Q : List Instr} (s : State) (fs : List (UnitId × Field)) (vals : List Nat) (h0 : Kept Q s) :
    Kept Q (State.setFields s fs vals) := by
  unfold State.setFields
  try dsimp only
  repeat' first | intro _ | (with_reducible first | assumption | apply State.wr_kept | apply Kept.foldl | apply Kept.foldl_fst) | (with_reducible refine Kept.mk rfl rfl rfl rfl ?_; with_reducible first | assumption | apply State.wr_kept | apply Kept.foldl | apply Kept.foldl_fst) | split | dsimp only | with_reducible apply Kept.ite

theorem State.recLoad_kept {Q : List Instr} (s : State) (k : Nat) (vals : List Nat) (h0 : Kept Q s) :
    Kept Q (State.recLoad s k vals) := by
  unfold State.recLoad
  try dsimp only
  repeat' first | intro _ | (with_reducible first | assumption | apply State.engineStore_kept | apply State.setFields_kept | apply State.take_kept | apply Kept.foldl | apply Kept.foldl_fst) | (with_reducible refine Kept.mk rfl rfl rfl rfl ?_; with_reducible first | assumption | apply State.engineStore_kept | apply State.setFields_kept | apply State.take_kept | apply Kept.foldl | apply Kept.foldl_fst) | split | dsimp only | with_reducible apply Kept.ite

theorem State.recIssue_kept {Q : List Instr} (s : State) (h0 : Kept Q s) :
    Kept Q (State.recIssue s) := by
  unfold State.recIssue
  try dsimp only
  repeat' first | intro _ | (with_reducible first | assumption | apply State.norIssue_kept | apply Kept.foldl | apply Kept.foldl_fst) | (with_reducible refine Kept.mk rfl rfl rfl rfl ?_; with_reducible first | assumption | apply State.norIssue_kept | apply Kept.foldl | apply Kept.foldl_fst) | split | dsimp only | with_reducible apply Kept.ite

theorem State.recStart_kept {Q : List Instr} (s : State) (k : Nat) (again : Bool) (h0 : Kept Q s) :
    Kept Q (State.recStart s k again) := by
  unfold State.recStart
  try dsimp only
  repeat' first | intro _ | (with_reducible first | assumption | apply State.recIssue_kept | apply Kept.foldl | apply Kept.foldl_fst) | (with_reducible refine Kept.mk rfl rfl rfl rfl ?_; with_reducible first | assumption | apply State.recIssue_kept | apply Kept.foldl | apply Kept.foldl_fst) | split | dsimp only | with_reducible apply Kept.ite

theorem State.recNext_kept {Q : List Instr} (s : State) (h0 : Kept Q s) :
    Kept Q (State.recNext s) := by
  unfold State.recNext
  try dsimp only
  repeat' first | intro _ | (with_reducible first | assumption | apply State.recStart_kept | apply Kept.foldl | apply Kept.foldl_fst) | (with_reducible refine Kept.mk rfl rfl rfl rfl ?_; with_reducible first | assumption | apply State.recStart_kept | apply Kept.foldl | apply Kept.foldl_fst) | split | dsimp only | with_reducible apply Kept.ite

theorem State.recRequest_kept {Q : List Instr} (s : State) (k : Nat) (h0 : Kept Q s) :
    Kept Q (State.recRequest s k) := by
  unfold State.recRequest
  try dsimp only
  repeat' first | intro _ | (with_reducible first | assumption | apply State.recNext_kept | apply Kept.foldl | apply Kept.foldl_fst) | (with_reducible refine Kept.mk rfl rfl rfl rfl ?_; with_reducible first | assumption | apply State.recNext_kept | apply Kept.foldl | apply Kept.foldl_fst) | split | dsimp only | with_reducible apply Kept.ite

theorem execRecordWriteRequest_kept {Q : List Instr} (k : Fin 10) (s : State) (h0 : Kept Q s) :
    KeptOut Q (execRecordWriteRequest k s) := by
  unfold execRecordWriteRequest
  try dsimp only
  repeat' first | intro _ | (with_reducible first | assumption | apply live_kept | apply State.recRequest_kept | apply Kept.foldl | apply Kept.foldl_fst | apply KeptOut.live | apply KeptOut.next) | (with_reducible refine Kept.mk rfl rfl rfl rfl ?_; with_reducible first | assumption | apply live_kept | apply State.recRequest_kept | apply Kept.foldl | apply Kept.foldl_fst) | split | dsimp only | with_reducible apply Kept.ite

theorem execRecordRetry_kept {Q : List Instr} (s : State) (h0 : Kept Q s) :
    KeptOut Q (execRecordRetry s) := by
  unfold execRecordRetry
  try dsimp only
  repeat' first | intro _ | (with_reducible first | assumption | apply live_kept | apply State.recStart_kept | apply Kept.foldl | apply Kept.foldl_fst | apply KeptOut.live | apply KeptOut.next) | (with_reducible refine Kept.mk rfl rfl rfl rfl ?_; with_reducible first | assumption | apply live_kept | apply State.recStart_kept | apply Kept.foldl | apply Kept.foldl_fst) | split | dsimp only | with_reducible apply Kept.ite

theorem State.countErase_kept {Q : List Instr} (s : State) (o : NorOp) (h0 : Kept Q s) :
    Kept Q (State.countErase s o) := by
  unfold State.countErase
  try dsimp only
  repeat' first | intro _ | (with_reducible first | assumption | apply State.measure_kept | apply Kept.foldl | apply Kept.foldl_fst) | (with_reducible refine Kept.mk rfl rfl rfl rfl ?_; with_reducible first | assumption | apply State.measure_kept | apply Kept.foldl | apply Kept.foldl_fst) | split | dsimp only | with_reducible apply Kept.ite

theorem State.recDone_kept {Q : List Instr} (s : State) (j : RecJob) (h0 : Kept Q s) :
    Kept Q (State.recDone s j) := by
  unfold State.recDone
  try dsimp only
  repeat' first | intro _ | (with_reducible first | assumption | apply State.crumb_kept | apply State.raise_kept | apply State.recRequest_kept | apply Kept.foldl | apply Kept.foldl_fst) | (with_reducible refine Kept.mk rfl rfl rfl rfl ?_; with_reducible first | assumption | apply State.crumb_kept | apply State.raise_kept | apply State.recRequest_kept | apply Kept.foldl | apply Kept.foldl_fst) | split | dsimp only | with_reducible apply Kept.ite

theorem execNorCommandDone_kept {Q : List Instr} (err : Bool) (s : State) (h0 : Kept Q s) :
    KeptOut Q (execNorCommandDone err s) := by
  unfold execNorCommandDone
  try dsimp only
  repeat' first | intro _ | (with_reducible first | assumption | apply State.norEnd_kept | apply live_kept | apply State.recNext_kept | apply State.countErase_kept | apply State.raise_kept | apply State.recIssue_kept | apply State.recDone_kept | apply Kept.foldl | apply Kept.foldl_fst | apply KeptOut.live | apply KeptOut.next) | (with_reducible refine Kept.mk rfl rfl rfl rfl ?_; with_reducible first | assumption | apply State.norEnd_kept | apply live_kept | apply State.recNext_kept | apply State.countErase_kept | apply State.raise_kept | apply State.recIssue_kept | apply State.recDone_kept | apply Kept.foldl | apply Kept.foldl_fst) | split | dsimp only | with_reducible apply Kept.ite

end Sys2Proof.Machine
end

