-- ==== Sys2Proof/Laws/KeptPower.lean ====
section
/-! SUPPORT. Soundness is kept by every operation and meaning of Machine/Power.lean. -/

namespace Sys2Proof.Machine

theorem State.setPs_kept {Q : List Instr} (s : State) (ps : Nat) (h0 : Kept Q s) :
    Kept Q (State.setPs s ps) := by
  unfold State.setPs
  try dsimp only
  repeat' first | intro _ | (with_reducible first | assumption | apply State.count_kept | apply State.psOps_kept | apply Kept.foldl | apply Kept.foldl_fst) | (with_reducible refine Kept.mk rfl rfl rfl rfl ?_; with_reducible first | assumption | apply State.count_kept | apply State.psOps_kept | apply Kept.foldl | apply Kept.foldl_fst) | split | dsimp only | with_reducible apply Kept.ite

theorem State.holdCores_kept {Q : List Instr} (s : State) (b : Bool) (h0 : Kept Q s) :
    Kept Q (State.holdCores s b) := by
  unfold State.holdCores
  try dsimp only
  repeat' first | intro _ | (with_reducible first | assumption | apply State.setFlag_kept | apply Kept.foldl | apply Kept.foldl_fst) | (with_reducible refine Kept.mk rfl rfl rfl rfl ?_; with_reducible first | assumption | apply State.setFlag_kept | apply Kept.foldl | apply Kept.foldl_fst) | split | dsimp only | with_reducible apply Kept.ite

theorem State.dropPower_kept {Q : List Instr} (s : State) (h0 : Kept Q s) :
    Kept Q (State.dropPower s) := by
  unfold State.dropPower
  try dsimp only
  repeat' first | intro _ | (with_reducible first | assumption | apply Kept.foldl | apply Kept.foldl_fst) | (with_reducible refine Kept.mk rfl rfl rfl rfl ?_; with_reducible first | assumption | apply Kept.foldl | apply Kept.foldl_fst) | split | dsimp only | with_reducible apply Kept.ite

theorem State.wakeTo_kept {Q : List Instr} (s : State) (ps : Nat) (h0 : Kept Q s) :
    Kept Q (State.wakeTo s ps) := by
  unfold State.wakeTo
  try dsimp only
  repeat' first | intro _ | (with_reducible first | assumption | apply State.dropPower_kept | apply State.holdCores_kept | apply State.setPs_kept | apply State.spCommand_kept | apply Kept.foldl | apply Kept.foldl_fst) | (with_reducible refine Kept.mk rfl rfl rfl rfl ?_; with_reducible first | assumption | apply State.dropPower_kept | apply State.holdCores_kept | apply State.setPs_kept | apply State.spCommand_kept | apply Kept.foldl | apply Kept.foldl_fst) | split | dsimp only | with_reducible apply Kept.ite

theorem State.psBegin_kept {Q : List Instr} (s : State) (ps : Nat) (h0 : Kept Q s) :
    Kept Q (State.psBegin s ps) := by
  unfold State.psBegin
  try dsimp only
  repeat' first | intro _ | (with_reducible first | assumption | apply State.dropPower_kept | apply State.wakeTo_kept | apply State.holdCores_kept | apply State.setPs_kept | apply State.closeAll_kept | apply Kept.foldl | apply Kept.foldl_fst) | (with_reducible refine Kept.mk rfl rfl rfl rfl ?_; with_reducible first | assumption | apply State.dropPower_kept | apply State.wakeTo_kept | apply State.holdCores_kept | apply State.setPs_kept | apply State.closeAll_kept | apply Kept.foldl | apply Kept.foldl_fst) | split | dsimp only | with_reducible apply Kept.ite

theorem State.psRequest_kept {Q : List Instr} (s : State) (ps : Nat) (h0 : Kept Q s) :
    Kept Q (State.psRequest s ps) := by
  unfold State.psRequest
  try dsimp only
  repeat' first | intro _ | (with_reducible first | assumption | apply State.psBegin_kept | apply Kept.foldl | apply Kept.foldl_fst) | (with_reducible refine Kept.mk rfl rfl rfl rfl ?_; with_reducible first | assumption | apply State.psBegin_kept | apply Kept.foldl | apply Kept.foldl_fst) | split | dsimp only | with_reducible apply Kept.ite

theorem State.needMedium_kept {Q : List Instr} (s : State) (h0 : Kept Q s) :
    Kept Q (State.needMedium s) := by
  unfold State.needMedium
  try dsimp only
  repeat' first | intro _ | (with_reducible first | assumption | apply State.wakeTo_kept | apply Kept.foldl | apply Kept.foldl_fst) | (with_reducible refine Kept.mk rfl rfl rfl rfl ?_; with_reducible first | assumption | apply State.wakeTo_kept | apply Kept.foldl | apply Kept.foldl_fst) | split | dsimp only | with_reducible apply Kept.ite

theorem execIdlePs3_kept {Q : List Instr} (s : State) (h0 : Kept Q s) :
    KeptOut Q (execIdlePs3 s) := by
  unfold execIdlePs3
  try dsimp only
  repeat' first | intro _ | (with_reducible first | assumption | apply live_kept | apply State.psRequest_kept | apply Kept.foldl | apply Kept.foldl_fst | apply KeptOut.live | apply KeptOut.next) | (with_reducible refine Kept.mk rfl rfl rfl rfl ?_; with_reducible first | assumption | apply live_kept | apply State.psRequest_kept | apply Kept.foldl | apply Kept.foldl_fst) | split | dsimp only | with_reducible apply Kept.ite

theorem execPs4Wake_kept {Q : List Instr} (s : State) (h0 : Kept Q s) :
    KeptOut Q (execPs4Wake s) := by
  unfold execPs4Wake
  try dsimp only
  repeat' first | intro _ | (with_reducible first | assumption | apply live_kept | apply State.holdCores_kept | apply Kept.foldl | apply Kept.foldl_fst | apply KeptOut.live | apply KeptOut.next) | (with_reducible refine Kept.mk rfl rfl rfl rfl ?_; with_reducible first | assumption | apply live_kept | apply State.holdCores_kept | apply Kept.foldl | apply Kept.foldl_fst) | split | dsimp only | with_reducible apply Kept.ite

theorem execPs4IdleTimeout_kept {Q : List Instr} (s : State) (h0 : Kept Q s) :
    KeptOut Q (execPs4IdleTimeout s) := by
  unfold execPs4IdleTimeout
  try dsimp only
  repeat' first | intro _ | (with_reducible first | assumption | apply live_kept | apply State.holdCores_kept | apply Kept.foldl | apply Kept.foldl_fst | apply KeptOut.live | apply KeptOut.next) | (with_reducible refine Kept.mk rfl rfl rfl rfl ?_; with_reducible first | assumption | apply live_kept | apply State.holdCores_kept | apply Kept.foldl | apply Kept.foldl_fst) | split | dsimp only | with_reducible apply Kept.ite

theorem State.enterIdle_kept {Q : List Instr} (s : State) (ps : Nat) (h0 : Kept Q s) :
    Kept Q (State.enterIdle s ps) := by
  unfold State.enterIdle
  try dsimp only
  repeat' first | intro _ | (with_reducible first | assumption | apply State.release_kept | apply State.spCommand_kept | apply State.recRequest_kept | apply State.holdCores_kept | apply State.setPs_kept | apply Kept.foldl | apply Kept.foldl_fst) | (with_reducible refine Kept.mk rfl rfl rfl rfl ?_; with_reducible first | assumption | apply State.release_kept | apply State.spCommand_kept | apply State.recRequest_kept | apply State.holdCores_kept | apply State.setPs_kept | apply Kept.foldl | apply Kept.foldl_fst) | split | dsimp only | with_reducible apply Kept.ite

theorem State.changePs_kept {Q : List Instr} (s : State) (ps : Nat) (h0 : Kept Q s) :
    Kept Q (State.changePs s ps) := by
  unfold State.changePs
  try dsimp only
  repeat' first | intro _ | (with_reducible first | assumption | apply State.changeSpeed_kept | apply State.count_kept | apply State.setPs_kept | apply Kept.foldl | apply Kept.foldl_fst) | (with_reducible refine Kept.mk rfl rfl rfl rfl ?_; with_reducible first | assumption | apply State.changeSpeed_kept | apply State.count_kept | apply State.setPs_kept | apply Kept.foldl | apply Kept.foldl_fst) | split | dsimp only | with_reducible apply Kept.ite

theorem State.restrictStep_kept {Q : List Instr} (s : State) (h0 : Kept Q s) :
    Kept Q (State.restrictStep s) := by
  unfold State.restrictStep
  try dsimp only
  repeat' first | intro _ | (with_reducible first | assumption | apply State.setFlag_kept | apply State.psBegin_kept | apply State.psRequest_kept | apply Kept.foldl | apply Kept.foldl_fst) | (with_reducible refine Kept.mk rfl rfl rfl rfl ?_; with_reducible first | assumption | apply State.setFlag_kept | apply State.psBegin_kept | apply State.psRequest_kept | apply Kept.foldl | apply Kept.foldl_fst) | split | dsimp only | with_reducible apply Kept.ite

theorem State.refreshForce_kept {Q : List Instr} (s : State) (h0 : Kept Q s) :
    Kept Q (State.refreshForce s) := by
  unfold State.refreshForce
  try dsimp only
  repeat' first | intro _ | (with_reducible first | assumption | apply State.setFlag_kept | apply State.wr_kept | apply Kept.foldl | apply Kept.foldl_fst) | (with_reducible refine Kept.mk rfl rfl rfl rfl ?_; with_reducible first | assumption | apply State.setFlag_kept | apply State.wr_kept | apply Kept.foldl | apply Kept.foldl_fst) | split | dsimp only | with_reducible apply Kept.ite

theorem State.setFanFault_kept {Q : List Instr} (s : State) (h0 : Kept Q s) :
    Kept Q (State.setFanFault s) := by
  unfold State.setFanFault
  try dsimp only
  repeat' first | intro _ | (with_reducible first | assumption | apply State.setFlag_kept | apply State.report_kept | apply State.raise_kept | apply State.restrictStep_kept | apply State.refreshForce_kept | apply Kept.foldl | apply Kept.foldl_fst) | (with_reducible refine Kept.mk rfl rfl rfl rfl ?_; with_reducible first | assumption | apply State.setFlag_kept | apply State.report_kept | apply State.raise_kept | apply State.restrictStep_kept | apply State.refreshForce_kept | apply Kept.foldl | apply Kept.foldl_fst) | split | dsimp only | with_reducible apply Kept.ite

theorem execFanTachPulse_kept {Q : List Instr} (us : Nat) (s : State) (h0 : Kept Q s) :
    KeptOut Q (execFanTachPulse us s) := by
  unfold execFanTachPulse
  try dsimp only
  repeat' first | intro _ | (with_reducible first | assumption | apply State.wr_kept | apply State.count_kept | apply State.setFlag_kept | apply live_kept | apply State.refreshForce_kept | apply Kept.foldl | apply Kept.foldl_fst | apply KeptOut.live | apply KeptOut.next) | (with_reducible refine Kept.mk rfl rfl rfl rfl ?_; with_reducible first | assumption | apply State.wr_kept | apply State.count_kept | apply State.setFlag_kept | apply live_kept | apply State.refreshForce_kept | apply Kept.foldl | apply Kept.foldl_fst) | split | dsimp only | with_reducible apply Kept.ite

theorem execFanNotach_kept {Q : List Instr} (s : State) (h0 : Kept Q s) :
    KeptOut Q (execFanNotach s) := by
  unfold execFanNotach
  try dsimp only
  repeat' first | intro _ | (with_reducible first | assumption | apply live_kept | apply State.setFlag_kept | apply State.refreshForce_kept | apply State.raise_kept | apply Kept.foldl | apply Kept.foldl_fst | apply KeptOut.live | apply KeptOut.next) | (with_reducible refine Kept.mk rfl rfl rfl rfl ?_; with_reducible first | assumption | apply live_kept | apply State.setFlag_kept | apply State.refreshForce_kept | apply State.raise_kept | apply Kept.foldl | apply Kept.foldl_fst) | split | dsimp only | with_reducible apply Kept.ite

theorem execFanFault_kept {Q : List Instr} (s : State) (h0 : Kept Q s) :
    KeptOut Q (execFanFault s) := by
  unfold execFanFault
  try dsimp only
  repeat' first | intro _ | (with_reducible first | assumption | apply live_kept | apply State.setFanFault_kept | apply Kept.foldl | apply Kept.foldl_fst | apply KeptOut.live | apply KeptOut.next) | (with_reducible refine Kept.mk rfl rfl rfl rfl ?_; with_reducible first | assumption | apply live_kept | apply State.setFanFault_kept | apply Kept.foldl | apply Kept.foldl_fst) | split | dsimp only | with_reducible apply Kept.ite

theorem execFanRecover_kept {Q : List Instr} (s : State) (h0 : Kept Q s) :
    KeptOut Q (execFanRecover s) := by
  unfold execFanRecover
  try dsimp only
  repeat' first | intro _ | (with_reducible first | assumption | apply State.setFlag_kept | apply live_kept | apply State.raise_kept | apply State.restrictStep_kept | apply State.refreshForce_kept | apply Kept.foldl | apply Kept.foldl_fst | apply KeptOut.live | apply KeptOut.next) | (with_reducible refine Kept.mk rfl rfl rfl rfl ?_; with_reducible first | assumption | apply State.setFlag_kept | apply live_kept | apply State.raise_kept | apply State.restrictStep_kept | apply State.refreshForce_kept | apply Kept.foldl | apply Kept.foldl_fst) | split | dsimp only | with_reducible apply Kept.ite

theorem execFanShort_kept {Q : List Instr} (s : State) (h0 : Kept Q s) :
    KeptOut Q (execFanShort s) := by
  unfold execFanShort
  try dsimp only
  repeat' first | intro _ | (with_reducible first | assumption | apply live_kept | apply State.setFlag_kept | apply State.raise_kept | apply State.setFanFault_kept | apply Kept.foldl | apply Kept.foldl_fst | apply KeptOut.live | apply KeptOut.next) | (with_reducible refine Kept.mk rfl rfl rfl rfl ?_; with_reducible first | assumption | apply live_kept | apply State.setFlag_kept | apply State.raise_kept | apply State.setFanFault_kept | apply Kept.foldl | apply Kept.foldl_fst) | split | dsimp only | with_reducible apply Kept.ite

theorem State.sampleDie_kept {Q : List Instr} (s : State) (d : Nat) (v : Option Int) (h0 : Kept Q s) :
    Kept Q (State.sampleDie s d v) := by
  unfold State.sampleDie
  try dsimp only
  repeat' first | intro _ | (with_reducible first | assumption | apply State.wr_kept | apply Kept.foldl | apply Kept.foldl_fst) | (with_reducible refine Kept.mk rfl rfl rfl rfl ?_; with_reducible first | assumption | apply State.wr_kept | apply Kept.foldl | apply Kept.foldl_fst) | split | dsimp only | with_reducible apply Kept.ite

theorem State.noteHot_kept {Q : List Instr} (s t : State) (h0 : Kept Q s) (h1 : Kept Q t) :
    Kept Q (State.noteHot s t) := by
  unfold State.noteHot
  try dsimp only
  repeat' first | intro _ | (with_reducible first | assumption | apply State.asyncEvent_kept | apply Kept.foldl | apply Kept.foldl_fst) | (with_reducible refine Kept.mk rfl rfl rfl rfl ?_; with_reducible first | assumption | apply State.asyncEvent_kept | apply Kept.foldl | apply Kept.foldl_fst) | split | dsimp only | with_reducible apply Kept.ite

theorem State.sensorStep_kept {Q : List Instr} (t : State) (h0 : Kept Q t) :
    Kept Q (State.sensorStep t) := by
  unfold State.sensorStep
  try dsimp only
  repeat' first | intro _ | (with_reducible first | assumption | apply State.setFlag_kept | apply State.raise_kept | apply Kept.foldl | apply Kept.foldl_fst) | (with_reducible refine Kept.mk rfl rfl rfl rfl ?_; with_reducible first | assumption | apply State.setFlag_kept | apply State.raise_kept | apply Kept.foldl | apply Kept.foldl_fst) | split | dsimp only | with_reducible apply Kept.ite

theorem State.compositeIs_kept {Q : List Instr} (t : State) (c : Int) (h0 : Kept Q t) :
    Kept Q (State.compositeIs t c) := by
  unfold State.compositeIs
  try dsimp only
  repeat' first | intro _ | (with_reducible first | assumption | apply State.wr_kept | apply Kept.foldl | apply Kept.foldl_fst) | (with_reducible refine Kept.mk rfl rfl rfl rfl ?_; with_reducible first | assumption | apply State.wr_kept | apply Kept.foldl | apply Kept.foldl_fst) | split | dsimp only | with_reducible apply Kept.ite

theorem State.throttleStep_kept {Q : List Instr} (t : State) (c : Int) (h0 : Kept Q t) :
    Kept Q (State.throttleStep t c) := by
  unfold State.throttleStep
  try dsimp only
  repeat' first | intro _ | (with_reducible first | assumption | apply State.setFlag_kept | apply State.raise_kept | apply State.count_kept | apply Kept.foldl | apply Kept.foldl_fst) | (with_reducible refine Kept.mk rfl rfl rfl rfl ?_; with_reducible first | assumption | apply State.setFlag_kept | apply State.raise_kept | apply State.count_kept | apply Kept.foldl | apply Kept.foldl_fst) | split | dsimp only | with_reducible apply Kept.ite

theorem State.stopWriteStep_kept {Q : List Instr} (t : State) (c : Int) (h0 : Kept Q t) :
    Kept Q (State.stopWriteStep t c) := by
  unfold State.stopWriteStep
  try dsimp only
  repeat' first | intro _ | (with_reducible first | assumption | apply State.setFlag_kept | apply State.raise_kept | apply Kept.foldl | apply Kept.foldl_fst) | (with_reducible refine Kept.mk rfl rfl rfl rfl ?_; with_reducible first | assumption | apply State.setFlag_kept | apply State.raise_kept | apply Kept.foldl | apply Kept.foldl_fst) | split | dsimp only | with_reducible apply Kept.ite

theorem execThermalSample_kept {Q : List Instr} (core front drive : Option Int) (s : State) (h0 : Kept Q s) :
    KeptOut Q (execThermalSample core front drive s) := by
  unfold execThermalSample
  try dsimp only
  repeat' first | intro _ | (with_reducible first | assumption | apply State.sampleDie_kept | apply State.sensorStep_kept | apply State.compositeIs_kept | apply State.throttleStep_kept | apply State.stopWriteStep_kept | apply live_kept | apply State.noteHot_kept | apply State.restrictStep_kept | apply State.refreshForce_kept | apply Kept.foldl | apply Kept.foldl_fst | apply KeptOut.live | apply KeptOut.next) | (with_reducible refine Kept.mk rfl rfl rfl rfl ?_; with_reducible first | assumption | apply State.sampleDie_kept | apply State.sensorStep_kept | apply State.compositeIs_kept | apply State.throttleStep_kept | apply State.stopWriteStep_kept | apply live_kept | apply State.noteHot_kept | apply State.restrictStep_kept | apply State.refreshForce_kept | apply Kept.foldl | apply Kept.foldl_fst) | split | dsimp only | with_reducible apply Kept.ite

theorem execEmitterEnable_kept {Q : List Instr} (h : Fin 4) (s : State) (h0 : Kept Q s) :
    KeptOut Q (execEmitterEnable h s) := by
  unfold execEmitterEnable
  try dsimp only
  repeat' first | intro _ | (with_reducible first | assumption | apply live_kept | apply State.updHd_kept | apply Kept.foldl | apply Kept.foldl_fst | apply KeptOut.live | apply KeptOut.next) | (with_reducible refine Kept.mk rfl rfl rfl rfl ?_; with_reducible first | assumption | apply live_kept | apply State.updHd_kept | apply Kept.foldl | apply Kept.foldl_fst) | split | dsimp only | with_reducible apply Kept.ite

theorem execVmotAboveWarn_kept {Q : List Instr} (mv : Nat) (s : State) (h0 : Kept Q s) :
    KeptOut Q (execVmotAboveWarn mv s) := by
  unfold execVmotAboveWarn
  try dsimp only
  repeat' first | intro _ | (with_reducible first | assumption | apply State.vmotSample_kept | apply State.setFlag_kept | apply live_kept | apply Kept.foldl | apply Kept.foldl_fst | apply KeptOut.live | apply KeptOut.next) | (with_reducible refine Kept.mk rfl rfl rfl rfl ?_; with_reducible first | assumption | apply State.vmotSample_kept | apply State.setFlag_kept | apply live_kept | apply Kept.foldl | apply Kept.foldl_fst) | split | dsimp only | with_reducible apply Kept.ite

end Sys2Proof.Machine
end

