-- ==== Sys2Proof/Laws/KeptCalib.lean ====
section
/-! SUPPORT. Soundness is kept by every operation and meaning of Machine/Calib.lean. -/

namespace Sys2Proof.Machine

theorem State.beamLimit_kept {Q : List Instr} (s : State) (b row : Nat) (h0 : Kept Q s) :
    Kept Q (State.beamLimit s b row) := by
  unfold State.beamLimit
  try dsimp only
  repeat' first | intro _ | (with_reducible first | assumption | apply State.report_kept | apply State.raise_kept | apply Kept.foldl | apply Kept.foldl_fst) | (with_reducible refine Kept.mk rfl rfl rfl rfl ?_; with_reducible first | assumption | apply State.report_kept | apply State.raise_kept | apply Kept.foldl | apply Kept.foldl_fst) | split | dsimp only | with_reducible apply Kept.ite

theorem State.headLimit_kept {Q : List Instr} (s : State) (h row : Nat) (h0 : Kept Q s) :
    Kept Q (State.headLimit s h row) := by
  unfold State.headLimit
  try dsimp only
  repeat' first | intro _ | (with_reducible first | assumption | apply State.report_kept | apply State.wr_kept | apply State.raise_kept | apply Kept.foldl | apply Kept.foldl_fst) | (with_reducible refine Kept.mk rfl rfl rfl rfl ?_; with_reducible first | assumption | apply State.report_kept | apply State.wr_kept | apply State.raise_kept | apply Kept.foldl | apply Kept.foldl_fst) | split | dsimp only | with_reducible apply Kept.ite

theorem State.setLiveByte_kept {Q : List Instr} (s : State) (b i : Nat) (v : Int) (h0 : Kept Q s) :
    Kept Q (State.setLiveByte s b i v) := by
  unfold State.setLiveByte
  try dsimp only
  repeat' first | intro _ | (with_reducible first | assumption | apply State.setLive_kept | apply Kept.foldl | apply Kept.foldl_fst) | (with_reducible refine Kept.mk rfl rfl rfl rfl ?_; with_reducible first | assumption | apply State.setLive_kept | apply Kept.foldl | apply Kept.foldl_fst) | split | dsimp only | with_reducible apply Kept.ite

theorem State.liveHit_kept {Q : List Instr} (s : State) (b : Nat) (h0 : Kept Q s) :
    Kept Q (State.liveHit s b) := by
  unfold State.liveHit
  try dsimp only
  repeat' first | intro _ | (with_reducible first | assumption | apply State.take_kept | apply State.setLiveByte_kept | apply Kept.foldl | apply Kept.foldl_fst) | (with_reducible refine Kept.mk rfl rfl rfl rfl ?_; with_reducible first | assumption | apply State.take_kept | apply State.setLiveByte_kept | apply Kept.foldl | apply Kept.foldl_fst) | split | dsimp only | with_reducible apply Kept.ite

theorem State.moveLive_kept {Q : List Instr} (s : State) (b i row : Nat) (d : Int) (h0 : Kept Q s) :
    Kept Q (State.moveLive s b i row d) := by
  unfold State.moveLive
  try dsimp only
  repeat' first | intro _ | (with_reducible first | assumption | apply State.beamLimit_kept | apply State.setLiveByte_kept | apply State.liveHit_kept | apply Kept.foldl | apply Kept.foldl_fst) | (with_reducible refine Kept.mk rfl rfl rfl rfl ?_; with_reducible first | assumption | apply State.beamLimit_kept | apply State.setLiveByte_kept | apply State.liveHit_kept | apply Kept.foldl | apply Kept.foldl_fst) | split | dsimp only | with_reducible apply Kept.ite

theorem State.moveDraw_kept {Q : List Instr} (s : State) (b : Nat) (d : Int) (h0 : Kept Q s) :
    Kept Q (State.moveDraw s b d) := by
  unfold State.moveDraw
  try dsimp only
  repeat' first | intro _ | (with_reducible first | assumption | apply State.beamLimit_kept | apply State.wr_kept | apply Kept.foldl | apply Kept.foldl_fst) | (with_reducible refine Kept.mk rfl rfl rfl rfl ?_; with_reducible first | assumption | apply State.beamLimit_kept | apply State.wr_kept | apply Kept.foldl | apply Kept.foldl_fst) | split | dsimp only | with_reducible apply Kept.ite

theorem State.setLptByte_kept {Q : List Instr} (s : State) (h w j v : Nat) (h0 : Kept Q s) :
    Kept Q (State.setLptByte s h w j v) := by
  unfold State.setLptByte
  try dsimp only
  repeat' first | intro _ | (with_reducible first | assumption | apply Kept.foldl | apply Kept.foldl_fst) | (with_reducible refine Kept.mk rfl rfl rfl rfl ?_; with_reducible first | assumption | apply Kept.foldl | apply Kept.foldl_fst) | split | dsimp only | with_reducible apply Kept.ite

theorem State.moveGain_kept {Q : List Instr} (s : State) (b v l : Nat) (d : Int) (h0 : Kept Q s) :
    Kept Q (State.moveGain s b v l d) := by
  unfold State.moveGain
  try dsimp only
  repeat' first | intro _ | (with_reducible first | assumption | apply State.beamLimit_kept | apply State.setLptByte_kept | apply Kept.foldl | apply Kept.foldl_fst) | (with_reducible refine Kept.mk rfl rfl rfl rfl ?_; with_reducible first | assumption | apply State.beamLimit_kept | apply State.setLptByte_kept | apply Kept.foldl | apply Kept.foldl_fst) | split | dsimp only | with_reducible apply Kept.ite

theorem State.maxReached_kept {Q : List Instr} (s : State) (b : Nat) (h0 : Kept Q s) :
    Kept Q (State.maxReached s b) := by
  unfold State.maxReached
  try dsimp only
  repeat' first | intro _ | (with_reducible first | assumption | apply State.setFlag_kept | apply Kept.foldl | apply Kept.foldl_fst) | (with_reducible refine Kept.mk rfl rfl rfl rfl ?_; with_reducible first | assumption | apply State.setFlag_kept | apply Kept.foldl | apply Kept.foldl_fst) | split | dsimp only | with_reducible apply Kept.ite

theorem State.adaptLive_kept {Q : List Instr} (s : State) (b : Nat) (bs : List Byte) (h0 : Kept Q s) :
    Kept Q (State.adaptLive s b bs) := by
  unfold State.adaptLive
  try dsimp only
  repeat' first | intro _ | (with_reducible first | assumption | apply State.setLive_kept | apply State.take_kept | apply State.liveHit_kept | apply Kept.foldl | apply Kept.foldl_fst) | (with_reducible refine Kept.mk rfl rfl rfl rfl ?_; with_reducible first | assumption | apply State.setLive_kept | apply State.take_kept | apply State.liveHit_kept | apply Kept.foldl | apply Kept.foldl_fst) | split | dsimp only | with_reducible apply Kept.ite

theorem State.moveTrim_kept {Q : List Instr} (s : State) (h row : Nat) (f : Field) (lim d : Int) (h0 : Kept Q s) :
    Kept Q (State.moveTrim s h row f lim d) := by
  unfold State.moveTrim
  try dsimp only
  repeat' first | intro _ | (with_reducible first | assumption | apply State.headLimit_kept | apply State.wr_kept | apply Kept.foldl | apply Kept.foldl_fst) | (with_reducible refine Kept.mk rfl rfl rfl rfl ?_; with_reducible first | assumption | apply State.headLimit_kept | apply State.wr_kept | apply Kept.foldl | apply Kept.foldl_fst) | split | dsimp only | with_reducible apply Kept.ite

theorem State.moveLayTrim_kept {Q : List Instr} (s : State) (h : Nat) (d : Int) (h0 : Kept Q s) :
    Kept Q (State.moveLayTrim s h d) := by
  unfold State.moveLayTrim
  try dsimp only
  repeat' first | intro _ | (with_reducible first | assumption | apply State.headLimit_kept | apply Kept.foldl | apply Kept.foldl_fst) | (with_reducible refine Kept.mk rfl rfl rfl rfl ?_; with_reducible first | assumption | apply State.headLimit_kept | apply Kept.foldl | apply Kept.foldl_fst) | split | dsimp only | with_reducible apply Kept.ite

theorem State.readDither_kept {Q : List Instr} (s : State) (h : Nat) (d : Fin 3 × Nat × Nat) (h0 : Kept Q s) :
    Kept Q (State.readDither s h d) := by
  unfold State.readDither
  try dsimp only
  repeat' first | intro _ | (with_reducible first | assumption | apply State.moveTrim_kept | apply State.moveLayTrim_kept | apply Kept.foldl | apply Kept.foldl_fst) | (with_reducible refine Kept.mk rfl rfl rfl rfl ?_; with_reducible first | assumption | apply State.moveTrim_kept | apply State.moveLayTrim_kept | apply Kept.foldl | apply Kept.foldl_fst) | split | dsimp only | with_reducible apply Kept.ite

theorem State.latchStats_kept {Q : List Instr} (s : State) (b : Nat) (soft1 soft0 iter : Nat) (beta : Option Int) (h0 : Kept Q s) :
    Kept Q (State.latchStats s b soft1 soft0 iter beta) := by
  unfold State.latchStats
  try dsimp only
  repeat' first | intro _ | (with_reducible first | assumption | apply State.wr_kept | apply State.incWrap_kept | apply Kept.foldl | apply Kept.foldl_fst) | (with_reducible refine Kept.mk rfl rfl rfl rfl ?_; with_reducible first | assumption | apply State.wr_kept | apply State.incWrap_kept | apply Kept.foldl | apply Kept.foldl_fst) | split | dsimp only | with_reducible apply Kept.ite

theorem State.ditherPhase_kept {Q : List Instr} (t : State) (b : Nat) (phase : Option (Nat × Nat)) (h0 : Kept Q t) :
    Kept Q (State.ditherPhase t b phase) := by
  unfold State.ditherPhase
  try dsimp only
  repeat' first | intro _ | (with_reducible first | assumption | apply State.moveLive_kept | apply Kept.foldl | apply Kept.foldl_fst) | (with_reducible refine Kept.mk rfl rfl rfl rfl ?_; with_reducible first | assumption | apply State.moveLive_kept | apply Kept.foldl | apply Kept.foldl_fst) | split | dsimp only | with_reducible apply Kept.ite

theorem State.ditherDraw_kept {Q : List Instr} (t : State) (b : Nat) (draw : Option (Nat × Nat)) (h0 : Kept Q t) :
    Kept Q (State.ditherDraw t b draw) := by
  unfold State.ditherDraw
  try dsimp only
  repeat' first | intro _ | (with_reducible first | assumption | apply State.moveDraw_kept | apply Kept.foldl | apply Kept.foldl_fst) | (with_reducible refine Kept.mk rfl rfl rfl rfl ?_; with_reducible first | assumption | apply State.moveDraw_kept | apply Kept.foldl | apply Kept.foldl_fst) | split | dsimp only | with_reducible apply Kept.ite

theorem State.moveAsymmetry_kept {Q : List Instr} (t : State) (b soft1 soft0 : Nat) (h0 : Kept Q t) :
    Kept Q (State.moveAsymmetry t b soft1 soft0) := by
  unfold State.moveAsymmetry
  try dsimp only
  repeat' first | intro _ | (with_reducible first | assumption | apply State.moveLive_kept | apply Kept.foldl | apply Kept.foldl_fst) | (with_reducible refine Kept.mk rfl rfl rfl rfl ?_; with_reducible first | assumption | apply State.moveLive_kept | apply Kept.foldl | apply Kept.foldl_fst) | split | dsimp only | with_reducible apply Kept.ite

theorem State.correctRead_kept {Q : List Instr} (t : State) (b soft1 soft0 : Nat) (phase draw : Option (Nat × Nat)) (adapt : List Byte) (h0 : Kept Q t) :
    Kept Q (State.correctRead t b soft1 soft0 phase draw adapt) := by
  unfold State.correctRead
  try dsimp only
  repeat' first | intro _ | (with_reducible first | assumption | apply State.ditherPhase_kept | apply State.ditherDraw_kept | apply State.moveAsymmetry_kept | apply State.adaptLive_kept | apply Kept.foldl | apply Kept.foldl_fst) | (with_reducible refine Kept.mk rfl rfl rfl rfl ?_; with_reducible first | assumption | apply State.ditherPhase_kept | apply State.ditherDraw_kept | apply State.moveAsymmetry_kept | apply State.adaptLive_kept | apply Kept.foldl | apply Kept.foldl_fst) | split | dsimp only | with_reducible apply Kept.ite

theorem State.correctPower_kept {Q : List Instr} (t : State) (b : Nat) (beta : Option Int) (h0 : Kept Q t) :
    Kept Q (State.correctPower t b beta) := by
  unfold State.correctPower
  try dsimp only
  repeat' first | intro _ | (with_reducible first | assumption | apply State.moveGain_kept | apply State.maxReached_kept | apply Kept.foldl | apply Kept.foldl_fst) | (with_reducible refine Kept.mk rfl rfl rfl rfl ?_; with_reducible first | assumption | apply State.moveGain_kept | apply State.maxReached_kept | apply Kept.foldl | apply Kept.foldl_fst) | split | dsimp only | with_reducible apply Kept.ite

theorem execGatherLatch_kept {Q : List Instr} (b : Fin 48) (soft1 soft0 iter : Fin 65536) (beta : Option Int) (phase draw : Option (Nat × Nat)) (adapt : List Byte) (dith : Option (Fin 3 × Nat × Nat)) (s : State) (h0 : Kept Q s) :
    KeptOut Q (execGatherLatch b soft1 soft0 iter beta phase draw adapt dith s) := by
  unfold execGatherLatch
  try dsimp only
  repeat' first | intro _ | (with_reducible first | assumption | apply State.latchStats_kept | apply State.correctRead_kept | apply State.correctPower_kept | apply live_kept | apply State.readDither_kept | apply Kept.foldl | apply Kept.foldl_fst | apply KeptOut.live | apply KeptOut.next) | (with_reducible refine Kept.mk rfl rfl rfl rfl ?_; with_reducible first | assumption | apply State.latchStats_kept | apply State.correctRead_kept | apply State.correctPower_kept | apply live_kept | apply State.readDither_kept | apply Kept.foldl | apply Kept.foldl_fst) | split | dsimp only | with_reducible apply Kept.ite

theorem State.bgEnd_kept {Q : List Instr} (s : State) (h result : Nat) (h0 : Kept Q s) :
    Kept Q (State.bgEnd s h result) := by
  unfold State.bgEnd
  try dsimp only
  repeat' first | intro _ | (with_reducible first | assumption | apply State.wr_kept | apply State.incSat_kept | apply State.setFlag_kept | apply State.raise_kept | apply State.seqCommand_kept | apply Kept.foldl | apply Kept.foldl_fst) | (with_reducible refine Kept.mk rfl rfl rfl rfl ?_; with_reducible first | assumption | apply State.wr_kept | apply State.incSat_kept | apply State.setFlag_kept | apply State.raise_kept | apply State.seqCommand_kept | apply Kept.foldl | apply Kept.foldl_fst) | split | dsimp only | with_reducible apply Kept.ite

theorem State.hbgReq_kept {Q : List Instr} (s : State) (req h v : Nat) (h0 : Kept Q s) :
    Kept Q (State.hbgReq s req h v) := by
  unfold State.hbgReq
  try dsimp only
  repeat' first | intro _ | (with_reducible first | assumption | apply State.refuse_kept | apply State.storeReg_kept | apply State.bgEnd_kept | apply Kept.foldl | apply Kept.foldl_fst) | (with_reducible refine Kept.mk rfl rfl rfl rfl ?_; with_reducible first | assumption | apply State.refuse_kept | apply State.storeReg_kept | apply State.bgEnd_kept | apply Kept.foldl | apply Kept.foldl_fst) | split | dsimp only | with_reducible apply Kept.ite

theorem execHbgreqGo_kept {Q : List Instr} (r : Requester) (h : Fin 4) (v : Word) (s : State) (h0 : Kept Q s) :
    KeptOut Q (execHbgreqGo r h v s) := by
  unfold execHbgreqGo
  try dsimp only
  repeat' first | intro _ | (with_reducible first | assumption | apply live_kept | apply State.guardReg_kept | apply State.hbgReq_kept | apply Kept.foldl | apply Kept.foldl_fst | apply KeptOut.live | apply KeptOut.next) | (with_reducible refine Kept.mk rfl rfl rfl rfl ?_; with_reducible first | assumption | apply live_kept | apply State.guardReg_kept | apply State.hbgReq_kept | apply Kept.foldl | apply Kept.foldl_fst) | split | dsimp only | with_reducible apply Kept.ite

theorem execBgStepGrant_kept {Q : List Instr} (h : Fin 4) (pos : Nat) (s : State) (h0 : Kept Q s) :
    KeptOut Q (execBgStepGrant h pos s) := by
  unfold execBgStepGrant
  try dsimp only
  repeat' first | intro _ | (with_reducible first | assumption | apply live_kept | apply State.slTune_kept | apply Kept.foldl | apply Kept.foldl_fst | apply KeptOut.live | apply KeptOut.next) | (with_reducible refine Kept.mk rfl rfl rfl rfl ?_; with_reducible first | assumption | apply live_kept | apply State.slTune_kept | apply Kept.foldl | apply Kept.foldl_fst) | split | dsimp only | with_reducible apply Kept.ite

theorem execBgStepEnd_kept {Q : List Instr} (h : Fin 4) (fault : Bool) (p n : Fin 65536) (s : State) (h0 : Kept Q s) :
    KeptOut Q (execBgStepEnd h fault p n s) := by
  unfold execBgStepEnd
  try dsimp only
  repeat' first | intro _ | (with_reducible first | assumption | apply State.slTune_kept | apply live_kept | apply State.bgEnd_kept | apply State.wr_kept | apply State.moveTrim_kept | apply Kept.foldl | apply Kept.foldl_fst | apply KeptOut.live | apply KeptOut.next) | (with_reducible refine Kept.mk rfl rfl rfl rfl ?_; with_reducible first | assumption | apply State.slTune_kept | apply live_kept | apply State.bgEnd_kept | apply State.wr_kept | apply State.moveTrim_kept | apply Kept.foldl | apply Kept.foldl_fst) | split | dsimp only | with_reducible apply Kept.ite

theorem execKeepStarved_kept {Q : List Instr} (h : Fin 4) (s : State) (h0 : Kept Q s) :
    KeptOut Q (execKeepStarved h s) := by
  unfold execKeepStarved
  try dsimp only
  repeat' first | intro _ | (with_reducible first | assumption | apply live_kept | apply State.raise_kept | apply Kept.foldl | apply Kept.foldl_fst | apply KeptOut.live | apply KeptOut.next) | (with_reducible refine Kept.mk rfl rfl rfl rfl ?_; with_reducible first | assumption | apply live_kept | apply State.raise_kept | apply Kept.foldl | apply Kept.foldl_fst) | split | dsimp only | with_reducible apply Kept.ite

theorem State.mbgSkip_kept {Q : List Instr} (s : State) (v : Nat) (h0 : Kept Q s) :
    Kept Q (State.mbgSkip s v) := by
  unfold State.mbgSkip
  try dsimp only
  repeat' first | intro _ | (with_reducible first | assumption | apply State.setFlag_kept | apply State.incSat_kept | apply State.raise_kept | apply Kept.foldl | apply Kept.foldl_fst) | (with_reducible refine Kept.mk rfl rfl rfl rfl ?_; with_reducible first | assumption | apply State.setFlag_kept | apply State.incSat_kept | apply State.raise_kept | apply Kept.foldl | apply Kept.foldl_fst) | split | dsimp only | with_reducible apply Kept.ite

theorem execMbgskipWrite_kept {Q : List Instr} (r : Requester) (v : Word) (s : State) (h0 : Kept Q s) :
    KeptOut Q (execMbgskipWrite r v s) := by
  unfold execMbgskipWrite
  try dsimp only
  repeat' first | intro _ | (with_reducible first | assumption | apply live_kept | apply State.guardReg_kept | apply State.mbgSkip_kept | apply Kept.foldl | apply Kept.foldl_fst | apply KeptOut.live | apply KeptOut.next) | (with_reducible refine Kept.mk rfl rfl rfl rfl ?_; with_reducible first | assumption | apply live_kept | apply State.guardReg_kept | apply State.mbgSkip_kept | apply Kept.foldl | apply Kept.foldl_fst) | split | dsimp only | with_reducible apply Kept.ite

theorem State.agePlan_kept {Q : List Instr} (s : State) (e : Nat) (h0 : Kept Q s) :
    Kept Q (State.agePlan s e) := by
  unfold State.agePlan
  try dsimp only
  repeat' first | intro _ | (with_reducible first | assumption | apply State.crumb_kept | apply State.raise_kept | apply Kept.foldl | apply Kept.foldl_fst) | (with_reducible refine Kept.mk rfl rfl rfl rfl ?_; with_reducible first | assumption | apply State.crumb_kept | apply State.raise_kept | apply Kept.foldl | apply Kept.foldl_fst) | split | dsimp only | with_reducible apply Kept.ite

theorem State.keepRetire_kept {Q : List Instr} (s : State) (b : Nat) (h0 : Kept Q s) :
    Kept Q (State.keepRetire s b) := by
  unfold State.keepRetire
  try dsimp only
  repeat' first | intro _ | (with_reducible first | assumption | apply State.retireBeam_kept | apply State.setAge_kept | apply State.recRequest_kept | apply State.raise_kept | apply Kept.foldl | apply Kept.foldl_fst) | (with_reducible refine Kept.mk rfl rfl rfl rfl ?_; with_reducible first | assumption | apply State.retireBeam_kept | apply State.setAge_kept | apply State.recRequest_kept | apply State.raise_kept | apply Kept.foldl | apply Kept.foldl_fst) | split | dsimp only | with_reducible apply Kept.ite

theorem State.candidateCase_kept {Q : List Instr} (s : State) (b : Nat) (h0 : Kept Q s) :
    Kept Q (State.candidateCase s b) := by
  unfold State.candidateCase
  try dsimp only
  repeat' first | intro _ | (with_reducible first | assumption | apply State.keepRetire_kept | apply State.setFlag_kept | apply State.setLptByte_kept | apply State.recRequest_kept | apply Kept.foldl | apply Kept.foldl_fst) | (with_reducible refine Kept.mk rfl rfl rfl rfl ?_; with_reducible first | assumption | apply State.keepRetire_kept | apply State.setFlag_kept | apply State.setLptByte_kept | apply State.recRequest_kept | apply Kept.foldl | apply Kept.foldl_fst) | split | dsimp only | with_reducible apply Kept.ite

theorem State.setPlanned_kept {Q : List Instr} (s : State) (e v : Nat) (h0 : Kept Q s) :
    Kept Q (State.setPlanned s e v) := by
  unfold State.setPlanned
  try dsimp only
  repeat' first | intro _ | (with_reducible first | assumption | apply Kept.foldl | apply Kept.foldl_fst) | (with_reducible refine Kept.mk rfl rfl rfl rfl ?_; with_reducible first | assumption | apply Kept.foldl | apply Kept.foldl_fst) | split | dsimp only | with_reducible apply Kept.ite

theorem State.gainTrim_kept {Q : List Instr} (s : State) (n v : Nat) (h0 : Kept Q s) :
    Kept Q (State.gainTrim s n v) := by
  unfold State.gainTrim
  try dsimp only
  repeat' first | intro _ | (with_reducible first | assumption | apply State.updSlot_kept | apply Kept.foldl | apply Kept.foldl_fst) | (with_reducible refine Kept.mk rfl rfl rfl rfl ?_; with_reducible first | assumption | apply State.updSlot_kept | apply Kept.foldl | apply Kept.foldl_fst) | split | dsimp only | with_reducible apply Kept.ite

theorem State.replan_kept {Q : List Instr} (s : State) (e : Nat) (lpmax : Option (Fin 256)) (h0 : Kept Q s) :
    Kept Q (State.replan s e lpmax) := by
  unfold State.replan
  try dsimp only
  repeat' first | intro _ | (with_reducible first | assumption | apply State.wr_kept | apply State.setPlanned_kept | apply State.agePlan_kept | apply State.recRequest_kept | apply State.gainTrim_kept | apply Kept.foldl | apply Kept.foldl_fst) | (with_reducible refine Kept.mk rfl rfl rfl rfl ?_; with_reducible first | assumption | apply State.wr_kept | apply State.setPlanned_kept | apply State.agePlan_kept | apply State.recRequest_kept | apply State.gainTrim_kept | apply Kept.foldl | apply Kept.foldl_fst) | split | dsimp only | with_reducible apply Kept.ite

theorem execAgeingMeasurement_kept {Q : List Instr} (e : Fin 305) (slope : Bool) (v : Word) (lpmax : Option (Fin 256)) (s : State) (h0 : Kept Q s) :
    KeptOut Q (execAgeingMeasurement e slope v lpmax s) := by
  unfold execAgeingMeasurement
  try dsimp only
  repeat' first | intro _ | (with_reducible first | assumption | apply State.measure_kept | apply State.replan_kept | apply live_kept | apply State.candidateCase_kept | apply State.keepRetire_kept | apply Kept.foldl | apply Kept.foldl_fst | apply KeptOut.live | apply KeptOut.next) | (with_reducible refine Kept.mk rfl rfl rfl rfl ?_; with_reducible first | assumption | apply State.measure_kept | apply State.replan_kept | apply live_kept | apply State.candidateCase_kept | apply State.keepRetire_kept | apply Kept.foldl | apply Kept.foldl_fst) | split | dsimp only | with_reducible apply Kept.ite

theorem State.headReplaced_kept {Q : List Instr} (s : State) (h : Nat) (h0 : Kept Q s) :
    Kept Q (State.headReplaced s h) := by
  unfold State.headReplaced
  try dsimp only
  repeat' first | intro _ | (with_reducible first | assumption | apply State.setAge_kept | apply State.setFlag_kept | apply State.wr_kept | apply Kept.foldl | apply Kept.foldl_fst) | (with_reducible refine Kept.mk rfl rfl rfl rfl ?_; with_reducible first | assumption | apply State.setAge_kept | apply State.setFlag_kept | apply State.wr_kept | apply Kept.foldl | apply Kept.foldl_fst) | split | dsimp only | with_reducible apply Kept.ite

theorem State.firstAcquire_kept {Q : List Instr} (s : State) (h : Nat) (thr : List Nat) (h0 : Kept Q s) :
    Kept Q (State.firstAcquire s h thr) := by
  unfold State.firstAcquire
  try dsimp only
  repeat' first | intro _ | (with_reducible first | assumption | apply State.updHd_kept | apply State.headReplaced_kept | apply Kept.foldl | apply Kept.foldl_fst) | (with_reducible refine Kept.mk rfl rfl rfl rfl ?_; with_reducible first | assumption | apply State.updHd_kept | apply State.headReplaced_kept | apply Kept.foldl | apply Kept.foldl_fst) | split | dsimp only | with_reducible apply Kept.ite

theorem execSeqStepDone_kept {Q : List Instr} (h : Fin 4) (thr : List Nat) (s : State) (h0 : Kept Q s) :
    KeptOut Q (execSeqStepDone h thr s) := by
  unfold execSeqStepDone
  try dsimp only
  repeat' first | intro _ | (with_reducible first | assumption | apply State.stepDone_kept | apply live_kept | apply State.firstAcquire_kept | apply Kept.foldl | apply Kept.foldl_fst | apply KeptOut.live | apply KeptOut.next) | (with_reducible refine Kept.mk rfl rfl rfl rfl ?_; with_reducible first | assumption | apply State.stepDone_kept | apply live_kept | apply State.firstAcquire_kept | apply Kept.foldl | apply Kept.foldl_fst) | split | dsimp only | with_reducible apply Kept.ite

end Sys2Proof.Machine
end

