-- ==== Sys2Proof/Laws/KeptAngle.lean ====
section
/-! SUPPORT. Soundness is kept by every operation and meaning of Machine/Angle.lean. -/

namespace Sys2Proof.Machine

theorem State.nextGroup_kept {Q : List Instr} (s : State) (h : Nat) (h0 : Kept Q s) :
    Kept Q (State.nextGroup s h) := by
  unfold State.nextGroup
  try dsimp only
  repeat' first | intro _ | (with_reducible first | assumption | apply State.wr_kept | apply Kept.foldl | apply Kept.foldl_fst) | (with_reducible refine Kept.mk rfl rfl rfl rfl ?_; with_reducible first | assumption | apply State.wr_kept | apply Kept.foldl | apply Kept.foldl_fst) | split | dsimp only | with_reducible apply Kept.ite

theorem State.loadLevels_kept {Q : List Instr} (s : State) (h l v z : Nat) (h0 : Kept Q s) :
    Kept Q (State.loadLevels s h l v z) := by
  unfold State.loadLevels
  try dsimp only
  repeat' first | intro _ | (with_reducible first | assumption | apply State.wr_kept | apply Kept.foldl | apply Kept.foldl_fst) | (with_reducible refine Kept.mk rfl rfl rfl rfl ?_; with_reducible first | assumption | apply State.wr_kept | apply Kept.foldl | apply Kept.foldl_fst) | split | dsimp only | with_reducible apply Kept.ite

theorem State.loadZone_kept {Q : List Instr} (s : State) (h : Nat) (h0 : Kept Q s) :
    Kept Q (State.loadZone s h) := by
  unfold State.loadZone
  try dsimp only
  repeat' first | intro _ | (with_reducible first | assumption | apply State.loadLevels_kept | apply Kept.foldl | apply Kept.foldl_fst) | (with_reducible refine Kept.mk rfl rfl rfl rfl ?_; with_reducible first | assumption | apply State.loadLevels_kept | apply Kept.foldl | apply Kept.foldl_fst) | split | dsimp only | with_reducible apply Kept.ite

theorem State.followTrims_kept {Q : List Instr} (s : State) (h : Nat) (h0 : Kept Q s) :
    Kept Q (State.followTrims s h) := by
  unfold State.followTrims
  try dsimp only
  repeat' first | intro _ | (with_reducible first | assumption | apply Kept.foldl | apply Kept.foldl_fst) | (with_reducible refine Kept.mk rfl rfl rfl rfl ?_; with_reducible first | assumption | apply Kept.foldl | apply Kept.foldl_fst) | split | dsimp only | with_reducible apply Kept.ite

theorem execIndex_kept {Q : List Instr} (s : State) (h0 : Kept Q s) :
    KeptOut Q (execIndex s) := by
  unfold execIndex
  try dsimp only
  repeat' first | intro _ | (with_reducible first | assumption | apply live_kept | apply State.nextGroup_kept | apply State.loadZone_kept | apply State.followTrims_kept | apply State.wr_kept | apply State.count_kept | apply Kept.foldl | apply Kept.foldl_fst | apply KeptOut.live | apply KeptOut.next) | (with_reducible refine Kept.mk rfl rfl rfl rfl ?_; with_reducible first | assumption | apply live_kept | apply State.nextGroup_kept | apply State.loadZone_kept | apply State.followTrims_kept | apply State.wr_kept | apply State.count_kept | apply Kept.foldl | apply Kept.foldl_fst) | split | dsimp only | with_reducible apply Kept.ite

theorem execClockMark_kept {Q : List Instr} (h : Option (Fin 4)) (missed : Bool) (s : State) (h0 : Kept Q s) :
    KeptOut Q (execClockMark h missed s) := by
  unfold execClockMark
  try dsimp only
  repeat' first | intro _ | (with_reducible first | assumption | apply State.incSat_kept | apply live_kept | apply State.gearAdd_kept | apply Kept.foldl | apply Kept.foldl_fst | apply KeptOut.live | apply KeptOut.next) | (with_reducible refine Kept.mk rfl rfl rfl rfl ?_; with_reducible first | assumption | apply State.incSat_kept | apply live_kept | apply State.gearAdd_kept | apply Kept.foldl | apply Kept.foldl_fst) | split | dsimp only | with_reducible apply Kept.ite

end Sys2Proof.Machine
end

