-- ==== Sys2Proof/Laws/KeptEngines.lean ====
section
/-! SUPPORT. Soundness is kept by every operation and meaning of Machine/Engines.lean. -/

namespace Sys2Proof.Machine

theorem State.moveBursts_kept {Q : List Instr} (d : Slice) (x0 : Nat) (x1 : Nat) (x2 : State) (h0 : Kept Q x2) :
    Kept Q (State.moveBursts d x0 x1 x2).1 := by
  induction x0 generalizing d x1 x2 with
  | zero =>
    unfold State.moveBursts
    try dsimp only
    repeat' first | intro _ | (with_reducible first | assumption | apply State.engineStore_kept | apply Kept.foldl | apply Kept.foldl_fst) | (with_reducible refine Kept.mk rfl rfl rfl rfl ?_; with_reducible first | assumption | apply State.engineStore_kept | apply Kept.foldl | apply Kept.foldl_fst) | split | dsimp only | with_reducible apply Kept.ite
  | succ n ih =>
    unfold State.moveBursts
    try dsimp only
    repeat' first | intro _ | (with_reducible first | apply ih | assumption | apply State.engineStore_kept | apply Kept.foldl | apply Kept.foldl_fst) | (with_reducible refine Kept.mk rfl rfl rfl rfl ?_; with_reducible first | assumption | apply State.engineStore_kept | apply Kept.foldl | apply Kept.foldl_fst) | split | dsimp only | with_reducible apply Kept.ite

theorem State.putStatus_kept {Q : List Instr} (s : State) (owner a : Nat) (bs : List Byte) (h0 : Kept Q s) :
    Kept Q (State.putStatus s owner a bs) := by
  unfold State.putStatus
  try dsimp only
  repeat' first | intro _ | (with_reducible first | assumption | apply State.engineStore_kept | apply Kept.foldl | apply Kept.foldl_fst) | (with_reducible refine Kept.mk rfl rfl rfl rfl ?_; with_reducible first | assumption | apply State.engineStore_kept | apply Kept.foldl | apply Kept.foldl_fst) | split | dsimp only | with_reducible apply Kept.ite

theorem State.sliceEnds_kept {Q : List Instr} (s : State) (n : Nat) (c : MoverChan) (code residue : Nat) (h0 : Kept Q s) :
    Kept Q (State.sliceEnds s n c code residue) := by
  unfold State.sliceEnds
  try dsimp only
  repeat' first | intro _ | (with_reducible first | assumption | apply State.putStatus_kept | apply State.incWrap_kept | apply State.raise_kept | apply Kept.foldl | apply Kept.foldl_fst) | (with_reducible refine Kept.mk rfl rfl rfl rfl ?_; with_reducible first | assumption | apply State.putStatus_kept | apply State.incWrap_kept | apply State.raise_kept | apply Kept.foldl | apply Kept.foldl_fst) | split | dsimp only | with_reducible apply Kept.ite

theorem State.postSlice_kept {Q : List Instr} {t : State} (s : State) (owner : Nat) (d : List Nat) (e : State.postSlice s owner d = some t)
    (h0 : Kept Q s) : Kept Q t := by
  unfold State.postSlice at e
  split at e
  · cases e
  · cases e
    exact Kept.mk rfl rfl rfl rfl h0

theorem execSliceChannelStart_kept {Q : List Instr} (s : State) (h0 : Kept Q s) :
    KeptOut Q (execSliceChannelStart s) := by
  unfold execSliceChannelStart
  try dsimp only
  repeat' first | intro _ | (with_reducible first | assumption | apply live_kept | apply State.sliceEnds_kept | apply Kept.foldl | apply Kept.foldl_fst | apply KeptOut.live | apply KeptOut.next) | (with_reducible refine Kept.mk rfl rfl rfl rfl ?_; with_reducible first | assumption | apply live_kept | apply State.sliceEnds_kept | apply Kept.foldl | apply Kept.foldl_fst) | split | dsimp only | with_reducible apply Kept.ite

theorem State.sliceRun_kept {Q : List Instr} (s : State) (n : Nat) (c : MoverChan) (bursts err : Nat) (h0 : Kept Q s) :
    Kept Q (State.sliceRun s n c bursts err) := by
  unfold State.sliceRun
  try dsimp only
  repeat' first | intro _ | (with_reducible first | assumption | apply State.moveBursts_kept | apply State.count_kept | apply State.eccFail_kept | apply State.sramPar_kept | apply State.sliceEnds_kept | apply Kept.foldl | apply Kept.foldl_fst) | (with_reducible refine Kept.mk rfl rfl rfl rfl ?_; with_reducible first | assumption | apply State.moveBursts_kept | apply State.count_kept | apply State.eccFail_kept | apply State.sramPar_kept | apply State.sliceEnds_kept | apply Kept.foldl | apply Kept.foldl_fst) | split | dsimp only | with_reducible apply Kept.ite

theorem execSliceChannelDone_kept {Q : List Instr} (bursts : Nat) (err : Fin 3) (s : State) (h0 : Kept Q s) :
    KeptOut Q (execSliceChannelDone bursts err s) := by
  unfold execSliceChannelDone
  try dsimp only
  repeat' first | intro _ | (with_reducible first | assumption | apply live_kept | apply State.sliceRun_kept | apply Kept.foldl | apply Kept.foldl_fst | apply KeptOut.live | apply KeptOut.next) | (with_reducible refine Kept.mk rfl rfl rfl rfl ?_; with_reducible first | assumption | apply live_kept | apply State.sliceRun_kept | apply Kept.foldl | apply Kept.foldl_fst) | split | dsimp only | with_reducible apply Kept.ite

theorem State.abortSlice_kept {Q : List Instr} (s : State) (n why : Nat) (h0 : Kept Q s) :
    Kept Q (State.abortSlice s n why) := by
  unfold State.abortSlice
  try dsimp only
  repeat' first | intro _ | (with_reducible first | assumption | apply State.sliceEnds_kept | apply Kept.foldl | apply Kept.foldl_fst) | (with_reducible refine Kept.mk rfl rfl rfl rfl ?_; with_reducible first | assumption | apply State.sliceEnds_kept | apply Kept.foldl | apply Kept.foldl_fst) | split | dsimp only | with_reducible apply Kept.ite

theorem State.abortOwned_kept {Q : List Instr} (s : State) (owner : Nat) (h0 : Kept Q s) :
    Kept Q (State.abortOwned s owner) := by
  unfold State.abortOwned
  try dsimp only
  repeat' first | intro _ | (with_reducible first | assumption | apply State.abortSlice_kept | apply Kept.foldl | apply Kept.foldl_fst) | (with_reducible refine Kept.mk rfl rfl rfl rfl ?_; with_reducible first | assumption | apply State.abortSlice_kept | apply Kept.foldl | apply Kept.foldl_fst) | split | dsimp only | with_reducible apply Kept.ite

theorem State.smAbort_kept {Q : List Instr} (s : State) (r : Requester) (v : Nat) (h0 : Kept Q s) :
    Kept Q (State.smAbort s r v) := by
  unfold State.smAbort
  try dsimp only
  repeat' first | intro _ | (with_reducible first | assumption | apply State.abortSlice_kept | apply State.violation_kept | apply Kept.foldl | apply Kept.foldl_fst) | (with_reducible refine Kept.mk rfl rfl rfl rfl ?_; with_reducible first | assumption | apply State.abortSlice_kept | apply State.violation_kept | apply Kept.foldl | apply Kept.foldl_fst) | split | dsimp only | with_reducible apply Kept.ite

theorem execSmabortWrite_kept {Q : List Instr} (r : Requester) (v : Word) (s : State) (h0 : Kept Q s) :
    KeptOut Q (execSmabortWrite r v s) := by
  unfold execSmabortWrite
  try dsimp only
  repeat' first | intro _ | (with_reducible first | assumption | apply live_kept | apply State.guardReg_kept | apply State.smAbort_kept | apply Kept.foldl | apply Kept.foldl_fst | apply KeptOut.live | apply KeptOut.next) | (with_reducible refine Kept.mk rfl rfl rfl rfl ?_; with_reducible first | assumption | apply live_kept | apply State.guardReg_kept | apply State.smAbort_kept | apply Kept.foldl | apply Kept.foldl_fst) | split | dsimp only | with_reducible apply Kept.ite

theorem State.postHash_kept {Q : List Instr} {t : State} (s : State) (owner : Nat) (d : List Nat) (e : State.postHash s owner d = some t)
    (h0 : Kept Q s) : Kept Q t := by
  unfold State.postHash at e
  split at e
  · cases e
  · cases e
    exact Kept.mk rfl rfl rfl rfl h0

theorem execHashMessageStart_kept {Q : List Instr} (s : State) (h0 : Kept Q s) :
    KeptOut Q (execHashMessageStart s) := by
  unfold execHashMessageStart
  try dsimp only
  repeat' first | intro _ | (with_reducible first | assumption | apply live_kept | apply Kept.foldl | apply Kept.foldl_fst | apply KeptOut.live | apply KeptOut.next) | (with_reducible refine Kept.mk rfl rfl rfl rfl ?_; with_reducible first | assumption | apply live_kept | apply Kept.foldl | apply Kept.foldl_fst) | split | dsimp only | with_reducible apply Kept.ite

theorem State.hashEnds_kept {Q : List Instr} (s : State) (d : List Nat) (r code n : Nat) (h0 : Kept Q s) :
    Kept Q (State.hashEnds s d r code n) := by
  unfold State.hashEnds
  try dsimp only
  repeat' first | intro _ | (with_reducible first | assumption | apply State.count_kept | apply State.putStatus_kept | apply State.incWrap_kept | apply State.raise_kept | apply Kept.foldl | apply Kept.foldl_fst) | (with_reducible refine Kept.mk rfl rfl rfl rfl ?_; with_reducible first | assumption | apply State.count_kept | apply State.putStatus_kept | apply State.incWrap_kept | apply State.raise_kept | apply Kept.foldl | apply Kept.foldl_fst) | split | dsimp only | with_reducible apply Kept.ite

theorem State.hashRuns_kept {Q : List Instr} (s : State) (d : List Nat) (r err done : Nat) (h0 : Kept Q s) :
    Kept Q (State.hashRuns s d r err done) := by
  unfold State.hashRuns
  try dsimp only
  repeat' first | intro _ | (with_reducible first | assumption | apply State.hashEnds_kept | apply State.eccFail_kept | apply State.sramPar_kept | apply State.engineStore_kept | apply Kept.foldl | apply Kept.foldl_fst) | (with_reducible refine Kept.mk rfl rfl rfl rfl ?_; with_reducible first | assumption | apply State.hashEnds_kept | apply State.eccFail_kept | apply State.sramPar_kept | apply State.engineStore_kept | apply Kept.foldl | apply Kept.foldl_fst) | split | dsimp only | with_reducible apply Kept.ite

theorem execHashMessageDone_kept {Q : List Instr} (err : Fin 3) (done : Nat) (s : State) (h0 : Kept Q s) :
    KeptOut Q (execHashMessageDone err done s) := by
  unfold execHashMessageDone
  try dsimp only
  repeat' first | intro _ | (with_reducible first | assumption | apply live_kept | apply State.hashRuns_kept | apply Kept.foldl | apply Kept.foldl_fst | apply KeptOut.live | apply KeptOut.next) | (with_reducible refine Kept.mk rfl rfl rfl rfl ?_; with_reducible first | assumption | apply live_kept | apply State.hashRuns_kept | apply Kept.foldl | apply Kept.foldl_fst) | split | dsimp only | with_reducible apply Kept.ite

theorem State.dcTrain_kept {Q : List Instr} (s : State) (req v : Nat) (h0 : Kept Q s) :
    Kept Q (State.dcTrain s req v) := by
  unfold State.dcTrain
  try dsimp only
  repeat' first | intro _ | (with_reducible first | assumption | apply State.storeReg_kept | apply State.refuse_kept | apply State.setFlag_kept | apply State.wr_kept | apply Kept.foldl | apply Kept.foldl_fst) | (with_reducible refine Kept.mk rfl rfl rfl rfl ?_; with_reducible first | assumption | apply State.storeReg_kept | apply State.refuse_kept | apply State.setFlag_kept | apply State.wr_kept | apply Kept.foldl | apply Kept.foldl_fst) | split | dsimp only | with_reducible apply Kept.ite

theorem execDctrainGo_kept {Q : List Instr} (r : Requester) (v : Word) (s : State) (h0 : Kept Q s) :
    KeptOut Q (execDctrainGo r v s) := by
  unfold execDctrainGo
  try dsimp only
  repeat' first | intro _ | (with_reducible first | assumption | apply live_kept | apply State.guardReg_kept | apply State.dcTrain_kept | apply Kept.foldl | apply Kept.foldl_fst | apply KeptOut.live | apply KeptOut.next) | (with_reducible refine Kept.mk rfl rfl rfl rfl ?_; with_reducible first | assumption | apply live_kept | apply State.guardReg_kept | apply State.dcTrain_kept | apply Kept.foldl | apply Kept.foldl_fst) | split | dsimp only | with_reducible apply Kept.ite

theorem execTrainDone_kept {Q : List Instr} (fail : Fin 262144) (errors : Word) (s : State) (h0 : Kept Q s) :
    KeptOut Q (execTrainDone fail errors s) := by
  unfold execTrainDone
  try dsimp only
  repeat' first | intro _ | (with_reducible first | assumption | apply State.setFlag_kept | apply State.wr_kept | apply live_kept | apply State.raise_kept | apply Kept.foldl | apply Kept.foldl_fst | apply KeptOut.live | apply KeptOut.next) | (with_reducible refine Kept.mk rfl rfl rfl rfl ?_; with_reducible first | assumption | apply State.setFlag_kept | apply State.wr_kept | apply live_kept | apply State.raise_kept | apply Kept.foldl | apply Kept.foldl_fst) | split | dsimp only | with_reducible apply Kept.ite

theorem execRtPortPanic_kept {Q : List Instr} (p : Fin 97) (level : Fin 32769) (due : Bool) (s : State) (h0 : Kept Q s) :
    KeptOut Q (execRtPortPanic p level due s) := by
  unfold execRtPortPanic
  try dsimp only
  repeat' first | intro _ | (with_reducible first | assumption | apply live_kept | apply State.raise_kept | apply Kept.foldl | apply Kept.foldl_fst | apply KeptOut.live | apply KeptOut.next) | (with_reducible refine Kept.mk rfl rfl rfl rfl ?_; with_reducible first | assumption | apply live_kept | apply State.raise_kept | apply Kept.foldl | apply Kept.foldl_fst) | split | dsimp only | with_reducible apply Kept.ite

end Sys2Proof.Machine
end

