-- ==== Sys2Proof/Laws/KeptImages.lean ====
section
/-! SUPPORT. Soundness is kept by every operation and meaning of Machine/Images.lean. -/

namespace Sys2Proof.Machine

theorem State.loadSegment_kept {Q : List Instr} (s : State) (c n : Nat) (h0 : Kept Q s) :
    Kept Q (State.loadSegment s c n) := by
  unfold State.loadSegment
  try dsimp only
  repeat' first | intro _ | (with_reducible first | assumption | apply State.storeBytes_kept | apply Kept.foldl | apply Kept.foldl_fst) | (with_reducible refine Kept.mk rfl rfl rfl rfl ?_; with_reducible first | assumption | apply State.storeBytes_kept | apply Kept.foldl | apply Kept.foldl_fst) | split | dsimp only | with_reducible apply Kept.ite

theorem State.loadMemory_kept {Q : List Instr} (s : State) (n : Nat) (h0 : Kept Q s) :
    Kept Q (State.loadMemory s n) := by
  unfold State.loadMemory
  try dsimp only
  repeat' first | intro _ | (with_reducible first | assumption | apply State.engineStore_kept | apply Kept.foldl | apply Kept.foldl_fst) | (with_reducible refine Kept.mk rfl rfl rfl rfl ?_; with_reducible first | assumption | apply State.engineStore_kept | apply Kept.foldl | apply Kept.foldl_fst) | split | dsimp only | with_reducible apply Kept.ite

theorem State.refuseImage_kept {Q : List Instr} (s : State) (n : Nat) (h0 : Kept Q s) :
    Kept Q (State.refuseImage s n) := by
  unfold State.refuseImage
  try dsimp only
  repeat' first | intro _ | (with_reducible first | assumption | apply State.crumb_kept | apply State.raise_kept | apply Kept.foldl | apply Kept.foldl_fst) | (with_reducible refine Kept.mk rfl rfl rfl rfl ?_; with_reducible first | assumption | apply State.crumb_kept | apply State.raise_kept | apply Kept.foldl | apply Kept.foldl_fst) | split | dsimp only | with_reducible apply Kept.ite

end Sys2Proof.Machine
end

