-- ==== Sys2Proof/Laws/KeptCores.lean ====
section
/-! SUPPORT. Soundness is kept by every operation and meaning of Machine/Cores.lean. -/

namespace Sys2Proof.Machine

theorem State.updCore_kept {Q : List Instr} (s : State) (c : Nat) (f : CoreSt → CoreSt) (h0 : Kept Q s) :
    Kept Q (State.updCore s c f) := by
  unfold State.updCore
  try dsimp only
  repeat' first | intro _ | (with_reducible first | assumption | apply Kept.foldl | apply Kept.foldl_fst) | (with_reducible refine Kept.mk rfl rfl rfl rfl ?_; with_reducible first | assumption | apply Kept.foldl | apply Kept.foldl_fst) | split | dsimp only | with_reducible apply Kept.ite

theorem State.setGreg_kept {Q : List Instr} (s : State) (c n v : Nat) (h0 : Kept Q s) :
    Kept Q (State.setGreg s c n v) := by
  unfold State.setGreg
  try dsimp only
  repeat' first | intro _ | (with_reducible first | assumption | apply State.updCore_kept | apply Kept.foldl | apply Kept.foldl_fst) | (with_reducible refine Kept.mk rfl rfl rfl rfl ?_; with_reducible first | assumption | apply State.updCore_kept | apply Kept.foldl | apply Kept.foldl_fst) | split | dsimp only | with_reducible apply Kept.ite

theorem State.setCreg_kept {Q : List Instr} (s : State) (c k v : Nat) (h0 : Kept Q s) :
    Kept Q (State.setCreg s c k v) := by
  unfold State.setCreg
  try dsimp only
  repeat' first | intro _ | (with_reducible first | assumption | apply State.updCore_kept | apply Kept.foldl | apply Kept.foldl_fst) | (with_reducible refine Kept.mk rfl rfl rfl rfl ?_; with_reducible first | assumption | apply State.updCore_kept | apply Kept.foldl | apply Kept.foldl_fst) | split | dsimp only | with_reducible apply Kept.ite

theorem State.offerLine_kept {Q : List Instr} (s : State) (l : CLine) (h0 : Kept Q s) :
    Kept Q (State.offerLine s l) := by
  unfold State.offerLine
  try dsimp only
  repeat' first | intro _ | (with_reducible first | assumption | apply State.incWrap_kept | apply Kept.foldl | apply Kept.foldl_fst) | (with_reducible refine Kept.mk rfl rfl rfl rfl ?_; with_reducible first | assumption | apply State.incWrap_kept | apply Kept.foldl | apply Kept.foldl_fst) | split | dsimp only | with_reducible apply Kept.ite

theorem State.l2Ask_kept {Q : List Instr} (s : State) (n : Nat) (h0 : Kept Q s) :
    Kept Q (State.l2Ask s n).1 := by
  unfold State.l2Ask
  try dsimp only
  repeat' first | intro _ | (with_reducible first | assumption | apply State.count_kept | apply Kept.foldl | apply Kept.foldl_fst) | (with_reducible refine Kept.mk rfl rfl rfl rfl ?_; with_reducible first | assumption | apply State.count_kept | apply Kept.foldl | apply Kept.foldl_fst) | split | dsimp only | with_reducible apply Kept.ite

theorem State.l2Parity_kept {Q : List Instr} (s : State) (n : Nat) (h0 : Kept Q s) :
    Kept Q (State.l2Parity s n) := by
  unfold State.l2Parity
  try dsimp only
  repeat' first | intro _ | (with_reducible first | assumption | apply State.incSat_kept | apply State.raise_kept | apply Kept.foldl | apply Kept.foldl_fst) | (with_reducible refine Kept.mk rfl rfl rfl rfl ?_; with_reducible first | assumption | apply State.incSat_kept | apply State.raise_kept | apply Kept.foldl | apply Kept.foldl_fst) | split | dsimp only | with_reducible apply Kept.ite

theorem State.setL1_kept {Q : List Instr} (s : State) (c : Nat) (data : Bool) (t : Tbl (List CLine)) (h0 : Kept Q s) :
    Kept Q (State.setL1 s c data t) := by
  unfold State.setL1
  try dsimp only
  repeat' first | intro _ | (with_reducible first | assumption | apply State.updCore_kept | apply Kept.foldl | apply Kept.foldl_fst) | (with_reducible refine Kept.mk rfl rfl rfl rfl ?_; with_reducible first | assumption | apply State.updCore_kept | apply Kept.foldl | apply Kept.foldl_fst) | split | dsimp only | with_reducible apply Kept.ite

theorem State.sidePut_kept {Q : List Instr} (s : State) (c n : Nat) (h0 : Kept Q s) :
    Kept Q (State.sidePut s c n) := by
  unfold State.sidePut
  try dsimp only
  repeat' first | intro _ | (with_reducible first | assumption | apply State.updCore_kept | apply Kept.foldl | apply Kept.foldl_fst) | (with_reducible refine Kept.mk rfl rfl rfl rfl ?_; with_reducible first | assumption | apply State.updCore_kept | apply Kept.foldl | apply Kept.foldl_fst) | split | dsimp only | with_reducible apply Kept.ite

theorem State.useLine_kept {Q : List Instr} (s : State) (c : Nat) (data : Bool) (n : Nat) (h0 : Kept Q s) :
    Kept Q (State.useLine s c data n) := by
  unfold State.useLine
  try dsimp only
  repeat' first | intro _ | (with_reducible first | assumption | apply State.setL1_kept | apply State.updCore_kept | apply State.count_kept | apply State.take_kept | apply State.offerLine_kept | apply Kept.foldl | apply Kept.foldl_fst) | (with_reducible refine Kept.mk rfl rfl rfl rfl ?_; with_reducible first | assumption | apply State.setL1_kept | apply State.updCore_kept | apply State.count_kept | apply State.take_kept | apply State.offerLine_kept | apply Kept.foldl | apply Kept.foldl_fst) | split | dsimp only | with_reducible apply Kept.ite

theorem State.flagLine_kept {Q : List Instr} (s : State) (c : Nat) (data : Bool) (n : Nat) (h0 : Kept Q s) :
    Kept Q (State.flagLine s c data n) := by
  unfold State.flagLine
  try dsimp only
  repeat' first | intro _ | (with_reducible first | assumption | apply State.setL1_kept | apply State.updCore_kept | apply Kept.foldl | apply Kept.foldl_fst) | (with_reducible refine Kept.mk rfl rfl rfl rfl ?_; with_reducible first | assumption | apply State.setL1_kept | apply State.updCore_kept | apply Kept.foldl | apply Kept.foldl_fst) | split | dsimp only | with_reducible apply Kept.ite

theorem State.lineParity_kept {Q : List Instr} (s : State) (c : Nat) (data isBad : Bool) (n : Nat) (h0 : Kept Q s) :
    Kept Q (State.lineParity s c data isBad n) := by
  unfold State.lineParity
  try dsimp only
  repeat' first | intro _ | (with_reducible first | assumption | apply State.incSat_kept | apply State.flagLine_kept | apply State.raise_kept | apply Kept.foldl | apply Kept.foldl_fst) | (with_reducible refine Kept.mk rfl rfl rfl rfl ?_; with_reducible first | assumption | apply State.incSat_kept | apply State.flagLine_kept | apply State.raise_kept | apply Kept.foldl | apply Kept.foldl_fst) | split | dsimp only | with_reducible apply Kept.ite

theorem State.readLine_kept {Q : List Instr} (s : State) (c : Nat) (data : Bool) (n : Nat) (perr l2err : Bool) (h0 : Kept Q s) :
    Kept Q (State.readLine s c data n perr l2err).1 := by
  unfold State.readLine
  try dsimp only
  repeat' first | intro _ | (with_reducible first | assumption | apply State.count_kept | apply State.lineParity_kept | apply State.l2Ask_kept | apply State.useLine_kept | apply State.l2Parity_kept | apply State.sidePut_kept | apply Kept.foldl | apply Kept.foldl_fst) | (with_reducible refine Kept.mk rfl rfl rfl rfl ?_; with_reducible first | assumption | apply State.count_kept | apply State.lineParity_kept | apply State.l2Ask_kept | apply State.useLine_kept | apply State.l2Parity_kept | apply State.sidePut_kept | apply Kept.foldl | apply Kept.foldl_fst) | split | dsimp only | with_reducible apply Kept.ite

theorem State.prefetch_kept {Q : List Instr} (s : State) (c : Nat) (data counted : Bool) (n : Nat) (h0 : Kept Q s) :
    Kept Q (State.prefetch s c data counted n) := by
  unfold State.prefetch
  try dsimp only
  repeat' first | intro _ | (with_reducible first | assumption | apply State.l2Ask_kept | apply State.sidePut_kept | apply Kept.foldl | apply Kept.foldl_fst) | (with_reducible refine Kept.mk rfl rfl rfl rfl ?_; with_reducible first | assumption | apply State.l2Ask_kept | apply State.sidePut_kept | apply Kept.foldl | apply Kept.foldl_fst) | split | dsimp only | with_reducible apply Kept.ite

theorem State.storeCached_kept {Q : List Instr} (s : State) (c a k v : Nat) (h0 : Kept Q s) :
    Kept Q (State.storeCached s c a k v) := by
  unfold State.storeCached
  try dsimp only
  repeat' first | intro _ | (with_reducible first | assumption | apply State.storeLE_kept | apply State.setL1_kept | apply State.updCore_kept | apply Kept.foldl | apply Kept.foldl_fst) | (with_reducible refine Kept.mk rfl rfl rfl rfl ?_; with_reducible first | assumption | apply State.storeLE_kept | apply State.setL1_kept | apply State.updCore_kept | apply Kept.foldl | apply Kept.foldl_fst) | split | dsimp only | with_reducible apply Kept.ite

theorem State.trap_kept {Q : List Instr} (s : State) (c code val ret : Nat) (h0 : Kept Q s) :
    Kept Q (State.trap s c code val ret) := by
  unfold State.trap
  try dsimp only
  repeat' first | intro _ | (with_reducible first | assumption | apply State.wr_kept | apply State.setFlag_kept | apply State.raise_kept | apply State.updCore_kept | apply Kept.foldl | apply Kept.foldl_fst) | (with_reducible refine Kept.mk rfl rfl rfl rfl ?_; with_reducible first | assumption | apply State.wr_kept | apply State.setFlag_kept | apply State.raise_kept | apply State.updCore_kept | apply Kept.foldl | apply Kept.foldl_fst) | split | dsimp only | with_reducible apply Kept.ite

theorem State.smpLoad_kept {Q : List Instr} (s : State) (c : Nat) (h0 : Kept Q s) :
    Kept Q (State.smpLoad s c) := by
  unfold State.smpLoad
  try dsimp only
  repeat' first | intro _ | (with_reducible first | assumption | apply State.updCore_kept | apply Kept.foldl | apply Kept.foldl_fst) | (with_reducible refine Kept.mk rfl rfl rfl rfl ?_; with_reducible first | assumption | apply State.updCore_kept | apply Kept.foldl | apply Kept.foldl_fst) | split | dsimp only | with_reducible apply Kept.ite

theorem State.smpFetch_kept {Q : List Instr} (s : State) (c : Nat) (h0 : Kept Q s) :
    Kept Q (State.smpFetch s c).1 := by
  unfold State.smpFetch
  try dsimp only
  repeat' first | intro _ | (with_reducible first | assumption | apply State.smpLoad_kept | apply State.updCore_kept | apply Kept.foldl | apply Kept.foldl_fst) | (with_reducible refine Kept.mk rfl rfl rfl rfl ?_; with_reducible first | assumption | apply State.smpLoad_kept | apply State.updCore_kept | apply Kept.foldl | apply Kept.foldl_fst) | split | dsimp only | with_reducible apply Kept.ite

theorem State.smpWrite_kept {Q : List Instr} (s : State) (c : Nat) (w0 w1 w2 w3 w4 : Nat) (h0 : Kept Q s) :
    Kept Q (State.smpWrite s c w0 w1 w2 w3 w4) := by
  unfold State.smpWrite
  try dsimp only
  repeat' first | intro _ | (with_reducible first | assumption | apply State.updCore_kept | apply State.incSat_kept | apply State.raise_kept | apply State.storeCached_kept | apply State.wr_kept | apply Kept.foldl | apply Kept.foldl_fst) | (with_reducible refine Kept.mk rfl rfl rfl rfl ?_; with_reducible first | assumption | apply State.updCore_kept | apply State.incSat_kept | apply State.raise_kept | apply State.storeCached_kept | apply State.wr_kept | apply Kept.foldl | apply Kept.foldl_fst) | split | dsimp only | with_reducible apply Kept.ite

theorem State.smpControl_kept {Q : List Instr} (s : State) (c v : Nat) (h0 : Kept Q s) :
    Kept Q (State.smpControl s c v) := by
  unfold State.smpControl
  try dsimp only
  repeat' first | intro _ | (with_reducible first | assumption | apply State.storeReg_kept | apply State.wr_kept | apply State.updCore_kept | apply State.smpLoad_kept | apply Kept.foldl | apply Kept.foldl_fst) | (with_reducible refine Kept.mk rfl rfl rfl rfl ?_; with_reducible first | assumption | apply State.storeReg_kept | apply State.wr_kept | apply State.updCore_kept | apply State.smpLoad_kept | apply Kept.foldl | apply Kept.foldl_fst) | split | dsimp only | with_reducible apply Kept.ite

theorem execSamplingEnable_kept {Q : List Instr} (r : Requester) (c : Fin 9) (v : Word) (s : State) (h0 : Kept Q s) :
    KeptOut Q (execSamplingEnable r c v s) := by
  unfold execSamplingEnable
  try dsimp only
  repeat' first | intro _ | (with_reducible first | assumption | apply live_kept | apply State.guardReg_kept | apply State.smpControl_kept | apply Kept.foldl | apply Kept.foldl_fst | apply KeptOut.live | apply KeptOut.next) | (with_reducible refine Kept.mk rfl rfl rfl rfl ?_; with_reducible first | assumption | apply live_kept | apply State.guardReg_kept | apply State.smpControl_kept | apply Kept.foldl | apply Kept.foldl_fst) | split | dsimp only | with_reducible apply Kept.ite

theorem State.coreReset_kept {Q : List Instr} (s : State) (n : Nat) (h0 : Kept Q s) :
    Kept Q (State.coreReset s n) := by
  unfold State.coreReset
  try dsimp only
  repeat' first | intro _ | (with_reducible first | assumption | apply State.wr_kept | apply State.setFlag_kept | apply State.abortOwned_kept | apply Kept.foldl | apply Kept.foldl_fst) | (with_reducible refine Kept.mk rfl rfl rfl rfl ?_; with_reducible first | assumption | apply State.wr_kept | apply State.setFlag_kept | apply State.abortOwned_kept | apply Kept.foldl | apply Kept.foldl_fst) | split | dsimp only | with_reducible apply Kept.ite

theorem State.coreStart_kept {Q : List Instr} (s : State) (n : Nat) (h0 : Kept Q s) :
    Kept Q (State.coreStart s n) := by
  unfold State.coreStart
  try dsimp only
  repeat' first | intro _ | (with_reducible first | assumption | apply State.setFlag_kept | apply State.wr_kept | apply State.updCore_kept | apply Kept.foldl | apply Kept.foldl_fst) | (with_reducible refine Kept.mk rfl rfl rfl rfl ?_; with_reducible first | assumption | apply State.setFlag_kept | apply State.wr_kept | apply State.updCore_kept | apply Kept.foldl | apply Kept.foldl_fst) | split | dsimp only | with_reducible apply Kept.ite

theorem State.kcControl_kept {Q : List Instr} (s : State) (n v : Nat) (h0 : Kept Q s) :
    Kept Q (State.kcControl s n v) := by
  unfold State.kcControl
  try dsimp only
  repeat' first | intro _ | (with_reducible first | assumption | apply State.coreReset_kept | apply State.setFlag_kept | apply State.coreStart_kept | apply Kept.foldl | apply Kept.foldl_fst) | (with_reducible refine Kept.mk rfl rfl rfl rfl ?_; with_reducible first | assumption | apply State.coreReset_kept | apply State.setFlag_kept | apply State.coreStart_kept | apply Kept.foldl | apply Kept.foldl_fst) | split | dsimp only | with_reducible apply Kept.ite

theorem execCoreReset_kept {Q : List Instr} (r : Requester) (n : Fin 8) (v : Word) (s : State) (h0 : Kept Q s) :
    KeptOut Q (execCoreReset r n v s) := by
  unfold execCoreReset
  try dsimp only
  repeat' first | intro _ | (with_reducible first | assumption | apply live_kept | apply State.guardReg_kept | apply State.kcControl_kept | apply Kept.foldl | apply Kept.foldl_fst | apply KeptOut.live | apply KeptOut.next) | (with_reducible refine Kept.mk rfl rfl rfl rfl ?_; with_reducible first | assumption | apply live_kept | apply State.guardReg_kept | apply State.kcControl_kept | apply Kept.foldl | apply Kept.foldl_fst) | split | dsimp only | with_reducible apply Kept.ite

theorem execCoreHold_kept {Q : List Instr} (r : Requester) (n : Fin 8) (v : Word) (s : State) (h0 : Kept Q s) :
    KeptOut Q (execCoreHold r n v s) := by
  unfold execCoreHold
  try dsimp only
  repeat' first | intro _ | (with_reducible first | assumption | apply live_kept | apply State.guardReg_kept | apply State.kcControl_kept | apply Kept.foldl | apply Kept.foldl_fst | apply KeptOut.live | apply KeptOut.next) | (with_reducible refine Kept.mk rfl rfl rfl rfl ?_; with_reducible first | assumption | apply live_kept | apply State.guardReg_kept | apply State.kcControl_kept | apply Kept.foldl | apply Kept.foldl_fst) | split | dsimp only | with_reducible apply Kept.ite

theorem execCoreRun_kept {Q : List Instr} (r : Requester) (n : Fin 8) (v : Word) (s : State) (h0 : Kept Q s) :
    KeptOut Q (execCoreRun r n v s) := by
  unfold execCoreRun
  try dsimp only
  repeat' first | intro _ | (with_reducible first | assumption | apply live_kept | apply State.guardReg_kept | apply State.kcControl_kept | apply Kept.foldl | apply Kept.foldl_fst | apply KeptOut.live | apply KeptOut.next) | (with_reducible refine Kept.mk rfl rfl rfl rfl ?_; with_reducible first | assumption | apply live_kept | apply State.guardReg_kept | apply State.kcControl_kept | apply Kept.foldl | apply Kept.foldl_fst) | split | dsimp only | with_reducible apply Kept.ite

theorem State.abortTaken_kept {Q : List Instr} (s : State) (n : Nat) (h0 : Kept Q s) :
    Kept Q (State.abortTaken s n) := by
  unfold State.abortTaken
  try dsimp only
  repeat' first | intro _ | (with_reducible first | assumption | apply State.endOp_kept | apply Kept.foldl | apply Kept.foldl_fst) | (with_reducible refine Kept.mk rfl rfl rfl rfl ?_; with_reducible first | assumption | apply State.endOp_kept | apply Kept.foldl | apply Kept.foldl_fst) | split | dsimp only | with_reducible apply Kept.ite

theorem State.leaveStopped_kept {Q : List Instr} (s : State) (n : Nat) (h0 : Kept Q s) :
    Kept Q (State.leaveStopped s n) := by
  unfold State.leaveStopped
  try dsimp only
  repeat' first | intro _ | (with_reducible first | assumption | apply State.endOp_kept | apply State.setWaiting_kept | apply State.finish_kept | apply State.setFlag_kept | apply Kept.foldl | apply Kept.foldl_fst) | (with_reducible refine Kept.mk rfl rfl rfl rfl ?_; with_reducible first | assumption | apply State.endOp_kept | apply State.setWaiting_kept | apply State.finish_kept | apply State.setFlag_kept | apply Kept.foldl | apply Kept.foldl_fst) | split | dsimp only | with_reducible apply Kept.ite

theorem execHeartbeatTimeout_kept {Q : List Instr} (n : Fin 8) (ok : Bool) (s : State) (h0 : Kept Q s) :
    KeptOut Q (execHeartbeatTimeout n ok s) := by
  unfold execHeartbeatTimeout
  try dsimp only
  repeat' first | intro _ | (with_reducible first | assumption | apply State.coreReset_kept | apply State.updCore_kept | apply State.raise_kept | apply live_kept | apply State.leaveStopped_kept | apply State.loadSegment_kept | apply State.coreStart_kept | apply State.abortTaken_kept | apply Kept.foldl | apply Kept.foldl_fst | apply KeptOut.live | apply KeptOut.next) | (with_reducible refine Kept.mk rfl rfl rfl rfl ?_; with_reducible first | assumption | apply State.coreReset_kept | apply State.updCore_kept | apply State.raise_kept | apply live_kept | apply State.leaveStopped_kept | apply State.loadSegment_kept | apply State.coreStart_kept | apply State.abortTaken_kept | apply Kept.foldl | apply Kept.foldl_fst) | split | dsimp only | with_reducible apply Kept.ite

end Sys2Proof.Machine
end

