-- ==== Sys2Proof/Laws/KeptRing.lean ====
section
/-! SUPPORT. Soundness is kept by every operation and meaning of Machine/Ring.lean. -/

namespace Sys2Proof.Machine

theorem State.updSide_kept {Q : List Instr} (s : State) (portB : Bool) (f : RingSide → RingSide) (h0 : Kept Q s) :
    Kept Q (State.updSide s portB f) := by
  unfold State.updSide
  try dsimp only
  repeat' first | intro _ | (with_reducible first | assumption | apply Kept.foldl | apply Kept.foldl_fst) | (with_reducible refine Kept.mk rfl rfl rfl rfl ?_; with_reducible first | assumption | apply Kept.foldl | apply Kept.foldl_fst) | split | dsimp only | with_reducible apply Kept.ite

theorem State.ringSend_kept {Q : List Instr} (s : State) (x : RingOut) (h0 : Kept Q s) :
    Kept Q (State.ringSend s x) := by
  unfold State.ringSend
  try dsimp only
  repeat' first | intro _ | (with_reducible first | assumption | apply Kept.foldl | apply Kept.foldl_fst) | (with_reducible refine Kept.mk rfl rfl rfl rfl ?_; with_reducible first | assumption | apply Kept.foldl | apply Kept.foldl_fst) | split | dsimp only | with_reducible apply Kept.ite

theorem State.setRn_kept {Q : List Instr} (s : State) (portB : Bool) (st : Nat) (h0 : Kept Q s) :
    Kept Q (State.setRn s portB st) := by
  unfold State.setRn
  try dsimp only
  repeat' first | intro _ | (with_reducible first | assumption | apply State.wr_kept | apply Kept.foldl | apply Kept.foldl_fst) | (with_reducible refine Kept.mk rfl rfl rfl rfl ?_; with_reducible first | assumption | apply State.wr_kept | apply Kept.foldl | apply Kept.foldl_fst) | split | dsimp only | with_reducible apply Kept.ite

theorem State.ringViol_kept {Q : List Instr} (s : State) (row d6 d7 : Nat) (h0 : Kept Q s) :
    Kept Q (State.ringViol s row d6 d7) := by
  unfold State.ringViol
  try dsimp only
  repeat' first | intro _ | (with_reducible first | assumption | apply State.crumb_kept | apply State.raise_kept | apply Kept.foldl | apply Kept.foldl_fst) | (with_reducible refine Kept.mk rfl rfl rfl rfl ?_; with_reducible first | assumption | apply State.crumb_kept | apply State.raise_kept | apply Kept.foldl | apply Kept.foldl_fst) | split | dsimp only | with_reducible apply Kept.ite

theorem State.ringBad_kept {Q : List Instr} (s : State) (h0 : Kept Q s) :
    Kept Q (State.ringBad s) := by
  unfold State.ringBad
  try dsimp only
  repeat' first | intro _ | (with_reducible first | assumption | apply State.ringViol_kept | apply State.count_kept | apply Kept.foldl | apply Kept.foldl_fst) | (with_reducible refine Kept.mk rfl rfl rfl rfl ?_; with_reducible first | assumption | apply State.ringViol_kept | apply State.count_kept | apply Kept.foldl | apply Kept.foldl_fst) | split | dsimp only | with_reducible apply Kept.ite

theorem State.bypass_kept {Q : List Instr} (s : State) (portB : Bool) (h0 : Kept Q s) :
    Kept Q (State.bypass s portB) := by
  unfold State.bypass
  try dsimp only
  repeat' first | intro _ | (with_reducible first | assumption | apply State.updSide_kept | apply State.setRn_kept | apply Kept.foldl | apply Kept.foldl_fst) | (with_reducible refine Kept.mk rfl rfl rfl rfl ?_; with_reducible first | assumption | apply State.updSide_kept | apply State.setRn_kept | apply Kept.foldl | apply Kept.foldl_fst) | split | dsimp only | with_reducible apply Kept.ite

theorem execRingBlockLock_kept {Q : List Instr} (portB : Bool) (s : State) (h0 : Kept Q s) :
    KeptOut Q (execRingBlockLock portB s) := by
  unfold execRingBlockLock
  try dsimp only
  repeat' first | intro _ | (with_reducible first | assumption | apply live_kept | apply State.updSide_kept | apply State.bypass_kept | apply State.raise_kept | apply Kept.foldl | apply Kept.foldl_fst | apply KeptOut.live | apply KeptOut.next) | (with_reducible refine Kept.mk rfl rfl rfl rfl ?_; with_reducible first | assumption | apply live_kept | apply State.updSide_kept | apply State.bypass_kept | apply State.raise_kept | apply Kept.foldl | apply Kept.foldl_fst) | split | dsimp only | with_reducible apply Kept.ite

theorem execRingBlockLoss_kept {Q : List Instr} (portB : Bool) (s : State) (h0 : Kept Q s) :
    KeptOut Q (execRingBlockLoss portB s) := by
  unfold execRingBlockLoss
  try dsimp only
  repeat' first | intro _ | (with_reducible first | assumption | apply live_kept | apply State.updSide_kept | apply State.bypass_kept | apply State.raise_kept | apply Kept.foldl | apply Kept.foldl_fst | apply KeptOut.live | apply KeptOut.next) | (with_reducible refine Kept.mk rfl rfl rfl rfl ?_; with_reducible first | assumption | apply live_kept | apply State.updSide_kept | apply State.bypass_kept | apply State.raise_kept | apply Kept.foldl | apply Kept.foldl_fst) | split | dsimp only | with_reducible apply Kept.ite

theorem State.seeClaim_kept {Q : List Instr} (s : State) (portB : Bool) (serial : Nat) (h0 : Kept Q s) :
    Kept Q (State.seeClaim s portB serial) := by
  unfold State.seeClaim
  try dsimp only
  repeat' first | intro _ | (with_reducible first | assumption | apply State.updSide_kept | apply State.setRn_kept | apply State.raise_kept | apply Kept.foldl | apply Kept.foldl_fst) | (with_reducible refine Kept.mk rfl rfl rfl rfl ?_; with_reducible first | assumption | apply State.updSide_kept | apply State.setRn_kept | apply State.raise_kept | apply Kept.foldl | apply Kept.foldl_fst) | split | dsimp only | with_reducible apply Kept.ite

theorem execClaimSend_kept {Q : List Instr} (s : State) (h0 : Kept Q s) :
    KeptOut Q (execClaimSend s) := by
  unfold execClaimSend
  try dsimp only
  repeat' first | intro _ | (with_reducible first | assumption | apply live_kept | apply State.ringSend_kept | apply State.seeClaim_kept | apply Kept.foldl | apply Kept.foldl_fst | apply KeptOut.live | apply KeptOut.next) | (with_reducible refine Kept.mk rfl rfl rfl rfl ?_; with_reducible first | assumption | apply live_kept | apply State.ringSend_kept | apply State.seeClaim_kept | apply Kept.foldl | apply Kept.foldl_fst) | split | dsimp only | with_reducible apply Kept.ite

theorem execClaimFrame_kept {Q : List Instr} (portB : Bool) (serial : Nat) (bad : Bool) (s : State) (h0 : Kept Q s) :
    KeptOut Q (execClaimFrame portB serial bad s) := by
  unfold execClaimFrame
  try dsimp only
  repeat' first | intro _ | (with_reducible first | assumption | apply live_kept | apply State.ringBad_kept | apply State.ringSend_kept | apply State.forward_kept | apply State.ringViol_kept | apply State.seeClaim_kept | apply Kept.foldl | apply Kept.foldl_fst | apply KeptOut.live | apply KeptOut.next) | (with_reducible refine Kept.mk rfl rfl rfl rfl ?_; with_reducible first | assumption | apply live_kept | apply State.ringBad_kept | apply State.ringSend_kept | apply State.forward_kept | apply State.ringViol_kept | apply State.seeClaim_kept | apply Kept.foldl | apply Kept.foldl_fst) | split | dsimp only | with_reducible apply Kept.ite

theorem execConflictEnd_kept {Q : List Instr} (portB : Bool) (s : State) (h0 : Kept Q s) :
    KeptOut Q (execConflictEnd portB s) := by
  unfold execConflictEnd
  try dsimp only
  repeat' first | intro _ | (with_reducible first | assumption | apply live_kept | apply State.updSide_kept | apply State.setRn_kept | apply Kept.foldl | apply Kept.foldl_fst | apply KeptOut.live | apply KeptOut.next) | (with_reducible refine Kept.mk rfl rfl rfl rfl ?_; with_reducible first | assumption | apply live_kept | apply State.updSide_kept | apply State.setRn_kept | apply Kept.foldl | apply Kept.foldl_fst) | split | dsimp only | with_reducible apply Kept.ite

theorem execJoinFrame_kept {Q : List Instr} (portB : Bool) (hop serial : Nat) (wanted : Option (Fin 64)) (s : State) (h0 : Kept Q s) :
    KeptOut Q (execJoinFrame portB hop serial wanted s) := by
  unfold execJoinFrame
  try dsimp only
  repeat' first | intro _ | (with_reducible first | assumption | apply live_kept | apply State.ringSend_kept | apply State.forward_kept | apply State.refuse_kept | apply State.updSide_kept | apply Kept.foldl | apply Kept.foldl_fst | apply KeptOut.live | apply KeptOut.next) | (with_reducible refine Kept.mk rfl rfl rfl rfl ?_; with_reducible first | assumption | apply live_kept | apply State.ringSend_kept | apply State.forward_kept | apply State.refuse_kept | apply State.updSide_kept | apply Kept.foldl | apply Kept.foldl_fst) | split | dsimp only | with_reducible apply Kept.ite

theorem State.admitStation_kept {Q : List Instr} (s : State) (portB : Bool) (j : Nat × Nat × Nat) (h0 : Kept Q s) :
    Kept Q (State.admitStation s portB j) := by
  unfold State.admitStation
  try dsimp only
  repeat' first | intro _ | (with_reducible first | assumption | apply State.ringSend_kept | apply State.refuse_kept | apply State.updSide_kept | apply Kept.foldl | apply Kept.foldl_fst) | (with_reducible refine Kept.mk rfl rfl rfl rfl ?_; with_reducible first | assumption | apply State.ringSend_kept | apply State.refuse_kept | apply State.updSide_kept | apply Kept.foldl | apply Kept.foldl_fst) | split | dsimp only | with_reducible apply Kept.ite

theorem State.applyScatter_kept {Q : List Instr} (s : State) (v : Nat) (h0 : Kept Q s) :
    Kept Q (State.applyScatter s v) := by
  unfold State.applyScatter
  try dsimp only
  repeat' first | intro _ | (with_reducible first | assumption | apply State.wr_kept | apply Kept.foldl | apply Kept.foldl_fst) | (with_reducible refine Kept.mk rfl rfl rfl rfl ?_; with_reducible first | assumption | apply State.wr_kept | apply Kept.foldl | apply Kept.foldl_fst) | split | dsimp only | with_reducible apply Kept.ite

theorem State.changeMembers_kept {Q : List Instr} (s : State) (portB : Bool) (h0 : Kept Q s) :
    Kept Q (State.changeMembers s portB) := by
  unfold State.changeMembers
  try dsimp only
  repeat' first | intro _ | (with_reducible first | assumption | apply State.updSide_kept | apply State.admitStation_kept | apply State.raise_kept | apply Kept.foldl | apply Kept.foldl_fst) | (with_reducible refine Kept.mk rfl rfl rfl rfl ?_; with_reducible first | assumption | apply State.updSide_kept | apply State.admit_kept | apply State.raise_kept | apply Kept.foldl | apply Kept.foldl_fst) | split | dsimp only | with_reducible apply Kept.ite

theorem execRingCycleStart_kept {Q : List Instr} (portB : Bool) (s : State) (h0 : Kept Q s) :
    KeptOut Q (execRingCycleStart portB s) := by
  unfold execRingCycleStart
  try dsimp only
  repeat' first | intro _ | (with_reducible first | assumption | apply State.changeMembers_kept | apply State.updSide_kept | apply State.setRn_kept | apply State.ringSend_kept | apply State.wr_kept | apply live_kept | apply Kept.foldl | apply Kept.foldl_fst | apply KeptOut.live | apply KeptOut.next) | (with_reducible refine Kept.mk rfl rfl rfl rfl ?_; with_reducible first | assumption | apply State.changeMembers_kept | apply State.updSide_kept | apply State.setRn_kept | apply State.ringSend_kept | apply State.wr_kept | apply live_kept | apply Kept.foldl | apply Kept.foldl_fst) | split | dsimp only | with_reducible apply Kept.ite

theorem State.setResult_kept {Q : List Instr} (s : State) (portB : Bool) (v : Nat) (h0 : Kept Q s) :
    Kept Q (State.setResult s portB v) := by
  unfold State.setResult
  try dsimp only
  repeat' first | intro _ | (with_reducible first | assumption | apply State.wr_kept | apply Kept.foldl | apply Kept.foldl_fst) | (with_reducible refine Kept.mk rfl rfl rfl rfl ?_; with_reducible first | assumption | apply State.wr_kept | apply Kept.foldl | apply Kept.foldl_fst) | split | dsimp only | with_reducible apply Kept.ite

theorem execGatherTimeout_kept {Q : List Instr} (portB : Bool) (s : State) (h0 : Kept Q s) :
    KeptOut Q (execGatherTimeout portB s) := by
  unfold execGatherTimeout
  try dsimp only
  repeat' first | intro _ | (with_reducible first | assumption | apply State.updSide_kept | apply State.setResult_kept | apply live_kept | apply State.raise_kept | apply Kept.foldl | apply Kept.foldl_fst | apply KeptOut.live | apply KeptOut.next) | (with_reducible refine Kept.mk rfl rfl rfl rfl ?_; with_reducible first | assumption | apply State.updSide_kept | apply State.setResult_kept | apply live_kept | apply State.raise_kept | apply Kept.foldl | apply Kept.foldl_fst) | split | dsimp only | with_reducible apply Kept.ite

theorem State.sendScatter_kept {Q : List Instr} (s : State) (portB : Bool) (h0 : Kept Q s) :
    Kept Q (State.sendScatter s portB) := by
  unfold State.sendScatter
  try dsimp only
  repeat' first | intro _ | (with_reducible first | assumption | apply State.ringSend_kept | apply Kept.foldl | apply Kept.foldl_fst) | (with_reducible refine Kept.mk rfl rfl rfl rfl ?_; with_reducible first | assumption | apply State.ringSend_kept | apply Kept.foldl | apply Kept.foldl_fst) | split | dsimp only | with_reducible apply Kept.ite

theorem execGatherReturn_kept {Q : List Instr} (portB : Bool) (f : CycleFrame) (trip : Nat) (s : State) (h0 : Kept Q s) :
    KeptOut Q (execGatherReturn portB f trip s) := by
  unfold execGatherReturn
  try dsimp only
  repeat' first | intro _ | (with_reducible first | assumption | apply State.ringBad_kept | apply State.updSide_kept | apply State.wr_kept | apply State.engineStore_kept | apply live_kept | apply State.sendScatter_kept | apply Kept.foldl | apply Kept.foldl_fst | apply KeptOut.live | apply KeptOut.next) | (with_reducible refine Kept.mk rfl rfl rfl rfl ?_; with_reducible first | assumption | apply State.ringBad_kept | apply State.updSide_kept | apply State.wr_kept | apply State.engineStore_kept | apply live_kept | apply State.sendScatter_kept | apply Kept.foldl | apply Kept.foldl_fst) | split | dsimp only | with_reducible apply Kept.ite

theorem execScatterReturn_kept {Q : List Instr} (portB : Bool) (f : CycleFrame) (s : State) (h0 : Kept Q s) :
    KeptOut Q (execScatterReturn portB f s) := by
  unfold execScatterReturn
  try dsimp only
  repeat' first | intro _ | (with_reducible first | assumption | apply State.ringBad_kept | apply State.updSide_kept | apply State.applyScatter_kept | apply live_kept | apply State.setResult_kept | apply State.count_kept | apply State.raise_kept | apply Kept.foldl | apply Kept.foldl_fst | apply KeptOut.live | apply KeptOut.next) | (with_reducible refine Kept.mk rfl rfl rfl rfl ?_; with_reducible first | assumption | apply State.ringBad_kept | apply State.updSide_kept | apply State.applyScatter_kept | apply live_kept | apply State.setResult_kept | apply State.count_kept | apply State.raise_kept | apply Kept.foldl | apply Kept.foldl_fst) | split | dsimp only | with_reducible apply Kept.ite

theorem State.rnRel_kept {Q : List Instr} (t : State) (v : Nat) (h0 : Kept Q t) :
    Kept Q (State.rnRel t v) := by
  unfold State.rnRel
  try dsimp only
  repeat' first | intro _ | (with_reducible first | assumption | apply State.updSide_kept | apply Kept.foldl | apply Kept.foldl_fst) | (with_reducible refine Kept.mk rfl rfl rfl rfl ?_; with_reducible first | assumption | apply State.updSide_kept | apply Kept.foldl | apply Kept.foldl_fst) | split | dsimp only | with_reducible apply Kept.ite

theorem execRnrelWrite_kept {Q : List Instr} (r : Requester) (v : Word) (s : State) (h0 : Kept Q s) :
    KeptOut Q (execRnrelWrite r v s) := by
  unfold execRnrelWrite
  try dsimp only
  repeat' first | intro _ | (with_reducible first | assumption | apply live_kept | apply State.guardReg_kept | apply State.rnRel_kept | apply Kept.foldl | apply Kept.foldl_fst | apply KeptOut.live | apply KeptOut.next) | (with_reducible refine Kept.mk rfl rfl rfl rfl ?_; with_reducible first | assumption | apply live_kept | apply State.guardReg_kept | apply State.rnRel_kept | apply Kept.foldl | apply Kept.foldl_fst) | split | dsimp only | with_reducible apply Kept.ite

theorem State.askJoin_kept {Q : List Instr} (s : State) (h0 : Kept Q s) :
    Kept Q (State.askJoin s) := by
  unfold State.askJoin
  try dsimp only
  repeat' first | intro _ | (with_reducible first | assumption | apply State.setRn_kept | apply State.ringSend_kept | apply Kept.foldl | apply Kept.foldl_fst) | (with_reducible refine Kept.mk rfl rfl rfl rfl ?_; with_reducible first | assumption | apply State.setRn_kept | apply State.ringSend_kept | apply Kept.foldl | apply Kept.foldl_fst) | split | dsimp only | with_reducible apply Kept.ite

theorem State.joined_kept {Q : List Instr} (s : State) (root st : Nat) (h0 : Kept Q s) :
    Kept Q (State.joined s root st) := by
  unfold State.joined
  try dsimp only
  repeat' first | intro _ | (with_reducible first | assumption | apply State.setFlag_kept | apply State.wr_kept | apply State.setRn_kept | apply State.raise_kept | apply Kept.foldl | apply Kept.foldl_fst) | (with_reducible refine Kept.mk rfl rfl rfl rfl ?_; with_reducible first | assumption | apply State.setFlag_kept | apply State.wr_kept | apply State.setRn_kept | apply State.raise_kept | apply Kept.foldl | apply Kept.foldl_fst) | split | dsimp only | with_reducible apply Kept.ite

theorem State.showCycle_kept {Q : List Instr} (s : State) (f : CycleFrame) (h0 : Kept Q s) :
    Kept Q (State.showCycle s f) := by
  unfold State.showCycle
  try dsimp only
  repeat' first | intro _ | (with_reducible first | assumption | apply State.wr_kept | apply Kept.foldl | apply Kept.foldl_fst) | (with_reducible refine Kept.mk rfl rfl rfl rfl ?_; with_reducible first | assumption | apply State.wr_kept | apply Kept.foldl | apply Kept.foldl_fst) | split | dsimp only | with_reducible apply Kept.ite

theorem State.admitted_kept {Q : List Instr} (t : State) (f : CycleFrame) (admitted : Option (Fin 64 × Fin 64 × Bool)) (h0 : Kept Q t) :
    Kept Q (State.admitted t f admitted) := by
  unfold State.admitted
  try dsimp only
  repeat' first | intro _ | (with_reducible first | assumption | apply State.joined_kept | apply State.setFlag_kept | apply Kept.foldl | apply Kept.foldl_fst) | (with_reducible refine Kept.mk rfl rfl rfl rfl ?_; with_reducible first | assumption | apply State.joined_kept | apply State.setFlag_kept | apply Kept.foldl | apply Kept.foldl_fst) | split | dsimp only | with_reducible apply Kept.ite

theorem execGatherFrame_kept {Q : List Instr} (f : CycleFrame) (admitted : Option (Fin 64 × Fin 64 × Bool)) (s : State) (h0 : Kept Q s) :
    KeptOut Q (execGatherFrame f admitted s) := by
  unfold execGatherFrame
  try dsimp only
  repeat' first | intro _ | (with_reducible first | assumption | apply State.ringSend_kept | apply State.forward_kept | apply live_kept | apply State.ringBad_kept | apply State.ringViol_kept | apply State.showCycle_kept | apply State.admitted_kept | apply State.setRn_kept | apply State.raise_kept | apply State.askJoin_kept | apply Kept.foldl | apply Kept.foldl_fst | apply KeptOut.live | apply KeptOut.next) | (with_reducible refine Kept.mk rfl rfl rfl rfl ?_; with_reducible first | assumption | apply State.ringSend_kept | apply State.forward_kept | apply live_kept | apply State.ringBad_kept | apply State.ringViol_kept | apply State.showCycle_kept | apply State.admitted_kept | apply State.setRn_kept | apply State.raise_kept | apply State.askJoin_kept | apply Kept.foldl | apply Kept.foldl_fst) | split | dsimp only | with_reducible apply Kept.ite

theorem execScatterFrame_kept {Q : List Instr} (f : CycleFrame) (s : State) (h0 : Kept Q s) :
    KeptOut Q (execScatterFrame f s) := by
  unfold execScatterFrame
  try dsimp only
  repeat' first | intro _ | (with_reducible first | assumption | apply State.ringSend_kept | apply State.forward_kept | apply live_kept | apply State.ringBad_kept | apply State.showCycle_kept | apply State.setFlag_kept | apply State.applyScatter_kept | apply State.raise_kept | apply Kept.foldl | apply Kept.foldl_fst | apply KeptOut.live | apply KeptOut.next) | (with_reducible refine Kept.mk rfl rfl rfl rfl ?_; with_reducible first | assumption | apply State.ringSend_kept | apply State.forward_kept | apply live_kept | apply State.ringBad_kept | apply State.showCycle_kept | apply State.setFlag_kept | apply State.applyScatter_kept | apply State.raise_kept | apply Kept.foldl | apply Kept.foldl_fst) | split | dsimp only | with_reducible apply Kept.ite

theorem execRingLost_kept {Q : List Instr} (s : State) (h0 : Kept Q s) :
    KeptOut Q (execRingLost s) := by
  unfold execRingLost
  try dsimp only
  repeat' first | intro _ | (with_reducible first | assumption | apply live_kept | apply State.setRn_kept | apply State.raise_kept | apply Kept.foldl | apply Kept.foldl_fst | apply KeptOut.live | apply KeptOut.next) | (with_reducible refine Kept.mk rfl rfl rfl rfl ?_; with_reducible first | assumption | apply live_kept | apply State.setRn_kept | apply State.raise_kept | apply Kept.foldl | apply Kept.foldl_fst) | split | dsimp only | with_reducible apply Kept.ite

theorem execJoinRefused_kept {Q : List Instr} (result : Fin 4) (s : State) (h0 : Kept Q s) :
    KeptOut Q (execJoinRefused result s) := by
  unfold execJoinRefused
  try dsimp only
  repeat' first | intro _ | (with_reducible first | assumption | apply State.updSide_kept | apply State.setRn_kept | apply live_kept | apply State.wr_kept | apply State.raise_kept | apply Kept.foldl | apply Kept.foldl_fst | apply KeptOut.live | apply KeptOut.next) | (with_reducible refine Kept.mk rfl rfl rfl rfl ?_; with_reducible first | assumption | apply State.updSide_kept | apply State.setRn_kept | apply live_kept | apply State.wr_kept | apply State.raise_kept | apply Kept.foldl | apply Kept.foldl_fst) | split | dsimp only | with_reducible apply Kept.ite

theorem State.rejoin_kept {Q : List Instr} (s : State) (h0 : Kept Q s) :
    Kept Q (State.rejoin s) := by
  unfold State.rejoin
  try dsimp only
  repeat' first | intro _ | (with_reducible first | assumption | apply State.setRn_kept | apply State.bypass_kept | apply Kept.foldl | apply Kept.foldl_fst) | (with_reducible refine Kept.mk rfl rfl rfl rfl ?_; with_reducible first | assumption | apply State.setRn_kept | apply State.bypass_kept | apply Kept.foldl | apply Kept.foldl_fst) | split | dsimp only | with_reducible apply Kept.ite

theorem State.postMessage_kept {Q : List Instr} (s : State) (words : List Nat) (owner : Nat) (h0 : Kept Q s) :
    Kept Q (State.postMessage s words owner) := by
  unfold State.postMessage
  try dsimp only
  repeat' first | intro _ | (with_reducible first | assumption | apply Kept.foldl | apply Kept.foldl_fst) | (with_reducible refine Kept.mk rfl rfl rfl rfl ?_; with_reducible first | assumption | apply Kept.foldl | apply Kept.foldl_fst) | split | dsimp only | with_reducible apply Kept.ite

theorem State.endMessage_kept {Q : List Instr} (s : State) (m : RMsg) (code : Nat) (h0 : Kept Q s) :
    Kept Q (State.endMessage s m code) := by
  unfold State.endMessage
  try dsimp only
  repeat' first | intro _ | (with_reducible first | assumption | apply State.engineStore_kept | apply State.raise_kept | apply Kept.foldl | apply Kept.foldl_fst) | (with_reducible refine Kept.mk rfl rfl rfl rfl ?_; with_reducible first | assumption | apply State.engineStore_kept | apply State.raise_kept | apply Kept.foldl | apply Kept.foldl_fst) | split | dsimp only | with_reducible apply Kept.ite

theorem execRingMessageSend_kept {Q : List Instr} (s : State) (h0 : Kept Q s) :
    KeptOut Q (execRingMessageSend s) := by
  unfold execRingMessageSend
  try dsimp only
  repeat' first | intro _ | (with_reducible first | assumption | apply live_kept | apply State.endMessage_kept | apply State.ringSend_kept | apply Kept.foldl | apply Kept.foldl_fst | apply KeptOut.live | apply KeptOut.next) | (with_reducible refine Kept.mk rfl rfl rfl rfl ?_; with_reducible first | assumption | apply live_kept | apply State.endMessage_kept | apply State.ringSend_kept | apply Kept.foldl | apply Kept.foldl_fst) | split | dsimp only | with_reducible apply Kept.ite

theorem execRingMessageAck_kept {Q : List Instr} (seq : Nat) (code : Fin 3) (s : State) (h0 : Kept Q s) :
    KeptOut Q (execRingMessageAck seq code s) := by
  unfold execRingMessageAck
  try dsimp only
  repeat' first | intro _ | (with_reducible first | assumption | apply live_kept | apply State.endMessage_kept | apply Kept.foldl | apply Kept.foldl_fst | apply KeptOut.live | apply KeptOut.next) | (with_reducible refine Kept.mk rfl rfl rfl rfl ?_; with_reducible first | assumption | apply live_kept | apply State.endMessage_kept | apply Kept.foldl | apply Kept.foldl_fst) | split | dsimp only | with_reducible apply Kept.ite

theorem execRingMessageTimeout_kept {Q : List Instr} (s : State) (h0 : Kept Q s) :
    KeptOut Q (execRingMessageTimeout s) := by
  unfold execRingMessageTimeout
  try dsimp only
  repeat' first | intro _ | (with_reducible first | assumption | apply live_kept | apply State.endMessage_kept | apply State.ringSend_kept | apply Kept.foldl | apply Kept.foldl_fst | apply KeptOut.live | apply KeptOut.next) | (with_reducible refine Kept.mk rfl rfl rfl rfl ?_; with_reducible first | assumption | apply live_kept | apply State.endMessage_kept | apply State.ringSend_kept | apply Kept.foldl | apply Kept.foldl_fst) | split | dsimp only | with_reducible apply Kept.ite

theorem State.receiveMessage_kept {Q : List Instr} (s : State) (src seq tag : Nat) (data : List Byte) (h0 : Kept Q s) :
    Kept Q (State.receiveMessage s src seq tag data) := by
  unfold State.receiveMessage
  try dsimp only
  repeat' first | intro _ | (with_reducible first | assumption | apply State.ringSend_kept | apply State.engineStore_kept | apply State.wr_kept | apply State.raise_kept | apply Kept.foldl | apply Kept.foldl_fst) | (with_reducible refine Kept.mk rfl rfl rfl rfl ?_; with_reducible first | assumption | apply State.ringSend_kept | apply State.engineStore_kept | apply State.wr_kept | apply State.raise_kept | apply Kept.foldl | apply Kept.foldl_fst) | split | dsimp only | with_reducible apply Kept.ite

theorem State.acquireSync_kept {Q : List Instr} (s : State) (c e : Int) (h0 : Kept Q s) :
    Kept Q (State.acquireSync s c e) := by
  unfold State.acquireSync
  try dsimp only
  repeat' first | intro _ | (with_reducible first | assumption | apply State.setRate_kept | apply State.tmEnter_kept | apply State.stepTime_kept | apply Kept.foldl | apply Kept.foldl_fst) | (with_reducible refine Kept.mk rfl rfl rfl rfl ?_; with_reducible first | assumption | apply State.setRate_kept | apply State.tmEnter_kept | apply State.stepTime_kept | apply Kept.foldl | apply Kept.foldl_fst) | split | dsimp only | with_reducible apply Kept.ite

theorem State.trackSync_kept {Q : List Instr} (s : State) (c e : Int) (h0 : Kept Q s) :
    Kept Q (State.trackSync s c e) := by
  unfold State.trackSync
  try dsimp only
  repeat' first | intro _ | (with_reducible first | assumption | apply State.wr_kept | apply State.tmEnter_kept | apply State.tmUpdate_kept | apply State.incSat_kept | apply State.raise_kept | apply Kept.foldl | apply Kept.foldl_fst) | (with_reducible refine Kept.mk rfl rfl rfl rfl ?_; with_reducible first | assumption | apply State.wr_kept | apply State.tmEnter_kept | apply State.tmUpdate_kept | apply State.incSat_kept | apply State.raise_kept | apply Kept.foldl | apply Kept.foldl_fst) | split | dsimp only | with_reducible apply Kept.ite

theorem execRingSyncFrame_kept {Q : List Instr} (source : Nat) (corr : Int) (residence : Nat) (s : State) (h0 : Kept Q s) :
    KeptOut Q (execRingSyncFrame source corr residence s) := by
  unfold execRingSyncFrame
  try dsimp only
  repeat' first | intro _ | (with_reducible first | assumption | apply State.ringSend_kept | apply live_kept | apply State.tmEnter_kept | apply State.wr_kept | apply State.acquireSync_kept | apply State.trackSync_kept | apply Kept.foldl | apply Kept.foldl_fst | apply KeptOut.live | apply KeptOut.next) | (with_reducible refine Kept.mk rfl rfl rfl rfl ?_; with_reducible first | assumption | apply State.ringSend_kept | apply live_kept | apply State.tmEnter_kept | apply State.wr_kept | apply State.acquireSync_kept | apply State.trackSync_kept | apply Kept.foldl | apply Kept.foldl_fst) | split | dsimp only | with_reducible apply Kept.ite

theorem execDelayRequestSend_kept {Q : List Instr} (t1 : Nat) (s : State) (h0 : Kept Q s) :
    KeptOut Q (execDelayRequestSend t1 s) := by
  unfold execDelayRequestSend
  try dsimp only
  repeat' first | intro _ | (with_reducible first | assumption | apply live_kept | apply State.ringSend_kept | apply Kept.foldl | apply Kept.foldl_fst | apply KeptOut.live | apply KeptOut.next) | (with_reducible refine Kept.mk rfl rfl rfl rfl ?_; with_reducible first | assumption | apply live_kept | apply State.ringSend_kept | apply Kept.foldl | apply Kept.foldl_fst) | split | dsimp only | with_reducible apply Kept.ite

theorem execDelayRequestFrame_kept {Q : List Instr} (t2 t3 : Nat) (s : State) (h0 : Kept Q s) :
    KeptOut Q (execDelayRequestFrame t2 t3 s) := by
  unfold execDelayRequestFrame
  try dsimp only
  repeat' first | intro _ | (with_reducible first | assumption | apply live_kept | apply State.ringSend_kept | apply Kept.foldl | apply Kept.foldl_fst | apply KeptOut.live | apply KeptOut.next) | (with_reducible refine Kept.mk rfl rfl rfl rfl ?_; with_reducible first | assumption | apply live_kept | apply State.ringSend_kept | apply Kept.foldl | apply Kept.foldl_fst) | split | dsimp only | with_reducible apply Kept.ite

theorem execDelayReplyFrame_kept {Q : List Instr} (t4 turn : Nat) (s : State) (h0 : Kept Q s) :
    KeptOut Q (execDelayReplyFrame t4 turn s) := by
  unfold execDelayReplyFrame
  try dsimp only
  repeat' first | intro _ | (with_reducible first | assumption | apply live_kept | apply State.wr_kept | apply Kept.foldl | apply Kept.foldl_fst | apply KeptOut.live | apply KeptOut.next) | (with_reducible refine Kept.mk rfl rfl rfl rfl ?_; with_reducible first | assumption | apply live_kept | apply State.wr_kept | apply Kept.foldl | apply Kept.foldl_fst) | split | dsimp only | with_reducible apply Kept.ite

end Sys2Proof.Machine
end

