-- ==== Sys2Proof/Laws/KeptSession.lean ====
section
/-! SUPPORT. Soundness is kept by every operation and meaning of Machine/Session.lean. -/

namespace Sys2Proof.Machine

theorem State.mailSend_kept {Q : List Instr} (s : State) (kind : Nat) (bs : List Byte) (h0 : Kept Q s) :
    Kept Q (State.mailSend s kind bs) := by
  unfold State.mailSend
  try dsimp only
  repeat' first | intro _ | (with_reducible first | assumption | apply State.engineStore_kept | apply State.take_kept | apply Kept.foldl | apply Kept.foldl_fst) | (with_reducible refine Kept.mk rfl rfl rfl rfl ?_; with_reducible first | assumption | apply State.engineStore_kept | apply State.take_kept | apply Kept.foldl | apply Kept.foldl_fst) | split | dsimp only | with_reducible apply Kept.ite

theorem State.mailNote_kept {Q : List Instr} (s : State) (kind : Nat) (bs : List Byte) (h0 : Kept Q s) :
    Kept Q (State.mailNote s kind bs) := by
  unfold State.mailNote
  try dsimp only
  repeat' first | intro _ | (with_reducible first | assumption | apply State.crumb_kept | apply State.mailSend_kept | apply Kept.foldl | apply Kept.foldl_fst) | (with_reducible refine Kept.mk rfl rfl rfl rfl ?_; with_reducible first | assumption | apply State.crumb_kept | apply State.mailSend_kept | apply Kept.foldl | apply Kept.foldl_fst) | split | dsimp only | with_reducible apply Kept.ite

theorem State.beginSession_kept {Q : List Instr} (s : State) (t : Nat) (h0 : Kept Q s) :
    Kept Q (State.beginSession s t) := by
  unfold State.beginSession
  try dsimp only
  repeat' first | intro _ | (with_reducible first | assumption | apply State.postJournal_kept | apply State.count_kept | apply State.vendorEvent_kept | apply State.mailNote_kept | apply Kept.foldl | apply Kept.foldl_fst) | (with_reducible refine Kept.mk rfl rfl rfl rfl ?_; with_reducible first | assumption | apply State.postJournal_kept | apply State.count_kept | apply State.vendorEvent_kept | apply State.mailNote_kept | apply Kept.foldl | apply Kept.foldl_fst) | split | dsimp only | with_reducible apply Kept.ite

theorem State.finishSession_kept {Q : List Instr} (s : State) (t : Nat) (h0 : Kept Q s) :
    Kept Q (State.finishSession s t) := by
  unfold State.finishSession
  try dsimp only
  repeat' first | intro _ | (with_reducible first | assumption | apply State.postJournal_kept | apply State.startFlush_kept | apply State.vendorEvent_kept | apply State.mailNote_kept | apply Kept.foldl | apply Kept.foldl_fst) | (with_reducible refine Kept.mk rfl rfl rfl rfl ?_; with_reducible first | assumption | apply State.postJournal_kept | apply State.startFlush_kept | apply State.vendorEvent_kept | apply State.mailNote_kept | apply Kept.foldl | apply Kept.foldl_fst) | split | dsimp only | with_reducible apply Kept.ite

theorem State.changeSession_kept {Q : List Instr} (s : State) (isEnd : Bool) (t : Nat) (slot : Option Nat) (h0 : Kept Q s) :
    Kept Q (State.changeSession s isEnd t slot).1 := by
  unfold State.changeSession
  try dsimp only
  repeat' first | intro _ | (with_reducible first | assumption | apply State.needMedium_kept | apply State.tellGroup_kept | apply State.tellPeer_kept | apply State.awaitOthers_kept | apply State.finishSession_kept | apply State.beginSession_kept | apply Kept.foldl | apply Kept.foldl_fst) | (with_reducible refine Kept.mk rfl rfl rfl rfl ?_; with_reducible first | assumption | apply State.needMedium_kept | apply State.tellGroup_kept | apply State.tellPeer_kept | apply State.awaitOthers_kept | apply State.finishSession_kept | apply State.beginSession_kept | apply Kept.foldl | apply Kept.foldl_fst) | split | dsimp only | with_reducible apply Kept.ite

theorem State.trigRefused_kept {Q : List Instr} (s : State) (n t : Nat) (x : Stat) (h0 : Kept Q s) :
    Kept Q (State.trigRefused s n t x) := by
  unfold State.trigRefused
  try dsimp only
  repeat' first | intro _ | (with_reducible first | assumption | apply State.crumb_kept | apply Kept.foldl | apply Kept.foldl_fst) | (with_reducible refine Kept.mk rfl rfl rfl rfl ?_; with_reducible first | assumption | apply State.crumb_kept | apply Kept.foldl | apply Kept.foldl_fst) | split | dsimp only | with_reducible apply Kept.ite

theorem execTriggerTake_kept {Q : List Instr} (n : Fin 4) (s : State) (h0 : Kept Q s) :
    KeptOut Q (execTriggerTake n s) := by
  unfold execTriggerTake
  try dsimp only
  repeat' first | intro _ | (with_reducible first | assumption | apply State.setFlag_kept | apply live_kept | apply State.mailNote_kept | apply State.changeSession_kept | apply State.trigRefused_kept | apply Kept.foldl | apply Kept.foldl_fst | apply KeptOut.live | apply KeptOut.next) | (with_reducible refine Kept.mk rfl rfl rfl rfl ?_; with_reducible first | assumption | apply State.setFlag_kept | apply live_kept | apply State.mailNote_kept | apply State.changeSession_kept | apply State.trigRefused_kept | apply Kept.foldl | apply Kept.foldl_fst) | split | dsimp only | with_reducible apply Kept.ite

theorem execTimedSessionEnd_kept {Q : List Instr} (s : State) (h0 : Kept Q s) :
    KeptOut Q (execTimedSessionEnd s) := by
  unfold execTimedSessionEnd
  try dsimp only
  repeat' first | intro _ | (with_reducible first | assumption | apply live_kept | apply State.changeSession_kept | apply State.paramsDue_kept | apply Kept.foldl | apply Kept.foldl_fst | apply KeptOut.live | apply KeptOut.next) | (with_reducible refine Kept.mk rfl rfl rfl rfl ?_; with_reducible first | assumption | apply live_kept | apply State.changeSession_kept | apply State.paramsDue_kept | apply Kept.foldl | apply Kept.foldl_fst) | split | dsimp only | with_reducible apply Kept.ite

theorem execAutoFlush_kept {Q : List Instr} (s : State) (h0 : Kept Q s) :
    KeptOut Q (execAutoFlush s) := by
  unfold execAutoFlush
  try dsimp only
  repeat' first | intro _ | (with_reducible first | assumption | apply live_kept | apply State.startFlush_kept | apply Kept.foldl | apply Kept.foldl_fst | apply KeptOut.live | apply KeptOut.next) | (with_reducible refine Kept.mk rfl rfl rfl rfl ?_; with_reducible first | assumption | apply live_kept | apply State.startFlush_kept | apply Kept.foldl | apply Kept.foldl_fst) | split | dsimp only | with_reducible apply Kept.ite

theorem State.setParams_kept {Q : List Instr} (s : State) (bs : List Nat) (h0 : Kept Q s) :
    Kept Q (State.setParams s bs).1 := by
  unfold State.setParams
  try dsimp only
  repeat' first | intro _ | (with_reducible first | assumption | apply State.useParams_kept | apply State.recRequest_kept | apply Kept.foldl | apply Kept.foldl_fst) | (with_reducible refine Kept.mk rfl rfl rfl rfl ?_; with_reducible first | assumption | apply State.useParams_kept | apply State.recRequest_kept | apply Kept.foldl | apply Kept.foldl_fst) | split | dsimp only | with_reducible apply Kept.ite

theorem State.setTimecode_kept {Q : List Instr} (s : State) (base epoch : Nat) (h0 : Kept Q s) :
    Kept Q (State.setTimecode s base epoch) := by
  unfold State.setTimecode
  try dsimp only
  repeat' first | intro _ | (with_reducible first | assumption | apply State.wr_kept | apply Kept.foldl | apply Kept.foldl_fst) | (with_reducible refine Kept.mk rfl rfl rfl rfl ?_; with_reducible first | assumption | apply State.wr_kept | apply Kept.foldl | apply Kept.foldl_fst) | split | dsimp only | with_reducible apply Kept.ite

theorem State.timecodeSet_kept {Q : List Instr} (s : State) (bs : List Byte) (slot : Nat) (h0 : Kept Q s) :
    Kept Q (State.timecodeSet s bs slot).1 := by
  unfold State.timecodeSet
  try dsimp only
  repeat' first | intro _ | (with_reducible first | assumption | apply State.take_kept | apply State.tellGroup_kept | apply State.tellPeer_kept | apply State.awaitOthers_kept | apply State.setTimecode_kept | apply Kept.foldl | apply Kept.foldl_fst) | (with_reducible refine Kept.mk rfl rfl rfl rfl ?_; with_reducible first | assumption | apply State.take_kept | apply State.tellGroup_kept | apply State.tellPeer_kept | apply State.awaitOthers_kept | apply State.setTimecode_kept | apply Kept.foldl | apply Kept.foldl_fst) | split | dsimp only | with_reducible apply Kept.ite

theorem State.beginBake_kept {Q : List Instr} (s : State) (h0 : Kept Q s) :
    Kept Q (State.beginBake s) := by
  unfold State.beginBake
  try dsimp only
  repeat' first | intro _ | (with_reducible first | assumption | apply State.closeAll_kept | apply Kept.foldl | apply Kept.foldl_fst) | (with_reducible refine Kept.mk rfl rfl rfl rfl ?_; with_reducible first | assumption | apply State.closeAll_kept | apply Kept.foldl | apply Kept.foldl_fst) | split | dsimp only | with_reducible apply Kept.ite

theorem State.bakeCommand_kept {Q : List Instr} (s : State) (slot : Nat) (h0 : Kept Q s) :
    Kept Q (State.bakeCommand s slot) := by
  unfold State.bakeCommand
  try dsimp only
  repeat' first | intro _ | (with_reducible first | assumption | apply State.finish_kept | apply State.needMedium_kept | apply State.tellGroup_kept | apply State.tellPeer_kept | apply State.awaitOthers_kept | apply State.addOp_kept | apply State.beginBake_kept | apply Kept.foldl | apply Kept.foldl_fst) | (with_reducible refine Kept.mk rfl rfl rfl rfl ?_; with_reducible first | assumption | apply State.finish_kept | apply State.needMedium_kept | apply State.tellGroup_kept | apply State.tellPeer_kept | apply State.awaitOthers_kept | apply State.addOp_kept | apply State.beginBake_kept | apply Kept.foldl | apply Kept.foldl_fst) | split | dsimp only | with_reducible apply Kept.ite

theorem State.sessionCommand_kept {Q : List Instr} (s : State) (slot : Nat) (isEnd : Bool) (h0 : Kept Q s) :
    Kept Q (State.sessionCommand s slot isEnd) := by
  unfold State.sessionCommand
  try dsimp only
  repeat' first | intro _ | (with_reducible first | assumption | apply State.changeSession_kept | apply State.finish_kept | apply State.take_kept | apply Kept.foldl | apply Kept.foldl_fst) | (with_reducible refine Kept.mk rfl rfl rfl rfl ?_; with_reducible first | assumption | apply State.changeSession_kept | apply State.finish_kept | apply State.take_kept | apply Kept.foldl | apply Kept.foldl_fst) | split | dsimp only | with_reducible apply Kept.ite

theorem State.forgetMedia_kept {Q : List Instr} (s : State) (h0 : Kept Q s) :
    Kept Q (State.forgetMedia s) := by
  unfold State.forgetMedia
  try dsimp only
  repeat' first | intro _ | (with_reducible first | assumption | apply State.setFlag_kept | apply Kept.foldl | apply Kept.foldl_fst) | (with_reducible refine Kept.mk rfl rfl rfl rfl ?_; with_reducible first | assumption | apply State.setFlag_kept | apply Kept.foldl | apply Kept.foldl_fst) | split | dsimp only | with_reducible apply Kept.ite

theorem State.ejectNow_kept {Q : List Instr} (s : State) (h0 : Kept Q s) :
    Kept Q (State.ejectNow s) := by
  unfold State.ejectNow
  try dsimp only
  repeat' first | intro _ | (with_reducible first | assumption | apply State.release_kept | apply State.spCommand_kept | apply State.forgetMedia_kept | apply State.vendorEvent_kept | apply State.attention_kept | apply State.endOp_kept | apply Kept.foldl | apply Kept.foldl_fst) | (with_reducible refine Kept.mk rfl rfl rfl rfl ?_; with_reducible first | assumption | apply State.release_kept | apply State.spCommand_kept | apply State.forgetMedia_kept | apply State.vendorEvent_kept | apply State.attention_kept | apply State.endOp_kept | apply Kept.foldl | apply Kept.foldl_fst) | split | dsimp only | with_reducible apply Kept.ite

theorem State.ejectCommand_kept {Q : List Instr} (s : State) (slot : Nat) (h0 : Kept Q s) :
    Kept Q (State.ejectCommand s slot) := by
  unfold State.ejectCommand
  try dsimp only
  repeat' first | intro _ | (with_reducible first | assumption | apply State.finish_kept | apply State.addOp_kept | apply State.closeAll_kept | apply Kept.foldl | apply Kept.foldl_fst) | (with_reducible refine Kept.mk rfl rfl rfl rfl ?_; with_reducible first | assumption | apply State.finish_kept | apply State.addOp_kept | apply State.closeAll_kept | apply Kept.foldl | apply Kept.foldl_fst) | split | dsimp only | with_reducible apply Kept.ite

theorem State.loadCommand_kept {Q : List Instr} (s : State) (slot : Nat) (ins : Option Cartridge) (h0 : Kept Q s) :
    Kept Q (State.loadCommand s slot ins) := by
  unfold State.loadCommand
  try dsimp only
  repeat' first | intro _ | (with_reducible first | assumption | apply State.finish_kept | apply State.addOp_kept | apply State.load_kept | apply State.needMedium_kept | apply State.spCommand_kept | apply Kept.foldl | apply Kept.foldl_fst) | (with_reducible refine Kept.mk rfl rfl rfl rfl ?_; with_reducible first | assumption | apply State.finish_kept | apply State.addOp_kept | apply State.load_kept | apply State.needMedium_kept | apply State.spCommand_kept | apply Kept.foldl | apply Kept.foldl_fst) | split | dsimp only | with_reducible apply Kept.ite

theorem State.endTest_kept {Q : List Instr} (s : State) (code failed : Nat) (h0 : Kept Q s) :
    Kept Q (State.endTest s code failed) := by
  unfold State.endTest
  try dsimp only
  repeat' first | intro _ | (with_reducible first | assumption | apply State.take_kept | apply Kept.foldl | apply Kept.foldl_fst) | (with_reducible refine Kept.mk rfl rfl rfl rfl ?_; with_reducible first | assumption | apply State.take_kept | apply Kept.foldl | apply Kept.foldl_fst) | split | dsimp only | with_reducible apply Kept.ite

theorem State.abortTest_kept {Q : List Instr} (s : State) (result : Nat) (h0 : Kept Q s) :
    Kept Q (State.abortTest s result) := by
  unfold State.abortTest
  try dsimp only
  repeat' first | intro _ | (with_reducible first | assumption | apply State.take_kept | apply Kept.foldl | apply Kept.foldl_fst) | (with_reducible refine Kept.mk rfl rfl rfl rfl ?_; with_reducible first | assumption | apply State.take_kept | apply Kept.foldl | apply Kept.foldl_fst) | split | dsimp only | with_reducible apply Kept.ite

theorem State.testCommand_kept {Q : List Instr} (s : State) (slot code failed : Nat) (h0 : Kept Q s) :
    Kept Q (State.testCommand s slot code failed) := by
  unfold State.testCommand
  try dsimp only
  repeat' first | intro _ | (with_reducible first | assumption | apply State.abortTest_kept | apply State.finish_kept | apply State.endTest_kept | apply Kept.foldl | apply Kept.foldl_fst) | (with_reducible refine Kept.mk rfl rfl rfl rfl ?_; with_reducible first | assumption | apply State.abortTest_kept | apply State.finish_kept | apply State.endTest_kept | apply Kept.foldl | apply Kept.foldl_fst) | split | dsimp only | with_reducible apply Kept.ite

theorem execDrainComplete_kept {Q : List Instr} (failed : Nat) (s : State) (h0 : Kept Q s) :
    KeptOut Q (execDrainComplete failed s) := by
  unfold execDrainComplete
  try dsimp only
  repeat' first | intro _ | (with_reducible first | assumption | apply live_kept | apply State.changePs_kept | apply State.enterIdle_kept | apply State.endTest_kept | apply State.startCkpt_kept | apply State.ejectNow_kept | apply State.recRequest_kept | apply Kept.foldl | apply Kept.foldl_fst | apply KeptOut.live | apply KeptOut.next) | (with_reducible refine Kept.mk rfl rfl rfl rfl ?_; with_reducible first | assumption | apply live_kept | apply State.changePs_kept | apply State.enterIdle_kept | apply State.endTest_kept | apply State.startCkpt_kept | apply State.ejectNow_kept | apply State.recRequest_kept | apply Kept.foldl | apply Kept.foldl_fst) | split | dsimp only | with_reducible apply Kept.ite

theorem State.beginActivation_kept {Q : List Instr} (s : State) (h0 : Kept Q s) :
    Kept Q (State.beginActivation s) := by
  unfold State.beginActivation
  try dsimp only
  repeat' first | intro _ | (with_reducible first | assumption | apply State.closeAll_kept | apply Kept.foldl | apply Kept.foldl_fst) | (with_reducible refine Kept.mk rfl rfl rfl rfl ?_; with_reducible first | assumption | apply State.closeAll_kept | apply Kept.foldl | apply Kept.foldl_fst) | split | dsimp only | with_reducible apply Kept.ite

theorem execRoiFrameReady_kept {Q : List Instr} (s : State) (h0 : Kept Q s) :
    KeptOut Q (execRoiFrameReady s) := by
  unfold execRoiFrameReady
  try dsimp only
  repeat' first | intro _ | (with_reducible first | assumption | apply live_kept | apply State.endOp_kept | apply State.countRead_kept | apply State.setOp_kept | apply State.postLbas_kept | apply Kept.foldl | apply Kept.foldl_fst | apply KeptOut.live | apply KeptOut.next) | (with_reducible refine Kept.mk rfl rfl rfl rfl ?_; with_reducible first | assumption | apply live_kept | apply State.endOp_kept | apply State.countRead_kept | apply State.setOp_kept | apply State.postLbas_kept | apply Kept.foldl | apply Kept.foldl_fst) | split | dsimp only | with_reducible apply Kept.ite

theorem State.forward_kept {Q : List Instr} (s : State) (slot : Nat) (c : HCmd) (h0 : Kept Q s) :
    Kept Q (State.forward s slot c) := by
  unfold State.forward
  try dsimp only
  repeat' first | intro _ | (with_reducible first | assumption | apply State.finish_kept | apply State.addOp_kept | apply State.mailSend_kept | apply State.take_kept | apply Kept.foldl | apply Kept.foldl_fst) | (with_reducible refine Kept.mk rfl rfl rfl rfl ?_; with_reducible first | assumption | apply State.finish_kept | apply State.addOp_kept | apply State.mailSend_kept | apply State.take_kept | apply Kept.foldl | apply Kept.foldl_fst) | split | dsimp only | with_reducible apply Kept.ite

theorem State.replyForward_kept {Q : List Instr} (s : State) (tag : Nat) (words : List Nat) (h0 : Kept Q s) :
    Kept Q (State.replyForward s tag words) := by
  unfold State.replyForward
  try dsimp only
  repeat' first | intro _ | (with_reducible first | assumption | apply State.dropOp_kept | apply State.giveRec_kept | apply Kept.foldl | apply Kept.foldl_fst) | (with_reducible refine Kept.mk rfl rfl rfl rfl ?_; with_reducible first | assumption | apply State.dropOp_kept | apply State.giveRec_kept | apply Kept.foldl | apply Kept.foldl_fst) | split | dsimp only | with_reducible apply Kept.ite

theorem execExtensionReply_kept {Q : List Instr} (s : State) (h0 : Kept Q s) :
    KeptOut Q (execExtensionReply s) := by
  unfold execExtensionReply
  try dsimp only
  repeat' first | intro _ | (with_reducible first | assumption | apply State.engineStore_kept | apply live_kept | apply State.replyForward_kept | apply State.changeSession_kept | apply Kept.foldl | apply Kept.foldl_fst | apply KeptOut.live | apply KeptOut.next) | (with_reducible refine Kept.mk rfl rfl rfl rfl ?_; with_reducible first | assumption | apply State.engineStore_kept | apply live_kept | apply State.replyForward_kept | apply State.changeSession_kept | apply Kept.foldl | apply Kept.foldl_fst) | split | dsimp only | with_reducible apply Kept.ite

theorem execForwardTimeout_kept {Q : List Instr} (tag : Nat) (s : State) (h0 : Kept Q s) :
    KeptOut Q (execForwardTimeout tag s) := by
  unfold execForwardTimeout
  try dsimp only
  repeat' first | intro _ | (with_reducible first | assumption | apply live_kept | apply State.endOp_kept | apply Kept.foldl | apply Kept.foldl_fst | apply KeptOut.live | apply KeptOut.next) | (with_reducible refine Kept.mk rfl rfl rfl rfl ?_; with_reducible first | assumption | apply live_kept | apply State.endOp_kept | apply Kept.foldl | apply Kept.foldl_fst) | split | dsimp only | with_reducible apply Kept.ite

end Sys2Proof.Machine
end

