-- ==== Sys2Proof/Laws/KeptZones.lean ====
section
/-! SUPPORT. Soundness is kept by every operation and meaning of Machine/Zones.lean. -/

namespace Sys2Proof.Machine

theorem State.dropUa_kept {Q : List Instr} (s : State) (c : HCmd) (h0 : Kept Q s) :
    Kept Q (State.dropUa s c) := by
  unfold State.dropUa
  try dsimp only
  repeat' first | intro _ | (with_reducible first | assumption | apply Kept.foldl | apply Kept.foldl_fst) | (with_reducible refine Kept.mk rfl rfl rfl rfl ?_; with_reducible first | assumption | apply Kept.foldl | apply Kept.foldl_fst) | split | dsimp only [id_eq] | with_reducible apply Kept.ite

theorem State.dropData_kept {Q : List Instr} (s : State) (c : HCmd) (h0 : Kept Q s) :
    Kept Q (State.dropData s c) := by
  unfold State.dropData
  try dsimp only
  repeat' first | intro _ | (with_reducible first | assumption | apply State.releaseUnit_kept | apply Kept.foldl | apply Kept.foldl_fst) | (with_reducible refine Kept.mk rfl rfl rfl rfl ?_; with_reducible first | assumption | apply State.releaseUnit_kept | apply Kept.foldl | apply Kept.foldl_fst) | split | dsimp only [id_eq] | with_reducible apply Kept.ite

theorem State.dropSlot_kept {Q : List Instr} (s : State) (slot : Nat) (h0 : Kept Q s) :
    Kept Q (State.dropSlot s slot) := by
  unfold State.dropSlot
  try dsimp only
  repeat' first | intro _ | (with_reducible first | assumption | apply State.dropData_kept | apply State.setCmd_kept | apply Kept.foldl | apply Kept.foldl_fst) | (with_reducible refine Kept.mk rfl rfl rfl rfl ?_; with_reducible first | assumption | apply State.dropData_kept | apply State.setCmd_kept | apply Kept.foldl | apply Kept.foldl_fst) | split | dsimp only [id_eq] | with_reducible apply Kept.ite

theorem State.refuseCmd_kept {Q : List Instr} (s : State) (slot : Nat) (x : Stat) (info : Option Nat) (h0 : Kept Q s) :
    Kept Q (State.refuseCmd s slot x info) := by
  unfold State.refuseCmd
  try dsimp only
  repeat' first | intro _ | (with_reducible first | assumption | apply State.dropSlot_kept | apply State.finish_kept | apply Kept.foldl | apply Kept.foldl_fst) | (with_reducible refine Kept.mk rfl rfl rfl rfl ?_; with_reducible first | assumption | apply State.dropSlot_kept | apply State.finish_kept | apply Kept.foldl | apply Kept.foldl_fst) | split | dsimp only [id_eq] | with_reducible apply Kept.ite

theorem State.takeCmd_kept {Q : List Instr} (s : State) (q : Nat) (mine least ready : HCmd → Bool) (f : State → Nat → HCmd → State) (h0 : Kept Q s) (h1 : ∀ a0 a1 a2, Kept Q a0 → Kept Q (f a0 a1 a2)) :
    KeptOut Q (State.takeCmd s q mine least ready f) := by
  unfold State.takeCmd
  try dsimp only
  repeat' first | intro _ | (with_reducible first | assumption | apply h1 | apply State.setWaiting_kept | apply State.setCmd_kept | apply live_kept | apply State.refuseCmd_kept | apply State.dropUa_kept | apply Kept.foldl | apply Kept.foldl_fst | apply KeptOut.live | apply KeptOut.next) | (with_reducible refine Kept.mk rfl rfl rfl rfl ?_; with_reducible first | assumption | apply h1 | apply State.setWaiting_kept | apply State.setCmd_kept | apply live_kept | apply State.refuseCmd_kept | apply State.dropUa_kept | apply Kept.foldl | apply Kept.foldl_fst) | split | dsimp only [id_eq] | with_reducible apply Kept.ite

theorem State.nsChanged_kept {Q : List Instr} (s : State) (h0 : Kept Q s) :
    Kept Q (State.nsChanged s) := by
  unfold State.nsChanged
  try dsimp only
  repeat' first | intro _ | (with_reducible first | assumption | apply State.attention_kept | apply State.asyncEvent_kept | apply Kept.foldl | apply Kept.foldl_fst) | (with_reducible refine Kept.mk rfl rfl rfl rfl ?_; with_reducible first | assumption | apply State.attention_kept | apply State.asyncEvent_kept | apply Kept.foldl | apply Kept.foldl_fst) | split | dsimp only [id_eq] | with_reducible apply Kept.ite

theorem State.saveAttachments_kept {Q : List Instr} (s : State) (h0 : Kept Q s) :
    Kept Q (State.saveAttachments s) := by
  unfold State.saveAttachments
  try dsimp only
  repeat' first | intro _ | (with_reducible first | assumption | apply State.recRequest_kept | apply Kept.foldl | apply Kept.foldl_fst) | (with_reducible refine Kept.mk rfl rfl rfl rfl ?_; with_reducible first | assumption | apply State.recRequest_kept | apply Kept.foldl | apply Kept.foldl_fst) | split | dsimp only [id_eq] | with_reducible apply Kept.ite

theorem State.dropSetups_kept {Q : List Instr} (s : State) (p : Nat → Nat → Nat → Bool) (h0 : Kept Q s) :
    Kept Q (State.dropSetups s p) := by
  unfold State.dropSetups
  try dsimp only
  repeat' first | intro _ | (with_reducible first | assumption | apply Kept.foldl | apply Kept.foldl_fst) | (with_reducible refine Kept.mk rfl rfl rfl rfl ?_; with_reducible first | assumption | apply Kept.foldl | apply Kept.foldl_fst) | split | dsimp only [id_eq] | with_reducible apply Kept.ite

theorem State.addNamespace_kept {Q : List Instr} (s : State) (i n : Nat) (h0 : Kept Q s) :
    Kept Q (State.addNamespace s i n) := by
  unfold State.addNamespace
  try dsimp only
  repeat' first | intro _ | (with_reducible first | assumption | apply State.setPool_kept | apply State.setZone_kept | apply Kept.foldl | apply Kept.foldl_fst) | (with_reducible refine Kept.mk rfl rfl rfl rfl ?_; with_reducible first | assumption | apply State.setPool_kept | apply State.setZone_kept | apply Kept.foldl | apply Kept.foldl_fst) | split | dsimp only [id_eq] | with_reducible apply Kept.ite

theorem State.createCommand_kept {Q : List Instr} (s : State) (slot n : Nat) (h0 : Kept Q s) :
    Kept Q (State.createCommand s slot n) := by
  unfold State.createCommand
  try dsimp only
  repeat' first | intro _ | (with_reducible first | assumption | apply State.needMedium_kept | apply State.addOp_kept | apply State.addNamespace_kept | apply State.tellPeer_kept | apply State.nsChanged_kept | apply State.startCkpt_kept | apply State.finish_kept | apply Kept.foldl | apply Kept.foldl_fst) | (with_reducible refine Kept.mk rfl rfl rfl rfl ?_; with_reducible first | assumption | apply State.needMedium_kept | apply State.addOp_kept | apply State.addNamespace_kept | apply State.tellPeer_kept | apply State.nsChanged_kept | apply State.startCkpt_kept | apply State.finish_kept | apply Kept.foldl | apply Kept.foldl_fst) | split | dsimp only [id_eq] | with_reducible apply Kept.ite

theorem State.deleteNamespace_kept {Q : List Instr} (s : State) (i : Nat) (h0 : Kept Q s) :
    Kept Q (State.deleteNamespace s i) := by
  unfold State.deleteNamespace
  try dsimp only
  repeat' first | intro _ | (with_reducible first | assumption | apply State.setPool_kept | apply live_kept | apply State.closeEntry_kept | apply State.dropSetups_kept | apply Kept.foldl | apply Kept.foldl_fst) | (with_reducible refine Kept.mk rfl rfl rfl rfl ?_; with_reducible first | assumption | apply State.setPool_kept | apply live_kept | apply State.closeEntry_kept | apply State.dropSetups_kept | apply Kept.foldl | apply Kept.foldl_fst) | split | dsimp only [id_eq] | with_reducible apply Kept.ite

theorem State.deleteCommand_kept {Q : List Instr} (s : State) (slot i : Nat) (h0 : Kept Q s) :
    Kept Q (State.deleteCommand s slot i) := by
  unfold State.deleteCommand
  try dsimp only
  repeat' first | intro _ | (with_reducible first | assumption | apply State.finish_kept | apply live_kept | apply State.needMedium_kept | apply State.addOp_kept | apply State.deleteNamespace_kept | apply State.tellPeer_kept | apply State.saveAttachments_kept | apply State.nsChanged_kept | apply State.startCkpt_kept | apply Kept.foldl | apply Kept.foldl_fst) | (with_reducible refine Kept.mk rfl rfl rfl rfl ?_; with_reducible first | assumption | apply State.finish_kept | apply live_kept | apply State.needMedium_kept | apply State.addOp_kept | apply State.deleteNamespace_kept | apply State.tellPeer_kept | apply State.saveAttachments_kept | apply State.nsChanged_kept | apply State.startCkpt_kept | apply Kept.foldl | apply Kept.foldl_fst) | split | dsimp only [id_eq] | with_reducible apply Kept.ite

theorem State.attachCommand_kept {Q : List Instr} (s : State) (slot q i : Nat) (ro : Bool) (h0 : Kept Q s) :
    Kept Q (State.attachCommand s slot q i ro) := by
  unfold State.attachCommand
  try dsimp only
  repeat' first | intro _ | (with_reducible first | assumption | apply State.finish_kept | apply live_kept | apply State.setPool_kept | apply State.saveAttachments_kept | apply State.nsChanged_kept | apply Kept.foldl | apply Kept.foldl_fst) | (with_reducible refine Kept.mk rfl rfl rfl rfl ?_; with_reducible first | assumption | apply State.finish_kept | apply live_kept | apply State.setPool_kept | apply State.saveAttachments_kept | apply State.nsChanged_kept | apply Kept.foldl | apply Kept.foldl_fst) | split | dsimp only [id_eq] | with_reducible apply Kept.ite

theorem State.detachCommand_kept {Q : List Instr} (s : State) (slot q i : Nat) (h0 : Kept Q s) :
    Kept Q (State.detachCommand s slot q i) := by
  unfold State.detachCommand
  try dsimp only
  repeat' first | intro _ | (with_reducible first | assumption | apply State.finish_kept | apply State.setPool_kept | apply State.dropSetups_kept | apply State.saveAttachments_kept | apply State.nsChanged_kept | apply Kept.foldl | apply Kept.foldl_fst) | (with_reducible refine Kept.mk rfl rfl rfl rfl ?_; with_reducible first | assumption | apply State.finish_kept | apply State.setPool_kept | apply State.dropSetups_kept | apply State.saveAttachments_kept | apply State.nsChanged_kept | apply Kept.foldl | apply Kept.foldl_fst) | split | dsimp only [id_eq] | with_reducible apply Kept.ite

theorem State.withEntry_kept {Q : List Instr} {t : State} {n : Nat} (s : State) (i j : Nat) (e : State.withEntry s i j = some (t, n))
    (h0 : Kept Q s) : Kept Q t := by
  unfold State.withEntry at e
  dsimp only at e
  split at e
  · obtain ⟨m, _, hn⟩ := Option.map_eq_some_iff.mp e
    cases hn
    exact State.setZent_kept _ _ _ h0
  · cases e
    exact h0

theorem State.openZone_kept {Q : List Instr} (s : State) (i j : Nat) (h0 : Kept Q s) :
    Kept Q (State.openZone s i j).1 := by
  unfold State.openZone
  try dsimp only
  repeat' first | intro _ | (with_reducible first | assumption | apply State.withEntry_kept (e := by assumption) | apply State.setZone_kept | apply Kept.foldl | apply Kept.foldl_fst) | (with_reducible refine Kept.mk rfl rfl rfl rfl ?_; with_reducible first | assumption | apply State.withEntry_kept (e := by assumption) | apply State.setZone_kept | apply Kept.foldl | apply Kept.foldl_fst) | split | dsimp only [id_eq] | with_reducible apply Kept.ite

theorem State.closeZone_kept {Q : List Instr} (s : State) (i j : Nat) (sas : Bool) (h0 : Kept Q s) :
    Kept Q (State.closeZone s i j sas).1 := by
  unfold State.closeZone
  try dsimp only
  repeat' first | intro _ | (with_reducible first | assumption | apply State.setZone_kept | apply Kept.foldl | apply Kept.foldl_fst) | (with_reducible refine Kept.mk rfl rfl rfl rfl ?_; with_reducible first | assumption | apply State.setZone_kept | apply Kept.foldl | apply Kept.foldl_fst) | split | dsimp only [id_eq] | with_reducible apply Kept.ite

theorem State.finishZone_kept {Q : List Instr} (s : State) (i j : Nat) (h0 : Kept Q s) :
    Kept Q (State.finishZone s i j).1 := by
  unfold State.finishZone
  try dsimp only
  repeat' first | intro _ | (with_reducible first | assumption | apply State.closeEntry_kept | apply State.zoneReadOnly_kept | apply Kept.foldl | apply Kept.foldl_fst) | (with_reducible refine Kept.mk rfl rfl rfl rfl ?_; with_reducible first | assumption | apply State.closeEntry_kept | apply State.zoneReadOnly_kept | apply Kept.foldl | apply Kept.foldl_fst) | split | dsimp only [id_eq] | with_reducible apply Kept.ite

theorem State.eachZone_kept {Q : List Instr} (s : State) (i : Nat) (p : ZoneSt → Bool) (f : State → Nat → State × Stat) (h0 : Kept Q s) (h1 : ∀ a0 a1, Kept Q a0 → Kept Q (f a0 a1).1) :
    Kept Q (State.eachZone s i p f).1 := by
  unfold State.eachZone
  try dsimp only
  repeat' first | intro _ | (with_reducible first | assumption | apply h1 | apply Kept.foldl | apply Kept.foldl_fst) | (with_reducible refine Kept.mk rfl rfl rfl rfl ?_; with_reducible first | assumption | apply h1 | apply Kept.foldl | apply Kept.foldl_fst) | split | dsimp only [id_eq] | with_reducible apply Kept.ite

theorem State.zoneCommand_kept {Q : List Instr} (s : State) (slot q i : Nat) (a : ZAction) (all : Bool) (lba : Nat) (h0 : Kept Q s) :
    Kept Q (State.zoneCommand s slot q i a all lba) := by
  unfold State.zoneCommand
  try dsimp only
  repeat' first | intro _ | (with_reducible first | assumption | apply State.finish_kept | apply State.openZone_kept | apply State.eachZone_kept | apply State.closeZone_kept | apply State.finishZone_kept | apply Kept.foldl | apply Kept.foldl_fst) | (with_reducible refine Kept.mk rfl rfl rfl rfl ?_; with_reducible first | assumption | apply State.finish_kept | apply State.openZone_kept | apply State.eachZone_kept | apply State.closeZone_kept | apply State.finishZone_kept | apply Kept.foldl | apply Kept.foldl_fst) | split | dsimp only [id_eq] | with_reducible apply Kept.ite

theorem State.placeWrite_kept {Q : List Instr} (s : State) (slot dbuf i lba n : Nat) (append fua : Bool) (h0 : Kept Q s) :
    Kept Q (State.placeWrite s slot dbuf i lba n append fua) := by
  unfold State.placeWrite
  try dsimp only
  repeat' first | intro _ | (with_reducible first | assumption | apply State.withEntry_kept (e := by assumption) | apply State.addOp_kept | apply State.setZone_kept | apply State.mirror_kept | apply Kept.foldl | apply Kept.foldl_fst) | (with_reducible refine Kept.mk rfl rfl rfl rfl ?_; with_reducible first | assumption | apply State.withEntry_kept (e := by assumption) | apply State.addOp_kept | apply State.setZone_kept | apply State.mirror_kept | apply Kept.foldl | apply Kept.foldl_fst) | split | dsimp only [id_eq] | with_reducible apply Kept.ite

theorem State.writeCommand_kept {Q : List Instr} (s : State) (slot : Nat) (c : HCmd) (i lba n : Nat) (append fua : Bool) (h0 : Kept Q s) :
    Kept Q (State.writeCommand s slot c i lba n append fua) := by
  unfold State.writeCommand
  try dsimp only
  repeat' first | intro _ | (with_reducible first | assumption | apply State.refuseCmd_kept | apply State.needMedium_kept | apply State.placeWrite_kept | apply State.count_kept | apply Kept.foldl | apply Kept.foldl_fst) | (with_reducible refine Kept.mk rfl rfl rfl rfl ?_; with_reducible first | assumption | apply State.refuseCmd_kept | apply State.needMedium_kept | apply State.placeWrite_kept | apply State.count_kept | apply Kept.foldl | apply Kept.foldl_fst) | split | dsimp only [id_eq] | with_reducible apply Kept.ite

theorem State.readCommand_kept {Q : List Instr} (s : State) (slot q i lba n : Nat) (verify quick : Bool) (h0 : Kept Q s) :
    Kept Q (State.readCommand s slot q i lba n verify quick) := by
  unfold State.readCommand
  try dsimp only
  repeat' first | intro _ | (with_reducible first | assumption | apply State.finish_kept | apply State.needMedium_kept | apply State.addOp_kept | apply State.postLbas_kept | apply State.opReadStep_kept | apply Kept.foldl | apply Kept.foldl_fst) | (with_reducible refine Kept.mk rfl rfl rfl rfl ?_; with_reducible first | assumption | apply State.finish_kept | apply State.needMedium_kept | apply State.addOp_kept | apply State.postLbas_kept | apply State.opReadStep_kept | apply Kept.foldl | apply Kept.foldl_fst) | split | dsimp only [id_eq] | with_reducible apply Kept.ite

theorem State.pullCommand_kept {Q : List Instr} (s : State) (slot q i : Nat) (r : Roi) (start room : Nat) (h0 : Kept Q s) :
    Kept Q (State.pullCommand s slot q i r start room) := by
  unfold State.pullCommand
  try dsimp only
  repeat' first | intro _ | (with_reducible first | assumption | apply State.finish_kept | apply State.count_kept | apply State.needMedium_kept | apply State.addOp_kept | apply State.postLbas_kept | apply Kept.foldl | apply Kept.foldl_fst) | (with_reducible refine Kept.mk rfl rfl rfl rfl ?_; with_reducible first | assumption | apply State.finish_kept | apply State.count_kept | apply State.needMedium_kept | apply State.addOp_kept | apply State.postLbas_kept | apply Kept.foldl | apply Kept.foldl_fst) | split | dsimp only [id_eq] | with_reducible apply Kept.ite

theorem State.flushCommand_kept {Q : List Instr} (s : State) (slot : Nat) (c : HCmd) (immed : Bool) (h0 : Kept Q s) :
    Kept Q (State.flushCommand s slot c immed) := by
  unfold State.flushCommand
  try dsimp only
  repeat' first | intro _ | (with_reducible first | assumption | apply State.count_kept | apply State.finish_kept | apply State.needMedium_kept | apply State.startFlush_kept | apply State.tellGroup_kept | apply State.awaitOthers_kept | apply State.mirror_kept | apply State.addOp_kept | apply Kept.foldl | apply Kept.foldl_fst) | (with_reducible refine Kept.mk rfl rfl rfl rfl ?_; with_reducible first | assumption | apply State.count_kept | apply State.finish_kept | apply State.needMedium_kept | apply State.startFlush_kept | apply State.tellGroup_kept | apply State.awaitOthers_kept | apply State.mirror_kept | apply State.addOp_kept | apply Kept.foldl | apply Kept.foldl_fst) | split | dsimp only [id_eq] | with_reducible apply Kept.ite

end Sys2Proof.Machine
end

