-- ==== Sys2Proof/Laws/KeptNvme.lean ====
section
/-! SUPPORT. Soundness is kept by every operation and meaning of Machine/Nvme.lean. -/

namespace Sys2Proof.Machine

theorem State.nvViol_kept {Q : List Instr} (s : State) (row q v : Nat) (h0 : Kept Q s) :
    Kept Q (State.nvViol s row q v) := by
  unfold State.nvViol
  try dsimp only
  repeat' first | intro _ | (with_reducible first | assumption | apply State.crumb_kept | apply State.incSat_kept | apply State.raise_kept | apply Kept.foldl | apply Kept.foldl_fst) | (with_reducible refine Kept.mk rfl rfl rfl rfl ?_; with_reducible first | assumption | apply State.crumb_kept | apply State.incSat_kept | apply State.raise_kept | apply Kept.foldl | apply Kept.foldl_fst) | split | dsimp only [id_eq] | with_reducible apply Kept.ite

theorem State.setSq_kept {Q : List Instr} (s : State) (q : Nat) (x : Option Sq) (h0 : Kept Q s) :
    Kept Q (State.setSq s q x) := by
  unfold State.setSq
  try dsimp only
  repeat' first | intro _ | (with_reducible first | assumption | apply Kept.foldl | apply Kept.foldl_fst) | (with_reducible refine Kept.mk rfl rfl rfl rfl ?_; with_reducible first | assumption | apply Kept.foldl | apply Kept.foldl_fst) | split | dsimp only [id_eq] | with_reducible apply Kept.ite

theorem State.setCq_kept {Q : List Instr} (s : State) (q : Nat) (x : Option Cq) (h0 : Kept Q s) :
    Kept Q (State.setCq s q x) := by
  unfold State.setCq
  try dsimp only
  repeat' first | intro _ | (with_reducible first | assumption | apply Kept.foldl | apply Kept.foldl_fst) | (with_reducible refine Kept.mk rfl rfl rfl rfl ?_; with_reducible first | assumption | apply Kept.foldl | apply Kept.foldl_fst) | split | dsimp only [id_eq] | with_reducible apply Kept.ite

theorem State.removeCmd_kept {Q : List Instr} (s : State) (slot : Nat) (h0 : Kept Q s) :
    Kept Q (State.removeCmd s slot) := by
  unfold State.removeCmd
  try dsimp only
  repeat' first | intro _ | (with_reducible first | assumption | apply State.dropData_kept | apply State.setCmd_kept | apply State.setWaiting_kept | apply Kept.foldl | apply Kept.foldl_fst) | (with_reducible refine Kept.mk rfl rfl rfl rfl ?_; with_reducible first | assumption | apply State.dropData_kept | apply State.setCmd_kept | apply State.setWaiting_kept | apply Kept.foldl | apply Kept.foldl_fst) | split | dsimp only [id_eq] | with_reducible apply Kept.ite

theorem State.discardCmd_kept {Q : List Instr} (s : State) (slot : Nat) (h0 : Kept Q s) :
    Kept Q (State.discardCmd s slot) := by
  unfold State.discardCmd
  try dsimp only
  repeat' first | intro _ | (with_reducible first | assumption | apply State.setGate_kept | apply State.setCmd_kept | apply State.removeCmd_kept | apply Kept.foldl | apply Kept.foldl_fst) | (with_reducible refine Kept.mk rfl rfl rfl rfl ?_; with_reducible first | assumption | apply State.setGate_kept | apply State.setCmd_kept | apply State.removeCmd_kept | apply Kept.foldl | apply Kept.foldl_fst) | split | dsimp only [id_eq] | with_reducible apply Kept.ite

theorem State.nvStop_kept {Q : List Instr} (s : State) (h0 : Kept Q s) :
    Kept Q (State.nvStop s) := by
  unfold State.nvStop
  try dsimp only
  repeat' first | intro _ | (with_reducible first | assumption | apply State.discardCmd_kept | apply State.setCmd_kept | apply State.setFlag_kept | apply State.raise_kept | apply State.beginActivation_kept | apply Kept.foldl | apply Kept.foldl_fst) | (with_reducible refine Kept.mk rfl rfl rfl rfl ?_; with_reducible first | assumption | apply State.discardCmd_kept | apply State.setCmd_kept | apply State.setFlag_kept | apply State.raise_kept | apply State.beginActivation_kept | apply Kept.foldl | apply Kept.foldl_fst) | split | dsimp only [id_eq] | with_reducible apply Kept.ite

theorem State.nvReset_kept {Q : List Instr} (s : State) (h0 : Kept Q s) :
    Kept Q (State.nvReset s) := by
  unfold State.nvReset
  try dsimp only
  repeat' first | intro _ | (with_reducible first | assumption | apply State.incSat_kept | apply State.raise_kept | apply State.nvStop_kept | apply Kept.foldl | apply Kept.foldl_fst) | (with_reducible refine Kept.mk rfl rfl rfl rfl ?_; with_reducible first | assumption | apply State.incSat_kept | apply State.raise_kept | apply State.nvStop_kept | apply Kept.foldl | apply Kept.foldl_fst) | split | dsimp only [id_eq] | with_reducible apply Kept.ite

theorem State.pcieDown_kept {Q : List Instr} (s : State) (h0 : Kept Q s) :
    Kept Q (State.pcieDown s) := by
  unfold State.pcieDown
  try dsimp only
  repeat' first | intro _ | (with_reducible first | assumption | apply State.setFlag_kept | apply State.wr_kept | apply State.raise_kept | apply Kept.foldl | apply Kept.foldl_fst) | (with_reducible refine Kept.mk rfl rfl rfl rfl ?_; with_reducible first | assumption | apply State.setFlag_kept | apply State.wr_kept | apply State.raise_kept | apply Kept.foldl | apply Kept.foldl_fst) | split | dsimp only [id_eq] | with_reducible apply Kept.ite

theorem execPcieLinkup_kept {Q : List Instr} (speed : Fin 6) (width : Fin 9) (s : State) (h0 : Kept Q s) :
    KeptOut Q (execPcieLinkup speed width s) := by
  unfold execPcieLinkup
  try dsimp only
  repeat' first | intro _ | (with_reducible first | assumption | apply live_kept | apply State.setFlag_kept | apply State.wr_kept | apply State.raise_kept | apply Kept.foldl | apply Kept.foldl_fst | apply KeptOut.live | apply KeptOut.next) | (with_reducible refine Kept.mk rfl rfl rfl rfl ?_; with_reducible first | assumption | apply live_kept | apply State.setFlag_kept | apply State.wr_kept | apply State.raise_kept | apply Kept.foldl | apply Kept.foldl_fst) | split | dsimp only [id_eq] | with_reducible apply Kept.ite

theorem execPcieLinkdown_kept {Q : List Instr} (s : State) (h0 : Kept Q s) :
    KeptOut Q (execPcieLinkdown s) := by
  unfold execPcieLinkdown
  try dsimp only
  repeat' first | intro _ | (with_reducible first | assumption | apply live_kept | apply State.pcieDown_kept | apply State.nvReset_kept | apply Kept.foldl | apply Kept.foldl_fst | apply KeptOut.live | apply KeptOut.next) | (with_reducible refine Kept.mk rfl rfl rfl rfl ?_; with_reducible first | assumption | apply live_kept | apply State.pcieDown_kept | apply State.nvReset_kept | apply Kept.foldl | apply Kept.foldl_fst) | split | dsimp only [id_eq] | with_reducible apply Kept.ite

theorem execFunctionLevelReset_kept {Q : List Instr} (s : State) (h0 : Kept Q s) :
    KeptOut Q (execFunctionLevelReset s) := by
  unfold execFunctionLevelReset
  try dsimp only
  repeat' first | intro _ | (with_reducible first | assumption | apply live_kept | apply State.nvReset_kept | apply Kept.foldl | apply Kept.foldl_fst | apply KeptOut.live | apply KeptOut.next) | (with_reducible refine Kept.mk rfl rfl rfl rfl ?_; with_reducible first | assumption | apply live_kept | apply State.nvReset_kept | apply Kept.foldl | apply Kept.foldl_fst) | split | dsimp only [id_eq] | with_reducible apply Kept.ite

theorem execHotReset_kept {Q : List Instr} (s : State) (h0 : Kept Q s) :
    KeptOut Q (execHotReset s) := by
  unfold execHotReset
  try dsimp only
  repeat' first | intro _ | (with_reducible first | assumption | apply live_kept | apply State.nvReset_kept | apply Kept.foldl | apply Kept.foldl_fst | apply KeptOut.live | apply KeptOut.next) | (with_reducible refine Kept.mk rfl rfl rfl rfl ?_; with_reducible first | assumption | apply live_kept | apply State.nvReset_kept | apply Kept.foldl | apply Kept.foldl_fst) | split | dsimp only [id_eq] | with_reducible apply Kept.ite

theorem execLinkDisable_kept {Q : List Instr} (s : State) (h0 : Kept Q s) :
    KeptOut Q (execLinkDisable s) := by
  unfold execLinkDisable
  try dsimp only
  repeat' first | intro _ | (with_reducible first | assumption | apply live_kept | apply State.pcieDown_kept | apply State.nvReset_kept | apply Kept.foldl | apply Kept.foldl_fst | apply KeptOut.live | apply KeptOut.next) | (with_reducible refine Kept.mk rfl rfl rfl rfl ?_; with_reducible first | assumption | apply live_kept | apply State.pcieDown_kept | apply State.nvReset_kept | apply Kept.foldl | apply Kept.foldl_fst) | split | dsimp only [id_eq] | with_reducible apply Kept.ite

theorem execPerstDeassert_kept {Q : List Instr} (s : State) (h0 : Kept Q s) :
    KeptOut Q (execPerstDeassert s) := by
  unfold execPerstDeassert
  try dsimp only
  repeat' first | intro _ | (with_reducible first | assumption | apply Kept.foldl | apply Kept.foldl_fst | apply KeptOut.live | apply KeptOut.next) | (with_reducible refine Kept.mk rfl rfl rfl rfl ?_; with_reducible first | assumption | apply Kept.foldl | apply Kept.foldl_fst) | split | dsimp only [id_eq] | with_reducible apply Kept.ite

theorem execConfigurationRequest_kept {Q : List Instr} (s : State) (h0 : Kept Q s) :
    KeptOut Q (execConfigurationRequest s) := by
  unfold execConfigurationRequest
  try dsimp only
  repeat' first | intro _ | (with_reducible first | assumption | apply Kept.foldl | apply Kept.foldl_fst | apply KeptOut.live | apply KeptOut.next) | (with_reducible refine Kept.mk rfl rfl rfl rfl ?_; with_reducible first | assumption | apply Kept.foldl | apply Kept.foldl_fst) | split | dsimp only [id_eq] | with_reducible apply Kept.ite

theorem execCcEnable_kept {Q : List Instr} (css : Fin 8) (asq acq : Fin 4096) (s : State) (h0 : Kept Q s) :
    KeptOut Q (execCcEnable css asq acq s) := by
  unfold execCcEnable
  try dsimp only
  repeat' first | intro _ | (with_reducible first | assumption | apply State.setSq_kept | apply State.setCq_kept | apply live_kept | apply State.raise_kept | apply Kept.foldl | apply Kept.foldl_fst | apply KeptOut.live | apply KeptOut.next) | (with_reducible refine Kept.mk rfl rfl rfl rfl ?_; with_reducible first | assumption | apply State.setSq_kept | apply State.setCq_kept | apply live_kept | apply State.raise_kept | apply Kept.foldl | apply Kept.foldl_fst) | split | dsimp only [id_eq] | with_reducible apply Kept.ite

theorem execCcDisable_kept {Q : List Instr} (s : State) (h0 : Kept Q s) :
    KeptOut Q (execCcDisable s) := by
  unfold execCcDisable
  try dsimp only
  repeat' first | intro _ | (with_reducible first | assumption | apply live_kept | apply State.nvStop_kept | apply Kept.foldl | apply Kept.foldl_fst | apply KeptOut.live | apply KeptOut.next) | (with_reducible refine Kept.mk rfl rfl rfl rfl ?_; with_reducible first | assumption | apply live_kept | apply State.nvStop_kept | apply Kept.foldl | apply Kept.foldl_fst) | split | dsimp only [id_eq] | with_reducible apply Kept.ite

theorem execNormalShutdown_kept {Q : List Instr} (s : State) (h0 : Kept Q s) :
    KeptOut Q (execNormalShutdown s) := by
  unfold execNormalShutdown
  try dsimp only
  repeat' first | intro _ | (with_reducible first | assumption | apply State.closeAll_kept | apply live_kept | apply State.raise_kept | apply Kept.foldl | apply Kept.foldl_fst | apply KeptOut.live | apply KeptOut.next) | (with_reducible refine Kept.mk rfl rfl rfl rfl ?_; with_reducible first | assumption | apply State.closeAll_kept | apply live_kept | apply State.raise_kept | apply Kept.foldl | apply Kept.foldl_fst) | split | dsimp only [id_eq] | with_reducible apply Kept.ite

theorem execAbruptShutdown_kept {Q : List Instr} (s : State) (h0 : Kept Q s) :
    KeptOut Q (execAbruptShutdown s) := by
  unfold execAbruptShutdown
  try dsimp only
  repeat' first | intro _ | (with_reducible first | assumption | apply State.closeAll_kept | apply live_kept | apply State.raise_kept | apply Kept.foldl | apply Kept.foldl_fst | apply KeptOut.live | apply KeptOut.next) | (with_reducible refine Kept.mk rfl rfl rfl rfl ?_; with_reducible first | assumption | apply State.closeAll_kept | apply live_kept | apply State.raise_kept | apply Kept.foldl | apply Kept.foldl_fst) | split | dsimp only [id_eq] | with_reducible apply Kept.ite

theorem execNvctrlReady_kept {Q : List Instr} (r : Requester) (v : Word) (s : State) (h0 : Kept Q s) :
    KeptOut Q (execNvctrlReady r v s) := by
  unfold execNvctrlReady
  try dsimp only
  repeat' first | intro _ | (with_reducible first | assumption | apply live_kept | apply State.guardReg_kept | apply State.storeReg_kept | apply Kept.foldl | apply Kept.foldl_fst | apply KeptOut.live | apply KeptOut.next) | (with_reducible refine Kept.mk rfl rfl rfl rfl ?_; with_reducible first | assumption | apply live_kept | apply State.guardReg_kept | apply State.storeReg_kept | apply Kept.foldl | apply Kept.foldl_fst) | split | dsimp only [id_eq] | with_reducible apply Kept.ite

theorem State.nvCtrl_kept {Q : List Instr} (t : State) (v : Nat) (h0 : Kept Q t) :
    Kept Q (State.nvCtrl t v) := by
  unfold State.nvCtrl
  try dsimp only
  repeat' first | intro _ | (with_reducible first | assumption | apply State.setFlag_kept | apply State.wr_kept | apply Kept.foldl | apply Kept.foldl_fst) | (with_reducible refine Kept.mk rfl rfl rfl rfl ?_; with_reducible first | assumption | apply State.setFlag_kept | apply State.wr_kept | apply Kept.foldl | apply Kept.foldl_fst) | split | dsimp only [id_eq] | with_reducible apply Kept.ite

theorem execNvctrlCfs_kept {Q : List Instr} (r : Requester) (v : Word) (s : State) (h0 : Kept Q s) :
    KeptOut Q (execNvctrlCfs r v s) := by
  unfold execNvctrlCfs
  try dsimp only
  repeat' first | intro _ | (with_reducible first | assumption | apply live_kept | apply State.guardReg_kept | apply State.nvCtrl_kept | apply Kept.foldl | apply Kept.foldl_fst | apply KeptOut.live | apply KeptOut.next) | (with_reducible refine Kept.mk rfl rfl rfl rfl ?_; with_reducible first | assumption | apply live_kept | apply State.guardReg_kept | apply State.nvCtrl_kept | apply Kept.foldl | apply Kept.foldl_fst) | split | dsimp only [id_eq] | with_reducible apply Kept.ite

theorem execSqTailDoorbell_kept {Q : List Instr} (q : Nat) (v : Word) (s : State) (h0 : Kept Q s) :
    KeptOut Q (execSqTailDoorbell q v s) := by
  unfold execSqTailDoorbell
  try dsimp only
  repeat' first | intro _ | (with_reducible first | assumption | apply live_kept | apply State.nvViol_kept | apply State.asyncEvent_kept | apply State.setSq_kept | apply Kept.foldl | apply Kept.foldl_fst | apply KeptOut.live | apply KeptOut.next) | (with_reducible refine Kept.mk rfl rfl rfl rfl ?_; with_reducible first | assumption | apply live_kept | apply State.nvViol_kept | apply State.asyncEvent_kept | apply State.setSq_kept | apply Kept.foldl | apply Kept.foldl_fst) | split | dsimp only [id_eq] | with_reducible apply Kept.ite

theorem execCqHeadDoorbell_kept {Q : List Instr} (q : Nat) (v : Word) (s : State) (h0 : Kept Q s) :
    KeptOut Q (execCqHeadDoorbell q v s) := by
  unfold execCqHeadDoorbell
  try dsimp only
  repeat' first | intro _ | (with_reducible first | assumption | apply live_kept | apply State.nvViol_kept | apply State.asyncEvent_kept | apply State.setCq_kept | apply Kept.foldl | apply Kept.foldl_fst | apply KeptOut.live | apply KeptOut.next) | (with_reducible refine Kept.mk rfl rfl rfl rfl ?_; with_reducible first | assumption | apply live_kept | apply State.nvViol_kept | apply State.asyncEvent_kept | apply State.setCq_kept | apply Kept.foldl | apply Kept.foldl_fst) | split | dsimp only [id_eq] | with_reducible apply Kept.ite

theorem State.completeNow_kept {Q : List Instr} (s : State) (slot : Nat) (x : Stat) (h0 : Kept Q s) :
    Kept Q (State.completeNow s slot x) := by
  unfold State.completeNow
  try dsimp only
  repeat' first | intro _ | (with_reducible first | assumption | apply State.setCmd_kept | apply State.dropSlot_kept | apply State.giveRec_kept | apply Kept.foldl | apply Kept.foldl_fst) | (with_reducible refine Kept.mk rfl rfl rfl rfl ?_; with_reducible first | assumption | apply State.setCmd_kept | apply State.dropSlot_kept | apply State.giveRec_kept | apply Kept.foldl | apply Kept.foldl_fst) | split | dsimp only [id_eq] | with_reducible apply Kept.ite

theorem State.enqueueKnown_kept {Q : List Instr} (s : State) (slot : Nat) (c : HCmd) (h0 : Kept Q s) :
    Kept Q (State.enqueueKnown s slot c) := by
  unfold State.enqueueKnown
  try dsimp only
  repeat' first | intro _ | (with_reducible first | assumption | apply State.enqueue_kept | apply State.completeNow_kept | apply Kept.foldl | apply Kept.foldl_fst) | (with_reducible refine Kept.mk rfl rfl rfl rfl ?_; with_reducible first | assumption | apply State.enqueue_kept | apply State.completeNow_kept | apply Kept.foldl | apply Kept.foldl_fst) | split | dsimp only [id_eq] | with_reducible apply Kept.ite

theorem State.fetched_kept {Q : List Instr} (s : State) (slot : Nat) (c : HCmd) (prpBad dmaBad : Bool) (h0 : Kept Q s) :
    Kept Q (State.fetched s slot c prpBad dmaBad) := by
  unfold State.fetched
  try dsimp only
  repeat' first | intro _ | (with_reducible first | assumption | apply State.setCmd_kept | apply State.nvViol_kept | apply State.completeNow_kept | apply State.enqueueKnown_kept | apply Kept.foldl | apply Kept.foldl_fst) | (with_reducible refine Kept.mk rfl rfl rfl rfl ?_; with_reducible first | assumption | apply State.setCmd_kept | apply State.nvViol_kept | apply State.completeNow_kept | apply State.enqueueKnown_kept | apply Kept.foldl | apply Kept.foldl_fst) | split | dsimp only [id_eq] | with_reducible apply Kept.ite

theorem execCommandFetch_kept {Q : List Instr} (q : Fin 65) (e : SqEntry) (s : State) (h0 : Kept Q s) :
    KeptOut Q (execCommandFetch q e s) := by
  unfold execCommandFetch
  try dsimp only
  repeat' first | intro _ | (with_reducible first | assumption | apply live_kept | apply State.raise_kept | apply State.setSq_kept | apply State.nvViol_kept | apply State.fetched_kept | apply Kept.foldl | apply Kept.foldl_fst | apply KeptOut.live | apply KeptOut.next) | (with_reducible refine Kept.mk rfl rfl rfl rfl ?_; with_reducible first | assumption | apply live_kept | apply State.raise_kept | apply State.setSq_kept | apply State.nvViol_kept | apply State.fetched_kept | apply Kept.foldl | apply Kept.foldl_fst) | split | dsimp only [id_eq] | with_reducible apply Kept.ite

theorem State.landData_kept {Q : List Instr} (s : State) (slot addr : Nat) (c : HCmd) (h0 : Kept Q s) :
    Kept Q (State.landData s slot addr c) := by
  unfold State.landData
  try dsimp only
  repeat' first | intro _ | (with_reducible first | assumption | apply State.useUnits_kept | apply State.landPages_kept | apply State.setCmd_kept | apply State.enqueueKnown_kept | apply Kept.foldl | apply Kept.foldl_fst) | (with_reducible refine Kept.mk rfl rfl rfl rfl ?_; with_reducible first | assumption | apply State.useUnits_kept | apply State.landPages_kept | apply State.setCmd_kept | apply State.enqueueKnown_kept | apply Kept.foldl | apply Kept.foldl_fst) | split | dsimp only [id_eq] | with_reducible apply Kept.ite

theorem execWriteDataLanded_kept {Q : List Instr} (slot : Fin 8192) (addr : Nat) (s : State) (h0 : Kept Q s) :
    KeptOut Q (execWriteDataLanded slot addr s) := by
  unfold execWriteDataLanded
  try dsimp only
  repeat' first | intro _ | (with_reducible first | assumption | apply live_kept | apply State.landData_kept | apply Kept.foldl | apply Kept.foldl_fst | apply KeptOut.live | apply KeptOut.next) | (with_reducible refine Kept.mk rfl rfl rfl rfl ?_; with_reducible first | assumption | apply live_kept | apply State.landData_kept | apply Kept.foldl | apply Kept.foldl_fst) | split | dsimp only [id_eq] | with_reducible apply Kept.ite

theorem execParkedWriteResume_kept {Q : List Instr} (slot : Fin 8192) (addr : Nat) (s : State) (h0 : Kept Q s) :
    KeptOut Q (execParkedWriteResume slot addr s) := by
  unfold execParkedWriteResume
  try dsimp only
  repeat' first | intro _ | (with_reducible first | assumption | apply live_kept | apply State.landData_kept | apply Kept.foldl | apply Kept.foldl_fst | apply KeptOut.live | apply KeptOut.next) | (with_reducible refine Kept.mk rfl rfl rfl rfl ?_; with_reducible first | assumption | apply live_kept | apply State.landData_kept | apply Kept.foldl | apply Kept.foldl_fst) | split | dsimp only [id_eq] | with_reducible apply Kept.ite

theorem State.answered_kept {Q : List Instr} (s : State) (slot : Nat) (c : HCmd) (bad : Bool) (h0 : Kept Q s) :
    Kept Q (State.answered s slot c bad) := by
  unfold State.answered
  try dsimp only
  repeat' first | intro _ | (with_reducible first | assumption | apply State.count_kept | apply State.dropData_kept | apply State.setCmd_kept | apply Kept.foldl | apply Kept.foldl_fst) | (with_reducible refine Kept.mk rfl rfl rfl rfl ?_; with_reducible first | assumption | apply State.count_kept | apply State.dropData_kept | apply State.setCmd_kept | apply Kept.foldl | apply Kept.foldl_fst) | split | dsimp only [id_eq] | with_reducible apply Kept.ite

theorem State.logError_kept {Q : List Instr} (s : State) (c : HCmd) (status lba : Nat) (h0 : Kept Q s) :
    Kept Q (State.logError s c status lba) := by
  unfold State.logError
  try dsimp only
  repeat' first | intro _ | (with_reducible first | assumption | apply State.take_kept | apply Kept.foldl | apply Kept.foldl_fst) | (with_reducible refine Kept.mk rfl rfl rfl rfl ?_; with_reducible first | assumption | apply State.take_kept | apply Kept.foldl | apply Kept.foldl_fst) | split | dsimp only [id_eq] | with_reducible apply Kept.ite

theorem execCompletionPosted_kept {Q : List Instr} (q : Fin 65) (s : State) (h0 : Kept Q s) :
    KeptOut Q (execCompletionPosted q s) := by
  unfold execCompletionPosted
  try dsimp only
  repeat' first | intro _ | (with_reducible first | assumption | apply live_kept | apply State.nvViol_kept | apply State.setCq_kept | apply State.logError_kept | apply State.answered_kept | apply State.sendMsix_kept | apply Kept.foldl | apply Kept.foldl_fst | apply KeptOut.live | apply KeptOut.next) | (with_reducible refine Kept.mk rfl rfl rfl rfl ?_; with_reducible first | assumption | apply live_kept | apply State.nvViol_kept | apply State.setCq_kept | apply State.logError_kept | apply State.answered_kept | apply State.sendMsix_kept | apply Kept.foldl | apply Kept.foldl_fst) | split | dsimp only [id_eq] | with_reducible apply Kept.ite

end Sys2Proof.Machine
end

