-- ==== Sys2Proof/Laws/KeptMedia.lean ====
section
/-! SUPPORT. Soundness is kept by every operation and meaning of Machine/Media.lean. -/

namespace Sys2Proof.Machine

theorem State.useLead_kept {Q : List Instr} (s : State) (h : Nat) (x : LeadIn) (h0 : Kept Q s) :
    Kept Q (State.useLead s h x) := by
  unfold State.useLead
  try dsimp only
  repeat' first | intro _ | (with_reducible first | assumption | apply Kept.foldl | apply Kept.foldl_fst) | (with_reducible refine Kept.mk rfl rfl rfl rfl ?_; with_reducible first | assumption | apply Kept.foldl | apply Kept.foldl_fst) | split | dsimp only [id_eq] | with_reducible apply Kept.ite

theorem State.rejectMedia_kept {Q : List Instr} (s : State) (h0 : Kept Q s) :
    Kept Q (State.rejectMedia s) := by
  unfold State.rejectMedia
  try dsimp only
  repeat' first | intro _ | (with_reducible first | assumption | apply State.wr_kept | apply State.vendorEvent_kept | apply State.attention_kept | apply State.load_kept | apply State.endOp_kept | apply Kept.foldl | apply Kept.foldl_fst) | (with_reducible refine Kept.mk rfl rfl rfl rfl ?_; with_reducible first | assumption | apply State.wr_kept | apply State.vendorEvent_kept | apply State.attention_kept | apply State.load_kept | apply State.endOp_kept | apply Kept.foldl | apply Kept.foldl_fst) | split | dsimp only [id_eq] | with_reducible apply Kept.ite

theorem execLeadinReadDone_kept {Q : List Instr} (h : Fin 4) (s : State) (h0 : Kept Q s) :
    KeptOut Q (execLeadinReadDone h s) := by
  unfold execLeadinReadDone
  try dsimp only
  repeat' first | intro _ | (with_reducible first | assumption | apply live_kept | apply State.rejectMedia_kept | apply State.useLead_kept | apply Kept.foldl | apply Kept.foldl_fst | apply KeptOut.live | apply KeptOut.next) | (with_reducible refine Kept.mk rfl rfl rfl rfl ?_; with_reducible first | assumption | apply live_kept | apply State.rejectMedia_kept | apply State.useLead_kept | apply Kept.foldl | apply Kept.foldl_fst) | split | dsimp only [id_eq] | with_reducible apply Kept.ite

theorem State.mapRun_kept {Q : List Instr} (s : State) (x0 : Nat) (x1 : Nat) (x2 : Nat) (h0 : Kept Q s) :
    Kept Q (State.mapRun s x0 x1 x2) := by
  induction x0 generalizing s x1 x2 with
  | zero =>
    unfold State.mapRun
    try dsimp only
    repeat' first | intro _ | (with_reducible first | assumption | apply Kept.foldl | apply Kept.foldl_fst) | (with_reducible refine Kept.mk rfl rfl rfl rfl ?_; with_reducible first | assumption | apply Kept.foldl | apply Kept.foldl_fst) | split | dsimp only [id_eq] | with_reducible apply Kept.ite
  | succ n ih =>
    unfold State.mapRun
    try dsimp only
    repeat' first | intro _ | (with_reducible first | apply ih | assumption | apply Kept.foldl | apply Kept.foldl_fst) | (with_reducible refine Kept.mk rfl rfl rfl rfl ?_; with_reducible first | assumption | apply Kept.foldl | apply Kept.foldl_fst) | split | dsimp only [id_eq] | with_reducible apply Kept.ite

theorem State.mapRuns_kept {Q : List Instr} (s : State) (b : Rebuilt) (x0 : List (Nat × Nat)) (h0 : Kept Q s) :
    Kept Q (State.mapRuns s b x0) := by
  induction x0 generalizing s with
  | nil => unfold State.mapRuns; exact h0
  | cons e es ih =>
    obtain ⟨k, v⟩ := e
    unfold State.mapRuns
    exact ih _ (State.mapRun_kept _ _ _ _ h0)

theorem State.copyFails_kept {Q : List Instr} (s : State) (trays : List (Nat × List Block)) (fails : List Nat) (h0 : Kept Q s) :
    Kept Q (State.copyFails s trays fails) := by
  unfold State.copyFails
  try dsimp only
  repeat' first | intro _ | (with_reducible first | assumption | apply Kept.foldl | apply Kept.foldl_fst) | (with_reducible refine Kept.mk rfl rfl rfl rfl ?_; with_reducible first | assumption | apply Kept.foldl | apply Kept.foldl_fst) | split | dsimp only [id_eq] | with_reducible apply Kept.ite

theorem State.placeZone_kept {Q : List Instr} (s : State) (b : Rebuilt) (keys : List Nat) (n j : Nat) (live : Bool) (h0 : Kept Q s) :
    Kept Q (State.placeZone s b keys n j live) := by
  unfold State.placeZone
  try dsimp only
  repeat' first | intro _ | (with_reducible first | assumption | apply live_kept | apply State.setHw_kept | apply State.setZent_kept | apply Kept.foldl | apply Kept.foldl_fst) | (with_reducible refine Kept.mk rfl rfl rfl rfl ?_; with_reducible first | assumption | apply live_kept | apply State.setHw_kept | apply State.setZent_kept | apply Kept.foldl | apply Kept.foldl_fst) | split | dsimp only [id_eq] | with_reducible apply Kept.ite

theorem State.placeZones_kept {Q : List Instr} (s : State) (b : Rebuilt) (keys : List Nat) (h0 : Kept Q s) :
    Kept Q (State.placeZones s b keys) := by
  unfold State.placeZones
  try dsimp only
  repeat' first | intro _ | (with_reducible first | assumption | apply State.placeZone_kept | apply live_kept | apply Kept.foldl | apply Kept.foldl_fst) | (with_reducible refine Kept.mk rfl rfl rfl rfl ?_; with_reducible first | assumption | apply State.placeZone_kept | apply live_kept | apply Kept.foldl | apply Kept.foldl_fst) | split | dsimp only [id_eq] | with_reducible apply Kept.ite

theorem State.openTable_kept {Q : List Instr} (s : State) (h0 : Kept Q s) :
    Kept Q (State.openTable s) := by
  unfold State.openTable
  try dsimp only
  repeat' first | intro _ | (with_reducible first | assumption | apply State.setFlag_kept | apply Kept.foldl | apply Kept.foldl_fst) | (with_reducible refine Kept.mk rfl rfl rfl rfl ?_; with_reducible first | assumption | apply State.setFlag_kept | apply Kept.foldl | apply Kept.foldl_fst) | split | dsimp only [id_eq] | with_reducible apply Kept.ite

theorem State.noteMemory_kept {Q : List Instr} (s : State) (c : Cartridge) (h0 : Kept Q s) :
    Kept Q (State.noteMemory s c) := by
  unfold State.noteMemory
  try dsimp only
  repeat' first | intro _ | (with_reducible first | assumption | apply State.report_kept | apply State.raise_kept | apply Kept.foldl | apply Kept.foldl_fst) | (with_reducible refine Kept.mk rfl rfl rfl rfl ?_; with_reducible first | assumption | apply State.report_kept | apply State.raise_kept | apply Kept.foldl | apply Kept.foldl_fst) | split | dsimp only [id_eq] | with_reducible apply Kept.ite

theorem State.openMedia_kept {Q : List Instr} (s : State) (lost hidden fails : List Nat) (c : Cartridge) (h0 : Kept Q s) :
    Kept Q (State.openMedia s lost hidden fails c) := by
  unfold State.openMedia
  try dsimp only
  repeat' first | intro _ | (with_reducible first | assumption | apply State.take_kept | apply State.openTable_kept | apply State.mapRuns_kept | apply State.placeZones_kept | apply State.mapPut_kept | apply State.wr_kept | apply State.setTbSeq_kept | apply State.setCapacity_kept | apply State.copyFails_kept | apply State.postJournal_kept | apply State.startCkpt_kept | apply Kept.foldl | apply Kept.foldl_fst) | (with_reducible refine Kept.mk rfl rfl rfl rfl ?_; with_reducible first | assumption | apply State.take_kept | apply State.openTable_kept | apply State.mapRuns_kept | apply State.placeZones_kept | apply State.mapPut_kept | apply State.wr_kept | apply State.setTbSeq_kept | apply State.setCapacity_kept | apply State.copyFails_kept | apply State.postJournal_kept | apply State.startCkpt_kept | apply Kept.foldl | apply Kept.foldl_fst) | split | dsimp only [id_eq] | with_reducible apply Kept.ite

theorem execMediaStateDecide_kept {Q : List Instr} (lost hidden fails : List Nat) (s : State) (h0 : Kept Q s) :
    KeptOut Q (execMediaStateDecide lost hidden fails s) := by
  unfold execMediaStateDecide
  try dsimp only
  repeat' first | intro _ | (with_reducible first | assumption | apply State.noteMemory_kept | apply live_kept | apply State.rejectMedia_kept | apply State.openTable_kept | apply State.wr_kept | apply State.setTbSeq_kept | apply State.openMedia_kept | apply Kept.foldl | apply Kept.foldl_fst | apply KeptOut.live | apply KeptOut.next) | (with_reducible refine Kept.mk rfl rfl rfl rfl ?_; with_reducible first | assumption | apply State.noteMemory_kept | apply live_kept | apply State.rejectMedia_kept | apply State.openTable_kept | apply State.wr_kept | apply State.setTbSeq_kept | apply State.openMedia_kept | apply Kept.foldl | apply Kept.foldl_fst) | split | dsimp only [id_eq] | with_reducible apply Kept.ite

end Sys2Proof.Machine
end

