-- ==== Sys2Proof/Laws/KeptEvents.lean ====
section
/-! SUPPORT. Soundness is kept by every operation and meaning of Machine/Events.lean. -/

namespace Sys2Proof.Machine

theorem State.raiseAll_kept {Q : List Instr} (s : State) (u : UnitId) (v : Nat) (h0 : Kept Q s) :
    Kept Q (State.raiseAll s u v) := by
  unfold State.raiseAll
  try dsimp only
  repeat' first | intro _ | (with_reducible first | assumption | apply State.raise_kept | apply Kept.foldl | apply Kept.foldl_fst) | (with_reducible refine Kept.mk rfl rfl rfl rfl ?_; with_reducible first | assumption | apply State.raise_kept | apply Kept.foldl | apply Kept.foldl_fst) | split | dsimp only [id_eq] | with_reducible apply Kept.ite

theorem execEvforceWrite_kept {Q : List Instr} (r : Requester) (u : UnitId) (v : Word) (s : State) (h0 : Kept Q s) :
    KeptOut Q (execEvforceWrite r u v s) := by
  unfold execEvforceWrite
  try dsimp only
  repeat' first | intro _ | (with_reducible first | assumption | apply live_kept | apply State.guardReg_kept | apply State.raiseAll_kept | apply Kept.foldl | apply Kept.foldl_fst | apply KeptOut.live | apply KeptOut.next) | (with_reducible refine Kept.mk rfl rfl rfl rfl ?_; with_reducible first | assumption | apply live_kept | apply State.guardReg_kept | apply State.raiseAll_kept | apply Kept.foldl | apply Kept.foldl_fst) | split | dsimp only [id_eq] | with_reducible apply Kept.ite

theorem execEvclrWrite_kept {Q : List Instr} (r : Requester) (u : UnitId) (v occ present : Word) (s : State) (h0 : Kept Q s) :
    KeptOut Q (execEvclrWrite r u v occ present s) := by
  unfold execEvclrWrite
  try dsimp only
  repeat' first | intro _ | (with_reducible first | assumption | apply live_kept | apply State.guardReg_kept | apply State.wr_kept | apply State.raiseAll_kept | apply Kept.foldl | apply Kept.foldl_fst | apply KeptOut.live | apply KeptOut.next) | (with_reducible refine Kept.mk rfl rfl rfl rfl ?_; with_reducible first | assumption | apply live_kept | apply State.guardReg_kept | apply State.wr_kept | apply State.raiseAll_kept | apply Kept.foldl | apply Kept.foldl_fst) | split | dsimp only [id_eq] | with_reducible apply Kept.ite

theorem State.lockTree_kept {Q : List Instr} (s : State) (u : UnitId) (h0 : Kept Q s) :
    Kept Q (State.lockTree s u) := by
  unfold State.lockTree
  try dsimp only
  repeat' first | intro _ | (with_reducible first | assumption | apply State.setFlag_kept | apply Kept.foldl | apply Kept.foldl_fst) | (with_reducible refine Kept.mk rfl rfl rfl rfl ?_; with_reducible first | assumption | apply State.setFlag_kept | apply Kept.foldl | apply Kept.foldl_fst) | split | dsimp only [id_eq] | with_reducible apply Kept.ite

theorem execUlockWrite_kept {Q : List Instr} (r : Requester) (u : UnitId) (v : Word) (s : State) (h0 : Kept Q s) :
    KeptOut Q (execUlockWrite r u v s) := by
  unfold execUlockWrite
  try dsimp only
  repeat' first | intro _ | (with_reducible first | assumption | apply live_kept | apply State.guardReg_kept | apply State.lockTree_kept | apply Kept.foldl | apply Kept.foldl_fst | apply KeptOut.live | apply KeptOut.next) | (with_reducible refine Kept.mk rfl rfl rfl rfl ?_; with_reducible first | assumption | apply live_kept | apply State.guardReg_kept | apply State.lockTree_kept | apply Kept.foldl | apply Kept.foldl_fst) | split | dsimp only [id_eq] | with_reducible apply Kept.ite

theorem State.rearm_kept {Q : List Instr} (s : State) (lane : Nat) (h0 : Kept Q s) :
    Kept Q (State.rearm s lane) := by
  unfold State.rearm
  try dsimp only
  repeat' first | intro _ | (with_reducible first | assumption | apply State.noteWrap_kept | apply State.laneMessage_kept | apply Kept.foldl | apply Kept.foldl_fst) | (with_reducible refine Kept.mk rfl rfl rfl rfl ?_; with_reducible first | assumption | apply State.noteWrap_kept | apply State.laneMessage_kept | apply Kept.foldl | apply Kept.foldl_fst) | split | dsimp only [id_eq] | with_reducible apply Kept.ite

theorem execLnrearmWrite_kept {Q : List Instr} (r : Requester) (hi : Bool) (v : Word) (s : State) (h0 : Kept Q s) :
    KeptOut Q (execLnrearmWrite r hi v s) := by
  unfold execLnrearmWrite
  try dsimp only
  repeat' first | intro _ | (with_reducible first | assumption | apply live_kept | apply State.guardReg_kept | apply State.rearm_kept | apply Kept.foldl | apply Kept.foldl_fst | apply KeptOut.live | apply KeptOut.next) | (with_reducible refine Kept.mk rfl rfl rfl rfl ?_; with_reducible first | assumption | apply live_kept | apply State.guardReg_kept | apply State.rearm_kept | apply Kept.foldl | apply Kept.foldl_fst) | split | dsimp only [id_eq] | with_reducible apply Kept.ite

theorem State.crSel_kept {Q : List Instr} (t : State) (v : Nat) (h0 : Kept Q t) :
    Kept Q (State.crSel t v) := by
  unfold State.crSel
  try dsimp only
  repeat' first | intro _ | (with_reducible first | assumption | apply State.wr_kept | apply Kept.foldl | apply Kept.foldl_fst) | (with_reducible refine Kept.mk rfl rfl rfl rfl ?_; with_reducible first | assumption | apply State.wr_kept | apply Kept.foldl | apply Kept.foldl_fst) | split | dsimp only [id_eq] | with_reducible apply Kept.ite

theorem execCrselWrite_kept {Q : List Instr} (r : Requester) (v : Word) (s : State) (h0 : Kept Q s) :
    KeptOut Q (execCrselWrite r v s) := by
  unfold execCrselWrite
  try dsimp only
  repeat' first | intro _ | (with_reducible first | assumption | apply live_kept | apply State.guardReg_kept | apply State.crSel_kept | apply Kept.foldl | apply Kept.foldl_fst | apply KeptOut.live | apply KeptOut.next) | (with_reducible refine Kept.mk rfl rfl rfl rfl ?_; with_reducible first | assumption | apply live_kept | apply State.guardReg_kept | apply State.crSel_kept | apply Kept.foldl | apply Kept.foldl_fst) | split | dsimp only [id_eq] | with_reducible apply Kept.ite

theorem State.crSwcmd_kept {Q : List Instr} (t : State) (r : Requester) (v : Nat) (h0 : Kept Q t) :
    Kept Q (State.crSwcmd t r v) := by
  unfold State.crSwcmd
  try dsimp only
  repeat' first | intro _ | (with_reducible first | assumption | apply State.crumb_kept | apply Kept.foldl | apply Kept.foldl_fst) | (with_reducible refine Kept.mk rfl rfl rfl rfl ?_; with_reducible first | assumption | apply State.crumb_kept | apply Kept.foldl | apply Kept.foldl_fst) | split | dsimp only [id_eq] | with_reducible apply Kept.ite

theorem execCrswcmdWrite_kept {Q : List Instr} (r : Requester) (v : Word) (s : State) (h0 : Kept Q s) :
    KeptOut Q (execCrswcmdWrite r v s) := by
  unfold execCrswcmdWrite
  try dsimp only
  repeat' first | intro _ | (with_reducible first | assumption | apply live_kept | apply State.guardReg_kept | apply State.crSwcmd_kept | apply Kept.foldl | apply Kept.foldl_fst | apply KeptOut.live | apply KeptOut.next) | (with_reducible refine Kept.mk rfl rfl rfl rfl ?_; with_reducible first | assumption | apply live_kept | apply State.guardReg_kept | apply State.crSwcmd_kept | apply Kept.foldl | apply Kept.foldl_fst) | split | dsimp only [id_eq] | with_reducible apply Kept.ite

theorem State.setCrumbEntry_kept {Q : List Instr} (s : State) (i : Nat) (e : CrumbEntry) (h0 : Kept Q s) :
    Kept Q (State.setCrumbEntry s i e) := by
  unfold State.setCrumbEntry
  try dsimp only
  repeat' first | intro _ | (with_reducible first | assumption | apply State.engineStore_kept | apply Kept.foldl | apply Kept.foldl_fst) | (with_reducible refine Kept.mk rfl rfl rfl rfl ?_; with_reducible first | assumption | apply State.engineStore_kept | apply Kept.foldl | apply Kept.foldl_fst) | split | dsimp only [id_eq] | with_reducible apply Kept.ite

theorem State.newCrumbEntry_kept {Q : List Instr} (s : State) (c : Crumb) (h0 : Kept Q s) :
    Kept Q (State.newCrumbEntry s c) := by
  unfold State.newCrumbEntry
  try dsimp only
  repeat' first | intro _ | (with_reducible first | assumption | apply State.setCrumbEntry_kept | apply State.wr_kept | apply State.incWrap_kept | apply State.raise_kept | apply Kept.foldl | apply Kept.foldl_fst) | (with_reducible refine Kept.mk rfl rfl rfl rfl ?_; with_reducible first | assumption | apply State.setCrumbEntry_kept | apply State.wr_kept | apply State.incWrap_kept | apply State.raise_kept | apply Kept.foldl | apply Kept.foldl_fst) | split | dsimp only [id_eq] | with_reducible apply Kept.ite

theorem execCrumbEntryWrite_kept {Q : List Instr} (s : State) (h0 : Kept Q s) :
    KeptOut Q (execCrumbEntryWrite s) := by
  unfold execCrumbEntryWrite
  refine KeptOut.live h0 ?_
  split
  · exact h0
  · rename_i c q hq
    have h1 : Kept Q { s with crumbs := { s.crumbs with queue := q } } := by
      refine ⟨h0.1, h0.2.1, h0.2.2.1, h0.2.2.2.1, h0.2.2.2.2.1, ?_, h0.2.2.2.2.2.2⟩
      have := h0.2.2.2.2.2.1
      rw [hq] at this
      simp at this ⊢
      omega
    dsimp only
    split
    · exact State.newCrumbEntry_kept _ _ h1
    · split
      · exact State.newCrumbEntry_kept _ _ h1
      · exact State.setCrumbEntry_kept _ _ _ h1

theorem execCrumbIntervalEnd_kept {Q : List Instr} (s : State) (h0 : Kept Q s) :
    KeptOut Q (execCrumbIntervalEnd s) := by
  unfold execCrumbIntervalEnd
  try dsimp only
  repeat' first | intro _ | (with_reducible first | assumption | apply live_kept | apply State.setFlag_kept | apply Kept.foldl | apply Kept.foldl_fst | apply KeptOut.live | apply KeptOut.next) | (with_reducible refine Kept.mk rfl rfl rfl rfl ?_; with_reducible first | assumption | apply live_kept | apply State.setFlag_kept | apply Kept.foldl | apply Kept.foldl_fst) | split | dsimp only [id_eq] | with_reducible apply Kept.ite

end Sys2Proof.Machine
end

