-- ==== Sys2Proof/Laws/KeptSas.lean ====
section
/-! SUPPORT. Soundness is kept by every operation and meaning of Machine/Sas.lean. -/

namespace Sys2Proof.Machine

theorem execSasLinkup_kept {Q : List Instr} (phy : Fin 2) (rate : Fin 4) (s : State) (h0 : Kept Q s) :
    KeptOut Q (execSasLinkup phy rate s) := by
  unfold execSasLinkup
  try dsimp only
  repeat' first | intro _ | (with_reducible first | assumption | apply live_kept | apply State.setFlag_kept | apply State.wr_kept | apply State.raise_kept | apply Kept.foldl | apply Kept.foldl_fst | apply KeptOut.live | apply KeptOut.next) | (with_reducible refine Kept.mk rfl rfl rfl rfl ?_; with_reducible first | assumption | apply live_kept | apply State.setFlag_kept | apply State.wr_kept | apply State.raise_kept | apply Kept.foldl | apply Kept.foldl_fst) | split | dsimp only [id_eq] | with_reducible apply Kept.ite

theorem execSasLinkdown_kept {Q : List Instr} (phy : Fin 2) (s : State) (h0 : Kept Q s) :
    KeptOut Q (execSasLinkdown phy s) := by
  unfold execSasLinkdown
  try dsimp only
  repeat' first | intro _ | (with_reducible first | assumption | apply live_kept | apply State.setFlag_kept | apply State.wr_kept | apply State.raise_kept | apply Kept.foldl | apply Kept.foldl_fst | apply KeptOut.live | apply KeptOut.next) | (with_reducible refine Kept.mk rfl rfl rfl rfl ?_; with_reducible first | assumption | apply live_kept | apply State.setFlag_kept | apply State.wr_kept | apply State.raise_kept | apply Kept.foldl | apply Kept.foldl_fst) | split | dsimp only [id_eq] | with_reducible apply Kept.ite

theorem State.abortWhere_kept {Q : List Instr} (s : State) (p : HCmd → Bool) (h0 : Kept Q s) :
    Kept Q (State.abortWhere s p) := by
  unfold State.abortWhere
  try dsimp only
  repeat' first | intro _ | (with_reducible first | assumption | apply State.discardCmd_kept | apply Kept.foldl | apply Kept.foldl_fst) | (with_reducible refine Kept.mk rfl rfl rfl rfl ?_; with_reducible first | assumption | apply State.discardCmd_kept | apply Kept.foldl | apply Kept.foldl_fst) | split | dsimp only [id_eq] | with_reducible apply Kept.ite

theorem State.resetPort_kept {Q : List Instr} (s : State) (port : Nat) (h0 : Kept Q s) :
    Kept Q (State.resetPort s port) := by
  unfold State.resetPort
  try dsimp only
  repeat' first | intro _ | (with_reducible first | assumption | apply State.abortWhere_kept | apply State.dropSetups_kept | apply State.attention_kept | apply Kept.foldl | apply Kept.foldl_fst) | (with_reducible refine Kept.mk rfl rfl rfl rfl ?_; with_reducible first | assumption | apply State.abortWhere_kept | apply State.dropSetups_kept | apply State.attention_kept | apply Kept.foldl | apply Kept.foldl_fst) | split | dsimp only [id_eq] | with_reducible apply Kept.ite

theorem execSasHardreset_kept {Q : List Instr} (phy : Fin 2) (s : State) (h0 : Kept Q s) :
    KeptOut Q (execSasHardreset phy s) := by
  unfold execSasHardreset
  try dsimp only
  repeat' first | intro _ | (with_reducible first | assumption | apply State.resetPort_kept | apply live_kept | apply State.incSat_kept | apply State.raise_kept | apply Kept.foldl | apply Kept.foldl_fst | apply KeptOut.live | apply KeptOut.next) | (with_reducible refine Kept.mk rfl rfl rfl rfl ?_; with_reducible first | assumption | apply State.resetPort_kept | apply live_kept | apply State.incSat_kept | apply State.raise_kept | apply Kept.foldl | apply Kept.foldl_fst) | split | dsimp only [id_eq] | with_reducible apply Kept.ite

theorem execITNexusLoss_kept {Q : List Instr} (phy : Fin 2) (s : State) (h0 : Kept Q s) :
    KeptOut Q (execITNexusLoss phy s) := by
  unfold execITNexusLoss
  try dsimp only
  repeat' first | intro _ | (with_reducible first | assumption | apply live_kept | apply State.resetPort_kept | apply Kept.foldl | apply Kept.foldl_fst | apply KeptOut.live | apply KeptOut.next) | (with_reducible refine Kept.mk rfl rfl rfl rfl ?_; with_reducible first | assumption | apply live_kept | apply State.resetPort_kept | apply Kept.foldl | apply Kept.foldl_fst) | split | dsimp only [id_eq] | with_reducible apply Kept.ite

theorem execConnectionRequest_kept {Q : List Instr} (phy : Fin 2) (protocol : Fin 3) (s : State) (h0 : Kept Q s) :
    KeptOut Q (execConnectionRequest phy protocol s) := by
  unfold execConnectionRequest
  try dsimp only
  repeat' first | intro _ | (with_reducible first | assumption | apply live_kept | apply Kept.foldl | apply Kept.foldl_fst | apply KeptOut.live | apply KeptOut.next) | (with_reducible refine Kept.mk rfl rfl rfl rfl ?_; with_reducible first | assumption | apply live_kept | apply Kept.foldl | apply Kept.foldl_fst) | split | dsimp only [id_eq] | with_reducible apply Kept.ite

theorem State.saViol_kept {Q : List Instr} (s : State) (row port init tag : Nat) (h0 : Kept Q s) :
    Kept Q (State.saViol s row port init tag) := by
  unfold State.saViol
  try dsimp only
  repeat' first | intro _ | (with_reducible first | assumption | apply State.crumb_kept | apply State.wr_kept | apply State.incSat_kept | apply State.raise_kept | apply Kept.foldl | apply Kept.foldl_fst) | (with_reducible refine Kept.mk rfl rfl rfl rfl ?_; with_reducible first | assumption | apply State.crumb_kept | apply State.wr_kept | apply State.incSat_kept | apply State.raise_kept | apply Kept.foldl | apply Kept.foldl_fst) | split | dsimp only [id_eq] | with_reducible apply Kept.ite

theorem State.nak_kept {Q : List Instr} (s : State) (port : Nat) (h0 : Kept Q s) :
    Kept Q (State.nak s port) := by
  unfold State.nak
  try dsimp only
  repeat' first | intro _ | (with_reducible first | assumption | apply Kept.foldl | apply Kept.foldl_fst) | (with_reducible refine Kept.mk rfl rfl rfl rfl ?_; with_reducible first | assumption | apply Kept.foldl | apply Kept.foldl_fst) | split | dsimp only [id_eq] | with_reducible apply Kept.ite

theorem State.withNexus_kept {Q : List Instr} (s : State) (port init : Nat) (h0 : Kept Q s) :
    Kept Q (State.withNexus s port init) := by
  unfold State.withNexus
  try dsimp only
  repeat' first | intro _ | (with_reducible first | assumption | apply Kept.foldl | apply Kept.foldl_fst) | (with_reducible refine Kept.mk rfl rfl rfl rfl ?_; with_reducible first | assumption | apply Kept.foldl | apply Kept.foldl_fst) | split | dsimp only [id_eq] | with_reducible apply Kept.ite

theorem State.startSas_kept {Q : List Instr} (s : State) (slot : Nat) (c : HCmd) (h0 : Kept Q s) :
    Kept Q (State.startSas s slot c) := by
  unfold State.startSas
  try dsimp only
  repeat' first | intro _ | (with_reducible first | assumption | apply State.setCmd_kept | apply State.enqueue_kept | apply State.dropUa_kept | apply State.completeNow_kept | apply Kept.foldl | apply Kept.foldl_fst) | (with_reducible refine Kept.mk rfl rfl rfl rfl ?_; with_reducible first | assumption | apply State.setCmd_kept | apply State.enqueue_kept | apply State.dropUa_kept | apply State.completeNow_kept | apply Kept.foldl | apply Kept.foldl_fst) | split | dsimp only [id_eq] | with_reducible apply Kept.ite

theorem execSasCommandFrame_kept {Q : List Instr} (port : Fin 2) (f : CmdFrame) (s : State) (h0 : Kept Q s) :
    KeptOut Q (execSasCommandFrame port f s) := by
  unfold execSasCommandFrame
  try dsimp only
  repeat' first | intro _ | (with_reducible first | assumption | apply live_kept | apply State.saViol_kept | apply State.nak_kept | apply State.withNexus_kept | apply State.raise_kept | apply State.setCmd_kept | apply State.completeNow_kept | apply State.startSas_kept | apply Kept.foldl | apply Kept.foldl_fst | apply KeptOut.live | apply KeptOut.next) | (with_reducible refine Kept.mk rfl rfl rfl rfl ?_; with_reducible first | assumption | apply live_kept | apply State.saViol_kept | apply State.nak_kept | apply State.withNexus_kept | apply State.raise_kept | apply State.setCmd_kept | apply State.completeNow_kept | apply State.startSas_kept | apply Kept.foldl | apply Kept.foldl_fst) | split | dsimp only [id_eq] | with_reducible apply Kept.ite

theorem execXferRdySend_kept {Q : List Instr} (slot : Fin 8192) (s : State) (h0 : Kept Q s) :
    KeptOut Q (execXferRdySend slot s) := by
  unfold execXferRdySend
  try dsimp only
  repeat' first | intro _ | (with_reducible first | assumption | apply State.setCmd_kept | apply live_kept | apply Kept.foldl | apply Kept.foldl_fst | apply KeptOut.live | apply KeptOut.next) | (with_reducible refine Kept.mk rfl rfl rfl rfl ?_; with_reducible first | assumption | apply State.setCmd_kept | apply live_kept | apply Kept.foldl | apply Kept.foldl_fst) | split | dsimp only [id_eq] | with_reducible apply Kept.ite

theorem State.landSas_kept {Q : List Instr} (s : State) (slot addr : Nat) (c : HCmd) (h0 : Kept Q s) :
    Kept Q (State.landSas s slot addr c) := by
  unfold State.landSas
  try dsimp only
  repeat' first | intro _ | (with_reducible first | assumption | apply State.useUnits_kept | apply State.landPages_kept | apply State.setCmd_kept | apply State.enqueue_kept | apply Kept.foldl | apply Kept.foldl_fst) | (with_reducible refine Kept.mk rfl rfl rfl rfl ?_; with_reducible first | assumption | apply State.useUnits_kept | apply State.landPages_kept | apply State.setCmd_kept | apply State.enqueue_kept | apply Kept.foldl | apply Kept.foldl_fst) | split | dsimp only [id_eq] | with_reducible apply Kept.ite

theorem execSasDataFrame_kept {Q : List Instr} (port : Fin 2) (init tag offset : Nat) (data : List Byte) (bad : Bool) (addr : Nat) (s : State) (h0 : Kept Q s) :
    KeptOut Q (execSasDataFrame port init tag offset data bad addr s) := by
  unfold execSasDataFrame
  try dsimp only
  repeat' first | intro _ | (with_reducible first | assumption | apply live_kept | apply State.saViol_kept | apply State.nak_kept | apply State.completeNow_kept | apply State.setCmd_kept | apply State.landSas_kept | apply Kept.foldl | apply Kept.foldl_fst | apply KeptOut.live | apply KeptOut.next) | (with_reducible refine Kept.mk rfl rfl rfl rfl ?_; with_reducible first | assumption | apply live_kept | apply State.saViol_kept | apply State.nak_kept | apply State.completeNow_kept | apply State.setCmd_kept | apply State.landSas_kept | apply Kept.foldl | apply Kept.foldl_fst) | split | dsimp only [id_eq] | with_reducible apply Kept.ite

theorem execSasDataTimeout_kept {Q : List Instr} (slot : Fin 8192) (s : State) (h0 : Kept Q s) :
    KeptOut Q (execSasDataTimeout slot s) := by
  unfold execSasDataTimeout
  try dsimp only
  repeat' first | intro _ | (with_reducible first | assumption | apply live_kept | apply State.saViol_kept | apply State.completeNow_kept | apply Kept.foldl | apply Kept.foldl_fst | apply KeptOut.live | apply KeptOut.next) | (with_reducible refine Kept.mk rfl rfl rfl rfl ?_; with_reducible first | assumption | apply live_kept | apply State.saViol_kept | apply State.completeNow_kept | apply Kept.foldl | apply Kept.foldl_fst) | split | dsimp only [id_eq] | with_reducible apply Kept.ite

theorem execResponseSend_kept {Q : List Instr} (port : Fin 2) (s : State) (h0 : Kept Q s) :
    KeptOut Q (execResponseSend port s) := by
  unfold execResponseSend
  try dsimp only
  repeat' first | intro _ | (with_reducible first | assumption | apply State.take_kept | apply live_kept | apply State.answered_kept | apply Kept.foldl | apply Kept.foldl_fst | apply KeptOut.live | apply KeptOut.next) | (with_reducible refine Kept.mk rfl rfl rfl rfl ?_; with_reducible first | assumption | apply State.take_kept | apply live_kept | apply State.answered_kept | apply Kept.foldl | apply Kept.foldl_fst) | split | dsimp only [id_eq] | with_reducible apply Kept.ite

theorem State.tmDone_kept {Q : List Instr} (s : State) (port init tag code : Nat) (h0 : Kept Q s) :
    Kept Q (State.tmDone s port init tag code) := by
  unfold State.tmDone
  try dsimp only
  repeat' first | intro _ | (with_reducible first | assumption | apply Kept.foldl | apply Kept.foldl_fst) | (with_reducible refine Kept.mk rfl rfl rfl rfl ?_; with_reducible first | assumption | apply Kept.foldl | apply Kept.foldl_fst) | split | dsimp only [id_eq] | with_reducible apply Kept.ite

theorem State.tm_kept {Q : List Instr} (s : State) (port : Fin 2) (init tag code : Nat) (f : State → State) (h0 : Kept Q s) (h1 : ∀ a0, Kept Q a0 → Kept Q (f a0)) :
    KeptOut Q (State.tm s port init tag code f) := by
  unfold State.tm
  try dsimp only
  repeat' first | intro _ | (with_reducible first | assumption | apply h1 | apply live_kept | apply State.tmDone_kept | apply Kept.foldl | apply Kept.foldl_fst | apply KeptOut.live | apply KeptOut.next) | (with_reducible refine Kept.mk rfl rfl rfl rfl ?_; with_reducible first | assumption | apply h1 | apply live_kept | apply State.tmDone_kept | apply Kept.foldl | apply Kept.foldl_fst) | split | dsimp only [id_eq] | with_reducible apply Kept.ite

theorem execAbortTask_kept {Q : List Instr} (port : Fin 2) (init tag ref : Nat) (s : State) (h0 : Kept Q s) :
    KeptOut Q (execAbortTask port init tag ref s) := by
  unfold execAbortTask
  try dsimp only
  repeat' first | intro _ | (with_reducible first | assumption | apply State.tm_kept | apply State.abortWhere_kept | apply Kept.foldl | apply Kept.foldl_fst | apply KeptOut.live | apply KeptOut.next) | (with_reducible refine Kept.mk rfl rfl rfl rfl ?_; with_reducible first | assumption | apply State.tm_kept | apply State.abortWhere_kept | apply Kept.foldl | apply Kept.foldl_fst) | split | dsimp only [id_eq] | with_reducible apply Kept.ite

theorem State.abortSet_kept {Q : List Instr} (s : State) (port init lun : Nat) (h0 : Kept Q s) :
    Kept Q (State.abortSet s port init lun) := by
  unfold State.abortSet
  try dsimp only
  repeat' first | intro _ | (with_reducible first | assumption | apply State.abortWhere_kept | apply Kept.foldl | apply Kept.foldl_fst) | (with_reducible refine Kept.mk rfl rfl rfl rfl ?_; with_reducible first | assumption | apply State.abortWhere_kept | apply Kept.foldl | apply Kept.foldl_fst) | split | dsimp only [id_eq] | with_reducible apply Kept.ite

theorem execAbortTaskSet_kept {Q : List Instr} (port : Fin 2) (init tag lun : Nat) (s : State) (h0 : Kept Q s) :
    KeptOut Q (execAbortTaskSet port init tag lun s) := by
  unfold execAbortTaskSet
  try dsimp only
  repeat' first | intro _ | (with_reducible first | assumption | apply State.tm_kept | apply State.abortSet_kept | apply Kept.foldl | apply Kept.foldl_fst | apply KeptOut.live | apply KeptOut.next) | (with_reducible refine Kept.mk rfl rfl rfl rfl ?_; with_reducible first | assumption | apply State.tm_kept | apply State.abortSet_kept | apply Kept.foldl | apply Kept.foldl_fst) | split | dsimp only [id_eq] | with_reducible apply Kept.ite

theorem execClearTaskSet_kept {Q : List Instr} (port : Fin 2) (init tag lun : Nat) (s : State) (h0 : Kept Q s) :
    KeptOut Q (execClearTaskSet port init tag lun s) := by
  unfold execClearTaskSet
  try dsimp only
  repeat' first | intro _ | (with_reducible first | assumption | apply State.tm_kept | apply State.abortSet_kept | apply Kept.foldl | apply Kept.foldl_fst | apply KeptOut.live | apply KeptOut.next) | (with_reducible refine Kept.mk rfl rfl rfl rfl ?_; with_reducible first | assumption | apply State.tm_kept | apply State.abortSet_kept | apply Kept.foldl | apply Kept.foldl_fst) | split | dsimp only [id_eq] | with_reducible apply Kept.ite

theorem execLogicalUnitReset_kept {Q : List Instr} (port : Fin 2) (init tag lun : Nat) (s : State) (h0 : Kept Q s) :
    KeptOut Q (execLogicalUnitReset port init tag lun s) := by
  unfold execLogicalUnitReset
  try dsimp only
  repeat' first | intro _ | (with_reducible first | assumption | apply State.tm_kept | apply State.abortWhere_kept | apply State.dropSetups_kept | apply Kept.foldl | apply Kept.foldl_fst | apply KeptOut.live | apply KeptOut.next) | (with_reducible refine Kept.mk rfl rfl rfl rfl ?_; with_reducible first | assumption | apply State.tm_kept | apply State.abortWhere_kept | apply State.dropSetups_kept | apply Kept.foldl | apply Kept.foldl_fst) | split | dsimp only [id_eq] | with_reducible apply Kept.ite

theorem execITNexusReset_kept {Q : List Instr} (port : Fin 2) (init tag : Nat) (s : State) (h0 : Kept Q s) :
    KeptOut Q (execITNexusReset port init tag s) := by
  unfold execITNexusReset
  try dsimp only
  repeat' first | intro _ | (with_reducible first | assumption | apply State.tm_kept | apply State.abortWhere_kept | apply State.dropSetups_kept | apply State.attention_kept | apply Kept.foldl | apply Kept.foldl_fst | apply KeptOut.live | apply KeptOut.next) | (with_reducible refine Kept.mk rfl rfl rfl rfl ?_; with_reducible first | assumption | apply State.tm_kept | apply State.abortWhere_kept | apply State.dropSetups_kept | apply State.attention_kept | apply Kept.foldl | apply Kept.foldl_fst) | split | dsimp only [id_eq] | with_reducible apply Kept.ite

theorem execQueryTask_kept {Q : List Instr} (port : Fin 2) (init tag ref : Nat) (s : State) (h0 : Kept Q s) :
    KeptOut Q (execQueryTask port init tag ref s) := by
  unfold execQueryTask
  try dsimp only
  repeat' first | intro _ | (with_reducible first | assumption | apply State.tm_kept | apply Kept.foldl | apply Kept.foldl_fst | apply KeptOut.live | apply KeptOut.next) | (with_reducible refine Kept.mk rfl rfl rfl rfl ?_; with_reducible first | assumption | apply State.tm_kept | apply Kept.foldl | apply Kept.foldl_fst) | split | dsimp only [id_eq] | with_reducible apply Kept.ite

end Sys2Proof.Machine
end

