-- ==== Sys2Proof/Laws/KeptSasCmds.lean ====
section
/-! SUPPORT. Soundness is kept by every operation and meaning of Machine/SasCmds.lean. -/

namespace Sys2Proof.Machine

theorem State.scsi_kept {Q : List Instr} (s : State) (port : Fin 2) (mine least ready : HCmd → Bool) (f : State → Nat → HCmd → State) (h0 : Kept Q s) (h1 : ∀ a0 a1 a2, Kept Q a0 → Kept Q (f a0 a1 a2)) :
    KeptOut Q (State.scsi s port mine least ready f) := by
  unfold State.scsi
  try dsimp only
  repeat' first | intro _ | (with_reducible first | assumption | apply h1 | apply State.takeCmd_kept | apply State.refuseCmd_kept | apply Kept.foldl | apply Kept.foldl_fst | apply KeptOut.live | apply KeptOut.next) | (with_reducible refine Kept.mk rfl rfl rfl rfl ?_; with_reducible first | assumption | apply h1 | apply State.takeCmd_kept | apply State.refuseCmd_kept | apply Kept.foldl | apply Kept.foldl_fst) | split | dsimp only [id_eq] | with_reducible apply Kept.ite

theorem State.onLun_kept {Q : List Instr} (s : State) (slot : Nat) (c : HCmd) (f : Nat → State) (h0 : Kept Q s) (h1 : ∀ a0, Kept Q (f a0)) :
    Kept Q (State.onLun s slot c f) := by
  unfold State.onLun
  try dsimp only
  repeat' first | intro _ | (with_reducible first | assumption | apply h1 | apply State.refuseCmd_kept | apply Kept.foldl | apply Kept.foldl_fst) | (with_reducible refine Kept.mk rfl rfl rfl rfl ?_; with_reducible first | assumption | apply h1 | apply State.refuseCmd_kept | apply Kept.foldl | apply Kept.foldl_fst) | split | dsimp only [id_eq] | with_reducible apply Kept.ite

theorem State.onDevice_kept {Q : List Instr} (s : State) (slot : Nat) (c : HCmd) (f : State) (h0 : Kept Q s) (h1 : Kept Q f) :
    Kept Q (State.onDevice s slot c f) := by
  unfold State.onDevice
  try dsimp only
  repeat' first | intro _ | (with_reducible first | assumption | apply State.refuseCmd_kept | apply Kept.foldl | apply Kept.foldl_fst) | (with_reducible refine Kept.mk rfl rfl rfl rfl ?_; with_reducible first | assumption | apply State.refuseCmd_kept | apply Kept.foldl | apply Kept.foldl_fst) | split | dsimp only [id_eq] | with_reducible apply Kept.ite

theorem State.onAnyLun_kept {Q : List Instr} (s : State) (slot : Nat) (c : HCmd) (f : State) (h0 : Kept Q s) (h1 : Kept Q f) :
    Kept Q (State.onAnyLun s slot c f) := by
  unfold State.onAnyLun
  try dsimp only
  repeat' first | intro _ | (with_reducible first | assumption | apply State.onLun_kept | apply Kept.foldl | apply Kept.foldl_fst) | (with_reducible refine Kept.mk rfl rfl rfl rfl ?_; with_reducible first | assumption | apply State.onLun_kept | apply Kept.foldl | apply Kept.foldl_fst) | split | dsimp only [id_eq] | with_reducible apply Kept.ite

theorem State.finishData_kept {Q : List Instr} (s : State) (slot n : Nat) (bs : List Byte) (h0 : Kept Q s) :
    Kept Q (State.finishData s slot n bs) := by
  unfold State.finishData
  try dsimp only
  repeat' first | intro _ | (with_reducible first | assumption | apply State.finish_kept | apply State.take_kept | apply Kept.foldl | apply Kept.foldl_fst) | (with_reducible refine Kept.mk rfl rfl rfl rfl ?_; with_reducible first | assumption | apply State.finish_kept | apply State.take_kept | apply Kept.foldl | apply Kept.foldl_fst) | split | dsimp only [id_eq] | with_reducible apply Kept.ite

theorem execTestUnitReady_kept {Q : List Instr} (port : Fin 2) (s : State) (h0 : Kept Q s) :
    KeptOut Q (execTestUnitReady port s) := by
  unfold execTestUnitReady
  try dsimp only
  repeat' first | intro _ | (with_reducible first | assumption | apply State.scsi_kept | apply State.onLun_kept | apply State.finish_kept | apply Kept.foldl | apply Kept.foldl_fst | apply KeptOut.live | apply KeptOut.next) | (with_reducible refine Kept.mk rfl rfl rfl rfl ?_; with_reducible first | assumption | apply State.scsi_kept | apply State.onLun_kept | apply State.finish_kept | apply Kept.foldl | apply Kept.foldl_fst) | split | dsimp only [id_eq] | with_reducible apply Kept.ite

theorem execRequestSense_kept {Q : List Instr} (port : Fin 2) (s : State) (h0 : Kept Q s) :
    KeptOut Q (execRequestSense port s) := by
  unfold execRequestSense
  try dsimp only
  repeat' first | intro _ | (with_reducible first | assumption | apply State.scsi_kept | apply State.finishData_kept | apply State.refuseCmd_kept | apply Kept.foldl | apply Kept.foldl_fst | apply KeptOut.live | apply KeptOut.next) | (with_reducible refine Kept.mk rfl rfl rfl rfl ?_; with_reducible first | assumption | apply State.scsi_kept | apply State.finishData_kept | apply State.refuseCmd_kept | apply Kept.foldl | apply Kept.foldl_fst) | split | dsimp only [id_eq] | with_reducible apply Kept.ite

theorem execInquiry_kept {Q : List Instr} (port : Fin 2) (s : State) (h0 : Kept Q s) :
    KeptOut Q (execInquiry port s) := by
  unfold execInquiry
  try dsimp only
  repeat' first | intro _ | (with_reducible first | assumption | apply State.scsi_kept | apply State.finishData_kept | apply State.refuseCmd_kept | apply Kept.foldl | apply Kept.foldl_fst | apply KeptOut.live | apply KeptOut.next) | (with_reducible refine Kept.mk rfl rfl rfl rfl ?_; with_reducible first | assumption | apply State.scsi_kept | apply State.finishData_kept | apply State.refuseCmd_kept | apply Kept.foldl | apply Kept.foldl_fst) | split | dsimp only [id_eq] | with_reducible apply Kept.ite

theorem State.immediate_kept {Q : List Instr} (s : State) (slot : Nat) (h0 : Kept Q s) :
    Kept Q (State.immediate s slot) := by
  unfold State.immediate
  try dsimp only
  repeat' first | intro _ | (with_reducible first | assumption | apply State.endOp_kept | apply Kept.foldl | apply Kept.foldl_fst) | (with_reducible refine Kept.mk rfl rfl rfl rfl ?_; with_reducible first | assumption | apply State.endOp_kept | apply Kept.foldl | apply Kept.foldl_fst) | split | dsimp only [id_eq] | with_reducible apply Kept.ite

theorem State.powerCommand_kept {Q : List Instr} (s : State) (slot ps : Nat) (h0 : Kept Q s) :
    Kept Q (State.powerCommand s slot ps) := by
  unfold State.powerCommand
  try dsimp only
  repeat' first | intro _ | (with_reducible first | assumption | apply State.psRequest_kept | apply State.finish_kept | apply State.addOp_kept | apply Kept.foldl | apply Kept.foldl_fst) | (with_reducible refine Kept.mk rfl rfl rfl rfl ?_; with_reducible first | assumption | apply State.psRequest_kept | apply State.finish_kept | apply State.addOp_kept | apply Kept.foldl | apply Kept.foldl_fst) | split | dsimp only [id_eq] | with_reducible apply Kept.ite

theorem execStartStopUnit_kept {Q : List Instr} (port : Fin 2) (ins : Option Cartridge) (s : State) (h0 : Kept Q s) :
    KeptOut Q (execStartStopUnit port ins s) := by
  unfold execStartStopUnit
  try dsimp only
  repeat' first | intro _ | (with_reducible first | assumption | apply State.scsi_kept | apply State.run_kept | apply State.immediate_kept | apply State.refuseCmd_kept | apply State.loadCommand_kept | apply State.ejectCommand_kept | apply State.powerCommand_kept | apply State.onDevice_kept | apply State.onLun_kept | apply Kept.foldl | apply Kept.foldl_fst | apply KeptOut.live | apply KeptOut.next) | (with_reducible refine Kept.mk rfl rfl rfl rfl ?_; with_reducible first | assumption | apply State.scsi_kept | apply State.run_kept | apply State.immediate_kept | apply State.refuseCmd_kept | apply State.loadCommand_kept | apply State.ejectCommand_kept | apply State.powerCommand_kept | apply State.onDevice_kept | apply State.onLun_kept | apply Kept.foldl | apply Kept.foldl_fst) | split | dsimp only [id_eq] | with_reducible apply Kept.ite

theorem execSendDiagnostic_kept {Q : List Instr} (port : Fin 2) (failed : Nat) (s : State) (h0 : Kept Q s) :
    KeptOut Q (execSendDiagnostic port failed s) := by
  unfold execSendDiagnostic
  try dsimp only
  repeat' first | intro _ | (with_reducible first | assumption | apply State.scsi_kept | apply State.onLun_kept | apply State.testCommand_kept | apply Kept.foldl | apply Kept.foldl_fst | apply KeptOut.live | apply KeptOut.next) | (with_reducible refine Kept.mk rfl rfl rfl rfl ?_; with_reducible first | assumption | apply State.scsi_kept | apply State.onLun_kept | apply State.testCommand_kept | apply Kept.foldl | apply Kept.foldl_fst) | split | dsimp only [id_eq] | with_reducible apply Kept.ite

theorem State.scsiRead_kept {Q : List Instr} (s : State) (port : Fin 2) (opc : Nat) (verify : Bool) (h0 : Kept Q s) :
    KeptOut Q (State.scsiRead s port opc verify) := by
  unfold State.scsiRead
  try dsimp only
  repeat' first | intro _ | (with_reducible first | assumption | apply State.scsi_kept | apply State.onLun_kept | apply State.refuseCmd_kept | apply State.finish_kept | apply State.readCommand_kept | apply Kept.foldl | apply Kept.foldl_fst | apply KeptOut.live | apply KeptOut.next) | (with_reducible refine Kept.mk rfl rfl rfl rfl ?_; with_reducible first | assumption | apply State.scsi_kept | apply State.onLun_kept | apply State.refuseCmd_kept | apply State.finish_kept | apply State.readCommand_kept | apply Kept.foldl | apply Kept.foldl_fst) | split | dsimp only [id_eq] | with_reducible apply Kept.ite

theorem execRead_10_kept {Q : List Instr} (port : Fin 2) (s : State) (h0 : Kept Q s) :
    KeptOut Q (execRead_10 port s) := by
  unfold execRead_10
  try dsimp only
  repeat' first | intro _ | (with_reducible first | assumption | apply State.scsiRead_kept | apply Kept.foldl | apply Kept.foldl_fst | apply KeptOut.live | apply KeptOut.next) | (with_reducible refine Kept.mk rfl rfl rfl rfl ?_; with_reducible first | assumption | apply State.scsiRead_kept | apply Kept.foldl | apply Kept.foldl_fst) | split | dsimp only [id_eq] | with_reducible apply Kept.ite

theorem execRead_16_kept {Q : List Instr} (port : Fin 2) (s : State) (h0 : Kept Q s) :
    KeptOut Q (execRead_16 port s) := by
  unfold execRead_16
  try dsimp only
  repeat' first | intro _ | (with_reducible first | assumption | apply State.scsiRead_kept | apply Kept.foldl | apply Kept.foldl_fst | apply KeptOut.live | apply KeptOut.next) | (with_reducible refine Kept.mk rfl rfl rfl rfl ?_; with_reducible first | assumption | apply State.scsiRead_kept | apply Kept.foldl | apply Kept.foldl_fst) | split | dsimp only [id_eq] | with_reducible apply Kept.ite

theorem execVerify_10_kept {Q : List Instr} (port : Fin 2) (s : State) (h0 : Kept Q s) :
    KeptOut Q (execVerify_10 port s) := by
  unfold execVerify_10
  try dsimp only
  repeat' first | intro _ | (with_reducible first | assumption | apply State.scsiRead_kept | apply Kept.foldl | apply Kept.foldl_fst | apply KeptOut.live | apply KeptOut.next) | (with_reducible refine Kept.mk rfl rfl rfl rfl ?_; with_reducible first | assumption | apply State.scsiRead_kept | apply Kept.foldl | apply Kept.foldl_fst) | split | dsimp only [id_eq] | with_reducible apply Kept.ite

theorem execVerify_16_kept {Q : List Instr} (port : Fin 2) (s : State) (h0 : Kept Q s) :
    KeptOut Q (execVerify_16 port s) := by
  unfold execVerify_16
  try dsimp only
  repeat' first | intro _ | (with_reducible first | assumption | apply State.scsiRead_kept | apply Kept.foldl | apply Kept.foldl_fst | apply KeptOut.live | apply KeptOut.next) | (with_reducible refine Kept.mk rfl rfl rfl rfl ?_; with_reducible first | assumption | apply State.scsiRead_kept | apply Kept.foldl | apply Kept.foldl_fst) | split | dsimp only [id_eq] | with_reducible apply Kept.ite

theorem State.scsiWrite_kept {Q : List Instr} (s : State) (port : Fin 2) (opc : Nat) (h0 : Kept Q s) :
    KeptOut Q (State.scsiWrite s port opc) := by
  unfold State.scsiWrite
  try dsimp only
  repeat' first | intro _ | (with_reducible first | assumption | apply State.scsi_kept | apply State.onLun_kept | apply State.writeCommand_kept | apply Kept.foldl | apply Kept.foldl_fst | apply KeptOut.live | apply KeptOut.next) | (with_reducible refine Kept.mk rfl rfl rfl rfl ?_; with_reducible first | assumption | apply State.scsi_kept | apply State.onLun_kept | apply State.writeCommand_kept | apply Kept.foldl | apply Kept.foldl_fst) | split | dsimp only [id_eq] | with_reducible apply Kept.ite

theorem execWrite_10_kept {Q : List Instr} (port : Fin 2) (s : State) (h0 : Kept Q s) :
    KeptOut Q (execWrite_10 port s) := by
  unfold execWrite_10
  try dsimp only
  repeat' first | intro _ | (with_reducible first | assumption | apply State.scsiWrite_kept | apply Kept.foldl | apply Kept.foldl_fst | apply KeptOut.live | apply KeptOut.next) | (with_reducible refine Kept.mk rfl rfl rfl rfl ?_; with_reducible first | assumption | apply State.scsiWrite_kept | apply Kept.foldl | apply Kept.foldl_fst) | split | dsimp only [id_eq] | with_reducible apply Kept.ite

theorem execWrite_16_kept {Q : List Instr} (port : Fin 2) (s : State) (h0 : Kept Q s) :
    KeptOut Q (execWrite_16 port s) := by
  unfold execWrite_16
  try dsimp only
  repeat' first | intro _ | (with_reducible first | assumption | apply State.scsiWrite_kept | apply Kept.foldl | apply Kept.foldl_fst | apply KeptOut.live | apply KeptOut.next) | (with_reducible refine Kept.mk rfl rfl rfl rfl ?_; with_reducible first | assumption | apply State.scsiWrite_kept | apply Kept.foldl | apply Kept.foldl_fst) | split | dsimp only [id_eq] | with_reducible apply Kept.ite

theorem State.scsiFlush_kept {Q : List Instr} (s : State) (port : Fin 2) (opc : Nat) (h0 : Kept Q s) :
    KeptOut Q (State.scsiFlush s port opc) := by
  unfold State.scsiFlush
  try dsimp only
  repeat' first | intro _ | (with_reducible first | assumption | apply State.scsi_kept | apply State.onLun_kept | apply State.flushCommand_kept | apply Kept.foldl | apply Kept.foldl_fst | apply KeptOut.live | apply KeptOut.next) | (with_reducible refine Kept.mk rfl rfl rfl rfl ?_; with_reducible first | assumption | apply State.scsi_kept | apply State.onLun_kept | apply State.flushCommand_kept | apply Kept.foldl | apply Kept.foldl_fst) | split | dsimp only [id_eq] | with_reducible apply Kept.ite

theorem execSynchronizeCache_10_kept {Q : List Instr} (port : Fin 2) (s : State) (h0 : Kept Q s) :
    KeptOut Q (execSynchronizeCache_10 port s) := by
  unfold execSynchronizeCache_10
  try dsimp only
  repeat' first | intro _ | (with_reducible first | assumption | apply State.scsiFlush_kept | apply Kept.foldl | apply Kept.foldl_fst | apply KeptOut.live | apply KeptOut.next) | (with_reducible refine Kept.mk rfl rfl rfl rfl ?_; with_reducible first | assumption | apply State.scsiFlush_kept | apply Kept.foldl | apply Kept.foldl_fst) | split | dsimp only [id_eq] | with_reducible apply Kept.ite

theorem execSynchronizeCache_16_kept {Q : List Instr} (port : Fin 2) (s : State) (h0 : Kept Q s) :
    KeptOut Q (execSynchronizeCache_16 port s) := by
  unfold execSynchronizeCache_16
  try dsimp only
  repeat' first | intro _ | (with_reducible first | assumption | apply State.scsiFlush_kept | apply Kept.foldl | apply Kept.foldl_fst | apply KeptOut.live | apply KeptOut.next) | (with_reducible refine Kept.mk rfl rfl rfl rfl ?_; with_reducible first | assumption | apply State.scsiFlush_kept | apply Kept.foldl | apply Kept.foldl_fst) | split | dsimp only [id_eq] | with_reducible apply Kept.ite

theorem execLogSense_kept {Q : List Instr} (port : Fin 2) (s : State) (h0 : Kept Q s) :
    KeptOut Q (execLogSense port s) := by
  unfold execLogSense
  try dsimp only
  repeat' first | intro _ | (with_reducible first | assumption | apply State.scsi_kept | apply State.onAnyLun_kept | apply State.refuseCmd_kept | apply State.finishData_kept | apply Kept.foldl | apply Kept.foldl_fst | apply KeptOut.live | apply KeptOut.next) | (with_reducible refine Kept.mk rfl rfl rfl rfl ?_; with_reducible first | assumption | apply State.scsi_kept | apply State.onAnyLun_kept | apply State.refuseCmd_kept | apply State.finishData_kept | apply Kept.foldl | apply Kept.foldl_fst) | split | dsimp only [id_eq] | with_reducible apply Kept.ite

theorem execModeSense_10_kept {Q : List Instr} (port : Fin 2) (s : State) (h0 : Kept Q s) :
    KeptOut Q (execModeSense_10 port s) := by
  unfold execModeSense_10
  try dsimp only
  repeat' first | intro _ | (with_reducible first | assumption | apply State.scsi_kept | apply State.onLun_kept | apply State.refuseCmd_kept | apply State.finishData_kept | apply Kept.foldl | apply Kept.foldl_fst | apply KeptOut.live | apply KeptOut.next) | (with_reducible refine Kept.mk rfl rfl rfl rfl ?_; with_reducible first | assumption | apply State.scsi_kept | apply State.onLun_kept | apply State.refuseCmd_kept | apply State.finishData_kept | apply Kept.foldl | apply Kept.foldl_fst) | split | dsimp only [id_eq] | with_reducible apply Kept.ite

theorem State.modeSet_kept {Q : List Instr} (s : State) (c : HCmd) (p : Nat × List Byte) (h0 : Kept Q s) :
    Kept Q (State.modeSet s c p) := by
  unfold State.modeSet
  try dsimp only
  repeat' first | intro _ | (with_reducible first | assumption | apply State.take_kept | apply Kept.foldl | apply Kept.foldl_fst) | (with_reducible refine Kept.mk rfl rfl rfl rfl ?_; with_reducible first | assumption | apply State.take_kept | apply Kept.foldl | apply Kept.foldl_fst) | split | dsimp only [id_eq] | with_reducible apply Kept.ite

theorem execModeSelect_10_kept {Q : List Instr} (port : Fin 2) (s : State) (h0 : Kept Q s) :
    KeptOut Q (execModeSelect_10 port s) := by
  unfold execModeSelect_10
  try dsimp only
  repeat' first | intro _ | (with_reducible first | assumption | apply State.scsi_kept | apply State.onLun_kept | apply State.take_kept | apply State.refuseCmd_kept | apply State.finish_kept | apply State.modeSet_kept | apply State.attention_kept | apply Kept.foldl | apply Kept.foldl_fst | apply KeptOut.live | apply KeptOut.next) | (with_reducible refine Kept.mk rfl rfl rfl rfl ?_; with_reducible first | assumption | apply State.scsi_kept | apply State.onLun_kept | apply State.take_kept | apply State.refuseCmd_kept | apply State.finish_kept | apply State.modeSet_kept | apply State.attention_kept | apply Kept.foldl | apply Kept.foldl_fst) | split | dsimp only [id_eq] | with_reducible apply Kept.ite

theorem State.scsiZone_kept {Q : List Instr} (s : State) (port : Fin 2) (act : Nat) (a : ZAction) (h0 : Kept Q s) :
    KeptOut Q (State.scsiZone s port act a) := by
  unfold State.scsiZone
  try dsimp only
  repeat' first | intro _ | (with_reducible first | assumption | apply State.scsi_kept | apply State.finish_kept | apply State.onLun_kept | apply State.zoneCommand_kept | apply Kept.foldl | apply Kept.foldl_fst | apply KeptOut.live | apply KeptOut.next) | (with_reducible refine Kept.mk rfl rfl rfl rfl ?_; with_reducible first | assumption | apply State.scsi_kept | apply State.finish_kept | apply State.onLun_kept | apply State.zoneCommand_kept | apply Kept.foldl | apply Kept.foldl_fst) | split | dsimp only [id_eq] | with_reducible apply Kept.ite

theorem execCloseZone_kept {Q : List Instr} (port : Fin 2) (s : State) (h0 : Kept Q s) :
    KeptOut Q (execCloseZone port s) := by
  unfold execCloseZone
  try dsimp only
  repeat' first | intro _ | (with_reducible first | assumption | apply State.scsiZone_kept | apply Kept.foldl | apply Kept.foldl_fst | apply KeptOut.live | apply KeptOut.next) | (with_reducible refine Kept.mk rfl rfl rfl rfl ?_; with_reducible first | assumption | apply State.scsiZone_kept | apply Kept.foldl | apply Kept.foldl_fst) | split | dsimp only [id_eq] | with_reducible apply Kept.ite

theorem execFinishZone_kept {Q : List Instr} (port : Fin 2) (s : State) (h0 : Kept Q s) :
    KeptOut Q (execFinishZone port s) := by
  unfold execFinishZone
  try dsimp only
  repeat' first | intro _ | (with_reducible first | assumption | apply State.scsiZone_kept | apply State.finish_kept | apply Kept.foldl | apply Kept.foldl_fst | apply KeptOut.live | apply KeptOut.next) | (with_reducible refine Kept.mk rfl rfl rfl rfl ?_; with_reducible first | assumption | apply State.scsiZone_kept | apply State.finish_kept | apply Kept.foldl | apply Kept.foldl_fst) | split | dsimp only [id_eq] | with_reducible apply Kept.ite

theorem execOpenZone_kept {Q : List Instr} (port : Fin 2) (s : State) (h0 : Kept Q s) :
    KeptOut Q (execOpenZone port s) := by
  unfold execOpenZone
  try dsimp only
  repeat' first | intro _ | (with_reducible first | assumption | apply State.scsiZone_kept | apply Kept.foldl | apply Kept.foldl_fst | apply KeptOut.live | apply KeptOut.next) | (with_reducible refine Kept.mk rfl rfl rfl rfl ?_; with_reducible first | assumption | apply State.scsiZone_kept | apply Kept.foldl | apply Kept.foldl_fst) | split | dsimp only [id_eq] | with_reducible apply Kept.ite

theorem execResetWritePointer_kept {Q : List Instr} (port : Fin 2) (s : State) (h0 : Kept Q s) :
    KeptOut Q (execResetWritePointer port s) := by
  unfold execResetWritePointer
  try dsimp only
  repeat' first | intro _ | (with_reducible first | assumption | apply State.scsiZone_kept | apply Kept.foldl | apply Kept.foldl_fst | apply KeptOut.live | apply KeptOut.next) | (with_reducible refine Kept.mk rfl rfl rfl rfl ?_; with_reducible first | assumption | apply State.scsiZone_kept | apply Kept.foldl | apply Kept.foldl_fst) | split | dsimp only [id_eq] | with_reducible apply Kept.ite

theorem execReportZones_kept {Q : List Instr} (port : Fin 2) (s : State) (h0 : Kept Q s) :
    KeptOut Q (execReportZones port s) := by
  unfold execReportZones
  try dsimp only
  repeat' first | intro _ | (with_reducible first | assumption | apply State.scsi_kept | apply State.onLun_kept | apply State.refuseCmd_kept | apply State.finish_kept | apply Kept.foldl | apply Kept.foldl_fst | apply KeptOut.live | apply KeptOut.next) | (with_reducible refine Kept.mk rfl rfl rfl rfl ?_; with_reducible first | assumption | apply State.scsi_kept | apply State.onLun_kept | apply State.refuseCmd_kept | apply State.finish_kept | apply Kept.foldl | apply Kept.foldl_fst) | split | dsimp only [id_eq] | with_reducible apply Kept.ite

theorem execReadCapacity_16_kept {Q : List Instr} (port : Fin 2) (s : State) (h0 : Kept Q s) :
    KeptOut Q (execReadCapacity_16 port s) := by
  unfold execReadCapacity_16
  try dsimp only
  repeat' first | intro _ | (with_reducible first | assumption | apply State.scsi_kept | apply State.onLun_kept | apply State.finishData_kept | apply Kept.foldl | apply Kept.foldl_fst | apply KeptOut.live | apply KeptOut.next) | (with_reducible refine Kept.mk rfl rfl rfl rfl ?_; with_reducible first | assumption | apply State.scsi_kept | apply State.onLun_kept | apply State.finishData_kept | apply Kept.foldl | apply Kept.foldl_fst) | split | dsimp only [id_eq] | with_reducible apply Kept.ite

theorem execReportLuns_kept {Q : List Instr} (port : Fin 2) (s : State) (h0 : Kept Q s) :
    KeptOut Q (execReportLuns port s) := by
  unfold execReportLuns
  try dsimp only
  repeat' first | intro _ | (with_reducible first | assumption | apply State.scsi_kept | apply State.finishData_kept | apply State.refuseCmd_kept | apply Kept.foldl | apply Kept.foldl_fst | apply KeptOut.live | apply KeptOut.next) | (with_reducible refine Kept.mk rfl rfl rfl rfl ?_; with_reducible first | assumption | apply State.scsi_kept | apply State.finishData_kept | apply State.refuseCmd_kept | apply Kept.foldl | apply Kept.foldl_fst) | split | dsimp only [id_eq] | with_reducible apply Kept.ite

theorem execReportSupportedOpcodes_kept {Q : List Instr} (port : Fin 2) (s : State) (h0 : Kept Q s) :
    KeptOut Q (execReportSupportedOpcodes port s) := by
  unfold execReportSupportedOpcodes
  try dsimp only
  repeat' first | intro _ | (with_reducible first | assumption | apply State.scsi_kept | apply State.onLun_kept | apply State.finishData_kept | apply State.refuseCmd_kept | apply Kept.foldl | apply Kept.foldl_fst | apply KeptOut.live | apply KeptOut.next) | (with_reducible refine Kept.mk rfl rfl rfl rfl ?_; with_reducible first | assumption | apply State.scsi_kept | apply State.onLun_kept | apply State.finishData_kept | apply State.refuseCmd_kept | apply Kept.foldl | apply Kept.foldl_fst) | split | dsimp only [id_eq] | with_reducible apply Kept.ite

theorem execSasBake_kept {Q : List Instr} (port : Fin 2) (s : State) (h0 : Kept Q s) :
    KeptOut Q (execSasBake port s) := by
  unfold execSasBake
  try dsimp only
  repeat' first | intro _ | (with_reducible first | assumption | apply State.scsi_kept | apply State.onDevice_kept | apply State.bakeCommand_kept | apply Kept.foldl | apply Kept.foldl_fst | apply KeptOut.live | apply KeptOut.next) | (with_reducible refine Kept.mk rfl rfl rfl rfl ?_; with_reducible first | assumption | apply State.scsi_kept | apply State.onDevice_kept | apply State.bakeCommand_kept | apply Kept.foldl | apply Kept.foldl_fst) | split | dsimp only [id_eq] | with_reducible apply Kept.ite

theorem execPartition_kept {Q : List Instr} (port : Fin 2) (s : State) (h0 : Kept Q s) :
    KeptOut Q (execPartition port s) := by
  unfold execPartition
  try dsimp only
  repeat' first | intro _ | (with_reducible first | assumption | apply State.scsi_kept | apply State.onDevice_kept | apply State.refuseCmd_kept | apply State.createCommand_kept | apply State.finishData_kept | apply State.deleteCommand_kept | apply State.attachCommand_kept | apply State.detachCommand_kept | apply Kept.foldl | apply Kept.foldl_fst | apply KeptOut.live | apply KeptOut.next) | (with_reducible refine Kept.mk rfl rfl rfl rfl ?_; with_reducible first | assumption | apply State.scsi_kept | apply State.onDevice_kept | apply State.refuseCmd_kept | apply State.createCommand_kept | apply State.finishData_kept | apply State.deleteCommand_kept | apply State.attachCommand_kept | apply State.detachCommand_kept | apply Kept.foldl | apply Kept.foldl_fst) | split | dsimp only [id_eq] | with_reducible apply Kept.ite

theorem execSasSession_kept {Q : List Instr} (port : Fin 2) (s : State) (h0 : Kept Q s) :
    KeptOut Q (execSasSession port s) := by
  unfold execSasSession
  try dsimp only
  repeat' first | intro _ | (with_reducible first | assumption | apply State.scsi_kept | apply State.onDevice_kept | apply State.sessionCommand_kept | apply Kept.foldl | apply Kept.foldl_fst | apply KeptOut.live | apply KeptOut.next) | (with_reducible refine Kept.mk rfl rfl rfl rfl ?_; with_reducible first | assumption | apply State.scsi_kept | apply State.onDevice_kept | apply State.sessionCommand_kept | apply Kept.foldl | apply Kept.foldl_fst) | split | dsimp only [id_eq] | with_reducible apply Kept.ite

theorem execRecordingProfile_kept {Q : List Instr} (port : Fin 2) (s : State) (h0 : Kept Q s) :
    KeptOut Q (execRecordingProfile port s) := by
  unfold execRecordingProfile
  try dsimp only
  repeat' first | intro _ | (with_reducible first | assumption | apply State.scsi_kept | apply State.onDevice_kept | apply State.setParams_kept | apply State.take_kept | apply State.finish_kept | apply Kept.foldl | apply Kept.foldl_fst | apply KeptOut.live | apply KeptOut.next) | (with_reducible refine Kept.mk rfl rfl rfl rfl ?_; with_reducible first | assumption | apply State.scsi_kept | apply State.onDevice_kept | apply State.setParams_kept | apply State.take_kept | apply State.finish_kept | apply Kept.foldl | apply Kept.foldl_fst) | split | dsimp only [id_eq] | with_reducible apply Kept.ite

theorem execTimecode_kept {Q : List Instr} (port : Fin 2) (s : State) (h0 : Kept Q s) :
    KeptOut Q (execTimecode port s) := by
  unfold execTimecode
  try dsimp only
  repeat' first | intro _ | (with_reducible first | assumption | apply State.scsi_kept | apply State.onDevice_kept | apply State.timecodeSet_kept | apply State.take_kept | apply State.finish_kept | apply Kept.foldl | apply Kept.foldl_fst | apply KeptOut.live | apply KeptOut.next) | (with_reducible refine Kept.mk rfl rfl rfl rfl ?_; with_reducible first | assumption | apply State.scsi_kept | apply State.onDevice_kept | apply State.timecodeSet_kept | apply State.take_kept | apply State.finish_kept | apply Kept.foldl | apply Kept.foldl_fst) | split | dsimp only [id_eq] | with_reducible apply Kept.ite

theorem execRoiSetup_kept {Q : List Instr} (port : Fin 2) (s : State) (h0 : Kept Q s) :
    KeptOut Q (execRoiSetup port s) := by
  unfold execRoiSetup
  try dsimp only
  repeat' first | intro _ | (with_reducible first | assumption | apply State.scsi_kept | apply State.onLun_kept | apply State.refuseCmd_kept | apply State.dropSetups_kept | apply State.finish_kept | apply Kept.foldl | apply Kept.foldl_fst | apply KeptOut.live | apply KeptOut.next) | (with_reducible refine Kept.mk rfl rfl rfl rfl ?_; with_reducible first | assumption | apply State.scsi_kept | apply State.onLun_kept | apply State.refuseCmd_kept | apply State.dropSetups_kept | apply State.finish_kept | apply Kept.foldl | apply Kept.foldl_fst) | split | dsimp only [id_eq] | with_reducible apply Kept.ite

theorem execRoiRead_kept {Q : List Instr} (port : Fin 2) (s : State) (h0 : Kept Q s) :
    KeptOut Q (execRoiRead port s) := by
  unfold execRoiRead
  try dsimp only
  repeat' first | intro _ | (with_reducible first | assumption | apply State.scsi_kept | apply State.onLun_kept | apply State.refuseCmd_kept | apply State.pullCommand_kept | apply Kept.foldl | apply Kept.foldl_fst | apply KeptOut.live | apply KeptOut.next) | (with_reducible refine Kept.mk rfl rfl rfl rfl ?_; with_reducible first | assumption | apply State.scsi_kept | apply State.onLun_kept | apply State.refuseCmd_kept | apply State.pullCommand_kept | apply Kept.foldl | apply Kept.foldl_fst) | split | dsimp only [id_eq] | with_reducible apply Kept.ite

theorem execSasForwarded_kept {Q : List Instr} (port : Fin 2) (s : State) (h0 : Kept Q s) :
    KeptOut Q (execSasForwarded port s) := by
  unfold execSasForwarded
  try dsimp only
  repeat' first | intro _ | (with_reducible first | assumption | apply State.takeCmd_kept | apply State.onDevice_kept | apply State.forward_kept | apply Kept.foldl | apply Kept.foldl_fst | apply KeptOut.live | apply KeptOut.next) | (with_reducible refine Kept.mk rfl rfl rfl rfl ?_; with_reducible first | assumption | apply State.takeCmd_kept | apply State.onDevice_kept | apply State.forward_kept | apply Kept.foldl | apply Kept.foldl_fst) | split | dsimp only [id_eq] | with_reducible apply Kept.ite

end Sys2Proof.Machine
end

