-- ==== Sys2Proof/Laws/KeptStart.lean ====
section
/-! SUPPORT. Soundness is kept by every operation and meaning of Machine/Start.lean. -/

namespace Sys2Proof.Machine

theorem State.dropWriting_kept {Q : List Instr} (s : State) (h0 : Kept Q s) :
    Kept Q (State.dropWriting s) := by
  unfold State.dropWriting
  try dsimp only
  repeat' first | intro _ | (with_reducible first | assumption | apply State.setPos_kept | apply Kept.foldl | apply Kept.foldl_fst) | (with_reducible refine Kept.mk rfl rfl rfl rfl ?_; with_reducible first | assumption | apply State.setPos_kept | apply Kept.foldl | apply Kept.foldl_fst) | split | dsimp only [id_eq] | with_reducible apply Kept.ite

theorem State.dropNor_kept {Q : List Instr} (s : State) (h0 : Kept Q s) :
    Kept Q (State.dropNor s) := by
  unfold State.dropNor
  try dsimp only
  repeat' first | intro _ | (with_reducible first | assumption | apply State.norFail_kept | apply Kept.foldl | apply Kept.foldl_fst) | (with_reducible refine Kept.mk rfl rfl rfl rfl ?_; with_reducible first | assumption | apply State.norFail_kept | apply Kept.foldl | apply Kept.foldl_fst) | split | dsimp only [id_eq] | with_reducible apply Kept.ite

theorem State.deviceReset_kept {Q : List Instr} (s : State) (cause : Nat) (h0 : Kept Q s) :
    Kept Q (State.deviceReset s cause) := by
  have h : Kept Q (s.dropWriting.dropNor) := State.dropNor_kept _ (State.dropWriting_kept _ h0)
  unfold State.deviceReset
  refine State.wr_kept _ _ _ ⟨h.1, ?_, ?_, ⟨rfl, ?_⟩, ?_, Nat.zero_le _, h.2.2.2.2.2.2⟩
  · exact Tbl.wf_filter memDefault _ _ h.2.1
  · exact Tbl.rising_filter _ _ _ h.2.2.1
  · intro e he; cases he
  · intro e he; cases he

theorem execResetNLow_kept {Q : List Instr} (s : State) (h0 : Kept Q s) :
    KeptOut Q (execResetNLow s) := by
  unfold execResetNLow
  try dsimp only
  repeat' first | intro _ | (with_reducible first | assumption | apply State.deviceReset_kept | apply Kept.foldl | apply Kept.foldl_fst | apply KeptOut.live | apply KeptOut.next) | (with_reducible refine Kept.mk rfl rfl rfl rfl ?_; with_reducible first | assumption | apply State.deviceReset_kept | apply Kept.foldl | apply Kept.foldl_fst) | split | dsimp only [id_eq] | with_reducible apply Kept.ite

theorem execSupplyFall_kept {Q : List Instr} (s : State) (h0 : Kept Q s) :
    KeptOut Q (execSupplyFall s) := by
  unfold execSupplyFall
  try dsimp only
  repeat' first | intro _ | (with_reducible first | assumption | apply State.deviceReset_kept | apply Kept.foldl | apply Kept.foldl_fst | apply KeptOut.live | apply KeptOut.next) | (with_reducible refine Kept.mk rfl rfl rfl rfl ?_; with_reducible first | assumption | apply State.deviceReset_kept | apply Kept.foldl | apply Kept.foldl_fst) | split | dsimp only [id_eq] | with_reducible apply Kept.ite

theorem execReferenceFault_kept {Q : List Instr} (s : State) (h0 : Kept Q s) :
    KeptOut Q (execReferenceFault s) := by
  unfold execReferenceFault
  try dsimp only
  repeat' first | intro _ | (with_reducible first | assumption | apply State.deviceReset_kept | apply State.setFlag_kept | apply Kept.foldl | apply Kept.foldl_fst | apply KeptOut.live | apply KeptOut.next) | (with_reducible refine Kept.mk rfl rfl rfl rfl ?_; with_reducible first | assumption | apply State.deviceReset_kept | apply State.setFlag_kept | apply Kept.foldl | apply Kept.foldl_fst) | split | dsimp only [id_eq] | with_reducible apply Kept.ite

theorem execThermalShutdown_kept {Q : List Instr} (s : State) (h0 : Kept Q s) :
    KeptOut Q (execThermalShutdown s) := by
  unfold execThermalShutdown
  try dsimp only
  repeat' first | intro _ | (with_reducible first | assumption | apply State.deviceReset_kept | apply State.setFlag_kept | apply Kept.foldl | apply Kept.foldl_fst | apply KeptOut.live | apply KeptOut.next) | (with_reducible refine Kept.mk rfl rfl rfl rfl ?_; with_reducible first | assumption | apply State.deviceReset_kept | apply State.setFlag_kept | apply Kept.foldl | apply Kept.foldl_fst) | split | dsimp only [id_eq] | with_reducible apply Kept.ite

theorem State.powerControl_kept {Q : List Instr} (s : State) (v : Nat) (h0 : Kept Q s) :
    Kept Q (State.powerControl s v) := by
  unfold State.powerControl
  try dsimp only
  repeat' first | intro _ | (with_reducible first | assumption | apply State.deviceReset_kept | apply Kept.foldl | apply Kept.foldl_fst) | (with_reducible refine Kept.mk rfl rfl rfl rfl ?_; with_reducible first | assumption | apply State.deviceReset_kept | apply Kept.foldl | apply Kept.foldl_fst) | split | dsimp only [id_eq] | with_reducible apply Kept.ite

theorem execPwctrlDevreset_kept {Q : List Instr} (r : Requester) (v : Word) (s : State) (h0 : Kept Q s) :
    KeptOut Q (execPwctrlDevreset r v s) := by
  unfold execPwctrlDevreset
  try dsimp only
  repeat' first | intro _ | (with_reducible first | assumption | apply live_kept | apply State.guardReg_kept | apply State.powerControl_kept | apply Kept.foldl | apply Kept.foldl_fst | apply KeptOut.live | apply KeptOut.next) | (with_reducible refine Kept.mk rfl rfl rfl rfl ?_; with_reducible first | assumption | apply live_kept | apply State.guardReg_kept | apply State.powerControl_kept | apply Kept.foldl | apply Kept.foldl_fst) | split | dsimp only [id_eq] | with_reducible apply Kept.ite

theorem execWatchdogExpire_kept {Q : List Instr} (s : State) (h0 : Kept Q s) :
    KeptOut Q (execWatchdogExpire s) := by
  unfold execWatchdogExpire
  try dsimp only
  repeat' first | intro _ | (with_reducible first | assumption | apply State.deviceReset_kept | apply live_kept | apply State.wr_kept | apply Kept.foldl | apply Kept.foldl_fst | apply KeptOut.live | apply KeptOut.next) | (with_reducible refine Kept.mk rfl rfl rfl rfl ?_; with_reducible first | assumption | apply State.deviceReset_kept | apply live_kept | apply State.wr_kept | apply Kept.foldl | apply Kept.foldl_fst) | split | dsimp only [id_eq] | with_reducible apply Kept.ite

theorem State.watchdogWrite_kept {Q : List Instr} (s : State) (v : Nat) (h0 : Kept Q s) :
    Kept Q (State.watchdogWrite s v) := by
  unfold State.watchdogWrite
  try dsimp only
  repeat' first | intro _ | (with_reducible first | assumption | apply State.wr_kept | apply Kept.foldl | apply Kept.foldl_fst) | (with_reducible refine Kept.mk rfl rfl rfl rfl ?_; with_reducible first | assumption | apply State.wr_kept | apply Kept.foldl | apply Kept.foldl_fst) | split | dsimp only [id_eq] | with_reducible apply Kept.ite

theorem execPwwdogKick_kept {Q : List Instr} (r : Requester) (v : Word) (s : State) (h0 : Kept Q s) :
    KeptOut Q (execPwwdogKick r v s) := by
  unfold execPwwdogKick
  try dsimp only
  repeat' first | intro _ | (with_reducible first | assumption | apply live_kept | apply State.guardReg_kept | apply State.watchdogWrite_kept | apply Kept.foldl | apply Kept.foldl_fst | apply KeptOut.live | apply KeptOut.next) | (with_reducible refine Kept.mk rfl rfl rfl rfl ?_; with_reducible first | assumption | apply live_kept | apply State.guardReg_kept | apply State.watchdogWrite_kept | apply Kept.foldl | apply Kept.foldl_fst) | split | dsimp only [id_eq] | with_reducible apply Kept.ite

theorem execVauxDown_kept {Q : List Instr} (s : State) (h0 : Kept Q s) :
    KeptOut Q (execVauxDown s) := by
  have h := State.deviceReset_kept s 0 h0
  unfold execVauxDown
  refine ⟨h.1, ?_, ?_, h.2.2.2.1, h.2.2.2.2.1, h.2.2.2.2.2.1, Nat.two_pow_pos 64⟩
  · exact Tbl.wf_filter memDefault _ _ h.2.1
  · exact Tbl.rising_filter _ _ _ h.2.2.1

theorem execVauxUp_kept {Q : List Instr} (bootmd tsrc : Fin 4) (ppspol mstr : Bool) (s : State) (h0 : Kept Q s) :
    KeptOut Q (execVauxUp bootmd tsrc ppspol mstr s) := by
  have h : Kept Q { s with pw := ⟨false, true, [], 0⟩, time := { s.time with ns := 0, frac := 0 } } :=
    ⟨h0.1, h0.2.1, h0.2.2.1, h0.2.2.2.1, h0.2.2.2.2.1, h0.2.2.2.2.2.1, Nat.two_pow_pos 64⟩
  unfold execVauxUp
  split
  · exact h0
  · exact State.wr_kept _ _ _ (State.setFlag_kept _ _ _ _ (State.wr_kept _ _ _ (State.wr_kept _ _ _ (State.wr_kept _ _ _
      (State.setFlag_kept _ _ _ _ (State.setFlag_kept _ _ _ _ (State.wr_kept _ _ _ (State.wr_kept _ _ _ h))))))))

theorem execStartEdge_kept {Q : List Instr} (mstr : Bool) (s : State) (h0 : Kept Q s) :
    KeptOut Q (execStartEdge mstr s) := by
  unfold execStartEdge
  try dsimp only
  repeat' first | intro _ | (with_reducible first | assumption | apply State.wr_kept | apply State.raise_kept | apply Kept.foldl | apply Kept.foldl_fst | apply KeptOut.live | apply KeptOut.next) | (with_reducible refine Kept.mk rfl rfl rfl rfl ?_; with_reducible first | assumption | apply State.wr_kept | apply State.raise_kept | apply Kept.foldl | apply Kept.foldl_fst) | split | dsimp only [id_eq] | with_reducible apply Kept.ite

theorem State.proof_kept {Q : List Instr} (s : State) (a n : Nat) (h0 : Kept Q s) :
    Kept Q (State.proof s a n) :=
  ⟨h0.1, Tbl.wf_filter memDefault _ _ h0.2.1, h0.2.2⟩

theorem State.cleanSram_kept {Q : List Instr} (s : State) (c : Nat) (h0 : Kept Q s) :
    Kept Q (State.cleanSram s c) := by
  unfold State.cleanSram
  try dsimp only
  repeat' first | intro _ | (with_reducible first | assumption | apply State.updCore_kept | apply Kept.foldl | apply Kept.foldl_fst) | (with_reducible refine Kept.mk rfl rfl rfl rfl ?_; with_reducible first | assumption | apply State.updCore_kept | apply Kept.foldl | apply Kept.foldl_fst) | split | dsimp only [id_eq] | with_reducible apply Kept.ite

theorem execProofingDone_kept {Q : List Instr} (s : State) (h0 : Kept Q s) :
    KeptOut Q (execProofingDone s) := by
  unfold execProofingDone
  try dsimp only
  repeat' first | intro _ | (with_reducible first | assumption | apply State.proof_kept | apply State.cleanSram_kept | apply live_kept | apply State.wr_kept | apply Kept.foldl | apply Kept.foldl_fst | apply KeptOut.live | apply KeptOut.next) | (with_reducible refine Kept.mk rfl rfl rfl rfl ?_; with_reducible first | assumption | apply State.proof_kept | apply State.cleanSram_kept | apply live_kept | apply State.wr_kept | apply Kept.foldl | apply Kept.foldl_fst) | split | dsimp only [id_eq] | with_reducible apply Kept.ite

theorem execLoaderCheck_kept {Q : List Instr} (s : State) (h0 : Kept Q s) :
    KeptOut Q (execLoaderCheck s) := by
  unfold execLoaderCheck
  try dsimp only
  repeat' first | intro _ | (with_reducible first | assumption | apply State.storeBytes_kept | apply State.wr_kept | apply State.updCore_kept | apply live_kept | apply Kept.foldl | apply Kept.foldl_fst | apply KeptOut.live | apply KeptOut.next) | (with_reducible refine Kept.mk rfl rfl rfl rfl ?_; with_reducible first | assumption | apply State.storeBytes_kept | apply State.wr_kept | apply State.updCore_kept | apply live_kept | apply Kept.foldl | apply Kept.foldl_fst) | split | dsimp only [id_eq] | with_reducible apply Kept.ite

theorem State.noteActivated_kept {Q : List Instr} (s : State) (h0 : Kept Q s) :
    Kept Q (State.noteActivated s) := by
  unfold State.noteActivated
  try dsimp only
  repeat' first | intro _ | (with_reducible first | assumption | apply State.asyncEvent_kept | apply Kept.foldl | apply Kept.foldl_fst) | (with_reducible refine Kept.mk rfl rfl rfl rfl ?_; with_reducible first | assumption | apply State.asyncEvent_kept | apply Kept.foldl | apply Kept.foldl_fst) | split | dsimp only [id_eq] | with_reducible apply Kept.ite

theorem State.minimum_kept {Q : List Instr} (s : State) (keeper : Bool) (h0 : Kept Q s) :
    Kept Q (State.minimum s keeper) := by
  unfold State.minimum
  try dsimp only
  repeat' first | intro _ | (with_reducible first | assumption | apply State.setFlag_kept | apply State.wr_kept | apply State.setLevel_kept | apply State.noteActivated_kept | apply Kept.foldl | apply Kept.foldl_fst) | (with_reducible refine Kept.mk rfl rfl rfl rfl ?_; with_reducible first | assumption | apply State.setFlag_kept | apply State.wr_kept | apply State.setLevel_kept | apply State.noteActivated_kept | apply Kept.foldl | apply Kept.foldl_fst) | split | dsimp only [id_eq] | with_reducible apply Kept.ite

theorem execKeeperImageStart_kept {Q : List Instr} (s : State) (h0 : Kept Q s) :
    KeptOut Q (execKeeperImageStart s) := by
  unfold execKeeperImageStart
  try dsimp only
  repeat' first | intro _ | (with_reducible first | assumption | apply live_kept | apply State.minimum_kept | apply State.loadSegment_kept | apply State.updCore_kept | apply State.wr_kept | apply Kept.foldl | apply Kept.foldl_fst | apply KeptOut.live | apply KeptOut.next) | (with_reducible refine Kept.mk rfl rfl rfl rfl ?_; with_reducible first | assumption | apply live_kept | apply State.minimum_kept | apply State.loadSegment_kept | apply State.updCore_kept | apply State.wr_kept | apply Kept.foldl | apply Kept.foldl_fst) | split | dsimp only [id_eq] | with_reducible apply Kept.ite

theorem State.saveSram_kept {Q : List Instr} (s : State) (n : Nat) (h0 : Kept Q s) :
    Kept Q (State.saveSram s n) := by
  unfold State.saveSram
  try dsimp only
  repeat' first | intro _ | (with_reducible first | assumption | apply State.engineStore_kept | apply State.incSat_kept | apply Kept.foldl | apply Kept.foldl_fst) | (with_reducible refine Kept.mk rfl rfl rfl rfl ?_; with_reducible first | assumption | apply State.engineStore_kept | apply State.incSat_kept | apply Kept.foldl | apply Kept.foldl_fst) | split | dsimp only [id_eq] | with_reducible apply Kept.ite

theorem State.trainResult_kept {Q : List Instr} (s : State) (pass n : Nat) (eye : Nat × Nat) (h0 : Kept Q s) :
    Kept Q (State.trainResult s pass n eye) := by
  unfold State.trainResult
  try dsimp only
  repeat' first | intro _ | (with_reducible first | assumption | apply State.wr_kept | apply State.measure_kept | apply Kept.foldl | apply Kept.foldl_fst) | (with_reducible refine Kept.mk rfl rfl rfl rfl ?_; with_reducible first | assumption | apply State.wr_kept | apply State.measure_kept | apply Kept.foldl | apply Kept.foldl_fst) | split | dsimp only [id_eq] | with_reducible apply Kept.ite

theorem execDramTrainingDone_kept {Q : List Instr} (pass : Fin 256) (eyes : List (Nat × Nat)) (s : State) (h0 : Kept Q s) :
    KeptOut Q (execDramTrainingDone pass eyes s) := by
  unfold execDramTrainingDone
  try dsimp only
  repeat' first | intro _ | (with_reducible first | assumption | apply State.trainResult_kept | apply State.wr_kept | apply live_kept | apply State.minimum_kept | apply State.setFlag_kept | apply State.saveSram_kept | apply State.setLevel_kept | apply Kept.foldl | apply Kept.foldl_fst | apply KeptOut.live | apply KeptOut.next) | (with_reducible refine Kept.mk rfl rfl rfl rfl ?_; with_reducible first | assumption | apply State.trainResult_kept | apply State.wr_kept | apply live_kept | apply State.minimum_kept | apply State.setFlag_kept | apply State.saveSram_kept | apply State.setLevel_kept | apply Kept.foldl | apply Kept.foldl_fst) | split | dsimp only [id_eq] | with_reducible apply Kept.ite

theorem State.stockRoutes_kept {Q : List Instr} (s : State) (h0 : Kept Q s) :
    Kept Q (State.stockRoutes s) := by
  unfold State.stockRoutes
  try dsimp only
  repeat' first | intro _ | (with_reducible first | assumption | apply Kept.foldl | apply Kept.foldl_fst) | (with_reducible refine Kept.mk rfl rfl rfl rfl ?_; with_reducible first | assumption | apply Kept.foldl | apply Kept.foldl_fst) | split | dsimp only [id_eq] | with_reducible apply Kept.ite

theorem State.stockDests_kept {Q : List Instr} (s : State) (h0 : Kept Q s) :
    Kept Q (State.stockDests s) := by
  unfold State.stockDests
  try dsimp only
  repeat' first | intro _ | (with_reducible first | assumption | apply Kept.foldl | apply Kept.foldl_fst) | (with_reducible refine Kept.mk rfl rfl rfl rfl ?_; with_reducible first | assumption | apply Kept.foldl | apply Kept.foldl_fst) | split | dsimp only [id_eq] | with_reducible apply Kept.ite

theorem State.recMissing_kept {Q : List Instr} (s : State) (k : Nat) (h0 : Kept Q s) :
    Kept Q (State.recMissing s k) := by
  unfold State.recMissing
  try dsimp only
  repeat' first | intro _ | (with_reducible first | assumption | apply State.stockRoutes_kept | apply State.recLoad_kept | apply Kept.foldl | apply Kept.foldl_fst) | (with_reducible refine Kept.mk rfl rfl rfl rfl ?_; with_reducible first | assumption | apply State.stockRoutes_kept | apply State.recLoad_kept | apply Kept.foldl | apply Kept.foldl_fst) | split | dsimp only [id_eq] | with_reducible apply Kept.ite

theorem State.recStartLoad_kept {Q : List Instr} (s : State) (k : Nat) (h0 : Kept Q s) :
    Kept Q (State.recStartLoad s k) := by
  unfold State.recStartLoad
  try dsimp only
  repeat' first | intro _ | (with_reducible first | assumption | apply State.raise_kept | apply State.recLoad_kept | apply State.recMissing_kept | apply Kept.foldl | apply Kept.foldl_fst) | (with_reducible refine Kept.mk rfl rfl rfl rfl ?_; with_reducible first | assumption | apply State.raise_kept | apply State.recLoad_kept | apply State.recMissing_kept | apply Kept.foldl | apply Kept.foldl_fst) | split | dsimp only [id_eq] | with_reducible apply Kept.ite

theorem State.loadRecords_kept {Q : List Instr} (s : State) (h0 : Kept Q s) :
    Kept Q (State.loadRecords s) := by
  unfold State.loadRecords
  try dsimp only
  repeat' first | intro _ | (with_reducible first | assumption | apply State.recStartLoad_kept | apply Kept.foldl | apply Kept.foldl_fst) | (with_reducible refine Kept.mk rfl rfl rfl rfl ?_; with_reducible first | assumption | apply State.recStartLoad_kept | apply Kept.foldl | apply Kept.foldl_fst) | split | dsimp only [id_eq] | with_reducible apply Kept.ite

theorem State.loadMicro_kept {Q : List Instr} (s : State) (h0 : Kept Q s) :
    Kept Q (State.loadMicro s) := by
  unfold State.loadMicro
  try dsimp only
  repeat' first | intro _ | (with_reducible first | assumption | apply State.wr_kept | apply State.setFlag_kept | apply Kept.foldl | apply Kept.foldl_fst) | (with_reducible refine Kept.mk rfl rfl rfl rfl ?_; with_reducible first | assumption | apply State.wr_kept | apply State.setFlag_kept | apply Kept.foldl | apply Kept.foldl_fst) | split | dsimp only [id_eq] | with_reducible apply Kept.ite

theorem State.startEngine_kept {Q : List Instr} (s : State) (h0 : Kept Q s) :
    Kept Q (State.startEngine s) := by
  unfold State.startEngine
  try dsimp only
  repeat' first | intro _ | (with_reducible first | assumption | apply State.loadMicro_kept | apply State.setFlag_kept | apply State.refuseImage_kept | apply Kept.foldl | apply Kept.foldl_fst) | (with_reducible refine Kept.mk rfl rfl rfl rfl ?_; with_reducible first | assumption | apply State.loadMicro_kept | apply State.setFlag_kept | apply State.refuseImage_kept | apply Kept.foldl | apply Kept.foldl_fst) | split | dsimp only [id_eq] | with_reducible apply Kept.ite

theorem State.loadApertures_kept {Q : List Instr} (s : State) (c : Nat) (h0 : Kept Q s) :
    Kept Q (State.loadApertures s c) := by
  unfold State.loadApertures
  try dsimp only
  repeat' first | intro _ | (with_reducible first | assumption | apply State.wr_kept | apply Kept.foldl | apply Kept.foldl_fst) | (with_reducible refine Kept.mk rfl rfl rfl rfl ?_; with_reducible first | assumption | apply State.wr_kept | apply Kept.foldl | apply Kept.foldl_fst) | split | dsimp only [id_eq] | with_reducible apply Kept.ite

theorem State.loadJob_kept {Q : List Instr} (s : State) (c : Nat) (h0 : Kept Q s) :
    Kept Q (State.loadJob s c) := by
  unfold State.loadJob
  try dsimp only
  repeat' first | intro _ | (with_reducible first | assumption | apply State.refuseImage_kept | apply State.loadSegment_kept | apply State.cleanSram_kept | apply State.loadMemory_kept | apply State.wr_kept | apply State.loadApertures_kept | apply State.coreStart_kept | apply Kept.foldl | apply Kept.foldl_fst) | (with_reducible refine Kept.mk rfl rfl rfl rfl ?_; with_reducible first | assumption | apply State.refuseImage_kept | apply State.loadSegment_kept | apply State.cleanSram_kept | apply State.loadMemory_kept | apply State.wr_kept | apply State.loadApertures_kept | apply State.coreStart_kept | apply Kept.foldl | apply Kept.foldl_fst) | split | dsimp only [id_eq] | with_reducible apply Kept.ite

theorem State.stockQueues_kept {Q : List Instr} (s : State) (h0 : Kept Q s) :
    Kept Q (State.stockQueues s) := by
  unfold State.stockQueues
  try dsimp only
  repeat' first | intro _ | (with_reducible first | assumption | apply State.wr_kept | apply Kept.foldl | apply Kept.foldl_fst) | (with_reducible refine Kept.mk rfl rfl rfl rfl ?_; with_reducible first | assumption | apply State.wr_kept | apply Kept.foldl | apply Kept.foldl_fst) | split | dsimp only [id_eq] | with_reducible apply Kept.ite

theorem State.retireMarked_kept {Q : List Instr} (s : State) (h0 : Kept Q s) :
    Kept Q (State.retireMarked s) := by
  unfold State.retireMarked
  try dsimp only
  repeat' first | intro _ | (with_reducible first | assumption | apply State.retireBeam_kept | apply Kept.foldl | apply Kept.foldl_fst) | (with_reducible refine Kept.mk rfl rfl rfl rfl ?_; with_reducible first | assumption | apply State.retireBeam_kept | apply Kept.foldl | apply Kept.foldl_fst) | split | dsimp only [id_eq] | with_reducible apply Kept.ite

theorem State.countCycle_kept {Q : List Instr} (s : State) (h0 : Kept Q s) :
    Kept Q (State.countCycle s) := by
  unfold State.countCycle
  try dsimp only
  repeat' first | intro _ | (with_reducible first | assumption | apply Kept.foldl | apply Kept.foldl_fst) | (with_reducible refine Kept.mk rfl rfl rfl rfl ?_; with_reducible first | assumption | apply Kept.foldl | apply Kept.foldl_fst) | split | dsimp only [id_eq] | with_reducible apply Kept.ite

theorem execJobLoad_kept {Q : List Instr} (s : State) (h0 : Kept Q s) :
    KeptOut Q (execJobLoad s) := by
  unfold execJobLoad
  try dsimp only
  repeat' first | intro _ | (with_reducible first | assumption | apply State.loadRecords_kept | apply State.countCycle_kept | apply State.startEngine_kept | apply State.recStartLoad_kept | apply State.stockDests_kept | apply State.useParams_kept | apply State.retireMarked_kept | apply State.loadJob_kept | apply live_kept | apply State.stockQueues_kept | apply State.wr_kept | apply State.setLevel_kept | apply State.minimum_kept | apply Kept.foldl | apply Kept.foldl_fst | apply KeptOut.live | apply KeptOut.next) | (with_reducible refine Kept.mk rfl rfl rfl rfl ?_; with_reducible first | assumption | apply State.loadRecords_kept | apply State.countCycle_kept | apply State.startEngine_kept | apply State.recStartLoad_kept | apply State.stockDests_kept | apply State.useParams_kept | apply State.retireMarked_kept | apply State.loadJob_kept | apply live_kept | apply State.stockQueues_kept | apply State.wr_kept | apply State.setLevel_kept | apply State.minimum_kept | apply Kept.foldl | apply Kept.foldl_fst) | split | dsimp only [id_eq] | with_reducible apply Kept.ite

theorem execStartupLinksEnable_kept {Q : List Instr} (ins : Option Cartridge) (s : State) (h0 : Kept Q s) :
    KeptOut Q (execStartupLinksEnable ins s) := by
  unfold execStartupLinksEnable
  try dsimp only
  repeat' first | intro _ | (with_reducible first | assumption | apply State.noteActivated_kept | apply State.setFlag_kept | apply State.bypass_kept | apply live_kept | apply State.wr_kept | apply State.spCommand_kept | apply Kept.foldl | apply Kept.foldl_fst | apply KeptOut.live | apply KeptOut.next) | (with_reducible refine Kept.mk rfl rfl rfl rfl ?_; with_reducible first | assumption | apply State.noteActivated_kept | apply State.setFlag_kept | apply State.bypass_kept | apply live_kept | apply State.wr_kept | apply State.spCommand_kept | apply Kept.foldl | apply Kept.foldl_fst) | split | dsimp only [id_eq] | with_reducible apply Kept.ite

theorem State.restoreAttachments_kept {Q : List Instr} (s : State) (h0 : Kept Q s) :
    Kept Q (State.restoreAttachments s) := by
  unfold State.restoreAttachments
  try dsimp only
  repeat' first | intro _ | (with_reducible first | assumption | apply State.setPool_kept | apply Kept.foldl | apply Kept.foldl_fst) | (with_reducible refine Kept.mk rfl rfl rfl rfl ?_; with_reducible first | assumption | apply State.setPool_kept | apply Kept.foldl | apply Kept.foldl_fst) | split | dsimp only [id_eq] | with_reducible apply Kept.ite

theorem execMediaReady_kept {Q : List Instr} (s : State) (h0 : Kept Q s) :
    KeptOut Q (execMediaReady s) := by
  unfold execMediaReady
  try dsimp only
  repeat' first | intro _ | (with_reducible first | assumption | apply State.restoreAttachments_kept | apply State.wr_kept | apply State.setLevel_kept | apply State.raise_kept | apply State.vendorEvent_kept | apply State.attention_kept | apply live_kept | apply State.load_kept | apply State.endOp_kept | apply Kept.foldl | apply Kept.foldl_fst | apply KeptOut.live | apply KeptOut.next) | (with_reducible refine Kept.mk rfl rfl rfl rfl ?_; with_reducible first | assumption | apply State.restoreAttachments_kept | apply State.wr_kept | apply State.setLevel_kept | apply State.raise_kept | apply State.vendorEvent_kept | apply State.attention_kept | apply live_kept | apply State.load_kept | apply State.endOp_kept | apply Kept.foldl | apply Kept.foldl_fst) | split | dsimp only [id_eq] | with_reducible apply Kept.ite

end Sys2Proof.Machine
end

