-- ==== Sys2Proof/Laws/KeptPair.lean ====
section
/-! SUPPORT. Soundness is kept by every operation and meaning of Machine/Pair.lean. -/

namespace Sys2Proof.Machine

theorem State.pairHolds_kept {Q : List Instr} (s : State) (h0 : Kept Q s) :
    Kept Q (State.pairHolds s) := by
  unfold State.pairHolds
  try dsimp only
  repeat' first | intro _ | (with_reducible first | assumption | apply State.wr_kept | apply Kept.foldl | apply Kept.foldl_fst) | (with_reducible refine Kept.mk rfl rfl rfl rfl ?_; with_reducible first | assumption | apply State.wr_kept | apply Kept.foldl | apply Kept.foldl_fst) | split | dsimp only [id_eq] | with_reducible apply Kept.ite

theorem State.pairEval_kept {Q : List Instr} (s : State) (h0 : Kept Q s) :
    Kept Q (State.pairEval s) := by
  unfold State.pairEval
  try dsimp only
  repeat' first | intro _ | (with_reducible first | assumption | apply State.wr_kept | apply State.raise_kept | apply State.pairHolds_kept | apply Kept.foldl | apply Kept.foldl_fst) | (with_reducible refine Kept.mk rfl rfl rfl rfl ?_; with_reducible first | assumption | apply State.wr_kept | apply State.raise_kept | apply State.pairHolds_kept | apply Kept.foldl | apply Kept.foldl_fst) | split | dsimp only [id_eq] | with_reducible apply Kept.ite

theorem execPairUp_kept {Q : List Instr} (lanes : Fin 5) (peer : Fin 3) (serial : Nat) (s : State) (h0 : Kept Q s) :
    KeptOut Q (execPairUp lanes peer serial s) := by
  unfold execPairUp
  try dsimp only
  repeat' first | intro _ | (with_reducible first | assumption | apply State.wr_kept | apply live_kept | apply State.raise_kept | apply State.pairEval_kept | apply Kept.foldl | apply Kept.foldl_fst | apply KeptOut.live | apply KeptOut.next) | (with_reducible refine Kept.mk rfl rfl rfl rfl ?_; with_reducible first | assumption | apply State.wr_kept | apply live_kept | apply State.raise_kept | apply State.pairEval_kept | apply Kept.foldl | apply Kept.foldl_fst) | split | dsimp only [id_eq] | with_reducible apply Kept.ite

theorem State.endMirror_kept {Q : List Instr} (s : State) (words : List Nat) (code : Nat) (h0 : Kept Q s) :
    Kept Q (State.endMirror s words code) := by
  unfold State.endMirror
  try dsimp only
  repeat' first | intro _ | (with_reducible first | assumption | apply State.engineStore_kept | apply State.raise_kept | apply Kept.foldl | apply Kept.foldl_fst) | (with_reducible refine Kept.mk rfl rfl rfl rfl ?_; with_reducible first | assumption | apply State.engineStore_kept | apply State.raise_kept | apply Kept.foldl | apply Kept.foldl_fst) | split | dsimp only [id_eq] | with_reducible apply Kept.ite

theorem State.releaseHeld_kept {Q : List Instr} (s : State) (h0 : Kept Q s) :
    Kept Q (State.releaseHeld s) := by
  unfold State.releaseHeld
  try dsimp only
  repeat' first | intro _ | (with_reducible first | assumption | apply State.releaseUnit_kept | apply Kept.foldl | apply Kept.foldl_fst) | (with_reducible refine Kept.mk rfl rfl rfl rfl ?_; with_reducible first | assumption | apply State.releaseUnit_kept | apply Kept.foldl | apply Kept.foldl_fst) | split | dsimp only [id_eq] | with_reducible apply Kept.ite

theorem State.failMirrors_kept {Q : List Instr} (s : State) (h0 : Kept Q s) :
    Kept Q (State.failMirrors s) := by
  unfold State.failMirrors
  try dsimp only
  repeat' first | intro _ | (with_reducible first | assumption | apply State.endMirror_kept | apply State.releaseHeld_kept | apply Kept.foldl | apply Kept.foldl_fst) | (with_reducible refine Kept.mk rfl rfl rfl rfl ?_; with_reducible first | assumption | apply State.endMirror_kept | apply State.releaseHeld_kept | apply Kept.foldl | apply Kept.foldl_fst) | split | dsimp only [id_eq] | with_reducible apply Kept.ite

theorem State.pairDown_kept {Q : List Instr} (s : State) (h0 : Kept Q s) :
    Kept Q (State.pairDown s) := by
  unfold State.pairDown
  try dsimp only
  repeat' first | intro _ | (with_reducible first | assumption | apply State.wr_kept | apply State.raise_kept | apply State.failMirrors_kept | apply Kept.foldl | apply Kept.foldl_fst) | (with_reducible refine Kept.mk rfl rfl rfl rfl ?_; with_reducible first | assumption | apply State.wr_kept | apply State.raise_kept | apply State.failMirrors_kept | apply Kept.foldl | apply Kept.foldl_fst) | split | dsimp only [id_eq] | with_reducible apply Kept.ite

theorem execPairDown_kept {Q : List Instr} (s : State) (h0 : Kept Q s) :
    KeptOut Q (execPairDown s) := by
  unfold execPairDown
  try dsimp only
  repeat' first | intro _ | (with_reducible first | assumption | apply live_kept | apply State.pairDown_kept | apply Kept.foldl | apply Kept.foldl_fst | apply KeptOut.live | apply KeptOut.next) | (with_reducible refine Kept.mk rfl rfl rfl rfl ?_; with_reducible first | assumption | apply live_kept | apply State.pairDown_kept | apply Kept.foldl | apply Kept.foldl_fst) | split | dsimp only [id_eq] | with_reducible apply Kept.ite

theorem execLinkPllUnlock_kept {Q : List Instr} (pll : Fin 3) (s : State) (h0 : Kept Q s) :
    KeptOut Q (execLinkPllUnlock pll s) := by
  unfold execLinkPllUnlock
  try dsimp only
  repeat' first | intro _ | (with_reducible first | assumption | apply State.setFlag_kept | apply State.wr_kept | apply State.raise_kept | apply State.pcieDown_kept | apply State.nvReset_kept | apply State.pairDown_kept | apply live_kept | apply Kept.foldl | apply Kept.foldl_fst | apply KeptOut.live | apply KeptOut.next) | (with_reducible refine Kept.mk rfl rfl rfl rfl ?_; with_reducible first | assumption | apply State.setFlag_kept | apply State.wr_kept | apply State.raise_kept | apply State.pcieDown_kept | apply State.nvReset_kept | apply State.pairDown_kept | apply live_kept | apply Kept.foldl | apply Kept.foldl_fst) | split | dsimp only [id_eq] | with_reducible apply Kept.ite

theorem State.recordSplit_kept {Q : List Instr} (s : State) (secondary : Bool) (h0 : Kept Q s) :
    Kept Q (State.recordSplit s secondary) := by
  unfold State.recordSplit
  try dsimp only
  repeat' first | intro _ | (with_reducible first | assumption | apply State.postJournal_kept | apply State.startCkpt_kept | apply Kept.foldl | apply Kept.foldl_fst) | (with_reducible refine Kept.mk rfl rfl rfl rfl ?_; with_reducible first | assumption | apply State.postJournal_kept | apply State.startCkpt_kept | apply Kept.foldl | apply Kept.foldl_fst) | split | dsimp only [id_eq] | with_reducible apply Kept.ite

theorem State.takeOver_kept {Q : List Instr} (s : State) (h0 : Kept Q s) :
    Kept Q (State.takeOver s) := by
  unfold State.takeOver
  try dsimp only
  repeat' first | intro _ | (with_reducible first | assumption | apply State.wr_kept | apply State.raise_kept | apply State.restoreAttachments_kept | apply State.vendorEvent_kept | apply State.recordSplit_kept | apply Kept.foldl | apply Kept.foldl_fst) | (with_reducible refine Kept.mk rfl rfl rfl rfl ?_; with_reducible first | assumption | apply State.wr_kept | apply State.raise_kept | apply State.restoreAttachments_kept | apply State.vendorEvent_kept | apply State.recordSplit_kept | apply Kept.foldl | apply Kept.foldl_fst) | split | dsimp only [id_eq] | with_reducible apply Kept.ite

theorem State.freeGates_kept {Q : List Instr} (s : State) (h0 : Kept Q s) :
    Kept Q (State.freeGates s) := by
  unfold State.freeGates
  try dsimp only
  repeat' first | intro _ | (with_reducible first | assumption | apply State.answerGate_kept | apply Kept.foldl | apply Kept.foldl_fst) | (with_reducible refine Kept.mk rfl rfl rfl rfl ?_; with_reducible first | assumption | apply State.answerGate_kept | apply Kept.foldl | apply Kept.foldl_fst) | split | dsimp only [id_eq] | with_reducible apply Kept.ite

theorem State.noteAlone_kept {Q : List Instr} (s : State) (h0 : Kept Q s) :
    Kept Q (State.noteAlone s) := by
  unfold State.noteAlone
  try dsimp only
  repeat' first | intro _ | (with_reducible first | assumption | apply State.crumb_kept | apply Kept.foldl | apply Kept.foldl_fst) | (with_reducible refine Kept.mk rfl rfl rfl rfl ?_; with_reducible first | assumption | apply State.crumb_kept | apply Kept.foldl | apply Kept.foldl_fst) | split | dsimp only [id_eq] | with_reducible apply Kept.ite

theorem State.losePeer_kept {Q : List Instr} (s : State) (h0 : Kept Q s) :
    Kept Q (State.losePeer s) := by
  unfold State.losePeer
  try dsimp only
  repeat' first | intro _ | (with_reducible first | assumption | apply State.failMirrors_kept | apply State.takeOver_kept | apply State.wr_kept | apply State.raise_kept | apply State.vendorEvent_kept | apply State.freeGates_kept | apply State.noteAlone_kept | apply State.recordSplit_kept | apply Kept.foldl | apply Kept.foldl_fst) | (with_reducible refine Kept.mk rfl rfl rfl rfl ?_; with_reducible first | assumption | apply State.failMirrors_kept | apply State.takeOver_kept | apply State.wr_kept | apply State.raise_kept | apply State.vendorEvent_kept | apply State.freeGates_kept | apply State.noteAlone_kept | apply State.recordSplit_kept | apply Kept.foldl | apply Kept.foldl_fst) | split | dsimp only [id_eq] | with_reducible apply Kept.ite

theorem execHeartbeatMiss_kept {Q : List Instr} (after : Bool) (s : State) (h0 : Kept Q s) :
    KeptOut Q (execHeartbeatMiss after s) := by
  unfold execHeartbeatMiss
  try dsimp only
  repeat' first | intro _ | (with_reducible first | assumption | apply State.wr_kept | apply live_kept | apply State.losePeer_kept | apply Kept.foldl | apply Kept.foldl_fst | apply KeptOut.live | apply KeptOut.next) | (with_reducible refine Kept.mk rfl rfl rfl rfl ?_; with_reducible first | assumption | apply State.wr_kept | apply live_kept | apply State.losePeer_kept | apply Kept.foldl | apply Kept.foldl_fst) | split | dsimp only [id_eq] | with_reducible apply Kept.ite

theorem execHeartbeatSend_kept {Q : List Instr} (s : State) (h0 : Kept Q s) :
    KeptOut Q (execHeartbeatSend s) := by
  unfold execHeartbeatSend
  try dsimp only
  repeat' first | intro _ | (with_reducible first | assumption | apply live_kept | apply State.ringSend_kept | apply Kept.foldl | apply Kept.foldl_fst | apply KeptOut.live | apply KeptOut.next) | (with_reducible refine Kept.mk rfl rfl rfl rfl ?_; with_reducible first | assumption | apply live_kept | apply State.ringSend_kept | apply Kept.foldl | apply Kept.foldl_fst) | split | dsimp only [id_eq] | with_reducible apply Kept.ite

theorem State.pairKick_kept {Q : List Instr} (s : State) (v : Nat) (h0 : Kept Q s) :
    Kept Q (State.pairKick s v) := by
  unfold State.pairKick
  try dsimp only
  repeat' first | intro _ | (with_reducible first | assumption | apply Kept.foldl | apply Kept.foldl_fst) | (with_reducible refine Kept.mk rfl rfl rfl rfl ?_; with_reducible first | assumption | apply Kept.foldl | apply Kept.foldl_fst) | split | dsimp only [id_eq] | with_reducible apply Kept.ite

theorem execPlkickWrite_kept {Q : List Instr} (r : Requester) (v : Word) (s : State) (h0 : Kept Q s) :
    KeptOut Q (execPlkickWrite r v s) := by
  unfold execPlkickWrite
  try dsimp only
  repeat' first | intro _ | (with_reducible first | assumption | apply live_kept | apply State.guardReg_kept | apply State.pairKick_kept | apply Kept.foldl | apply Kept.foldl_fst | apply KeptOut.live | apply KeptOut.next) | (with_reducible refine Kept.mk rfl rfl rfl rfl ?_; with_reducible first | assumption | apply live_kept | apply State.guardReg_kept | apply State.pairKick_kept | apply Kept.foldl | apply Kept.foldl_fst) | split | dsimp only [id_eq] | with_reducible apply Kept.ite

theorem State.pairControl_kept {Q : List Instr} (s : State) (v : Nat) (h0 : Kept Q s) :
    Kept Q (State.pairControl s v) := by
  unfold State.pairControl
  try dsimp only
  repeat' first | intro _ | (with_reducible first | assumption | apply State.wr_kept | apply State.setFlag_kept | apply State.takeOver_kept | apply State.pairEval_kept | apply Kept.foldl | apply Kept.foldl_fst) | (with_reducible refine Kept.mk rfl rfl rfl rfl ?_; with_reducible first | assumption | apply State.wr_kept | apply State.setFlag_kept | apply State.takeOver_kept | apply State.pairEval_kept | apply Kept.foldl | apply Kept.foldl_fst) | split | dsimp only [id_eq] | with_reducible apply Kept.ite

theorem execPlctrlRole_kept {Q : List Instr} (r : Requester) (v : Word) (peer : Option (Fin 3)) (s : State) (h0 : Kept Q s) :
    KeptOut Q (execPlctrlRole r v peer s) := by
  unfold execPlctrlRole
  try dsimp only
  repeat' first | intro _ | (with_reducible first | assumption | apply State.wr_kept | apply live_kept | apply State.guardReg_kept | apply State.pairControl_kept | apply Kept.foldl | apply Kept.foldl_fst | apply KeptOut.live | apply KeptOut.next) | (with_reducible refine Kept.mk rfl rfl rfl rfl ?_; with_reducible first | assumption | apply State.wr_kept | apply live_kept | apply State.guardReg_kept | apply State.pairControl_kept | apply Kept.foldl | apply Kept.foldl_fst) | split | dsimp only [id_eq] | with_reducible apply Kept.ite

theorem execPlctrlTakeover_kept {Q : List Instr} (r : Requester) (v : Word) (s : State) (h0 : Kept Q s) :
    KeptOut Q (execPlctrlTakeover r v s) := by
  unfold execPlctrlTakeover
  try dsimp only
  repeat' first | intro _ | (with_reducible first | assumption | apply live_kept | apply State.guardReg_kept | apply State.pairControl_kept | apply Kept.foldl | apply Kept.foldl_fst | apply KeptOut.live | apply KeptOut.next) | (with_reducible refine Kept.mk rfl rfl rfl rfl ?_; with_reducible first | assumption | apply live_kept | apply State.guardReg_kept | apply State.pairControl_kept | apply Kept.foldl | apply Kept.foldl_fst) | split | dsimp only [id_eq] | with_reducible apply Kept.ite

theorem execMirrorSend_kept {Q : List Instr} (room peerOk : Bool) (s : State) (h0 : Kept Q s) :
    KeptOut Q (execMirrorSend room peerOk s) := by
  unfold execMirrorSend
  try dsimp only
  repeat' first | intro _ | (with_reducible first | assumption | apply live_kept | apply State.endMirror_kept | apply State.releaseHeld_kept | apply State.ringSend_kept | apply State.mirror_kept | apply State.count_kept | apply Kept.foldl | apply Kept.foldl_fst | apply KeptOut.live | apply KeptOut.next) | (with_reducible refine Kept.mk rfl rfl rfl rfl ?_; with_reducible first | assumption | apply live_kept | apply State.endMirror_kept | apply State.releaseHeld_kept | apply State.ringSend_kept | apply State.mirror_kept | apply State.count_kept | apply Kept.foldl | apply Kept.foldl_fst) | split | dsimp only [id_eq] | with_reducible apply Kept.ite

theorem State.mirrorRecord_kept {Q : List Instr} (s : State) (words : List Nat) (addr : Nat) (h0 : Kept Q s) :
    Kept Q (State.mirrorRecord s words addr) := by
  unfold State.mirrorRecord
  try dsimp only
  repeat' first | intro _ | (with_reducible first | assumption | apply State.engineStore_kept | apply State.wr_kept | apply State.raise_kept | apply Kept.foldl | apply Kept.foldl_fst) | (with_reducible refine Kept.mk rfl rfl rfl rfl ?_; with_reducible first | assumption | apply State.engineStore_kept | apply State.wr_kept | apply State.raise_kept | apply Kept.foldl | apply Kept.foldl_fst) | split | dsimp only [id_eq] | with_reducible apply Kept.ite

theorem State.recordMirror_kept {Q : List Instr} (s : State) (addr n i lba : Nat) (h0 : Kept Q s) :
    Kept Q (State.recordMirror s addr n i lba) := by
  unfold State.recordMirror
  try dsimp only
  repeat' first | intro _ | (with_reducible first | assumption | apply State.releaseUnit_kept | apply State.withEntry_kept (e := by assumption) | apply State.setZone_kept | apply Kept.foldl | apply Kept.foldl_fst) | (with_reducible refine Kept.mk rfl rfl rfl rfl ?_; with_reducible first | assumption | apply State.releaseUnit_kept | apply State.withEntry_kept (e := by assumption) | apply State.setZone_kept | apply Kept.foldl | apply Kept.foldl_fst) | split | dsimp only [id_eq] | with_reducible apply Kept.ite

theorem State.mergeZones_kept {Q : List Instr} (s : State) (ws : List (Nat × Nat × Nat)) (h0 : Kept Q s) :
    Kept Q (State.mergeZones s ws) := by
  unfold State.mergeZones
  try dsimp only
  repeat' first | intro _ | (with_reducible first | assumption | apply State.finishZone_kept | apply State.releaseHeld_kept | apply Kept.foldl | apply Kept.foldl_fst) | (with_reducible refine Kept.mk rfl rfl rfl rfl ?_; with_reducible first | assumption | apply State.finishZone_kept | apply State.releaseHeld_kept | apply Kept.foldl | apply Kept.foldl_fst) | split | dsimp only [id_eq] | with_reducible apply Kept.ite

theorem State.carryOut_kept {Q : List Instr} (s : State) (dev : Nat) (c : Coord) (h0 : Kept Q s) :
    Kept Q (State.carryOut s dev c) := by
  unfold State.carryOut
  try dsimp only
  repeat' first | intro _ | (with_reducible first | assumption | apply State.changeSession_kept | apply State.answer_kept | apply State.needMedium_kept | apply State.beginBake_kept | apply State.setTimecode_kept | apply State.startFlush_kept | apply State.answerGate_kept | apply State.vendorEvent_kept | apply State.nextRecorder_kept | apply State.addNamespace_kept | apply State.nsChanged_kept | apply State.startCkpt_kept | apply live_kept | apply State.deleteNamespace_kept | apply State.mergeZones_kept | apply State.mirror_kept | apply Kept.foldl | apply Kept.foldl_fst) | (with_reducible refine Kept.mk rfl rfl rfl rfl ?_; with_reducible first | assumption | apply State.changeSession_kept | apply State.answer_kept | apply State.needMedium_kept | apply State.beginBake_kept | apply State.setTimecode_kept | apply State.startFlush_kept | apply State.answerGate_kept | apply State.vendorEvent_kept | apply State.nextRecorder_kept | apply State.addNamespace_kept | apply State.nsChanged_kept | apply State.startCkpt_kept | apply live_kept | apply State.deleteNamespace_kept | apply State.mergeZones_kept | apply State.mirror_kept | apply Kept.foldl | apply Kept.foldl_fst) | split | dsimp only [id_eq] | with_reducible apply Kept.ite

theorem execMirrorReceive_kept {Q : List Instr} (words pages tags : List Nat) (addr : Nat) (coord : Option Coord) (s : State) (h0 : Kept Q s) :
    KeptOut Q (execMirrorReceive words pages tags addr coord s) := by
  unfold execMirrorReceive
  try dsimp only
  repeat' first | intro _ | (with_reducible first | assumption | apply live_kept | apply State.carryOut_kept | apply State.ringSend_kept | apply State.useUnits_kept | apply State.landPages_kept | apply State.mirrorRecord_kept | apply State.wr_kept | apply State.recordMirror_kept | apply Kept.foldl | apply Kept.foldl_fst | apply KeptOut.live | apply KeptOut.next) | (with_reducible refine Kept.mk rfl rfl rfl rfl ?_; with_reducible first | assumption | apply live_kept | apply State.carryOut_kept | apply State.ringSend_kept | apply State.useUnits_kept | apply State.landPages_kept | apply State.mirrorRecord_kept | apply State.wr_kept | apply State.recordMirror_kept | apply Kept.foldl | apply Kept.foldl_fst) | split | dsimp only [id_eq] | with_reducible apply Kept.ite

theorem execRingMessageFrame_kept {Q : List Instr} (src dst seq tag : Nat) (data : List Byte) (coord : Option Coord) (bad member portB : Bool) (s : State) (h0 : Kept Q s) :
    KeptOut Q (execRingMessageFrame src dst seq tag data coord bad member portB s) := by
  unfold execRingMessageFrame
  try dsimp only
  repeat' first | intro _ | (with_reducible first | assumption | apply live_kept | apply State.ringBad_kept | apply State.ringViol_kept | apply State.ringSend_kept | apply State.forward_kept | apply State.receiveMessage_kept | apply State.carryOut_kept | apply Kept.foldl | apply Kept.foldl_fst | apply KeptOut.live | apply KeptOut.next) | (with_reducible refine Kept.mk rfl rfl rfl rfl ?_; with_reducible first | assumption | apply live_kept | apply State.ringBad_kept | apply State.ringViol_kept | apply State.ringSend_kept | apply State.forward_kept | apply State.receiveMessage_kept | apply State.carryOut_kept | apply Kept.foldl | apply Kept.foldl_fst) | split | dsimp only [id_eq] | with_reducible apply Kept.ite

end Sys2Proof.Machine
end

