-- ==== Sys2Proof/Laws/KeptBus.lean ====
section
/-! SUPPORT. Soundness is kept by every operation and meaning of Machine/Bus.lean. -/

namespace Sys2Proof.Machine

theorem State.readEffect_kept {Q : List Instr} (s : State) (q a : Nat) (h0 : Kept Q s) :
    Kept Q (State.readEffect s q a) := by
  unfold State.readEffect
  try dsimp only
  repeat' first | intro _ | (with_reducible first | assumption | apply State.wr_kept | apply Kept.foldl | apply Kept.foldl_fst) | (with_reducible refine Kept.mk rfl rfl rfl rfl ?_; with_reducible first | assumption | apply State.wr_kept | apply Kept.foldl | apply Kept.foldl_fst) | split | dsimp only [id_eq] | with_reducible apply Kept.ite

theorem State.busRead_kept {Q : List Instr} (s : State) (q a : Nat) (h0 : Kept Q s) :
    Kept Q (State.busRead s q a).1 := by
  unfold State.busRead
  try dsimp only
  repeat' first | intro _ | (with_reducible first | assumption | apply State.readEffect_kept | apply Kept.foldl | apply Kept.foldl_fst) | (with_reducible refine Kept.mk rfl rfl rfl rfl ?_; with_reducible first | assumption | apply State.readEffect_kept | apply Kept.foldl | apply Kept.foldl_fst) | split | dsimp only [id_eq] | with_reducible apply Kept.ite

theorem State.tmCfg_kept {Q : List Instr} (s : State) (v : Nat) (h0 : Kept Q s) :
    Kept Q (State.tmCfg s v) := by
  unfold State.tmCfg
  try dsimp only
  repeat' first | intro _ | (with_reducible first | assumption | apply State.storeReg_kept | apply State.tmEnter_kept | apply Kept.foldl | apply Kept.foldl_fst) | (with_reducible refine Kept.mk rfl rfl rfl rfl ?_; with_reducible first | assumption | apply State.storeReg_kept | apply State.tmEnter_kept | apply Kept.foldl | apply Kept.foldl_fst) | split | dsimp only [id_eq] | with_reducible apply Kept.ite

theorem State.writeTime_kept {Q : List Instr} (s : State) (r : Requester) (o v : Nat) (h0 : Kept Q s) :
    Kept Q (State.writeTime s r o v) := by
  unfold State.writeTime
  try dsimp only
  repeat' first | intro _ | (with_reducible first | assumption | apply State.tmLoadNow_kept | apply State.tmLoadEdge_kept | apply State.setFlag_kept | apply State.tmCfg_kept | apply State.setRate_kept | apply State.trgAck_kept | apply State.tcEpochHi_kept | apply State.storeReg_kept | apply Kept.foldl | apply Kept.foldl_fst) | (with_reducible refine Kept.mk rfl rfl rfl rfl ?_; with_reducible first | assumption | apply State.tmLoadNow_kept | apply State.tmLoadEdge_kept | apply State.setFlag_kept | apply State.tmCfg_kept | apply State.setRate_kept | apply State.trgAck_kept | apply State.tcEpochHi_kept | apply State.storeReg_kept | apply Kept.foldl | apply Kept.foldl_fst) | split | dsimp only [id_eq] | with_reducible apply Kept.ite

theorem State.setRoute_kept {Q : List Instr} (s : State) (n v : Nat) (h0 : Kept Q s) :
    Kept Q (State.setRoute s n v) := by
  unfold State.setRoute
  try dsimp only
  repeat' first | intro _ | (with_reducible first | assumption | apply State.noteWrap_kept | apply State.laneMessage_kept | apply Kept.foldl | apply Kept.foldl_fst) | (with_reducible refine Kept.mk rfl rfl rfl rfl ?_; with_reducible first | assumption | apply State.noteWrap_kept | apply State.laneMessage_kept | apply Kept.foldl | apply Kept.foldl_fst) | split | dsimp only [id_eq] | with_reducible apply Kept.ite

theorem State.writeEvent_kept {Q : List Instr} (s : State) (r : Requester) (o v : Nat) (h0 : Kept Q s) :
    Kept Q (State.writeEvent s r o v) := by
  unfold State.writeEvent
  try dsimp only
  repeat' first | intro _ | (with_reducible first | assumption | apply State.setRoute_kept | apply State.rearm_kept | apply State.crSel_kept | apply State.crSwcmd_kept | apply State.storeReg_kept | apply Kept.foldl | apply Kept.foldl_fst) | (with_reducible refine Kept.mk rfl rfl rfl rfl ?_; with_reducible first | assumption | apply State.setRoute_kept | apply State.rearm_kept | apply State.crSel_kept | apply State.crSwcmd_kept | apply State.storeReg_kept | apply Kept.foldl | apply Kept.foldl_fst) | split | dsimp only [id_eq] | with_reducible apply Kept.ite

theorem State.writeTray_kept {Q : List Instr} (s : State) (r : Requester) (o v : Nat) (h0 : Kept Q s) :
    Kept Q (State.writeTray s r o v) := by
  unfold State.writeTray
  try dsimp only
  repeat' first | intro _ | (with_reducible first | assumption | apply State.tbCtrl_kept | apply State.tbZid_kept | apply State.tbZwp_kept | apply State.hwZero_kept | apply State.hwValid_kept | apply State.tbHwData_kept | apply State.storeReg_kept | apply Kept.foldl | apply Kept.foldl_fst) | (with_reducible refine Kept.mk rfl rfl rfl rfl ?_; with_reducible first | assumption | apply State.tbCtrl_kept | apply State.tbZid_kept | apply State.tbZwp_kept | apply State.hwZero_kept | apply State.hwValid_kept | apply State.tbHwData_kept | apply State.storeReg_kept | apply Kept.foldl | apply Kept.foldl_fst) | split | dsimp only [id_eq] | with_reducible apply Kept.ite

theorem State.writeHead_kept {Q : List Instr} (s : State) (r : Requester) (h o v : Nat) (h0 : Kept Q s) :
    Kept Q (State.writeHead s r h o v) := by
  unfold State.writeHead
  try dsimp only
  repeat' first | intro _ | (with_reducible first | assumption | apply State.seqCommand_kept | apply State.hadcCfg_kept | apply State.hbgReq_kept | apply State.storeReg_kept | apply Kept.foldl | apply Kept.foldl_fst) | (with_reducible refine Kept.mk rfl rfl rfl rfl ?_; with_reducible first | assumption | apply State.seqCommand_kept | apply State.hadcCfg_kept | apply State.hbgReq_kept | apply State.storeReg_kept | apply Kept.foldl | apply Kept.foldl_fst) | split | dsimp only [id_eq] | with_reducible apply Kept.ite

theorem State.writeSlot_kept {Q : List Instr} (s : State) (n o v : Nat) (h0 : Kept Q s) :
    Kept Q (State.writeSlot s n o v) := by
  unfold State.writeSlot
  try dsimp only
  repeat' first | intro _ | (with_reducible first | assumption | apply State.slCtrl_kept | apply State.slConfig_kept | apply State.bankSwap_kept | apply State.slTune_kept | apply State.tuneReg_kept | apply State.slCsel_kept | apply State.slCdata_kept | apply State.slXdata_kept | apply State.storeReg_kept | apply Kept.foldl | apply Kept.foldl_fst) | (with_reducible refine Kept.mk rfl rfl rfl rfl ?_; with_reducible first | assumption | apply State.slCtrl_kept | apply State.slConfig_kept | apply State.bankSwap_kept | apply State.slTune_kept | apply State.tuneReg_kept | apply State.slCsel_kept | apply State.slCdata_kept | apply State.slXdata_kept | apply State.storeReg_kept | apply Kept.foldl | apply Kept.foldl_fst) | split | dsimp only [id_eq] | with_reducible apply Kept.ite

theorem State.writeStepper_kept {Q : List Instr} (s : State) (n o v : Nat) (h0 : Kept Q s) :
    Kept Q (State.writeStepper s n o v) := by
  unfold State.writeStepper
  try dsimp only
  repeat' first | intro _ | (with_reducible first | assumption | apply State.stCtrl_kept | apply State.stPos_kept | apply State.stTarget_kept | apply State.stTable_kept | apply State.stFollow_kept | apply State.storeReg_kept | apply Kept.foldl | apply Kept.foldl_fst) | (with_reducible refine Kept.mk rfl rfl rfl rfl ?_; with_reducible first | assumption | apply State.stCtrl_kept | apply State.stPos_kept | apply State.stTarget_kept | apply State.stTable_kept | apply State.stFollow_kept | apply State.storeReg_kept | apply Kept.foldl | apply Kept.foldl_fst) | split | dsimp only [id_eq] | with_reducible apply Kept.ite

theorem State.writeCore_kept {Q : List Instr} (s : State) (r : Requester) (c o v : Nat) (h0 : Kept Q s) :
    Kept Q (State.writeCore s r c o v) := by
  unfold State.writeCore
  try dsimp only
  repeat' first | intro _ | (with_reducible first | assumption | apply State.smpControl_kept | apply State.refuse_kept | apply State.kcControl_kept | apply State.storeReg_kept | apply Kept.foldl | apply Kept.foldl_fst) | (with_reducible refine Kept.mk rfl rfl rfl rfl ?_; with_reducible first | assumption | apply State.smpControl_kept | apply State.refuse_kept | apply State.kcControl_kept | apply State.storeReg_kept | apply Kept.foldl | apply Kept.foldl_fst) | split | dsimp only [id_eq] | with_reducible apply Kept.ite

theorem State.writeNvme_kept {Q : List Instr} (s : State) (o v : Nat) (h0 : Kept Q s) :
    Kept Q (State.writeNvme s o v) := by
  unfold State.writeNvme
  try dsimp only
  repeat' first | intro _ | (with_reducible first | assumption | apply State.nvCtrl_kept | apply State.storeReg_kept | apply Kept.foldl | apply Kept.foldl_fst) | (with_reducible refine Kept.mk rfl rfl rfl rfl ?_; with_reducible first | assumption | apply State.nvCtrl_kept | apply State.storeReg_kept | apply Kept.foldl | apply Kept.foldl_fst) | split | dsimp only [id_eq] | with_reducible apply Kept.ite

theorem State.updInit_kept {Q : List Instr} (s : State) (f : InitEnt → InitEnt) (h0 : Kept Q s) :
    Kept Q (State.updInit s f) := by
  unfold State.updInit
  try dsimp only
  repeat' first | intro _ | (with_reducible first | assumption | apply Kept.foldl | apply Kept.foldl_fst) | (with_reducible refine Kept.mk rfl rfl rfl rfl ?_; with_reducible first | assumption | apply Kept.foldl | apply Kept.foldl_fst) | split | dsimp only [id_eq] | with_reducible apply Kept.ite

theorem State.writeSas_kept {Q : List Instr} (s : State) (o v : Nat) (h0 : Kept Q s) :
    Kept Q (State.writeSas s o v) := by
  unfold State.writeSas
  try dsimp only
  repeat' first | intro _ | (with_reducible first | assumption | apply State.updInit_kept | apply State.storeReg_kept | apply Kept.foldl | apply Kept.foldl_fst) | (with_reducible refine Kept.mk rfl rfl rfl rfl ?_; with_reducible first | assumption | apply State.updInit_kept | apply State.storeReg_kept | apply Kept.foldl | apply Kept.foldl_fst) | split | dsimp only [id_eq] | with_reducible apply Kept.ite

theorem State.writeRing_kept {Q : List Instr} (s : State) (o v : Nat) (h0 : Kept Q s) :
    Kept Q (State.writeRing s o v) := by
  unfold State.writeRing
  try dsimp only
  repeat' first | intro _ | (with_reducible first | assumption | apply State.storeReg_kept | apply State.bypass_kept | apply State.rnRel_kept | apply Kept.foldl | apply Kept.foldl_fst) | (with_reducible refine Kept.mk rfl rfl rfl rfl ?_; with_reducible first | assumption | apply State.storeReg_kept | apply State.bypass_kept | apply State.rnRel_kept | apply Kept.foldl | apply Kept.foldl_fst) | split | dsimp only [id_eq] | with_reducible apply Kept.ite

theorem State.writeLaser_kept {Q : List Instr} (s : State) (h o v : Nat) (h0 : Kept Q s) :
    Kept Q (State.writeLaser s h o v) := by
  unfold State.writeLaser
  try dsimp only
  repeat' first | intro _ | (with_reducible first | assumption | apply State.wr_kept | apply State.storeReg_kept | apply Kept.foldl | apply Kept.foldl_fst) | (with_reducible refine Kept.mk rfl rfl rfl rfl ?_; with_reducible first | assumption | apply State.wr_kept | apply State.storeReg_kept | apply Kept.foldl | apply Kept.foldl_fst) | split | dsimp only [id_eq] | with_reducible apply Kept.ite

theorem State.writeKey_kept {Q : List Instr} (s : State) (o v : Nat) (h0 : Kept Q s) :
    Kept Q (State.writeKey s o v) := by
  unfold State.writeKey
  try dsimp only
  repeat' first | intro _ | (with_reducible first | assumption | apply State.storeReg_kept | apply State.wr_kept | apply Kept.foldl | apply Kept.foldl_fst) | (with_reducible refine Kept.mk rfl rfl rfl rfl ?_; with_reducible first | assumption | apply State.storeReg_kept | apply State.wr_kept | apply Kept.foldl | apply Kept.foldl_fst) | split | dsimp only [id_eq] | with_reducible apply Kept.ite

theorem State.applyWrite_kept {Q : List Instr} (s : State) (r : Requester) (u : UnitId) (o v : Nat) (h0 : Kept Q s) :
    Kept Q (State.applyWrite s r u o v) := by
  unfold State.applyWrite
  try dsimp only
  repeat' first | intro _ | (with_reducible first | assumption | apply State.lockTree_kept | apply State.noteWrap_kept | apply State.afterEv_kept | apply State.wr_kept | apply State.raiseAll_kept | apply State.writeTime_kept | apply State.writeEvent_kept | apply State.writeKey_kept | apply State.powerControl_kept | apply State.watchdogWrite_kept | apply State.storeReg_kept | apply State.writeNvme_kept | apply State.writeSas_kept | apply State.writeCore_kept | apply State.smAbort_kept | apply State.dcTrain_kept | apply State.mcCommit_kept | apply State.writeSlot_kept | apply State.spCommand_kept | apply State.writeStepper_kept | apply State.vcmRamp_kept | apply State.refreshForce_kept | apply State.mrBaseHi_kept | apply State.mrsTail_kept | apply State.mbgSkip_kept | apply State.writeTray_kept | apply State.writeHead_kept | apply State.writeLaser_kept | apply State.retireBeam_kept | apply State.writeRing_kept | apply State.rejoin_kept | apply State.pairControl_kept | apply State.pairKick_kept | apply Kept.foldl | apply Kept.foldl_fst) | (with_reducible refine Kept.mk rfl rfl rfl rfl ?_; with_reducible first | assumption | apply State.lockTree_kept | apply State.noteWrap_kept | apply State.afterEv_kept | apply State.wr_kept | apply State.raiseAll_kept | apply State.writeTime_kept | apply State.writeEvent_kept | apply State.writeKey_kept | apply State.powerControl_kept | apply State.watchdogWrite_kept | apply State.storeReg_kept | apply State.writeNvme_kept | apply State.writeSas_kept | apply State.writeCore_kept | apply State.smAbort_kept | apply State.dcTrain_kept | apply State.mcCommit_kept | apply State.writeSlot_kept | apply State.spCommand_kept | apply State.writeStepper_kept | apply State.vcmRamp_kept | apply State.refreshForce_kept | apply State.mrBaseHi_kept | apply State.mrsTail_kept | apply State.mbgSkip_kept | apply State.writeTray_kept | apply State.writeHead_kept | apply State.writeLaser_kept | apply State.retireBeam_kept | apply State.writeRing_kept | apply State.rejoin_kept | apply State.pairControl_kept | apply State.pairKick_kept | apply Kept.foldl | apply Kept.foldl_fst) | split | dsimp only [id_eq] | with_reducible apply Kept.ite

theorem State.writeCounter_kept {Q : List Instr} (s : State) (r : Requester) (place e o off v : Nat) (h0 : Kept Q s) :
    Kept Q (State.writeCounter s r place e o off v) := by
  unfold State.writeCounter
  try dsimp only
  repeat' first | intro _ | (with_reducible first | assumption | apply State.violation_kept | apply Kept.foldl | apply Kept.foldl_fst) | (with_reducible refine Kept.mk rfl rfl rfl rfl ?_; with_reducible first | assumption | apply State.violation_kept | apply Kept.foldl | apply Kept.foldl_fst) | split | dsimp only [id_eq] | with_reducible apply Kept.ite

theorem State.busWrite_kept {Q : List Instr} (s : State) (r : Requester) (off n v pc : Nat) (h0 : Kept Q s) :
    Kept Q (State.busWrite s r off n v pc) := by
  unfold State.busWrite
  try dsimp only
  repeat' first | intro _ | (with_reducible first | assumption | apply State.writeCounter_kept | apply State.norCommand_kept | apply State.guard_kept | apply State.applyWrite_kept | apply Kept.foldl | apply Kept.foldl_fst) | (with_reducible refine Kept.mk rfl rfl rfl rfl ?_; with_reducible first | assumption | apply State.writeCounter_kept | apply State.norCommand_kept | apply State.guard_kept | apply State.applyWrite_kept | apply Kept.foldl | apply Kept.foldl_fst) | split | dsimp only [id_eq] | with_reducible apply Kept.ite

theorem State.askRemote_kept {Q : List Instr} (s : State) (q dev off : Nat) (w : Option Nat) (h0 : Kept Q s) :
    Kept Q (State.askRemote s q dev off w) := by
  unfold State.askRemote
  try dsimp only
  repeat' first | intro _ | (with_reducible first | assumption | apply State.ringSend_kept | apply Kept.foldl | apply Kept.foldl_fst) | (with_reducible refine Kept.mk rfl rfl rfl rfl ?_; with_reducible first | assumption | apply State.ringSend_kept | apply Kept.foldl | apply Kept.foldl_fst) | split | dsimp only [id_eq] | with_reducible apply Kept.ite

end Sys2Proof.Machine
end

