-- ==== Sys2Proof/Laws/KeptFleran.lean ====
section
/-! SUPPORT. Soundness is kept by every operation and meaning of Machine/Fleran.lean. -/

namespace Sys2Proof.Machine

theorem State.fetchAt_kept {Q : List Instr} {t : State} {w src : Nat} {re : Bool} (s : State) (c : Nat) (err : MemErr) (pc : Nat)
    (e : State.fetchAt s c err pc = .word t w src re) (h0 : Kept Q s) : Kept Q t := by
  unfold State.fetchAt at e
  split at e
  · split at e
    · cases e
    · cases e; exact h0
  · split at e
    · cases e
    · cases e; exact State.busRead_kept _ _ _ h0
  · cases e; exact h0
  · cases e
    split
    · exact State.prefetch_kept _ _ _ _ _ (State.readLine_kept _ _ _ _ _ _ h0)
    · exact State.readLine_kept _ _ _ _ _ _ h0
  · cases e

theorem State.learn_kept {Q : List Instr} (s : State) (c pc : Nat) (b : Branch) (h0 : Kept Q s) :
    Kept Q (State.learn s c pc b) := by
  unfold State.learn
  try dsimp only
  repeat' first | intro _ | (with_reducible first | assumption | apply State.updCore_kept | apply State.take_kept | apply Kept.foldl | apply Kept.foldl_fst) | (with_reducible refine Kept.mk rfl rfl rfl rfl ?_; with_reducible first | assumption | apply State.updCore_kept | apply State.take_kept | apply Kept.foldl | apply Kept.foldl_fst) | split | dsimp only [id_eq] | with_reducible apply Kept.ite

theorem Eff.plain_kept {Q : List Instr} (s : State) (pc : Nat) (h0 : Kept Q s) :
    Kept Q (Eff.plain s pc).s := by
  unfold Eff.plain
  try dsimp only
  repeat' first | intro _ | (with_reducible first | assumption | apply Kept.foldl | apply Kept.foldl_fst) | (with_reducible refine Kept.mk rfl rfl rfl rfl ?_; with_reducible first | assumption | apply Kept.foldl | apply Kept.foldl_fst) | split | dsimp only [id_eq] | with_reducible apply Kept.ite

theorem Eff.exc_kept {Q : List Instr} (s : State) (pc code val : Nat) (h0 : Kept Q s) :
    Kept Q (Eff.exc s pc code val).s := by
  unfold Eff.exc
  try dsimp only
  repeat' first | intro _ | (with_reducible first | assumption | apply State.trap_kept | apply Kept.foldl | apply Kept.foldl_fst) | (with_reducible refine Kept.mk rfl rfl rfl rfl ?_; with_reducible first | assumption | apply State.trap_kept | apply Kept.foldl | apply Kept.foldl_fst) | split | dsimp only [id_eq] | with_reducible apply Kept.ite

theorem State.wrongStep_kept {Q : List Instr} (s : State) (c : Nat) (w : WrongPath) (h0 : Kept Q s) :
    Kept Q (State.wrongStep s c w) := by
  unfold State.wrongStep
  try dsimp only
  repeat' first | intro _ | (with_reducible first | assumption | apply State.prefetch_kept | apply State.smpFetch_kept | apply State.smpWrite_kept | apply Kept.foldl | apply Kept.foldl_fst) | (with_reducible refine Kept.mk rfl rfl rfl rfl ?_; with_reducible first | assumption | apply State.prefetch_kept | apply State.smpFetch_kept | apply State.smpWrite_kept | apply Kept.foldl | apply Kept.foldl_fst) | split | dsimp only [id_eq] | with_reducible apply Kept.ite

theorem State.commit_kept {Q : List Instr} (s : State) (c pc : Nat) (e : Eff) (h0 : Kept Q s) (h1 : Kept Q e.s) :
    Kept Q (State.commit s c pc e) := by
  unfold State.commit
  try dsimp only
  repeat' first | intro _ | (with_reducible first | assumption | apply State.count_kept | apply State.wr_kept | apply State.learn_kept | apply State.updCore_kept | apply Kept.foldl | apply Kept.foldl_fst) | (with_reducible refine Kept.mk rfl rfl rfl rfl ?_; with_reducible first | assumption | apply State.count_kept | apply State.wr_kept | apply State.learn_kept | apply State.updCore_kept | apply Kept.foldl | apply Kept.foldl_fst) | split | dsimp only [id_eq] | with_reducible apply Kept.ite

theorem State.retire_kept {Q : List Instr} (c : Nat) (x : Pipe) (pc w fsrc : Nat) (fre : Bool) (e : Eff) (h0 : Kept Q e.s) :
    Kept Q (State.retire c x pc w fsrc fre e) := by
  unfold State.retire
  try dsimp only
  repeat' first | intro _ | (with_reducible first | assumption | apply State.count_kept | apply State.smpFetch_kept | apply State.trap_kept | apply State.commit_kept | apply State.wrongStep_kept | apply State.smpWrite_kept | apply Kept.foldl | apply Kept.foldl_fst) | (with_reducible refine Kept.mk rfl rfl rfl rfl ?_; with_reducible first | assumption | apply State.count_kept | apply State.smpFetch_kept | apply State.trap_kept | apply State.commit_kept | apply State.wrongStep_kept | apply State.smpWrite_kept | apply Kept.foldl | apply Kept.foldl_fst) | split | dsimp only [id_eq] | with_reducible apply Kept.ite

theorem State.run_kept {Q : List Instr} (s : State) (c : Nat) (x : Pipe) (i : FInstr) (f : State → Nat → Eff) (h0 : Kept Q s) (h1 : ∀ a0 a1, Kept Q a0 → Kept Q (f a0 a1).s) :
    Kept Q (State.run s c x i f) := by
  unfold State.run
  try dsimp only
  repeat' first | intro _ | (with_reducible first | assumption | apply h1 | apply State.fetchAt_kept (e := by assumption) | apply State.retire_kept | apply Kept.foldl | apply Kept.foldl_fst) | (with_reducible refine Kept.mk rfl rfl rfl rfl ?_; with_reducible first | assumption | apply h1 | apply State.fetchAt_kept (e := by assumption) | apply State.retire_kept | apply Kept.foldl | apply Kept.foldl_fst) | split | dsimp only [id_eq] | with_reducible apply Kept.ite

theorem State.alu_kept {Q : List Instr} (s : State) (c pc : Nat) (op : AluOp) (rd ra rb : Fin 32) (h0 : Kept Q s) :
    Kept Q (State.alu s c pc op rd ra rb).s := by
  unfold State.alu
  try dsimp only
  repeat' first | intro _ | (with_reducible first | assumption | apply Eff.plain_kept | apply State.setGreg_kept | apply Kept.foldl | apply Kept.foldl_fst) | (with_reducible refine Kept.mk rfl rfl rfl rfl ?_; with_reducible first | assumption | apply Eff.plain_kept | apply State.setGreg_kept | apply Kept.foldl | apply Kept.foldl_fst) | split | dsimp only [id_eq] | with_reducible apply Kept.ite

theorem State.immOp_kept {Q : List Instr} (s : State) (c pc : Nat) (op : ImmOp) (rd ra : Fin 32) (v : BitVec 16) (h0 : Kept Q s) :
    Kept Q (State.immOp s c pc op rd ra v).s := by
  unfold State.immOp
  try dsimp only
  repeat' first | intro _ | (with_reducible first | assumption | apply Eff.plain_kept | apply State.setGreg_kept | apply Kept.foldl | apply Kept.foldl_fst) | (with_reducible refine Kept.mk rfl rfl rfl rfl ?_; with_reducible first | assumption | apply Eff.plain_kept | apply State.setGreg_kept | apply Kept.foldl | apply Kept.foldl_fst) | split | dsimp only [id_eq] | with_reducible apply Kept.ite

theorem State.sramFault_kept {Q : List Instr} (s : State) (c a b : Nat) (h0 : Kept Q s) :
    Kept Q (State.sramFault s c a b) := by
  unfold State.sramFault
  try dsimp only
  repeat' first | intro _ | (with_reducible first | assumption | apply State.updCore_kept | apply State.incSat_kept | apply State.wr_kept | apply State.raise_kept | apply Kept.foldl | apply Kept.foldl_fst) | (with_reducible refine Kept.mk rfl rfl rfl rfl ?_; with_reducible first | assumption | apply State.updCore_kept | apply State.incSat_kept | apply State.wr_kept | apply State.raise_kept | apply Kept.foldl | apply Kept.foldl_fst) | split | dsimp only [id_eq] | with_reducible apply Kept.ite

theorem State.loadMem_kept {Q : List Instr} (s : State) (c : Nat) (err : MemErr) (a n : Nat) (skip : Bool) (h0 : Kept Q s) :
    (∀ t v src re, State.loadMem s c err a n skip = .value t v src re → Kept Q t) ∧
      (∀ t code, State.loadMem s c err a n skip = .fault t code → Kept Q t) := by
  refine ⟨?_, ?_⟩
  · intro t v src re e
    unfold State.loadMem at e
    split at e
    · split at e
      · cases e
      · cases e; exact h0
    · split at e
      · split at e
        · cases e; exact h0
        · cases e; exact State.busRead_kept _ _ _ h0
        · cases e
      · cases e; exact State.busRead_kept _ _ _ h0
    · split at e
      · cases e
      · cases e; exact h0
    · split at e
      · cases e
      · split at e
        · cases e
          split
          · exact State.l2Parity_kept _ _ (State.l2Ask_kept _ _ h0)
          · exact State.l2Ask_kept _ _ h0
        · cases e; exact State.readLine_kept _ _ _ _ _ _ h0
    · cases e
  · intro t code e
    unfold State.loadMem at e
    split at e
    · split at e
      · cases e; exact State.sramFault_kept _ _ _ _ h0
      · cases e
    · split at e
      · split at e <;> cases e
      · cases e
    · split at e
      · cases e; exact State.eccFail_kept _ _ h0
      · cases e
    · split at e
      · cases e; exact State.eccFail_kept _ _ h0
      · split at e <;> cases e
    · cases e; exact h0

theorem State.loadValue_kept {Q : List Instr} {t : State} {v src : Nat} {re : Bool} (s : State) (c : Nat) (err : MemErr) (a n : Nat)
    (skip : Bool) (e : State.loadMem s c err a n skip = .value t v src re) (h0 : Kept Q s) : Kept Q t :=
  (State.loadMem_kept s c err a n skip h0).1 _ _ _ _ e

theorem State.loadFault_kept {Q : List Instr} {t : State} {code : Nat} (s : State) (c : Nat) (err : MemErr) (a n : Nat)
    (skip : Bool) (e : State.loadMem s c err a n skip = .fault t code) (h0 : Kept Q s) : Kept Q t :=
  (State.loadMem_kept s c err a n skip h0).2 _ _ e

theorem State.storeMem_kept {Q : List Instr} {t : State} {b : Bool} (s : State) (c a n v pc : Nat)
    (e : State.storeMem s c a n v pc = some (t, b)) (h0 : Kept Q s) : Kept Q t := by
  unfold State.storeMem at e
  split at e
  · cases e; exact State.heal_kept _ _ _ (State.storeLE_kept _ _ _ _ h0)
  · split at e
    · split at e
      · cases e; exact h0
      · split at e
        · cases e; exact h0
        · cases e; exact State.busWrite_kept _ _ _ _ _ _ h0
        · cases e; exact State.askRemote_kept _ _ _ _ _ h0
    · cases e; exact State.busWrite_kept _ _ _ _ _ _ h0
  · cases e; exact State.heal_kept _ _ _ (State.dropL2_kept _ _ _ (State.storeLE_kept _ _ _ _ h0))
  · cases e; exact State.storeCached_kept _ _ _ _ _ (State.l2Ask_kept _ _ h0)
  · cases e

theorem State.load_kept {Q : List Instr} (s : State) (c pc : Nat) (x : Pipe) (op : LoadOp) (rd ra : Fin 32) (v : BitVec 16) (h0 : Kept Q s) :
    Kept Q (State.load s c pc x op rd ra v).s := by
  unfold State.load
  try dsimp only
  repeat' first | intro _ | (with_reducible first | assumption | apply Eff.exc_kept | apply State.loadValue_kept (e := by assumption) | apply State.loadFault_kept (e := by assumption) | apply Eff.plain_kept | apply State.setGreg_kept | apply State.askRemote_kept | apply State.updCore_kept | apply Kept.foldl | apply Kept.foldl_fst) | (with_reducible refine Kept.mk rfl rfl rfl rfl ?_; with_reducible first | assumption | apply Eff.exc_kept | apply State.loadValue_kept (e := by assumption) | apply State.loadFault_kept (e := by assumption) | apply Eff.plain_kept | apply State.setGreg_kept | apply State.askRemote_kept | apply State.updCore_kept | apply Kept.foldl | apply Kept.foldl_fst) | split | dsimp only [id_eq] | with_reducible apply Kept.ite

theorem State.store_kept {Q : List Instr} (s : State) (c pc : Nat) (op : StoreOp) (rs ra : Fin 32) (v : BitVec 16) (h0 : Kept Q s) :
    Kept Q (State.store s c pc op rs ra v).s := by
  unfold State.store
  try dsimp only
  repeat' first | intro _ | (with_reducible first | assumption | apply Eff.exc_kept | apply State.storeMem_kept (e := by assumption) | apply State.updCore_kept | apply Eff.plain_kept | apply Kept.foldl | apply Kept.foldl_fst) | (with_reducible refine Kept.mk rfl rfl rfl rfl ?_; with_reducible first | assumption | apply Eff.exc_kept | apply State.storeMem_kept (e := by assumption) | apply State.updCore_kept | apply Eff.plain_kept | apply Kept.foldl | apply Kept.foldl_fst) | split | dsimp only [id_eq] | with_reducible apply Kept.ite

theorem State.amo_kept {Q : List Instr} (s : State) (c pc : Nat) (x : Pipe) (op : AmoOp) (rd ra rb : Fin 32) (h0 : Kept Q s) :
    Kept Q (State.amo s c pc x op rd ra rb).s := by
  unfold State.amo
  try dsimp only
  repeat' first | intro _ | (with_reducible first | assumption | apply Eff.exc_kept | apply State.sramFault_kept | apply State.storeLE_kept | apply Eff.plain_kept | apply State.setGreg_kept | apply State.eccFail_kept | apply State.l2Ask_kept | apply State.l2Parity_kept | apply State.storeCached_kept | apply Kept.foldl | apply Kept.foldl_fst) | (with_reducible refine Kept.mk rfl rfl rfl rfl ?_; with_reducible first | assumption | apply Eff.exc_kept | apply State.sramFault_kept | apply State.storeLE_kept | apply Eff.plain_kept | apply State.setGreg_kept | apply State.eccFail_kept | apply State.l2Ask_kept | apply State.l2Parity_kept | apply State.storeCached_kept | apply Kept.foldl | apply Kept.foldl_fst) | split | dsimp only [id_eq] | with_reducible apply Kept.ite

theorem State.branch_kept {Q : List Instr} (s : State) (c pc : Nat) (op : BrOp) (ra rb : Fin 32) (off : BitVec 16) (h0 : Kept Q s) :
    Kept Q (State.branch s c pc op ra rb off).s := by
  unfold State.branch
  try dsimp only
  repeat' first | intro _ | (with_reducible first | assumption | apply Kept.foldl | apply Kept.foldl_fst) | (with_reducible refine Kept.mk rfl rfl rfl rfl ?_; with_reducible first | assumption | apply Kept.foldl | apply Kept.foldl_fst) | split | dsimp only [id_eq] | with_reducible apply Kept.ite

theorem State.jump_kept {Q : List Instr} (s : State) (c pc : Nat) (indirect : Bool) (rd tg : Nat) (h0 : Kept Q s) :
    Kept Q (State.jump s c pc indirect rd tg).s := by
  unfold State.jump
  try dsimp only
  repeat' first | intro _ | (with_reducible first | assumption | apply State.setGreg_kept | apply Kept.foldl | apply Kept.foldl_fst) | (with_reducible refine Kept.mk rfl rfl rfl rfl ?_; with_reducible first | assumption | apply State.setGreg_kept | apply Kept.foldl | apply Kept.foldl_fst) | split | dsimp only [id_eq] | with_reducible apply Kept.ite

theorem State.tret_kept {Q : List Instr} (s : State) (c pc w : Nat) (h0 : Kept Q s) :
    Kept Q (State.tret s c pc w).s := by
  unfold State.tret
  try dsimp only
  repeat' first | intro _ | (with_reducible first | assumption | apply Eff.exc_kept | apply State.updCore_kept | apply Kept.foldl | apply Kept.foldl_fst) | (with_reducible refine Kept.mk rfl rfl rfl rfl ?_; with_reducible first | assumption | apply Eff.exc_kept | apply State.updCore_kept | apply Kept.foldl | apply Kept.foldl_fst) | split | dsimp only [id_eq] | with_reducible apply Kept.ite

theorem State.invalidate_kept {Q : List Instr} (s : State) (c pc : Nat) (n : Fin 3) (w : Nat) (h0 : Kept Q s) :
    Kept Q (State.invalidate s c pc n w).s := by
  unfold State.invalidate
  try dsimp only
  repeat' first | intro _ | (with_reducible first | assumption | apply Eff.plain_kept | apply State.updCore_kept | apply Eff.exc_kept | apply Kept.foldl | apply Kept.foldl_fst) | (with_reducible refine Kept.mk rfl rfl rfl rfl ?_; with_reducible first | assumption | apply Eff.plain_kept | apply State.updCore_kept | apply Eff.exc_kept | apply Kept.foldl | apply Kept.foldl_fst) | split | dsimp only [id_eq] | with_reducible apply Kept.ite

theorem State.halt_kept {Q : List Instr} (s : State) (c pc : Nat) (h0 : Kept Q s) :
    Kept Q (State.halt s c pc).s := by
  unfold State.halt
  try dsimp only
  repeat' first | intro _ | (with_reducible first | assumption | apply Eff.plain_kept | apply State.setFlag_kept | apply State.wr_kept | apply State.raise_kept | apply Kept.foldl | apply Kept.foldl_fst) | (with_reducible refine Kept.mk rfl rfl rfl rfl ?_; with_reducible first | assumption | apply Eff.plain_kept | apply State.setFlag_kept | apply State.wr_kept | apply State.raise_kept | apply Kept.foldl | apply Kept.foldl_fst) | split | dsimp only [id_eq] | with_reducible apply Kept.ite

theorem State.loadWords_kept {Q : List Instr} (c : Nat) (err : MemErr) (x0 : Nat) (x1 : Nat) (x2 : State) (h0 : Kept Q x2) :
    Kept Q (State.loadWords c err x0 x1 x2).1 := by
  induction x0 generalizing c err x1 x2 with
  | zero =>
    unfold State.loadWords
    try dsimp only
    repeat' first | intro _ | (with_reducible first | assumption | apply State.loadValue_kept (e := by assumption) | apply State.loadFault_kept (e := by assumption) | apply Kept.foldl | apply Kept.foldl_fst) | (with_reducible refine Kept.mk rfl rfl rfl rfl ?_; with_reducible first | assumption | apply State.loadValue_kept (e := by assumption) | apply State.loadFault_kept (e := by assumption) | apply Kept.foldl | apply Kept.foldl_fst) | split | dsimp only [id_eq] | with_reducible apply Kept.ite
  | succ n ih =>
    unfold State.loadWords
    try dsimp only
    repeat' first | intro _ | (with_reducible first | apply ih | assumption | apply State.loadValue_kept (e := by assumption) | apply State.loadFault_kept (e := by assumption) | apply Kept.foldl | apply Kept.foldl_fst) | (with_reducible refine Kept.mk rfl rfl rfl rfl ?_; with_reducible first | assumption | apply State.loadValue_kept (e := by assumption) | apply State.loadFault_kept (e := by assumption) | apply Kept.foldl | apply Kept.foldl_fst) | split | dsimp only [id_eq] | with_reducible apply Kept.ite

theorem State.postQueue_kept {Q : List Instr} {t : State} (s : State) (owner q : Nat) (w : List Nat)
    (e : State.postQueue s owner q w = some t) (h0 : Kept Q s) : Kept Q t := by
  unfold State.postQueue at e
  split at e
  · exact State.postSlice_kept _ _ _ e h0
  · exact State.postHash_kept _ _ _ e h0
  all_goals
    split at e
    · cases e
    · cases e
      first
      | exact State.postRead_kept _ _ h0
      | exact State.postMessage_kept _ _ _ h0
      | exact Kept.mk rfl rfl rfl rfl h0

theorem State.post_kept {Q : List Instr} (s : State) (c pc : Nat) (x : Pipe) (rd ra : Fin 32) (q : Nat) (h0 : Kept Q s) :
    Kept Q (State.post s c pc x rd ra q).s := by
  unfold State.post
  try dsimp only
  repeat' first | intro _ | (with_reducible first | assumption | apply Eff.plain_kept | apply State.setGreg_kept | apply Eff.exc_kept | apply State.loadWords_kept | apply State.postQueue_kept (e := by assumption) | apply Kept.foldl | apply Kept.foldl_fst) | (with_reducible refine Kept.mk rfl rfl rfl rfl ?_; with_reducible first | assumption | apply Eff.plain_kept | apply State.setGreg_kept | apply Eff.exc_kept | apply State.loadWords_kept | apply State.postQueue_kept (e := by assumption) | apply Kept.foldl | apply Kept.foldl_fst) | split | dsimp only [id_eq] | with_reducible apply Kept.ite

theorem State.storeWords_kept {Q : List Instr} {t : State} (c pc : Nat) (x0 : List Nat) (a : Nat) (s : State)
    (e : State.storeWords c pc x0 a s = some t) (h0 : Kept Q s) : Kept Q t := by
  induction x0 generalizing a s with
  | nil => unfold State.storeWords at e; cases e; exact h0
  | cons v vs ih =>
    unfold State.storeWords at e
    split at e
    · exact ih _ _ e (State.storeMem_kept _ _ _ _ _ _ ‹_› h0)
    · cases e

theorem State.take_kept {Q : List Instr} (s : State) (c pc : Nat) (rd ra : Fin 32) (q : Nat) (h0 : Kept Q s) :
    Kept Q (State.take s c pc rd ra q).s := by
  unfold State.take
  try dsimp only
  repeat' first | intro _ | (with_reducible first | assumption | apply Eff.exc_kept | apply Eff.plain_kept | apply State.setGreg_kept | apply State.setWaiting_kept | apply State.storeWords_kept (e := by assumption) | apply State.setCmd_kept | apply Kept.foldl | apply Kept.foldl_fst) | (with_reducible refine Kept.mk rfl rfl rfl rfl ?_; with_reducible first | assumption | apply Eff.exc_kept | apply Eff.plain_kept | apply State.setGreg_kept | apply State.setWaiting_kept | apply State.storeWords_kept (e := by assumption) | apply State.setCmd_kept | apply Kept.foldl | apply Kept.foldl_fst) | split | dsimp only [id_eq] | with_reducible apply Kept.ite

theorem State.give_kept {Q : List Instr} (s : State) (c pc : Nat) (x : Pipe) (rd ra : Fin 32) (q : Nat) (h0 : Kept Q s) :
    Kept Q (State.give s c pc x rd ra q).s := by
  unfold State.give
  try dsimp only
  repeat' first | intro _ | (with_reducible first | assumption | apply Eff.exc_kept | apply Eff.plain_kept | apply State.setGreg_kept | apply State.loadWords_kept | apply State.giveRec_kept | apply Kept.foldl | apply Kept.foldl_fst) | (with_reducible refine Kept.mk rfl rfl rfl rfl ?_; with_reducible first | assumption | apply Eff.exc_kept | apply Eff.plain_kept | apply State.setGreg_kept | apply State.loadWords_kept | apply State.giveRec_kept | apply Kept.foldl | apply Kept.foldl_fst) | split | dsimp only [id_eq] | with_reducible apply Kept.ite

theorem State.waitFor_kept {Q : List Instr} (s : State) (c pc : Nat) (rd ra rb : Fin 32) (kind : Fin 3) (h0 : Kept Q s) :
    Kept Q (State.waitFor s c pc rd ra rb kind).s := by
  unfold State.waitFor
  try dsimp only
  repeat' first | intro _ | (with_reducible first | assumption | apply Eff.plain_kept | apply State.setGreg_kept | apply State.updCore_kept | apply Kept.foldl | apply Kept.foldl_fst) | (with_reducible refine Kept.mk rfl rfl rfl rfl ?_; with_reducible first | assumption | apply Eff.plain_kept | apply State.setGreg_kept | apply State.updCore_kept | apply Kept.foldl | apply Kept.foldl_fst) | split | dsimp only [id_eq] | with_reducible apply Kept.ite

theorem State.endWait_kept {Q : List Instr} (s : State) (c cycles : Nat) (h0 : Kept Q s) :
    Kept Q (State.endWait s c cycles) := by
  unfold State.endWait
  try dsimp only
  repeat' first | intro _ | (with_reducible first | assumption | apply State.updCore_kept | apply State.count_kept | apply Kept.foldl | apply Kept.foldl_fst) | (with_reducible refine Kept.mk rfl rfl rfl rfl ?_; with_reducible first | assumption | apply State.updCore_kept | apply State.count_kept | apply Kept.foldl | apply Kept.foldl_fst) | split | dsimp only [id_eq] | with_reducible apply Kept.ite

theorem execAdd_kept {Q : List Instr} (c : Fin 9) (x : Pipe) (rd ra rb : Fin 32) (s : State) (h0 : Kept Q s) :
    KeptOut Q (execAdd c x rd ra rb s) := by
  unfold execAdd
  try dsimp only
  repeat' first | intro _ | (with_reducible first | assumption | apply live_kept | apply State.run_kept | apply State.alu_kept | apply Kept.foldl | apply Kept.foldl_fst | apply KeptOut.live | apply KeptOut.next) | (with_reducible refine Kept.mk rfl rfl rfl rfl ?_; with_reducible first | assumption | apply live_kept | apply State.run_kept | apply State.alu_kept | apply Kept.foldl | apply Kept.foldl_fst) | split | dsimp only [id_eq] | with_reducible apply Kept.ite

theorem execSub_kept {Q : List Instr} (c : Fin 9) (x : Pipe) (rd ra rb : Fin 32) (s : State) (h0 : Kept Q s) :
    KeptOut Q (execSub c x rd ra rb s) := by
  unfold execSub
  try dsimp only
  repeat' first | intro _ | (with_reducible first | assumption | apply live_kept | apply State.run_kept | apply State.alu_kept | apply Kept.foldl | apply Kept.foldl_fst | apply KeptOut.live | apply KeptOut.next) | (with_reducible refine Kept.mk rfl rfl rfl rfl ?_; with_reducible first | assumption | apply live_kept | apply State.run_kept | apply State.alu_kept | apply Kept.foldl | apply Kept.foldl_fst) | split | dsimp only [id_eq] | with_reducible apply Kept.ite

theorem execAnd_kept {Q : List Instr} (c : Fin 9) (x : Pipe) (rd ra rb : Fin 32) (s : State) (h0 : Kept Q s) :
    KeptOut Q (execAnd c x rd ra rb s) := by
  unfold execAnd
  try dsimp only
  repeat' first | intro _ | (with_reducible first | assumption | apply live_kept | apply State.run_kept | apply State.alu_kept | apply Kept.foldl | apply Kept.foldl_fst | apply KeptOut.live | apply KeptOut.next) | (with_reducible refine Kept.mk rfl rfl rfl rfl ?_; with_reducible first | assumption | apply live_kept | apply State.run_kept | apply State.alu_kept | apply Kept.foldl | apply Kept.foldl_fst) | split | dsimp only [id_eq] | with_reducible apply Kept.ite

theorem execOr_kept {Q : List Instr} (c : Fin 9) (x : Pipe) (rd ra rb : Fin 32) (s : State) (h0 : Kept Q s) :
    KeptOut Q (execOr c x rd ra rb s) := by
  unfold execOr
  try dsimp only
  repeat' first | intro _ | (with_reducible first | assumption | apply live_kept | apply State.run_kept | apply State.alu_kept | apply Kept.foldl | apply Kept.foldl_fst | apply KeptOut.live | apply KeptOut.next) | (with_reducible refine Kept.mk rfl rfl rfl rfl ?_; with_reducible first | assumption | apply live_kept | apply State.run_kept | apply State.alu_kept | apply Kept.foldl | apply Kept.foldl_fst) | split | dsimp only [id_eq] | with_reducible apply Kept.ite

theorem execXor_kept {Q : List Instr} (c : Fin 9) (x : Pipe) (rd ra rb : Fin 32) (s : State) (h0 : Kept Q s) :
    KeptOut Q (execXor c x rd ra rb s) := by
  unfold execXor
  try dsimp only
  repeat' first | intro _ | (with_reducible first | assumption | apply live_kept | apply State.run_kept | apply State.alu_kept | apply Kept.foldl | apply Kept.foldl_fst | apply KeptOut.live | apply KeptOut.next) | (with_reducible refine Kept.mk rfl rfl rfl rfl ?_; with_reducible first | assumption | apply live_kept | apply State.run_kept | apply State.alu_kept | apply Kept.foldl | apply Kept.foldl_fst) | split | dsimp only [id_eq] | with_reducible apply Kept.ite

theorem execAndn_kept {Q : List Instr} (c : Fin 9) (x : Pipe) (rd ra rb : Fin 32) (s : State) (h0 : Kept Q s) :
    KeptOut Q (execAndn c x rd ra rb s) := by
  unfold execAndn
  try dsimp only
  repeat' first | intro _ | (with_reducible first | assumption | apply live_kept | apply State.run_kept | apply State.alu_kept | apply Kept.foldl | apply Kept.foldl_fst | apply KeptOut.live | apply KeptOut.next) | (with_reducible refine Kept.mk rfl rfl rfl rfl ?_; with_reducible first | assumption | apply live_kept | apply State.run_kept | apply State.alu_kept | apply Kept.foldl | apply Kept.foldl_fst) | split | dsimp only [id_eq] | with_reducible apply Kept.ite

theorem execSll_kept {Q : List Instr} (c : Fin 9) (x : Pipe) (rd ra rb : Fin 32) (s : State) (h0 : Kept Q s) :
    KeptOut Q (execSll c x rd ra rb s) := by
  unfold execSll
  try dsimp only
  repeat' first | intro _ | (with_reducible first | assumption | apply live_kept | apply State.run_kept | apply State.alu_kept | apply Kept.foldl | apply Kept.foldl_fst | apply KeptOut.live | apply KeptOut.next) | (with_reducible refine Kept.mk rfl rfl rfl rfl ?_; with_reducible first | assumption | apply live_kept | apply State.run_kept | apply State.alu_kept | apply Kept.foldl | apply Kept.foldl_fst) | split | dsimp only [id_eq] | with_reducible apply Kept.ite

theorem execSrl_kept {Q : List Instr} (c : Fin 9) (x : Pipe) (rd ra rb : Fin 32) (s : State) (h0 : Kept Q s) :
    KeptOut Q (execSrl c x rd ra rb s) := by
  unfold execSrl
  try dsimp only
  repeat' first | intro _ | (with_reducible first | assumption | apply live_kept | apply State.run_kept | apply State.alu_kept | apply Kept.foldl | apply Kept.foldl_fst | apply KeptOut.live | apply KeptOut.next) | (with_reducible refine Kept.mk rfl rfl rfl rfl ?_; with_reducible first | assumption | apply live_kept | apply State.run_kept | apply State.alu_kept | apply Kept.foldl | apply Kept.foldl_fst) | split | dsimp only [id_eq] | with_reducible apply Kept.ite

theorem execSra_kept {Q : List Instr} (c : Fin 9) (x : Pipe) (rd ra rb : Fin 32) (s : State) (h0 : Kept Q s) :
    KeptOut Q (execSra c x rd ra rb s) := by
  unfold execSra
  try dsimp only
  repeat' first | intro _ | (with_reducible first | assumption | apply live_kept | apply State.run_kept | apply State.alu_kept | apply Kept.foldl | apply Kept.foldl_fst | apply KeptOut.live | apply KeptOut.next) | (with_reducible refine Kept.mk rfl rfl rfl rfl ?_; with_reducible first | assumption | apply live_kept | apply State.run_kept | apply State.alu_kept | apply Kept.foldl | apply Kept.foldl_fst) | split | dsimp only [id_eq] | with_reducible apply Kept.ite

theorem execClt_kept {Q : List Instr} (c : Fin 9) (x : Pipe) (rd ra rb : Fin 32) (s : State) (h0 : Kept Q s) :
    KeptOut Q (execClt c x rd ra rb s) := by
  unfold execClt
  try dsimp only
  repeat' first | intro _ | (with_reducible first | assumption | apply live_kept | apply State.run_kept | apply State.alu_kept | apply Kept.foldl | apply Kept.foldl_fst | apply KeptOut.live | apply KeptOut.next) | (with_reducible refine Kept.mk rfl rfl rfl rfl ?_; with_reducible first | assumption | apply live_kept | apply State.run_kept | apply State.alu_kept | apply Kept.foldl | apply Kept.foldl_fst) | split | dsimp only [id_eq] | with_reducible apply Kept.ite

theorem execCltu_kept {Q : List Instr} (c : Fin 9) (x : Pipe) (rd ra rb : Fin 32) (s : State) (h0 : Kept Q s) :
    KeptOut Q (execCltu c x rd ra rb s) := by
  unfold execCltu
  try dsimp only
  repeat' first | intro _ | (with_reducible first | assumption | apply live_kept | apply State.run_kept | apply State.alu_kept | apply Kept.foldl | apply Kept.foldl_fst | apply KeptOut.live | apply KeptOut.next) | (with_reducible refine Kept.mk rfl rfl rfl rfl ?_; with_reducible first | assumption | apply live_kept | apply State.run_kept | apply State.alu_kept | apply Kept.foldl | apply Kept.foldl_fst) | split | dsimp only [id_eq] | with_reducible apply Kept.ite

theorem execMul_kept {Q : List Instr} (c : Fin 9) (x : Pipe) (rd ra rb : Fin 32) (s : State) (h0 : Kept Q s) :
    KeptOut Q (execMul c x rd ra rb s) := by
  unfold execMul
  try dsimp only
  repeat' first | intro _ | (with_reducible first | assumption | apply live_kept | apply State.run_kept | apply State.alu_kept | apply Kept.foldl | apply Kept.foldl_fst | apply KeptOut.live | apply KeptOut.next) | (with_reducible refine Kept.mk rfl rfl rfl rfl ?_; with_reducible first | assumption | apply live_kept | apply State.run_kept | apply State.alu_kept | apply Kept.foldl | apply Kept.foldl_fst) | split | dsimp only [id_eq] | with_reducible apply Kept.ite

theorem execMulh_kept {Q : List Instr} (c : Fin 9) (x : Pipe) (rd ra rb : Fin 32) (s : State) (h0 : Kept Q s) :
    KeptOut Q (execMulh c x rd ra rb s) := by
  unfold execMulh
  try dsimp only
  repeat' first | intro _ | (with_reducible first | assumption | apply live_kept | apply State.run_kept | apply State.alu_kept | apply Kept.foldl | apply Kept.foldl_fst | apply KeptOut.live | apply KeptOut.next) | (with_reducible refine Kept.mk rfl rfl rfl rfl ?_; with_reducible first | assumption | apply live_kept | apply State.run_kept | apply State.alu_kept | apply Kept.foldl | apply Kept.foldl_fst) | split | dsimp only [id_eq] | with_reducible apply Kept.ite

theorem execMulhu_kept {Q : List Instr} (c : Fin 9) (x : Pipe) (rd ra rb : Fin 32) (s : State) (h0 : Kept Q s) :
    KeptOut Q (execMulhu c x rd ra rb s) := by
  unfold execMulhu
  try dsimp only
  repeat' first | intro _ | (with_reducible first | assumption | apply live_kept | apply State.run_kept | apply State.alu_kept | apply Kept.foldl | apply Kept.foldl_fst | apply KeptOut.live | apply KeptOut.next) | (with_reducible refine Kept.mk rfl rfl rfl rfl ?_; with_reducible first | assumption | apply live_kept | apply State.run_kept | apply State.alu_kept | apply Kept.foldl | apply Kept.foldl_fst) | split | dsimp only [id_eq] | with_reducible apply Kept.ite

theorem execDiv_kept {Q : List Instr} (c : Fin 9) (x : Pipe) (rd ra rb : Fin 32) (s : State) (h0 : Kept Q s) :
    KeptOut Q (execDiv c x rd ra rb s) := by
  unfold execDiv
  try dsimp only
  repeat' first | intro _ | (with_reducible first | assumption | apply live_kept | apply State.run_kept | apply State.alu_kept | apply Kept.foldl | apply Kept.foldl_fst | apply KeptOut.live | apply KeptOut.next) | (with_reducible refine Kept.mk rfl rfl rfl rfl ?_; with_reducible first | assumption | apply live_kept | apply State.run_kept | apply State.alu_kept | apply Kept.foldl | apply Kept.foldl_fst) | split | dsimp only [id_eq] | with_reducible apply Kept.ite

theorem execDivu_kept {Q : List Instr} (c : Fin 9) (x : Pipe) (rd ra rb : Fin 32) (s : State) (h0 : Kept Q s) :
    KeptOut Q (execDivu c x rd ra rb s) := by
  unfold execDivu
  try dsimp only
  repeat' first | intro _ | (with_reducible first | assumption | apply live_kept | apply State.run_kept | apply State.alu_kept | apply Kept.foldl | apply Kept.foldl_fst | apply KeptOut.live | apply KeptOut.next) | (with_reducible refine Kept.mk rfl rfl rfl rfl ?_; with_reducible first | assumption | apply live_kept | apply State.run_kept | apply State.alu_kept | apply Kept.foldl | apply Kept.foldl_fst) | split | dsimp only [id_eq] | with_reducible apply Kept.ite

theorem execRem_kept {Q : List Instr} (c : Fin 9) (x : Pipe) (rd ra rb : Fin 32) (s : State) (h0 : Kept Q s) :
    KeptOut Q (execRem c x rd ra rb s) := by
  unfold execRem
  try dsimp only
  repeat' first | intro _ | (with_reducible first | assumption | apply live_kept | apply State.run_kept | apply State.alu_kept | apply Kept.foldl | apply Kept.foldl_fst | apply KeptOut.live | apply KeptOut.next) | (with_reducible refine Kept.mk rfl rfl rfl rfl ?_; with_reducible first | assumption | apply live_kept | apply State.run_kept | apply State.alu_kept | apply Kept.foldl | apply Kept.foldl_fst) | split | dsimp only [id_eq] | with_reducible apply Kept.ite

theorem execRemu_kept {Q : List Instr} (c : Fin 9) (x : Pipe) (rd ra rb : Fin 32) (s : State) (h0 : Kept Q s) :
    KeptOut Q (execRemu c x rd ra rb s) := by
  unfold execRemu
  try dsimp only
  repeat' first | intro _ | (with_reducible first | assumption | apply live_kept | apply State.run_kept | apply State.alu_kept | apply Kept.foldl | apply Kept.foldl_fst | apply KeptOut.live | apply KeptOut.next) | (with_reducible refine Kept.mk rfl rfl rfl rfl ?_; with_reducible first | assumption | apply live_kept | apply State.run_kept | apply State.alu_kept | apply Kept.foldl | apply Kept.foldl_fst) | split | dsimp only [id_eq] | with_reducible apply Kept.ite

theorem execClz_kept {Q : List Instr} (c : Fin 9) (x : Pipe) (rd ra : Fin 32) (s : State) (h0 : Kept Q s) :
    KeptOut Q (execClz c x rd ra s) := by
  unfold execClz
  try dsimp only
  repeat' first | intro _ | (with_reducible first | assumption | apply live_kept | apply State.run_kept | apply State.alu_kept | apply Kept.foldl | apply Kept.foldl_fst | apply KeptOut.live | apply KeptOut.next) | (with_reducible refine Kept.mk rfl rfl rfl rfl ?_; with_reducible first | assumption | apply live_kept | apply State.run_kept | apply State.alu_kept | apply Kept.foldl | apply Kept.foldl_fst) | split | dsimp only [id_eq] | with_reducible apply Kept.ite

theorem execPopc_kept {Q : List Instr} (c : Fin 9) (x : Pipe) (rd ra : Fin 32) (s : State) (h0 : Kept Q s) :
    KeptOut Q (execPopc c x rd ra s) := by
  unfold execPopc
  try dsimp only
  repeat' first | intro _ | (with_reducible first | assumption | apply live_kept | apply State.run_kept | apply State.alu_kept | apply Kept.foldl | apply Kept.foldl_fst | apply KeptOut.live | apply KeptOut.next) | (with_reducible refine Kept.mk rfl rfl rfl rfl ?_; with_reducible first | assumption | apply live_kept | apply State.run_kept | apply State.alu_kept | apply Kept.foldl | apply Kept.foldl_fst) | split | dsimp only [id_eq] | with_reducible apply Kept.ite

theorem execBswap_kept {Q : List Instr} (c : Fin 9) (x : Pipe) (rd ra : Fin 32) (s : State) (h0 : Kept Q s) :
    KeptOut Q (execBswap c x rd ra s) := by
  unfold execBswap
  try dsimp only
  repeat' first | intro _ | (with_reducible first | assumption | apply live_kept | apply State.run_kept | apply State.alu_kept | apply Kept.foldl | apply Kept.foldl_fst | apply KeptOut.live | apply KeptOut.next) | (with_reducible refine Kept.mk rfl rfl rfl rfl ?_; with_reducible first | assumption | apply live_kept | apply State.run_kept | apply State.alu_kept | apply Kept.foldl | apply Kept.foldl_fst) | split | dsimp only [id_eq] | with_reducible apply Kept.ite

theorem execAddi_kept {Q : List Instr} (c : Fin 9) (x : Pipe) (rd ra : Fin 32) (v : BitVec 16) (s : State) (h0 : Kept Q s) :
    KeptOut Q (execAddi c x rd ra v s) := by
  unfold execAddi
  try dsimp only
  repeat' first | intro _ | (with_reducible first | assumption | apply live_kept | apply State.run_kept | apply State.immOp_kept | apply Kept.foldl | apply Kept.foldl_fst | apply KeptOut.live | apply KeptOut.next) | (with_reducible refine Kept.mk rfl rfl rfl rfl ?_; with_reducible first | assumption | apply live_kept | apply State.run_kept | apply State.immOp_kept | apply Kept.foldl | apply Kept.foldl_fst) | split | dsimp only [id_eq] | with_reducible apply Kept.ite

theorem execAndi_kept {Q : List Instr} (c : Fin 9) (x : Pipe) (rd ra : Fin 32) (v : BitVec 16) (s : State) (h0 : Kept Q s) :
    KeptOut Q (execAndi c x rd ra v s) := by
  unfold execAndi
  try dsimp only
  repeat' first | intro _ | (with_reducible first | assumption | apply live_kept | apply State.run_kept | apply State.immOp_kept | apply Kept.foldl | apply Kept.foldl_fst | apply KeptOut.live | apply KeptOut.next) | (with_reducible refine Kept.mk rfl rfl rfl rfl ?_; with_reducible first | assumption | apply live_kept | apply State.run_kept | apply State.immOp_kept | apply Kept.foldl | apply Kept.foldl_fst) | split | dsimp only [id_eq] | with_reducible apply Kept.ite

theorem execOri_kept {Q : List Instr} (c : Fin 9) (x : Pipe) (rd ra : Fin 32) (v : BitVec 16) (s : State) (h0 : Kept Q s) :
    KeptOut Q (execOri c x rd ra v s) := by
  unfold execOri
  try dsimp only
  repeat' first | intro _ | (with_reducible first | assumption | apply live_kept | apply State.run_kept | apply State.immOp_kept | apply Kept.foldl | apply Kept.foldl_fst | apply KeptOut.live | apply KeptOut.next) | (with_reducible refine Kept.mk rfl rfl rfl rfl ?_; with_reducible first | assumption | apply live_kept | apply State.run_kept | apply State.immOp_kept | apply Kept.foldl | apply Kept.foldl_fst) | split | dsimp only [id_eq] | with_reducible apply Kept.ite

theorem execXori_kept {Q : List Instr} (c : Fin 9) (x : Pipe) (rd ra : Fin 32) (v : BitVec 16) (s : State) (h0 : Kept Q s) :
    KeptOut Q (execXori c x rd ra v s) := by
  unfold execXori
  try dsimp only
  repeat' first | intro _ | (with_reducible first | assumption | apply live_kept | apply State.run_kept | apply State.immOp_kept | apply Kept.foldl | apply Kept.foldl_fst | apply KeptOut.live | apply KeptOut.next) | (with_reducible refine Kept.mk rfl rfl rfl rfl ?_; with_reducible first | assumption | apply live_kept | apply State.run_kept | apply State.immOp_kept | apply Kept.foldl | apply Kept.foldl_fst) | split | dsimp only [id_eq] | with_reducible apply Kept.ite

theorem execClti_kept {Q : List Instr} (c : Fin 9) (x : Pipe) (rd ra : Fin 32) (v : BitVec 16) (s : State) (h0 : Kept Q s) :
    KeptOut Q (execClti c x rd ra v s) := by
  unfold execClti
  try dsimp only
  repeat' first | intro _ | (with_reducible first | assumption | apply live_kept | apply State.run_kept | apply State.immOp_kept | apply Kept.foldl | apply Kept.foldl_fst | apply KeptOut.live | apply KeptOut.next) | (with_reducible refine Kept.mk rfl rfl rfl rfl ?_; with_reducible first | assumption | apply live_kept | apply State.run_kept | apply State.immOp_kept | apply Kept.foldl | apply Kept.foldl_fst) | split | dsimp only [id_eq] | with_reducible apply Kept.ite

theorem execCltiu_kept {Q : List Instr} (c : Fin 9) (x : Pipe) (rd ra : Fin 32) (v : BitVec 16) (s : State) (h0 : Kept Q s) :
    KeptOut Q (execCltiu c x rd ra v s) := by
  unfold execCltiu
  try dsimp only
  repeat' first | intro _ | (with_reducible first | assumption | apply live_kept | apply State.run_kept | apply State.immOp_kept | apply Kept.foldl | apply Kept.foldl_fst | apply KeptOut.live | apply KeptOut.next) | (with_reducible refine Kept.mk rfl rfl rfl rfl ?_; with_reducible first | assumption | apply live_kept | apply State.run_kept | apply State.immOp_kept | apply Kept.foldl | apply Kept.foldl_fst) | split | dsimp only [id_eq] | with_reducible apply Kept.ite

theorem execShi_kept {Q : List Instr} (c : Fin 9) (x : Pipe) (kind : Fin 3) (rd ra : Fin 32) (n : Fin 32) (s : State) (h0 : Kept Q s) :
    KeptOut Q (execShi c x kind rd ra n s) := by
  unfold execShi
  try dsimp only
  repeat' first | intro _ | (with_reducible first | assumption | apply live_kept | apply State.run_kept | apply Eff.plain_kept | apply State.setGreg_kept | apply Kept.foldl | apply Kept.foldl_fst | apply KeptOut.live | apply KeptOut.next) | (with_reducible refine Kept.mk rfl rfl rfl rfl ?_; with_reducible first | assumption | apply live_kept | apply State.run_kept | apply Eff.plain_kept | apply State.setGreg_kept | apply Kept.foldl | apply Kept.foldl_fst) | split | dsimp only [id_eq] | with_reducible apply Kept.ite

theorem execLdhi_kept {Q : List Instr} (c : Fin 9) (x : Pipe) (rd : Fin 32) (v : BitVec 16) (s : State) (h0 : Kept Q s) :
    KeptOut Q (execLdhi c x rd v s) := by
  unfold execLdhi
  try dsimp only
  repeat' first | intro _ | (with_reducible first | assumption | apply live_kept | apply State.run_kept | apply Eff.plain_kept | apply State.setGreg_kept | apply Kept.foldl | apply Kept.foldl_fst | apply KeptOut.live | apply KeptOut.next) | (with_reducible refine Kept.mk rfl rfl rfl rfl ?_; with_reducible first | assumption | apply live_kept | apply State.run_kept | apply Eff.plain_kept | apply State.setGreg_kept | apply Kept.foldl | apply Kept.foldl_fst) | split | dsimp only [id_eq] | with_reducible apply Kept.ite

theorem execAddpch_kept {Q : List Instr} (c : Fin 9) (x : Pipe) (rd : Fin 32) (v : BitVec 16) (s : State) (h0 : Kept Q s) :
    KeptOut Q (execAddpch c x rd v s) := by
  unfold execAddpch
  try dsimp only
  repeat' first | intro _ | (with_reducible first | assumption | apply live_kept | apply State.run_kept | apply Eff.plain_kept | apply State.setGreg_kept | apply Kept.foldl | apply Kept.foldl_fst | apply KeptOut.live | apply KeptOut.next) | (with_reducible refine Kept.mk rfl rfl rfl rfl ?_; with_reducible first | assumption | apply live_kept | apply State.run_kept | apply Eff.plain_kept | apply State.setGreg_kept | apply Kept.foldl | apply Kept.foldl_fst) | split | dsimp only [id_eq] | with_reducible apply Kept.ite

theorem execPref_kept {Q : List Instr} (c : Fin 9) (x : Pipe) (ra : Fin 32) (v : BitVec 16) (s : State) (h0 : Kept Q s) :
    KeptOut Q (execPref c x ra v s) := by
  unfold execPref
  try dsimp only
  repeat' first | intro _ | (with_reducible first | assumption | apply live_kept | apply State.run_kept | apply Eff.plain_kept | apply State.prefetch_kept | apply Kept.foldl | apply Kept.foldl_fst | apply KeptOut.live | apply KeptOut.next) | (with_reducible refine Kept.mk rfl rfl rfl rfl ?_; with_reducible first | assumption | apply live_kept | apply State.run_kept | apply Eff.plain_kept | apply State.prefetch_kept | apply Kept.foldl | apply Kept.foldl_fst) | split | dsimp only [id_eq] | with_reducible apply Kept.ite

theorem execLb_kept {Q : List Instr} (c : Fin 9) (x : Pipe) (rd ra : Fin 32) (v : BitVec 16) (s : State) (h0 : Kept Q s) :
    KeptOut Q (execLb c x rd ra v s) := by
  unfold execLb
  try dsimp only
  repeat' first | intro _ | (with_reducible first | assumption | apply live_kept | apply State.run_kept | apply State.load_kept | apply Kept.foldl | apply Kept.foldl_fst | apply KeptOut.live | apply KeptOut.next) | (with_reducible refine Kept.mk rfl rfl rfl rfl ?_; with_reducible first | assumption | apply live_kept | apply State.run_kept | apply State.load_kept | apply Kept.foldl | apply Kept.foldl_fst) | split | dsimp only [id_eq] | with_reducible apply Kept.ite

theorem execLbu_kept {Q : List Instr} (c : Fin 9) (x : Pipe) (rd ra : Fin 32) (v : BitVec 16) (s : State) (h0 : Kept Q s) :
    KeptOut Q (execLbu c x rd ra v s) := by
  unfold execLbu
  try dsimp only
  repeat' first | intro _ | (with_reducible first | assumption | apply live_kept | apply State.run_kept | apply State.load_kept | apply Kept.foldl | apply Kept.foldl_fst | apply KeptOut.live | apply KeptOut.next) | (with_reducible refine Kept.mk rfl rfl rfl rfl ?_; with_reducible first | assumption | apply live_kept | apply State.run_kept | apply State.load_kept | apply Kept.foldl | apply Kept.foldl_fst) | split | dsimp only [id_eq] | with_reducible apply Kept.ite

theorem execLh_kept {Q : List Instr} (c : Fin 9) (x : Pipe) (rd ra : Fin 32) (v : BitVec 16) (s : State) (h0 : Kept Q s) :
    KeptOut Q (execLh c x rd ra v s) := by
  unfold execLh
  try dsimp only
  repeat' first | intro _ | (with_reducible first | assumption | apply live_kept | apply State.run_kept | apply State.load_kept | apply Kept.foldl | apply Kept.foldl_fst | apply KeptOut.live | apply KeptOut.next) | (with_reducible refine Kept.mk rfl rfl rfl rfl ?_; with_reducible first | assumption | apply live_kept | apply State.run_kept | apply State.load_kept | apply Kept.foldl | apply Kept.foldl_fst) | split | dsimp only [id_eq] | with_reducible apply Kept.ite

theorem execLhu_kept {Q : List Instr} (c : Fin 9) (x : Pipe) (rd ra : Fin 32) (v : BitVec 16) (s : State) (h0 : Kept Q s) :
    KeptOut Q (execLhu c x rd ra v s) := by
  unfold execLhu
  try dsimp only
  repeat' first | intro _ | (with_reducible first | assumption | apply live_kept | apply State.run_kept | apply State.load_kept | apply Kept.foldl | apply Kept.foldl_fst | apply KeptOut.live | apply KeptOut.next) | (with_reducible refine Kept.mk rfl rfl rfl rfl ?_; with_reducible first | assumption | apply live_kept | apply State.run_kept | apply State.load_kept | apply Kept.foldl | apply Kept.foldl_fst) | split | dsimp only [id_eq] | with_reducible apply Kept.ite

theorem execLw_kept {Q : List Instr} (c : Fin 9) (x : Pipe) (rd ra : Fin 32) (v : BitVec 16) (s : State) (h0 : Kept Q s) :
    KeptOut Q (execLw c x rd ra v s) := by
  unfold execLw
  try dsimp only
  repeat' first | intro _ | (with_reducible first | assumption | apply live_kept | apply State.run_kept | apply State.load_kept | apply Kept.foldl | apply Kept.foldl_fst | apply KeptOut.live | apply KeptOut.next) | (with_reducible refine Kept.mk rfl rfl rfl rfl ?_; with_reducible first | assumption | apply live_kept | apply State.run_kept | apply State.load_kept | apply Kept.foldl | apply Kept.foldl_fst) | split | dsimp only [id_eq] | with_reducible apply Kept.ite

theorem execLwu_kept {Q : List Instr} (c : Fin 9) (x : Pipe) (rd ra : Fin 32) (v : BitVec 16) (s : State) (h0 : Kept Q s) :
    KeptOut Q (execLwu c x rd ra v s) := by
  unfold execLwu
  try dsimp only
  repeat' first | intro _ | (with_reducible first | assumption | apply live_kept | apply State.run_kept | apply State.load_kept | apply Kept.foldl | apply Kept.foldl_fst | apply KeptOut.live | apply KeptOut.next) | (with_reducible refine Kept.mk rfl rfl rfl rfl ?_; with_reducible first | assumption | apply live_kept | apply State.run_kept | apply State.load_kept | apply Kept.foldl | apply Kept.foldl_fst) | split | dsimp only [id_eq] | with_reducible apply Kept.ite

theorem execSb_kept {Q : List Instr} (c : Fin 9) (x : Pipe) (rs ra : Fin 32) (v : BitVec 16) (s : State) (h0 : Kept Q s) :
    KeptOut Q (execSb c x rs ra v s) := by
  unfold execSb
  try dsimp only
  repeat' first | intro _ | (with_reducible first | assumption | apply live_kept | apply State.run_kept | apply State.store_kept | apply Kept.foldl | apply Kept.foldl_fst | apply KeptOut.live | apply KeptOut.next) | (with_reducible refine Kept.mk rfl rfl rfl rfl ?_; with_reducible first | assumption | apply live_kept | apply State.run_kept | apply State.store_kept | apply Kept.foldl | apply Kept.foldl_fst) | split | dsimp only [id_eq] | with_reducible apply Kept.ite

theorem execSh_kept {Q : List Instr} (c : Fin 9) (x : Pipe) (rs ra : Fin 32) (v : BitVec 16) (s : State) (h0 : Kept Q s) :
    KeptOut Q (execSh c x rs ra v s) := by
  unfold execSh
  try dsimp only
  repeat' first | intro _ | (with_reducible first | assumption | apply live_kept | apply State.run_kept | apply State.store_kept | apply Kept.foldl | apply Kept.foldl_fst | apply KeptOut.live | apply KeptOut.next) | (with_reducible refine Kept.mk rfl rfl rfl rfl ?_; with_reducible first | assumption | apply live_kept | apply State.run_kept | apply State.store_kept | apply Kept.foldl | apply Kept.foldl_fst) | split | dsimp only [id_eq] | with_reducible apply Kept.ite

theorem execSw_kept {Q : List Instr} (c : Fin 9) (x : Pipe) (rs ra : Fin 32) (v : BitVec 16) (s : State) (h0 : Kept Q s) :
    KeptOut Q (execSw c x rs ra v s) := by
  unfold execSw
  try dsimp only
  repeat' first | intro _ | (with_reducible first | assumption | apply live_kept | apply State.run_kept | apply State.store_kept | apply Kept.foldl | apply Kept.foldl_fst | apply KeptOut.live | apply KeptOut.next) | (with_reducible refine Kept.mk rfl rfl rfl rfl ?_; with_reducible first | assumption | apply live_kept | apply State.run_kept | apply State.store_kept | apply Kept.foldl | apply Kept.foldl_fst) | split | dsimp only [id_eq] | with_reducible apply Kept.ite

theorem execSwap_kept {Q : List Instr} (c : Fin 9) (x : Pipe) (rd ra rb : Fin 32) (s : State) (h0 : Kept Q s) :
    KeptOut Q (execSwap c x rd ra rb s) := by
  unfold execSwap
  try dsimp only
  repeat' first | intro _ | (with_reducible first | assumption | apply live_kept | apply State.run_kept | apply State.amo_kept | apply Kept.foldl | apply Kept.foldl_fst | apply KeptOut.live | apply KeptOut.next) | (with_reducible refine Kept.mk rfl rfl rfl rfl ?_; with_reducible first | assumption | apply live_kept | apply State.run_kept | apply State.amo_kept | apply Kept.foldl | apply Kept.foldl_fst) | split | dsimp only [id_eq] | with_reducible apply Kept.ite

theorem execAmoadd_kept {Q : List Instr} (c : Fin 9) (x : Pipe) (rd ra rb : Fin 32) (s : State) (h0 : Kept Q s) :
    KeptOut Q (execAmoadd c x rd ra rb s) := by
  unfold execAmoadd
  try dsimp only
  repeat' first | intro _ | (with_reducible first | assumption | apply live_kept | apply State.run_kept | apply State.amo_kept | apply Kept.foldl | apply Kept.foldl_fst | apply KeptOut.live | apply KeptOut.next) | (with_reducible refine Kept.mk rfl rfl rfl rfl ?_; with_reducible first | assumption | apply live_kept | apply State.run_kept | apply State.amo_kept | apply Kept.foldl | apply Kept.foldl_fst) | split | dsimp only [id_eq] | with_reducible apply Kept.ite

theorem execAmoand_kept {Q : List Instr} (c : Fin 9) (x : Pipe) (rd ra rb : Fin 32) (s : State) (h0 : Kept Q s) :
    KeptOut Q (execAmoand c x rd ra rb s) := by
  unfold execAmoand
  try dsimp only
  repeat' first | intro _ | (with_reducible first | assumption | apply live_kept | apply State.run_kept | apply State.amo_kept | apply Kept.foldl | apply Kept.foldl_fst | apply KeptOut.live | apply KeptOut.next) | (with_reducible refine Kept.mk rfl rfl rfl rfl ?_; with_reducible first | assumption | apply live_kept | apply State.run_kept | apply State.amo_kept | apply Kept.foldl | apply Kept.foldl_fst) | split | dsimp only [id_eq] | with_reducible apply Kept.ite

theorem execAmoor_kept {Q : List Instr} (c : Fin 9) (x : Pipe) (rd ra rb : Fin 32) (s : State) (h0 : Kept Q s) :
    KeptOut Q (execAmoor c x rd ra rb s) := by
  unfold execAmoor
  try dsimp only
  repeat' first | intro _ | (with_reducible first | assumption | apply live_kept | apply State.run_kept | apply State.amo_kept | apply Kept.foldl | apply Kept.foldl_fst | apply KeptOut.live | apply KeptOut.next) | (with_reducible refine Kept.mk rfl rfl rfl rfl ?_; with_reducible first | assumption | apply live_kept | apply State.run_kept | apply State.amo_kept | apply Kept.foldl | apply Kept.foldl_fst) | split | dsimp only [id_eq] | with_reducible apply Kept.ite

theorem execCas_kept {Q : List Instr} (c : Fin 9) (x : Pipe) (rd ra rb : Fin 32) (s : State) (h0 : Kept Q s) :
    KeptOut Q (execCas c x rd ra rb s) := by
  unfold execCas
  try dsimp only
  repeat' first | intro _ | (with_reducible first | assumption | apply live_kept | apply State.run_kept | apply State.amo_kept | apply Kept.foldl | apply Kept.foldl_fst | apply KeptOut.live | apply KeptOut.next) | (with_reducible refine Kept.mk rfl rfl rfl rfl ?_; with_reducible first | assumption | apply live_kept | apply State.run_kept | apply State.amo_kept | apply Kept.foldl | apply Kept.foldl_fst) | split | dsimp only [id_eq] | with_reducible apply Kept.ite

theorem execBeq_kept {Q : List Instr} (c : Fin 9) (x : Pipe) (ra rb : Fin 32) (off : BitVec 16) (s : State) (h0 : Kept Q s) :
    KeptOut Q (execBeq c x ra rb off s) := by
  unfold execBeq
  try dsimp only
  repeat' first | intro _ | (with_reducible first | assumption | apply live_kept | apply State.run_kept | apply State.branch_kept | apply Kept.foldl | apply Kept.foldl_fst | apply KeptOut.live | apply KeptOut.next) | (with_reducible refine Kept.mk rfl rfl rfl rfl ?_; with_reducible first | assumption | apply live_kept | apply State.run_kept | apply State.branch_kept | apply Kept.foldl | apply Kept.foldl_fst) | split | dsimp only [id_eq] | with_reducible apply Kept.ite

theorem execBne_kept {Q : List Instr} (c : Fin 9) (x : Pipe) (ra rb : Fin 32) (off : BitVec 16) (s : State) (h0 : Kept Q s) :
    KeptOut Q (execBne c x ra rb off s) := by
  unfold execBne
  try dsimp only
  repeat' first | intro _ | (with_reducible first | assumption | apply live_kept | apply State.run_kept | apply State.branch_kept | apply Kept.foldl | apply Kept.foldl_fst | apply KeptOut.live | apply KeptOut.next) | (with_reducible refine Kept.mk rfl rfl rfl rfl ?_; with_reducible first | assumption | apply live_kept | apply State.run_kept | apply State.branch_kept | apply Kept.foldl | apply Kept.foldl_fst) | split | dsimp only [id_eq] | with_reducible apply Kept.ite

theorem execBlt_kept {Q : List Instr} (c : Fin 9) (x : Pipe) (ra rb : Fin 32) (off : BitVec 16) (s : State) (h0 : Kept Q s) :
    KeptOut Q (execBlt c x ra rb off s) := by
  unfold execBlt
  try dsimp only
  repeat' first | intro _ | (with_reducible first | assumption | apply live_kept | apply State.run_kept | apply State.branch_kept | apply Kept.foldl | apply Kept.foldl_fst | apply KeptOut.live | apply KeptOut.next) | (with_reducible refine Kept.mk rfl rfl rfl rfl ?_; with_reducible first | assumption | apply live_kept | apply State.run_kept | apply State.branch_kept | apply Kept.foldl | apply Kept.foldl_fst) | split | dsimp only [id_eq] | with_reducible apply Kept.ite

theorem execBge_kept {Q : List Instr} (c : Fin 9) (x : Pipe) (ra rb : Fin 32) (off : BitVec 16) (s : State) (h0 : Kept Q s) :
    KeptOut Q (execBge c x ra rb off s) := by
  unfold execBge
  try dsimp only
  repeat' first | intro _ | (with_reducible first | assumption | apply live_kept | apply State.run_kept | apply State.branch_kept | apply Kept.foldl | apply Kept.foldl_fst | apply KeptOut.live | apply KeptOut.next) | (with_reducible refine Kept.mk rfl rfl rfl rfl ?_; with_reducible first | assumption | apply live_kept | apply State.run_kept | apply State.branch_kept | apply Kept.foldl | apply Kept.foldl_fst) | split | dsimp only [id_eq] | with_reducible apply Kept.ite

theorem execBltu_kept {Q : List Instr} (c : Fin 9) (x : Pipe) (ra rb : Fin 32) (off : BitVec 16) (s : State) (h0 : Kept Q s) :
    KeptOut Q (execBltu c x ra rb off s) := by
  unfold execBltu
  try dsimp only
  repeat' first | intro _ | (with_reducible first | assumption | apply live_kept | apply State.run_kept | apply State.branch_kept | apply Kept.foldl | apply Kept.foldl_fst | apply KeptOut.live | apply KeptOut.next) | (with_reducible refine Kept.mk rfl rfl rfl rfl ?_; with_reducible first | assumption | apply live_kept | apply State.run_kept | apply State.branch_kept | apply Kept.foldl | apply Kept.foldl_fst) | split | dsimp only [id_eq] | with_reducible apply Kept.ite

theorem execBgeu_kept {Q : List Instr} (c : Fin 9) (x : Pipe) (ra rb : Fin 32) (off : BitVec 16) (s : State) (h0 : Kept Q s) :
    KeptOut Q (execBgeu c x ra rb off s) := by
  unfold execBgeu
  try dsimp only
  repeat' first | intro _ | (with_reducible first | assumption | apply live_kept | apply State.run_kept | apply State.branch_kept | apply Kept.foldl | apply Kept.foldl_fst | apply KeptOut.live | apply KeptOut.next) | (with_reducible refine Kept.mk rfl rfl rfl rfl ?_; with_reducible first | assumption | apply live_kept | apply State.run_kept | apply State.branch_kept | apply Kept.foldl | apply Kept.foldl_fst) | split | dsimp only [id_eq] | with_reducible apply Kept.ite

theorem execJ_kept {Q : List Instr} (c : Fin 9) (x : Pipe) (off : BitVec 26) (s : State) (h0 : Kept Q s) :
    KeptOut Q (execJ c x off s) := by
  unfold execJ
  try dsimp only
  repeat' first | intro _ | (with_reducible first | assumption | apply live_kept | apply State.run_kept | apply State.jump_kept | apply Kept.foldl | apply Kept.foldl_fst | apply KeptOut.live | apply KeptOut.next) | (with_reducible refine Kept.mk rfl rfl rfl rfl ?_; with_reducible first | assumption | apply live_kept | apply State.run_kept | apply State.jump_kept | apply Kept.foldl | apply Kept.foldl_fst) | split | dsimp only [id_eq] | with_reducible apply Kept.ite

theorem execJal_kept {Q : List Instr} (c : Fin 9) (x : Pipe) (off : BitVec 26) (s : State) (h0 : Kept Q s) :
    KeptOut Q (execJal c x off s) := by
  unfold execJal
  try dsimp only
  repeat' first | intro _ | (with_reducible first | assumption | apply live_kept | apply State.run_kept | apply State.jump_kept | apply Kept.foldl | apply Kept.foldl_fst | apply KeptOut.live | apply KeptOut.next) | (with_reducible refine Kept.mk rfl rfl rfl rfl ?_; with_reducible first | assumption | apply live_kept | apply State.run_kept | apply State.jump_kept | apply Kept.foldl | apply Kept.foldl_fst) | split | dsimp only [id_eq] | with_reducible apply Kept.ite

theorem execJalr_kept {Q : List Instr} (c : Fin 9) (x : Pipe) (rd ra : Fin 32) (v : BitVec 16) (s : State) (h0 : Kept Q s) :
    KeptOut Q (execJalr c x rd ra v s) := by
  unfold execJalr
  try dsimp only
  repeat' first | intro _ | (with_reducible first | assumption | apply live_kept | apply State.run_kept | apply State.jump_kept | apply Kept.foldl | apply Kept.foldl_fst | apply KeptOut.live | apply KeptOut.next) | (with_reducible refine Kept.mk rfl rfl rfl rfl ?_; with_reducible first | assumption | apply live_kept | apply State.run_kept | apply State.jump_kept | apply Kept.foldl | apply Kept.foldl_fst) | split | dsimp only [id_eq] | with_reducible apply Kept.ite

theorem execRdc_kept {Q : List Instr} (c : Fin 9) (x : Pipe) (rd : Fin 32) (k : Fin 16) (s : State) (h0 : Kept Q s) :
    KeptOut Q (execRdc c x rd k s) := by
  unfold execRdc
  try dsimp only
  repeat' first | intro _ | (with_reducible first | assumption | apply live_kept | apply State.run_kept | apply Eff.plain_kept | apply State.setGreg_kept | apply Kept.foldl | apply Kept.foldl_fst | apply KeptOut.live | apply KeptOut.next) | (with_reducible refine Kept.mk rfl rfl rfl rfl ?_; with_reducible first | assumption | apply live_kept | apply State.run_kept | apply Eff.plain_kept | apply State.setGreg_kept | apply Kept.foldl | apply Kept.foldl_fst) | split | dsimp only [id_eq] | with_reducible apply Kept.ite

theorem execWrc_kept {Q : List Instr} (c : Fin 9) (x : Pipe) (ra : Fin 32) (k : Fin 16) (s : State) (h0 : Kept Q s) :
    KeptOut Q (execWrc c x ra k s) := by
  unfold execWrc
  try dsimp only
  repeat' first | intro _ | (with_reducible first | assumption | apply live_kept | apply State.run_kept | apply Eff.plain_kept | apply State.setCreg_kept | apply Kept.foldl | apply Kept.foldl_fst | apply KeptOut.live | apply KeptOut.next) | (with_reducible refine Kept.mk rfl rfl rfl rfl ?_; with_reducible first | assumption | apply live_kept | apply State.run_kept | apply Eff.plain_kept | apply State.setCreg_kept | apply Kept.foldl | apply Kept.foldl_fst) | split | dsimp only [id_eq] | with_reducible apply Kept.ite

theorem execTret_kept {Q : List Instr} (c : Fin 9) (x : Pipe) (s : State) (h0 : Kept Q s) :
    KeptOut Q (execTret c x s) := by
  unfold execTret
  try dsimp only
  repeat' first | intro _ | (with_reducible first | assumption | apply live_kept | apply State.run_kept | apply State.tret_kept | apply Kept.foldl | apply Kept.foldl_fst | apply KeptOut.live | apply KeptOut.next) | (with_reducible refine Kept.mk rfl rfl rfl rfl ?_; with_reducible first | assumption | apply live_kept | apply State.run_kept | apply State.tret_kept | apply Kept.foldl | apply Kept.foldl_fst) | split | dsimp only [id_eq] | with_reducible apply Kept.ite

theorem execTrap_kept {Q : List Instr} (c : Fin 9) (x : Pipe) (v : BitVec 16) (s : State) (h0 : Kept Q s) :
    KeptOut Q (execTrap c x v s) := by
  unfold execTrap
  try dsimp only
  repeat' first | intro _ | (with_reducible first | assumption | apply live_kept | apply State.run_kept | apply State.trap_kept | apply Eff.plain_kept | apply Kept.foldl | apply Kept.foldl_fst | apply KeptOut.live | apply KeptOut.next) | (with_reducible refine Kept.mk rfl rfl rfl rfl ?_; with_reducible first | assumption | apply live_kept | apply State.run_kept | apply State.trap_kept | apply Eff.plain_kept | apply Kept.foldl | apply Kept.foldl_fst) | split | dsimp only [id_eq] | with_reducible apply Kept.ite

theorem execInv_kept {Q : List Instr} (c : Fin 9) (x : Pipe) (n : Fin 3) (s : State) (h0 : Kept Q s) :
    KeptOut Q (execInv c x n s) := by
  unfold execInv
  try dsimp only
  repeat' first | intro _ | (with_reducible first | assumption | apply live_kept | apply State.run_kept | apply State.invalidate_kept | apply Kept.foldl | apply Kept.foldl_fst | apply KeptOut.live | apply KeptOut.next) | (with_reducible refine Kept.mk rfl rfl rfl rfl ?_; with_reducible first | assumption | apply live_kept | apply State.run_kept | apply State.invalidate_kept | apply Kept.foldl | apply Kept.foldl_fst) | split | dsimp only [id_eq] | with_reducible apply Kept.ite

theorem execHalt_kept {Q : List Instr} (c : Fin 9) (x : Pipe) (s : State) (h0 : Kept Q s) :
    KeptOut Q (execHalt c x s) := by
  unfold execHalt
  try dsimp only
  repeat' first | intro _ | (with_reducible first | assumption | apply live_kept | apply State.run_kept | apply State.halt_kept | apply Kept.foldl | apply Kept.foldl_fst | apply KeptOut.live | apply KeptOut.next) | (with_reducible refine Kept.mk rfl rfl rfl rfl ?_; with_reducible first | assumption | apply live_kept | apply State.run_kept | apply State.halt_kept | apply Kept.foldl | apply Kept.foldl_fst) | split | dsimp only [id_eq] | with_reducible apply Kept.ite

theorem execPost_kept {Q : List Instr} (c : Fin 9) (x : Pipe) (rd ra : Fin 32) (q : BitVec 11) (s : State) (h0 : Kept Q s) :
    KeptOut Q (execPost c x rd ra q s) := by
  unfold execPost
  try dsimp only
  repeat' first | intro _ | (with_reducible first | assumption | apply live_kept | apply State.run_kept | apply State.post_kept | apply Kept.foldl | apply Kept.foldl_fst | apply KeptOut.live | apply KeptOut.next) | (with_reducible refine Kept.mk rfl rfl rfl rfl ?_; with_reducible first | assumption | apply live_kept | apply State.run_kept | apply State.post_kept | apply Kept.foldl | apply Kept.foldl_fst) | split | dsimp only [id_eq] | with_reducible apply Kept.ite

theorem execTake_kept {Q : List Instr} (c : Fin 9) (x : Pipe) (rd ra : Fin 32) (q : Fin 128) (s : State) (h0 : Kept Q s) :
    KeptOut Q (execTake c x rd ra q s) := by
  unfold execTake
  try dsimp only
  repeat' first | intro _ | (with_reducible first | assumption | apply live_kept | apply State.run_kept | apply State.take_kept | apply Kept.foldl | apply Kept.foldl_fst | apply KeptOut.live | apply KeptOut.next) | (with_reducible refine Kept.mk rfl rfl rfl rfl ?_; with_reducible first | assumption | apply live_kept | apply State.run_kept | apply State.take_kept | apply Kept.foldl | apply Kept.foldl_fst) | split | dsimp only [id_eq] | with_reducible apply Kept.ite

theorem execGive_kept {Q : List Instr} (c : Fin 9) (x : Pipe) (rd ra : Fin 32) (q : Fin 128) (s : State) (h0 : Kept Q s) :
    KeptOut Q (execGive c x rd ra q s) := by
  unfold execGive
  try dsimp only
  repeat' first | intro _ | (with_reducible first | assumption | apply live_kept | apply State.run_kept | apply State.give_kept | apply Kept.foldl | apply Kept.foldl_fst | apply KeptOut.live | apply KeptOut.next) | (with_reducible refine Kept.mk rfl rfl rfl rfl ?_; with_reducible first | assumption | apply live_kept | apply State.run_kept | apply State.give_kept | apply Kept.foldl | apply Kept.foldl_fst) | split | dsimp only [id_eq] | with_reducible apply Kept.ite

theorem execWait_kept {Q : List Instr} (c : Fin 9) (x : Pipe) (rd ra rb : Fin 32) (kind : Fin 3) (s : State) (h0 : Kept Q s) :
    KeptOut Q (execWait c x rd ra rb kind s) := by
  unfold execWait
  try dsimp only
  repeat' first | intro _ | (with_reducible first | assumption | apply live_kept | apply State.run_kept | apply State.waitFor_kept | apply Kept.foldl | apply Kept.foldl_fst | apply KeptOut.live | apply KeptOut.next) | (with_reducible refine Kept.mk rfl rfl rfl rfl ?_; with_reducible first | assumption | apply live_kept | apply State.run_kept | apply State.waitFor_kept | apply Kept.foldl | apply Kept.foldl_fst) | split | dsimp only [id_eq] | with_reducible apply Kept.ite

theorem execWaitWake_kept {Q : List Instr} (c : Fin 9) (cycles : Nat) (s : State) (h0 : Kept Q s) :
    KeptOut Q (execWaitWake c cycles s) := by
  unfold execWaitWake
  try dsimp only
  repeat' first | intro _ | (with_reducible first | assumption | apply live_kept | apply State.endWait_kept | apply State.setGreg_kept | apply Kept.foldl | apply Kept.foldl_fst | apply KeptOut.live | apply KeptOut.next) | (with_reducible refine Kept.mk rfl rfl rfl rfl ?_; with_reducible first | assumption | apply live_kept | apply State.endWait_kept | apply State.setGreg_kept | apply Kept.foldl | apply Kept.foldl_fst) | split | dsimp only [id_eq] | with_reducible apply Kept.ite

theorem execWaitTimeout_kept {Q : List Instr} (c : Fin 9) (cycles : Nat) (s : State) (h0 : Kept Q s) :
    KeptOut Q (execWaitTimeout c cycles s) := by
  unfold execWaitTimeout
  try dsimp only
  repeat' first | intro _ | (with_reducible first | assumption | apply live_kept | apply State.endWait_kept | apply State.setGreg_kept | apply Kept.foldl | apply Kept.foldl_fst | apply KeptOut.live | apply KeptOut.next) | (with_reducible refine Kept.mk rfl rfl rfl rfl ?_; with_reducible first | assumption | apply live_kept | apply State.endWait_kept | apply State.setGreg_kept | apply Kept.foldl | apply Kept.foldl_fst) | split | dsimp only [id_eq] | with_reducible apply Kept.ite

theorem execStamp_kept {Q : List Instr} (c : Fin 9) (x : Pipe) (rd : Fin 32) (s : State) (h0 : Kept Q s) :
    KeptOut Q (execStamp c x rd s) := by
  unfold execStamp
  try dsimp only
  repeat' first | intro _ | (with_reducible first | assumption | apply live_kept | apply State.run_kept | apply Eff.plain_kept | apply State.setGreg_kept | apply Kept.foldl | apply Kept.foldl_fst | apply KeptOut.live | apply KeptOut.next) | (with_reducible refine Kept.mk rfl rfl rfl rfl ?_; with_reducible first | assumption | apply live_kept | apply State.run_kept | apply Eff.plain_kept | apply State.setGreg_kept | apply Kept.foldl | apply Kept.foldl_fst) | split | dsimp only [id_eq] | with_reducible apply Kept.ite

theorem execRaise_kept {Q : List Instr} (c : Fin 9) (x : Pipe) (n : Fin 8) (s : State) (h0 : Kept Q s) :
    KeptOut Q (execRaise c x n s) := by
  unfold execRaise
  try dsimp only
  repeat' first | intro _ | (with_reducible first | assumption | apply live_kept | apply State.run_kept | apply State.raise_kept | apply Eff.plain_kept | apply Kept.foldl | apply Kept.foldl_fst | apply KeptOut.live | apply KeptOut.next) | (with_reducible refine Kept.mk rfl rfl rfl rfl ?_; with_reducible first | assumption | apply live_kept | apply State.run_kept | apply State.raise_kept | apply Eff.plain_kept | apply Kept.foldl | apply Kept.foldl_fst) | split | dsimp only [id_eq] | with_reducible apply Kept.ite

theorem execFence_kept {Q : List Instr} (c : Fin 9) (x : Pipe) (s : State) (h0 : Kept Q s) :
    KeptOut Q (execFence c x s) := by
  unfold execFence
  try dsimp only
  repeat' first | intro _ | (with_reducible first | assumption | apply live_kept | apply State.run_kept | apply Eff.plain_kept | apply Kept.foldl | apply Kept.foldl_fst | apply KeptOut.live | apply KeptOut.next) | (with_reducible refine Kept.mk rfl rfl rfl rfl ?_; with_reducible first | assumption | apply live_kept | apply State.run_kept | apply Eff.plain_kept | apply Kept.foldl | apply Kept.foldl_fst) | split | dsimp only [id_eq] | with_reducible apply Kept.ite

theorem execYield_kept {Q : List Instr} (c : Fin 9) (x : Pipe) (ra : Fin 32) (s : State) (h0 : Kept Q s) :
    KeptOut Q (execYield c x ra s) := by
  unfold execYield
  try dsimp only
  repeat' first | intro _ | (with_reducible first | assumption | apply live_kept | apply State.run_kept | apply Eff.plain_kept | apply State.updCore_kept | apply Kept.foldl | apply Kept.foldl_fst | apply KeptOut.live | apply KeptOut.next) | (with_reducible refine Kept.mk rfl rfl rfl rfl ?_; with_reducible first | assumption | apply live_kept | apply State.run_kept | apply Eff.plain_kept | apply State.updCore_kept | apply Kept.foldl | apply Kept.foldl_fst) | split | dsimp only [id_eq] | with_reducible apply Kept.ite

theorem execYieldEnd_kept {Q : List Instr} (c : Fin 9) (cycles : Nat) (s : State) (h0 : Kept Q s) :
    KeptOut Q (execYieldEnd c cycles s) := by
  unfold execYieldEnd
  try dsimp only
  repeat' first | intro _ | (with_reducible first | assumption | apply live_kept | apply State.endWait_kept | apply Kept.foldl | apply Kept.foldl_fst | apply KeptOut.live | apply KeptOut.next) | (with_reducible refine Kept.mk rfl rfl rfl rfl ?_; with_reducible first | assumption | apply live_kept | apply State.endWait_kept | apply Kept.foldl | apply Kept.foldl_fst) | split | dsimp only [id_eq] | with_reducible apply Kept.ite

theorem execInterrupt_kept {Q : List Instr} (c : Fin 9) (cycles : Nat) (s : State) (h0 : Kept Q s) :
    KeptOut Q (execInterrupt c cycles s) := by
  unfold execInterrupt
  try dsimp only
  repeat' first | intro _ | (with_reducible first | assumption | apply State.endWait_kept | apply live_kept | apply State.setGreg_kept | apply State.trap_kept | apply State.count_kept | apply Kept.foldl | apply Kept.foldl_fst | apply KeptOut.live | apply KeptOut.next) | (with_reducible refine Kept.mk rfl rfl rfl rfl ?_; with_reducible first | assumption | apply State.endWait_kept | apply live_kept | apply State.setGreg_kept | apply State.trap_kept | apply State.count_kept | apply Kept.foldl | apply Kept.foldl_fst) | split | dsimp only [id_eq] | with_reducible apply Kept.ite

theorem execIllegalInstruction_kept {Q : List Instr} (c : Fin 9) (x : Pipe) (s : State) (h0 : Kept Q s) :
    KeptOut Q (execIllegalInstruction c x s) := by
  unfold execIllegalInstruction
  try dsimp only
  repeat' first | intro _ | (with_reducible first | assumption | apply State.fetchAt_kept (e := by assumption) | apply live_kept | apply State.retire_kept | apply Eff.exc_kept | apply Kept.foldl | apply Kept.foldl_fst | apply KeptOut.live | apply KeptOut.next) | (with_reducible refine Kept.mk rfl rfl rfl rfl ?_; with_reducible first | assumption | apply State.fetchAt_kept (e := by assumption) | apply live_kept | apply State.retire_kept | apply Eff.exc_kept | apply Kept.foldl | apply Kept.foldl_fst) | split | dsimp only [id_eq] | with_reducible apply Kept.ite

theorem execInstructionFetchFault_kept {Q : List Instr} (c : Fin 9) (x : Pipe) (parity : Bool) (s : State) (h0 : Kept Q s) :
    KeptOut Q (execInstructionFetchFault c x parity s) := by
  unfold execInstructionFetchFault
  try dsimp only
  repeat' first | intro _ | (with_reducible first | assumption | apply State.fetchAt_kept (e := by assumption) | apply State.parity_kept | apply live_kept | apply State.retire_kept | apply Eff.exc_kept | apply State.sramFault_kept | apply Kept.foldl | apply Kept.foldl_fst | apply KeptOut.live | apply KeptOut.next) | (with_reducible refine Kept.mk rfl rfl rfl rfl ?_; with_reducible first | assumption | apply State.fetchAt_kept (e := by assumption) | apply State.parity_kept | apply live_kept | apply State.retire_kept | apply Eff.exc_kept | apply State.sramFault_kept | apply Kept.foldl | apply Kept.foldl_fst) | split | dsimp only [id_eq] | with_reducible apply Kept.ite

end Sys2Proof.Machine
end

