-- ==== Sys2Proof/Laws/KeptIdle.lean ====
section
/-! SUPPORT. Soundness is kept by every operation and meaning of Machine/Idle.lean. -/

namespace Sys2Proof.Machine

theorem State.guestMicro_kept {Q : List Instr} (s : State) (g : Nat) (h0 : Kept Q s) :
    Kept Q (State.guestMicro s g) := by
  unfold State.guestMicro
  try dsimp only
  repeat' first | intro _ | (with_reducible first | assumption | apply State.count_kept | apply Kept.foldl | apply Kept.foldl_fst) | (with_reducible refine Kept.mk rfl rfl rfl rfl ?_; with_reducible first | assumption | apply State.count_kept | apply Kept.foldl | apply Kept.foldl_fst) | split | dsimp only [id_eq] | with_reducible apply Kept.ite

theorem State.idle_kept {Q : List Instr} (s : State) (h0 : Kept Q s) :
    Kept Q (State.idle s) := by
  unfold State.idle
  try dsimp only
  repeat' first | intro _ | (with_reducible first | assumption | apply State.tick_kept | apply State.guestMicro_kept | apply Kept.foldl | apply Kept.foldl_fst) | (with_reducible refine Kept.mk rfl rfl rfl rfl ?_; with_reducible first | assumption | apply State.tick_kept | apply State.guestMicro_kept | apply Kept.foldl | apply Kept.foldl_fst) | split | dsimp only [id_eq] | with_reducible apply Kept.ite

end Sys2Proof.Machine
end

