-- ==== Sys2Proof/Laws/KeptMicro.lean ====
section
/-! SUPPORT. Soundness is kept by every operation and meaning of Machine/Micro.lean. -/

namespace Sys2Proof.Machine

theorem State.spend_kept {Q : List Instr} (s : State) (n cost : Nat) (h0 : Kept Q s) :
    Kept Q (State.spend s n cost) := by
  unfold State.spend
  try dsimp only
  repeat' first | intro _ | (with_reducible first | assumption | apply State.count_kept | apply State.updSlot_kept | apply Kept.foldl | apply Kept.foldl_fst) | (with_reducible refine Kept.mk rfl rfl rfl rfl ?_; with_reducible first | assumption | apply State.count_kept | apply State.updSlot_kept | apply Kept.foldl | apply Kept.foldl_fst) | split | dsimp only [id_eq] | with_reducible apply Kept.ite

theorem State.mc_kept {Q : List Instr} (s : State) (n : Nat) (i : Mc) (cost : Nat) (f : State → State) (h0 : Kept Q s) (h1 : ∀ a0, Kept Q a0 → Kept Q (f a0)) :
    Kept Q (State.mc s n i cost f) := by
  unfold State.mc
  try dsimp only
  repeat' first | intro _ | (with_reducible first | assumption | apply h1 | apply State.slotFault_kept | apply State.updSlot_kept | apply State.spend_kept | apply Kept.foldl | apply Kept.foldl_fst) | (with_reducible refine Kept.mk rfl rfl rfl rfl ?_; with_reducible first | assumption | apply h1 | apply State.slotFault_kept | apply State.updSlot_kept | apply State.spend_kept | apply Kept.foldl | apply Kept.foldl_fst) | split | dsimp only [id_eq] | with_reducible apply Kept.ite

theorem State.sampleEnds_kept {Q : List Instr} (s : State) (n : Nat) (h0 : Kept Q s) :
    Kept Q (State.sampleEnds s n) := by
  unfold State.sampleEnds
  try dsimp only
  repeat' first | intro _ | (with_reducible first | assumption | apply State.wr_kept | apply State.incWrap_kept | apply State.count_kept | apply Kept.foldl | apply Kept.foldl_fst) | (with_reducible refine Kept.mk rfl rfl rfl rfl ?_; with_reducible first | assumption | apply State.wr_kept | apply State.incWrap_kept | apply State.count_kept | apply Kept.foldl | apply Kept.foldl_fst) | split | dsimp only [id_eq] | with_reducible apply Kept.ite

theorem State.satX_kept {Q : List Instr} (s : State) (n d : Nat) (v : Int) (h0 : Kept Q s) :
    Kept Q (State.satX s n d v) := by
  unfold State.satX
  try dsimp only
  repeat' first | intro _ | (with_reducible first | assumption | apply State.setMx_kept | apply State.noteSat_kept | apply Kept.foldl | apply Kept.foldl_fst) | (with_reducible refine Kept.mk rfl rfl rfl rfl ?_; with_reducible first | assumption | apply State.setMx_kept | apply State.noteSat_kept | apply Kept.foldl | apply Kept.foldl_fst) | split | dsimp only [id_eq] | with_reducible apply Kept.ite

theorem State.satA_kept {Q : List Instr} (s : State) (n d : Nat) (v : Int) (h0 : Kept Q s) :
    Kept Q (State.satA s n d v) := by
  unfold State.satA
  try dsimp only
  repeat' first | intro _ | (with_reducible first | assumption | apply State.setMa_kept | apply State.noteSat_kept | apply Kept.foldl | apply Kept.foldl_fst) | (with_reducible refine Kept.mk rfl rfl rfl rfl ?_; with_reducible first | assumption | apply State.setMa_kept | apply State.noteSat_kept | apply Kept.foldl | apply Kept.foldl_fst) | split | dsimp only [id_eq] | with_reducible apply Kept.ite

theorem execMcNop_kept {Q : List Instr} (n : Fin 96) (s : State) (h0 : Kept Q s) :
    KeptOut Q (execMcNop n s) := by
  unfold execMcNop
  try dsimp only
  repeat' first | intro _ | (with_reducible first | assumption | apply live_kept | apply State.mc_kept | apply Kept.foldl | apply Kept.foldl_fst | apply KeptOut.live | apply KeptOut.next) | (with_reducible refine Kept.mk rfl rfl rfl rfl ?_; with_reducible first | assumption | apply live_kept | apply State.mc_kept | apply Kept.foldl | apply Kept.foldl_fst) | split | dsimp only [id_eq] | with_reducible apply Kept.ite

theorem execMcLdi_kept {Q : List Instr} (n : Fin 96) (d : Fin 16) (imm : Fin 16777216) (s : State) (h0 : Kept Q s) :
    KeptOut Q (execMcLdi n d imm s) := by
  unfold execMcLdi
  try dsimp only
  repeat' first | intro _ | (with_reducible first | assumption | apply live_kept | apply State.mc_kept | apply State.setMx_kept | apply Kept.foldl | apply Kept.foldl_fst | apply KeptOut.live | apply KeptOut.next) | (with_reducible refine Kept.mk rfl rfl rfl rfl ?_; with_reducible first | assumption | apply live_kept | apply State.mc_kept | apply State.setMx_kept | apply Kept.foldl | apply Kept.foldl_fst) | split | dsimp only [id_eq] | with_reducible apply Kept.ite

theorem execMcMov_kept {Q : List Instr} (n : Fin 96) (d a : Fin 16) (s : State) (h0 : Kept Q s) :
    KeptOut Q (execMcMov n d a s) := by
  unfold execMcMov
  try dsimp only
  repeat' first | intro _ | (with_reducible first | assumption | apply live_kept | apply State.mc_kept | apply State.setMx_kept | apply Kept.foldl | apply Kept.foldl_fst | apply KeptOut.live | apply KeptOut.next) | (with_reducible refine Kept.mk rfl rfl rfl rfl ?_; with_reducible first | assumption | apply live_kept | apply State.mc_kept | apply State.setMx_kept | apply Kept.foldl | apply Kept.foldl_fst) | split | dsimp only [id_eq] | with_reducible apply Kept.ite

theorem execMcIn_kept {Q : List Instr} (n : Fin 96) (d : Fin 16) (a : Fin 6) (s : State) (h0 : Kept Q s) :
    KeptOut Q (execMcIn n d a s) := by
  unfold execMcIn
  try dsimp only
  repeat' first | intro _ | (with_reducible first | assumption | apply live_kept | apply State.mc_kept | apply State.setMx_kept | apply Kept.foldl | apply Kept.foldl_fst | apply KeptOut.live | apply KeptOut.next) | (with_reducible refine Kept.mk rfl rfl rfl rfl ?_; with_reducible first | assumption | apply live_kept | apply State.mc_kept | apply State.setMx_kept | apply Kept.foldl | apply Kept.foldl_fst) | split | dsimp only [id_eq] | with_reducible apply Kept.ite

theorem execMcOut_kept {Q : List Instr} (n : Fin 96) (d : Fin 2) (a : Fin 16) (s : State) (h0 : Kept Q s) :
    KeptOut Q (execMcOut n d a s) := by
  unfold execMcOut
  try dsimp only
  repeat' first | intro _ | (with_reducible first | assumption | apply live_kept | apply State.mc_kept | apply State.applyOut_kept | apply State.noteSat_kept | apply Kept.foldl | apply Kept.foldl_fst | apply KeptOut.live | apply KeptOut.next) | (with_reducible refine Kept.mk rfl rfl rfl rfl ?_; with_reducible first | assumption | apply live_kept | apply State.mc_kept | apply State.applyOut_kept | apply State.noteSat_kept | apply Kept.foldl | apply Kept.foldl_fst) | split | dsimp only [id_eq] | with_reducible apply Kept.ite

theorem execMcLds_kept {Q : List Instr} (n : Fin 96) (d : Fin 16) (w : Fin 64) (s : State) (h0 : Kept Q s) :
    KeptOut Q (execMcLds n d w s) := by
  unfold execMcLds
  try dsimp only
  repeat' first | intro _ | (with_reducible first | assumption | apply live_kept | apply State.mc_kept | apply State.setMx_kept | apply Kept.foldl | apply Kept.foldl_fst | apply KeptOut.live | apply KeptOut.next) | (with_reducible refine Kept.mk rfl rfl rfl rfl ?_; with_reducible first | assumption | apply live_kept | apply State.mc_kept | apply State.setMx_kept | apply Kept.foldl | apply Kept.foldl_fst) | split | dsimp only [id_eq] | with_reducible apply Kept.ite

theorem execMcSts_kept {Q : List Instr} (n : Fin 96) (w : Fin 64) (a : Fin 16) (s : State) (h0 : Kept Q s) :
    KeptOut Q (execMcSts n w a s) := by
  unfold execMcSts
  try dsimp only
  repeat' first | intro _ | (with_reducible first | assumption | apply live_kept | apply State.mc_kept | apply State.setMw_kept | apply Kept.foldl | apply Kept.foldl_fst | apply KeptOut.live | apply KeptOut.next) | (with_reducible refine Kept.mk rfl rfl rfl rfl ?_; with_reducible first | assumption | apply live_kept | apply State.mc_kept | apply State.setMw_kept | apply Kept.foldl | apply Kept.foldl_fst) | split | dsimp only [id_eq] | with_reducible apply Kept.ite

theorem execMcLdc_kept {Q : List Instr} (n : Fin 96) (d : Fin 16) (c : Fin 64) (s : State) (h0 : Kept Q s) :
    KeptOut Q (execMcLdc n d c s) := by
  unfold execMcLdc
  try dsimp only
  repeat' first | intro _ | (with_reducible first | assumption | apply live_kept | apply State.mc_kept | apply State.setMx_kept | apply Kept.foldl | apply Kept.foldl_fst | apply KeptOut.live | apply KeptOut.next) | (with_reducible refine Kept.mk rfl rfl rfl rfl ?_; with_reducible first | assumption | apply live_kept | apply State.mc_kept | apply State.setMx_kept | apply Kept.foldl | apply Kept.foldl_fst) | split | dsimp only [id_eq] | with_reducible apply Kept.ite

theorem execMcLda_kept {Q : List Instr} (n : Fin 96) (d : Fin 4) (a : Fin 16) (s : State) (h0 : Kept Q s) :
    KeptOut Q (execMcLda n d a s) := by
  unfold execMcLda
  try dsimp only
  repeat' first | intro _ | (with_reducible first | assumption | apply live_kept | apply State.mc_kept | apply State.setMa_kept | apply Kept.foldl | apply Kept.foldl_fst | apply KeptOut.live | apply KeptOut.next) | (with_reducible refine Kept.mk rfl rfl rfl rfl ?_; with_reducible first | assumption | apply live_kept | apply State.mc_kept | apply State.setMa_kept | apply Kept.foldl | apply Kept.foldl_fst) | split | dsimp only [id_eq] | with_reducible apply Kept.ite

theorem execMcLdsa_kept {Q : List Instr} (n : Fin 96) (d : Fin 4) (w : Fin 32) (s : State) (h0 : Kept Q s) :
    KeptOut Q (execMcLdsa n d w s) := by
  unfold execMcLdsa
  try dsimp only
  repeat' first | intro _ | (with_reducible first | assumption | apply live_kept | apply State.mc_kept | apply State.setMa_kept | apply Kept.foldl | apply Kept.foldl_fst | apply KeptOut.live | apply KeptOut.next) | (with_reducible refine Kept.mk rfl rfl rfl rfl ?_; with_reducible first | assumption | apply live_kept | apply State.mc_kept | apply State.setMa_kept | apply Kept.foldl | apply Kept.foldl_fst) | split | dsimp only [id_eq] | with_reducible apply Kept.ite

theorem execMcStsa_kept {Q : List Instr} (n : Fin 96) (w : Fin 32) (a : Fin 4) (s : State) (h0 : Kept Q s) :
    KeptOut Q (execMcStsa n w a s) := by
  unfold execMcStsa
  try dsimp only
  repeat' first | intro _ | (with_reducible first | assumption | apply live_kept | apply State.mc_kept | apply State.setMw_kept | apply Kept.foldl | apply Kept.foldl_fst | apply KeptOut.live | apply KeptOut.next) | (with_reducible refine Kept.mk rfl rfl rfl rfl ?_; with_reducible first | assumption | apply live_kept | apply State.mc_kept | apply State.setMw_kept | apply Kept.foldl | apply Kept.foldl_fst) | split | dsimp only [id_eq] | with_reducible apply Kept.ite

theorem execMcAdd_kept {Q : List Instr} (n : Fin 96) (d a b : Fin 16) (s : State) (h0 : Kept Q s) :
    KeptOut Q (execMcAdd n d a b s) := by
  unfold execMcAdd
  try dsimp only
  repeat' first | intro _ | (with_reducible first | assumption | apply live_kept | apply State.mc_kept | apply State.satX_kept | apply Kept.foldl | apply Kept.foldl_fst | apply KeptOut.live | apply KeptOut.next) | (with_reducible refine Kept.mk rfl rfl rfl rfl ?_; with_reducible first | assumption | apply live_kept | apply State.mc_kept | apply State.satX_kept | apply Kept.foldl | apply Kept.foldl_fst) | split | dsimp only [id_eq] | with_reducible apply Kept.ite

theorem execMcSub_kept {Q : List Instr} (n : Fin 96) (d a b : Fin 16) (s : State) (h0 : Kept Q s) :
    KeptOut Q (execMcSub n d a b s) := by
  unfold execMcSub
  try dsimp only
  repeat' first | intro _ | (with_reducible first | assumption | apply live_kept | apply State.mc_kept | apply State.satX_kept | apply Kept.foldl | apply Kept.foldl_fst | apply KeptOut.live | apply KeptOut.next) | (with_reducible refine Kept.mk rfl rfl rfl rfl ?_; with_reducible first | assumption | apply live_kept | apply State.mc_kept | apply State.satX_kept | apply Kept.foldl | apply Kept.foldl_fst) | split | dsimp only [id_eq] | with_reducible apply Kept.ite

theorem execMcNeg_kept {Q : List Instr} (n : Fin 96) (d a : Fin 16) (s : State) (h0 : Kept Q s) :
    KeptOut Q (execMcNeg n d a s) := by
  unfold execMcNeg
  try dsimp only
  repeat' first | intro _ | (with_reducible first | assumption | apply live_kept | apply State.mc_kept | apply State.satX_kept | apply Kept.foldl | apply Kept.foldl_fst | apply KeptOut.live | apply KeptOut.next) | (with_reducible refine Kept.mk rfl rfl rfl rfl ?_; with_reducible first | assumption | apply live_kept | apply State.mc_kept | apply State.satX_kept | apply Kept.foldl | apply Kept.foldl_fst) | split | dsimp only [id_eq] | with_reducible apply Kept.ite

theorem execMcAbs_kept {Q : List Instr} (n : Fin 96) (d a : Fin 16) (s : State) (h0 : Kept Q s) :
    KeptOut Q (execMcAbs n d a s) := by
  unfold execMcAbs
  try dsimp only
  repeat' first | intro _ | (with_reducible first | assumption | apply live_kept | apply State.mc_kept | apply State.satX_kept | apply Kept.foldl | apply Kept.foldl_fst | apply KeptOut.live | apply KeptOut.next) | (with_reducible refine Kept.mk rfl rfl rfl rfl ?_; with_reducible first | assumption | apply live_kept | apply State.mc_kept | apply State.satX_kept | apply Kept.foldl | apply Kept.foldl_fst) | split | dsimp only [id_eq] | with_reducible apply Kept.ite

theorem execMcMin_kept {Q : List Instr} (n : Fin 96) (d a b : Fin 16) (s : State) (h0 : Kept Q s) :
    KeptOut Q (execMcMin n d a b s) := by
  unfold execMcMin
  try dsimp only
  repeat' first | intro _ | (with_reducible first | assumption | apply live_kept | apply State.mc_kept | apply State.setMx_kept | apply Kept.foldl | apply Kept.foldl_fst | apply KeptOut.live | apply KeptOut.next) | (with_reducible refine Kept.mk rfl rfl rfl rfl ?_; with_reducible first | assumption | apply live_kept | apply State.mc_kept | apply State.setMx_kept | apply Kept.foldl | apply Kept.foldl_fst) | split | dsimp only [id_eq] | with_reducible apply Kept.ite

theorem execMcMax_kept {Q : List Instr} (n : Fin 96) (d a b : Fin 16) (s : State) (h0 : Kept Q s) :
    KeptOut Q (execMcMax n d a b s) := by
  unfold execMcMax
  try dsimp only
  repeat' first | intro _ | (with_reducible first | assumption | apply live_kept | apply State.mc_kept | apply State.setMx_kept | apply Kept.foldl | apply Kept.foldl_fst | apply KeptOut.live | apply KeptOut.next) | (with_reducible refine Kept.mk rfl rfl rfl rfl ?_; with_reducible first | assumption | apply live_kept | apply State.mc_kept | apply State.setMx_kept | apply Kept.foldl | apply Kept.foldl_fst) | split | dsimp only [id_eq] | with_reducible apply Kept.ite

theorem execMcClp_kept {Q : List Instr} (n : Fin 96) (d a : Fin 16) (c : Fin 64) (s : State) (h0 : Kept Q s) :
    KeptOut Q (execMcClp n d a c s) := by
  unfold execMcClp
  try dsimp only
  repeat' first | intro _ | (with_reducible first | assumption | apply live_kept | apply State.mc_kept | apply State.setMx_kept | apply Kept.foldl | apply Kept.foldl_fst | apply KeptOut.live | apply KeptOut.next) | (with_reducible refine Kept.mk rfl rfl rfl rfl ?_; with_reducible first | assumption | apply live_kept | apply State.mc_kept | apply State.setMx_kept | apply Kept.foldl | apply Kept.foldl_fst) | split | dsimp only [id_eq] | with_reducible apply Kept.ite

theorem execMcShl_kept {Q : List Instr} (n : Fin 96) (d a : Fin 16) (sh : Fin 16) (s : State) (h0 : Kept Q s) :
    KeptOut Q (execMcShl n d a sh s) := by
  unfold execMcShl
  try dsimp only
  repeat' first | intro _ | (with_reducible first | assumption | apply live_kept | apply State.mc_kept | apply State.satX_kept | apply Kept.foldl | apply Kept.foldl_fst | apply KeptOut.live | apply KeptOut.next) | (with_reducible refine Kept.mk rfl rfl rfl rfl ?_; with_reducible first | assumption | apply live_kept | apply State.mc_kept | apply State.satX_kept | apply Kept.foldl | apply Kept.foldl_fst) | split | dsimp only [id_eq] | with_reducible apply Kept.ite

theorem execMcShr_kept {Q : List Instr} (n : Fin 96) (d a : Fin 16) (sh : Fin 16) (s : State) (h0 : Kept Q s) :
    KeptOut Q (execMcShr n d a sh s) := by
  unfold execMcShr
  try dsimp only
  repeat' first | intro _ | (with_reducible first | assumption | apply live_kept | apply State.mc_kept | apply State.setMx_kept | apply Kept.foldl | apply Kept.foldl_fst | apply KeptOut.live | apply KeptOut.next) | (with_reducible refine Kept.mk rfl rfl rfl rfl ?_; with_reducible first | assumption | apply live_kept | apply State.mc_kept | apply State.setMx_kept | apply Kept.foldl | apply Kept.foldl_fst) | split | dsimp only [id_eq] | with_reducible apply Kept.ite

theorem execMcMul_kept {Q : List Instr} (n : Fin 96) (d a b : Fin 16) (sh : Fin 16) (s : State) (h0 : Kept Q s) :
    KeptOut Q (execMcMul n d a b sh s) := by
  unfold execMcMul
  try dsimp only
  repeat' first | intro _ | (with_reducible first | assumption | apply live_kept | apply State.mc_kept | apply State.satX_kept | apply Kept.foldl | apply Kept.foldl_fst | apply KeptOut.live | apply KeptOut.next) | (with_reducible refine Kept.mk rfl rfl rfl rfl ?_; with_reducible first | assumption | apply live_kept | apply State.mc_kept | apply State.satX_kept | apply Kept.foldl | apply Kept.foldl_fst) | split | dsimp only [id_eq] | with_reducible apply Kept.ite

theorem execMcDiv_kept {Q : List Instr} (n : Fin 96) (d a b : Fin 16) (s : State) (h0 : Kept Q s) :
    KeptOut Q (execMcDiv n d a b s) := by
  unfold execMcDiv
  try dsimp only
  repeat' first | intro _ | (with_reducible first | assumption | apply live_kept | apply State.mc_kept | apply State.setMx_kept | apply State.noteSat_kept | apply Kept.foldl | apply Kept.foldl_fst | apply KeptOut.live | apply KeptOut.next) | (with_reducible refine Kept.mk rfl rfl rfl rfl ?_; with_reducible first | assumption | apply live_kept | apply State.mc_kept | apply State.setMx_kept | apply State.noteSat_kept | apply Kept.foldl | apply Kept.foldl_fst) | split | dsimp only [id_eq] | with_reducible apply Kept.ite

theorem execMcClr_kept {Q : List Instr} (n : Fin 96) (d : Fin 4) (s : State) (h0 : Kept Q s) :
    KeptOut Q (execMcClr n d s) := by
  unfold execMcClr
  try dsimp only
  repeat' first | intro _ | (with_reducible first | assumption | apply live_kept | apply State.mc_kept | apply State.setMa_kept | apply Kept.foldl | apply Kept.foldl_fst | apply KeptOut.live | apply KeptOut.next) | (with_reducible refine Kept.mk rfl rfl rfl rfl ?_; with_reducible first | assumption | apply live_kept | apply State.mc_kept | apply State.setMa_kept | apply Kept.foldl | apply Kept.foldl_fst) | split | dsimp only [id_eq] | with_reducible apply Kept.ite

theorem execMcMac_kept {Q : List Instr} (n : Fin 96) (d : Fin 4) (a : Fin 16) (c : Fin 64) (s : State) (h0 : Kept Q s) :
    KeptOut Q (execMcMac n d a c s) := by
  unfold execMcMac
  try dsimp only
  repeat' first | intro _ | (with_reducible first | assumption | apply live_kept | apply State.mc_kept | apply State.satA_kept | apply Kept.foldl | apply Kept.foldl_fst | apply KeptOut.live | apply KeptOut.next) | (with_reducible refine Kept.mk rfl rfl rfl rfl ?_; with_reducible first | assumption | apply live_kept | apply State.mc_kept | apply State.satA_kept | apply Kept.foldl | apply Kept.foldl_fst) | split | dsimp only [id_eq] | with_reducible apply Kept.ite

theorem execMcMsu_kept {Q : List Instr} (n : Fin 96) (d : Fin 4) (a : Fin 16) (c : Fin 64) (s : State) (h0 : Kept Q s) :
    KeptOut Q (execMcMsu n d a c s) := by
  unfold execMcMsu
  try dsimp only
  repeat' first | intro _ | (with_reducible first | assumption | apply live_kept | apply State.mc_kept | apply State.satA_kept | apply Kept.foldl | apply Kept.foldl_fst | apply KeptOut.live | apply KeptOut.next) | (with_reducible refine Kept.mk rfl rfl rfl rfl ?_; with_reducible first | assumption | apply live_kept | apply State.mc_kept | apply State.satA_kept | apply Kept.foldl | apply Kept.foldl_fst) | split | dsimp only [id_eq] | with_reducible apply Kept.ite

theorem execMcMacx_kept {Q : List Instr} (n : Fin 96) (d : Fin 4) (a b : Fin 16) (s : State) (h0 : Kept Q s) :
    KeptOut Q (execMcMacx n d a b s) := by
  unfold execMcMacx
  try dsimp only
  repeat' first | intro _ | (with_reducible first | assumption | apply live_kept | apply State.mc_kept | apply State.satA_kept | apply Kept.foldl | apply Kept.foldl_fst | apply KeptOut.live | apply KeptOut.next) | (with_reducible refine Kept.mk rfl rfl rfl rfl ?_; with_reducible first | assumption | apply live_kept | apply State.mc_kept | apply State.satA_kept | apply Kept.foldl | apply Kept.foldl_fst) | split | dsimp only [id_eq] | with_reducible apply Kept.ite

theorem execMcAdda_kept {Q : List Instr} (n : Fin 96) (d b : Fin 4) (s : State) (h0 : Kept Q s) :
    KeptOut Q (execMcAdda n d b s) := by
  unfold execMcAdda
  try dsimp only
  repeat' first | intro _ | (with_reducible first | assumption | apply live_kept | apply State.mc_kept | apply State.satA_kept | apply Kept.foldl | apply Kept.foldl_fst | apply KeptOut.live | apply KeptOut.next) | (with_reducible refine Kept.mk rfl rfl rfl rfl ?_; with_reducible first | assumption | apply live_kept | apply State.mc_kept | apply State.satA_kept | apply Kept.foldl | apply Kept.foldl_fst) | split | dsimp only [id_eq] | with_reducible apply Kept.ite

theorem execMcRnd_kept {Q : List Instr} (n : Fin 96) (d : Fin 16) (a : Fin 4) (sh : Fin 16) (s : State) (h0 : Kept Q s) :
    KeptOut Q (execMcRnd n d a sh s) := by
  unfold execMcRnd
  try dsimp only
  repeat' first | intro _ | (with_reducible first | assumption | apply live_kept | apply State.mc_kept | apply State.satX_kept | apply Kept.foldl | apply Kept.foldl_fst | apply KeptOut.live | apply KeptOut.next) | (with_reducible refine Kept.mk rfl rfl rfl rfl ?_; with_reducible first | assumption | apply live_kept | apply State.mc_kept | apply State.satX_kept | apply Kept.foldl | apply Kept.foldl_fst) | split | dsimp only [id_eq] | with_reducible apply Kept.ite

theorem execMcBr_kept {Q : List Instr} (n : Fin 96) (dest : Fin 16384) (cond : Fin 8) (a : Fin 16) (s : State) (h0 : Kept Q s) :
    KeptOut Q (execMcBr n dest cond a s) := by
  unfold execMcBr
  try dsimp only
  repeat' first | intro _ | (with_reducible first | assumption | apply live_kept | apply State.mc_kept | apply State.updSlot_kept | apply Kept.foldl | apply Kept.foldl_fst | apply KeptOut.live | apply KeptOut.next) | (with_reducible refine Kept.mk rfl rfl rfl rfl ?_; with_reducible first | assumption | apply live_kept | apply State.mc_kept | apply State.updSlot_kept | apply Kept.foldl | apply Kept.foldl_fst) | split | dsimp only [id_eq] | with_reducible apply Kept.ite

theorem execMcEnd_kept {Q : List Instr} (n : Fin 96) (s : State) (h0 : Kept Q s) :
    KeptOut Q (execMcEnd n s) := by
  unfold execMcEnd
  try dsimp only
  repeat' first | intro _ | (with_reducible first | assumption | apply live_kept | apply State.slotFault_kept | apply State.spend_kept | apply State.sampleEnds_kept | apply State.endSample_kept | apply Kept.foldl | apply Kept.foldl_fst | apply KeptOut.live | apply KeptOut.next) | (with_reducible refine Kept.mk rfl rfl rfl rfl ?_; with_reducible first | assumption | apply live_kept | apply State.slotFault_kept | apply State.spend_kept | apply State.sampleEnds_kept | apply State.endSample_kept | apply Kept.foldl | apply Kept.foldl_fst) | split | dsimp only [id_eq] | with_reducible apply Kept.ite

theorem execMcFault_kept {Q : List Instr} (n : Fin 96) (s : State) (h0 : Kept Q s) :
    KeptOut Q (execMcFault n s) := by
  unfold execMcFault
  try dsimp only
  repeat' first | intro _ | (with_reducible first | assumption | apply live_kept | apply State.slotFault_kept | apply State.spend_kept | apply State.sampleEnds_kept | apply State.capture_kept | apply Kept.foldl | apply Kept.foldl_fst | apply KeptOut.live | apply KeptOut.next) | (with_reducible refine Kept.mk rfl rfl rfl rfl ?_; with_reducible first | assumption | apply live_kept | apply State.slotFault_kept | apply State.spend_kept | apply State.sampleEnds_kept | apply State.capture_kept | apply Kept.foldl | apply Kept.foldl_fst) | split | dsimp only [id_eq] | with_reducible apply Kept.ite

theorem execMcFf_kept {Q : List Instr} (n : Fin 96) (d : Fin 16) (s : State) (h0 : Kept Q s) :
    KeptOut Q (execMcFf n d s) := by
  unfold execMcFf
  try dsimp only
  repeat' first | intro _ | (with_reducible first | assumption | apply live_kept | apply State.mc_kept | apply State.satX_kept | apply Kept.foldl | apply Kept.foldl_fst | apply KeptOut.live | apply KeptOut.next) | (with_reducible refine Kept.mk rfl rfl rfl rfl ?_; with_reducible first | assumption | apply live_kept | apply State.mc_kept | apply State.satX_kept | apply Kept.foldl | apply Kept.foldl_fst) | split | dsimp only [id_eq] | with_reducible apply Kept.ite

theorem execMcInj_kept {Q : List Instr} (n : Fin 96) (d : Fin 16) (s : State) (h0 : Kept Q s) :
    KeptOut Q (execMcInj n d s) := by
  unfold execMcInj
  try dsimp only
  repeat' first | intro _ | (with_reducible first | assumption | apply live_kept | apply State.mc_kept | apply State.satX_kept | apply Kept.foldl | apply Kept.foldl_fst | apply KeptOut.live | apply KeptOut.next) | (with_reducible refine Kept.mk rfl rfl rfl rfl ?_; with_reducible first | assumption | apply live_kept | apply State.mc_kept | apply State.satX_kept | apply Kept.foldl | apply Kept.foldl_fst) | split | dsimp only [id_eq] | with_reducible apply Kept.ite

theorem execMcEvt_kept {Q : List Instr} (n : Fin 96) (e : Fin 4) (s : State) (h0 : Kept Q s) :
    KeptOut Q (execMcEvt n e s) := by
  unfold execMcEvt
  try dsimp only
  repeat' first | intro _ | (with_reducible first | assumption | apply live_kept | apply State.mc_kept | apply State.raise_kept | apply Kept.foldl | apply Kept.foldl_fst | apply KeptOut.live | apply KeptOut.next) | (with_reducible refine Kept.mk rfl rfl rfl rfl ?_; with_reducible first | assumption | apply live_kept | apply State.mc_kept | apply State.raise_kept | apply Kept.foldl | apply Kept.foldl_fst) | split | dsimp only [id_eq] | with_reducible apply Kept.ite

theorem execMcIllegalInstruction_kept {Q : List Instr} (n : Fin 96) (s : State) (h0 : Kept Q s) :
    KeptOut Q (execMcIllegalInstruction n s) := by
  unfold execMcIllegalInstruction
  try dsimp only
  repeat' first | intro _ | (with_reducible first | assumption | apply live_kept | apply State.slotFault_kept | apply Kept.foldl | apply Kept.foldl_fst | apply KeptOut.live | apply KeptOut.next) | (with_reducible refine Kept.mk rfl rfl rfl rfl ?_; with_reducible first | assumption | apply live_kept | apply State.slotFault_kept | apply Kept.foldl | apply Kept.foldl_fst) | split | dsimp only [id_eq] | with_reducible apply Kept.ite

end Sys2Proof.Machine
end

