-- ==== Sys2Proof/Laws/KeptNvmeAdmin.lean ====
section
/-! SUPPORT. Soundness is kept by every operation and meaning of Machine/NvmeAdmin.lean. -/

namespace Sys2Proof.Machine

theorem State.admin_kept {Q : List Instr} (s : State) (opc : Nat) (least ready : HCmd → Bool) (f : State → Nat → HCmd → State) (h0 : Kept Q s) (h1 : ∀ a0 a1 a2, Kept Q a0 → Kept Q (f a0 a1 a2)) :
    KeptOut Q (State.admin s opc least ready f) := by
  unfold State.admin
  try dsimp only
  repeat' first | intro _ | (with_reducible first | assumption | apply h1 | apply State.takeCmd_kept | apply Kept.foldl | apply Kept.foldl_fst | apply KeptOut.live | apply KeptOut.next) | (with_reducible refine Kept.mk rfl rfl rfl rfl ?_; with_reducible first | assumption | apply h1 | apply State.takeCmd_kept | apply Kept.foldl | apply Kept.foldl_fst) | split | dsimp only [id_eq] | with_reducible apply Kept.ite

theorem State.refuseQueue_kept {Q : List Instr} (s : State) (slot q : Nat) (x : Stat) (h0 : Kept Q s) :
    Kept Q (State.refuseQueue s slot q x) := by
  unfold State.refuseQueue
  try dsimp only
  repeat' first | intro _ | (with_reducible first | assumption | apply State.nvViol_kept | apply State.finish_kept | apply Kept.foldl | apply Kept.foldl_fst) | (with_reducible refine Kept.mk rfl rfl rfl rfl ?_; with_reducible first | assumption | apply State.nvViol_kept | apply State.finish_kept | apply Kept.foldl | apply Kept.foldl_fst) | split | dsimp only [id_eq] | with_reducible apply Kept.ite

theorem execCreateIoCq_kept {Q : List Instr} (s : State) (h0 : Kept Q s) :
    KeptOut Q (execCreateIoCq s) := by
  unfold execCreateIoCq
  try dsimp only
  repeat' first | intro _ | (with_reducible first | assumption | apply State.admin_kept | apply State.refuseQueue_kept | apply State.finish_kept | apply State.setCq_kept | apply Kept.foldl | apply Kept.foldl_fst | apply KeptOut.live | apply KeptOut.next) | (with_reducible refine Kept.mk rfl rfl rfl rfl ?_; with_reducible first | assumption | apply State.admin_kept | apply State.refuseQueue_kept | apply State.finish_kept | apply State.setCq_kept | apply Kept.foldl | apply Kept.foldl_fst) | split | dsimp only [id_eq] | with_reducible apply Kept.ite

theorem execCreateIoSq_kept {Q : List Instr} (s : State) (h0 : Kept Q s) :
    KeptOut Q (execCreateIoSq s) := by
  unfold execCreateIoSq
  try dsimp only
  repeat' first | intro _ | (with_reducible first | assumption | apply State.admin_kept | apply State.refuseQueue_kept | apply State.finish_kept | apply State.setSq_kept | apply Kept.foldl | apply Kept.foldl_fst | apply KeptOut.live | apply KeptOut.next) | (with_reducible refine Kept.mk rfl rfl rfl rfl ?_; with_reducible first | assumption | apply State.admin_kept | apply State.refuseQueue_kept | apply State.finish_kept | apply State.setSq_kept | apply Kept.foldl | apply Kept.foldl_fst) | split | dsimp only [id_eq] | with_reducible apply Kept.ite

theorem State.cancel_kept {Q : List Instr} (s : State) (slot : Nat) (x : Stat) (h0 : Kept Q s) :
    Kept Q (State.cancel s slot x) := by
  unfold State.cancel
  try dsimp only
  repeat' first | intro _ | (with_reducible first | assumption | apply State.setWaiting_kept | apply State.completeNow_kept | apply Kept.foldl | apply Kept.foldl_fst) | (with_reducible refine Kept.mk rfl rfl rfl rfl ?_; with_reducible first | assumption | apply State.setWaiting_kept | apply State.completeNow_kept | apply Kept.foldl | apply Kept.foldl_fst) | split | dsimp only [id_eq] | with_reducible apply Kept.ite

theorem execDeleteIoSq_kept {Q : List Instr} (s : State) (h0 : Kept Q s) :
    KeptOut Q (execDeleteIoSq s) := by
  unfold execDeleteIoSq
  try dsimp only
  repeat' first | intro _ | (with_reducible first | assumption | apply State.admin_kept | apply State.finish_kept | apply State.cancel_kept | apply State.setSq_kept | apply Kept.foldl | apply Kept.foldl_fst | apply KeptOut.live | apply KeptOut.next) | (with_reducible refine Kept.mk rfl rfl rfl rfl ?_; with_reducible first | assumption | apply State.admin_kept | apply State.finish_kept | apply State.cancel_kept | apply State.setSq_kept | apply Kept.foldl | apply Kept.foldl_fst) | split | dsimp only [id_eq] | with_reducible apply Kept.ite

theorem execDeleteIoCq_kept {Q : List Instr} (s : State) (h0 : Kept Q s) :
    KeptOut Q (execDeleteIoCq s) := by
  unfold execDeleteIoCq
  try dsimp only
  repeat' first | intro _ | (with_reducible first | assumption | apply State.admin_kept | apply State.finish_kept | apply State.setCq_kept | apply Kept.foldl | apply Kept.foldl_fst | apply KeptOut.live | apply KeptOut.next) | (with_reducible refine Kept.mk rfl rfl rfl rfl ?_; with_reducible first | assumption | apply State.admin_kept | apply State.finish_kept | apply State.setCq_kept | apply Kept.foldl | apply Kept.foldl_fst) | split | dsimp only [id_eq] | with_reducible apply Kept.ite

theorem execGetLogPage_kept {Q : List Instr} (s : State) (h0 : Kept Q s) :
    KeptOut Q (execGetLogPage s) := by
  unfold execGetLogPage
  try dsimp only
  repeat' first | intro _ | (with_reducible first | assumption | apply State.admin_kept | apply State.finish_kept | apply State.take_kept | apply Kept.foldl | apply Kept.foldl_fst | apply KeptOut.live | apply KeptOut.next) | (with_reducible refine Kept.mk rfl rfl rfl rfl ?_; with_reducible first | assumption | apply State.admin_kept | apply State.finish_kept | apply State.take_kept | apply Kept.foldl | apply Kept.foldl_fst) | split | dsimp only [id_eq] | with_reducible apply Kept.ite

theorem execIdentify_kept {Q : List Instr} (s : State) (h0 : Kept Q s) :
    KeptOut Q (execIdentify s) := by
  unfold execIdentify
  try dsimp only
  repeat' first | intro _ | (with_reducible first | assumption | apply State.admin_kept | apply State.finish_kept | apply Kept.foldl | apply Kept.foldl_fst | apply KeptOut.live | apply KeptOut.next) | (with_reducible refine Kept.mk rfl rfl rfl rfl ?_; with_reducible first | assumption | apply State.admin_kept | apply State.finish_kept | apply Kept.foldl | apply Kept.foldl_fst) | split | dsimp only [id_eq] | with_reducible apply Kept.ite

theorem execAbort_kept {Q : List Instr} (s : State) (h0 : Kept Q s) :
    KeptOut Q (execAbort s) := by
  unfold execAbort
  try dsimp only
  repeat' first | intro _ | (with_reducible first | assumption | apply State.admin_kept | apply State.cancel_kept | apply State.finish_kept | apply Kept.foldl | apply Kept.foldl_fst | apply KeptOut.live | apply KeptOut.next) | (with_reducible refine Kept.mk rfl rfl rfl rfl ?_; with_reducible first | assumption | apply State.admin_kept | apply State.cancel_kept | apply State.finish_kept | apply Kept.foldl | apply Kept.foldl_fst) | split | dsimp only [id_eq] | with_reducible apply Kept.ite

theorem State.setFeat_kept {Q : List Instr} (s : State) (k v : Nat) (h0 : Kept Q s) :
    Kept Q (State.setFeat s k v) := by
  unfold State.setFeat
  try dsimp only
  repeat' first | intro _ | (with_reducible first | assumption | apply Kept.foldl | apply Kept.foldl_fst) | (with_reducible refine Kept.mk rfl rfl rfl rfl ?_; with_reducible first | assumption | apply Kept.foldl | apply Kept.foldl_fst) | split | dsimp only [id_eq] | with_reducible apply Kept.ite

theorem State.setFeature_kept {Q : List Instr} (s : State) (slot : Nat) (c : HCmd) (h0 : Kept Q s) :
    Kept Q (State.setFeature s slot c).1 := by
  unfold State.setFeature
  try dsimp only
  repeat' first | intro _ | (with_reducible first | assumption | apply State.setFeat_kept | apply State.psRequest_kept | apply State.timecodeSet_kept | apply State.setParams_kept | apply State.take_kept | apply Kept.foldl | apply Kept.foldl_fst) | (with_reducible refine Kept.mk rfl rfl rfl rfl ?_; with_reducible first | assumption | apply State.setFeat_kept | apply State.psRequest_kept | apply State.timecodeSet_kept | apply State.setParams_kept | apply State.take_kept | apply Kept.foldl | apply Kept.foldl_fst) | split | dsimp only [id_eq] | with_reducible apply Kept.ite

theorem execSetFeatures_kept {Q : List Instr} (s : State) (h0 : Kept Q s) :
    KeptOut Q (execSetFeatures s) := by
  unfold execSetFeatures
  try dsimp only
  repeat' first | intro _ | (with_reducible first | assumption | apply State.admin_kept | apply State.setFeature_kept | apply State.finish_kept | apply Kept.foldl | apply Kept.foldl_fst | apply KeptOut.live | apply KeptOut.next) | (with_reducible refine Kept.mk rfl rfl rfl rfl ?_; with_reducible first | assumption | apply State.admin_kept | apply State.setFeature_kept | apply State.finish_kept | apply Kept.foldl | apply Kept.foldl_fst) | split | dsimp only [id_eq] | with_reducible apply Kept.ite

theorem execGetFeatures_kept {Q : List Instr} (s : State) (h0 : Kept Q s) :
    KeptOut Q (execGetFeatures s) := by
  unfold execGetFeatures
  try dsimp only
  repeat' first | intro _ | (with_reducible first | assumption | apply State.admin_kept | apply State.finish_kept | apply Kept.foldl | apply Kept.foldl_fst | apply KeptOut.live | apply KeptOut.next) | (with_reducible refine Kept.mk rfl rfl rfl rfl ?_; with_reducible first | assumption | apply State.admin_kept | apply State.finish_kept | apply Kept.foldl | apply Kept.foldl_fst) | split | dsimp only [id_eq] | with_reducible apply Kept.ite

theorem execAsyncEventRequest_kept {Q : List Instr} (s : State) (h0 : Kept Q s) :
    KeptOut Q (execAsyncEventRequest s) := by
  unfold execAsyncEventRequest
  try dsimp only
  repeat' first | intro _ | (with_reducible first | assumption | apply State.admin_kept | apply State.finish_kept | apply Kept.foldl | apply Kept.foldl_fst | apply KeptOut.live | apply KeptOut.next) | (with_reducible refine Kept.mk rfl rfl rfl rfl ?_; with_reducible first | assumption | apply State.admin_kept | apply State.finish_kept | apply Kept.foldl | apply Kept.foldl_fst) | split | dsimp only [id_eq] | with_reducible apply Kept.ite

theorem execNamespaceManagement_kept {Q : List Instr} (s : State) (h0 : Kept Q s) :
    KeptOut Q (execNamespaceManagement s) := by
  unfold execNamespaceManagement
  try dsimp only
  repeat' first | intro _ | (with_reducible first | assumption | apply State.admin_kept | apply State.take_kept | apply State.finish_kept | apply State.createCommand_kept | apply State.deleteCommand_kept | apply Kept.foldl | apply Kept.foldl_fst | apply KeptOut.live | apply KeptOut.next) | (with_reducible refine Kept.mk rfl rfl rfl rfl ?_; with_reducible first | assumption | apply State.admin_kept | apply State.take_kept | apply State.finish_kept | apply State.createCommand_kept | apply State.deleteCommand_kept | apply Kept.foldl | apply Kept.foldl_fst) | split | dsimp only [id_eq] | with_reducible apply Kept.ite

theorem execNamespaceAttachment_kept {Q : List Instr} (s : State) (h0 : Kept Q s) :
    KeptOut Q (execNamespaceAttachment s) := by
  unfold execNamespaceAttachment
  try dsimp only
  repeat' first | intro _ | (with_reducible first | assumption | apply State.admin_kept | apply State.finish_kept | apply State.take_kept | apply State.attachCommand_kept | apply State.detachCommand_kept | apply Kept.foldl | apply Kept.foldl_fst | apply KeptOut.live | apply KeptOut.next) | (with_reducible refine Kept.mk rfl rfl rfl rfl ?_; with_reducible first | assumption | apply State.admin_kept | apply State.finish_kept | apply State.take_kept | apply State.attachCommand_kept | apply State.detachCommand_kept | apply Kept.foldl | apply Kept.foldl_fst) | split | dsimp only [id_eq] | with_reducible apply Kept.ite

theorem execDeviceSelfTest_kept {Q : List Instr} (failed : Nat) (s : State) (h0 : Kept Q s) :
    KeptOut Q (execDeviceSelfTest failed s) := by
  unfold execDeviceSelfTest
  try dsimp only
  repeat' first | intro _ | (with_reducible first | assumption | apply State.admin_kept | apply State.testCommand_kept | apply Kept.foldl | apply Kept.foldl_fst | apply KeptOut.live | apply KeptOut.next) | (with_reducible refine Kept.mk rfl rfl rfl rfl ?_; with_reducible first | assumption | apply State.admin_kept | apply State.testCommand_kept | apply Kept.foldl | apply Kept.foldl_fst) | split | dsimp only [id_eq] | with_reducible apply Kept.ite

theorem execNvmeBake_kept {Q : List Instr} (s : State) (h0 : Kept Q s) :
    KeptOut Q (execNvmeBake s) := by
  unfold execNvmeBake
  try dsimp only
  repeat' first | intro _ | (with_reducible first | assumption | apply State.admin_kept | apply State.finish_kept | apply State.bakeCommand_kept | apply Kept.foldl | apply Kept.foldl_fst | apply KeptOut.live | apply KeptOut.next) | (with_reducible refine Kept.mk rfl rfl rfl rfl ?_; with_reducible first | assumption | apply State.admin_kept | apply State.finish_kept | apply State.bakeCommand_kept | apply Kept.foldl | apply Kept.foldl_fst) | split | dsimp only [id_eq] | with_reducible apply Kept.ite

theorem execNvmeSession_kept {Q : List Instr} (s : State) (h0 : Kept Q s) :
    KeptOut Q (execNvmeSession s) := by
  unfold execNvmeSession
  try dsimp only
  repeat' first | intro _ | (with_reducible first | assumption | apply State.admin_kept | apply State.sessionCommand_kept | apply Kept.foldl | apply Kept.foldl_fst | apply KeptOut.live | apply KeptOut.next) | (with_reducible refine Kept.mk rfl rfl rfl rfl ?_; with_reducible first | assumption | apply State.admin_kept | apply State.sessionCommand_kept | apply Kept.foldl | apply Kept.foldl_fst) | split | dsimp only [id_eq] | with_reducible apply Kept.ite

theorem execCartridge_kept {Q : List Instr} (ins : Option Cartridge) (s : State) (h0 : Kept Q s) :
    KeptOut Q (execCartridge ins s) := by
  unfold execCartridge
  try dsimp only
  repeat' first | intro _ | (with_reducible first | assumption | apply State.admin_kept | apply State.loadCommand_kept | apply State.ejectCommand_kept | apply State.finish_kept | apply Kept.foldl | apply Kept.foldl_fst | apply KeptOut.live | apply KeptOut.next) | (with_reducible refine Kept.mk rfl rfl rfl rfl ?_; with_reducible first | assumption | apply State.admin_kept | apply State.loadCommand_kept | apply State.ejectCommand_kept | apply State.finish_kept | apply Kept.foldl | apply Kept.foldl_fst) | split | dsimp only [id_eq] | with_reducible apply Kept.ite

theorem execNvmeForwardedAdmin_kept {Q : List Instr} (s : State) (h0 : Kept Q s) :
    KeptOut Q (execNvmeForwardedAdmin s) := by
  unfold execNvmeForwardedAdmin
  try dsimp only
  repeat' first | intro _ | (with_reducible first | assumption | apply State.takeCmd_kept | apply State.forward_kept | apply Kept.foldl | apply Kept.foldl_fst | apply KeptOut.live | apply KeptOut.next) | (with_reducible refine Kept.mk rfl rfl rfl rfl ?_; with_reducible first | assumption | apply State.takeCmd_kept | apply State.forward_kept | apply Kept.foldl | apply Kept.foldl_fst) | split | dsimp only [id_eq] | with_reducible apply Kept.ite

end Sys2Proof.Machine
end

