-- ==== Sys2Proof/Laws/KeptNvmeIo.lean ====
section
/-! SUPPORT. Soundness is kept by every operation and meaning of Machine/NvmeIo.lean. -/

namespace Sys2Proof.Machine

theorem State.ioTake_kept {Q : List Instr} (s : State) (q : Fin 65) (opc : Nat) (ready : HCmd → Bool) (f : State → Nat → HCmd → State) (h0 : Kept Q s) (h1 : ∀ a0 a1 a2, Kept Q a0 → Kept Q (f a0 a1 a2)) :
    KeptOut Q (State.ioTake s q opc ready f) := by
  unfold State.ioTake
  try dsimp only
  repeat' first | intro _ | (with_reducible first | assumption | apply h1 | apply State.takeCmd_kept | apply Kept.foldl | apply Kept.foldl_fst | apply KeptOut.live | apply KeptOut.next) | (with_reducible refine Kept.mk rfl rfl rfl rfl ?_; with_reducible first | assumption | apply h1 | apply State.takeCmd_kept | apply Kept.foldl | apply Kept.foldl_fst) | split | dsimp only [id_eq] | with_reducible apply Kept.ite

theorem State.onNs_kept {Q : List Instr} (s : State) (slot : Nat) (c : HCmd) (f : Nat → State) (h0 : Kept Q s) (h1 : ∀ a0, Kept Q (f a0)) :
    Kept Q (State.onNs s slot c f) := by
  unfold State.onNs
  try dsimp only
  repeat' first | intro _ | (with_reducible first | assumption | apply h1 | apply State.refuseCmd_kept | apply Kept.foldl | apply Kept.foldl_fst) | (with_reducible refine Kept.mk rfl rfl rfl rfl ?_; with_reducible first | assumption | apply h1 | apply State.refuseCmd_kept | apply Kept.foldl | apply Kept.foldl_fst) | split | dsimp only [id_eq] | with_reducible apply Kept.ite

theorem execFlush_kept {Q : List Instr} (q : Fin 65) (s : State) (h0 : Kept Q s) :
    KeptOut Q (execFlush q s) := by
  unfold execFlush
  try dsimp only
  repeat' first | intro _ | (with_reducible first | assumption | apply State.ioTake_kept | apply State.flushCommand_kept | apply Kept.foldl | apply Kept.foldl_fst | apply KeptOut.live | apply KeptOut.next) | (with_reducible refine Kept.mk rfl rfl rfl rfl ?_; with_reducible first | assumption | apply State.ioTake_kept | apply State.flushCommand_kept | apply Kept.foldl | apply Kept.foldl_fst) | split | dsimp only [id_eq] | with_reducible apply Kept.ite

theorem State.nvmeWrite_kept {Q : List Instr} (s : State) (slot : Nat) (c : HCmd) (append : Bool) (h0 : Kept Q s) :
    Kept Q (State.nvmeWrite s slot c append) := by
  unfold State.nvmeWrite
  try dsimp only
  repeat' first | intro _ | (with_reducible first | assumption | apply State.onNs_kept | apply State.refuseCmd_kept | apply State.writeCommand_kept | apply Kept.foldl | apply Kept.foldl_fst) | (with_reducible refine Kept.mk rfl rfl rfl rfl ?_; with_reducible first | assumption | apply State.onNs_kept | apply State.refuseCmd_kept | apply State.writeCommand_kept | apply Kept.foldl | apply Kept.foldl_fst) | split | dsimp only [id_eq] | with_reducible apply Kept.ite

theorem execWrite_kept {Q : List Instr} (q : Fin 65) (s : State) (h0 : Kept Q s) :
    KeptOut Q (execWrite q s) := by
  unfold execWrite
  try dsimp only
  repeat' first | intro _ | (with_reducible first | assumption | apply State.ioTake_kept | apply State.nvmeWrite_kept | apply Kept.foldl | apply Kept.foldl_fst | apply KeptOut.live | apply KeptOut.next) | (with_reducible refine Kept.mk rfl rfl rfl rfl ?_; with_reducible first | assumption | apply State.ioTake_kept | apply State.nvmeWrite_kept | apply Kept.foldl | apply Kept.foldl_fst) | split | dsimp only [id_eq] | with_reducible apply Kept.ite

theorem execZoneAppend_kept {Q : List Instr} (q : Fin 65) (s : State) (h0 : Kept Q s) :
    KeptOut Q (execZoneAppend q s) := by
  unfold execZoneAppend
  try dsimp only
  repeat' first | intro _ | (with_reducible first | assumption | apply State.ioTake_kept | apply State.nvmeWrite_kept | apply Kept.foldl | apply Kept.foldl_fst | apply KeptOut.live | apply KeptOut.next) | (with_reducible refine Kept.mk rfl rfl rfl rfl ?_; with_reducible first | assumption | apply State.ioTake_kept | apply State.nvmeWrite_kept | apply Kept.foldl | apply Kept.foldl_fst) | split | dsimp only [id_eq] | with_reducible apply Kept.ite

theorem execRead_kept {Q : List Instr} (q : Fin 65) (s : State) (h0 : Kept Q s) :
    KeptOut Q (execRead q s) := by
  unfold execRead
  try dsimp only
  repeat' first | intro _ | (with_reducible first | assumption | apply State.ioTake_kept | apply State.onNs_kept | apply State.finish_kept | apply State.readCommand_kept | apply Kept.foldl | apply Kept.foldl_fst | apply KeptOut.live | apply KeptOut.next) | (with_reducible refine Kept.mk rfl rfl rfl rfl ?_; with_reducible first | assumption | apply State.ioTake_kept | apply State.onNs_kept | apply State.finish_kept | apply State.readCommand_kept | apply Kept.foldl | apply Kept.foldl_fst) | split | dsimp only [id_eq] | with_reducible apply Kept.ite

theorem execVerify_kept {Q : List Instr} (q : Fin 65) (s : State) (h0 : Kept Q s) :
    KeptOut Q (execVerify q s) := by
  unfold execVerify
  try dsimp only
  repeat' first | intro _ | (with_reducible first | assumption | apply State.ioTake_kept | apply State.onNs_kept | apply State.readCommand_kept | apply Kept.foldl | apply Kept.foldl_fst | apply KeptOut.live | apply KeptOut.next) | (with_reducible refine Kept.mk rfl rfl rfl rfl ?_; with_reducible first | assumption | apply State.ioTake_kept | apply State.onNs_kept | apply State.readCommand_kept | apply Kept.foldl | apply Kept.foldl_fst) | split | dsimp only [id_eq] | with_reducible apply Kept.ite

theorem execZoneMgmtSend_kept {Q : List Instr} (q : Fin 65) (s : State) (h0 : Kept Q s) :
    KeptOut Q (execZoneMgmtSend q s) := by
  unfold execZoneMgmtSend
  try dsimp only
  repeat' first | intro _ | (with_reducible first | assumption | apply State.ioTake_kept | apply State.onNs_kept | apply State.zoneCommand_kept | apply State.finish_kept | apply Kept.foldl | apply Kept.foldl_fst | apply KeptOut.live | apply KeptOut.next) | (with_reducible refine Kept.mk rfl rfl rfl rfl ?_; with_reducible first | assumption | apply State.ioTake_kept | apply State.onNs_kept | apply State.zoneCommand_kept | apply State.finish_kept | apply Kept.foldl | apply Kept.foldl_fst) | split | dsimp only [id_eq] | with_reducible apply Kept.ite

theorem execZoneMgmtReceive_kept {Q : List Instr} (q : Fin 65) (s : State) (h0 : Kept Q s) :
    KeptOut Q (execZoneMgmtReceive q s) := by
  unfold execZoneMgmtReceive
  try dsimp only
  repeat' first | intro _ | (with_reducible first | assumption | apply State.ioTake_kept | apply State.onNs_kept | apply State.finish_kept | apply Kept.foldl | apply Kept.foldl_fst | apply KeptOut.live | apply KeptOut.next) | (with_reducible refine Kept.mk rfl rfl rfl rfl ?_; with_reducible first | assumption | apply State.ioTake_kept | apply State.onNs_kept | apply State.finish_kept | apply Kept.foldl | apply Kept.foldl_fst) | split | dsimp only [id_eq] | with_reducible apply Kept.ite

theorem execRoiPull_kept {Q : List Instr} (q : Fin 65) (s : State) (h0 : Kept Q s) :
    KeptOut Q (execRoiPull q s) := by
  unfold execRoiPull
  try dsimp only
  repeat' first | intro _ | (with_reducible first | assumption | apply State.ioTake_kept | apply State.onNs_kept | apply State.pullCommand_kept | apply Kept.foldl | apply Kept.foldl_fst | apply KeptOut.live | apply KeptOut.next) | (with_reducible refine Kept.mk rfl rfl rfl rfl ?_; with_reducible first | assumption | apply State.ioTake_kept | apply State.onNs_kept | apply State.pullCommand_kept | apply Kept.foldl | apply Kept.foldl_fst) | split | dsimp only [id_eq] | with_reducible apply Kept.ite

theorem execNvmeForwardedIo_kept {Q : List Instr} (q : Fin 65) (s : State) (h0 : Kept Q s) :
    KeptOut Q (execNvmeForwardedIo q s) := by
  unfold execNvmeForwardedIo
  try dsimp only
  repeat' first | intro _ | (with_reducible first | assumption | apply State.takeCmd_kept | apply State.forward_kept | apply Kept.foldl | apply Kept.foldl_fst | apply KeptOut.live | apply KeptOut.next) | (with_reducible refine Kept.mk rfl rfl rfl rfl ?_; with_reducible first | assumption | apply State.takeCmd_kept | apply State.forward_kept | apply Kept.foldl | apply Kept.foldl_fst) | split | dsimp only [id_eq] | with_reducible apply Kept.ite

end Sys2Proof.Machine
end

