-- ==== Sys2Proof/Laws/KeptRegisters.lean ====
section
/-! SUPPORT. Soundness is kept by every operation and meaning of Machine/Registers.lean. -/

namespace Sys2Proof.Machine

theorem State.registerWrite_kept {Q : List Instr} (s : State) (r : Requester) (off bytes v : Nat) (h0 : Kept Q s) :
    Kept Q (State.registerWrite s r off bytes v) := by
  unfold State.registerWrite
  try dsimp only
  repeat' first | intro _ | (with_reducible first | assumption | apply State.busWrite_kept | apply State.askRemote_kept | apply Kept.foldl | apply Kept.foldl_fst) | (with_reducible refine Kept.mk rfl rfl rfl rfl ?_; with_reducible first | assumption | apply State.busWrite_kept | apply State.askRemote_kept | apply Kept.foldl | apply Kept.foldl_fst) | split | dsimp only [id_eq] | with_reducible apply Kept.ite

theorem execRegisterWrite_kept {Q : List Instr} (r : Requester) (off bytes : Nat) (v : Word) (s : State) (h0 : Kept Q s) :
    KeptOut Q (execRegisterWrite r off bytes v s) := by
  unfold execRegisterWrite
  try dsimp only
  repeat' first | intro _ | (with_reducible first | assumption | apply live_kept | apply State.registerWrite_kept | apply Kept.foldl | apply Kept.foldl_fst | apply KeptOut.live | apply KeptOut.next) | (with_reducible refine Kept.mk rfl rfl rfl rfl ?_; with_reducible first | assumption | apply live_kept | apply State.registerWrite_kept | apply Kept.foldl | apply Kept.foldl_fst) | split | dsimp only [id_eq] | with_reducible apply Kept.ite

theorem State.registerRead_kept {Q : List Instr} (s : State) (r : Requester) (off : Nat) (h0 : Kept Q s) :
    Kept Q (State.registerRead s r off) := by
  unfold State.registerRead
  try dsimp only
  repeat' first | intro _ | (with_reducible first | assumption | apply State.busRead_kept | apply Kept.foldl | apply Kept.foldl_fst) | (with_reducible refine Kept.mk rfl rfl rfl rfl ?_; with_reducible first | assumption | apply State.busRead_kept | apply Kept.foldl | apply Kept.foldl_fst) | split | dsimp only [id_eq] | with_reducible apply Kept.ite

theorem execTbseqloRead_kept {Q : List Instr} (r : Requester) (s : State) (h0 : Kept Q s) :
    KeptOut Q (execTbseqloRead r s) := by
  unfold execTbseqloRead
  try dsimp only
  repeat' first | intro _ | (with_reducible first | assumption | apply live_kept | apply State.registerRead_kept | apply Kept.foldl | apply Kept.foldl_fst | apply KeptOut.live | apply KeptOut.next) | (with_reducible refine Kept.mk rfl rfl rfl rfl ?_; with_reducible first | assumption | apply live_kept | apply State.registerRead_kept | apply Kept.foldl | apply Kept.foldl_fst) | split | dsimp only [id_eq] | with_reducible apply Kept.ite

theorem execTrgtloRead_kept {Q : List Instr} (r : Requester) (n : Fin 4) (s : State) (h0 : Kept Q s) :
    KeptOut Q (execTrgtloRead r n s) := by
  unfold execTrgtloRead
  try dsimp only
  repeat' first | intro _ | (with_reducible first | assumption | apply live_kept | apply State.registerRead_kept | apply Kept.foldl | apply Kept.foldl_fst | apply KeptOut.live | apply KeptOut.next) | (with_reducible refine Kept.mk rfl rfl rfl rfl ?_; with_reducible first | assumption | apply live_kept | apply State.registerRead_kept | apply Kept.foldl | apply Kept.foldl_fst) | split | dsimp only [id_eq] | with_reducible apply Kept.ite

theorem execTmloRead_kept {Q : List Instr} (r : Requester) (s : State) (h0 : Kept Q s) :
    KeptOut Q (execTmloRead r s) := by
  unfold execTmloRead
  try dsimp only
  repeat' first | intro _ | (with_reducible first | assumption | apply live_kept | apply State.registerRead_kept | apply Kept.foldl | apply Kept.foldl_fst | apply KeptOut.live | apply KeptOut.next) | (with_reducible refine Kept.mk rfl rfl rfl rfl ?_; with_reducible first | assumption | apply live_kept | apply State.registerRead_kept | apply Kept.foldl | apply Kept.foldl_fst) | split | dsimp only [id_eq] | with_reducible apply Kept.ite

theorem execTmppsloRead_kept {Q : List Instr} (r : Requester) (s : State) (h0 : Kept Q s) :
    KeptOut Q (execTmppsloRead r s) := by
  unfold execTmppsloRead
  try dsimp only
  repeat' first | intro _ | (with_reducible first | assumption | apply live_kept | apply State.registerRead_kept | apply Kept.foldl | apply Kept.foldl_fst | apply KeptOut.live | apply KeptOut.next) | (with_reducible refine Kept.mk rfl rfl rfl rfl ?_; with_reducible first | assumption | apply live_kept | apply State.registerRead_kept | apply Kept.foldl | apply Kept.foldl_fst) | split | dsimp only [id_eq] | with_reducible apply Kept.ite

theorem execCtloRead_kept {Q : List Instr} (r : Requester) (place : Fin 9) (entry : Fin 320) (s : State) (h0 : Kept Q s) :
    KeptOut Q (execCtloRead r place entry s) := by
  unfold execCtloRead
  try dsimp only
  repeat' first | intro _ | (with_reducible first | assumption | apply live_kept | apply State.registerRead_kept | apply Kept.foldl | apply Kept.foldl_fst | apply KeptOut.live | apply KeptOut.next) | (with_reducible refine Kept.mk rfl rfl rfl rfl ?_; with_reducible first | assumption | apply live_kept | apply State.registerRead_kept | apply Kept.foldl | apply Kept.foldl_fst) | split | dsimp only [id_eq] | with_reducible apply Kept.ite

theorem execEbmcloRead_kept {Q : List Instr} (r : Requester) (s : State) (h0 : Kept Q s) :
    KeptOut Q (execEbmcloRead r s) := by
  unfold execEbmcloRead
  try dsimp only
  repeat' first | intro _ | (with_reducible first | assumption | apply live_kept | apply State.registerRead_kept | apply Kept.foldl | apply Kept.foldl_fst | apply KeptOut.live | apply KeptOut.next) | (with_reducible refine Kept.mk rfl rfl rfl rfl ?_; with_reducible first | assumption | apply live_kept | apply State.registerRead_kept | apply Kept.foldl | apply Kept.foldl_fst) | split | dsimp only [id_eq] | with_reducible apply Kept.ite

theorem execHclkstatRead_kept {Q : List Instr} (r : Requester) (h : Fin 4) (s : State) (h0 : Kept Q s) :
    KeptOut Q (execHclkstatRead r h s) := by
  unfold execHclkstatRead
  try dsimp only
  repeat' first | intro _ | (with_reducible first | assumption | apply live_kept | apply State.registerRead_kept | apply Kept.foldl | apply Kept.foldl_fst | apply KeptOut.live | apply KeptOut.next) | (with_reducible refine Kept.mk rfl rfl rfl rfl ?_; with_reducible first | assumption | apply live_kept | apply State.registerRead_kept | apply Kept.foldl | apply Kept.foldl_fst) | split | dsimp only [id_eq] | with_reducible apply Kept.ite

theorem State.serveRemote_kept {Q : List Instr} (s : State) (src off : Nat) (write : Option Nat) (h0 : Kept Q s) :
    Kept Q (State.serveRemote s src off write) := by
  unfold State.serveRemote
  try dsimp only
  repeat' first | intro _ | (with_reducible first | assumption | apply State.ringViol_kept | apply State.busWrite_kept | apply State.ringSend_kept | apply State.busRead_kept | apply Kept.foldl | apply Kept.foldl_fst) | (with_reducible refine Kept.mk rfl rfl rfl rfl ?_; with_reducible first | assumption | apply State.ringViol_kept | apply State.busWrite_kept | apply State.ringSend_kept | apply State.busRead_kept | apply Kept.foldl | apply Kept.foldl_fst) | split | dsimp only [id_eq] | with_reducible apply Kept.ite

theorem execRemoteAccessRequest_kept {Q : List Instr} (src off : Nat) (write : Option Word) (s : State) (h0 : Kept Q s) :
    KeptOut Q (execRemoteAccessRequest src off write s) := by
  unfold execRemoteAccessRequest
  try dsimp only
  repeat' first | intro _ | (with_reducible first | assumption | apply live_kept | apply State.serveRemote_kept | apply Kept.foldl | apply Kept.foldl_fst | apply KeptOut.live | apply KeptOut.next) | (with_reducible refine Kept.mk rfl rfl rfl rfl ?_; with_reducible first | assumption | apply live_kept | apply State.serveRemote_kept | apply Kept.foldl | apply Kept.foldl_fst) | split | dsimp only [id_eq] | with_reducible apply Kept.ite

theorem CWait.land_kept {Q : List Instr} (w : CWait) (s : State) (c v : Nat) (h0 : Kept Q s) :
    Kept Q (CWait.land w s c v) := by
  unfold CWait.land
  try dsimp only
  repeat' first | intro _ | (with_reducible first | assumption | apply State.updCore_kept | apply State.setGreg_kept | apply Kept.foldl | apply Kept.foldl_fst) | (with_reducible refine Kept.mk rfl rfl rfl rfl ?_; with_reducible first | assumption | apply State.updCore_kept | apply State.setGreg_kept | apply Kept.foldl | apply Kept.foldl_fst) | split | dsimp only [id_eq] | with_reducible apply Kept.ite

theorem State.remoteDone_kept {Q : List Instr} (s : State) (r : Requester) (v : Nat) (h0 : Kept Q s) :
    Kept Q (State.remoteDone s r v) := by
  unfold State.remoteDone
  try dsimp only
  repeat' first | intro _ | (with_reducible first | assumption | apply CWait.land_kept | apply Kept.foldl | apply Kept.foldl_fst) | (with_reducible refine Kept.mk rfl rfl rfl rfl ?_; with_reducible first | assumption | apply CWait.land_kept | apply Kept.foldl | apply Kept.foldl_fst) | split | dsimp only [id_eq] | with_reducible apply Kept.ite

theorem execRemoteAccessReply_kept {Q : List Instr} (q : Requester) (v : Word) (s : State) (h0 : Kept Q s) :
    KeptOut Q (execRemoteAccessReply q v s) := by
  unfold execRemoteAccessReply
  try dsimp only
  repeat' first | intro _ | (with_reducible first | assumption | apply live_kept | apply State.remoteDone_kept | apply Kept.foldl | apply Kept.foldl_fst | apply KeptOut.live | apply KeptOut.next) | (with_reducible refine Kept.mk rfl rfl rfl rfl ?_; with_reducible first | assumption | apply live_kept | apply State.remoteDone_kept | apply Kept.foldl | apply Kept.foldl_fst) | split | dsimp only [id_eq] | with_reducible apply Kept.ite

theorem State.remoteTimeout_kept {Q : List Instr} (s : State) (r : Requester) (h0 : Kept Q s) :
    Kept Q (State.remoteTimeout s r) := by
  unfold State.remoteTimeout
  try dsimp only
  repeat' first | intro _ | (with_reducible first | assumption | apply State.remoteDone_kept | apply State.incSat_kept | apply State.report_kept | apply State.raise_kept | apply Kept.foldl | apply Kept.foldl_fst) | (with_reducible refine Kept.mk rfl rfl rfl rfl ?_; with_reducible first | assumption | apply State.remoteDone_kept | apply State.incSat_kept | apply State.report_kept | apply State.raise_kept | apply Kept.foldl | apply Kept.foldl_fst) | split | dsimp only [id_eq] | with_reducible apply Kept.ite

theorem execRemoteAccessTimeout_kept {Q : List Instr} (q : Requester) (s : State) (h0 : Kept Q s) :
    KeptOut Q (execRemoteAccessTimeout q s) := by
  unfold execRemoteAccessTimeout
  try dsimp only
  repeat' first | intro _ | (with_reducible first | assumption | apply live_kept | apply State.remoteTimeout_kept | apply Kept.foldl | apply Kept.foldl_fst | apply KeptOut.live | apply KeptOut.next) | (with_reducible refine Kept.mk rfl rfl rfl rfl ?_; with_reducible first | assumption | apply live_kept | apply State.remoteTimeout_kept | apply Kept.foldl | apply Kept.foldl_fst) | split | dsimp only [id_eq] | with_reducible apply Kept.ite

end Sys2Proof.Machine
end

