-- ==== Sys2Proof/Laws/KeptUpdate.lean ====
section
/-! SUPPORT. Soundness is kept by every operation and meaning of Machine/Update.lean. -/

namespace Sys2Proof.Machine

theorem State.fwHeader_kept {Q : List Instr} (s : State) (sas : Bool) (p block : Nat) (h0 : Kept Q s) :
    Kept Q (State.fwHeader s sas p block).1 := by
  unfold State.fwHeader
  try dsimp only
  repeat' first | intro _ | (with_reducible first | assumption | apply Kept.foldl | apply Kept.foldl_fst) | (with_reducible refine Kept.mk rfl rfl rfl rfl ?_; with_reducible first | assumption | apply Kept.foldl | apply Kept.foldl_fst) | split | dsimp only [id_eq] | with_reducible apply Kept.ite

theorem State.fwBlock_kept {Q : List Instr} (s : State) (x : FwSession) (i block : Nat) (h0 : Kept Q s) :
    Kept Q (State.fwBlock s x i block).1 := by
  unfold State.fwBlock
  try dsimp only
  repeat' first | intro _ | (with_reducible first | assumption | apply State.norErase_kept | apply State.norProgram_kept | apply Kept.foldl | apply Kept.foldl_fst) | (with_reducible refine Kept.mk rfl rfl rfl rfl ?_; with_reducible first | assumption | apply State.norErase_kept | apply State.norProgram_kept | apply Kept.foldl | apply Kept.foldl_fst) | split | dsimp only [id_eq] | with_reducible apply Kept.ite

theorem State.fwPlace_kept {Q : List Instr} (s : State) (sas : Bool) (p block : Nat) (h0 : Kept Q s) :
    Kept Q (State.fwPlace s sas p block).1 := by
  unfold State.fwPlace
  try dsimp only
  repeat' first | intro _ | (with_reducible first | assumption | apply State.fwHeader_kept | apply State.fwBlock_kept | apply Kept.foldl | apply Kept.foldl_fst) | (with_reducible refine Kept.mk rfl rfl rfl rfl ?_; with_reducible first | assumption | apply State.fwHeader_kept | apply State.fwBlock_kept | apply Kept.foldl | apply Kept.foldl_fst) | split | dsimp only [id_eq] | with_reducible apply Kept.ite

theorem State.fwBlocks_kept {Q : List Instr} (s : State) (sas : Bool) (a : Nat) (x0 : Nat) (x1 : Nat) (h0 : Kept Q s) :
    Kept Q (State.fwBlocks s sas a x0 x1).1 := by
  induction x0 generalizing s sas a x1 with
  | zero =>
    unfold State.fwBlocks
    try dsimp only
    repeat' first | intro _ | (with_reducible first | assumption | apply State.fwPlace_kept | apply Kept.foldl | apply Kept.foldl_fst) | (with_reducible refine Kept.mk rfl rfl rfl rfl ?_; with_reducible first | assumption | apply State.fwPlace_kept | apply Kept.foldl | apply Kept.foldl_fst) | split | dsimp only [id_eq] | with_reducible apply Kept.ite
  | succ n ih =>
    unfold State.fwBlocks
    try dsimp only
    repeat' first | intro _ | (with_reducible first | apply ih | assumption | apply State.fwPlace_kept | apply Kept.foldl | apply Kept.foldl_fst) | (with_reducible refine Kept.mk rfl rfl rfl rfl ?_; with_reducible first | assumption | apply State.fwPlace_kept | apply Kept.foldl | apply Kept.foldl_fst) | split | dsimp only [id_eq] | with_reducible apply Kept.ite

theorem State.fwDownload_kept {Q : List Instr} (s : State) (sas : Bool) (a off len dlen : Nat) (h0 : Kept Q s) :
    Kept Q (State.fwDownload s sas a off len dlen).1 := by
  unfold State.fwDownload
  try dsimp only
  repeat' first | intro _ | (with_reducible first | assumption | apply State.fwBlocks_kept | apply Kept.foldl | apply Kept.foldl_fst) | (with_reducible refine Kept.mk rfl rfl rfl rfl ?_; with_reducible first | assumption | apply State.fwBlocks_kept | apply Kept.foldl | apply Kept.foldl_fst) | split | dsimp only [id_eq] | with_reducible apply Kept.ite

theorem State.enrolKey_kept {Q : List Instr} (s : State) (bs : List Byte) (h0 : Kept Q s) :
    Kept Q (State.enrolKey s bs) := by
  unfold State.enrolKey
  try dsimp only
  repeat' first | intro _ | (with_reducible first | assumption | apply State.take_kept | apply State.wr_kept | apply Kept.foldl | apply Kept.foldl_fst) | (with_reducible refine Kept.mk rfl rfl rfl rfl ?_; with_reducible first | assumption | apply State.take_kept | apply State.wr_kept | apply Kept.foldl | apply Kept.foldl_fst) | split | dsimp only [id_eq] | with_reducible apply Kept.ite

theorem State.fwPass_kept {Q : List Instr} (s : State) (target : Nat) (h0 : Kept Q s) :
    Kept Q (State.fwPass s target) := by
  unfold State.fwPass
  try dsimp only
  repeat' first | intro _ | (with_reducible first | assumption | apply State.raise_kept | apply Kept.foldl | apply Kept.foldl_fst) | (with_reducible refine Kept.mk rfl rfl rfl rfl ?_; with_reducible first | assumption | apply State.raise_kept | apply Kept.foldl | apply Kept.foldl_fst) | split | dsimp only [id_eq] | with_reducible apply Kept.ite

theorem State.fwCheck_kept {Q : List Instr} (s : State) (h0 : Kept Q s) :
    Kept Q (State.fwCheck s).1 := by
  unfold State.fwCheck
  try dsimp only
  repeat' first | intro _ | (with_reducible first | assumption | apply State.enrolKey_kept | apply State.raise_kept | apply State.fwPass_kept | apply Kept.foldl | apply Kept.foldl_fst) | (with_reducible refine Kept.mk rfl rfl rfl rfl ?_; with_reducible first | assumption | apply State.enrolKey_kept | apply State.raise_kept | apply State.fwPass_kept | apply Kept.foldl | apply Kept.foldl_fst) | split | dsimp only [id_eq] | with_reducible apply Kept.ite

theorem State.arm_kept {Q : List Instr} (s : State) (h0 : Kept Q s) :
    Kept Q (State.arm s) := by
  unfold State.arm
  try dsimp only
  repeat' first | intro _ | (with_reducible first | assumption | apply Kept.foldl | apply Kept.foldl_fst) | (with_reducible refine Kept.mk rfl rfl rfl rfl ?_; with_reducible first | assumption | apply Kept.foldl | apply Kept.foldl_fst) | split | dsimp only [id_eq] | with_reducible apply Kept.ite

theorem execFirmwareImageDownload_kept {Q : List Instr} (s : State) (h0 : Kept Q s) :
    KeptOut Q (execFirmwareImageDownload s) := by
  unfold execFirmwareImageDownload
  try dsimp only
  repeat' first | intro _ | (with_reducible first | assumption | apply State.admin_kept | apply State.fwDownload_kept | apply State.dropSlot_kept | apply State.finish_kept | apply State.refuseCmd_kept | apply Kept.foldl | apply Kept.foldl_fst | apply KeptOut.live | apply KeptOut.next) | (with_reducible refine Kept.mk rfl rfl rfl rfl ?_; with_reducible first | assumption | apply State.admin_kept | apply State.fwDownload_kept | apply State.dropSlot_kept | apply State.finish_kept | apply State.refuseCmd_kept | apply Kept.foldl | apply Kept.foldl_fst) | split | dsimp only [id_eq] | with_reducible apply Kept.ite

theorem execFirmwareCommit_kept {Q : List Instr} (s : State) (h0 : Kept Q s) :
    KeptOut Q (execFirmwareCommit s) := by
  unfold execFirmwareCommit
  try dsimp only
  repeat' first | intro _ | (with_reducible first | assumption | apply State.admin_kept | apply State.finish_kept | apply State.fwCheck_kept | apply State.arm_kept | apply Kept.foldl | apply Kept.foldl_fst | apply KeptOut.live | apply KeptOut.next) | (with_reducible refine Kept.mk rfl rfl rfl rfl ?_; with_reducible first | assumption | apply State.admin_kept | apply State.finish_kept | apply State.fwCheck_kept | apply State.arm_kept | apply Kept.foldl | apply Kept.foldl_fst) | split | dsimp only [id_eq] | with_reducible apply Kept.ite

theorem execWriteBuffer_kept {Q : List Instr} (port : Fin 2) (s : State) (h0 : Kept Q s) :
    KeptOut Q (execWriteBuffer port s) := by
  unfold execWriteBuffer
  try dsimp only
  repeat' first | intro _ | (with_reducible first | assumption | apply State.scsi_kept | apply State.run_kept | apply State.fwDownload_kept | apply State.fwCheck_kept | apply State.dropSlot_kept | apply State.finish_kept | apply State.refuseCmd_kept | apply State.arm_kept | apply State.beginActivation_kept | apply State.onDevice_kept | apply Kept.foldl | apply Kept.foldl_fst | apply KeptOut.live | apply KeptOut.next) | (with_reducible refine Kept.mk rfl rfl rfl rfl ?_; with_reducible first | assumption | apply State.scsi_kept | apply State.run_kept | apply State.fwDownload_kept | apply State.fwCheck_kept | apply State.dropSlot_kept | apply State.finish_kept | apply State.refuseCmd_kept | apply State.arm_kept | apply State.beginActivation_kept | apply State.onDevice_kept | apply Kept.foldl | apply Kept.foldl_fst) | split | dsimp only [id_eq] | with_reducible apply Kept.ite

theorem execActivationDrainDone_kept {Q : List Instr} (s : State) (h0 : Kept Q s) :
    KeptOut Q (execActivationDrainDone s) := by
  unfold execActivationDrainDone
  try dsimp only
  repeat' first | intro _ | (with_reducible first | assumption | apply live_kept | apply State.powerControl_kept | apply Kept.foldl | apply Kept.foldl_fst | apply KeptOut.live | apply KeptOut.next) | (with_reducible refine Kept.mk rfl rfl rfl rfl ?_; with_reducible first | assumption | apply live_kept | apply State.powerControl_kept | apply Kept.foldl | apply Kept.foldl_fst) | split | dsimp only [id_eq] | with_reducible apply Kept.ite

theorem execLoaderActivationReset_kept {Q : List Instr} (s : State) (h0 : Kept Q s) :
    KeptOut Q (execLoaderActivationReset s) := by
  unfold execLoaderActivationReset
  try dsimp only
  repeat' first | intro _ | (with_reducible first | assumption | apply State.wr_kept | apply live_kept | apply State.powerControl_kept | apply Kept.foldl | apply Kept.foldl_fst | apply KeptOut.live | apply KeptOut.next) | (with_reducible refine Kept.mk rfl rfl rfl rfl ?_; with_reducible first | assumption | apply State.wr_kept | apply live_kept | apply State.powerControl_kept | apply Kept.foldl | apply Kept.foldl_fst) | split | dsimp only [id_eq] | with_reducible apply Kept.ite

theorem State.serviceEnd_kept {Q : List Instr} (s : State) (result off : Nat) (h0 : Kept Q s) :
    Kept Q (State.serviceEnd s result off) := by
  unfold State.serviceEnd
  try dsimp only
  repeat' first | intro _ | (with_reducible first | assumption | apply State.setGreg_kept | apply State.updCore_kept | apply State.crumb_kept | apply Kept.foldl | apply Kept.foldl_fst) | (with_reducible refine Kept.mk rfl rfl rfl rfl ?_; with_reducible first | assumption | apply State.setGreg_kept | apply State.updCore_kept | apply State.crumb_kept | apply Kept.foldl | apply Kept.foldl_fst) | split | dsimp only [id_eq] | with_reducible apply Kept.ite

theorem execLoaderEraseCall_kept {Q : List Instr} (err : Bool) (s : State) (h0 : Kept Q s) :
    KeptOut Q (execLoaderEraseCall err s) := by
  unfold execLoaderEraseCall
  try dsimp only
  repeat' first | intro _ | (with_reducible first | assumption | apply live_kept | apply State.serviceEnd_kept | apply State.norFail_kept | apply State.norErase_kept | apply Kept.foldl | apply Kept.foldl_fst | apply KeptOut.live | apply KeptOut.next) | (with_reducible refine Kept.mk rfl rfl rfl rfl ?_; with_reducible first | assumption | apply live_kept | apply State.serviceEnd_kept | apply State.norFail_kept | apply State.norErase_kept | apply Kept.foldl | apply Kept.foldl_fst) | split | dsimp only [id_eq] | with_reducible apply Kept.ite

theorem execLoaderProgramCall_kept {Q : List Instr} (err : Bool) (s : State) (h0 : Kept Q s) :
    KeptOut Q (execLoaderProgramCall err s) := by
  unfold execLoaderProgramCall
  try dsimp only
  repeat' first | intro _ | (with_reducible first | assumption | apply live_kept | apply State.serviceEnd_kept | apply State.norFail_kept | apply State.norProgram_kept | apply Kept.foldl | apply Kept.foldl_fst | apply KeptOut.live | apply KeptOut.next) | (with_reducible refine Kept.mk rfl rfl rfl rfl ?_; with_reducible first | assumption | apply live_kept | apply State.serviceEnd_kept | apply State.norFail_kept | apply State.norProgram_kept | apply Kept.foldl | apply Kept.foldl_fst) | split | dsimp only [id_eq] | with_reducible apply Kept.ite

end Sys2Proof.Machine
end

