-- ==== Sys2Proof/Laws/KeptExec.lean ====
section
/-! SUPPORT. Every command answers a next state, keeps soundness and leaves the queue alone. -/

namespace Sys2Proof.Machine

theorem exec_kept {Q : List Instr} (i : Instr) (s : State) (hk : Kept Q s) : KeptOut Q (exec i s) := by
  match i with
  | .registerWrite r off bytes v => exact execRegisterWrite_kept r off bytes v s hk
  | .evforceWrite r u v => exact execEvforceWrite_kept r u v s hk
  | .evclrWrite r u v occ present => exact execEvclrWrite_kept r u v occ present s hk
  | .ulockWrite r u v => exact execUlockWrite_kept r u v s hk
  | .tbseqloRead r => exact execTbseqloRead_kept r s hk
  | .trgtloRead r n => exact execTrgtloRead_kept r n s hk
  | .tmloRead r => exact execTmloRead_kept r s hk
  | .tmppsloRead r => exact execTmppsloRead_kept r s hk
  | .ctloRead r place entry => exact execCtloRead_kept r place entry s hk
  | .ebmcloRead r => exact execEbmcloRead_kept r s hk
  | .hclkstatRead r h => exact execHclkstatRead_kept r h s hk
  | .traySeal => exact execTraySeal_kept s hk
  | .sealTimeout => exact execSealTimeout_kept s hk
  | .tbctrlSealnow r v => exact execTbctrlSealnow_kept r v s hk
  | .trayUnitTake eccFail => exact execTrayUnitTake_kept eccFail s hk
  | .trayPageTake journal eccFail => exact execTrayPageTake_kept journal eccFail s hk
  | .outerParityDone seq => exact execOuterParityDone_kept seq s hk
  | .trayReadinessCheck => exact execTrayReadinessCheck_kept s hk
  | .headReadyTimeout => exact execHeadReadyTimeout_kept s hk
  | .trayWindowWrite => exact execTrayWindowWrite_kept s hk
  | .blockPayloadEnd b => exact execBlockPayloadEnd_kept b s hk
  | .drawVerdict pos b seen => exact execDrawVerdict_kept pos b seen s hk
  | .beamUnderrun b => exact execBeamUnderrun_kept b s hk
  | .holdKickback h => exact execHoldKickback_kept h s hk
  | .tbzidWrite r v => exact execTbzidWrite_kept r v s hk
  | .tbzwpWrite r v => exact execTbzwpWrite_kept r v s hk
  | .tbhwctrlZero r => exact execTbhwctrlZero_kept r s hk
  | .hwZeroDone => exact execHwZeroDone_kept s hk
  | .tbhwctrlValid r => exact execTbhwctrlValid_kept r s hk
  | .tbhwdataWrite r v => exact execTbhwdataWrite_kept r v s hk
  | .flushComplete => exact execFlushComplete_kept s hk
  | .bwctrlRetire r b => exact execBwctrlRetire_kept r b s hk
  | .drawIntervalEnd b => exact execDrawIntervalEnd_kept b s hk
  | .cmUpdate fail => exact execCmUpdate_kept fail s hk
  | .drainComplete failed => exact execDrainComplete_kept failed s hk
  | .mediaStateDecide lost hidden fails => exact execMediaStateDecide_kept lost hidden fails s hk
  | .leadinReadDone h => exact execLeadinReadDone_kept h s hk
  | .readDescriptorStart => exact execReadDescriptorStart_kept s hk
  | .readQueueEmptyResume => exact execReadQueueEmptyResume_kept s hk
  | .inlineVerdict pos b seen peak mean => exact execInlineVerdict_kept pos b seen peak mean s hk
  | .deepDecodeDone pos b p ok => exact execDeepDecodeDone_kept pos b p ok s hk
  | .step3PassEnd pos seens => exact execStep3PassEnd_kept pos seens s hk
  | .outerRecovery pos p bad => exact execOuterRecovery_kept pos p bad s hk
  | .step5GatherTimeout => exact execStep5GatherTimeout_kept s hk
  | .positionBlank pos => exact execPositionBlank_kept pos s hk
  | .mrstailWrite r v => exact execMrstailWrite_kept r v s hk
  | .readTableSwap b l0 z0 l z => exact execReadTableSwap_kept b l0 z0 l z s hk
  | .brliveWrite r b i v => exact execBrliveWrite_kept r b i v s hk
  | .mrbasehiWrite r v => exact execMrbasehiWrite_kept r v s hk
  | .mrbaseApply => exact execMrbaseApply_kept s hk
  | .synthLock h err => exact execSynthLock_kept h err s hk
  | .synthLost h => exact execSynthLost_kept h s hk
  | .sinkOverflow pos b p => exact execSinkOverflow_kept pos b p s hk
  | .wedgePosition h num parityOk dj gray => exact execWedgePosition_kept h num parityOk dj gray s hk
  | .servoConversionDone h c raw plus => exact execServoConversionDone_kept h c raw plus s hk
  | .adcFreezeTrip h c => exact execAdcFreezeTrip_kept h c s hk
  | .hadccfgGainWrite r h c v => exact execHadccfgGainWrite_kept r h c v s hk
  | .comparatorTrip h lay level => exact execComparatorTrip_kept h lay level s hk
  | .comparatorRelease h lay level => exact execComparatorRelease_kept h lay level s hk
  | .seqAcquire r h pair layer group => exact execSeqAcquire_kept r h pair layer group s hk
  | .seqSeek r h pair layer group => exact execSeqSeek_kept r h pair layer group s hk
  | .seqLayer r h pair layer group => exact execSeqLayer_kept r h pair layer group s hk
  | .seqSeekLayer r h pair layer group => exact execSeqSeekLayer_kept r h pair layer group s hk
  | .seqHold r h pair layer group => exact execSeqHold_kept r h pair layer group s hk
  | .seqLeadin r h pair layer group => exact execSeqLeadin_kept r h pair layer group s hk
  | .seqRelease r h pair layer group => exact execSeqRelease_kept r h pair layer group s hk
  | .seqStepDone h thr => exact execSeqStepDone_kept h thr s hk
  | .seqStepTimeout h => exact execSeqStepTimeout_kept h s hk
  | .layerJumpAuto => exact execLayerJumpAuto_kept s hk
  | .layerJumpTimeout h => exact execLayerJumpTimeout_kept h s hk
  | .focusReacquireTimer h => exact execFocusReacquireTimer_kept h s hk
  | .spinStart r slow => exact execSpinStart_kept r slow s hk
  | .spinChange r slow => exact execSpinChange_kept r slow s hk
  | .spinStop r => exact execSpinStop_kept r s hk
  | .spinShortBrake r => exact execSpinShortBrake_kept r s hk
  | .spinCoast r => exact execSpinCoast_kept r s hk
  | .spindleTick ia ib ic count speed angle => exact execSpindleTick_kept ia ib ic count speed angle s hk
  | .spinRestDetected => exact execSpinRestDetected_kept s hk
  | .spinAlignDone cs => exact execSpinAlignDone_kept cs s hk
  | .spinEncoderTimeout reverse => exact execSpinEncoderTimeout_kept reverse s hk
  | .spinSpeedReached => exact execSpinSpeedReached_kept s hk
  | .clockTakeDone ok index => exact execClockTakeDone_kept ok index s hk
  | .speedErrorPersist => exact execSpeedErrorPersist_kept s hk
  | .speedChangeDone relocked => exact execSpeedChangeDone_kept relocked s hk
  | .vmotRegencut mv => exact execVmotRegencut_kept mv s hk
  | .vmotBrake mv => exact execVmotBrake_kept mv s hk
  | .vmotWatchRelease mv => exact execVmotWatchRelease_kept mv s hk
  | .vmotOver mv => exact execVmotOver_kept mv s hk
  | .vmotUvwarn mv => exact execVmotUvwarn_kept mv s hk
  | .vmotUvfault mv => exact execVmotUvfault_kept mv s hk
  | .stepModeStop r n enable => exact execStepModeStop_kept r n enable s hk
  | .stepModeMove r n enable => exact execStepModeMove_kept r n enable s hk
  | .stepModeGear r n enable => exact execStepModeGear_kept r n enable s hk
  | .sttargetWrite r n v => exact execSttargetWrite_kept r n v s hk
  | .stposWrite r n v => exact execStposWrite_kept r n v s hk
  | .sttdataWrite r n v => exact execSttdataWrite_kept r n v s hk
  | .stfollowWrite r n v => exact execStfollowWrite_kept r n v s hk
  | .stepDone n pos => exact execStepDone_kept n pos s hk
  | .stepOvercurrent n => exact execStepOvercurrent_kept n s hk
  | .stepStandstill n => exact execStepStandstill_kept n s hk
  | .stepLimit out => exact execStepLimit_kept out s hk
  | .vcctrlRetract r n => exact execVcctrlRetract_kept r n s hk
  | .vcmRampDone n => exact execVcmRampDone_kept n s hk
  | .vcmCoilFault n short => exact execVcmCoilFault_kept n short s hk
  | .slotSampleInstant n k ext prof same => exact execSlotSampleInstant_kept n k ext prof same s hk
  | .slotDispatch lane par capLost => exact execSlotDispatch_kept lane par capLost s hk
  | .slotRunWrite r n v => exact execSlotRunWrite_kept r n v s hk
  | .slotConfigWrite r n i v => exact execSlotConfigWrite_kept r n i v s hk
  | .slcdataWrite r n v => exact execSlcdataWrite_kept r n v s hk
  | .slcselWrite r n v => exact execSlcselWrite_kept r n v s hk
  | .slbankSwap r n => exact execSlbankSwap_kept r n s hk
  | .tuneRelay r n v => exact execTuneRelay_kept r n v s hk
  | .tuneSine r n v => exact execTuneSine_kept r n v s hk
  | .tuneChirp r n v => exact execTuneChirp_kept r n v s hk
  | .tunePrbs r n v => exact execTunePrbs_kept r n v s hk
  | .tuneOff r n v => exact execTuneOff_kept r n v s hk
  | .slotTunedone n => exact execSlotTunedone_kept n s hk
  | .slotCapdone n => exact execSlotCapdone_kept n s hk
  | .ebmchiWrite r v => exact execEbmchiWrite_kept r v s hk
  | .slxdataWrite r n v => exact execSlxdataWrite_kept r n v s hk
  | .loopLoadWindow => exact execLoopLoadWindow_kept s hk
  | .mcNop n => exact execMcNop_kept n s hk
  | .mcLdi n d imm => exact execMcLdi_kept n d imm s hk
  | .mcMov n d a => exact execMcMov_kept n d a s hk
  | .mcIn n d a => exact execMcIn_kept n d a s hk
  | .mcOut n d a => exact execMcOut_kept n d a s hk
  | .mcLds n d w => exact execMcLds_kept n d w s hk
  | .mcSts n w a => exact execMcSts_kept n w a s hk
  | .mcLdc n d c => exact execMcLdc_kept n d c s hk
  | .mcLda n d a => exact execMcLda_kept n d a s hk
  | .mcLdsa n d w => exact execMcLdsa_kept n d w s hk
  | .mcStsa n w a => exact execMcStsa_kept n w a s hk
  | .mcAdd n d a b => exact execMcAdd_kept n d a b s hk
  | .mcSub n d a b => exact execMcSub_kept n d a b s hk
  | .mcNeg n d a => exact execMcNeg_kept n d a s hk
  | .mcAbs n d a => exact execMcAbs_kept n d a s hk
  | .mcMin n d a b => exact execMcMin_kept n d a b s hk
  | .mcMax n d a b => exact execMcMax_kept n d a b s hk
  | .mcClp n d a c => exact execMcClp_kept n d a c s hk
  | .mcShl n d a sh => exact execMcShl_kept n d a sh s hk
  | .mcShr n d a sh => exact execMcShr_kept n d a sh s hk
  | .mcMul n d a b sh => exact execMcMul_kept n d a b sh s hk
  | .mcDiv n d a b => exact execMcDiv_kept n d a b s hk
  | .mcClr n d => exact execMcClr_kept n d s hk
  | .mcMac n d a c => exact execMcMac_kept n d a c s hk
  | .mcMsu n d a c => exact execMcMsu_kept n d a c s hk
  | .mcMacx n d a b => exact execMcMacx_kept n d a b s hk
  | .mcAdda n d b => exact execMcAdda_kept n d b s hk
  | .mcRnd n d a sh => exact execMcRnd_kept n d a sh s hk
  | .mcBr n dest cond a => exact execMcBr_kept n dest cond a s hk
  | .mcEnd n => exact execMcEnd_kept n s hk
  | .mcFault n => exact execMcFault_kept n s hk
  | .mcFf n d => exact execMcFf_kept n d s hk
  | .mcInj n d => exact execMcInj_kept n d s hk
  | .mcEvt n e => exact execMcEvt_kept n e s hk
  | .add c x rd ra rb => exact execAdd_kept c x rd ra rb s hk
  | .sub c x rd ra rb => exact execSub_kept c x rd ra rb s hk
  | .and c x rd ra rb => exact execAnd_kept c x rd ra rb s hk
  | .or c x rd ra rb => exact execOr_kept c x rd ra rb s hk
  | .xor c x rd ra rb => exact execXor_kept c x rd ra rb s hk
  | .andn c x rd ra rb => exact execAndn_kept c x rd ra rb s hk
  | .sll c x rd ra rb => exact execSll_kept c x rd ra rb s hk
  | .srl c x rd ra rb => exact execSrl_kept c x rd ra rb s hk
  | .sra c x rd ra rb => exact execSra_kept c x rd ra rb s hk
  | .clt c x rd ra rb => exact execClt_kept c x rd ra rb s hk
  | .cltu c x rd ra rb => exact execCltu_kept c x rd ra rb s hk
  | .mul c x rd ra rb => exact execMul_kept c x rd ra rb s hk
  | .mulh c x rd ra rb => exact execMulh_kept c x rd ra rb s hk
  | .mulhu c x rd ra rb => exact execMulhu_kept c x rd ra rb s hk
  | .div c x rd ra rb => exact execDiv_kept c x rd ra rb s hk
  | .divu c x rd ra rb => exact execDivu_kept c x rd ra rb s hk
  | .rem c x rd ra rb => exact execRem_kept c x rd ra rb s hk
  | .remu c x rd ra rb => exact execRemu_kept c x rd ra rb s hk
  | .clz c x rd ra => exact execClz_kept c x rd ra s hk
  | .popc c x rd ra => exact execPopc_kept c x rd ra s hk
  | .bswap c x rd ra => exact execBswap_kept c x rd ra s hk
  | .addi c x rd ra v => exact execAddi_kept c x rd ra v s hk
  | .andi c x rd ra v => exact execAndi_kept c x rd ra v s hk
  | .ori c x rd ra v => exact execOri_kept c x rd ra v s hk
  | .xori c x rd ra v => exact execXori_kept c x rd ra v s hk
  | .clti c x rd ra v => exact execClti_kept c x rd ra v s hk
  | .cltiu c x rd ra v => exact execCltiu_kept c x rd ra v s hk
  | .shi c x kind rd ra n => exact execShi_kept c x kind rd ra n s hk
  | .ldhi c x rd v => exact execLdhi_kept c x rd v s hk
  | .addpch c x rd v => exact execAddpch_kept c x rd v s hk
  | .pref c x ra v => exact execPref_kept c x ra v s hk
  | .lb c x rd ra v => exact execLb_kept c x rd ra v s hk
  | .lbu c x rd ra v => exact execLbu_kept c x rd ra v s hk
  | .lh c x rd ra v => exact execLh_kept c x rd ra v s hk
  | .lhu c x rd ra v => exact execLhu_kept c x rd ra v s hk
  | .lw c x rd ra v => exact execLw_kept c x rd ra v s hk
  | .lwu c x rd ra v => exact execLwu_kept c x rd ra v s hk
  | .sb c x rs ra v => exact execSb_kept c x rs ra v s hk
  | .sh c x rs ra v => exact execSh_kept c x rs ra v s hk
  | .sw c x rs ra v => exact execSw_kept c x rs ra v s hk
  | .swap c x rd ra rb => exact execSwap_kept c x rd ra rb s hk
  | .amoadd c x rd ra rb => exact execAmoadd_kept c x rd ra rb s hk
  | .amoand c x rd ra rb => exact execAmoand_kept c x rd ra rb s hk
  | .amoor c x rd ra rb => exact execAmoor_kept c x rd ra rb s hk
  | .cas c x rd ra rb => exact execCas_kept c x rd ra rb s hk
  | .beq c x ra rb off => exact execBeq_kept c x ra rb off s hk
  | .bne c x ra rb off => exact execBne_kept c x ra rb off s hk
  | .blt c x ra rb off => exact execBlt_kept c x ra rb off s hk
  | .bge c x ra rb off => exact execBge_kept c x ra rb off s hk
  | .bltu c x ra rb off => exact execBltu_kept c x ra rb off s hk
  | .bgeu c x ra rb off => exact execBgeu_kept c x ra rb off s hk
  | .j c x off => exact execJ_kept c x off s hk
  | .jal c x off => exact execJal_kept c x off s hk
  | .jalr c x rd ra v => exact execJalr_kept c x rd ra v s hk
  | .rdc c x rd k => exact execRdc_kept c x rd k s hk
  | .wrc c x ra k => exact execWrc_kept c x ra k s hk
  | .tret c x => exact execTret_kept c x s hk
  | .trap c x v => exact execTrap_kept c x v s hk
  | .inv c x n => exact execInv_kept c x n s hk
  | .halt c x => exact execHalt_kept c x s hk
  | .post c x rd ra q => exact execPost_kept c x rd ra q s hk
  | .take c x rd ra q => exact execTake_kept c x rd ra q s hk
  | .give c x rd ra q => exact execGive_kept c x rd ra q s hk
  | .wait c x rd ra rb kind => exact execWait_kept c x rd ra rb kind s hk
  | .waitWake c cycles => exact execWaitWake_kept c cycles s hk
  | .waitTimeout c cycles => exact execWaitTimeout_kept c cycles s hk
  | .stamp c x rd => exact execStamp_kept c x rd s hk
  | .raise c x n => exact execRaise_kept c x n s hk
  | .fence c x => exact execFence_kept c x s hk
  | .yield c x ra => exact execYield_kept c x ra s hk
  | .yieldEnd c cycles => exact execYieldEnd_kept c cycles s hk
  | .interrupt c cycles => exact execInterrupt_kept c cycles s hk
  | .coreReset r n v => exact execCoreReset_kept r n v s hk
  | .coreHold r n v => exact execCoreHold_kept r n v s hk
  | .coreRun r n v => exact execCoreRun_kept r n v s hk
  | .samplingEnable r c v => exact execSamplingEnable_kept r c v s hk
  | .heartbeatTimeout n ok => exact execHeartbeatTimeout_kept n ok s hk
  | .triggerEdge n rising held => exact execTriggerEdge_kept n rising held s hk
  | .trgackWrite r v => exact execTrgackWrite_kept r v s hk
  | .triggerTake n => exact execTriggerTake_kept n s hk
  | .timedSessionEnd => exact execTimedSessionEnd_kept s hk
  | .autoFlush => exact execAutoFlush_kept s hk
  | .idlePs3 => exact execIdlePs3_kept s hk
  | .roiFrameReady => exact execRoiFrameReady_kept s hk
  | .extensionReply => exact execExtensionReply_kept s hk
  | .forwardTimeout tag => exact execForwardTimeout_kept tag s hk
  | .tcepochhiWrite r v => exact execTcepochhiWrite_kept r v s hk
  | .windowStartStrobe => exact execWindowStartStrobe_kept s hk
  | .pcieLinkup speed width => exact execPcieLinkup_kept speed width s hk
  | .pcieLinkdown => exact execPcieLinkdown_kept s hk
  | .functionLevelReset => exact execFunctionLevelReset_kept s hk
  | .hotReset => exact execHotReset_kept s hk
  | .linkDisable => exact execLinkDisable_kept s hk
  | .perstDeassert => exact execPerstDeassert_kept s hk
  | .ccEnable css asq acq => exact execCcEnable_kept css asq acq s hk
  | .ccDisable => exact execCcDisable_kept s hk
  | .normalShutdown => exact execNormalShutdown_kept s hk
  | .abruptShutdown => exact execAbruptShutdown_kept s hk
  | .nvctrlReady r v => exact execNvctrlReady_kept r v s hk
  | .nvctrlCfs r v => exact execNvctrlCfs_kept r v s hk
  | .sqTailDoorbell q v => exact execSqTailDoorbell_kept q v s hk
  | .cqHeadDoorbell q v => exact execCqHeadDoorbell_kept q v s hk
  | .commandFetch q e => exact execCommandFetch_kept q e s hk
  | .writeDataLanded slot addr => exact execWriteDataLanded_kept slot addr s hk
  | .parkedWriteResume slot addr => exact execParkedWriteResume_kept slot addr s hk
  | .completionPosted q => exact execCompletionPosted_kept q s hk
  | .ps4Wake => exact execPs4Wake_kept s hk
  | .ps4IdleTimeout => exact execPs4IdleTimeout_kept s hk
  | .deleteIoSq => exact execDeleteIoSq_kept s hk
  | .createIoSq => exact execCreateIoSq_kept s hk
  | .getLogPage => exact execGetLogPage_kept s hk
  | .deleteIoCq => exact execDeleteIoCq_kept s hk
  | .createIoCq => exact execCreateIoCq_kept s hk
  | .identify => exact execIdentify_kept s hk
  | .abort => exact execAbort_kept s hk
  | .setFeatures => exact execSetFeatures_kept s hk
  | .getFeatures => exact execGetFeatures_kept s hk
  | .asyncEventRequest => exact execAsyncEventRequest_kept s hk
  | .namespaceManagement => exact execNamespaceManagement_kept s hk
  | .firmwareCommit => exact execFirmwareCommit_kept s hk
  | .firmwareImageDownload => exact execFirmwareImageDownload_kept s hk
  | .deviceSelfTest failed => exact execDeviceSelfTest_kept failed s hk
  | .namespaceAttachment => exact execNamespaceAttachment_kept s hk
  | .nvmeBake => exact execNvmeBake_kept s hk
  | .nvmeSession => exact execNvmeSession_kept s hk
  | .cartridge ins => exact execCartridge_kept ins s hk
  | .nvmeForwardedAdmin => exact execNvmeForwardedAdmin_kept s hk
  | .flush q => exact execFlush_kept q s hk
  | .write q => exact execWrite_kept q s hk
  | .read q => exact execRead_kept q s hk
  | .verify q => exact execVerify_kept q s hk
  | .zoneMgmtSend q => exact execZoneMgmtSend_kept q s hk
  | .zoneMgmtReceive q => exact execZoneMgmtReceive_kept q s hk
  | .zoneAppend q => exact execZoneAppend_kept q s hk
  | .roiPull q => exact execRoiPull_kept q s hk
  | .nvmeForwardedIo q => exact execNvmeForwardedIo_kept q s hk
  | .sasLinkup phy rate => exact execSasLinkup_kept phy rate s hk
  | .sasLinkdown phy => exact execSasLinkdown_kept phy s hk
  | .sasHardreset phy => exact execSasHardreset_kept phy s hk
  | .iTNexusLoss phy => exact execITNexusLoss_kept phy s hk
  | .sasCommandFrame port f => exact execSasCommandFrame_kept port f s hk
  | .xferRdySend slot => exact execXferRdySend_kept slot s hk
  | .sasDataFrame port init tag offset data bad addr => exact execSasDataFrame_kept port init tag offset data bad addr s hk
  | .sasDataTimeout slot => exact execSasDataTimeout_kept slot s hk
  | .responseSend port => exact execResponseSend_kept port s hk
  | .abortTask port init tag ref => exact execAbortTask_kept port init tag ref s hk
  | .abortTaskSet port init tag lun => exact execAbortTaskSet_kept port init tag lun s hk
  | .clearTaskSet port init tag lun => exact execClearTaskSet_kept port init tag lun s hk
  | .logicalUnitReset port init tag lun => exact execLogicalUnitReset_kept port init tag lun s hk
  | .iTNexusReset port init tag => exact execITNexusReset_kept port init tag s hk
  | .queryTask port init tag ref => exact execQueryTask_kept port init tag ref s hk
  | .testUnitReady port => exact execTestUnitReady_kept port s hk
  | .requestSense port => exact execRequestSense_kept port s hk
  | .inquiry port => exact execInquiry_kept port s hk
  | .startStopUnit port ins => exact execStartStopUnit_kept port ins s hk
  | .sendDiagnostic port failed => exact execSendDiagnostic_kept port failed s hk
  | .read_10 port => exact execRead_10_kept port s hk
  | .read_16 port => exact execRead_16_kept port s hk
  | .write_10 port => exact execWrite_10_kept port s hk
  | .write_16 port => exact execWrite_16_kept port s hk
  | .verify_10 port => exact execVerify_10_kept port s hk
  | .verify_16 port => exact execVerify_16_kept port s hk
  | .synchronizeCache_10 port => exact execSynchronizeCache_10_kept port s hk
  | .synchronizeCache_16 port => exact execSynchronizeCache_16_kept port s hk
  | .writeBuffer port => exact execWriteBuffer_kept port s hk
  | .logSense port => exact execLogSense_kept port s hk
  | .modeSelect_10 port => exact execModeSelect_10_kept port s hk
  | .modeSense_10 port => exact execModeSense_10_kept port s hk
  | .closeZone port => exact execCloseZone_kept port s hk
  | .finishZone port => exact execFinishZone_kept port s hk
  | .openZone port => exact execOpenZone_kept port s hk
  | .resetWritePointer port => exact execResetWritePointer_kept port s hk
  | .reportZones port => exact execReportZones_kept port s hk
  | .readCapacity_16 port => exact execReadCapacity_16_kept port s hk
  | .reportLuns port => exact execReportLuns_kept port s hk
  | .reportSupportedOpcodes port => exact execReportSupportedOpcodes_kept port s hk
  | .sasBake port => exact execSasBake_kept port s hk
  | .partition port => exact execPartition_kept port s hk
  | .sasSession port => exact execSasSession_kept port s hk
  | .recordingProfile port => exact execRecordingProfile_kept port s hk
  | .timecode port => exact execTimecode_kept port s hk
  | .roiSetup port => exact execRoiSetup_kept port s hk
  | .roiRead port => exact execRoiRead_kept port s hk
  | .sasForwarded port => exact execSasForwarded_kept port s hk
  | .sliceChannelStart => exact execSliceChannelStart_kept s hk
  | .sliceChannelDone bursts err => exact execSliceChannelDone_kept bursts err s hk
  | .smabortWrite r v => exact execSmabortWrite_kept r v s hk
  | .hashMessageStart => exact execHashMessageStart_kept s hk
  | .hashMessageDone err done => exact execHashMessageDone_kept err done s hk
  | .dctrainGo r v => exact execDctrainGo_kept r v s hk
  | .trainDone fail errors => exact execTrainDone_kept fail errors s hk
  | .rtPortPanic p level due => exact execRtPortPanic_kept p level due s hk
  | .lnrearmWrite r hi v => exact execLnrearmWrite_kept r hi v s hk
  | .crselWrite r v => exact execCrselWrite_kept r v s hk
  | .crswcmdWrite r v => exact execCrswcmdWrite_kept r v s hk
  | .crumbEntryWrite => exact execCrumbEntryWrite_kept s hk
  | .crumbIntervalEnd => exact execCrumbIntervalEnd_kept s hk
  | .ppsEdge rising held => exact execPpsEdge_kept rising held s hk
  | .ppsMissing => exact execPpsMissing_kept s hk
  | .timeLoadNow r => exact execTimeLoadNow_kept r s hk
  | .timeLoadAtEdge r => exact execTimeLoadAtEdge_kept r s hk
  | .timeLoadCancel r => exact execTimeLoadCancel_kept r s hk
  | .tmrateWrite r v => exact execTmrateWrite_kept r v s hk
  | .ringSyncFrame source corr residence => exact execRingSyncFrame_kept source corr residence s hk
  | .referenceFault => exact execReferenceFault_kept s hk
  | .linkPllUnlock pll => exact execLinkPllUnlock_kept pll s hk
  | .gatherLatch b soft1 soft0 iter beta phase draw adapt dith => exact execGatherLatch_kept b soft1 soft0 iter beta phase draw adapt dith s hk
  | .hbgreqGo r h v => exact execHbgreqGo_kept r h v s hk
  | .bgStepGrant h pos => exact execBgStepGrant_kept h pos s hk
  | .bgStepEnd h fault p n => exact execBgStepEnd_kept h fault p n s hk
  | .keepStarved h => exact execKeepStarved_kept h s hk
  | .mbgskipWrite r v => exact execMbgskipWrite_kept r v s hk
  | .ageingMeasurement e slope v lpmax => exact execAgeingMeasurement_kept e slope v lpmax s hk
  | .recordWriteRequest k => exact execRecordWriteRequest_kept k s hk
  | .recordRetry => exact execRecordRetry_kept s hk
  | .vauxUp bootmd tsrc ppspol mstr => exact execVauxUp_kept bootmd tsrc ppspol mstr s hk
  | .resetNLow => exact execResetNLow_kept s hk
  | .supplyFall => exact execSupplyFall_kept s hk
  | .thermalShutdown => exact execThermalShutdown_kept s hk
  | .pwctrlDevreset r v => exact execPwctrlDevreset_kept r v s hk
  | .watchdogExpire => exact execWatchdogExpire_kept s hk
  | .pwwdogKick r v => exact execPwwdogKick_kept r v s hk
  | .startEdge mstr => exact execStartEdge_kept mstr s hk
  | .proofingDone => exact execProofingDone_kept s hk
  | .loaderCheck => exact execLoaderCheck_kept s hk
  | .keeperImageStart => exact execKeeperImageStart_kept s hk
  | .dramTrainingDone pass eyes => exact execDramTrainingDone_kept pass eyes s hk
  | .jobLoad => exact execJobLoad_kept s hk
  | .startupLinksEnable ins => exact execStartupLinksEnable_kept ins s hk
  | .mediaReady => exact execMediaReady_kept s hk
  | .ringBlockLock portB => exact execRingBlockLock_kept portB s hk
  | .ringBlockLoss portB => exact execRingBlockLoss_kept portB s hk
  | .claimSend => exact execClaimSend_kept s hk
  | .claimFrame portB serial bad => exact execClaimFrame_kept portB serial bad s hk
  | .conflictEnd portB => exact execConflictEnd_kept portB s hk
  | .joinFrame portB hop serial wanted => exact execJoinFrame_kept portB hop serial wanted s hk
  | .joinRefused result => exact execJoinRefused_kept result s hk
  | .ringCycleStart portB => exact execRingCycleStart_kept portB s hk
  | .gatherFrame f admitted => exact execGatherFrame_kept f admitted s hk
  | .gatherTimeout portB => exact execGatherTimeout_kept portB s hk
  | .gatherReturn portB f trip => exact execGatherReturn_kept portB f trip s hk
  | .scatterFrame f => exact execScatterFrame_kept f s hk
  | .scatterReturn portB f => exact execScatterReturn_kept portB f s hk
  | .ringLost => exact execRingLost_kept s hk
  | .rnrelWrite r v => exact execRnrelWrite_kept r v s hk
  | .ringMessageSend => exact execRingMessageSend_kept s hk
  | .ringMessageFrame src dst seq tag data coord bad member portB => exact execRingMessageFrame_kept src dst seq tag data coord bad member portB s hk
  | .ringMessageAck seq code => exact execRingMessageAck_kept seq code s hk
  | .ringMessageTimeout => exact execRingMessageTimeout_kept s hk
  | .remoteAccessRequest src off write => exact execRemoteAccessRequest_kept src off write s hk
  | .remoteAccessReply q v => exact execRemoteAccessReply_kept q v s hk
  | .remoteAccessTimeout q => exact execRemoteAccessTimeout_kept q s hk
  | .delayRequestSend t1 => exact execDelayRequestSend_kept t1 s hk
  | .delayRequestFrame t2 t3 => exact execDelayRequestFrame_kept t2 t3 s hk
  | .delayReplyFrame t4 turn => exact execDelayReplyFrame_kept t4 turn s hk
  | .pairUp lanes peer serial => exact execPairUp_kept lanes peer serial s hk
  | .pairDown => exact execPairDown_kept s hk
  | .plctrlRole r v peer => exact execPlctrlRole_kept r v peer s hk
  | .mirrorSend room peerOk => exact execMirrorSend_kept room peerOk s hk
  | .mirrorReceive words pages tags addr coord => exact execMirrorReceive_kept words pages tags addr coord s hk
  | .heartbeatSend => exact execHeartbeatSend_kept s hk
  | .heartbeatMiss after => exact execHeartbeatMiss_kept after s hk
  | .plkickWrite r v => exact execPlkickWrite_kept r v s hk
  | .plctrlTakeover r v => exact execPlctrlTakeover_kept r v s hk
  | .norProgram r pc len => exact execNorProgram_kept r pc len s hk
  | .norErase r pc => exact execNorErase_kept r pc s hk
  | .norCommandDone err => exact execNorCommandDone_kept err s hk
  | .loaderEraseCall err => exact execLoaderEraseCall_kept err s hk
  | .loaderProgramCall err => exact execLoaderProgramCall_kept err s hk
  | .activationDrainDone => exact execActivationDrainDone_kept s hk
  | .loaderActivationReset => exact execLoaderActivationReset_kept s hk
  | .thermalSample core front drive => exact execThermalSample_kept core front drive s hk
  | .fanTachPulse us => exact execFanTachPulse_kept us s hk
  | .fanNotach => exact execFanNotach_kept s hk
  | .fanFault => exact execFanFault_kept s hk
  | .fanRecover => exact execFanRecover_kept s hk
  | .fanShort => exact execFanShort_kept s hk
  | .emitterEnable h => exact execEmitterEnable_kept h s hk
  | .vauxDown => exact execVauxDown_kept s hk
  | .vmotAboveWarn mv => exact execVmotAboveWarn_kept mv s hk
  | .index => exact execIndex_kept s hk
  | .clockMark h missed => exact execClockMark_kept h missed s hk
  | .illegalInstruction c x => exact execIllegalInstruction_kept c x s hk
  | .instructionFetchFault c x parity => exact execInstructionFetchFault_kept c x parity s hk
  | .mcIllegalInstruction n => exact execMcIllegalInstruction_kept n s hk
  | .connectionRequest phy protocol => exact execConnectionRequest_kept phy protocol s hk
  | .configurationRequest => exact execConfigurationRequest_kept s hk
  | .vcmSafeHoldEnd n => exact execVcmSafeHoldEnd_kept n s hk

end Sys2Proof.Machine
end

