-- ==== Sys2Proof/WellFormed.lean ====
section
/-! DEFINITION. Well-formed commands: what an operand can be beyond its type, where the spec bounds it. The commands of every other row
are well formed whatever their operands. -/

namespace Sys2Proof.Machine

/-- A tray position T (R74): layer × 94,208 + revolution × 8 + window, over 16 layer sets (R28). -/
def posWf (p : Nat) : Bool := decide (p < 1507328)

/-- What the inline decoder shows: 24 codeword positions, a header copy of R147. -/
def Seen.wf (x : Seen) : Bool := decide (x.copy ≤ 4) && x.iters.length == 24 && x.crcBad.all (· < 24)

/-- An initiator's SAS address and a tag (R390). -/
def initWf (n : Nat) : Bool := decide (n < 2 ^ 64)
def tagWf (n : Nat) : Bool := decide (n < 2 ^ 16)

/-- The fields of a submission queue entry in their widths, and the pages its data pointer describes (R352). -/
def SqEntry.wf (e : SqEntry) : Bool :=
  decide (e.opc < 256) && decide (e.cid < 65536) &&
  [e.nsid, e.dw2, e.dw3, e.dw10, e.dw11, e.dw12, e.dw13, e.dw14, e.dw15].all (· < 2 ^ 32) && e.pages.length == (e.dlen + 4095) / 4096

/-- The fields of a COMMAND frame (R390). -/
def CmdFrame.wf (f : CmdFrame) : Bool :=
  initWf f.init && tagWf f.tag && decide (f.lun < 2 ^ 64) && decide (f.attr < 8) && decide (16 ≤ f.cdb.length) && f.cdb.all (· < 256) &&
  decide (f.dlen < 2 ^ 32)

/-- A cartridge has four discs, and 256 bytes of cartridge memory (R63, R97). -/
def Cartridge.wf (c : Cartridge) : Bool :=
  c.lead.length == 4 && c.cm.all (fun e => decide (e.1 < 256) && decide (e.2 < 256)) && c.pos.all (fun e => posWf e.1)

/-- A cartridge put into the loader, if any. -/
def insWf (c : Option Cartridge) : Bool := c.all Cartridge.wf

/-- A cycle frame holds one record of 16 bytes for each member (R536). -/
def CycleFrame.wf (f : CycleFrame) : Bool :=
  decide (f.epoch < 2 ^ 16) && decide (f.cycle < 2 ^ 32) && decide (f.mask < 2 ^ 64) && decide (f.master < 4096) &&
  f.recs.length == ((List.range 64).filter (bitOf f.mask)).length && f.recs.all (· < 2 ^ 128)

end Sys2Proof.Machine

namespace Sys2Proof

open Sys2Proof.Machine

/-- A command is well formed. -/
def Instr.wf : Instr → Bool
  | .registerWrite _ off bytes _ => [1, 2, 4].contains bytes && decide (off + bytes ≤ 2 ^ 22)
  | .outerParityDone seq => decide (seq < 2 ^ 32)
  | .drawVerdict pos _ seen => posWf pos && seen.wf
  | .cmUpdate fail => match fail with
    | some f => decide (f.2 < 256)
    | none => true
  | .drainComplete failed => [0, 3, 4, 7, 8].contains failed
  | .mediaStateDecide lost hidden fails => fails.all (fun x => x % 64 < 48 && posWf (x / 64)) && hidden.all posWf && lost.all (· < 2 ^ 32)
  | .inlineVerdict pos _ seen _ _ => posWf pos && seen.wf
  | .deepDecodeDone pos _ _ _ => posWf pos
  | .step3PassEnd pos seens => posWf pos && seens.all (fun x => x.1 < 48 && x.2.1.wf && x.2.2.all (· < 24))
  | .outerRecovery pos _ bad => posWf pos && bad.all (· < 48)
  | .positionBlank pos => posWf pos
  | .sinkOverflow pos _ _ => posWf pos
  | .wedgePosition _ _ _ dj gray => decide (dj.length ≤ 4) && decide (gray < 2 ^ 20)
  | .comparatorTrip _ _ level => decide (level < 2 ^ 12)
  | .comparatorRelease _ _ level => decide (level < 2 ^ 12)
  | .seqStepDone _ thr => thr.length == 0 || thr.length == 13
  | .spinAlignDone cs => cs.length == 12
  | .vmotRegencut mv => decide (mv < 65536)
  | .vmotBrake mv => decide (mv < 65536)
  | .vmotWatchRelease mv => decide (mv < 65536)
  | .vmotOver mv => decide (mv < 65536)
  | .vmotUvwarn mv => decide (mv < 65536)
  | .vmotUvfault mv => decide (mv < 65536)
  | .slotSampleInstant _ _ ext _ _ => decide (ext.length ≤ 8)
  | .wait _ _ _ _ rb kind => kind.val == 0 || rb.val == 0
  | .stamp _ _ rd => rd.val != 0 && rd.val % 2 == 0
  | .commandFetch _ e => e.wf
  | .writeDataLanded _ addr => addr % 4096 == 0
  | .parkedWriteResume _ addr => addr % 4096 == 0
  | .deviceSelfTest failed => [0, 3, 4, 5, 6].contains failed
  | .cartridge ins => insWf ins
  | .sasCommandFrame _ f => f.wf
  | .sasDataFrame _ init tag _ data _ addr => initWf init && tagWf tag && decide (data.length ≤ 1024) && addr % 4096 == 0
  | .abortTask _ init tag ref => initWf init && tagWf tag && tagWf ref
  | .abortTaskSet _ init tag _ => initWf init && tagWf tag
  | .clearTaskSet _ init tag _ => initWf init && tagWf tag
  | .logicalUnitReset _ init tag _ => initWf init && tagWf tag
  | .iTNexusReset _ init tag => initWf init && tagWf tag
  | .queryTask _ init tag ref => initWf init && tagWf tag && tagWf ref
  | .startStopUnit _ ins => insWf ins
  | .sendDiagnostic _ failed => [0, 3, 4, 5, 6].contains failed
  | .ringSyncFrame source _ _ => decide (source < 2 ^ 64)
  | .gatherLatch _ _ _ _ _ _ _ adapt _ => adapt.length == 0 || adapt.length == 7
  | .bgStepGrant _ pos => posWf pos
  | .dramTrainingDone _ eyes => eyes.length == 8 && eyes.all (fun e => e.1 ≤ 64 && e.2 ≤ 64)
  | .startupLinksEnable ins => insWf ins
  | .claimFrame _ serial _ => decide (serial < 2 ^ 64)
  | .joinFrame _ hop serial _ => decide (serial < 2 ^ 64) && decide (hop < 64)
  | .gatherFrame f _ => f.wf
  | .gatherReturn _ f _ => f.wf
  | .scatterFrame f => f.wf
  | .scatterReturn _ f => f.wf
  | .ringMessageFrame src dst _ tag _ _ _ _ _ => decide (src < 4096) && decide (dst < 4096) && decide (tag < 2 ^ 32)
  | .remoteAccessRequest src _ _ => decide (src < 4096)
  | .pairUp lanes _ serial => [1, 2, 4].contains lanes.val && decide (serial < 2 ^ 64)
  | .mirrorReceive words pages tags addr _ => words.length == 16 && words.all (· < 2 ^ 32) && pages.length == tags.length && addr % 4096 == 0
  | .vmotAboveWarn mv => decide (mv < 65536)
  | .evforceWrite .. | .evclrWrite .. | .ulockWrite .. | .tbseqloRead .. | .trgtloRead .. | .tmloRead .. | .tmppsloRead ..
  | .ctloRead .. | .ebmcloRead .. | .hclkstatRead .. | .traySeal | .sealTimeout | .tbctrlSealnow .. | .trayUnitTake ..
  | .trayPageTake .. | .trayReadinessCheck | .headReadyTimeout | .trayWindowWrite | .blockPayloadEnd .. | .beamUnderrun ..
  | .holdKickback .. | .tbzidWrite .. | .tbzwpWrite .. | .tbhwctrlZero .. | .hwZeroDone | .tbhwctrlValid .. | .tbhwdataWrite ..
  | .flushComplete | .bwctrlRetire .. | .drawIntervalEnd .. | .leadinReadDone .. | .readDescriptorStart | .readQueueEmptyResume
  | .step5GatherTimeout | .mrstailWrite .. | .readTableSwap .. | .brliveWrite .. | .mrbasehiWrite .. | .mrbaseApply | .synthLock ..
  | .synthLost .. | .servoConversionDone .. | .adcFreezeTrip .. | .hadccfgGainWrite .. | .seqAcquire .. | .seqSeek .. | .seqLayer ..
  | .seqSeekLayer .. | .seqHold .. | .seqLeadin .. | .seqRelease .. | .seqStepTimeout .. | .layerJumpAuto | .layerJumpTimeout ..
  | .focusReacquireTimer .. | .spinStart .. | .spinChange .. | .spinStop .. | .spinShortBrake .. | .spinCoast .. | .spindleTick ..
  | .spinRestDetected | .spinEncoderTimeout .. | .spinSpeedReached | .clockTakeDone .. | .speedErrorPersist | .speedChangeDone ..
  | .stepModeStop .. | .stepModeMove .. | .stepModeGear .. | .sttargetWrite .. | .stposWrite .. | .sttdataWrite .. | .stfollowWrite ..
  | .stepDone .. | .stepOvercurrent .. | .stepStandstill .. | .stepLimit .. | .vcctrlRetract .. | .vcmRampDone .. | .vcmCoilFault ..
  | .slotDispatch .. | .slotRunWrite .. | .slotConfigWrite .. | .slcdataWrite .. | .slcselWrite .. | .slbankSwap .. | .tuneRelay ..
  | .tuneSine .. | .tuneChirp .. | .tunePrbs .. | .tuneOff .. | .slotTunedone .. | .slotCapdone .. | .ebmchiWrite .. | .slxdataWrite ..
  | .loopLoadWindow | .mcNop .. | .mcLdi .. | .mcMov .. | .mcIn .. | .mcOut .. | .mcLds .. | .mcSts .. | .mcLdc .. | .mcLda ..
  | .mcLdsa .. | .mcStsa .. | .mcAdd .. | .mcSub .. | .mcNeg .. | .mcAbs .. | .mcMin .. | .mcMax .. | .mcClp .. | .mcShl .. | .mcShr ..
  | .mcMul .. | .mcDiv .. | .mcClr .. | .mcMac .. | .mcMsu .. | .mcMacx .. | .mcAdda .. | .mcRnd .. | .mcBr .. | .mcEnd ..
  | .mcFault .. | .mcFf .. | .mcInj .. | .mcEvt .. | .add .. | .sub .. | .and .. | .or .. | .xor .. | .andn .. | .sll .. | .srl ..
  | .sra .. | .clt .. | .cltu .. | .mul .. | .mulh .. | .mulhu .. | .div .. | .divu .. | .rem .. | .remu .. | .clz .. | .popc ..
  | .bswap .. | .addi .. | .andi .. | .ori .. | .xori .. | .clti .. | .cltiu .. | .shi .. | .ldhi .. | .addpch .. | .pref .. | .lb ..
  | .lbu .. | .lh .. | .lhu .. | .lw .. | .lwu .. | .sb .. | .sh .. | .sw .. | .swap .. | .amoadd .. | .amoand .. | .amoor .. | .cas ..
  | .beq .. | .bne .. | .blt .. | .bge .. | .bltu .. | .bgeu .. | .j .. | .jal .. | .jalr .. | .rdc .. | .wrc .. | .tret .. | .trap ..
  | .inv .. | .halt .. | .post .. | .take .. | .give .. | .waitWake .. | .waitTimeout .. | .raise .. | .fence .. | .yield ..
  | .yieldEnd .. | .interrupt .. | .coreReset .. | .coreHold .. | .coreRun .. | .samplingEnable .. | .heartbeatTimeout ..
  | .triggerEdge .. | .trgackWrite .. | .triggerTake .. | .timedSessionEnd | .autoFlush | .idlePs3 | .roiFrameReady | .extensionReply
  | .forwardTimeout .. | .tcepochhiWrite .. | .windowStartStrobe | .pcieLinkup .. | .pcieLinkdown | .functionLevelReset | .hotReset
  | .linkDisable | .perstDeassert | .ccEnable .. | .ccDisable | .normalShutdown | .abruptShutdown | .nvctrlReady .. | .nvctrlCfs ..
  | .sqTailDoorbell .. | .cqHeadDoorbell .. | .completionPosted .. | .ps4Wake | .ps4IdleTimeout | .deleteIoSq | .createIoSq
  | .getLogPage | .deleteIoCq | .createIoCq | .identify | .abort | .setFeatures | .getFeatures | .asyncEventRequest
  | .namespaceManagement | .firmwareCommit | .firmwareImageDownload | .namespaceAttachment | .nvmeBake | .nvmeSession
  | .nvmeForwardedAdmin | .flush .. | .write .. | .read .. | .verify .. | .zoneMgmtSend .. | .zoneMgmtReceive .. | .zoneAppend ..
  | .roiPull .. | .nvmeForwardedIo .. | .sasLinkup .. | .sasLinkdown .. | .sasHardreset .. | .iTNexusLoss .. | .xferRdySend ..
  | .sasDataTimeout .. | .responseSend .. | .testUnitReady .. | .requestSense .. | .inquiry .. | .read_10 .. | .read_16 ..
  | .write_10 .. | .write_16 .. | .verify_10 .. | .verify_16 .. | .synchronizeCache_10 .. | .synchronizeCache_16 .. | .writeBuffer ..
  | .logSense .. | .modeSelect_10 .. | .modeSense_10 .. | .closeZone .. | .finishZone .. | .openZone .. | .resetWritePointer ..
  | .reportZones .. | .readCapacity_16 .. | .reportLuns .. | .reportSupportedOpcodes .. | .sasBake .. | .partition .. | .sasSession ..
  | .recordingProfile .. | .timecode .. | .roiSetup .. | .roiRead .. | .sasForwarded .. | .sliceChannelStart | .sliceChannelDone ..
  | .smabortWrite .. | .hashMessageStart | .hashMessageDone .. | .dctrainGo .. | .trainDone .. | .rtPortPanic .. | .lnrearmWrite ..
  | .crselWrite .. | .crswcmdWrite .. | .crumbEntryWrite | .crumbIntervalEnd | .ppsEdge .. | .ppsMissing | .timeLoadNow ..
  | .timeLoadAtEdge .. | .timeLoadCancel .. | .tmrateWrite .. | .referenceFault | .linkPllUnlock .. | .hbgreqGo .. | .bgStepEnd ..
  | .keepStarved .. | .mbgskipWrite .. | .ageingMeasurement .. | .recordWriteRequest .. | .recordRetry | .vauxUp .. | .resetNLow
  | .supplyFall | .thermalShutdown | .pwctrlDevreset .. | .watchdogExpire | .pwwdogKick .. | .startEdge .. | .proofingDone
  | .loaderCheck | .keeperImageStart | .jobLoad | .mediaReady | .ringBlockLock .. | .ringBlockLoss .. | .claimSend | .conflictEnd ..
  | .joinRefused .. | .ringCycleStart .. | .gatherTimeout .. | .ringLost | .rnrelWrite .. | .ringMessageSend | .ringMessageAck ..
  | .ringMessageTimeout | .remoteAccessReply .. | .remoteAccessTimeout .. | .delayRequestSend .. | .delayRequestFrame ..
  | .delayReplyFrame .. | .pairDown | .plctrlRole .. | .mirrorSend .. | .heartbeatSend | .heartbeatMiss .. | .plkickWrite ..
  | .plctrlTakeover .. | .norProgram .. | .norErase .. | .norCommandDone .. | .loaderEraseCall .. | .loaderProgramCall ..
  | .activationDrainDone | .loaderActivationReset | .thermalSample .. | .fanTachPulse .. | .fanNotach | .fanFault | .fanRecover
  | .fanShort | .emitterEnable .. | .vauxDown | .index | .clockMark .. | .illegalInstruction .. | .instructionFetchFault ..
  | .mcIllegalInstruction .. | .connectionRequest .. | .configurationRequest | .vcmSafeHoldEnd .. => true

end Sys2Proof
end

