-- ==== Sys2Proof/Tests/Slice0.lean ====
section
/-! SUPPORT. Tests on concrete states: for the claims, states and operands that meet their hypotheses, with what the claim then says, and
for the well-formedness checks a term that each refuses. Expected values are worked out by hand from the rules. -/

namespace Sys2Proof.Tests

open Sys2Proof Sys2Proof.Machine

/-- The command answers a next state of which `p` holds. -/
def holds (o : Out) (p : State → Bool) : Bool :=
  match o with
  | .next t => p t
  | _ => false

/-- `State.May` as a test. -/
def may (s : State) (r : Requester) (u : UnitId) (o : Nat) : Bool := s.pw.clocked && u.hasRegister o && s.refusal r u o == 0

/-- `RegsBut` as a test: the two register files list the same entries outside `l`. -/
def regsBut (s t : State) (l : List Nat) : Bool :=
  (s.regs ++ t.regs).all (fun e => l.contains e.1 || Tbl.find s.regs e.1 == Tbl.find t.regs e.1)

/-- `t` differs from `s` in register fields alone. -/
def regsOnly (s t : State) : Bool := t == { s with regs := t.regs }

/-- `t` differs from `s` in register fields, counters, lane messages and the crumb unit alone. -/
def crumbOnly (s t : State) : Bool :=
  t == { s with regs := t.regs, ctr := t.ctr, lanes := t.lanes, port := t.port, crumbs := t.crumbs }

/-- The newest crumb queued is this one (class, requester, source, code, words 6 and 7). -/
def crumbed (t : State) (cls req src code d6 d7 : Nat) : Bool :=
  match t.crumbs.queue.getLast? with
  | some c => c.cls == cls && c.req == req && c.src == src && c.code == code && c.d6 == d6 && c.d7 == d7
  | none => false

/-- The state after reset. -/
abbrev s0 : State := State.reset

/-- A few states: the flood state on, the L2 lines counter at its end, a lane routed, the crumb queue holding one crumb. -/
def oneCrumb : Crumb := ⟨1, 15, 0x123, 7, 0x11, 0x22, 5, false⟩

/-- Lane 33 carries the time unit's events to MSI-X vector 64, which has an event pending. -/
def laned : State :=
  ({ s0 with lanes := ⟨[(2, ⟨true, 33⟩)], [(33, ⟨false, 64, true, 0⟩)], [(33, true)]⟩ } : State)

/-- RegisterWrites: every requester may write an event block; a stored field, a read-only word, the refusals of R57 and a narrow write. -/
theorem test_register_writes :
    ((UnitId.engine.src.isSome = true ∧ may s0 (.core 7) .engine 0x24 ∧ may s0 .keeper .engine 0x2C ∧ may s0 .host .engine 0x30)) ∧
    ((may s0 .keeper .deep 0x40 ∧ holds (exec (.registerWrite .keeper (UnitId.deep.base + 0x40) 4 (BitVec.allOnes 32)) s0) (fun t =>
       (UnitId.deep.fieldsAt 0x40).all (fun f => f.acc == .ro || t.rd .deep f == 2 ^ f.w - 1) && regsOnly s0 t &&
         regsBut s0 t ((UnitId.deep.fieldsAt 0x40).map (fieldKey .deep))))) ∧
    ((may s0 .keeper .thermal 0x40 ∧ holds (exec (.registerWrite .keeper (UnitId.thermal.base + 0x40) 4 (BitVec.allOnes 32)) s0)
       (fun t => (UnitId.thermal.fieldsAt 0x40).all (fun f => f.acc != .ro || t.rd .thermal f == s0.rd .thermal f)))) ∧
    ((s0.refusal .host .thermal 0x44 ≠ 0 ∧ holds (exec (.registerWrite .host (UnitId.thermal.base + 0x44) 4 1) s0) (fun t =>
       t.event UnitId.thermal.evUnit 0 && crumbed t 0 9 UnitId.thermal.number 3 (UnitId.thermal.base + 0x44) 1 && crumbOnly s0 t))) ∧
    ((touchesRegister (UnitId.thermal.base + 0x44) 2 ∧ holds (exec (.registerWrite .keeper (UnitId.thermal.base + 0x44) 2 1) s0) (fun t =>
       crumbed t 0 0 UnitId.thermal.number 4 (UnitId.thermal.base + 0x44) 1 && !t.event UnitId.thermal.evUnit 0))) ∧
    ((touchesRegister 0x1FFFFE 2 = false ∧ holds (exec (.registerWrite .keeper 0x1FFFFE 2 1) s0) (fun t => t == s0))) := by
  refine ⟨?_, ?_, ?_, ?_, ?_, ?_⟩ <;> decide

/-- ReadsLatchOnlyWhatR53Names: the latches, at the last requester, counter place and head, and a read that latches nothing. -/
theorem test_reads_latch :
    (holds (exec (.tbseqloRead .ring) s0) (fun t => t.read.tbSeqHi == some (s0.storedWord .tray 0x50))) ∧
    (holds (exec (.trgtloRead .host 3) s0) (fun t => Tbl.look none t.read.trgHi 3 == some 0 && Tbl.look none t.read.trgHi 0 == none)) ∧
    (holds (exec (.tmloRead .ring) { s0 with time := { s0.time with ns := 2 ^ 64 - 1 } }) (fun t =>
       t.read.data == 2 ^ 32 - 1 && Tbl.look none t.read.tmHi 10 == some (2 ^ 32 - 1) && Tbl.look none t.read.tmHi 9 == none)) ∧
    (holds (exec (.tmppsloRead .keeper) s0) (fun t => t.read.ppsHi == some 0)) ∧
    (holds (exec (.ctloRead .host 8 319) { s0 with ctr := { s0.ctr with val := [(319, 2 ^ 48 - 1)] } }) (fun t =>
       t.read.data == 2 ^ 32 - 1 && Tbl.look none t.read.ct 9 == some ⟨8, 319, 2 ^ 16 - 1, false, 0⟩)) ∧
    (holds (exec (.ctloRead .host 7 263) s0) (fun t => Tbl.look none t.read.ct 9 == some ⟨7, 263, 0, false, 0⟩)) ∧
    (holds (exec (.ebmcloRead .keeper) { s0 with micro := [(0, 2 ^ 63 + 5)] }) (fun t => t.read.data == 5 && t.read.mcHi == some (2 ^ 31))) ∧
    (holds (exec (.hclkstatRead .keeper 3) (s0.wr (.head 3) F.HCLKSTAT_missing 9)) (fun t =>
       t.rd (.head 3) F.HCLKSTAT_missing == 0 && t.read.data / 2 ^ F.HCLKSTAT_missing.lo % 256 == 9)) ∧
    (((s0.busRead 1 (UnitId.tray.base + 0x50)).1 = s0)) := by
  refine ⟨?_, ?_, ?_, ?_, ?_, ?_, ?_, ?_, ?_⟩ <;> decide

/-- EventsLanesAndCrumbs: forcing, clearing against a source that occurs or stays, locking a pod, re-arming, and the crumb commands. -/
theorem test_events_lanes_crumbs :
    ((UnitId.ofOffset 0x1100 = some .time ∧ may s0 .ring .time 0x2C ∧ holds (exec (.evforceWrite .ring .time 0x80000001) s0) (fun t =>
       t.event .time 0 && t.event .time 31 && !t.event .time 1))) ∧
    ((let s := s0.wr .time F.EVRAW 7
      holds (exec (.evclrWrite .ring .time 7 1 2) s) (fun t => t.event .time 0 && t.event .time 1 && !t.event .time 2))) ∧
    ((may s0 .keeper .bufPod 0x10 ∧ holds (exec (.ulockWrite .keeper .bufPod 1) s0) (fun t =>
       t.flag (.channel 7) F.ULOCK_locked && t.flag .dram F.ULOCK_locked && !t.flag .time F.ULOCK_locked))) ∧
    (holds (exec (.ulockWrite .keeper .bufPod 0xFFFFFFFE) s0) (fun t => t == s0)) ∧
    ((let s := (laned.wr .time F.EVRAW 1).wr .time F.EVENA 1
      may s .keeper .event 0x5C = true ∧ UnitId.time.src = some 2 ∧ s.lanePending 33 = true ∧
      holds (exec (.lnrearmWrite .keeper true 2) s) (fun t => t.port.msix == [64] && Tbl.look false t.lanes.sent 33) = true)) ∧
    ((laned.lanePending 33 = false ∧ holds (exec (.lnrearmWrite .host true 2) laned) (fun t => !Tbl.look false t.lanes.sent 33 && t.port == s0.port))) ∧
    ((may s0 .keeper .event 0x80 ∧ holds (exec (.crselWrite .keeper 4095) { s0 with crumbs := { s0.crumbs with log := [(4095, some ⟨oneCrumb, 3, 5, 1, false⟩)] } })
       (fun t => t.crumbs.latched == CrumbEntry.words ⟨oneCrumb, 3, 5, 1, false⟩ && t.rd .event F.CRSEL_entry == 4095))) ∧
    ((may s0 .host .event 0xC8 ∧ holds (exec (.crswcmdWrite .host 0x1FF) { s0 with crumbs := { s0.crumbs with sw := [(18, 6), (19, 7)] } })
       (fun t => crumbed t 3 9 8 255 6 7))) ∧
    (holds (exec .crumbEntryWrite ({ s0 with crumbs := { s0.crumbs with queue := [oneCrumb] } }.wr .event F.CRHEAD_head 4095))
       (fun t => t.crumbs.queue.isEmpty && Tbl.look none t.crumbs.log 4095 == some ⟨oneCrumb, 0, 5, 1, false⟩ &&
         t.rd .event F.CRHEAD_head == 0 && t.rd .event F.CRSEQ_seq == 1)) ∧
    (holds (exec .crumbIntervalEnd (((({ s0 with crumbs := { s0.crumbs with accepted := 3 } } : State).wr .event F.CRFLOOD_leave 4).wr .event F.CRSTAT_flood 1)))
       (fun t => t.rd .event F.CRSTAT_flood == 0 && t.crumbs.accepted == 0)) ∧
    (holds (exec .crumbIntervalEnd (((({ s0 with crumbs := { s0.crumbs with accepted := 4 } } : State).wr .event F.CRFLOOD_leave 4).wr .event F.CRSTAT_flood 1)))
       (fun t => t.rd .event F.CRSTAT_flood == 1 && t.crumbs.accepted == 0)) := by
  refine ⟨?_, ?_, ?_, ?_, ?_, ?_, ?_, ?_, ?_, ?_, ?_⟩ <;> decide

/-- A data descriptor of one zone entry 0, two units from the first burst-buffer unit. -/
def dataDesc : Desc := ⟨false, 0, 2, 0, 0x100000000, 9, 0, 1, false, [], 0, 0⟩

/-- The tray unit enabled with a loaded zone table, entry 0 naming zone 0 of namespace 1, and `dataDesc` waiting. -/
def filling : State :=
  let s := ((s0.wr .tray F.TBCTRL_enable 1).wr .tray F.TBHWCTRL_valid 1 : State)
  { s with
    tb := { s.tb with dataQ := [dataDesc], zones := [(0, ⟨true, 1, 0, 0, 0⟩)], hwDefault := 0 }
    rcd := { s.rcd with cart := 2 } }

/-- `filling` with the CRC-24 of an all-zero unit as the tag of the first unit, marked valid. -/
def tagged : State := filling.storeLE (tagAddr 0x100000000) 4 (2 ^ 31 + 0xDD01E6)

/-- A codeword that waits. -/
def waitingCw : PCw := ⟨⟨1, 0, 0, 0, 0⟩, 1, 0x100000000, false, .none⟩

/-- One codeword waits and the timeout of TBSEALTO has run; head 0 with two beams left is the only one enabled. -/
def sealable : State :=
  ({ filling with
      tb := { filling.tb with
        dataQ := [], wData := [waitingCw], nextAcc := 2, timedOut := true, nextPos := 5, retiring := [2, 3, 4, 5, 6, 7, 8, 9, 10, 11] } } :
    State).wr .tray F.TBHEADS_enable 1

/-- A sealed tray of heads 0 and 1, four beams each, one of its slots filled. -/
def tray0 : Tray := ⟨7, 3, [0, 1], [0xF, 0xF, 0, 0], [0, 0, 0, 0], [⟨waitingCw, none⟩], true, false⟩

/-- `tray0` sealed on an open cartridge. -/
def sealedOne (x : Tray) : State := { s0 with tb := { s0.tb with sealed := [x] }, rcd := { s0.rcd with cart := 2 } }

/-- `tray0` being written with the gates of beams 0 and 1 open. -/
def writingOne : State := { s0 with tb := { s0.tb with writing := some ⟨tray0, [0, 1], false, 4, 5⟩ } }

/-- A tray held for its verdict on beam 47. -/
def heldOne : State :=
  { s0 with tb := { s0.tb with staging := [⟨⟨7, 3, [3], [0, 0, 0, 0x800], [0, 0, 0, 11], [], true, true⟩, [47], []⟩] } }

/-- A block seen whole, each codeword decoded in `n` iterations. -/
def seenIn (n : Nat) : Seen := ⟨some 0, 1, List.replicate 24 n, 0, 0, []⟩

/-- `n` zero bits into CRC-24 from `c` on, each step's value settled before the next. -/
def zeroBits : Nat → Nat → Nat
  | 0, c => c
  | n + 1, c => if crcBit 24 0x864CFB c false < 2 ^ 24 then zeroBits n (crcBit 24 0x864CFB c false) else zeroBits n (crcBit 24 0x864CFB c false)

theorem zeroBits_succ (n c : Nat) : zeroBits (n + 1) c = zeroBits n (crcBit 24 0x864CFB c false) := by
  simp [zeroBits]

theorem crc24_fold (n c : Nat) : (List.replicate n (0 : Byte)).foldl
    (fun c b => [7, 6, 5, 4, 3, 2, 1, 0].foldl (fun c i => crcBit 24 0x864CFB c (bitOf b.toNat i)) c) c = zeroBits (8 * n) c := by
  induction n generalizing c with
  | zero => rfl
  | succ n ih =>
    rw [List.replicate_succ, List.foldl_cons, ih, Nat.mul_succ]
    simp only [zeroBits_succ, List.foldl_cons, List.foldl_nil]
    rfl

theorem zeroBits_add (m n c : Nat) : zeroBits (m + n) c = zeroBits n (zeroBits m c) := by
  induction m generalizing c with
  | zero => simp [zeroBits]
  | succ m ih => rw [Nat.succ_add, zeroBits_succ, ih, zeroBits_succ]

theorem crc24_zeros : crc24 (List.replicate 4096 0) = 0xDD01E6 := by
  refine (crc24_fold 4096 _).trans ?_
  show zeroBits (1024 + (1024 + (1024 + (1024 + (1024 + (1024 + (1024 + (1024 + (1024 + (1024 + (1024 + (1024 + (1024 + (1024 + (1024 + (1024 + (1024 + (1024 + (1024 + (1024 + (1024 + (1024 + (1024 + (1024 + (1024 + (1024 + (1024 + (1024 + (1024 + (1024 + (1024 + (1024 + 0)))))))))))))))))))))))))))))))) 0xB704CE = _
  rw [zeroBits_add, show zeroBits 1024 0xB704CE = 0x1F3717 by decide +kernel]
  rw [zeroBits_add, show zeroBits 1024 0x1F3717 = 0x8EE9AB by decide +kernel]
  rw [zeroBits_add, show zeroBits 1024 0x8EE9AB = 0xE25108 by decide +kernel]
  rw [zeroBits_add, show zeroBits 1024 0xE25108 = 0x15740D by decide +kernel]
  rw [zeroBits_add, show zeroBits 1024 0x15740D = 0x6743FF by decide +kernel]
  rw [zeroBits_add, show zeroBits 1024 0x6743FF = 0xC59254 by decide +kernel]
  rw [zeroBits_add, show zeroBits 1024 0xC59254 = 0x9C1E55 by decide +kernel]
  rw [zeroBits_add, show zeroBits 1024 0x9C1E55 = 0xB2C279 by decide +kernel]
  rw [zeroBits_add, show zeroBits 1024 0xB2C279 = 0x708262 by decide +kernel]
  rw [zeroBits_add, show zeroBits 1024 0x708262 = 0x431096 by decide +kernel]
  rw [zeroBits_add, show zeroBits 1024 0x431096 = 0xA74328 by decide +kernel]
  rw [zeroBits_add, show zeroBits 1024 0xA74328 = 0xA934CD by decide +kernel]
  rw [zeroBits_add, show zeroBits 1024 0xA934CD = 0xC4F42E by decide +kernel]
  rw [zeroBits_add, show zeroBits 1024 0xC4F42E = 0x020E56 by decide +kernel]
  rw [zeroBits_add, show zeroBits 1024 0x020E56 = 0x0F78FF by decide +kernel]
  rw [zeroBits_add, show zeroBits 1024 0x0F78FF = 0xA63AB2 by decide +kernel]
  rw [zeroBits_add, show zeroBits 1024 0xA63AB2 = 0x0B3094 by decide +kernel]
  rw [zeroBits_add, show zeroBits 1024 0x0B3094 = 0x97780D by decide +kernel]
  rw [zeroBits_add, show zeroBits 1024 0x97780D = 0xCDF529 by decide +kernel]
  rw [zeroBits_add, show zeroBits 1024 0xCDF529 = 0x4B852A by decide +kernel]
  rw [zeroBits_add, show zeroBits 1024 0x4B852A = 0xF7D3E7 by decide +kernel]
  rw [zeroBits_add, show zeroBits 1024 0xF7D3E7 = 0xB8329E by decide +kernel]
  rw [zeroBits_add, show zeroBits 1024 0xB8329E = 0xADFB28 by decide +kernel]
  rw [zeroBits_add, show zeroBits 1024 0xADFB28 = 0xB6377B by decide +kernel]
  rw [zeroBits_add, show zeroBits 1024 0xB6377B = 0xE51273 by decide +kernel]
  rw [zeroBits_add, show zeroBits 1024 0xE51273 = 0x38AF67 by decide +kernel]
  rw [zeroBits_add, show zeroBits 1024 0x38AF67 = 0x66CACF by decide +kernel]
  rw [zeroBits_add, show zeroBits 1024 0x66CACF = 0x7B1F10 by decide +kernel]
  rw [zeroBits_add, show zeroBits 1024 0x7B1F10 = 0x279701 by decide +kernel]
  rw [zeroBits_add, show zeroBits 1024 0x279701 = 0x7A4960 by decide +kernel]
  rw [zeroBits_add, show zeroBits 1024 0x7A4960 = 0xE7B631 by decide +kernel]
  rw [zeroBits_add, show zeroBits 1024 0xE7B631 = 0xDD01E6 by decide +kernel]
  rfl

theorem byte_below (s : State) (a : Nat) (h : s.mem.all (fun e => decide (e.1 < a)) = true) : s.byte a = memDefault a := by
  have : ∀ m : List Host.Cell, m.all (fun e => decide (e.1 < a)) = true → Tbl.find m a = none := by
    intro m
    induction m with
    | nil => intro _; rfl
    | cons e m ih =>
      obtain ⟨k, v⟩ := e
      intro hm
      simp only [List.all_cons, Bool.and_eq_true, decide_eq_true_eq] at hm
      rw [Tbl.find, if_neg (by omega)]
      exact ih hm.2
  simp [State.byte, Tbl.look, this _ h]

theorem readBytes_zeros (s : State) (a b n : Nat) (h : s.mem.all (fun e => decide (e.1 < a)) = true) (hb : a ≤ b) (hn : b + n ≤ 0x4100000000) :
    s.readBytes b n = List.replicate n 0 := by
  induction n generalizing b with
  | zero => rfl
  | succ n ih =>
    have hb' : s.byte b = 0 := by
      rw [byte_below s b]
      · simp [memDefault]; omega
      · simp only [List.all_eq_true, decide_eq_true_eq] at h ⊢
        intro e he; have := h e he; omega
    rw [State.readBytes, hb', ih (b + 1) (by omega) (by omega), List.replicate_succ]

/-- TrayFilling: the hypotheses of a unit taken whose CRC-24 agrees. -/
theorem test_unit_take_hypotheses :
    tagged.pw.clocked = true ∧ tagged.tb.dataQ = [dataDesc] ∧ tagged.flag .tray F.TBCTRL_enable = true ∧ dataDesc.invalid true = false ∧
      tagged.rcd.cart ≠ 3 ∧ tagged.rcd.bake < 2 ∧ tagged.flag .tray F.TBSTAT_capacity = false ∧ tagged.unitCheck 0 0 = 0 ∧
      bitOf (tagged.readLE (tagAddr 0x100000000) 4) 31 = true ∧
      tagged.readLE (tagAddr 0x100000000) 4 % 2 ^ 24 = crc24 (tagged.readBytes 0x100000000 4096) ∧ dataDesc.taken + 1 ≠ dataDesc.count := by
  refine ⟨by decide, by decide, by decide, by decide, by decide, by decide, by decide, by decide, by decide, ?_, by decide⟩
  rw [readBytes_zeros tagged 0x40000000 0x100000000 4096 (by decide) (by decide) (by decide), crc24_zeros]
  decide

/-- The check value of CRC-24 as R82 gives it, on the digits 1 to 9 (a published check value). -/
theorem test_crc24 :
    (crc24 [0x31, 0x32, 0x33, 0x34, 0x35, 0x36, 0x37, 0x38, 0x39] = 0x21CF02) := by
  decide +kernel

/-- TrayFilling: a unit that is taken and one refused, a page, a tray due for sealing, the timeout and sealnow. -/
theorem test_tray_filling :
    ((let s : State := { filling with tb := { filling.tb with zones := [] } }
      s.unitCheck 0 0 = 1 ∧ dataDesc.op = 0 ∧ dataDesc.status = 0 ∧ dataDesc.count ≠ 1)) ∧
    ((let s : State := { filling with tb := { filling.tb with jourQ := [{ dataDesc with src := 0x3FFFE000 }] } }
      ({ dataDesc with src := 0x3FFFE000 } : Desc).invalid false = false ∧ s.flag .tray F.TBCTRL_enable)) ∧
    ((let s := sealable
      s.writable ∧ s.flag .tray F.TBCTRL_hold = false ∧ s.tb.held < 320 ∧ s.tb.nextPos < trayCount ∧ s.forceNow = false ∧
        s.layerOk s.tb.nextPos ∧ s.trayHeads ≠ [] ∧ s.sealDue s.composeTray.slotBeams.length)) ∧
    ((let s := (sealable.wr .tray F.TBSEALTO_timeout 1)
      s.rd .tray F.TBSEALTO_timeout ≠ 0 ∧ s.tb.waiting ≠ [] ∧
        holds (exec .sealTimeout { s with tb := { s.tb with timedOut := false } }) (fun t => t == s))) ∧
    ((may sealable .keeper .tray 0x40 ∧ holds (exec (.tbctrlSealnow .keeper 5) sealable) (fun t =>
       t.tb.closeUpTo == 1 && t.flag .tray F.TBCTRL_enable && t.tb.wData == sealable.tb.wData))) := by
  refine ⟨?_, ?_, ?_, ?_, ?_⟩ <;> decide

/-- TrayWriting: parity, readiness held and given up, the window and its gates, and the read-after-write verdicts. -/
theorem test_tray_writing :
    (holds (exec (.outerParityDone 3) (sealedOne { tray0 with parityDone := false })) (fun t => t.tb.sealed == [tray0])) ∧
    ((let s := (sealedOne tray0).wr .tray F.TBHEADS_ready 3
      s.headReady 0 ∧ s.headReady 1 ∧ holds (exec .trayReadinessCheck s) (fun t => t.tb.sealed == [{ tray0 with checked := true }]))) ∧
    ((let s := (sealedOne tray0).wr .tray F.TBHEADS_ready 1
      s.headReady 1 = false ∧ holds (exec .trayReadinessCheck s) (fun t =>
        t.tb.sealed.isEmpty && t.tb.stash == [tray0] && t.tb.awaited == [1] && t.flag .tray F.TBSTAT_holding))) ∧
    ((let s : State := { s0 with tb := { s0.tb with stash := [tray0], awaited := [1] } }
      holds (exec .headReadyTimeout (s.wr .tray F.TBHEADS_present 15)) (fun t =>
        t.tb.stash.isEmpty && t.tb.nextPos == 7 && t.tb.cleared == [1] && t.rd .tray F.TBHEADS_present == 13))) ∧
    ((let s := (sealedOne { tray0 with checked := true }).wr .tray F.TBHEADS_ready 3
      (tray0.allBeams.all (fun b => decide (b < 48) && s.headReady (b / 12))) ∧ tray0.allBeams = [0, 1, 2, 3, 12, 13, 14, 15] ∧
      holds (exec .trayWindowWrite s) (fun t => t.tb.sealed.isEmpty && t.flag (.beam 15) F.BWSTAT_gate && !t.flag (.beam 4) F.BWSTAT_gate &&
        (t.tb.writing.map (·.gates)) == some tray0.allBeams))) ∧
    (holds (exec (.blockPayloadEnd 1) (writingOne.wr (.beam 1) F.BWSTAT_gate 1)) (fun t =>
       !t.flag (.beam 1) F.BWSTAT_gate && (t.tb.writing.map (·.gates)) == some [0])) ∧
    (holds (exec (.beamUnderrun 0) writingOne) (fun t => t.event (.beam 0) 3 && t.rd (.beam 0) F.BWSTAT_cause == 3)) ∧
    (holds (exec (.drawVerdict 7 47 ⟨none, 0, [], 0, 0, []⟩) heldOne) (fun t =>
       t.rd (.beam 47) F.BDRAWLAST_verdict == 1 && t.event (.beam 47) 1 && t.rd (.beam 47) F.BDRAWFCNT_count == 1)) ∧
    ((drawVerdict 12 0xFFF 24 (seenIn 12) = 0 ∧ drawVerdict 12 0xFFF 24 (seenIn 13) = 3 ∧ drawVerdict 12 5 24 { seenIn 1 with maxerr := 6 } = 4 ∧
       drawVerdict 12 6 24 { seenIn 1 with maxerr := 6, crcBad := [0] } = 5 ∧ drawVerdict 12 0 24 { seenIn 1 with copy := 0 } = 2)) ∧
    (holds (exec (.drawIntervalEnd 47) ({ s0 with tb := { s0.tb with judged := [(47, (600, 7))] } }.wr (.beam 47) F.BDRAWWIN_over 9)) (fun t =>
       t.rd (.beam 47) F.BDRAWWIN_over == 10 && t.flag (.beam 47) F.BWSTAT_candidate && t.event (.beam 47) 2)) ∧
    (holds (exec (.drawIntervalEnd 47) ({ s0 with tb := { s0.tb with judged := [(47, (600, 6))] } }.wr (.beam 47) F.BDRAWWIN_over 9)) (fun t =>
       t.rd (.beam 47) F.BDRAWWIN_over == 0)) ∧
    (holds (exec (.drawIntervalEnd 47) ({ s0 with tb := { s0.tb with judged := [(47, (599, 7))] } }.wr (.beam 47) F.BDRAWWIN_over 9)) (fun t =>
       t.rd (.beam 47) F.BDRAWWIN_over == 9)) := by
  refine ⟨?_, ?_, ?_, ?_, ?_, ?_, ?_, ?_, ?_, ?_, ?_, ?_⟩ <;> decide

/-- TrayTablesAndFlushes: the tables' writes and refusals at their limits, the flush that ends, retirement and the state record. -/
theorem test_tray_tables_and_flushes :
    ((may filling .keeper .tray 0x64 ∧ holds (exec (.tbzidWrite .keeper (BitVec.ofNat 32 (2 ^ F.TBZID_valid.lo))) filling) (fun t => t.event .tray 2))) ∧
    ((let s := filling.wr .tray F.TBZSEL_entry 1
      F.TBZID_valid.of 5 = 0 ∧ holds (exec (.tbzidWrite .keeper 5) s) (fun t =>
        t.zent 1 == ⟨false, F.TBZID_nsid.of 5, F.TBZID_nszone.of 5, F.TBZID_gzone.of 5, 0⟩ && t.zent 0 == filling.zent 0))) ∧
    (holds (exec (.tbzwpWrite .keeper 8) filling) (fun t => t.event .tray 2 && t.zent 0 == filling.zent 0)) ∧
    (holds (exec (.tbzwpWrite .keeper 8) s0) (fun t => (t.zent 0).wp == 8)) ∧
    (holds (exec (.tbhwdataWrite .keeper 262145) s0) (fun t => crumbed t 0 0 201 3 (UnitId.tray.base + 0x74) 262145 && t.tb == s0.tb)) ∧
    (holds (exec (.tbhwdataWrite .keeper 262144) { s0 with tb := { s0.tb with zeroing := true } }) (fun t => t.tb.heldHw == [(0, 262144)])) ∧
    (holds (exec (.tbhwdataWrite .keeper 0) (s0.wr .tray F.TBHWCTRL_valid 1)) (fun t => t.event .tray 2 && t.tb == s0.tb)) ∧
    (holds (exec (.tbhwdataWrite .keeper 0) s0) (fun t => t.hwMark 0 0 == 0 && t.hwMark 0 1 == 262144)) ∧
    (holds (exec (.tbhwctrlZero .keeper) s0) (fun t => t.tb.zeroing)) ∧
    (holds (exec (.tbhwctrlZero .keeper) (s0.wr .tray F.TBHWCTRL_valid 1)) (fun t => !t.tb.zeroing)) ∧
    (holds (exec (.tbhwctrlValid .keeper) { s0 with tb := { s0.tb with zeroing := true } }) (fun t => t.tb.heldValid && !t.flag .tray F.TBHWCTRL_valid)) ∧
    (holds (exec .hwZeroDone { s0 with tb := { s0.tb with zeroing := true, heldHw := [(3, 9)], heldValid := true } }) (fun t =>
       t.hwMark 0 0 == 0 && t.hwMark 0 3 == 9 && t.flag .tray F.TBHWCTRL_valid)) ∧
    ((let s : State := { s0 with rcd := { s0.rcd with flushes := [⟨1, 0, 5, none, some 0⟩] } }
      s.rcd.flushes.find? s.flushDone = some ⟨1, 0, 5, none, some 0⟩)) ∧
    ((may s0 .keeper (.beam 47) 0x40 ∧ s0.beamGone 47 = false ∧ holds (exec (.bwctrlRetire .keeper 47) s0) (fun t =>
       t.tb.retiring == [47] && t.flag (.beam 47) F.BWCTRL_retire))) ∧
    ((let s : State := { s0 with tb := { s0.tb with retiring := [44, 45, 46] } }
      s.mayRetire 47 = false ∧ holds (exec (.bwctrlRetire .keeper 47) s) (fun t => t.event (.beam 47) 5 && t.tb == s.tb))) ∧
    ((let s : State := { s0 with medium := some ⟨[], 0, true, [], []⟩, rcd := { s0.rcd with cart := 2, cmDue := true, cmStatus := 1 } }
      s.rcd.bake ≠ 4 ∧ holds (exec (.cmUpdate none) s) (fun t => t.rcd.cmStatus == 0 && !t.rcd.cmDue) ∧
        holds (exec (.cmUpdate (some (true, 3))) s) (fun t => t.event .media 8 && t.rcd.cmStatus == 1))) := by
  refine ⟨?_, ?_, ?_, ?_, ?_, ?_, ?_, ?_, ?_, ?_, ?_, ?_, ?_, ?_, ?_, ?_⟩ <;> decide

/-- A read descriptor of slot 0 of tray 9. -/
def rdesc : RDesc := ⟨0, 9, 0, 1, false, false, false, false, 0x100000000, 4, false, 0, []⟩

/-- A tray being read at `stage`, one block of beam 47 with one codeword position in state `c`. -/
def rtray0 (stage c : Nat) : RTray := ⟨rdesc, [⟨47, false, false, false, 0, [c]⟩], stage, 0, false⟩

/-- `rtray0` being read, sealing paused for it. -/
def reading (stage c : Nat) : State :=
  { s0 with tb := { s0.tb with paused := [1] }, rp := { s0.rp with trays := [rtray0 stage c], nextNum := 1, last := some 9 } }

/-- ReadPath: a descriptor starts, the queue runs empty, a position is blank; the registers of the read path. -/
theorem test_read_path :
    ((let s : State := { s0 with rp := { s0.rp with queue := [rdesc], last := some 9 } }
      s.readStalled = false ∧ holds (exec .readDescriptorStart s) (fun t => t.rp.queue.isEmpty && t.rp.trays.length == 1))) ∧
    ((let s : State := { s0 with tb := { s0.tb with paused := [1, 2] }, rp := { s0.rp with last := some 9 } }
      holds (exec .readQueueEmptyResume s) (fun t => t.tb.paused == [2] && t.rp.last == none) = true)) ∧
    (((reading 1 0).rtray 9 = some (rtray0 1 0) ∧ rdesc.op = 0 ∧ holds (exec (.positionBlank 9) (reading 1 0)) (fun t =>
       t.rp.trays.isEmpty && t.rp.recs.length ≤ 1))) ∧
    (holds (exec (.readTableSwap 47 0 0 15 31) ({ s0 with mem := [(0x4900000 + 16 * (512 * 47 + 32 * 15 + 31) + 12, 7)] } : State)) (fun t =>
       t.rd (.beam 47) F.BRLIVE3_bytes15_12 == 7 && t.rd (.beam 47) F.BRLIVE0_bytes3_0 == 0)) ∧
    ((may s0 .keeper (.beam 47) 0xB0 ∧ may s0 .keeper (.beam 47) 0xBC ∧
      holds (exec (.brliveWrite .keeper 47 3 0xFFFFFFFF) s0) (fun t => t.rd (.beam 47) F.BRLIVE3_bytes15_12 == 2 ^ 32 - 1))) ∧
    ((may s0 .keeper .media 0x50 ∧ holds (exec (.mrstailWrite .keeper 4097) s0) (fun t => t.rd .media F.MRSTAIL_tail == 1))) ∧
    ((may s0 .keeper .media 0x44 ∧ (reading 1 0).rp.pending ∧ s0.rp.pending = false ∧
      holds (exec (.mrbasehiWrite .keeper 1) s0) (fun t => t.rp.held == none && t.rp.base == 2 ^ 32 + t.rd .media F.MRBASELO_base * 2 ^ 20) ∧
      holds (exec (.mrbasehiWrite .keeper 1) (reading 1 0)) (fun t => t.rp.base == 0 && t.flag .media F.MRSTAT_basewait && t.rp.held.isSome))) ∧
    (holds (exec .mrbaseApply ({ s0 with rp := { s0.rp with held := some (2 ^ 32, 3) } }.wr .media F.MRSTAT_basewait 1)) (fun t =>
       t.rp.base == 2 ^ 32 && t.rp.held == none && !t.flag .media F.MRSTAT_basewait)) := by
  refine ⟨?_, ?_, ?_, ?_, ?_, ?_, ?_, ?_⟩ <;> decide

/-- DecodingAndRecovery: a block without sync, the end of a deep decode, a sink overflow, the passes of step 3, step 4 and step 5. -/
theorem test_decoding_and_recovery :
    (((rtray0 1 0).blks.any (fun k => k.beam == 47 && k.st.contains 0) ∧
      holds (exec (.inlineVerdict 9 47 ⟨none, 0, [], 0, 0, []⟩ 0 0) (reading 1 0)) (fun t => t.event (.beam 47) 6))) ∧
    ((let s : State := { reading 1 12 with rp := { (reading 1 12).rp with engines := [(7, some (0, 47, 0))] } }
      s.engineOf (0, 47, 0) = some 7 ∧ holds (exec (.deepDecodeDone 9 47 0 false) s) (fun t =>
        Tbl.look none t.rp.engines 7 == none && t.rd .deep F.DPFCNT_count == 1) ∧
      holds (exec (.deepDecodeDone 9 47 0 true) s) (fun t => t.rd .deep F.DPCNT_count == 1 && t.rd .deep F.DPFCNT_count == 0))) ∧
    (holds (exec (.sinkOverflow 9 47 0) (reading 1 2)) (fun t => t.event .dram 5)) ∧
    (holds (exec (.step3PassEnd 9 [(47, ⟨none, 0, [], 0, 0, []⟩, [])]) (reading 3 13)) (fun t => t.counter 153 == 1)) ∧
    (((rtray0 4 14).blks.filter (fun k => (k.st[0]?).getD 0 == 14) ≠ [] ∧ (reading 4 14).parityCount 9 0 = 0 ∧
      holds (exec (.outerRecovery 9 0 []) (reading 4 14)) (fun t => t.rd .outer F.OCFCNT_count == 1))) ∧
    (((reading 5 15).rp.batch = 0 ∧ ((({ (reading 5 15) with tb := { (reading 5 15).tb with paused := [1, 3] } } : State).count 154).changeSpeed true).2 = false)) ∧
    ((let s := (reading 5 15).wr .spindle F.SPSTAT_state 6
      ((({ s with tb := { s.tb with paused := [1, 3] } } : State).count 154).changeSpeed true).2 = true ∧
      holds (exec .step5GatherTimeout s) (fun t => t.rp.batch == 1 && t.tb.paused.contains 3 && t.flag .media F.MRSTAT_held) = true)) := by
  refine ⟨?_, ?_, ?_, ?_, ?_, ?_, ?_⟩ <;> decide

/-- `s` with head `h` holding `x`. -/
def withHead (s : State) (h : Nat) (x : HeadSt) : State := { s with heads := Tbl.put HeadSt.none s.heads h x }

/-- Head 3 in state `st`, its clock locked, nothing running. -/
def head3 (st : Nat) : State := (s0.wr (.head 3) F.HSEQSTAT_state st).wr (.head 3) F.HCLKSTAT_locked 1

/-- The spindle at speed with its hand-over made. -/
def atSpeed (s : State) : State := { s.wr .spindle F.SPSTAT_state 6 with spin := { s.spin with handed := true } }

/-- Head 3 acquiring at `step`. -/
def acquiring (step : Nat) : State :=
  withHead ((head3 1).wr (.head 3) F.HSEQSTAT_busy 1) 3 { HeadSt.none with seq := 1, step := step, endState := 2, tGroup := 11775, tLayer := 15 }

/-- ServoPath: conversions with and without dither, the freeze trip, the chevron at its limits, wedges, the synthesizer and the comparators. -/
theorem test_servo_path :
    ((let s := withHead (s0.wr (.head 3) (F.HADCCFG_dither 5) 0) 3 { HeadSt.none with conv := [(5, ⟨[(95, true)], true⟩)], raw := [(5, 0x801)] }
      (Tbl.look ⟨[], false⟩ (s.hd 3).conv 5).slots ≠ [] ∧ holds (exec (.servoConversionDone 3 5 0x800 false) s) (fun t =>
        t.rd (.head 3) (F.HADCLAST_word 5) == 0x800 * 16 + 8 && Tbl.look 0 t.adcIn (32 * 95 + 29) == 65536 + 0x800 * 16 + 12 &&
        (Tbl.look ⟨[], false⟩ (t.hd 3).conv 5).slots.isEmpty))) ∧
    ((let s := (withHead s0 3 { HeadSt.none with conv := [(5, ⟨[(95, false)], false⟩)], raw := [(5, 1)] }).wr (.head 3) (F.HADCCFG_dither 5) 1
      holds (exec (.servoConversionDone 3 5 0 true) (s.wr (.head 3) (F.HADCSTAT_run 5) 63)) (fun t =>
        t.rd (.head 3) (F.HADCLAST_word 5) == 0xFFF0 + 2 && t.rd (.head 3) (F.HADCSTAT_run 5) == 64))) ∧
    ((let s := (withHead s0 3 { HeadSt.none with conv := [(5, ⟨[(95, false)], false⟩)], raw := [(5, 1)] }).wr (.head 3) (F.HADCCFG_dither 5) 1
      holds (exec (.servoConversionDone 3 5 1 false) s) (fun t =>
        t.rd (.head 3) (F.HADCLAST_word 5) == 32 && t.rd (.head 3) (F.HADCSTAT_run 5) == 1))) ∧
    (holds (exec (.adcFreezeTrip 3 5) (s0.wr (.head 3) (F.HADCSTAT_run 5) 64)) (fun t =>
       t.flag (.head 3) (F.HADCSTAT_frozen 5) && t.event (.head 3) 6 && t.event (.head 3) 2 && bitOf (t.rd (.head 3) F.HSVFLT_flags) 2)) ∧
    ((may s0 .keeper (.head 3) 0x94 ∧ holds (exec (.hadccfgGainWrite .keeper 3 5 0x103) s0) (fun t =>
       t.rd (.head 3) (F.HADCCFG_gain 5) == 3 && t.rd (.head 3) (F.HADCCFG_dither 5) == 1 && Tbl.look 0 (t.hd 3).gainHold 5 == 2))) ∧
    ((chevron [3584, 3584, 3584, 3584] = none ∧ chevron [3585, 3584, 3584, 3584] = some 4095 ∧ chevron [4608, 4608, 4608, 4608] = some 0 ∧
       chevron [4609, 4608, 4608, 4608] = none ∧ chevron [4000, 4256, 4000, 4000] = some 2176 ∧ chevron [4000, 4257, 4000, 4000] = none)) ∧
    ((((head3 2).wedge 3 7 true [0, 0, 0, 0] 0).ok = false ∧ holds (exec (.wedgePosition 3 7 true [0, 0, 0, 0] 0) (head3 2)) (fun t =>
       !t.flag (.head 3) F.HTRKERR_valid && t.rd (.head 3) F.HTRKERR_error == 0))) ∧
    ((let s := withHead (head3 2) 3 { HeadSt.none with num := some 6, pos := some (249 * 4096) }
      let x := s.wedge 3 7 true [4000, 4000, 4000, 4000] 249
      x.acc = true ∧ holds (exec (.wedgePosition 3 7 true [4000, 4000, 4000, 4000] 249) s) (fun t =>
        t.flag (.head 3) F.HTRKERR_valid == x.ok && t.rd (.head 3) F.HTRKERR_wedge == 7) = true)) ∧
    (holds (exec (.synthLock 3 (-1)) s0) (fun t => t.flag (.head 3) F.HCLKSTAT_locked && t.event (.head 3) 13 && t.rd (.head 3) F.HCLKPHE_error == 65535)) ∧
    (holds (exec (.synthLost 3) (head3 2)) (fun t => !t.flag (.head 3) F.HCLKSTAT_locked && t.event (.head 3) 12 && t.event (.head 3) 4)) ∧
    ((let s := withHead (s0.wr (.head 3) F.HFSNOM_fs 1000) 3 { HeadSt.none with focus := true }
      holds (exec (.comparatorTrip 3 false 624) s) (fun t => (t.hd 3).refTrip && t.event (.head 3) 2 && bitOf (t.rd (.head 3) F.HSVFLT_flags) 0) ∧
      holds (exec (.comparatorTrip 3 false 625) s) (fun t => t == s))) ∧
    ((let s := withHead ((s0.wr (.head 3) F.HFSNOM_lfs 1000).wr (.head 3) F.HFSTHR_hyst 0) 3 { HeadSt.none with layTrip := true }
      let thr := s.rd (.head 3) F.HFSTHR_lwg
      holds (exec (.comparatorRelease 3 true (16 * thr * 1000 / 256 + 1)) s) (fun t => !(t.hd 3).layTrip) ∧
      holds (exec (.comparatorRelease 3 true (16 * thr * 1000 / 256)) s) (fun t => t == s))) ∧
    (holds (exec (.holdKickback 3) (((head3 5).wr .tray F.TBPOS_pointer 16).wr (.head 3) F.HSEQSTAT_group 5)) (fun t =>
       t.rd (.head 3) F.HSEQSTAT_group == groupOf 16 3 % 2 ^ 14)) := by
  refine ⟨?_, ?_, ?_, ?_, ?_, ?_, ?_, ?_, ?_, ?_, ?_, ?_, ?_⟩ <;> decide

/-- HeadSequencer: refusals and starts of HSEQCMD, the steps of an acquire, their timeouts, the layer jump and the retries. -/
theorem test_head_sequencer :
    ((may (head3 0) .keeper (.head 3) 0x40 ∧ holds (exec (.seqHold .keeper 3 false 15 11776) (head3 2)) (fun t =>
       t.rd (.head 3) F.HSEQSTAT_result == 6 && t.event (.head 3) 10))) ∧
    (holds (exec (.seqSeek .keeper 3 false 15 11775) ((head3 2).wr (.head 3) F.HSEQSTAT_busy 1)) (fun t => t.rd (.head 3) F.HSEQSTAT_result == 1)) ∧
    (((head3 0).clockReady = false ∧ holds (exec (.seqAcquire .keeper 3 false 15 11775) (head3 0)) (fun t =>
       t.rd (.head 3) F.HSEQSTAT_result == 4 && t.event (.head 3) 10))) ∧
    (holds (exec (.seqLeadin .keeper 3 false 15 11775) (head3 8)) (fun t => t.rd (.head 3) F.HSEQSTAT_result == 6)) ∧
    ((let s : State := { head3 2 with tb := { s0.tb with sealed := [⟨7, 3, [3], [0, 0, 0, 1], [0, 0, 0, 0], [], true, true⟩] } }
      s.trayNames 3 ∧ holds (exec (.seqSeekLayer .keeper 3 false 15 11775) s) (fun t => t.rd (.head 3) F.HSEQSTAT_result == 1))) ∧
    (((atSpeed (head3 0)).clockReady ∧ holds (exec (.seqAcquire .keeper 3 false 15 11775) (atSpeed (head3 0))) (fun t =>
       t.hState 3 == 1 && t.flag (.head 3) F.HSEQSTAT_busy && (t.hd 3).seq == 1 && (t.hd 3).step == 1 && (t.hd 3).tLayer == 15 &&
       (t.hd 3).tGroup == 11775))) ∧
    (holds (exec (.seqSeekLayer .keeper 3 false 15 11775) (head3 2)) (fun t =>
       t.hState 3 == 3 && (t.hd 3).seq == 4 && (t.hd 3).step == 6 && (t.hd 3).tLayer == 15)) ∧
    (holds (exec (.seqLayer .keeper 3 false 15 11775) (head3 6)) (fun t => t.hState 3 == 4 && (t.hd 3).seq == 3 && (t.hd 3).tGroup == 0)) ∧
    (holds (exec (.seqHold .keeper 3 false 15 11775) (head3 5)) (fun t => t.hState 3 == 5 && (t.hd 3).seq == 5 && (t.hd 3).step == 11)) ∧
    (holds (exec (.seqRelease .keeper 3 false 15 11775) ((head3 2).wr (.head 3) F.HSEQSTAT_busy 1)) (fun t =>
       t.hState 3 == 7 && t.event (.head 3) 10 && (t.hd 3).step == 14 && !t.flag (.head 3) F.HCLKSTAT_locked)) ∧
    (holds (exec (.seqStepDone 3 [1, 1]) (acquiring 2)) (fun t => (t.hd 3).step == 3 && (t.hd 3).focus)) ∧
    (holds (exec (.seqStepDone 3 []) (acquiring 7)) (fun t => (t.hd 3).layer && t.rd (.head 3) F.HSEQSTAT_layer == 15)) ∧
    (holds (exec (.seqStepDone 3 []) (acquiring 8)) (fun t => t.hState 3 == 2 && t.event (.head 3) 9 && !t.flag (.head 3) F.HSEQSTAT_busy)) ∧
    (holds (exec (.seqStepTimeout 3) (acquiring 1)) (fun t => t.hState 3 == 8 && t.rd (.head 3) F.HSEQSTAT_result == 8)) ∧
    (holds (exec (.seqStepTimeout 3) (acquiring 8)) (fun t => t.hState 3 == 8 && t.rd (.head 3) F.HSEQSTAT_result == 2)) ∧
    ((let s := (head3 2).wr (.head 3) F.HSVCFG_autojump 1
      holds (exec .layerJumpAuto s) (fun t => t.hState 3 == 4 && (t.hd 3).jump == 1 && (t.hd 3).tLayer == 1 && t.counter 156 == 1 && t.hd 2 == s.hd 2))) ∧
    ((let s := withHead (withHead ((head3 4).wr (.head 2) F.HSEQSTAT_state 4) 3 { HeadSt.none with seq := 11, jump := 1, step := 7 }) 2
        { HeadSt.none with seq := 11, jump := 2 }
      holds (exec (.layerJumpTimeout 3) s) (fun t => t.hState 3 == 8 && t.rd (.head 3) F.HSEQSTAT_result == 3 && t.event (.head 3) 10 &&
        t.hState 2 == 5 && t.event (.head 2) 9))) ∧
    ((let s := withHead (head3 1) 3 { HeadSt.none with seq := 12, wait := true, retries := 2 }
      holds (exec (.focusReacquireTimer 3) s) (fun t => t.hState 3 == 1 && (t.hd 3).step == 1 && (t.hd 3).retries == 3))) ∧
    ((let s := withHead (head3 1) 3 { HeadSt.none with seq := 12, wait := true, retries := 3 }
      holds (exec (.focusReacquireTimer 3) s) (fun t => t.hState 3 == 8 && t.rd (.head 3) F.USTAT_state == 5 && t.event (.head 3) 10))) := by
  refine ⟨?_, ?_, ?_, ?_, ?_, ?_, ?_, ?_, ?_, ?_, ?_, ?_, ?_, ?_, ?_, ?_, ?_, ?_, ?_⟩ <;> decide

/-- The spindle in state `st` with the motor's pole pairs set. -/
def spin (st : Nat) : State := (s0.wr .spindle F.SPMOTOR_pairs 8).wr .spindle F.SPSTAT_state st

/-- `spin st` with what the drive holds changed. -/
def spinWith (st : Nat) (f : SpinSt → SpinSt) : State := { spin st with spin := f (spin st).spin }

/-- Stepper `n` holding `x`. -/
def stepper (s : State) (n : Nat) (x : StepSt) : State := { s with steps := Tbl.put ⟨0, false, 0⟩ s.steps n x }

/-- Spindle: SPCMD, ticks at the current limits, the start, the clock take and the end of a change. -/
theorem test_spindle :
    ((may (spin 0) .keeper .spindle 0x40 ∧ (spin 0).motorOk ∧ (spin 0).pairsOk ∧ (spin 0).loaderMoves = false ∧
      holds (exec (.spinStart .keeper true) (spin 0)) (fun t => t.spState == 1 && t.flag .spindle F.SPSTAT_speed && t.spin.vec == 7))) ∧
    (holds (exec (.spinStart .keeper false) s0) (fun t => t.event .spindle 10 && t.spState == 0)) ∧
    (holds (exec (.spinStart .keeper false) (spinWith 8 (fun p => { p with handed := true }))) (fun t => t.spState == 7)) ∧
    ((holds (exec (.spinChange .keeper true) (spin 3)) (fun t => t.spState == 3 && t.flag .spindle F.SPSTAT_speed) ∧
      holds (exec (.spinChange .keeper true) (spin 2)) (fun t => t.event .spindle 10))) ∧
    ((holds (exec (.spinStop .keeper) (spin 2)) (fun t => t.spState == 0) ∧ holds (exec (.spinStop .keeper) (spin 7)) (fun t => t.spState == 8) ∧
      holds (exec (.spinStop .keeper) (spin 11)) (fun t => t == spin 11))) ∧
    ((holds (exec (.spinShortBrake .keeper) (spin 6)) (fun t => t.spState == 9 && t.spin.vec == 0) ∧
      holds (exec (.spinCoast .keeper) (spin 11)) (fun t => t.spState == 10 && t.spin.vec == 7) ∧ holds (exec (.spinCoast .keeper) s0) (fun t => t == s0))) ∧
    (holds (exec (.spindleTick 0 0 0 4095 262143 (some 262143)) (spin 9)) (fun t => t.rd .spindle F.SPENC_count == 4095 && t.spin.vec == 0 &&
       t.rd .spindle F.SPANGLE_angle == 262143 && t.rd .spindle F.SPSPEED_speed == 262143)) ∧
    ((let s := spinWith 6 (fun p => { p with trips := [23998], vec := 1 })
      s.legAbove 0 8000 (-8000) 7999 = true ∧ holds (exec (.spindleTick 0 8000 (-8000) 0 0 none) s) (fun t =>
        t.event .spindle 7 && t.spin.off == 7 && t.spState == 6))) ∧
    (holds (exec (.spindleTick 0 8000 (-8000) 0 0 none) (spinWith 6 (fun p => { p with trips := [1, 23998], vec := 1 }))) (fun t =>
       t.spState == 11 && t.rd .spindle F.SPSTAT_cause == 3)) ∧
    (holds (exec (.spindleTick 0 0 0 0 0 none) (spinWith 6 (fun p => { p with off := 1 }))) (fun t => t.spin.off == 0 && t.spin.vec == 7)) ∧
    (((spinWith 6 (fun p => { p with vec := 1 })).legAbove 0 7999 (-7999) 7999 = false ∧ (spinWith 6 (fun p => { p with vec := 1 })).legAbove 0 7999 (-7999) (min 240 ((spin 6).rd .spindle F.SPILIM_limit) * 25 : Nat) = true ∧
      holds (exec (.spindleTick 0 7999 (-7999) 0 9600 none) (spinWith 6 (fun p => { p with vec := 1 }))) (fun t => t.spin.vec == 0 && t.spin.off == 0))) ∧
    ((holds (exec .spinRestDetected (spin 1)) (fun t => t.spState == 2) ∧ holds (exec .spinRestDetected (spin 9)) (fun t => t.spState == 0 && t.event .spindle 9))) ∧
    ((let cs := [200, 100, 0, 0, 0, 0, 0, 0, 0, 0, 0, 100]
      let s := spinWith 2 (fun p => { p with sets := [some 30] })
      alignAngle (s.rd .spindle F.SPALIGN_margin) cs = some 0 ∧ s.spState = 2 ∧ s.spin.sets = [some 30])) ∧
    ((alignResult [some 0, none] = none ∧ holds (exec (.spinAlignDone [0, 0, 0, 0, 0, 0, 9, 0, 0, 0, 0, 0])
       (spinWith 2 (fun p => { p with sets := [some 0, some 90] }))) (fun t => t.spState == 11 && t.rd .spindle F.SPSTAT_cause == 1 && t.event .spindle 5))) ∧
    (holds (exec (.spinAlignDone [5, 5, 5, 5, 5, 5, 5, 5, 5, 5, 5, 5]) (spin 2)) (fun t => t.spState == 2 && t.spin.sets == [none])) ∧
    (holds (exec (.spinEncoderTimeout true) (spin 3)) (fun t => t.spState == 2 && t.spin.realigned)) ∧
    (holds (exec (.spinEncoderTimeout true) (spinWith 3 (fun p => { p with realigned := true }))) (fun t => t.spState == 11 && t.event .spindle 6)) ∧
    (holds (exec .spinSpeedReached ((spin 3).wr .spindle F.SPCFG_refhead 3)) (fun t => t.spState == 5 && (t.hd 3).seq == 8 && t.hState 3 == 1)) ∧
    ((let s := withHead (spinWith 5 (fun p => { p with tried := 1 })) 0 { HeadSt.none with seq := 8, step := 4 }
      s.takeHead = 0 ∧ holds (exec (.clockTakeDone true 4095) s) (fun t => t.spState == 6 && t.rd .spindle F.SPENC_offset == 4095 &&
        t.event .spindle 2 && t.event .spindle 1 && (t.hd 0).atClock && t.spin.handed))) ∧
    (holds (exec (.clockTakeDone false 0) (spinWith 5 (fun p => { p with tried := 4 }))) (fun t => t.spState == 4 && t.event .spindle 4)) ∧
    (holds (exec (.clockTakeDone false 0) (spinWith 5 (fun p => { p with tried := 3 }))) (fun t => t.spState == 5 && (t.hd 3).seq == 8 && t.spin.tried == 4)) ∧
    (holds (exec .speedErrorPersist (spin 6)) (fun t => t.event .spindle 8)) ∧
    ((let s : State := { spin 7 with rp := { s0.rp with batch := 1, trays := [rtray0 5 15] } }
      holds (exec (.speedChangeDone true) s) (fun t => t.spState == 6 && t.rp.batch == 2 && t.rp.trays.all (fun x => x.stage != 5)))) ∧
    (holds (exec (.speedChangeDone false) { spin 7 with rp := { s0.rp with batch := 3 }, tb := { s0.tb with paused := [3] } }) (fun t =>
       t.spState == 6 && t.rp.batch == 0 && !t.tb.paused.contains 3)) ∧
    (holds (exec (.speedChangeDone false) { spin 7 with tb := { s0.tb with paused := [2] } }) (fun t => t.spState == 6 && t.tb.paused.isEmpty)) := by
  refine ⟨?_, ?_, ?_, ?_, ?_, ?_, ?_, ?_, ?_, ?_, ?_, ?_, ?_, ?_, ?_, ?_, ?_, ?_, ?_, ?_, ?_, ?_, ?_, ?_, ?_⟩ <;> decide

/-- VmotAndVoiceCoils: each level at its threshold, and the voice coils. -/
theorem test_vmot_and_voice_coils :
    ((holds (exec (.vmotRegencut 14000) s0) (fun t => t.flag .vmot F.VMSTAT_regen && t.event .vmot 3) ∧
      holds (exec (.vmotRegencut 13999) s0) (fun t => t == s0))) ∧
    ((holds (exec (.vmotOver 14500) s0) (fun t => t.flag .vmot F.VMSTAT_over && t.event .vmot 5 && t.rd .vmot F.VMVOLT_volt == 14500) ∧
      holds (exec (.vmotOver 14499) s0) (fun t => t == s0))) ∧
    ((holds (exec (.vmotUvwarn 10499) s0) (fun t => t.event .vmot 1) ∧ holds (exec (.vmotUvwarn 10500) s0) (fun t => t == s0))) ∧
    (holds (exec (.vmotBrake 14300) (spin 6)) (fun t => t.flag .vmot F.VMSTAT_brake && t.spState == 9 && t.spin.saved == some 6)) ∧
    (holds (exec (.vmotBrake 14300) (spin 11)) (fun t => t.flag .vmot F.VMSTAT_brake && t.spState == 11)) ∧
    (holds (exec (.vmotWatchRelease 13599) (spinWith 9 (fun p => { p with saved := some 6 }))) (fun t => t.spState == 6 && t.spin.saved == none)) ∧
    ((holds (exec (.vmotUvfault 9799) (withHead ((spin 6).wr (.head 3) F.HSEQSTAT_state 2) 3 HeadSt.none)) (fun t =>
        t.spState == 11 && t.rd .spindle F.SPSTAT_cause == 4 && t.hState 3 == 7 && t.flag (.vcm 15) F.VCSTAT_ramping && !(t.stp 4).coils) ∧
      holds (exec (.vmotUvfault 9800) s0) (fun t => t == s0))) ∧
    ((may s0 .keeper (.vcm 15) 0x40 ∧ holds (exec (.vcctrlRetract .keeper 15) s0) (fun t =>
       t.flag (.vcm 15) F.VCCTRL_retract && t.flag (.vcm 15) F.VCSTAT_ramping))) ∧
    (holds (exec (.vcmRampDone 15) ((s0.wr (.vcm 15) F.VCSTAT_ramping 1).wr (.vcm 15) F.VCSAFE_safe 65535)) (fun t =>
       !t.flag (.vcm 15) F.VCSTAT_ramping && t.rd (.vcm 15) F.VCOUT_cmd == 65535)) ∧
    ((s0.safeHold = true ∧ holds (exec (.vcmSafeHoldEnd 0) (s0.wr (.vcm 0) F.VCOUT_cmd 9)) (fun t => t.rd (.vcm 0) F.VCOUT_cmd == 0))) ∧
    ((let s := ((s0.wr (.slot 95) F.SLCTRL_run 1).wr (.slot 95) F.SLSTAT_state 1).wr (.slot 95) F.SLOUT_o0 (256 + 15)
      s.outPort 95 0 = (1, 15) ∧ holds (exec (.vcmCoilFault 15 true) s) (fun t => t.flag (.vcm 15) F.VCSTAT_short && t.event (.vcm 15) 2 && t.slState 95 == 4))) := by
  exact ⟨by decide, by decide, by decide, by decide, by decide, by decide, by decide +kernel, by decide, by decide, by decide, by decide⟩

/-- Steppers: the modes, the loader's interlock, positions and tables, the follower's accumulator and the ends of a move. -/
theorem test_steppers :
    ((may s0 .keeper (.stepper 4) 0x40 ∧ holds (exec (.stepModeStop .keeper 4 false) (stepper s0 4 ⟨0, true, 0⟩)) (fun t => !(t.stp 4).coils))) ∧
    (((spin 6).loaderFree = false ∧ holds (exec (.stepModeMove .keeper 4 true) (spin 6)) (fun t => t.event (.stepper 4) 4))) ∧
    (holds (exec (.stepModeGear .keeper 4 true) s0) (fun t => t.event (.stepper 4) 4)) ∧
    ((s0.loaderFree = true ∧ holds (exec (.stepModeMove .keeper 4 true) (s0.wr (.stepper 4) F.STTARGET_target (2 ^ 32 - 1))) (fun t =>
       t.rd (.stepper 4) F.STCTRL_mode == 1 && t.flag (.stepper 4) F.STSTAT_moving && (t.stp 4).dir == -1))) ∧
    (holds (exec (.stepModeMove .keeper 3 true) s0) (fun t => !t.flag (.stepper 3) F.STSTAT_moving && t.event (.stepper 3) 1)) ∧
    (holds (exec (.stepModeGear .keeper 3 true) s0) (fun t => t.rd (.stepper 3) F.STCTRL_mode == 2 && (t.stp 3).coils)) ∧
    ((may s0 .keeper (.stepper 4) 0x4C ∧ holds (exec (.sttargetWrite .keeper 4 0x80000000) s0) (fun t => t.rd (.stepper 4) F.STTARGET_target == 2 ^ 31))) ∧
    ((may s0 .keeper (.stepper 4) 0x48 ∧ holds (exec (.stposWrite .keeper 4 9) s0) (fun t => t.rd (.stepper 4) F.STPOS_pos == 9) ∧
      holds (exec (.stposWrite .keeper 3 9) (s0.wr (.stepper 3) F.STCTRL_mode 2)) (fun t => t.rd (.stepper 3) F.STPOS_pos == 0))) ∧
    ((may s0 .keeper (.stepper 4) 0x64 ∧ holds (exec (.sttdataWrite .keeper 4 0x1FFF) (s0.wr (.stepper 4) F.STTSEL_index 255)) (fun t =>
       t.tableEntry 4 255 == 4095 && t.rd (.stepper 4) F.STTSEL_index == 0 && t.tableEntry 3 255 == s0.tableEntry 3 255))) ∧
    (holds (exec (.sttdataWrite .keeper 4 1) (s0.wr (.stepper 4) F.STCTRL_mode 1)) (fun t => t.event (.stepper 4) 5)) ∧
    ((may s0 .keeper (.stepper 3) 0x74 ∧ holds (exec (.stfollowWrite .keeper 3 0xFFFF) (s0.wr (.stepper 3) F.STCTRL_mode 2)) (fun t =>
       t.rd (.stepper 3) F.STPOS_pos == 2 ^ 32 - 1 && (t.stp 3).frac == 2 ^ 34 - 2 ^ 26))) ∧
    (holds (exec (.stepDone 4 0x77) ((s0.wr (.stepper 4) F.STSTAT_moving 1).wr (.stepper 4) F.STCTRL_mode 1)) (fun t =>
       t.rd (.stepper 4) F.STPOS_pos == 0 && t.event (.stepper 4) 1)) ∧
    (holds (exec (.stepDone 4 0x77) (s0.wr (.stepper 4) F.STSTAT_moving 1)) (fun t => t.rd (.stepper 4) F.STPOS_pos == 0x77 && !t.event (.stepper 4) 1)) ∧
    (holds (exec (.stepOvercurrent 0) (stepper s0 0 ⟨0, true, 0⟩)) (fun t => t.event (.stepper 0) 2 && t.flag (.stepper 0) F.STSTAT_fault)) ∧
    (holds (exec (.stepStandstill 0) (stepper s0 0 ⟨0, true, 0⟩)) (fun t => t.flag (.stepper 0) F.STSTAT_still && !(t.stp 0).coils)) ∧
    (holds (exec (.stepLimit true) (stepper (s0.wr (.stepper 4) F.STSTAT_moving 1) 4 ⟨0, true, -1⟩)) (fun t =>
       t.event (.stepper 4) 3 && !t.flag (.stepper 4) F.STSTAT_moving && t.flag (.stepper 4) F.STSTAT_limout)) := by
  refine ⟨?_, ?_, ?_, ?_, ?_, ?_, ?_, ?_, ?_, ?_, ?_, ?_, ?_, ?_, ?_, ?_⟩ <;> decide

/-- `s` with slot `n` holding `x`. -/
def withSlot (s : State) (n : Nat) (x : SlotSt) : State := { s with slots := Tbl.put SlotSt.none s.slots n x }

/-- Slot 95 in state `st`, of class `c`, holding `x`, on an enabled engine. -/
def slot95 (st c : Nat) (x : SlotSt) : State :=
  withSlot ((((s0.wr .engine F.EBCTRL_enable 1).wr (.slot 95) F.SLCTRL_run (b2n (st != 0))).wr (.slot 95) F.SLSTAT_state st).wr
    (.slot 95) F.SLCTRL_class c) 95 x

/-- A slot whose sample is due and complete. -/
def dueSlot : SlotSt := { SlotSt.none with due := true }

/-- A tuning helper of mode `m`. -/
def tune (m : Nat) : Tune := ⟨m, false, 0, 0, 0, 0, false, 0, 0, 0, 0, 0, 0, 0⟩

/-- SlotSamplesAndTuning: a due instant, a missed one, each way a sample starts, a preemption, and the tuning modes and their ends. -/
theorem test_slot_samples_and_tuning :
    ((let s := (slot95 1 0 SlotSt.none).wr (.slot 95) F.SLIN01_i0 (256 + 29)
      s.isDue 95 0 ∧ s.adcPorts 95 = [29] ∧ holds (exec (.slotSampleInstant 95 0 [] 0 false) s) (fun t =>
        (t.slot 95).due && (t.slot 95).wait == [29] && (Tbl.look ⟨[], false⟩ (t.hd 3).conv 5).slots.any (fun x => x.1 == 95)))) ∧
    ((let s := ((slot95 1 0 SlotSt.none).wr (.slot 95) F.SLIN01_i0 (7 * 256)).wr .spindle F.SPSPEED_speed 3
      s.inPort 95 0 = (7, 0) ∧ holds (exec (.slotSampleInstant 95 0 [] 0 false) s) (fun t => (t.slot 95).ins[0]? == some 48))) ∧
    (holds (exec (.slotSampleInstant 95 0 [] 0 false) (slot95 3 0 dueSlot)) (fun t =>
       t.rd (.slot 95) F.SLMISCNT_count == 1 && t.event (.slot 95) 3 && t.counter 177 == 1)) ∧
    (((slot95 1 0 dueSlot).firstEligible 0 = some 95 ∧ (slot95 1 0 dueSlot).onLane 0 = none ∧ (slot95 1 0 dueSlot).inputTags 95 = 0 ∧
      holds (exec (.slotDispatch 0 none false) (slot95 1 0 dueSlot)) (fun t => t.slState 95 == 2 && (t.slot 95).lane == some 0 && (t.slot 95).pc == 0))) ∧
    ((let s := slot95 1 0 { dueSlot with tags := 2 }
      s.inputTags 95 = 1 ∧ holds (exec (.slotDispatch 0 none false) s) (fun t => t.slState 95 == 1 && t.rd (.slot 95) F.SLREPCNT_count == 1 && !(t.slot 95).due))) ∧
    ((let s : State := { slot95 1 0 { dueSlot with wait := [29] } with adcIn := [(32 * 95 + 29, 65538)] }
      s.inputTags 95 = 2 ∧ holds (exec (.slotDispatch 0 none false) s) (fun t => t.slState 95 == 4 && t.rd (.slot 95) F.SLSTAT_cause == 2))) ∧
    ((let s := withSlot (((slot95 1 0 dueSlot).wr (.slot 0) F.SLSTAT_state 2).wr (.slot 0) F.SLCTRL_class 1) 0 { SlotSt.none with lane := some 0, pc := 7 }
      s.onLane 0 = some 0 ∧ s.firstEligible 0 = some 95 ∧ holds (exec (.slotDispatch 0 none false) s) (fun t =>
        t.slState 0 == 3 && (t.slot 0).pc == 7 && (t.slot 0).lane == none && t.slState 95 == 2))) ∧
    ((may s0 .keeper (.slot 95) 0x7C ∧ holds (exec (.tuneRelay .keeper 95 1) (slot95 1 0 SlotSt.none)) (fun t =>
       t.rd (.slot 95) F.SLTUNE_mode == 1 && (t.slot 95).tune.isSome && t.flag (.slot 95) F.SLSTAT_tuning))) ∧
    ((holds (exec (.tuneSine .keeper 95 2) (slot95 3 0 SlotSt.none)) (fun t => t.rd (.slot 95) F.SLTUNE_mode == 2) ∧
      holds (exec (.tuneChirp .keeper 95 3) (slot95 2 0 SlotSt.none)) (fun t => t.rd (.slot 95) F.SLTUNE_mode == 3) ∧
      holds (exec (.tunePrbs .keeper 95 4) (slot95 1 0 SlotSt.none)) (fun t => t.rd (.slot 95) F.SLTUNE_mode == 4))) ∧
    (holds (exec (.tuneChirp .keeper 95 3) (slot95 1 0 { SlotSt.none with tune := some (tune 1) })) (fun t => t.event (.slot 95) 4)) ∧
    ((holds (exec (.tuneOff .keeper 95 0) (slot95 1 0 { SlotSt.none with tune := some (tune 1) })) (fun t =>
        (t.slot 95).tune == some { tune 1 with ending := true }) ∧
      holds (exec (.tuneOff .keeper 95 0) (slot95 1 0 SlotSt.none)) (fun t => t.rd (.slot 95) F.SLTUNE_mode == 0))) ∧
    (holds (exec (.slotTunedone 95) (slot95 1 0 { SlotSt.none with tune := some { tune 1 with since := 4096, switches := 9 } })) (fun t =>
       t.rd (.slot 95) F.SLRLYPER_period == 0 && t.event (.slot 95) 5 && (t.slot 95).tune == none)) ∧
    (holds (exec (.slotTunedone 95) ((slot95 1 0 { SlotSt.none with tune := some { tune 1 with since := 4095, switches := 5, first := 10, last := 30, lo := -7, hi := 8 } }).wr
       (.slot 95) F.SLTUNE_count 2)) (fun t => t.rd (.slot 95) F.SLRLYPER_period == 160 && t.rd (.slot 95) F.SLRLYAMP_amp == 7)) ∧
    ((let s := (slot95 1 0 { SlotSt.none with tune := some { tune 1 with since := 4095, switches := 4 } }).wr (.slot 95) F.SLTUNE_count 2
      holds (exec (.slotTunedone 95) s) (fun t => t == s) = true)) ∧
    (holds (exec (.slotCapdone 95) ((slot95 1 0 { SlotSt.none with tune := some (tune 2), captured := 5 }).wr (.slot 95) F.SLCAPLEN_len 5)) (fun t =>
       t.event (.slot 95) 6 && (t.slot 95).tune == none)) := by
  refine ⟨?_, ?_, ?_, ?_, ?_, ?_, ?_, ?_, ?_, ?_, ?_, ?_, ?_, ?_, ?_⟩ <;> decide

/-- SlotConfiguration: run, the binding, coefficients, banks, microcode words, contexts and the load window. -/
theorem test_slot_configuration :
    ((may s0 .keeper (.slot 95) 0x40 ∧ holds (exec (.slotRunWrite .keeper 95 1) (slot95 0 0 { SlotSt.none with now := ⟨[(0, 5)], [(1, 6)], [(2, 7)]⟩ })) (fun t =>
       t.slState 95 == 1 && t.flag (.slot 95) F.SLCTRL_run && (t.slot 95).now == ⟨[], [], [(2, 7)]⟩))) ∧
    ((holds (exec (.slotRunWrite .keeper 95 0) (slot95 1 0 SlotSt.none)) (fun t => t.slState 95 == 0 && t.event (.slot 95) 4) ∧
      holds (exec (.slotRunWrite .keeper 95 0) (slot95 3 0 SlotSt.none)) (fun t => t.slState 95 == 3 && (t.slot 95).stopping))) ∧
    ((may s0 .keeper (.slot 95) 0x74 ∧ bindingOk 0x4C 0x0E000E00 ∧ bindingOk 0x4C 0x0F00 = false ∧
      holds (exec (.slotConfigWrite .keeper 95 2 0x0E000E00) (slot95 4 0 SlotSt.none)) (fun t => t.inPort 95 0 == (14, 0) && t.inPort 95 1 == (14, 0)) ∧
      holds (exec (.slotConfigWrite .keeper 95 12 1) (slot95 3 0 SlotSt.none)) (fun t => t.event (.slot 95) 4))) ∧
    ((may s0 .keeper (.slot 95) 0xC4 ∧ holds (exec (.slcdataWrite .keeper 95 0xFF000005) ((slot95 1 0 SlotSt.none).wr (.slot 95) F.SLCSEL_index 255)) (fun t =>
       (t.slot 95).cpend == [(255, 5)] && t.rd (.slot 95) F.SLCSEL_index == 0))) ∧
    ((let s := (slot95 1 0 { SlotSt.none with batch := List.replicate 15 (1, 2) }).wr (.slot 95) F.SLCSEL_batch 1
      let u := (slot95 1 0 { SlotSt.none with batch := List.replicate 16 (1, 2) }).wr (.slot 95) F.SLCSEL_batch 1
      holds (exec (.slcdataWrite .keeper 95 5) s) (fun t => (t.slot 95).batch.length == 16) ∧
        holds (exec (.slcdataWrite .keeper 95 5) u) (fun t => t.event (.slot 95) 4 && (t.slot 95).batch.length == 16))) ∧
    ((may s0 .keeper (.slot 95) 0xC0 ∧ holds (exec (.slcselWrite .keeper 95 3) (slot95 1 0 { SlotSt.none with batch := [(1, 2)] })) (fun t =>
       (t.slot 95).cpend == [(1, 2)] && (t.slot 95).batch.isEmpty && t.rd (.slot 95) F.SLCSEL_index == 3))) ∧
    ((may s0 .keeper (.slot 95) 0x78 ∧ holds (exec (.slbankSwap .keeper 95) (slot95 0 0 SlotSt.none)) (fun t => t.rd (.slot 95) F.SLBANK_active == 1) ∧
      holds (exec (.slbankSwap .keeper 95) (slot95 2 0 SlotSt.none)) (fun t => t.flag (.slot 95) F.SLBANK_swap && t.rd (.slot 95) F.SLBANK_active == 0))) ∧
    ((may s0 .keeper .engine 0x58 ∧ s0.mcBusy 16383 = false ∧ holds (exec (.ebmchiWrite .keeper 0x80000000) ((s0.wr .engine F.EBMCSEL_index 16383).wr .engine F.EBMCLO_lo 9))
       (fun t => Tbl.look 0 t.micro 16383 == 2 ^ 63 + 9 && t.rd .engine F.EBMCSEL_index == 0))) ∧
    (((slot95 1 0 SlotSt.none).mcBusy 0 ∧ holds (exec (.ebmchiWrite .keeper 1) (slot95 1 0 SlotSt.none)) (fun t => t.event .engine 3 && t.micro.isEmpty))) ∧
    ((may s0 .keeper (.slot 95) 0xCC ∧ holds (exec (.slxdataWrite .keeper 95 0x01FFFFFF) ((slot95 4 0 SlotSt.none).wr (.slot 95) F.SLXSEL_index 87)) (fun t =>
       (t.slot 95).now.word 87 == 2 ^ 24 - 1 && t.rd (.slot 95) F.SLXSEL_index == 88) ∧
      holds (exec (.slxdataWrite .keeper 95 1) (slot95 2 0 SlotSt.none)) (fun t => t.event (.slot 95) 4))) ∧
    ((holds (exec .loopLoadWindow { s0 with winCycles := 12000001 }) (fun t => t.event .engine 4 && t.winCycles == 0 && t.rd .engine F.EBLOAD_load == 750) ∧
      holds (exec .loopLoadWindow { s0 with winCycles := 12000000 }) (fun t => !t.event .engine 4 && !t.flag .engine F.EBSTAT_overload))) := by
  refine ⟨?_, ?_, ?_, ?_, ?_, ?_, ?_, ?_, ?_, ?_, ?_⟩ <;> decide

/-- Slot 95 executing with the microcode word `w` at its program counter, x1 = −2, x2 = 8388607, a3 = −1, s63 = 5, and 4,093 cycles
of its sample spent. -/
def micro (w cyc : Nat) : State :=
  { (slot95 2 0 { SlotSt.none with cyc := cyc, ff := 12345678, now := ⟨[(1, 0xFFFFFE), (2, 0x7FFFFF)], [(3, 0xFFFFFFFFFFFF)], [(63, 5)]⟩ }) with
    micro := [(0, w)], coefs := [(256 * 95 + 15, 0x800000)] }

/-- Words written out from R249 and R250, field by field, decode to the instruction they stand for; an unused bit set gives none. -/
theorem test_microcode_words :
    ((mcDecode (0x01 * 2 ^ 58 + 15 * 2 ^ 54 + 0xFFFFFF) = some (.ldi 15 0xFFFFFF) ∧ mcDecode (0x10 * 2 ^ 58 + 3 * 2 ^ 54 + 2 * 2 ^ 50 + 1 * 2 ^ 46) = some (.add 3 2 1) ∧
      mcDecode (0x19 * 2 ^ 58 + 3 * 2 ^ 54 + 2 * 2 ^ 50 + 1 * 2 ^ 46 + 7 * 2 ^ 36) = some (.mul 3 2 1 7) ∧ mcDecode (0x07 * 2 ^ 58 + 4 * 2 ^ 54 + 63 * 2 ^ 40) = some (.ldc 4 63) ∧
      mcDecode (0x30 * 2 ^ 58 + 9 * 2 ^ 50 + 3 * 2 ^ 33 + 0x3FFF) = some (.br 0x3FFF 3 9) ∧ mcDecode (0x31 * 2 ^ 58) = some .stop ∧ mcDecode (0x3A * 2 ^ 58 + 3) = some (.evt 3))) ∧
    ((mcDecode (0x0B * 2 ^ 58) = none ∧ mcDecode (0x3B * 2 ^ 58) = none ∧ mcDecode (0x31 * 2 ^ 58 + 2 ^ 24) = none ∧ mcDecode 0 = some .nop)) := by
  refine ⟨?_, ?_⟩ <;> decide

/-- Microcode: saturating and flagging results at the ends of the formats. -/
theorem test_microcode_results :
    ((let s := micro (mcEncode (.add 0 2 2)) 0
      s.mcRuns 95 (.add 0 2 2) ∧ s.coefBad 95 (.add 0 2 2) = false ∧ s.cycMax 95 = 4095 ∧
      holds (exec (.mcAdd 95 0 2 2) s) (fun t => t.mx 95 0 == 8388607 && t.flag (.slot 95) F.SLSTAT_sat && (t.slot 95).cyc == 1 && (t.slot 95).pc == 1))) ∧
    (holds (exec (.mcSub 95 0 1 2) (micro (mcEncode (.sub 0 1 2)) 0)) (fun t => t.mx 95 0 == -8388608 && t.flag (.slot 95) F.SLSTAT_sat)) ∧
    (holds (exec (.mcLdi 95 15 0xFFFFFF) (micro (mcEncode (.ldi 15 0xFFFFFF)) 4093)) (fun t => t.mx 95 15 == -1 && (t.slot 95).cyc == 4094)) ∧
    (holds (exec (.mcMov 95 0 1) (micro (mcEncode (.mov 0 1)) 0)) (fun t => t.mx 95 0 == -2 && t.mx 95 1 == -2)) ∧
    (holds (exec (.mcIn 95 0 5) (micro (mcEncode (.input 0 5)) 0)) (fun t => t.mx 95 0 == 0)) ∧
    (holds (exec (.mcLds 95 0 63) (micro (mcEncode (.lds 0 63)) 0)) (fun t => t.mx 95 0 == 5 && (t.slot 95).cyc == 2)) ∧
    (holds (exec (.mcSts 95 0 2) (micro (mcEncode (.sts 0 2)) 0)) (fun t => t.mw 95 0 == 8388607)) ∧
    (holds (exec (.mcLdc 95 0 15) (micro (mcEncode (.ldc 0 15)) 0)) (fun t => t.mx 95 0 == -8388608)) ∧
    (holds (exec (.mcClp 95 0 1 15) (micro (mcEncode (.clp 0 1 15)) 0)) (fun t => t.mx 95 0 == -2)) ∧
    (holds (exec (.mcNeg 95 0 1) (micro (mcEncode (.neg 0 1)) 0)) (fun t => t.mx 95 0 == 2)) ∧
    (holds (exec (.mcAbs 95 0 1) (micro (mcEncode (.abs 0 1)) 0)) (fun t => t.mx 95 0 == 2)) ∧
    ((holds (exec (.mcMin 95 0 1 2) (micro (mcEncode (.min 0 1 2)) 0)) (fun t => t.mx 95 0 == -2) ∧
      holds (exec (.mcMax 95 0 1 2) (micro (mcEncode (.max 0 1 2)) 0)) (fun t => t.mx 95 0 == 8388607))) ∧
    ((holds (exec (.mcShl 95 0 1 15) (micro (mcEncode (.shl 0 1 15)) 0)) (fun t => t.mx 95 0 == -65536) ∧
      holds (exec (.mcShr 95 0 2 15) (micro (mcEncode (.shr 0 2 15)) 0)) (fun t => t.mx 95 0 == 256))) ∧
    ((holds (exec (.mcMul 95 0 1 2 0) (micro (mcEncode (.mul 0 1 2 0)) 0)) (fun t => t.mx 95 0 == -2) ∧
      holds (exec (.mcDiv 95 0 1 2) (micro (mcEncode (.div 0 1 2)) 0)) (fun t => t.mx 95 0 == -2 && (t.slot 95).cyc == 12) ∧
      holds (exec (.mcDiv 95 0 1 0) (micro (mcEncode (.div 0 1 0)) 0)) (fun t => t.mx 95 0 == -8388608 && t.flag (.slot 95) F.SLSTAT_sat))) ∧
    ((holds (exec (.mcLda 95 0 1) (micro (mcEncode (.lda 0 1)) 0)) (fun t => t.ma 95 0 == -16777216) ∧
      holds (exec (.mcLdsa 95 0 31) (micro (mcEncode (.ldsa 0 31)) 0)) (fun t => t.ma 95 0 == 5 * 16777216) ∧
      holds (exec (.mcStsa 95 31 3) (micro (mcEncode (.stsa 31 3)) 0)) (fun t => t.mw 95 62 == -1 && t.mw 95 63 == -1))) ∧
    ((holds (exec (.mcClr 95 3) (micro (mcEncode (.clr 3)) 0)) (fun t => t.ma 95 3 == 0) ∧
      holds (exec (.mcMac 95 3 1 15) (micro (mcEncode (.mac 3 1 15)) 0)) (fun t => t.ma 95 3 == 16777215) ∧
      holds (exec (.mcMsu 95 3 1 15) (micro (mcEncode (.msu 3 1 15)) 0)) (fun t => t.ma 95 3 == -16777217) ∧
      holds (exec (.mcMacx 95 3 1 1) (micro (mcEncode (.macx 3 1 1)) 0)) (fun t => t.ma 95 3 == 3) ∧
      holds (exec (.mcAdda 95 3 3) (micro (mcEncode (.adda 3 3)) 0)) (fun t => t.ma 95 3 == -2) ∧
      holds (exec (.mcRnd 95 0 3 15) (micro (mcEncode (.rnd 0 3 15)) 0)) (fun t => t.mx 95 0 == 0))) ∧
    ((holds (exec (.mcFf 95 0) (micro (mcEncode (.ff 0)) 0)) (fun t => t.mx 95 0 == 8388607 && t.flag (.slot 95) F.SLSTAT_sat) ∧
      holds (exec (.mcInj 95 0) (micro (mcEncode (.inj 0)) 0)) (fun t => t.mx 95 0 == 0) ∧
      holds (exec (.mcNop 95) (micro (mcEncode .nop) 4093)) (fun t => (t.slot 95).cyc == 4094 && t.slState 95 == 2))) := by
  refine ⟨?_, ?_, ?_, ?_, ?_, ?_, ?_, ?_, ?_, ?_, ?_, ?_, ?_, ?_, ?_, ?_, ?_⟩ <;> decide

/-- Microcode: branches, outputs, events, the ends of a sample and the faults. -/
theorem test_microcode_control :
    ((holds (exec (.mcBr 95 0x3FFF 3 1) (micro (mcEncode (.br 0x3FFF 3 1)) 4092)) (fun t => (t.slot 95).pc == 0x3FFF && (t.slot 95).cyc == 4094) ∧
      holds (exec (.mcBr 95 0x3FFF 5 1) (micro (mcEncode (.br 0x3FFF 5 1)) 0)) (fun t => (t.slot 95).pc == 1 && (t.slot 95).cyc == 1))) ∧
    (holds (exec (.mcOut 95 1 2) ((micro (mcEncode (.out 1 2)) 0).wr (.slot 95) F.SLOUT_o1 (4 * 256))) (fun t =>
       t.lastOut 95 1 == 8388607 && t.rd .spindle F.SPTCMD_torque == 32767)) ∧
    (holds (exec (.mcEvt 95 3) (micro (mcEncode (.evt 3)) 0)) (fun t => t.event (.slot 95) 11)) ∧
    (holds (exec (.mcEnd 95) (micro (mcEncode .stop) 4094)) (fun t => t.slState 95 == 1 && t.counter 175 == 1 && t.rd (.slot 95) F.SLMAXCYC_max == 4095)) ∧
    ((holds (exec (.mcFault 95) (micro (mcEncode .fault) 4094)) (fun t => t.slState 95 == 4 && t.rd (.slot 95) F.SLSTAT_cause == 1) ∧
      holds (exec (.mcFault 95) (micro (mcEncode .fault) 4095)) (fun t => t.slState 95 == 4 && t.rd (.slot 95) F.SLSTAT_cause == 4) ∧
      holds (exec (.mcNop 95) (micro (mcEncode .nop) 4094)) (fun t => t.rd (.slot 95) F.SLSTAT_cause == 4))) ∧
    ((holds (exec (.mcLdc 95 0 16) (micro (mcEncode (.ldc 0 16)) 0)) (fun t => t.rd (.slot 95) F.SLSTAT_cause == 3) ∧
      holds (exec (.mcIllegalInstruction 95) (micro (0x0B * 2 ^ 58) 0)) (fun t => t.rd (.slot 95) F.SLSTAT_cause == 3 && t.event (.slot 95) 1) ∧
      holds (exec (.mcNop 95) (slot95 1 0 SlotSt.none)) (fun t => t == slot95 1 0 SlotSt.none))) := by
  refine ⟨?_, ?_, ?_, ?_, ?_, ?_⟩ <;> decide

/-- Core `c` running at pc 16 of its SRAM, where the word `w` stands, with g1 = 0x80000000, g2 = 7, g3 = 0xFFFFFFFF, g4 = 0x102 and g5 = 0x104. -/
def onCore (c w : Nat) : State :=
  ((s0.wr (coreUnit c) F.USTAT_state 3).updCore c (fun k => { k with
    pc := 16, g := [(1, 0x80000000), (2, 7), (3, 0xFFFFFFFF), (4, 0x102), (5, 0x104)] })).storeLE (sramBase c + 16) 4 w

/-- `onCore` with the word of an instruction. -/
def coreAt (c : Nat) (i : FInstr) : State := onCore c (flerEncode i)

/-- What the pipeline shows of an instruction without event. -/
def calm : Pipe := ⟨1, 4, 4, false, false, .none, []⟩

/-- The word fetched at the pc. -/
def fetched (s : State) (c : Nat) : Option Nat :=
  match s.fetchAt c .none (s.core c).pc with
  | .word _ w _ _ => some w
  | _ => none

/-- The instruction of core 0 leaves `v` in `rd` and g0 zero, with pc 20. -/
def gives (i : Instr) (f : FInstr) (rd v : Nat) : Bool :=
  (coreAt 0 f).coreRuns 0 && fetched (coreAt 0 f) 0 == some (flerEncode f) &&
    holds (exec i (coreAt 0 f)) (fun t => t.greg 0 rd == v && t.greg 0 0 == 0 && (t.core 0).pc == 20)

/-- The instruction of core `c` in `s` traps at depth 0 with `code` and `val`. -/
def traps (i : Instr) (s : State) (c code val : Nat) : Bool :=
  holds (exec i s) (fun t => (t.core c).depth == 1 && !(t.core c).ien && t.creg c 1 == 16 && t.creg c 2 == code && t.creg c 3 == val)

/-- WordsDecode: words written out by hand from the formats of R280 and the tables of R282 to R293. -/
theorem test_words_of_the_spec :
    ((flerDecode (0x00 * 2 ^ 26 + 3 * 2 ^ 21 + 2 * 2 ^ 16 + 1 * 2 ^ 11) = some (.alu .add 3 2 1) ∧
      flerDecode (0x00 * 2 ^ 26 + 31 * 2 ^ 21 + 30 * 2 ^ 16 + 29 * 2 ^ 11 + 1) = some (.alu .sub 31 30 29) ∧ flerDecode 0xFFFFFFFF = none)) := by
  decide

/-- FleranArithmetic: each operation at the ends of its operands (g1 = 0x80000000, g2 = 7, g3 = −1). -/
theorem test_fleran_arithmetic :
    ((gives (.add 0 calm 6 3 2) (.alu .add 6 3 2) 6 6 ∧ gives (.sub 0 calm 6 2 3) (.alu .sub 6 2 3) 6 8 ∧ gives (.and 0 calm 6 1 3) (.alu .and 6 1 3) 6 0x80000000 ∧
      gives (.or 0 calm 0 1 2) (.alu .or 0 1 2) 0 0 ∧ gives (.xor 0 calm 6 3 2) (.alu .xor 6 3 2) 6 0xFFFFFFF8 ∧ gives (.andn 0 calm 6 3 2) (.alu .andn 6 3 2) 6 0xFFFFFFF8)) ∧
    ((gives (.sll 0 calm 6 3 2) (.alu .sll 6 3 2) 6 0xFFFFFF80 ∧ gives (.srl 0 calm 6 1 3) (.alu .srl 6 1 3) 6 1 ∧ gives (.sra 0 calm 6 1 2) (.alu .sra 6 1 2) 6 0xFF000000 ∧
      gives (.clt 0 calm 6 1 2) (.alu .clt 6 1 2) 6 1 ∧ gives (.cltu 0 calm 6 1 2) (.alu .cltu 6 1 2) 6 0)) ∧
    ((gives (.mul 0 calm 6 3 3) (.alu .mul 6 3 3) 6 1 ∧ gives (.mulh 0 calm 6 1 2) (.alu .mulh 6 1 2) 6 0xFFFFFFFC ∧ gives (.mulhu 0 calm 6 3 3) (.alu .mulhu 6 3 3) 6 0xFFFFFFFE ∧
      gives (.div 0 calm 6 1 3) (.alu .div 6 1 3) 6 0x80000000 ∧ gives (.div 0 calm 6 1 0) (.alu .div 6 1 0) 6 0xFFFFFFFF ∧ gives (.divu 0 calm 6 1 2) (.alu .divu 6 1 2) 6 306783378)) ∧
    ((gives (.rem 0 calm 6 1 2) (.alu .rem 6 1 2) 6 0xFFFFFFFE ∧ gives (.rem 0 calm 6 1 3) (.alu .rem 6 1 3) 6 0 ∧ gives (.remu 0 calm 6 2 0) (.alu .remu 6 2 0) 6 7 ∧
      gives (.clz 0 calm 6 2) (.alu .clz 6 2 0) 6 29 ∧ gives (.clz 0 calm 6 0) (.alu .clz 6 0 0) 6 32 ∧ gives (.popc 0 calm 6 3) (.alu .popc 6 3 0) 6 32 ∧
      gives (.bswap 0 calm 6 4) (.alu .bswap 6 4 0) 6 0x02010000)) ∧
    ((gives (.addi 0 calm 6 2 0xFFFF) (.imm .addi 6 2 0xFFFF) 6 6 ∧ gives (.andi 0 calm 6 3 0xFFFF) (.imm .andi 6 3 0xFFFF) 6 0xFFFF ∧
      gives (.ori 0 calm 6 1 0xFFFF) (.imm .ori 6 1 0xFFFF) 6 0x8000FFFF ∧ gives (.xori 0 calm 6 2 7) (.imm .xori 6 2 7) 6 0 ∧
      gives (.clti 0 calm 6 1 0xFFFF) (.imm .clti 6 1 0xFFFF) 6 1 ∧ gives (.cltiu 0 calm 6 1 0xFFFF) (.imm .cltiu 6 1 0xFFFF) 6 1)) ∧
    ((gives (.shi 0 calm 2 6 1 31) (.shi 2 6 1 31) 6 0xFFFFFFFF ∧ gives (.shi 0 calm 1 6 1 31) (.shi 1 6 1 31) 6 1 ∧ gives (.ldhi 0 calm 6 0xFFFF) (.ldhi 6 0xFFFF) 6 0xFFFF0000 ∧
      gives (.addpch 0 calm 6 1) (.addpch 6 1) 6 0x10010 ∧ gives (.pref 0 calm 2 0) (.pref 2 0) 2 7 ∧ gives (.rdc 0 calm 6 15) (.rdc 6 15) 6 ((coreAt 0 .halt).creg 0 15))) ∧
    ((holds (exec (.wrc 8 calm 3 7) (coreAt 8 (.wrc 3 7))) (fun t => t.creg 8 7 == 0xFFFFFE00) ∧ holds (exec (.wrc 8 calm 3 0) (coreAt 8 (.wrc 3 0))) (fun t => (t.core 8).ien) ∧
      holds (exec (.wrc 8 calm 3 15) (coreAt 8 (.wrc 3 15))) (fun t => (t.core 8).ctl.isEmpty) ∧
      holds (exec (.stamp 8 calm 30) { coreAt 8 (.stamp 30) with time := { s0.time with ns := 2 ^ 32 + 5 } }) (fun t => t.greg 8 30 == 5 && t.greg 8 31 == 1))) := by
  refine ⟨?_, ?_, ?_, ?_, ?_, ?_, ?_⟩ <;> decide

/-- FleranMemory: loads that extend, stores, atomics, and the traps of a misaligned or absent place. -/
theorem test_fleran_memory :
    ((let s := (coreAt 0 (.load .lh 6 4 0)).storeLE (sramBase 0 + 0x102) 2 0x8001
      fetched s 0 = some (flerEncode (.load .lh 6 4 0)) ∧ s.place 0 0x102 = .own (sramBase 0 + 0x102) ∧
      holds (exec (.lh 0 calm 6 4 0) s) (fun t => t.greg 0 6 == 0xFFFF8001 && (t.core 0).pc == 20))) ∧
    ((holds (exec (.lhu 0 calm 6 4 0) ((coreAt 0 (.load .lhu 6 4 0)).storeLE (sramBase 0 + 0x102) 2 0x8001)) (fun t => t.greg 0 6 == 0x8001) ∧
      holds (exec (.lb 0 calm 6 4 0) ((coreAt 0 (.load .lb 6 4 0)).storeLE (sramBase 0 + 0x102) 1 0x80)) (fun t => t.greg 0 6 == 0xFFFFFF80) ∧
      holds (exec (.lbu 0 calm 6 4 0xFFFF) ((coreAt 0 (.load .lbu 6 4 0xFFFF)).storeLE (sramBase 0 + 0x101) 1 0x80)) (fun t => t.greg 0 6 == 0x80) ∧
      holds (exec (.lw 0 calm 6 5 0) ((coreAt 0 (.load .lw 6 5 0)).storeLE (sramBase 0 + 0x104) 4 0x80000001)) (fun t => t.greg 0 6 == 0x80000001) ∧
      holds (exec (.lwu 0 calm 6 5 0) ((coreAt 0 (.load .lwu 6 5 0)).storeLE (sramBase 0 + 0x104) 4 0x80000001)) (fun t => t.greg 0 6 == 0x80000001))) ∧
    ((traps (.lw 0 calm 6 4 0) (coreAt 0 (.load .lw 6 4 0)) 0 6 0x102 ∧ (coreAt 0 .halt).place 0 0x80000000 = .none ∧
      traps (.lw 0 calm 6 1 0) (coreAt 0 (.load .lw 6 1 0)) 0 7 0x80000000)) ∧
    ((holds (exec (.sb 0 calm 3 4 0) (coreAt 0 (.store .sb 3 4 0))) (fun t => t.readLE (sramBase 0 + 0x100) 4 == 0xFF0000) ∧
      holds (exec (.sh 0 calm 3 4 0) (coreAt 0 (.store .sh 3 4 0))) (fun t => t.readLE (sramBase 0 + 0x100) 4 == 0xFFFF0000) ∧
      holds (exec (.sw 0 calm 3 5 0) (coreAt 0 (.store .sw 3 5 0))) (fun t => t.readLE (sramBase 0 + 0x100) 8 == 0xFFFFFFFF00000000))) ∧
    ((traps (.sw 0 calm 3 4 0) (coreAt 0 (.store .sw 3 4 0)) 0 6 0x102 ∧
      (let s := ((coreAt 0 (.store .sw 3 1 0)).wr .keeper (F.kc 0 (F.KCAP_valid 0)) 1).wr .keeper (F.kc 0 (F.KCAP_cacheable 0)) 1
       s.place 0 0x80000000 = .cached 0 false ∧ traps (.sw 0 calm 3 1 0) s 0 8 0x80000000))) ∧
    ((holds (exec (.swap 0 calm 6 5 3) (coreAt 0 (.amo .swap 6 5 3))) (fun t => t.greg 0 6 == 0 && t.readLE (sramBase 0 + 0x104) 4 == 0xFFFFFFFF) ∧
      holds (exec (.amoadd 0 calm 6 5 2) ((coreAt 0 (.amo .amoadd 6 5 2)).storeLE (sramBase 0 + 0x104) 4 0xFFFFFFFF)) (fun t =>
        t.greg 0 6 == 0xFFFFFFFF && t.readLE (sramBase 0 + 0x104) 4 == 6) ∧
      holds (exec (.amoand 0 calm 6 5 2) ((coreAt 0 (.amo .amoand 6 5 2)).storeLE (sramBase 0 + 0x104) 4 12)) (fun t => t.readLE (sramBase 0 + 0x104) 4 == 4) ∧
      holds (exec (.amoor 0 calm 6 5 2) ((coreAt 0 (.amo .amoor 6 5 2)).storeLE (sramBase 0 + 0x104) 4 12)) (fun t => t.readLE (sramBase 0 + 0x104) 4 == 15))) ∧
    ((holds (exec (.cas 0 calm 2 5 3) ((coreAt 0 (.amo .cas 2 5 3)).storeLE (sramBase 0 + 0x104) 4 7)) (fun t => t.readLE (sramBase 0 + 0x104) 4 == 0xFFFFFFFF && t.greg 0 2 == 7) ∧
      holds (exec (.cas 0 calm 2 5 3) ((coreAt 0 (.amo .cas 2 5 3)).storeLE (sramBase 0 + 0x104) 4 8)) (fun t => t.readLE (sramBase 0 + 0x104) 4 == 8 && t.greg 0 2 == 8) ∧
      traps (.swap 0 calm 6 4 3) (coreAt 0 (.amo .swap 6 4 3)) 0 6 0x102)) ∧
    ((let s := (coreAt 0 (.amo .swap 6 7 3)).updCore 0 (fun k => { k with g := [(7, 0x400000)] })
      s.place 0 0x400000 = .window 0 ∧ traps (.swap 0 calm 6 7 3) s 0 8 0x400000)) := by
  refine ⟨?_, ?_, ?_, ?_, ?_, ?_, ?_, ?_⟩ <;> decide

/-- FleranControl: branches taken and not, links, traps at depth 0 and 2, the return, invalidations and the halt. -/
theorem test_fleran_control :
    ((holds (exec (.beq 0 calm 2 2 0xFFFF) (coreAt 0 (.branch .beq 2 2 0xFFFF))) (fun t => (t.core 0).pc == 12) ∧
      holds (exec (.bne 0 calm 2 2 9) (coreAt 0 (.branch .bne 2 2 9))) (fun t => (t.core 0).pc == 20) ∧
      holds (exec (.blt 0 calm 1 2 9) (coreAt 0 (.branch .blt 1 2 9))) (fun t => (t.core 0).pc == 52) ∧
      holds (exec (.bge 0 calm 1 2 9) (coreAt 0 (.branch .bge 1 2 9))) (fun t => (t.core 0).pc == 20) ∧
      holds (exec (.bltu 0 calm 1 2 9) (coreAt 0 (.branch .bltu 1 2 9))) (fun t => (t.core 0).pc == 20) ∧
      holds (exec (.bgeu 0 calm 1 2 9) (coreAt 0 (.branch .bgeu 1 2 9))) (fun t => (t.core 0).pc == 52))) ∧
    ((holds (exec (.j 0 calm 0x3FFFFFF) (coreAt 0 (.j 0x3FFFFFF))) (fun t => (t.core 0).pc == 12) ∧
      holds (exec (.jal 0 calm 1) (coreAt 0 (.jal 1))) (fun t => (t.core 0).pc == 20 && t.greg 0 31 == 20) ∧
      holds (exec (.jalr 0 calm 4 4 1) (coreAt 0 (.jalr 4 4 1))) (fun t => (t.core 0).pc == 0x100 && t.greg 0 4 == 20))) ∧
    ((holds (exec (.trap 0 calm 0xFFFF) (coreAt 0 (.trap 0xFFFF))) (fun t => (t.core 0).depth == 1 && t.creg 0 1 == 20 && t.creg 0 2 == 5 && t.creg 0 3 == 0xFFFF && (t.core 0).pc == 0x40) ∧
      holds (exec (.trap 0 calm 1) ((coreAt 0 (.trap 1)).updCore 0 (fun k => { k with depth := 2 }))) (fun t =>
        t.flag (.core 0) F.CSTAT_doublefault && t.rd (.core 0) F.USTAT_state == 5 && (t.core 0).pc == 16))) ∧
    ((traps (.tret 0 calm) (coreAt 0 .tret) 0 3 (flerEncode .tret) ∧
      holds (exec (.tret 0 calm) ((coreAt 0 .tret).updCore 0 (fun k => { k with depth := 1, ctl := [(1, 0x47), (2, 0x200)] }))) (fun t =>
        (t.core 0).pc == 0x44 && (t.core 0).ien && (t.core 0).depth == 0))) ∧
    ((fetched (onCore 0 0xF2600000) 0 = some 0xF2600000 ∧ traps (.illegalInstruction 0 calm) (onCore 0 0xF2600000) 0 3 0xF2600000)) ∧
    ((holds (exec (.inv 0 calm 0) (coreAt 0 (.inv 0))) (fun t => (t.core 0).l1i.isEmpty) ∧ holds (exec (.inv 0 calm 1) (coreAt 0 (.inv 1))) (fun t => (t.core 0).l1d.isEmpty) ∧
      holds (exec (.inv 8 calm 2) { coreAt 8 (.inv 2) with l2 := ⟨[], [5]⟩ }) (fun t => t.l2 == ⟨[], []⟩) ∧
      traps (.inv 0 calm 2) (coreAt 0 (.inv 2)) 0 4 (flerEncode (.inv 2)))) ∧
    (holds (exec (.halt 8 calm) (coreAt 8 .halt)) (fun t => t.flag .keeper F.CSTAT_halted && t.event .keeper 2 && !t.coreRuns 8)) := by
  refine ⟨?_, ?_, ?_, ?_, ?_, ?_, ?_⟩ <;> decide

/-- FleranVerbs: POST, TAKE and GIVE with each code they can give, events, waits and their ends, an interrupt and a fetch fault. -/
theorem test_fleran_verbs :
    ((holds (exec (.post 0 calm 6 0 8) (coreAt 0 (.post 6 0 8))) (fun t => t.greg 0 6 == 2) ∧
      holds (exec (.take 0 calm 6 0 127) (coreAt 0 (.take 6 0 127))) (fun t => t.greg 0 6 == 2) ∧
      holds (exec (.give 0 calm 6 0 127) (coreAt 0 (.give 6 0 127))) (fun t => t.greg 0 6 == 2))) ∧
    ((let s : State := { coreAt 0 (.take 6 0 66) with hc := { s0.hc with qcores := [(66, 1)] } }
      s.mayTake 0 66 ∧ holds (exec (.take 0 calm 6 0 66) s) (fun t => t.greg 0 6 == 1))) ∧
    ((let s : State := { coreAt 0 (.give 6 0 64) with hc := { s0.hc with qcores := [(64, 1)] } }
      holds (exec (.give 0 calm 6 0 64) s) (fun t => t.greg 0 6 == 0))) ∧
    ((postWords 3 ≠ 0 ∧ holds (exec (.post 0 calm 6 0 3) (coreAt 0 (.post 6 0 3))) (fun t => t.greg 0 6 == 0 && t.tb.dataQ.length ≤ 1))) ∧
    ((holds (exec (.raise 8 calm 7) (coreAt 8 (.raise 7))) (fun t => t.event .keeper 15) ∧ holds (exec (.fence 0 calm) (coreAt 0 .fence)) (fun t => (t.core 0).pc == 20))) ∧
    (((coreAt 0 (.wait 6 0 2 2)).waitHolds 0 ⟨2, 0, 7, 6⟩ ∧ holds (exec (.wait 0 calm 6 0 2 2) (coreAt 0 (.wait 6 0 2 2))) (fun t => t.greg 0 6 == 0 && t.coreRuns 0) ∧
      holds (exec (.wait 0 calm 6 2 3 0) (coreAt 0 (.wait 6 2 3 0))) (fun t => (t.core 0).wait == some ⟨0, 7, 0xFFFFFFFF, 6⟩ && !t.coreRuns 0) ∧
      holds (exec (.yield 0 calm 0) (coreAt 0 (.yield 0))) (fun t => (t.core 0).wait == some ⟨3, 1, 0, 0⟩))) ∧
    ((let s (w : CWait) (ctl : Tbl Nat) := (coreAt 0 .fence).updCore 0 (fun k => { k with wait := some w, ctl := ctl })
      (s ⟨2, 0, 0, 6⟩ []).coreOn 0 ∧ (s ⟨2, 0, 0, 6⟩ []).waitHolds 0 ⟨2, 0, 0, 6⟩ ∧
      holds (exec (.waitWake 0 9) (s ⟨2, 0, 0, 6⟩ [])) (fun t => (t.core 0).wait == none && t.greg 0 6 == 0) ∧
      holds (exec (.waitTimeout 0 9) (s ⟨0, 1, 0, 6⟩ [(12, 9)])) (fun t => (t.core 0).wait == none && t.greg 0 6 == 1) ∧
      holds (exec (.yieldEnd 0 9) (s ⟨3, 9, 0, 0⟩ [])) (fun t => (t.core 0).wait == none))) ∧
    ((let s : State := { (((laned.wr .time F.EVRAW 1).wr .time F.EVENA 1).wr .keeper F.USTAT_state 3).updCore 8 (fun k => { k with
        ien := true, pc := 8, ctl := [(7, 0x200), (9, 2)], wait := some ⟨0, 1, 1, 6⟩ }) with
          lanes := ⟨[(2, ⟨true, 33⟩)], [(33, ⟨false, 64, true, 256⟩)], [(33, true)]⟩ }
      (s.pendFor 8 &&& (s.creg 8 9 * 2 ^ 32 + s.creg 8 8) ≠ 0) ∧ s.coreOn 8 = true ∧ holds (exec (.interrupt 8 3) s) (fun t =>
        (t.core 8).depth == 1 && t.creg 8 1 == 8 && t.creg 8 2 == 784 && (t.core 8).pc == 0x280 && t.greg 8 6 == 2) = true)) ∧
    ((let s := (coreAt 0 .fence).updCore 0 (fun k => { k with pc := 0x80000000 })
      s.place 0 0x80000000 = .none ∧ holds (exec (.instructionFetchFault 0 calm false) s) (fun t => t.creg 0 1 == 0x80000000 && t.creg 0 2 == 1 && t.creg 0 3 == 0x80000000))) := by
  refine ⟨?_, ?_, ?_, ?_, ?_, ?_, ?_, ?_, ?_⟩ <;> decide

/-- The time unit in state `st`, steps forbidden, TIMENS at `ns`, the next edge expected at `x`. -/
def timed (st ns : Nat) (x : Option Int) : State :=
  { ((s0.wr .time F.TMSTAT_state st).wr .time F.TMCFG_allowstep 0) with time := { s0.time with ns := ns, expect := x } }

/-- Job core 7 with a job table entry, having faulted at the times listed. -/
def jobCore (ts : List Nat) : State :=
  ({ s0 with recs := { s0.recs with jobs := [(112, 3)] }, time := { s0.time with ns := 70000000000 } } : State).updCore 7 (fun k => { k with faults := ts })

/-- CoreControl: reset, start, hold, sampling with its seeds, and the third heartbeat fault. -/
theorem test_core_control :
    ((may s0 .keeper .keeper (0x100 + 0x40 * 7) ∧ holds (exec (.coreReset .keeper 7 2) (coreAt 7 .halt)) (fun t =>
       t.rd (.core 7) F.USTAT_state == 0 && !t.coreRuns 7))) ∧
    (holds (exec (.coreRun .keeper 7 1) ((s0.wr (.core 7) F.USTAT_state 2).wr .keeper (F.kc 7 F.KCSTART_start) 5)) (fun t =>
       t.rd (.core 7) F.USTAT_state == 3 && (t.core 7).pc == 20 && t.flag .keeper (F.kc 7 F.KCCTRL_run))) ∧
    (holds (exec (.coreHold .keeper 7 5) (coreAt 7 .halt)) (fun t => !t.coreRuns 7 && t.flag .keeper (F.kc 7 F.KCCTRL_hold))) ∧
    ((may s0 .keeper .keeper 0x60 ∧ holds (exec (.samplingEnable .keeper 8 1) s0) (fun t =>
       t.flag .keeper F.CSMPCTL_enable && (t.core 8).lfsr == smpNext 0x5A && (t.core 8).down == s0.smpN 8 - 128 + smpNext 0x5A))) ∧
    (((jobCore []).job 7 0 ≠ 255 ∧ ((jobCore []).core 7).dead = false ∧
      ((jobCore [9999999999, 10000000001]).core 7).faults.filter (fun t => decide ((jobCore []).time.ns < t + 60000000000)) = [10000000001] ∧
      holds (exec (.heartbeatTimeout 7 true) (jobCore [10000000001, 20000000000])) (fun t => t.event .keeper 17))) := by
  exact ⟨by decide +kernel, by decide +kernel, by decide +kernel, by decide, by decide⟩

/-- TimeTriggersAndTimecode: an edge in each state at the limits of its windows, loads, the rate, triggers and the strobe. -/
theorem test_time_triggers_timecode :
    ((s0.flag .time F.TMCFG_edge = false ∧ holds (exec (.ppsEdge true 50) (timed 1 1050 none)) (fun t => t.time.cand == some 1000 && t.rd .time F.TMSTAT_state == 1))) ∧
    ((let s : State := { timed 1 1000101050 none with time := { s0.time with ns := 1000101050, cand := some 1000 } }
      s.mustStep (captureError 1000000000 1000101000) = false ∧
      holds (exec (.ppsEdge true 50) s) (fun t => t.rd .time F.TMSTAT_state == 2 && t.time.expect == some 2000101000) ∧
      holds (exec (.ppsEdge true 49) s) (fun t => t.time == s.time))) ∧
    ((let s : State := { timed 1 1000101051 none with time := { s0.time with ns := 1000101051, cand := some 1000 } }
      holds (exec (.ppsEdge true 50) s) (fun t => t.rd .time F.TMSTAT_state == 1 && t.time.cand == some 1000101001) = true)) ∧
    ((let w := s0.rd .time F.TMPPSCFG_win * 100
      let s : State := { timed 2 (1000000050 + w) (some 1000000000) with time := { s0.time with ns := 1000000050 + w, expect := some 1000000000, okRun := 3 } }
      s.mustStep (captureError 1000000000 (1000000000 + w)) = false ∧ holds (exec (.ppsEdge true 50) s) (fun t =>
        t.time.expect == some (2000000000 + w : Int) && t.counter 195 == 1 && t.rd .time F.TMSTAT_misses == 0))) ∧
    (holds (exec (.ppsEdge true 50) { timed 2 1000000050 none with time := { s0.time with ns := 1000000050, expect := some 1000000000, okRun := 3 } }) (fun t =>
       t.rd .time F.TMSTAT_state == 3 && t.event .time 1 && t.rd .time F.TMERR_error == 0)) ∧
    ((let w := s0.rd .time F.TMPPSCFG_win * 100 + 1
      holds (exec (.ppsEdge true 50) (timed 4 (1000000050 + w) (some 1000000000))) (fun t => t.event .time 4 && t.rd .time F.TMSTAT_state == 4))) ∧
    ((holds (exec .ppsMissing (timed 3 9 (some 5))) (fun t => t.rd .time F.TMSTAT_state == 4 && t.event .time 3 && t.event .time 2) ∧
      holds (exec .ppsMissing { timed 4 9 none with time := { s0.time with missRun := 63, expect := some 5 } }) (fun t => t.rd .time F.TMSTAT_state == 1) ∧
      holds (exec .ppsMissing { timed 4 9 none with time := { s0.time with missRun := 62, expect := some 5 } }) (fun t => t.rd .time F.TMSTAT_state == 4) ∧
      holds (exec .ppsMissing (timed 1 9 none)) (fun t => t == timed 1 9 none))) ∧
    ((may s0 .keeper .time 0x50 ∧ holds (exec (.timeLoadNow .keeper) (((s0.wr .time F.TMCFG_allowstep 1).wr .time F.TMSETHI_set_hi 1).wr .time F.TMSETLO_set_lo 2)) (fun t =>
       t.time.ns == 2 ^ 32 + 2 && t.event .time 5))) ∧
    ((holds (exec (.timeLoadAtEdge .keeper) (s0.wr .time F.TMCFG_allowstep 1)) (fun t => t.flag .time F.TMSTAT_armed) ∧
      holds (exec (.timeLoadAtEdge .keeper) (s0.wr .time F.TMCFG_allowstep 0)) (fun t =>
        !t.flag .time F.TMSTAT_armed && t.flag .time F.TMSTAT_refused && crumbed t 0 0 UnitId.time.number 3 0x1150 2) ∧
      holds (exec (.timeLoadCancel .host) (s0.wr .time F.TMSTAT_armed 1)) (fun t => !t.flag .time F.TMSTAT_armed))) ∧
    ((may s0 .keeper .time 0x6C ∧ holds (exec (.tmrateWrite .keeper 0x80000000) s0) (fun t => t.rate == -25600000 && t.time.integ == -25600000))) ∧
    ((let s := (timed 0 100 none).wr .time (F.TRGCFG_enable 3) 1
      edgeSelected (s.rd .time (F.TRGCFG_edge 3)) true ∧ max 1 (s.rd .time (F.TRGCFG_filter 3)) * 10 = 100 ∧
      holds (exec (.triggerEdge 3 true 100) s) (fun t => t.flag .time (F.TRGSTAT_pending 3) && t.event .time 11) ∧
      holds (exec (.triggerEdge 3 true 99) s) (fun t => t == s) ∧
      holds (exec (.triggerEdge 3 true 100) (s.wr .time (F.TRGSTAT_pending 3) 1)) (fun t => t.event .time 12 && t.rd .time (F.TRGSTAT_dropped 3) == 1))) ∧
    ((may s0 .keeper .time 0xC0 ∧ holds (exec (.trgackWrite .keeper 8) ((s0.wr .time (F.TRGSTAT_pending 3) 1).wr .time (F.TRGSTAT_pending 0) 1)) (fun t =>
       !t.flag .time (F.TRGSTAT_pending 3) && t.flag .time (F.TRGSTAT_pending 0)))) ∧
    ((may s0 .keeper .time 0xD8 ∧ holds (exec (.tcepochhiWrite .keeper 3) s0) (fun t => t.tc.armed && t.rd .time F.TCEPOCHHI_epoch_hi == 3))) ∧
    ((let s : State := { ((s0.wr .time F.TCRATE_num 25).wr .time F.TCRATE_den 1).wr .time F.TCBASE_base (2 ^ 31 + 0x23595924) with tc := { s0.tc with armed := true } }
      tcSetOk (2 ^ 31 + 0x23595924) 25 = true ∧ holds (exec .windowStartStrobe s) (fun t => t.tc.base == 2 ^ 31 + 0x23595924 && !t.tc.armed))) ∧
    ((let s : State := { ((s0.wr .time F.TCRATE_num 25).wr .time F.TCRATE_den 1).wr .time F.TCBASE_base (2 ^ 31 + 0x23595925) with tc := { s0.tc with armed := true } }
      tcSetOk (2 ^ 31 + 0x23595925) 25 = false ∧ holds (exec .windowStartStrobe s) (fun t => t.tc.base == 0 && t.event .time 13))) ∧
    ((holds (exec .windowStartStrobe { s0 with tc := { s0.tc with base := 2 ^ 31 + 0x24, epoch := 9 }, time := { s0.time with ns := 8 } }) (fun t =>
        t.tc.stampTc == 2 ^ 31 + 0x24 && t.tc.stampNs == 8) ∧ holds (exec .windowStartStrobe s0) (fun t => t.tc.stampTc == 0))) := by
  refine ⟨?_, ?_, ?_, ?_, ?_, ?_, ?_, ?_, ?_, ?_, ?_, ?_, ?_, ?_, ?_, ?_⟩ <;> decide

/-- IndexAndMarks and IdleIsOneTick: the pass at its ends, a sled's ratio and sign, a missed mark, and a tick. -/
theorem test_index_marks_idle :
    ((let s := ((s0.wr (.head 0) F.HSEQSTAT_state 2).wr (.head 0) F.HSEQSTAT_group 11775).wr (.stepper 0) F.STGCFG_auto 1
      outward 0 0 = true ∧ holds (exec .index s) (fun t => t.rd (.head 0) F.HSEQSTAT_group == 11775 && t.rd (.stepper 0) F.STSTAT_gsign == 1 && t.counter 193 == 1))) ∧
    ((let s := ((s0.wr (.head 1) F.HSEQSTAT_state 2).wr (.head 1) F.HSEQSTAT_group 7).wr (.stepper 1) F.STGCFG_auto 1
      outward 0 1 = false ∧ holds (exec .index s) (fun t => t.rd (.head 1) F.HSEQSTAT_group == 6 && t.rd (.stepper 1) F.STSTAT_gsign == 3))) ∧
    ((let s : State := { ((((s0.wr (.head 3) F.HCLKSTAT_locked 1).wr (.stepper 3) F.STCTRL_mode 2).wr (.stepper 3) F.STCTRL_enable 1).wr (.stepper 3) F.STSTAT_gsign 3) with
        gear := [(96, 5)], bg := { s0.bg with loaded := [(3, (1, 0, 0))] } }
      holds (exec (.clockMark (some 3) false) s) (fun t => t.rd (.stepper 3) F.STPOS_pos == 2 ^ 32 - 1 && (t.stp 3).frac == 2 ^ 34 - 5))) ∧
    (holds (exec (.clockMark (some 3) true) (s0.wr (.head 3) F.HCLKSTAT_missing 65535)) (fun t => t.rd (.head 3) F.HCLKSTAT_missing == 65535)) ∧
    ((s0.pending = [] ∧ holds (step s0) (fun t => t.time.ns == 8 && t.time.frac == 0) ∧
      holds (step (s0.wr .time F.TMRATE_rate (2 ^ 32 - 25600000))) (fun t => t.time.ns == 7) ∧
      holds (step { s0 with pw := { s0.pw with clocked := false } }) (fun t => t.time.ns == 8))) := by
  exact ⟨by decide +kernel, by decide +kernel, by decide, by decide, by decide⟩

/-- The stock recorder at level 2 on an open cartridge. -/
def recording : State := { (s0.wr .power F.PWSTART_level 2) with rcd := { s0.rcd with cart := 2 } }

/-- Trigger input 3 pending with action `a` by override. -/
def triggered (a : Nat) : State :=
  { (recording.wr .time (F.TRGSTAT_pending 3) 1).wr .time (F.TRGTLO_time_lo 3) 77 with rcd := { recording.rcd with trigOver := [(3, a + 1)] } }

/-- A lead-in table that passes. -/
def leadOk : LeadIn := ⟨pm4, 0x100, 0, 16, 5, 0, [9], [3], [], []⟩

/-- A cartridge whose discs all carry `leadOk`. -/
def blankCartridge : Cartridge := ⟨[some leadOk, some leadOk, some leadOk, some leadOk], 1024, false, [], []⟩

/-- `blankCartridge` on the spindle, head 3 at the lead-in. -/
def loadingOne : State := { (s0.wr (.head 3) F.HSEQSTAT_state 6) with medium := some blankCartridge }

/-- A command of SAS port A taken by the stock recorder in slot 3, waiting as `k`. -/
def hcmd : HCmd := ⟨65, 4, 1, 0, 0, 0x28, 1, [], 0, 0, [], 0, .taken, false, none, 0, 0⟩

/-- A state in which the stock recorder holds `hcmd` as `k`. -/
def holding (k : OpKind) : State :=
  { recording with hc := { s0.hc with slots := [(3, some hcmd)] }, rcd := { recording.rcd with ops := [⟨1, 3, 65, 0, k⟩], nextOp := 2 } }

/-- A pull of one page per frame, the whole page. -/
def roi0 : Roi := ⟨0, 1, 1, 1, 16, 0, 16, 0, 2⟩

/-- SessionsAndTriggers: each trigger action, a timed end, the automatic flush, a pull's last frame and the extension. -/
theorem test_sessions_and_triggers :
    (((triggered 4).trigAction 3 = 4 ∧ (triggered 4).startStat = .success ∧ recording.rcd.ps < 3 ∧
      holds (exec (.triggerTake 3) (triggered 4)) (fun t => t.rcd.session == 1 && t.rcd.sessionNo == s0.rcd.sessionNo + 1 && !t.flag .time (F.TRGSTAT_pending 3)))) ∧
    ((let s : State := { triggered 3 with rcd := { (triggered 3).rcd with session := 1 } }
      holds (exec (.triggerTake 3) s) (fun t => t.rcd.session == 2 && t.rcd.closing == s.rcd.nextFlush))) ∧
    ((let s : State := { triggered 1 with rcd := { (triggered 1).rcd with session := 1 } }
      s.openStat = .success ∧ s.extends = false ∧ holds (exec (.triggerTake 3) s) (fun t => t.rcd.session == 1 && crumbed t 3 1 8 19 77 0))) ∧
    ((let s : State := { recording with rcd := { recording.rcd with session := 1, curSession := 4, seqs := [⟨3, 0, 4⟩] } }
      s.rcd.seqs.find? (fun q => decide (q.ends ≤ s.time.ns)) = some ⟨3, 0, 4⟩ ∧
      holds (exec .timedSessionEnd s) (fun t => t.rcd.session == 2 && t.rcd.seqs.isEmpty))) ∧
    ((let s : State := { recording with rcd := { recording.rcd with param := [(3, 1)] }, tb := { s0.tb with lastData := some 4, nextAcc := 2 } }
      s.param 3 ≠ 0 ∧ s.writable ∧ holds (exec .autoFlush s) (fun t => t.rcd.flushes.length == 1 && t.rcd.nextFlush == s.rcd.nextFlush + 1))) ∧
    ((let k : OpKind := .roi roi0 1 5 1 [] [some 0] (some 2)
      ((holding k).cmd 3 = some hcmd) ∧ (holding k).rp.busy 1 = false ∧ (holding k).gate 3 = none ∧
      holds (exec .roiFrameReady (holding k)) (fun t => t.hc.recs.length == 1 && t.rcd.ops.isEmpty))) ∧
    (holds (exec (.forwardTimeout 9) (holding (.forwarded 9))) (fun t => t.hc.recs.length == 1 && (t.cmd 3).map (·.stage) == some .given)) ∧
    ((let s : State := ({ holding (.forwarded 9) with rcd := { (holding (.forwarded 9)).rcd with extRun := true } } : State).storeLE (mailBase + 0x4000) 16 (9 * 2 ^ 64 + 2)
      let u := s.storeLE (mailBase + 0x8008) 4 1
      u.readLE mailBase 4 = 0 ∧ u.readLE (mailBase + 0x4000) 1 = 2 ∧ u.readLE (mailBase + 0x4008) 4 = 9 ∧
      holds (exec .extensionReply u) (fun t => t.readLE (mailBase + 0x800C) 4 == 1 && t.rcd.ops.isEmpty && t.hc.recs.length == 1))) ∧
    ((let s : State := ({ recording with rcd := { recording.rcd with extRun := true } } : State).storeLE (mailBase + 0x4000) 16 (0x0403 * 2 ^ 64 + 6)
      holds (exec .extensionReply (s.storeLE (mailBase + 0x8008) 4 1)) (fun t => Tbl.look 0 t.rcd.trigOver 3 == 5))) ∧
    ((let s : State := ({ recording with rcd := { recording.rcd with extRun := true } } : State).storeLE (mailBase + 0x4000) 16 5
      holds (exec .extensionReply (s.storeLE (mailBase + 0x8008) 4 1)) (fun t => t.rcd.session == 1))) := by
  refine ⟨?_, ?_, ?_, ?_, ?_, ?_, ?_, ?_, ?_, ?_⟩ <;> decide

/-- DrainsAndLoading: what follows each drain, a lead-in that passes and one that does not, and a cartridge without a log. -/
theorem test_drains_and_loading :
    ((let s : State := { recording with rcd := { recording.rcd with drains := [.power 2] } }
      s.rcd.drains.find? s.drainReady = some (.power 2) ∧ holds (exec (.drainComplete 0) s) (fun t => t.rcd.ps == 2))) ∧
    ((let s : State := { recording with rcd := { recording.rcd with drains := [.power 4] } }
      s.rcd.drains.find? s.drainReady = some (.power 4) ∧ holds (exec (.drainComplete 0) s) (fun t => t.rcd.ps == 4 && t.flag .keeper (F.kc 7 F.KCCTRL_hold)))) ∧
    ((let s : State := { recording with rcd := { recording.rcd with drains := [.bake], bake := 1 } }
      s.rcd.drains.find? s.drainReady = some .bake ∧ holds (exec (.drainComplete 0) s) (fun t => t.rcd.bake == 2 && t.rcd.ckpt.isSome))) ∧
    ((let s : State := { recording with medium := some blankCartridge, rcd := { recording.rcd with drains := [.eject] } }
      s.rcd.drains.find? s.drainReady = some .eject ∧ holds (exec (.drainComplete 0) s) (fun t => t.medium == none && t.rcd.cart == 0 && t.loader.isSome))) ∧
    ((let s : State := { s0 with rcd := { s0.rcd with drains := [.shutdown false] } }
      s.rcd.drains.find? s.drainReady = some (.shutdown false) ∧ holds (exec (.drainComplete 0) s) (fun t => t.hc.shst == 2))) ∧
    ((let s : State := { s0 with rcd := { s0.rcd with drains := [.shutdown true] } }
      s.rcd.drains.find? s.drainReady = some (.shutdown true) ∧ holds (exec (.drainComplete 0) s) (fun t => t.hc.shst == 2 && t.rcd.drains.isEmpty))) ∧
    ((let s : State := { recording with rcd := { recording.rcd with drains := [.activation] } }
      s.rcd.drains.find? s.drainReady = some .activation ∧ holds (exec (.drainComplete 0) s) (fun t => t.rcd.ckpt.isSome))) ∧
    ((blankCartridge.leadIn 3 = some leadOk ∧ leadOk.good ∧ holds (exec (.leadinReadDone 3) loadingOne) (fun t =>
       t.rcd.serial == 5 && bitOf t.rcd.leads 3 && t.rcd.cart == 0 && Tbl.look 0 t.lpt 768 == 3 && Tbl.look 0 t.layTrim 48 == 9 * 65536))) ∧
    (holds (exec (.leadinReadDone 3) { loadingOne with medium := some { blankCartridge with indexOff := 1025 } }) (fun t => t.rcd.cart == 4)) ∧
    ((let s : State := { loadingOne with rcd := { s0.rcd with leads := 15 } }
      s.leadsDone ∧ s.posAt 0 = Pos.blank ∧ holds (exec (.mediaStateDecide [] [] []) s) (fun t =>
        t.rcd.cart == 1 && t.rcd.cmStatus == 2 && t.event .media 8))) := by
  refine ⟨?_, ?_, ?_, ?_, ?_, ?_, ?_, ?_, ?_, ?_⟩ <;> decide

/-- The controller enabled with queue pair 2 of 4 entries and the link up. -/
def nvme : State :=
  { (recording.wr .pcie F.PCLINK_up 1).wr .nvme F.NVCTRL_ready 1 with hc := { s0.hc with
      en := true, css := 6, perst := true, sqs := [(2, some ⟨4, 2, 1, 0⟩)], cqs := [(2, some ⟨4, 64, true, 0, 0, true⟩)] } }

/-- A fetched entry of operation code `opc`, CID 9, moving `n` bytes. -/
def entry (opc n : Nat) : SqEntry := ⟨opc, 9, 1, 0, 0, 0, 0, 0, 0, 0, 0, n, 0, 0, [], false, false⟩

/-- An NVMe command on queue 2 in stage `st` that brings no page. -/
def ncmd (st : HStage) : HCmd := ⟨2, 9, 0, 0, 0, 1, 1, List.replicate 10 0, 0, 0, [], 0, st, false, none, 0, 0⟩

/-- Slot 8191 holds `c`. -/
def inSlot (s : State) (c : HCmd) : State := { s with hc := { s.hc with slots := [(8191, some c)] } }

/-- NvmeController: links, resets, enabling and shutdown, with what a reset does to commands by stage. -/
theorem test_nvme_controller :
    ((let s : State := { s0 with hc := { s0.hc with perst := true } }
      holds (exec (.pcieLinkup 5 8) s) (fun t => t.flag .pcie F.PCLINK_up && t.rd .pcie F.PCLINK_width == 8 && t.event .pcie 1) ∧
      holds (exec (.pcieLinkup 5 8) s0) (fun t => t == s0))) ∧
    (holds (exec .pcieLinkdown (inSlot nvme (ncmd .taken))) (fun t => !t.hc.en && t.cmd 8191 == some { ncmd .taken with discarded := true } &&
       t.event .pcie 2 && t.event .pcie 3 && !t.flag .pcie F.PCLINK_up && t.rd .pcie F.PCRESET_count == 1)) ∧
    ((holds (exec .hotReset (inSlot nvme (ncmd .queued))) (fun t => !t.hc.en && t.cmd 8191 == none && t.flag .pcie F.PCLINK_up) ∧
      holds (exec .linkDisable (inSlot nvme { ncmd .queued with queue := 66 })) (fun t => !t.hc.en && (t.cmd 8191).isSome) ∧
      holds (exec .functionLevelReset (nvme.wr .pcie F.PCRESET_count 65535)) (fun t => t.hc.sqs.isEmpty && t.rd .pcie F.PCRESET_count == 65535))) ∧
    ((holds (exec .perstDeassert s0) (fun t => t.hc.perst) ∧ holds (exec .configurationRequest s0) (fun t => t.hostOut == [.retryStatus]) ∧
      holds (exec .configurationRequest { s0 with hc := { s0.hc with confReady := true } }) (fun t => t.hostOut == [.config]))) ∧
    ((holds (exec (.ccEnable 6 4095 0) recording) (fun t => t.hc.en && t.sq 0 == some ⟨4096, 0, 0, 0⟩ && t.cq 0 == some ⟨1, 0, true, 0, 0, true⟩ && t.event .nvme 1) ∧
      holds (exec .ccDisable nvme) (fun t => !t.hc.en && t.event .nvme 1 && t.rd .pcie F.PCRESET_count == 0))) ∧
    ((holds (exec .normalShutdown nvme) (fun t => t.hc.shst == 1 && t.rcd.drains == [.shutdown false] && t.event .nvme 2) ∧
      holds (exec .abruptShutdown nvme) (fun t => t.hc.shst == 2 && t.event .nvme 2))) ∧
    ((may s0 (.core 7) .nvme 0x40 ∧ holds (exec (.nvctrlReady (.core 7) 1) s0) (fun t => t.rd .nvme F.NVCTRL_ready == 1) ∧
      holds (exec (.nvctrlCfs .keeper 2) s0) (fun t => t.nvCfs && t.rd .nvme F.NVCTRL_ready == 0))) := by
  refine ⟨?_, ?_, ?_, ?_, ?_, ?_, ?_⟩ <;> decide

/-- NvmeQueues: doorbells at the ends of a queue and beyond, each way a fetched entry goes, write data and completions. -/
theorem test_nvme_queues :
    ((holds (exec (.sqTailDoorbell 2 3) s0) (fun t => t.event .nvme 3 && crumbed t 2 15 UnitId.nvme.number 3 2 3) ∧
      holds (exec (.cqHeadDoorbell 2 3) s0) (fun t => crumbed t 2 15 UnitId.nvme.number 3 2 3))) ∧
    ((holds (exec (.sqTailDoorbell 2 3) nvme) (fun t => t.sq 2 == some ⟨4, 2, 3, 0⟩ && !t.event .nvme 3) ∧
      holds (exec (.sqTailDoorbell 2 4) nvme) (fun t => t.sq 2 == some ⟨4, 2, 1, 0⟩ && crumbed t 2 15 UnitId.nvme.number 2 2 4) ∧
      holds (exec (.sqTailDoorbell 64 0) nvme) (fun t => crumbed t 2 15 UnitId.nvme.number 1 64 0) ∧
      holds (exec (.cqHeadDoorbell 64 0) nvme) (fun t => crumbed t 2 15 UnitId.nvme.number 1 64 0))) ∧
    ((let s : State := { nvme with hc := { nvme.hc with cqs := [(2, some ⟨4, 64, true, 1, 3, true⟩)] } }
      holds (exec (.cqHeadDoorbell 2 1) s) (fun t => t.cq 2 == some ⟨4, 64, true, 1, 1, true⟩) ∧
      holds (exec (.cqHeadDoorbell 2 2) s) (fun t => t.cq 2 == some ⟨4, 64, true, 1, 3, true⟩ && crumbed t 2 15 UnitId.nvme.number 2 2 2))) ∧
    ((nvme.nvRdy ∧ nvme.nextQueue = some 2 ∧ nvme.allOutstanding < 8192 ∧ opcodeKnown 2 0 ∧
      holds (exec (.commandFetch 2 (entry 0 0)) nvme) (fun t => t.waitingOn 2 == [0] && t.sq 2 == some ⟨4, 2, 1, 1⟩ && t.cmd 0 == some ((entry 0 0).cmd 2 (nvme.guestOfQueue 2))))) ∧
    ((opcodeKnown 2 0x04 = false ∧ holds (exec (.commandFetch 2 (entry 0x04 0)) nvme) (fun t => t.hc.recs == [mkRec 2 0 .invalidOpcode 0 0 none []] && t.waitingOn 2 == []))) ∧
    ((holds (exec (.commandFetch 2 (entry 0x01 4096)) nvme) (fun t => (t.cmd 0).map (·.stage) == some .moving && t.waitingOn 2 == []) ∧
      holds (exec (.commandFetch 2 { entry 0x01 4096 with dmaBad := true }) nvme) (fun t => t.hc.recs == [mkRec 2 0 .dataTransfer 0 0 none []]) ∧
      holds (exec (.commandFetch 2 { entry 0x00 0 with prpBad := true }) nvme) (fun t => t.hc.recs == [mkRec 2 0 .prpOffset 0 0 none []] && t.event .nvme 3))) ∧
    ((nvme.unitsFree 0x100000000 0 ∧ holds (exec (.writeDataLanded 8191 0x100000000) (inSlot nvme (ncmd .moving))) (fun t =>
        (t.cmd 8191).map (·.stage) == some .queued && t.waitingOn 2 == [8191]) ∧
      holds (exec (.parkedWriteResume 8191 0x100000000) (inSlot nvme (ncmd .parked))) (fun t => (t.cmd 8191).map (·.dbuf) == some 0x100000000))) ∧
    ((let s : State := { inSlot nvme (ncmd .given) with hc := { (inSlot nvme (ncmd .given)).hc with
        recs := [mkRec 2 8191 .success 5 0 none []], cqs := [(2, some ⟨4, 64, true, 3, 1, true⟩)] } }
      holds (exec (.completionPosted 2) s) (fun t => t.hc.recs.isEmpty && t.cmd 8191 == none && t.cq 2 == some ⟨4, 64, true, 0, 1, false⟩ && t.port.msix == [64] &&
        t.counter 178 == 1))) ∧
    ((let s : State := { inSlot nvme (ncmd .given) with hc := { (inSlot nvme (ncmd .given)).hc with
        recs := [mkRec 2 8191 .success 5 0 none []], cqs := [(2, some ⟨4, 64, true, 0, 1, true⟩)] } }
      holds (exec (.completionPosted 2) s) (fun t => t.event .nvme 3 && t.hc == s.hc))) := by
  refine ⟨?_, ?_, ?_, ?_, ?_, ?_, ?_, ?_, ?_⟩ <;> decide

/-- `s` with the command `c` in slot 3, first on its queue. -/
def front (s : State) (c : HCmd) : State := { s with hc := { s.hc with slots := [(3, some c)], waiting := [(c.queue, [3])] } }

/-- `State.Front` for `front`, as a test. -/
def frontOk (s : State) (c : HCmd) : Bool :=
  let t := front s c
  t.pw.clocked && !c.discarded && t.gate 3 == none && !t.hc.aers.contains 3 && t.rcd.ops.all (fun o => o.slot != 3) && !t.fw.going &&
    decide (2 ≤ t.rd .power F.PWSTART_level) && !(t.core (stockCore c.queue)).dead && !t.coreHeld c.queue && (c.passesUa || t.pendingUa c == none)

/-- The newest completion record answers slot 3 of queue `q` so. -/
def answered (t : State) (q : Nat) (x : Stat) (dw0 : Nat := 0) : Bool :=
  t.hc.recs.getLast? == some (mkRec q 3 x dw0 0 none []) && (t.cmd 3).map (·.stage) == some .given

/-- The newest completion record answers slot 3 of queue `q` with data. -/
def answeredData (t : State) (q : Nat) : Bool :=
  match t.hc.recs.getLast? with
  | some r => r.slot == 3 && r.queue == q && r.status == (mkRec q 3 .success 0 0 none []).status && !r.data.isEmpty
  | none => false

/-- An admin command with dwords 10, 11 and 12. -/
def admin (opc d10 d11 : Nat) (d12 : Nat := 0) : HCmd := ⟨0, 9, 0, 0, 0, opc, 1, [0, 0, d10, d11, d12, 0, 0, 0, 0, 0], 0, 0, [], 0, .queued, false, none, 0, 0⟩

/-- An I/O command of queue 2 on namespace 1 with dwords 10 to 13. -/
def io (opc d10 d12 d13 : Nat) : HCmd := ⟨2, 9, 0, 0, 0, opc, 1, [0, 0, d10, 0, d12, d13, 0, 0, 0, 0], 0, 0, [], 0, .queued, false, none, 0, 0⟩

/-- A command of SAS port A on LUN 0 with a CDB. -/
def scsi (cdb : List Nat) : HCmd := ⟨65, 9, 5, 0, 0, cdb.headD 0, 0, cdb, 0, 0, [], 0, .queued, false, none, 0, 0⟩

/-- HostCommandsAreTaken: nothing waiting, another command in front, level 1, a core that was stopped, a hold and a unit attention. -/
theorem test_host_commands_are_taken :
    ((holds (exec .identify nvme) (fun t => t == nvme) ∧ holds (exec .abort (front nvme (admin 6 0 0))) (fun t => t == front nvme (admin 6 0 0)))) ∧
    ((let s := nvme.wr .power F.PWSTART_level 1
      holds (exec (.read 2) (front s (io 2 0 0 0))) (fun t => answered t 2 .internalError))) ∧
    ((let s := (nvme.updCore 1 (fun k => { k with dead := true })).updCore 2 (fun k => { k with dead := true })
      stockCore 2 = 2 ∧ holds (exec (.read 2) (front s (io 2 0 0 0))) (fun t => answered t 2 .internalError))) ∧
    ((let s := front (nvme.setFlag .keeper (F.kc 2 F.KCCTRL_hold) true) (io 2 0 0 0)
      s.coreHeld 2 ∧ holds (exec (.read 2) s) (fun t => t == s))) ∧
    ((let s : State := { front recording (scsi [0, 0, 0, 0, 0, 0]) with hc := { (front recording (scsi [0, 0, 0, 0, 0, 0])).hc with nexuses := [⟨0, 5, [0x2900, 0x2A01], 0⟩] } }
      s.pendingUa (scsi [0, 0, 0, 0, 0, 0]) = some 0x2900 ∧ s.mediaPending = false ∧ holds (exec (.testUnitReady 0) s) (fun t =>
        answered t 65 (.unitAttention 0x2900) && t.hc.nexuses == [⟨0, 5, [0x2A01], 0⟩]))) := by
  refine ⟨?_, ?_, ?_, ?_, ?_⟩ <;> decide

/-- NvmeAdminCommands: queues made and deleted, with the numbers and sizes at which each is refused. -/
theorem test_nvme_admin_queues :
    ((frontOk nvme (admin 5 (3 + 4095 * 65536) (1 + 64 * 65536)) ∧ holds (exec .createIoCq (front nvme (admin 5 (3 + 4095 * 65536) (1 + 64 * 65536)))) (fun t =>
       answered t 0 .success && t.cq 3 == some ⟨4096, 64, false, 0, 0, true⟩))) ∧
    ((holds (exec .createIoCq (front nvme (admin 5 65 1))) (fun t => answered t 0 .invalidQueue) ∧
      holds (exec .createIoCq (front nvme (admin 5 2 1))) (fun t => answered t 0 .invalidQueue) ∧
      holds (exec .createIoCq (front nvme (admin 5 3 1))) (fun t => answered t 0 .invalidQueueSize) ∧
      holds (exec .createIoCq (front nvme (admin 5 (3 + 4096 * 65536) 1))) (fun t => answered t 0 .invalidQueueSize) ∧
      holds (exec .createIoCq (front nvme (admin 5 (3 + 65536) (65 * 65536)))) (fun t => answered t 0 .invalidVector))) ∧
    ((let s : State := { nvme with hc := { nvme.hc with cqs := [(2, some ⟨4, 64, true, 0, 0, true⟩), (3, some ⟨4, 64, true, 0, 0, true⟩)] } }
      holds (exec .createIoSq (front s (admin 1 (3 + 65536) (1 + 3 * 65536)))) (fun t => answered t 0 .success && t.sq 3 == some ⟨2, 3, 0, 0⟩) ∧
      holds (exec .createIoSq (front s (admin 1 (3 + 65536) (1 + 2 * 65536)))) (fun t => answered t 0 .invalidQueue) ∧
      holds (exec .createIoSq (front s (admin 1 (3 + 65536) (1 + 4 * 65536)))) (fun t => answered t 0 .cqInvalid) ∧
      holds (exec .createIoSq (front s (admin 1 3 (1 + 3 * 65536)))) (fun t => answered t 0 .invalidQueueSize) ∧
      holds (exec .createIoSq (front s (admin 1 2 1))) (fun t => answered t 0 .invalidQueue) ∧
      holds (exec .deleteIoCq (front s (admin 4 3 0))) (fun t => answered t 0 .success && t.cq 3 == none && (t.cq 2).isSome))) ∧
    ((holds (exec .deleteIoSq (front nvme (admin 0 2 0))) (fun t => answered t 0 .success && t.sq 2 == none) ∧
      holds (exec .deleteIoSq (front nvme (admin 0 0 0))) (fun t => answered t 0 .invalidQueue) ∧
      holds (exec .deleteIoCq (front nvme (admin 4 2 0))) (fun t => answered t 0 .invalidQueueDelete) ∧
      holds (exec .deleteIoCq (front nvme (admin 4 3 0))) (fun t => answered t 0 .invalidQueue))) := by
  refine ⟨?_, ?_, ?_, ?_⟩ <;> decide

/-- NvmeAdminCommands: logs, identify, abort, each feature at its limits, and asynchronous events. -/
theorem test_nvme_admin_other :
    ((holds (exec .getLogPage (front nvme (admin 2 0x07 0))) (fun t => answered t 0 .invalidLog) ∧ ((nvme.taken 3 (admin 2 0x01 0)).logPage 0x01 0).isSome)) ∧
    ((holds (exec .identify (front nvme (admin 6 0xFF 0))) (fun t => answered t 0 .invalidField) ∧
      (((front nvme (admin 6 0x02 0)).taken 3 (admin 6 0x02 0)).identifyData (admin 6 0x02 0)).isSome)) ∧
    (holds (exec .abort (front nvme (admin 8 0 0))) (fun t => answered t 0 .success 1)) ∧
    ((let c := admin 8 (2 + 9 * 65536) 0
      let s : State := { front nvme c with hc := { (front nvme c).hc with slots := [(3, some c), (5, some (ncmd .queued))], waiting := [(0, [3]), (2, [5])] } }
      (ncmd .queued).untaken ∧ holds (exec .abort s) (fun t => answered t 0 .success && t.waitingOn 2 == [] && t.hc.recs.contains (mkRec 2 5 .abortRequested 0 0 none [])))) ∧
    ((holds (exec .setFeatures (front nvme (admin 9 0x01 0xFF))) (fun t => answered t 0 .success && t.getFeature 1 0 == some (7, [])) ∧
      holds (exec .setFeatures (front nvme (admin 9 0x04 (15 * 65536 + 2 ^ 20 + 9)))) (fun t => answered t 0 .success) ∧
      holds (exec .setFeatures (front nvme (admin 9 0x04 (14 * 65536)))) (fun t => answered t 0 .invalidField) ∧
      holds (exec .setFeatures (front nvme (admin 9 0x04 (2 * 2 ^ 20)))) (fun t => answered t 0 .invalidField))) ∧
    ((holds (exec .setFeatures (front nvme (admin 9 0x09 65))) (fun t => t.hc.recs.length == 1) ∧ holds (exec .setFeatures (front nvme (admin 9 0x09 64))) (fun t => answered t 0 .success) ∧
      holds (exec .setFeatures (front nvme (admin 9 0x05 1))) (fun t => answered t 0 .invalidField) ∧
      holds (exec .setFeatures (front nvme (admin 9 0x07 (65534 * 65536 + 65534)))) (fun t => answered t 0 .success (63 * 65536 + 63)) ∧
      holds (exec .setFeatures (front nvme (admin 9 0x03 0))) (fun t => answered t 0 .invalidField))) ∧
    ((holds (exec .setFeatures (front nvme (admin 9 0x02 5))) (fun t => answered t 0 .invalidField) ∧
      holds (exec .setFeatures (front nvme (admin 9 0x02 2))) (fun t => answered t 0 .success && t.rcd.ps == 2) ∧
      holds (exec .setFeatures (front nvme (admin 9 0x02 1))) (fun t => answered t 0 .success && t.rcd.ps == 0 && t.rcd.drains.contains (.power 1)))) ∧
    ((paramsOk [0xFF] = false ∧ holds (exec .setFeatures (front nvme (admin 9 0xC1 0))) (fun t => t.hc.recs.length == 1))) ∧
    ((holds (exec .getFeatures (front nvme (admin 10 0x03 0))) (fun t => answered t 0 .invalidField) ∧
      holds (exec .getFeatures (front nvme (admin 10 0x07 0))) (fun t => answered t 0 .success (63 * 65536 + 63)))) ∧
    ((holds (exec .asyncEventRequest (front nvme (admin 12 0 0))) (fun t => t.hc.aers == [3] && t.hc.recs.isEmpty) ∧
      holds (exec .asyncEventRequest (front { nvme with hc := { nvme.hc with heldEvents := [(2, 3, 4)] } } (admin 12 0 0))) (fun t => answered t 0 .success (2 + 3 * 256 + 4 * 65536)) ∧
      holds (exec .asyncEventRequest (front { nvme with hc := { nvme.hc with aers := [11, 12, 13, 14, 15, 16, 17, 18] } } (admin 12 0 0))) (fun t => answered t 0 .aerLimit))) := by
  refine ⟨?_, ?_, ?_, ?_, ?_, ?_, ?_, ?_, ?_, ?_⟩ <;> decide

/-- `nvme` at level 3 with the namespace of pool index 0: zone 0 empty, zone 1 open to LBA 5 with entry 7, both interfaces attached. -/
def loaded : State := ((((nvme.wr .power F.PWSTART_level 3).setPool 0 ⟨2, true, 5⟩).setZone 0 0 ⟨.empty, 0, 0, 0⟩).setZone 0 1 ⟨.explicitOpen, 5, 1, 7⟩).setZent 7
  ⟨true, 0, 1, 1, 5⟩

/-- `loaded` with the pool entry of index 0 changed. -/
def pool0 (live : Bool) (att : Nat) : State := loaded.setPool 0 ⟨2, live, att⟩

/-- `loaded` with the data `bs` of a command at the start of a buffer unit. -/
def sent (s : State) (a n : Nat) : State := s.storeLE 0x10000000 n a

/-- A command that brings `n` bytes from the host. -/
def withData (c : HCmd) (n : Nat) : HCmd := { c with dlen := n, dbuf := 0x10000000 }

/-- `front` with a CDB of port A on LUN 0. -/
def onLun0 (s : State) (cdb : List Nat) : State := front s (scsi cdb)

/-- A PARTITION CDB. -/
def partitionCdb (act i ro n room : Nat) : List Nat := [0xC1, act, i, ro] ++ [0, 0, 0, n] ++ [0, 0, 0, 0, 0, room] ++ [0, 0]

/-- A byte of a number. -/
def byteOf (n : Nat) : Byte := BitVec.ofNat 8 n

/-- ManagementCommands, NVMe rows: creating (sizes that fit and that do not), deleting, attaching and detaching. -/
theorem test_management_nvme_namespaces :
    ((loaded.mediaPending = false ∧ loaded.rcd.ps = 0 ∧ loaded.freePool = some 1 ∧ loaded.createStat 4000 = .success ∧
      loaded.createStat 4001 = .insufficientCapacity ∧ frontOk loaded (withData (admin 0x0D 0 (2 * 2 ^ 24)) 4096))) ∧
    ((let s := sent loaded (262144 + 2 ^ 64 * 262144) 32
      holds (exec .namespaceManagement (front s (withData (admin 0x0D 0 (2 * 2 ^ 24)) 32))) (fun t => t.pool 1 == ⟨1, true, 0⟩ && t.pool 0 == s.pool 0 &&
        t.zone 1 0 == ⟨.empty, 0, 0, 0⟩ && t.rcd.gzones == 1 && t.rcd.ops.map (·.kind) == [.ckpt 0 2 true] && t.hc.recs.isEmpty))) ∧
    ((let s := sent loaded (262144 + 2 ^ 64 * 262144) 32
      let z := sent loaded (262145 + 2 ^ 64 * 262145) 32
      holds (exec .namespaceManagement (front s (withData (admin 0x0D 0 (1 * 2 ^ 24)) 32))) (fun t => answered t 0 .invalidField) ∧
      holds (exec .namespaceManagement (front z (withData (admin 0x0D 0 (2 * 2 ^ 24)) 32))) (fun t => answered t 0 .invalidField) ∧
      holds (exec .namespaceManagement (front loaded (withData (admin 0x0D 0 (2 * 2 ^ 24)) 32))) (fun t => answered t 0 .invalidField))) ∧
    ((holds (exec .namespaceManagement (front loaded (admin 0x0D 1 0))) (fun t => t.pool 0 == ⟨2, false, 0⟩ && t.rcd.ops.map (·.kind) == [.ckpt 0 0 false] && !(t.zent 7).valid) ∧
      holds (exec .namespaceManagement (front { loaded with rcd := { loaded.rcd with cart := 3 } } (admin 0x0D 1 0))) (fun t => answered t 0 .baked) ∧
      holds (exec .namespaceManagement (front (pool0 false 0) (admin 0x0D 1 0))) (fun t => answered t 0 .invalidNamespace))) ∧
    ((let go (s : State) (act : Nat) := exec .namespaceAttachment (front (sent s (1 + 65536) 4) (withData (admin 0x15 act 0) 4))
      holds (go (pool0 true 0) 0) (fun t => answered t 0 .success && t.pool 0 == ⟨2, true, 1⟩) ∧ holds (go (pool0 true 4) 0) (fun t => answered t 0 .alreadyAttached) ∧
      holds (go (pool0 true 1) 0) (fun t => answered t 0 .nsAttached) ∧ holds (go (pool0 false 0) 0) (fun t => answered t 0 .invalidNamespace) ∧
      holds (go (pool0 true 5) 1) (fun t => answered t 0 .success && t.pool 0 == ⟨2, true, 4⟩) ∧ holds (go (pool0 true 4) 1) (fun t => answered t 0 .nsNotAttached))) ∧
    ((let go (s : State) (act : Nat) := exec .namespaceAttachment (front (sent s (1 + 65536) 4) (withData (admin 0x15 act 0) 4))
      let baked : State := { pool0 true 12 with rcd := { (pool0 true 12).rcd with cart := 3, zones := [] } }
      let ro := (baked.setZone 0 0 ⟨.readOnly, 9, 0, 0⟩).setZone 0 1 ⟨.readOnly, 9, 0, 0⟩
      ro.allReadOnly 0 ∧ holds (go ro 0) (fun t => answered t 0 .success && t.pool 0 == ⟨2, true, 14⟩))) ∧
    (holds (exec .namespaceAttachment (front (sent loaded (2 + 65536) 4) (withData (admin 0x15 0 0) 4))) (fun t => answered t 0 .ctrlListInvalid)) := by
  exact ⟨by decide +kernel, by decide, by decide, by decide +kernel, by decide, by decide, by decide⟩

/-- ManagementCommands: bakes, sessions, loading and ejecting, self-tests and forwarding, on both interfaces. -/
theorem test_management_other :
    ((loaded.bakeStat = .success ∧ holds (exec .nvmeBake (front loaded { admin 0xC0 0 0 with nsid := 0 })) (fun t => t.rcd.bake == 1 && t.rcd.drains == [.bake] && t.rcd.ops.map (·.kind) == [.bake]) ∧
      holds (exec .nvmeBake (front loaded (admin 0xC0 0 0))) (fun t => answered t 0 .invalidField) ∧
      holds (exec (.sasBake 0) (onLun0 { loaded with rcd := { loaded.rcd with bake := 1 } } (0xC0 :: List.replicate 15 0))) (fun t => answered t 65 .baked))) ∧
    ((let ses : State := { loaded with rcd := { loaded.rcd with session := 1, curSession := 7 } }
      loaded.widens = false ∧ holds (exec .nvmeSession (front loaded (admin 0xC4 0 0))) (fun t => answered t 0 .success 0 && t.rcd.session == 1 && t.rcd.sessionNo == 1) ∧
      holds (exec .nvmeSession (front ses (admin 0xC4 0 0))) (fun t => answered t 0 .sessionBusy) ∧
      holds (exec .nvmeSession (front ses (admin 0xC4 1 0))) (fun t => answered t 0 .success 7 && t.rcd.session == 2 && t.rcd.closing == 1) ∧
      holds (exec (.sasSession 0) (onLun0 ses ([0xC4, 1, 0, 0, 0, 0, 0, 0, 0, 0, 0, 0, 0, 4, 0, 0]))) (fun t => t.rcd.session == 2 && t.hc.recs.map (·.data) == [[0, 0, 0, 7]]))) ∧
    ((let out (s : State) : State := { s with medium := some blankCartridge }
      holds (exec (.cartridge none) (front loaded (admin 0xC8 0 0))) (fun t => answered t 0 .noCartridge) ∧
      holds (exec (.cartridge (some blankCartridge)) (front loaded (admin 0xC8 0 0))) (fun t => t.medium == some blankCartridge && t.rcd.ops.map (·.kind) == [.load]) ∧
      holds (exec (.cartridge none) (front { out loaded with rcd := { loaded.rcd with media := true } } (admin 0xC8 0 0))) (fun t => answered t 0 .success) ∧
      holds (exec (.cartridge none) (front { out loaded with rcd := { loaded.rcd with media := true } } (admin 0xC8 1 0))) (fun t => t.rcd.drains == [.eject] && t.medium == some blankCartridge) ∧
      holds (exec (.cartridge none) (front loaded (admin 0xC8 1 0))) (fun t => answered t 0 .noCartridge))) ∧
    ((holds (exec (.deviceSelfTest 0) (front loaded (admin 0x14 1 0))) (fun t => answered t 0 .success && t.rcd.tests == [(1, 0, 0, 0)]) ∧
      holds (exec (.deviceSelfTest 0) (front loaded (admin 0x14 2 0))) (fun t => answered t 0 .success && t.rcd.selfTest == 2) ∧
      holds (exec (.deviceSelfTest 0) (front { loaded with rcd := { loaded.rcd with selfTest := 2 } } (admin 0x14 1 0))) (fun t => answered t 0 .selfTestBusy) ∧
      holds (exec (.deviceSelfTest 0) (front { loaded with rcd := { loaded.rcd with selfTest := 2 } } (admin 0x14 15 0))) (fun t => answered t 0 .success && t.rcd.selfTest == 0) ∧
      holds (exec (.deviceSelfTest 0) (front loaded (admin 0x14 14 0))) (fun t => answered t 0 .invalidField))) ∧
    ((loaded.imagesMatch ∧ loaded.recordsMatch ∧ holds (exec (.sendDiagnostic 0 5) (onLun0 loaded [0x1D, 4, 0, 0, 0, 0])) (fun t => answered t 65 .success && t.rcd.tests == [(1, 7, 5, 0)]))) ∧
    ((let e : State := { loaded with rcd := { loaded.rcd with extRun := true, param := [(0xB, 1)] } }
      loaded.extends = false ∧ holds (exec .nvmeForwardedAdmin (front loaded (admin 0xDF 0 0))) (fun t => answered t 0 .invalidOpcode) ∧
      holds (exec (.nvmeForwardedIo 2) (front (e.storeLE (mailBase + 0x8000) 4 256) (io 0xD0 0 0 0))) (fun t => answered t 2 .busy) ∧
      holds (exec (.sasForwarded 0) (onLun0 (e.storeLE (mailBase + 0x8000) 4 255) (0xD0 :: List.replicate 15 0))) (fun t =>
        t.readLE (mailBase + 0x8000) 4 == 256 && t.rcd.ops.map (·.kind) == [.forwarded 1]))) := by
  refine ⟨?_, ?_, ?_, ?_, ?_, ?_⟩ <;> decide

/-- ManagementCommands, SAS rows: PARTITION's actions and START STOP UNIT. -/
theorem test_management_sas :
    ((frontOk loaded (scsi (partitionCdb 0 0 0 1 0)) ∧ (scsi (partitionCdb 0 0 0 1 0)).cdbOk ∧
      holds (exec (.partition 0) (onLun0 loaded (partitionCdb 0 0 0 0 0))) (fun t => answered t 65 .invalidField) ∧
      holds (exec (.partition 0) (onLun0 loaded (partitionCdb 0 0 0 2 0))) (fun t => t.pool 1 == ⟨2, true, 0⟩ && t.rcd.ops.map (·.kind) == [.ckpt 0 1 true] && t.zone 1 1 == ⟨.empty, 0, 1, 0⟩))) ∧
    ((holds (exec (.partition 0) (onLun0 loaded (partitionCdb 1 0 0 0 0))) (fun t => !(t.pool 0).live) ∧
      holds (exec (.partition 0) (onLun0 loaded (partitionCdb 1 31 0 0 0))) (fun t => answered t 65 .invalidNamespace) ∧
      holds (exec (.partition 0) (onLun0 loaded (partitionCdb 1 32 0 0 0))) (fun t => answered t 65 .invalidField) ∧
      holds (exec (.partition 0) (onLun0 (pool0 true 0) (partitionCdb 2 0 1 0 0))) (fun t => answered t 65 .success && t.pool 0 == ⟨2, true, 8⟩) ∧
      holds (exec (.partition 0) (onLun0 loaded (partitionCdb 3 0 0 0 0))) (fun t => answered t 65 .success && t.pool 0 == ⟨2, true, 1⟩))) ∧
    (holds (exec (.partition 0) (onLun0 loaded (partitionCdb 4 0 0 0 16))) (fun t => t.hc.recs.map (·.data) == [[1, 5, 0, 0, 0, 0, 0, 2, 0, 0, 0, 0, 0, 0, 0, 0]])) ∧
    ((let nc : State := { loaded with rcd := { loaded.rcd with cart := 0 } }
      holds (exec (.startStopUnit 0 none) (onLun0 nc [0x1B, 0, 0, 0, 3, 0])) (fun t => answered t 65 .noCartridge) ∧
      holds (exec (.startStopUnit 0 (some blankCartridge)) (onLun0 nc [0x1B, 0, 0, 0, 3, 0])) (fun t => t.medium == some blankCartridge) ∧
      holds (exec (.startStopUnit 0 none) (onLun0 loaded [0x1B, 0, 0, 0, 0xF0, 0])) (fun t => answered t 65 .invalidField))) ∧
    ((let i := Instr.startStopUnit 0 none
      startStopPs 1 0 false = some 0 ∧ startStopPs 0 0 false = some 3 ∧ holds (exec i (onLun0 loaded [0x1B, 0, 0, 0, 0x10, 0])) (fun t => answered t 65 .success && t.rcd.drains.isEmpty) ∧
      holds (exec i (onLun0 loaded [0x1B, 0, 0, 0, 0, 0])) (fun t => t.rcd.drains == [.power 3] && t.rcd.ops.map (·.kind) == [.power 3] && t.hc.recs.isEmpty) ∧
      holds (exec i (onLun0 loaded [0x1B, 1, 0, 0, 0, 0])) (fun t => answered t 65 .success && t.rcd.drains == [.power 3]))) := by
  exact ⟨by decide, by decide +kernel, by decide, by decide, by decide⟩

/-- DataCommands: writes and appends at the write pointer, elsewhere, at the end of a zone, with no free entry and with too little data. -/
theorem test_data_writes :
    ((let w (s : State) (lba n len : Nat) := exec (.write 2) (front s (withData (io 1 lba n 0) len))
      frontOk loaded (withData (io 1 262149 0 0) 4096) ∧ (io 1 262149 0 0).poolIndex = some 0 ∧ loaded.rp.busy loaded.rcd.nextOp = false ∧ loaded.dataRoom ∧
      holds (w loaded 262149 0 4096) (fun t => t.zone 0 1 == ⟨.explicitOpen, 6, 1, 7⟩ && t.tb.dataQ == [⟨false, 7, 1, 262149, 0x10000000, 0, 0, 6, false, [], 1, 0⟩] &&
        t.rcd.ops.map (·.kind) == [.write 0 262149 1 false false] && t.hc.recs.isEmpty) ∧
      holds (w loaded 0 1 8192) (fun t => t.zone 0 0 == ⟨.implicitOpen, 2, 0, 0⟩ && t.zent 0 == ⟨true, 0, 0, 0, 0⟩))) ∧
    ((let w (s : State) (lba n len : Nat) := exec (.write 2) (front s (withData (io 1 lba n 0) len))
      let last := loaded.setZone 0 1 ⟨.explicitOpen, 262143, 1, 7⟩
      holds (w last 524287 0 4096) (fun t => (t.zone 0 1).wp == 262144) ∧
      holds (w last 524287 1 8192) (fun t => answered t 2 .zoneBoundary && (t.zone 0 1).wp == 262143) ∧
      holds (w loaded 262148 0 4096) (fun t => t.hc.recs.map (·.info) == [262149] && (t.cmd 3).map (·.stage) == some .given && (t.zone 0 1).wp == 5) ∧
      holds (w (last.setZone 0 1 ⟨.closed, 262144, 1, 7⟩) 262149 0 4096) (fun t => t.hc.recs.map (·.info) == [524288]) ∧
      holds (w loaded 524288 0 4096) (fun t => answered t 2 .lbaRange) ∧ holds (w loaded 262149 1 4096) (fun t => answered t 2 .invalidField))) ∧
    ((let full : State := { loaded with tb := { loaded.tb with zones := (List.range 64).map (fun e => (e, ⟨true, 0, 1, 1, 5⟩)) } }
      full.freeEntry = none ∧ full.writeStat 2 0 0 1 false = .openLimit)) ∧
    ((let a (s : State) (lba n len : Nat) := exec (.zoneAppend 2) (front s (withData (io 0x7D lba n 0) len))
      holds (a loaded 262144 0 4096) (fun t => (t.zone 0 1).wp == 6 && t.rcd.ops.map (·.kind) == [.write 0 262149 1 true false]) ∧
      holds (a loaded 262149 0 4096) (fun t => answered t 2 .invalidField))) ∧
    ((let c := withData (scsi [0x2A, 8, 0, 4, 0, 5, 0, 0, 1, 0]) 4096
      let z := withData (scsi [0x8A, 0, 0, 0, 0, 0, 0, 4, 0, 5, 0, 0, 0, 0, 0, 0]) 0
      c.cdbOk ∧ c.lba = 262149 ∧ c.blocks = 1 ∧ holds (exec (.write_10 0) (front loaded c)) (fun t => t.rcd.ops.map (·.kind) == [.write 0 262149 1 false true]) ∧
      z.cdbOk ∧ holds (exec (.write_16 0) (front loaded z)) (fun t => answered t 65 .success && (t.zone 0 1).wp == 5))) := by
  refine ⟨?_, ?_, ?_, ?_, ?_⟩ <;> decide +kernel

/-- DataCommands: reads beyond the namespace, of LBAs never written and of LBAs on the medium; flushes on a cartridge that takes writes and one that does not. -/
theorem test_data_reads :
    ((let r (s : State) (lba n len : Nat) := exec (.read 2) (front s { io 2 lba n 0 with dlen := len })
      holds (r loaded 524288 0 4096) (fun t => answered t 2 .lbaRange) ∧ holds (r loaded 524287 1 8192) (fun t => answered t 2 .lbaRange) ∧
      holds (exec (.verify 2) (front loaded (io 0x0C 524287 0 0))) (fun t => answered t 2 .success))) ∧
    ((let on : State := { loaded with rcd := { loaded.rcd with map := [(mapKey 0 5, 817)] } }
      on.slotOfLba 0 5 = some 816 ∧ on.slotOfLba 0 4 = none ∧
      holds (exec (.read 2) (front on { io 2 4 1 0 with dlen := 8192 })) (fun t => t.rp.busy 1 && t.hc.recs.isEmpty && t.rcd.ops.map (·.kind) == [.read 0 4 [some 0, none] false none]) ∧
      holds (exec (.verify_16 0) (onLun0 on [0x8F, 0, 0, 0, 0, 0, 0, 0, 0, 5, 0, 0, 0, 1, 0, 0])) (fun t => t.rp.busy 1) ∧
      holds (exec (.read_16 0) (onLun0 on [0x88, 0, 0, 0, 0, 0, 0, 0, 0, 5, 0, 0, 0x10, 1, 0, 0])) (fun t => answered t 65 .invalidField))) ∧
    ((let ro : State := { loaded with rcd := { loaded.rcd with cart := 3 } }
      let bad : State := { ro with rcd := { ro.rcd with r18 := 2 } }
      holds (exec (.flush 2) (front loaded (io 0 0 0 0))) (fun t => t.rcd.ops.map (·.kind) == [.flush 1] && t.rcd.nextFlush == 2 && t.hc.recs.isEmpty) ∧
      holds (exec (.flush 2) (front ro (io 0 0 0 0))) (fun t => answered t 2 .success && t.tb == ro.tb) ∧
      holds (exec (.synchronizeCache_10 0) (onLun0 bad [0x35, 0, 0, 0, 0, 0, 0, 0, 0, 0])) (fun t => answered t 65 .internalError && t.rcd.r18 == 0) ∧
      holds (exec (.synchronizeCache_16 0) (onLun0 loaded ([0x91, 2] ++ List.replicate 14 0))) (fun t => answered t 65 .success && t.rcd.nextFlush == 2))) := by
  refine ⟨?_, ?_, ?_⟩ <;> decide

/-- DataCommands: zone actions in each zone state, zone reports, and pulls. -/
theorem test_data_zones :
    ((let z (s : State) (lba v : Nat) := exec (.zoneMgmtSend 2) (front s (io 0x79 lba 0 v))
      let full := loaded.setZone 0 1 ⟨.closed, 262144, 1, 7⟩
      holds (z loaded 0 3) (fun t => answered t 2 .success && t.zone 0 0 == ⟨.explicitOpen, 0, 0, 0⟩) ∧ holds (z full 262144 3) (fun t => answered t 2 .fullZone) ∧
      holds (z loaded 262144 1) (fun t => answered t 2 .success && t.zone 0 1 == ⟨.closed, 5, 1, 7⟩) ∧
      holds (z loaded 262144 2) (fun t => answered t 2 .success && (t.zone 0 1).st == .readOnly && (t.zone 0 1).wp == 5) ∧
      holds (z (loaded.setZone 0 1 ⟨.readOnly, 5, 1, 7⟩) 262144 2) (fun t => answered t 2 .fullZone) ∧
      holds (z full 262144 4) (fun t => answered t 2 .fullZone) ∧ holds (z loaded 262144 4) (fun t => answered t 2 .resetRefused))) ∧
    ((let z (s : State) (lba v : Nat) := exec (.zoneMgmtSend 2) (front s (io 0x79 lba 0 v))
      holds (z loaded 524288 1) (fun t => answered t 2 .lbaRange) ∧ holds (z loaded 1 1) (fun t => answered t 2 .invalidField) ∧
      holds (z loaded 0 0) (fun t => answered t 2 .invalidField) ∧ holds (z loaded 0 6) (fun t => answered t 2 .invalidField) ∧
      holds (z { loaded with rcd := { loaded.rcd with bake := 1 } } 0 3) (fun t => answered t 2 .baked) ∧
      holds (z (pool0 true 6) 0 3) (fun t => answered t 2 .writeProtected))) ∧
    ((let cdb (op v lba : Nat) : List Nat := [op, v, 0, 0, 0, 0, 0, lba, 0, 0, 0, 0, 1, 0, 0, 0]
      (scsi (cdb 0x94 1 4)).cdbOk = false ∧
      let z (v lba : Nat) : List Nat := [0x94, v, 0, 0, 0, 0, 0, lba, 0, 0, 0, 0, 0, 0, 0, 0]
      (scsi (z 1 4)).cdbOk ∧ holds (exec (.closeZone 0) (onLun0 loaded (z 1 4))) (fun t => answered t 65 .success && (t.zone 0 1).st == .closed) ∧
      holds (exec (.finishZone 0) (onLun0 loaded (z 2 4))) (fun t => (t.zone 0 1).st == .readOnly) ∧
      holds (exec (.openZone 0) (onLun0 loaded (z 3 0))) (fun t => (t.zone 0 0).st == .explicitOpen) ∧
      holds (exec (.resetWritePointer 0) (onLun0 loaded (z 4 0))) (fun t => answered t 65 .resetRefused) ∧
      (scsi (cdb 0x95 0 0)).cdbOk ∧ holds (exec (.reportZones 0) (onLun0 loaded (cdb 0x95 0 0))) (fun t => answeredData t 65 && t.hc.recs.all (fun r => r.data.length == 192)))) ∧
    ((let r (opt d12 : Nat) := exec (.zoneMgmtReceive 2) (front loaded (io 0x7A 0 d12 (opt * 256)))
      holds (r 8 63) (fun t => answered t 2 .invalidField) ∧ holds (r 7 15) (fun t => t.hc.recs.map (·.data) == [leBytes 64 0]) ∧
      holds (r 3 31) (fun t => t.hc.recs.all (fun x => x.data.take 8 == leBytes 8 1 && x.data.drop 64 ==
        [2, 0x30, 0, 0, 0, 0, 0, 0] ++ leBytes 8 262144 ++ leBytes 8 262144 ++ leBytes 8 262149 ++ leBytes 32 0)))) ∧
    ((let pull (dw3 : Nat) : HCmd := { io 0x82 0 0 0 with dw := [0, dw3, 262144, 1, 1 + 3 * 65536, 16, 0, 4, 0, 0] }
      (pull 2).roi.valid ∧ holds (exec (.roiPull 2) (front loaded (pull (2 + 65536)))) (fun t =>
        t.rcd.ops.map (·.kind) == [.roi ⟨262144, 1, 1, 3, 16, 0, 4, 0, 2⟩ 0 1 2 [] [some 0] none] && t.hc.recs.isEmpty) ∧
      holds (exec (.roiPull 2) (front loaded (pull (2 + 3 * 65536)))) (fun t => answered t 2 .invalidField))) ∧
    ((roi0.valid ∧ loaded.rangeWritten 0 262144 5 ∧ loaded.rangeWritten 0 262144 6 = false ∧
      holds (exec (.roiPull 2) (front loaded (io 0x82 262144 0 0))) (fun t => answered t 2 .invalidField))) ∧
    ((let c (start room : Nat) : HCmd := scsi [0xCB, 0, 0, start, 0, 0, 0, 0, 0, 0, 0, 0, 0, room, 0, 0]
      let s : State := { loaded with hc := { loaded.hc with setups := [(0, 5, 0, ⟨262144, 1, 1, 3, 16, 0, 4, 0, 2⟩)] } }
      (c 0 20).cdbOk ∧ holds (exec (.roiRead 0) (front s (c 0 20))) (fun t => t.rcd.ops.map (·.kind) == [.roi ⟨262144, 1, 1, 3, 16, 0, 4, 0, 2⟩ 0 0 2 [] [some 0] none]) ∧
      holds (exec (.roiRead 0) (front s (c 2 7))) (fun t => t.hc.recs == [mkRec 65 3 .success 0 2 none []]) ∧
      holds (exec (.roiRead 0) (front s (c 3 20))) (fun t => answered t 65 .invalidField) ∧
      holds (exec (.roiRead 0) (front loaded (c 0 20))) (fun t => answered t 65 .noRoiSetup))) ∧
    ((let c := withData (scsi ([0xCA] ++ List.replicate 12 0 ++ [32, 0, 0])) 32
      let list (h : Nat) : Nat := leNat ([0, 4, 0, 0, 0, 0, 0, 1, 0, 1, 0, 3, 0, 0, 16, 0, 0, 0, 0, 0, 0, 0, 4, 0, 0, 0, 0, 0, 0, h, 0, 0].map byteOf)
      let r : Roi := ⟨262144, 1, 1, 3, 16, 0, 4, 0, 2⟩
      let many (n : Nat) : State := { sent loaded (list 2) 32 with hc := { loaded.hc with setups := (List.range n).map (fun k => (0, k + 6, 0, r)) } }
      c.cdbOk ∧ c.alloc = 32 ∧ holds (exec (.roiSetup 0) (front loaded c)) (fun t => answered t 65 .invalidParam) ∧
      holds (exec (.roiSetup 0) (front (sent loaded (list 0) 32) c)) (fun t => answered t 65 .invalidParam) ∧
      holds (exec (.roiSetup 0) (front (many 63) c)) (fun t => answered t 65 .success && t.hc.setups.getLast? == some (0, 5, 0, r) && t.hc.setups.length == 64) ∧
      holds (exec (.roiSetup 0) (front (many 64) c)) (fun t => answered t 65 .roiResources))) := by
  exact ⟨by decide, by decide, by decide +kernel, by decide, by decide, by decide, by decide +kernel, by decide⟩

/-- Port A linked, its phy enabled and the stock recorder ready, nexus 5 of port A known. -/
def sasUp : State :=
  { ((((loaded.wr .sas F.SAPHY0_up 1).wr .sas F.SACTRL_phyen 3).wr .sas F.SACTRL_ready 1)) with hc := { loaded.hc with nexuses := [⟨0, 5, [], 4⟩, ⟨1, 5, [0x2901], 0⟩] } }

/-- A COMMAND frame of initiator 5 with tag 77. -/
def frame5 (cdb : List Nat) (dlen : Nat) : CmdFrame := ⟨5, 77, 0, 0, cdb, 0, dlen, false⟩

/-- A command of initiator 5 with tag 77 that moves 6,000 bytes from the host, `asked` and `got` of them. -/
def moving (asked got : Nat) : HCmd := { scsi [0x2A, 0, 0, 0, 0, 0, 0, 0, 1, 0] with
  ident := 77, dlen := 6000, stage := .moving, pages := [0, 0], asked := asked, got := got }

/-- Slot 3 holds `c`, on no queue. -/
def slot3 (s : State) (c : HCmd) : State := { s with hc := { s.hc with slots := [(3, some c)] } }

/-- The violation of this row is booked. -/
def violated (s t : State) (row init w6 : Nat) : Bool :=
  t.event .sas 4 && t.rd .sas F.SAVIOL_count == satAdd 16 (s.rd .sas F.SAVIOL_count) 1 && crumbed t 2 15 UnitId.sas.number row w6 init

/-- SasTransport: links going up and down, connections, hard reset and nexus loss. -/
theorem test_sas_links :
    ((holds (exec (.sasLinkup 1 3) sasUp) (fun t => t.flag .sas F.SAPHY1_up && t.rd .sas F.SAPHY1_rate == 3 && t.event .sas 1 && crumbOnly sasUp t) ∧
      holds (exec (.sasLinkup 0 3) sasUp) (fun t => t == sasUp) ∧
      holds (exec (.sasLinkdown 0) sasUp) (fun t => !t.flag .sas F.SAPHY0_up && t.event .sas 2 && crumbOnly sasUp t))) ∧
    ((holds (exec (.connectionRequest 0 1) sasUp) (fun t => t.hostOut == [.openAccept 0]) ∧ holds (exec (.connectionRequest 0 2) sasUp) (fun t => t.hostOut == [.openReject 0]))) ∧
    ((let s : State := { slot3 (sasUp.wr .sas F.SAPHY0_hreset 255) { moving 0 0 with stage := .taken } with hc := { (slot3 sasUp { moving 0 0 with stage := .taken }).hc with
        setups := [(0, 5, 0, roi0), (1, 5, 0, roi0)], lossTime := [(0, 7)] } }
      holds (exec (.sasHardreset 0) s) (fun t => t.hc.setups == [(1, 5, 0, roi0)] && t.hc.nexuses == [⟨0, 5, [0x2907], 0⟩, ⟨1, 5, [0x2901], 0⟩] &&
        t.cmd 3 == some { moving 0 0 with stage := .taken, discarded := true } && t.event .sas 3 && t.hc.lossTime == []))) ∧
    ((let s := slot3 (sasUp.wr .sas F.SAPHY0_up 0) (moving 0 0)
      holds (exec (.iTNexusLoss 0) s) (fun t => t.cmd 3 == none && t.hc.nexuses.map Nexus.ua == [[0x2907], [0x2901]]) ∧ holds (exec (.iTNexusLoss 0) sasUp) (fun t => t == sasUp))) := by
  refine ⟨?_, ?_, ?_, ?_⟩ <;> decide

/-- SasTransport: COMMAND frames, each violation, a queue that is full, and those that are taken. -/
theorem test_sas_command_frames :
    ((holds (exec (.sasCommandFrame 0 { frame5 [0x00] 0 with bad := true }) sasUp) (fun t => violated sasUp t 1 5 77 && t.hostOut == [.nak 0] && t.hc == sasUp.hc) ∧
      holds (exec (.sasCommandFrame 0 { frame5 [0x00] 0 with tag := 5 }) (slot3 sasUp { moving 0 0 with ident := 5 })) (fun t =>
        violated sasUp t 6 5 5 && t.hc.recs == [mkRec 65 0 .tagOverlap 0 0 none []]))) ∧
    ((holds (exec (.sasCommandFrame 0 { frame5 [0x00] 0 with addLen := 1 }) sasUp) (fun t => violated sasUp t 7 5 77 && t.hc.recs == [mkRec 65 0 .invalidField 0 0 none []] && t.waitingOn 65 == []) ∧
      holds (exec (.sasCommandFrame 0 (frame5 [0x00] 16777217)) sasUp) (fun t => violated sasUp t 8 5 77) ∧
      holds (exec (.sasCommandFrame 0 (frame5 [0x00] 16777216)) sasUp) (fun t => t.waitingOn 65 == [0]))) ∧
    ((let many : State := { sasUp with hc := { sasUp.hc with slots := (List.range 1024).map (fun k => (k, some (moving 0 0))) } }
      holds (exec (.sasCommandFrame 0 (frame5 [0x00] 9)) many) (fun t => t.hostOut == [.response 0 5 77 0x28 0 0 9 none []] && t.event .sas 6 && t.hc.slots == many.hc.slots))) ∧
    ((holds (exec (.sasCommandFrame 0 (frame5 [0x00] 0)) (sasUp.wr .sas F.SACTRL_ready 0)) (fun t => t.hc.recs == [mkRec 65 0 .becomingReady 0 0 none []]) ∧
      holds (exec (.sasCommandFrame 0 { frame5 [0x00] 0 with init := 6 }) { sasUp with rcd := { sasUp.rcd with ps := 4 } }) (fun t => t.waitingOn 65 == [0] && t.event .sas 7 &&
        t.cmd 0 == some (({ frame5 [0x00] 0 with init := 6 } : CmdFrame).cmd 0 0) && t.hc.nexuses.getLast? == some ⟨0, 6, [0x2901], 0⟩) ∧
      holds (exec (.sasCommandFrame 0 (frame5 [0x2A] 4097)) sasUp) (fun t => t.waitingOn 65 == [] && (t.cmd 0).map (fun c => (c.stage, c.pages)) == some (.moving, [0, 0])))) := by
  exact ⟨by decide, by decide, by decide +kernel, by decide⟩

/-- SasTransport: XFER_RDY, DATA frames right and wrong, the response timeout and the response. -/
theorem test_sas_data :
    ((let s := slot3 sasUp (moving 0 0)
      let b := slot3 { sasUp with hc := { sasUp.hc with nexuses := [⟨0, 5, [], 2049⟩] } } (moving 6000 2048)
      s.xfersOn 65 = 0 ∧ s.freeUnits ≠ 0 ∧ holds (exec (.xferRdySend 3) s) (fun t => t.cmd 3 == some (moving 2048 0) && t.hostOut == [.xferRdy 0 5 77 0 2048]) ∧
      holds (exec (.xferRdySend 3) b) (fun t => t == b))) ∧
    ((let s := slot3 sasUp (moving 2048 0)
      holds (exec (.sasDataTimeout 3) s) (fun t => violated s t 5 5 77 && t.hc.recs == [mkRec 65 3 .dataTimeout 0 0 none []]) ∧
      holds (exec (.sasDataFrame 0 5 77 0 [1, 2] true 0) s) (fun t => violated s t 1 5 77 && t.hostOut == [.nak 0] && t.cmd 3 == some (moving 2048 0)) ∧
      holds (exec (.sasDataFrame 0 5 77 4 [1, 2] false 0) s) (fun t => violated s t 4 5 77 && t.hc.recs == [mkRec 65 3 .wrongOffset 0 0 none []]) ∧
      holds (exec (.sasDataFrame 0 5 77 0 [1, 2, 3] false 0) (slot3 sasUp (moving 2 0))) (fun t => violated s t 3 5 77 && t.hc.recs == [mkRec 65 3 .tooMuchData 0 0 none []]) ∧
      holds (exec (.sasDataFrame 0 5 77 0 [1, 2] false 0) sasUp) (fun t => violated s t 2 5 77 && t.hc == sasUp.hc))) ∧
    (holds (exec (.sasDataFrame 0 5 77 0 [1, 2] false 0) (slot3 sasUp (moving 2 0))) (fun t => t.cmd 3 == some { moving 2 2 with pages := [513, 0] } && t.mem == sasUp.mem)) ∧
    (((slot3 sasUp { moving 6000 5998 with dlen := 6000 }).unitsFree 0x100000000 2 = true ∧ (slot3 sasUp (moving 0 0)).hc.slots = [(3, some (moving 0 0))])) ∧
    ((let s : State := { slot3 sasUp { moving 6000 6000 with stage := .given, dlen := 6000 } with hc := { (slot3 sasUp { moving 6000 6000 with stage := .given }).hc with
        recs := [mkRec 65 3 .unrecovered 0 0 (some 9) [1, 2]] } }
      holds (exec (.responseSend 0) s) (fun t => t.cmd 3 == none && t.hc.recs.isEmpty && t.counter 181 == 1 &&
        (match t.hostOut with
         | [.response 0 5 77 2 3 _ 0 (some 9) _] => true
         | _ => false)))) := by
  exact ⟨by decide, by decide, by decide +kernel, by decide, by decide⟩

/-- SasTransport: each task management function, on a command it concerns and on one it does not. -/
theorem test_sas_task_management :
    ((let tk : HCmd := { moving 0 0 with stage := .taken }
      holds (exec (.abortTask 0 5 1 77) (slot3 sasUp tk)) (fun t => t.cmd 3 == some { tk with discarded := true } && t.hostOut == [.tmResponse 0 5 1 0]) ∧
      holds (exec (.abortTask 0 5 1 78) (slot3 sasUp tk)) (fun t => t.cmd 3 == some tk && t.hostOut == [.tmResponse 0 5 1 0]) ∧
      holds (exec (.abortTaskSet 0 5 1 0) (slot3 sasUp (moving 0 0))) (fun t => t.cmd 3 == none) ∧
      holds (exec (.clearTaskSet 0 5 1 1) (slot3 sasUp tk)) (fun t => t.cmd 3 == some tk) ∧
      holds (exec (.logicalUnitReset 0 9 1 0) { slot3 sasUp { tk with queue := 66 } with hc := { (slot3 sasUp { tk with queue := 66 }).hc with setups := [(1, 5, 0, roi0), (1, 5, 1, roi0)] } }) (fun t =>
        t.cmd 3 == some { tk with queue := 66, discarded := true } && t.hc.setups == [(1, 5, 1, roi0)]) ∧
      holds (exec (.logicalUnitReset 0 9 1 0) (slot3 sasUp { tk with queue := 64 })) (fun t => t.cmd 3 == some { tk with queue := 64 }))) ∧
    ((let tk : HCmd := { moving 0 0 with stage := .taken }
      holds (exec (.iTNexusReset 0 5 1) (slot3 sasUp tk)) (fun t => t.cmd 3 == some { tk with discarded := true } && t.hc.nexuses.map Nexus.ua == [[0x2907], [0x2901]]) ∧
      holds (exec (.iTNexusReset 0 6 1) (slot3 sasUp tk)) (fun t => t.cmd 3 == some tk && t.hc.nexuses == sasUp.hc.nexuses) ∧
      holds (exec (.queryTask 0 5 1 77) (slot3 sasUp tk)) (fun t => t.hostOut == [.tmResponse 0 5 1 8]) ∧
      holds (exec (.queryTask 0 5 1 78) (slot3 sasUp tk)) (fun t => t.hostOut == [.tmResponse 0 5 1 0]))) := by
  refine ⟨?_, ?_⟩ <;> decide

/-- `loaded` with the data `bs` in a buffer unit. -/
def bytesIn (s : State) (bs : List Nat) : State := s.storeLE 0x10000000 bs.length (leNat (bs.map byteOf))

/-- A SAS command on port A that brings `n` bytes. -/
def scsiData (cdb : List Nat) (n : Nat) : HCmd := withData (scsi cdb) n

/-- A MODE SELECT CDB of `n` parameter bytes. -/
def modeSelectCdb (n : Nat) : List Nat := [0x55, 0x10, 0, 0, 0, 0, 0, 0, n, 0]

/-- A parameter block that is accepted: parameter 2 is 1. -/
def paramBytes : List Nat := [1, 0, 1] ++ List.replicate 9 0 ++ [1, 0, 1, 0] ++ List.replicate 48 0

/-- The parameter list of MODE SELECT that writes the protocol-specific port page of `s` with loss time 7 and response timeout 9. -/
def portPage : List Byte := List.replicate 8 0 ++ modeBytes 0x19 0 7 9

/-- The parameter list of MODE SELECT that writes a burst of 3 into the disconnect-reconnect page. -/
def burstPage : List Byte := List.replicate 8 0 ++ modeBytes 0x02 3 0 0

/-- `loaded` with a parameter list in a buffer unit, cell by cell. -/
def listed (bs : List Byte) : State := { loaded with mem := (bs.zipIdx).map (fun p => (0x10000000 + p.2, p.1)) }

/-- ScsiCommands: a CDB with a reserved bit set, and one without. -/
theorem test_scsi_reserved :
    (((scsi [0, 0, 0, 0, 0, 0]).cdbOk ∧ (scsi [0, 1, 0, 0, 0, 0]).cdbOk = false ∧ loaded.mediaPending = false ∧
      holds (exec (.testUnitReady 0) (onLun0 loaded [0, 1, 0, 0, 0, 0])) (fun t => answered t 65 .invalidField) ∧
      holds (exec (.inquiry 0) (onLun0 loaded [0x12, 2, 0, 0, 96, 0])) (fun t => answered t 65 .invalidField) ∧
      holds (exec (.read_10 0) (onLun0 loaded [0x28, 0x20, 0, 0, 0, 0, 0, 0, 1, 0])) (fun t => answered t 65 .invalidField) ∧
      holds (exec (.write_10 0) (onLun0 loaded [0x2A, 4, 0, 0, 0, 0, 0, 0, 1, 0])) (fun t => answered t 65 .invalidField))) := by
  decide

/-- ScsiCommands: readiness on a LUN with the medium, one out of range and one not attached; sense. -/
theorem test_scsi_ready :
    ((loaded.mediaStat 65 0 = .success ∧ holds (exec (.testUnitReady 0) (onLun0 loaded [0, 0, 0, 0, 0, 0])) (fun t => answered t 65 .success) ∧
      holds (exec (.testUnitReady 0) (front loaded { scsi [0, 0, 0, 0, 0, 0] with lun := 32 * 2 ^ 48 })) (fun t => answered t 65 .notAttached) ∧
      holds (exec (.testUnitReady 0) (front loaded { scsi [0, 0, 0, 0, 0, 0] with lun := 31 * 2 ^ 48 })) (fun t => answered t 65 .notAttached) ∧
      holds (exec (.requestSense 0) (onLun0 loaded [3, 1, 0, 0, 4, 0])) (fun t => t.hc.recs.map (·.data) == [[0x72, 0, 0, 0]]) ∧
      holds (exec (.requestSense 0) (onLun0 loaded [3, 0, 0, 0, 4, 0])) (fun t => answered t 65 .invalidField))) := by
  decide

/-- ScsiCommands: INQUIRY, the serial page and pages that do not exist; capacity and the attached LUNs. -/
theorem test_scsi_inquiry :
    ((holds (exec (.inquiry 0) (onLun0 loaded [0x12, 0, 0, 0, 1, 0])) (fun t => t.hc.recs.map (·.data) == [[0x14]]) ∧
      holds (exec (.inquiry 0) (front loaded { scsi [0x12, 0, 0, 0, 1, 0] with lun := 2 ^ 48 })) (fun t => t.hc.recs.map (·.data) == [[0x7F]]) ∧
      holds (exec (.inquiry 0) (onLun0 loaded [0x12, 0, 1, 0, 96, 0])) (fun t => answered t 65 .invalidField) ∧
      holds (exec (.inquiry 0) (onLun0 loaded [0x12, 1, 0x81, 0, 96, 0])) (fun t => answered t 65 .invalidField) ∧
      holds (exec (.inquiry 0) (onLun0 loaded [0x12, 1, 0x80, 0, 20, 0])) (fun t => t.hc.recs.all (fun r => r.data.take 4 == [0x14, 0x80, 0, 16] && r.data.length == 20)))) ∧
    ((holds (exec (.readCapacity_16 0) (onLun0 loaded [0x9E, 0x10, 0, 0, 0, 0, 0, 0, 0, 0, 0, 0, 0, 12, 0, 0])) (fun t =>
        t.hc.recs.map (·.data) == [[0, 0, 0, 0, 0, 7, 0xFF, 0xFF, 0, 0, 0x10, 0]]) ∧
      holds (exec (.reportLuns 0) (onLun0 loaded [0xA0, 0, 2, 0, 0, 0, 0, 0, 1, 0, 0, 0])) (fun t => t.hc.recs.map (·.data) == [beBytes 4 8 ++ List.replicate 12 0]) ∧
      holds (exec (.reportLuns 0) (onLun0 loaded [0xA0, 0, 1, 0, 0, 0, 0, 0, 1, 0, 0, 0])) (fun t => answered t 65 .invalidField))) := by
  refine ⟨?_, ?_⟩ <;> decide

/-- ScsiCommands: log pages, mode pages and the operation codes. -/
theorem test_scsi_pages :
    ((loaded.logSense 1 = none ∧ holds (exec (.logSense 0) (onLun0 loaded [0x4D, 0, 1, 0, 0, 0, 0, 0, 64, 0])) (fun t => answered t 65 .invalidField) ∧
      holds (exec (.logSense 0) (onLun0 loaded [0x4D, 0, 0x40, 0, 0, 0, 0, 0, 64, 0])) (fun t => t.hc.recs.map (·.data) == [[0, 0, 0, 7, 0x00, 0x0D, 0x10, 0x15, 0x30, 0x31, 0x32]]))) ∧
    ((holds (exec (.modeSense_10 0) (onLun0 loaded [0x5A, 0, 0xC2, 0, 0, 0, 0, 0, 64, 0])) (fun t => answered t 65 .invalidField) ∧
      holds (exec (.modeSense_10 0) (onLun0 loaded [0x5A, 0, 0x03, 0, 0, 0, 0, 0, 64, 0])) (fun t => answered t 65 .invalidField) ∧
      holds (exec (.modeSense_10 0) (onLun0 loaded [0x5A, 0, 0x99, 0, 0, 0, 0, 0, 64, 0])) (fun t => t.hc.recs.all (fun r => r.data.length == 16 && r.data.drop 12 == [7, 0xD0, 3, 0xE8])) ∧
      holds (exec (.modeSense_10 0) (onLun0 loaded [0x5A, 0, 0x4A, 0, 0, 0, 0, 0, 64, 0])) (fun t => t.hc.recs.all (fun r => r.data.drop 10 == List.replicate 10 0)))) ∧
    ((holds (exec (.modeSelect_10 0) (onLun0 loaded [0x55, 0, 0, 0, 0, 0, 0, 0, 16, 0])) (fun t => answered t 65 .invalidField) ∧
      holds (exec (.modeSelect_10 0) (onLun0 loaded [0x55, 0x11, 0, 0, 0, 0, 0, 0, 16, 0])) (fun t => answered t 65 .invalidField))) ∧
    ((let go (d : List Nat) := exec (.reportSupportedOpcodes 0) (onLun0 loaded ([0xA3, 0x0C] ++ d))
      holds (go [3, 0x28, 0, 0, 0, 0, 0, 64, 0, 0]) (fun t => answered t 65 .invalidField) ∧
      holds (go [1, 0x28, 0, 0, 0, 0, 0, 2, 0, 0]) (fun t => t.hc.recs.map (·.data) == [[0, 3]]) ∧
      holds (go [1, 0x29, 0, 0, 0, 0, 0, 2, 0, 0]) (fun t => t.hc.recs.map (·.data) == [[0, 1]]) ∧
      holds (go [0, 0, 0, 0, 0, 0, 0, 4, 0, 0]) (fun t => t.hc.recs.map (·.data) == [beBytes 4 (8 * 48)]))) := by
  refine ⟨?_, ?_, ?_, ?_⟩ <;> decide

/-- ScsiCommands: the recording profile and timecode, read, refused and set. -/
theorem test_scsi_own_commands :
    ((holds (exec (.recordingProfile 0) (onLun0 loaded (0xC5 :: List.replicate 15 0))) (fun t => t.hc.recs.all (fun r => r.data.length == 64 && r.data.take 1 == [1])) ∧
      paramsOk paramBytes ∧
      holds (exec (.recordingProfile 0) (front (bytesIn loaded paramBytes) (scsiData ([0xC5, 1] ++ List.replicate 14 0) 64))) (fun t => answered t 65 .success && t.param 2 == 1 && t.param 3 == 0) ∧
      holds (exec (.recordingProfile 0) (front (bytesIn loaded (paramBytes.take 63 ++ [1])) (scsiData ([0xC5, 1] ++ List.replicate 14 0) 64))) (fun t => answered t 65 .invalidParam && t.param 2 == 0))) ∧
    ((let set : HCmd := scsiData ([0xC6, 1] ++ List.replicate 14 0) 16
      tcSetOk 0 (tcR (loaded.rd .time F.TCRATE_num) loaded.tcDen) ∧ loaded.widens = false ∧
      holds (exec (.timecode 0) (onLun0 loaded (0xC6 :: List.replicate 15 0))) (fun t => t.hc.recs.map (·.data) == [loaded.timecodeBytes]) ∧
      holds (exec (.timecode 0) (front (bytesIn loaded [0, 0, 0, 0, 0, 0, 0, 0, 1, 0, 0, 0, 2, 0, 0, 0]) set)) (fun t => answered t 65 .success && t.tc.armed && t.tc.req == 1 &&
        t.rd .time F.TCEPOCHLO_epoch_lo == 1 && t.rd .time F.TCEPOCHHI_epoch_hi == 2) ∧
      holds (exec (.timecode 0) (front (bytesIn loaded [0, 0, 0, 0, 1, 0, 0, 0]) set)) (fun t => answered t 65 .invalidParam && !t.tc.armed) ∧
      holds (exec (.timecode 0) (front loaded (scsiData ([0xC6, 1] ++ List.replicate 14 0) 15))) (fun t => answered t 65 .invalidParam))) := by
  exact ⟨by decide +kernel, by decide⟩

/-- ScsiCommands: parameter lists of MODE SELECT as their clauses need them; bytes that the spec leaves open stand as `Config` has them. -/
theorem test_scsi_mode_lists :
    (((loaded.cmdData (scsiData (modeSelectCdb 16) 16)).length = 16 ∧ portPage.take 8 = List.replicate 8 0 ∧ portPage.length = 16 ∧ burstPage.length = 24 ∧
      (portPage.drop 8).take 2 = [0x19, 6] ∧ (burstPage.drop 8).take 2 = [0x02, 14] ∧ (scsi (modeSelectCdb 16)).cdbOk ∧ (scsi (modeSelectCdb 24)).cdbOk)) := by
  decide

/-- ScsiCommands: the page of `portPage` fits, whatever the bytes the spec leaves open are, and so does that of `burstPage`. -/
theorem test_scsi_mode_fits :
    (listed portPage).modeFits (scsiData (modeSelectCdb 16) 16) (0x19, portPage.drop 8) = true ∧
    (listed burstPage).modeFits (scsiData (modeSelectCdb 24) 24) (0x02, burstPage.drop 8) = true := by
  constructor
  · change ((partByte 0x719 2 0x0F 6 &&& (0#8 ^^^ 0xFF#8) == partByte 0x719 2 0x0F 6 &&& (0#8 ^^^ 0xFF#8)) && ((Config.hostByte 0x719 3 &&& (0#8 ^^^ 0xFF#8) == Config.hostByte 0x719 3 &&& (0#8 ^^^ 0xFF#8)) && (true && (true && (true && (true && true)))))) = true
    simp only [BEq.rfl, Bool.and_self]
  · change ((Config.hostByte 0x702 2 &&& (0#8 ^^^ 0xFF#8) == Config.hostByte 0x702 2 &&& (0#8 ^^^ 0xFF#8)) && ((Config.hostByte 0x702 3 &&& (0#8 ^^^ 0xFF#8) == Config.hostByte 0x702 3 &&& (0#8 ^^^ 0xFF#8)) && ((Config.hostByte 0x702 4 &&& (0#8 ^^^ 0xFF#8) == Config.hostByte 0x702 4 &&& (0#8 ^^^ 0xFF#8)) && ((Config.hostByte 0x702 5 &&& (0#8 ^^^ 0xFF#8) == Config.hostByte 0x702 5 &&& (0#8 ^^^ 0xFF#8)) && ((Config.hostByte 0x702 6 &&& (0#8 ^^^ 0xFF#8) == Config.hostByte 0x702 6 &&& (0#8 ^^^ 0xFF#8)) && ((Config.hostByte 0x702 7 &&& (0#8 ^^^ 0xFF#8) == Config.hostByte 0x702 7 &&& (0#8 ^^^ 0xFF#8)) && ((Config.hostByte 0x702 8 &&& (0#8 ^^^ 0xFF#8) == Config.hostByte 0x702 8 &&& (0#8 ^^^ 0xFF#8)) && ((Config.hostByte 0x702 9 &&& (0#8 ^^^ 0xFF#8) == Config.hostByte 0x702 9 &&& (0#8 ^^^ 0xFF#8)) && (true && (true && ((Config.hostByte 0x702 12 &&& (0#8 ^^^ 0xFF#8) == Config.hostByte 0x702 12 &&& (0#8 ^^^ 0xFF#8)) && ((Config.hostByte 0x702 13 &&& (0#8 ^^^ 0xFF#8) == Config.hostByte 0x702 13 &&& (0#8 ^^^ 0xFF#8)) && (true && (true && true)))))))))))))) = true
    simp only [BEq.rfl, Bool.and_self]

/-- ScsiCommands: the list in the buffer is the one the command brings. -/
theorem test_scsi_mode_data :
    (listed portPage).cmdData (scsiData (modeSelectCdb 16) 16) = portPage ∧ (listed burstPage).cmdData (scsiData (modeSelectCdb 24) 24) = burstPage := by
  constructor <;> rfl

/-- A copy of two lines of 4 bytes from 0x1000 (8 apart) to 0x2000, status at 0x3000, with an event. -/
def copyDesc : List Nat := [2 ^ 31, 0xAB, 0x1000, 0, 4, 8, 2, 0x2000, 0, 8, 8, 1, 0, 0x3000, 0, 0]

/-- A fill of 6 bytes from 0x2001 with a pattern. -/
def fillDesc : List Nat := [1, 0, 0, 0, 0, 0, 0, 0x2001, 0, 6, 6, 1, 0x44332211, 0, 0, 0]

/-- Channel 31 holds descriptor `d` of core 0 with abort reason `a`; it runs if `on`. -/
def mover (d : List Nat) (a : Nat) (on : Bool) : State :=
  { s0 with eng := { s0.eng with chans := [(31, some ⟨d, 1, a⟩)], order := [31], running := if on then some 31 else none } }

/-- Channel 31 has ended with this code and residue. -/
def moverEnded (t : State) (code residue : Nat) : Bool :=
  Tbl.look (0, 0, 0) t.eng.last 31 == (code, 1, residue) && t.eng.chans.isEmpty && t.eng.order.isEmpty && t.eng.running == none

/-- Words 0x1000 and 0x1008 hold source bytes. -/
def moverSrc (s : State) : State := (s.storeLE 0x1000 4 0x04030201).storeLE 0x1008 4 0x08070605

/-- A hash message over no bytes, with its result at 0x4000; `flags` are word 0. -/
def hashDesc (flags : Nat) : List Nat := [flags, 5, 0, 0, 0, 0, 0x4000, 0]

/-- A hash message over two bytes at 0x1000. -/
def hashTwo : List Nat := [0, 5, 0x1000, 0, 2, 0, 0x4000, 0]

/-- The hash engine runs `d` for core 0. -/
def hashing (d : List Nat) : State := { s0 with eng := { s0.eng with hashRun := some (d, 1) } }

/-- SliceMover: a channel that starts, one refused with code 3, and SMABORT on a queued and on a running channel by those who may and one who may not. -/
theorem test_slice_mover_starts :
    ((sliceOk copyDesc 1 ∧ sliceOk fillDesc 1 ∧ sliceOk (copyDesc.set 5 0) 1 ∧ sliceOk (copyDesc.set 6 3) 1 = false ∧ sliceOk (copyDesc.set 15 1) 1 = false ∧
      holds (exec .sliceChannelStart (mover copyDesc 0 false)) (fun t => t.eng.running == some 31))) ∧
    ((holds (exec .sliceChannelStart (mover (copyDesc.set 15 1) 0 false)) (fun t => moverEnded t 3 8 && t.event .mover 3 && t.readBytes 0x3000 16 == statusBytes 3 1 0xAB 8))) ∧
    ((may s0 .keeper .mover 0x54 ∧ may s0 (.core 0) .mover 0x54 ∧
      holds (exec (.smabortWrite .keeper 31) (mover copyDesc 0 false)) (fun t => moverEnded t 1 8 && t.event .mover 2) ∧
      holds (exec (.smabortWrite (.core 0) 63) (mover copyDesc 0 true)) (fun t => Tbl.look none t.eng.chans 31 == some ⟨copyDesc, 1, 1⟩ && t.eng.running == some 31) ∧
      holds (exec (.smabortWrite (.core 1) 31) (mover copyDesc 0 true)) (fun t => t.event .mover 0 && crumbed t 0 2 UnitId.mover.number 3 (UnitId.mover.base + 0x54) 31 && crumbOnly (mover copyDesc 0 true) t) ∧
      holds (exec (.smabortWrite (.core 1) 30) (mover copyDesc 0 true)) (fun t => t == mover copyDesc 0 true))) := by
  refine ⟨?_, ?_, ?_⟩ <;> decide

/-- SliceMover: a copy, a fill, a copy cut short by an abort and one by a failing read. -/
theorem test_slice_mover_moves :
    (holds (exec (.sliceChannelDone 0 0) (moverSrc (mover copyDesc 0 true))) (fun t => moverEnded t 0 0 && t.readLE 0x2000 8 == 0x0807060504030201 && t.event .mover 1 &&
       t.rd .mover F.SMDONECNT_count == 1 && t.readBytes 0x3000 16 == statusBytes 0 1 0xAB 0)) ∧
    (holds (exec (.sliceChannelDone 0 1) (mover fillDesc 0 true)) (fun t => moverEnded t 0 0 && t.readLE 0x2000 8 == 0x00332211443322 * 256 && !t.event .mover 1)) ∧
    ((holds (exec (.sliceChannelDone 1 0) (moverSrc (mover copyDesc 1 true))) (fun t => moverEnded t 1 4 && t.readLE 0x2000 8 == 0x04030201 && t.event .mover 2) ∧
      holds (exec (.sliceChannelDone 1 1) (moverSrc (mover copyDesc 0 true))) (fun t => moverEnded t 4 4 && t.event .dram 3 && t.event .mover 3) ∧
      holds (exec (.sliceChannelDone 0 2) (moverSrc (mover copyDesc 0 true))) (fun t => moverEnded t 4 8 && t.event .dram 7 && t.readLE 0x2000 8 == 0))) := by
  refine ⟨?_, ?_, ?_⟩ <;> decide

/-- HashAndDram: messages taken in turn, a digest, a comparison that fails, a read that fails and a descriptor refused. -/
theorem test_hash_engine :
    (holds (exec .hashMessageStart { s0 with eng := { s0.eng with hashQ := [(hashDesc 0, 1), (hashTwo, 2)] } }) (fun t => t.eng.hashRun == some (hashDesc 0, 1) && t.eng.hashQ == [(hashTwo, 2)])) ∧
    ((hashOk (hashDesc (2 ^ 31)) 1 ∧ holds (exec (.hashMessageDone 0 0) (hashing (hashDesc (2 ^ 31)))) (fun t => t.eng.hashRun == none && t.event .hash 1 && t.rd .hash F.HSCNT_count == 1 &&
       t.rd .hash F.HSMISCNT_count == 0 && (t.readBytes 0x4000 4 == [0x38, 0xB0, 0x60, 0xA7]) && t.readBytes 0x4030 16 == statusBytes 0 1 5 0))) ∧
    (holds (exec (.hashMessageDone 0 0) (hashing (hashDesc 1))) (fun t => t.event .hash 2 && t.rd .hash F.HSMISCNT_count == 1 && t.readBytes 0x4000 4 == [0, 0, 0, 0])) ∧
    ((hashOk hashTwo 1 ∧ holds (exec (.hashMessageDone 2 1) (hashing hashTwo)) (fun t => t.event .hash 3 && t.readBytes 0x4030 16 == statusBytes 2 1 5 1) ∧
      hashOk (hashDesc 2) 1 = false ∧ holds (exec (.hashMessageDone 0 0) (hashing (hashDesc 2))) (fun t => t.event .hash 3 && t.readBytes 0x4030 16 == statusBytes 3 1 5 0))) := by
  exact ⟨by decide, by decide +kernel, by decide +kernel, by decide⟩

/-- HashAndDram: a training step that starts, two that are refused, the end of a step, and panics at their thresholds. -/
theorem test_dram_training :
    ((let v : Word := 0x80070105
      may s0 .keeper .dram 0x54 ∧ holds (exec (.dctrainGo .keeper v) s0) (fun t => t.flag .dram F.DCTRAIN_go && t.rd .dram F.DCTRAIN_channel == 7 && t.rd .dram F.DCTRAIN_kind == 1 &&
        t.rd .dram F.DCTRAIN_bursts == 5 && t.rd .dram F.DCSTAT_step == 128 && regsOnly s0 t) ∧
      holds (exec (.dctrainGo .keeper v) (s0.wr .dram F.DCTRAIN_go 1)) (fun t => crumbed t 0 0 UnitId.dram.number 3 (UnitId.dram.base + 0x54) v.toNat))) ∧
    ((let s : State := { s0.wr .dram F.DCSTAT_ready 128 with eng := { s0.eng with trained := [(7, some 1)] } }
      let at' (n : Nat) : State := { s with time := { s.time with ns := n } }
      holds (exec (.dctrainGo .keeper 0x80070105) (at' 10000000)) (fun t => crumbed t 0 0 UnitId.dram.number 3 (UnitId.dram.base + 0x54) 0x80070105) ∧
      holds (exec (.dctrainGo .keeper 0x80070105) (at' 10000001)) (fun t => t.flag .dram F.DCTRAIN_go))) ∧
    (holds (exec (.trainDone 262143 9) (((s0.wr .dram F.DCTRAIN_go 1).wr .dram F.DCTRAIN_channel 7).wr .dram F.DCSTAT_step 128)) (fun t => !t.flag .dram F.DCTRAIN_go && t.flag .dram F.DCCMP_done &&
       t.rd .dram F.DCCMP_fail == 262143 && t.rd .dram F.DCCMPCNT_count == 9 && t.rd .dram F.DCSTAT_step == 0 && t.event .dram 6 && Tbl.look none t.eng.trained 7 == some s0.time.ns)) ∧
    ((let s := (s0.wr .dram F.DCRTPANIC_feed 33).wr .dram F.DCRTPANIC_sink 4
      let p (s : State) (k : Nat) := Tbl.look (0, 0, false) s.eng.ports k
      holds (exec (.rtPortPanic 47 32767 true) s) (fun t => p t 47 == (32767, 1, true) && t.event .dram 4) ∧ holds (exec (.rtPortPanic 47 32768 true) s) (fun t => p t 47 == (32768, 0, false)) ∧
      holds (exec (.rtPortPanic 48 4096 false) s) (fun t => p t 48 == (4096, 0, false)) ∧ holds (exec (.rtPortPanic 95 4097 false) s) (fun t => p t 95 == (4097, 1, true)) ∧
      holds (exec (.rtPortPanic 96 32768 true) s) (fun t => p t 96 == (32768, 0, false) && !t.event .dram 4) ∧
      holds (exec (.rtPortPanic 48 0 false) { s with eng := { s.eng with ports := [(48, 9, 3, true)] } }) (fun t => p t 48 == (0, 3, false)) ∧
      holds (exec (.rtPortPanic 48 1 false) { s with eng := { s.eng with ports := [(48, 9, 3, true)] } }) (fun t => p t 48 == (1, 3, true)))) := by
  refine ⟨?_, ?_, ?_, ?_⟩ <;> decide

/-- The two sides of the ring unit, with what is changed on them. -/
def sides (s : State) (f g : RingSide → RingSide) : State := { s with rg := { s.rg with a := f s.rg.a, b := g s.rg.b } }

/-- Port A's side changed. -/
def sideA (s : State) (f : RingSide → RingSide) : State := sides s f id

/-- The device masters port A's ring with stations 0, 2 and 63; its last cycle was 998. -/
def ringMaster : State :=
  let s : State := { ((s0.wr .ring F.RNCTRL_porta 1).wr .ring F.RNSTAT_state rnMaster) with rg := { s0.rg with claimant := true } }
  sideA s (fun x => { x with lock := true, opened := true, mask := 2 ^ 63 + 5, held := 4, cycle := 998, epoch := 65535, serials := [(2, 21), (63, 31)] })

/-- The master's cycle 999 is out. -/
def cycleOut : State := sideA ringMaster (fun x => { x with out := true, cycle := 999, wrote := 2 ^ 63 + 5 })

/-- The device is station 2 of a ring on port A whose master is device 0. -/
def ringMember : State :=
  let s : State := { ((((s0.wr .ring F.RNCTRL_porta 1).wr .ring F.RNSTAT_state rnMember).wr .join F.JNSTAT_device 2).wr .time F.TMCFG_src 1) with
    rg := { s0.rg with master := some 0 } }
  sideA s (fun x => { x with lock := true, opened := true })

/-- A frame of cycle 999 with stations 0, 2 and 63. -/
def cycleFrame : CycleFrame := ⟨true, false, 65535, 999, 2 ^ 63 + 5, 0, [0, 0, 0], 2 ^ 63 + 5⟩

/-- `ringMember` in another RNSTAT.state. -/
def station (st : Nat) : State := ringMember.wr .ring F.RNSTAT_state st

/-- A frame came to be forwarded. -/
def forwards (s t : State) : Bool := t.rg.out == s.rg.out ++ [.forward]

/-- RingLinksAndClaims: block lock on an enabled port and on one that is off, block loss, a bad claim, and the end of a conflict. -/
theorem test_ring_links :
    ((holds (exec (.ringBlockLock false) (s0.wr .ring F.RNCTRL_porta 1)) (fun t => t.rnState false == rnListening && t.rg.a.opened && t.rg.a.lock && t.event .ring 1 && !t.rg.b.lock) ∧
      holds (exec (.ringBlockLock true) s0) (fun t => t.rnState true == rnOff && !t.rg.b.opened && t.rg.b.lock) ∧
      holds (exec (.ringBlockLock true) (s0.wr .ring F.RNCTRL_portb 1)) (fun t => t.rnState true == rnMaster) ∧
      holds (exec (.ringBlockLoss false) ringMember) (fun t => !t.rg.a.opened && !t.rg.a.lock && t.event .ring 2 && t.rnState false == rnMember))) ∧
    ((ringMaster.rg.claimant ∧ ringMaster.rg.a.opened ∧ ringMaster.rg.a.claim = none ∧ holds (exec (.claimFrame false 5 true) ringMember) (fun t => t.event .ring 12 && t.counter 191 == 1 &&
        crumbed t 2 15 UnitId.ring.number 1 0 0 && crumbOnly ringMember t))) ∧
    ((let s := sideA ringMaster (fun x => { x with second := some 5, conflict := true })
      let at' (n : Nat) : State := { s with time := { s.time with ns := n } }
      holds (exec (.conflictEnd false) (at' 10000004)) (fun t => t == at' 10000004) ∧
      holds (exec (.conflictEnd false) (at' 10000005)) (fun t => t.rg.a == ringMaster.rg.a && t.rnState false == rnMaster && regsOnly { at' 10000005 with rg := t.rg } t))) := by
  refine ⟨?_, ?_, ?_⟩ <;> decide

/-- RingMaster: requests to join that are forwarded, refused and kept for the next cycle, which admits them. -/
theorem test_ring_joins :
    ((holds (exec (.joinFrame false 1 9 none) ringMember) (forwards ringMember) ∧
      holds (exec (.joinFrame false 1 9 (some 0)) ringMaster) (fun t => t.rg.out == [.refuse false 9 2]) ∧
      holds (exec (.joinFrame false 1 9 (some 2)) ringMaster) (fun t => t.rg.out == [.refuse false 9 2]) ∧
      holds (exec (.joinFrame false 1 20 (some 2)) ringMaster) (fun t => t.rg.a.joins == [(1, 20, 2)] && t.rg.out == []) ∧
      holds (exec (.joinFrame false 1 9 none) ringMaster) (fun t => t.rg.a.joins == [(1, 9, 64)]))) ∧
    ((let full := sideA ringMaster (fun x => { x with mask := 2 ^ 64 - 1 })
      holds (exec (.joinFrame false 1 9 none) full) (fun t => t.rg.out == [.refuse false 9 3]) ∧ (stationsOf (full.side false).mask).length = 64)) ∧
    ((holds (exec (.ringCycleStart false) (sideA (ringMaster.wr .ring F.RNCTRL_autorel 0) (fun x => { x with joins := [(1, 9, 64)] }))) (fun t => t.rg.a.mask == 2 ^ 63 + 7 && t.rg.a.joins.isEmpty && t.rg.a.epoch == 0 &&
        t.event .ring 6 && t.rg.a.stationOf 9 == some 1 && bitOf t.rg.a.held 1 && t.rg.out.contains (.admission false 9 1 true)) ∧
      holds (exec (.ringCycleStart false) (sideA (ringMaster.wr .ring F.RNCTRL_autorel 1) (fun x => { x with joins := [(1, 9, 64)] }))) (fun t => !bitOf t.rg.a.held 1))) := by
  refine ⟨?_, ?_, ?_⟩ <;> decide

/-- RingMaster: a cycle's start with and without a sync frame, its three ends and RNREL. -/
theorem test_ring_cycle :
    ((holds (exec (.ringCycleStart false) ringMaster) (fun t => t.rg.a.mask == 2 ^ 63 + 5 && t.rg.a.cycle == 999 && t.rg.a.epoch == 65535 && t.rg.out.length == 1 &&
        t.rd .ring F.RNCYCLE_cycle == 999 && t.rd .ring F.RNSTAT_members == 3 && t.rd .ring F.RNEPOCH_epoch == 65535 && !t.event .ring 6) ∧
      holds (exec (.ringCycleStart false) (sideA ringMaster (fun x => { x with cycle := 999, gone := 4 }))) (fun t => t.rg.a.mask == 2 ^ 63 + 1 && t.rg.out.getLast? == some (.sync false 0 0) &&
        t.event .ring 6 && t.rg.a.epoch == 0))) ∧
    ((holds (exec (.gatherTimeout false) cycleOut) (fun t => t.rd .ring F.RNRES_result == 2 && !t.rg.a.out && t.rg.a.opens == 1 && !t.event .ring 8) ∧
      holds (exec (.gatherTimeout false) (sideA cycleOut (fun x => { x with opens := 2 }))) (fun t => t.event .ring 8))) ∧
    ((let f : CycleFrame := { cycleFrame with recs := [1, 2, 3], wrote := 2 ^ 63 + 1 }
      let s := (cycleOut.wr .ring F.RNGABASELO_base 1).wr .ring F.RNSCBASELO_base 2
      holds (exec (.gatherReturn false f 70000) s) (fun t => t.readLE (s.tableAt F.RNGABASELO_base F.RNGABASEHI_base false + 1008) 16 == 3 && t.rd .ring F.RNLOOP_loop == 65535 &&
        Tbl.look 0 t.rg.a.views 63 == 4 && Tbl.look 0 t.rg.a.views 2 == 0 && t.rg.out == [.scatter false ⟨true, false, 65535, 999, 2 ^ 63 + 5, 0, [0, 0, 0], 2 ^ 63 + 1⟩]) ∧
      holds (exec (.gatherReturn false { f with crcOk := false } 7) s) (fun t => t.mem == s.mem && t.rg.a.flagged && t.event .ring 12 && t.counter 191 == 1))) ∧
    ((let acks : CycleFrame := { cycleFrame with recs := [7 + 9 * 2 ^ 32, 2 ^ 65, 2 ^ 65] }
      holds (exec (.scatterReturn false acks) (sideA cycleOut (fun x => { x with rel := 4 }))) (fun t => t.rd .ring F.RNRES_result == 0 && t.counter 189 == 1 && t.rd .ring F.RNOUT0_out == 7 &&
        t.rd .ring F.RNOUT1_out == 9 && t.rg.a.held == 0 && t.rg.a.rel == 0) ∧
      holds (exec (.scatterReturn false acks) (sideA cycleOut (fun x => { x with wrote := 5 }))) (fun t => t.rd .ring F.RNRES_result == 1 && t.event .ring 7 && t.counter 190 == 1 &&
        t.rg.a.gone == 2 ^ 63 && t.rg.a.stale == 2 ^ 63) ∧
      holds (exec (.scatterReturn false { acks with err := true }) (sideA cycleOut (fun x => { x with rel := 4 }))) (fun t => t.rd .ring F.RNRES_result == 1 && t.rg.a.held == 4 && t.rg.a.rel == 4 &&
        t.rd .ring F.RNOUT0_out == 0))) ∧
    ((may ringMaster .keeper .ring 0x90 ∧ holds (exec (.rnrelWrite .keeper 2) ringMaster) (fun t => t.rg.a.rel == 4) ∧ holds (exec (.rnrelWrite .keeper 63) ringMaster) (fun t => t.rg.a.rel == 0) ∧
      holds (exec (.rnrelWrite .keeper (2 ^ 31)) ringMaster) (fun t => t.rg.a.rel == 4))) := by
  refine ⟨?_, ?_, ?_, ?_, ?_⟩ <;> decide

/-- RingStation: gather frames in each state, scatter frames held and released, loss, refusal and the delay exchange. -/
theorem test_ring_station :
    ((ringMember.station = 2 ∧ ringMember.otherMaster cycleFrame = false ∧
      holds (exec (.gatherFrame { cycleFrame with crcOk := false } none) ringMember) (fun t => t.rg.mine == none && t.event .ring 12 && forwards ringMember t) ∧
      holds (exec (.gatherFrame cycleFrame none) ringMember) (fun t => t.rg.mine == some 65535 && t.rd .ring F.RNCYCLE_cycle == 999 && t.rd .ring F.RNSTAT_members == 3 && forwards ringMember t) ∧
      holds (exec (.gatherFrame { cycleFrame with err := true } none) ringMember) (fun t => t.rg.mine == none && t.rnState false == rnMember) ∧
      holds (exec (.gatherFrame { cycleFrame with mask := 1 } none) ringMember) (fun t => t.rnState false == rnLost && t.event .ring 4 && crumbed t 2 15 UnitId.ring.number 3 0 0) ∧
      holds (exec (.gatherFrame { cycleFrame with master := 64 } none) ringMember) (fun t => t.rnState false == rnMember && crumbed t 2 15 UnitId.ring.number 4 64 0 && t.rg.master == some 0))) ∧
    ((holds (exec (.gatherFrame cycleFrame none) (station rnListening)) (fun t => t.rnState false == rnJoining && t.rg.out.length == 2) ∧
      holds (exec (.gatherFrame cycleFrame none) (station rnJoining)) (fun t => t.rnState false == rnJoining && t.rg.out.length == 1) ∧
      holds (exec (.gatherFrame cycleFrame (some (1, 63, true))) (station rnJoining)) (fun t => t.rnState false == rnMember && t.rd .join F.JNSTAT_device == 127 && t.flag .join F.ULOCK_locked &&
        t.flag .ring F.RNSTAT_held && t.event .ring 3 && t.rg.mine == some 65535) ∧
      holds (exec (.gatherFrame cycleFrame (some (2, 0, false))) (station rnJoining)) (fun t => t.rd .join F.JNSTAT_device == 128 && !t.flag .ring F.RNSTAT_held))) ∧
    ((let s : State := { ringMember with rg := { ringMember.rg with mine := some 65535 } }
      let f (v : Nat) : CycleFrame := { cycleFrame with recs := [1, v, 3] }
      holds (exec (.scatterFrame (f (6 + 8 * 2 ^ 32))) s) (fun t => t.rd .ring F.RNOUT0_out == 6 && t.rd .ring F.RNOUT1_out == 8 && forwards s t) ∧
      holds (exec (.scatterFrame (f 6)) (s.wr .ring F.RNSTAT_held 1)) (fun t => t.rd .ring F.RNOUT0_out == 0 && t.flag .ring F.RNSTAT_held) ∧
      holds (exec (.scatterFrame (f (6 + 2 ^ 64))) (s.wr .ring F.RNSTAT_held 1)) (fun t => t.rd .ring F.RNOUT0_out == 6 && !t.flag .ring F.RNSTAT_held && t.event .ring 13) ∧
      holds (exec (.scatterFrame { f 6 with epoch := 65534 }) s) (fun t => t.rd .ring F.RNOUT0_out == 0))) ∧
    ((holds (exec .ringLost ringMember) (fun t => t.rnState false == rnLost && t.event .ring 4) ∧ holds (exec .ringLost (station rnListening)) (fun t => t.rnState false == rnNoMaster) ∧
      holds (exec (.joinRefused 3) (station rnJoining)) (fun t => t.rnState false == rnRefused && !t.rg.a.opened && t.rd .join F.JNSTAT_result == 3 && t.event .join 1))) ∧
    ((holds (exec (.delayRequestSend 7) ringMember) (fun t => t.rg.t1 == some 7 && t.rg.out == [.delayRequest]) ∧ holds (exec (.delayRequestFrame 5 9) s0) (fun t => t.rg.out == [.delayReply 4]) ∧
      holds (exec (.delayReplyFrame 131107 37) { s0 with rg := { s0.rg with t1 := some 0 } }) (fun t => t.rd .time F.TMHOP_hop == 65535 && t.rg.t1 == none) ∧
      holds (exec (.delayReplyFrame 27 4) { s0 with rg := { s0.rg with t1 := some 7 } }) (fun t => t.rd .time F.TMHOP_hop == 8))) := by
  refine ⟨?_, ?_, ?_, ?_, ?_⟩ <;> decide

/-- RingSyncAndMessages, sync frames: forwarded, acquiring, inside and outside the window. -/
theorem test_ring_sync :
    ((let s := ringMember.wr .time F.TMHOP_hop 20
      holds (exec (.ringSyncFrame 0 5 7) (s.wr .time F.TMCFG_src 0)) (fun t => t.rg.out == [.sync false 0 (5 + 131072 + 7)]) ∧
      holds (exec (.ringSyncFrame 0 0 0) s) (fun t => t.rd .time F.TMSTAT_state == 1 && t.time.cand == some 0))) ∧
    ((let s (c : Int) (n : Nat) : State := let t := ringMember.wr .time F.TMSTAT_state 1
        { t with time := { t.time with ns := n, cand := some c } }
      (s 0 10100000).mustStep 0 = false ∧ holds (exec (.ringSyncFrame 10100000 0 0) (s 0 10100000)) (fun t => t.rd .time F.TMSTAT_state == 2 && t.time.expect == some 20100000 && t.time.ns == 10100000) ∧
      holds (exec (.ringSyncFrame 10100001 0 0) (s 0 10100001)) (fun t => t.rd .time F.TMSTAT_state == 1 && t.time.cand == some 10100001))) ∧
    ((let s (w : Nat) : State := let t := (ringMember.wr .time F.TMSTAT_state 2).wr .time F.TMPPSCFG_win w
        { t with time := { t.time with ns := 20000200, expect := some 20000000 } }
      (s 2).mustStep 200 = false ∧ holds (exec (.ringSyncFrame 20000000 0 0) (s 2)) (fun t => t.rd .time F.TMERR_error == 200 && t.time.expect == some 30000200 && t.rd .time F.TMSTAT_misses == 0) ∧
      holds (exec (.ringSyncFrame 20000000 0 0) (s 1)) (fun t => t.event .time 4 && t.rd .time F.TMSTAT_extras == 1 && t.time == (s 1).time))) := by
  refine ⟨?_, ?_, ?_⟩ <;> decide

/-- RingSyncAndMessages, messages: sent, refused, acknowledged, timed out, received once, again and into a full ring. -/
theorem test_ring_messages :
    ((let m : RMsg := ⟨[2 ^ 31 + 65, 9, 0x1000, 0, 4, 0x2000, 0, 0, 0, 0, 0, 0, 0, 0, 0, 0], 1, none, 0, 0⟩
      let q (w : List Nat) : State := { ringMember with rg := { ringMember.rg with msgQ := [{ m with words := w }], nextSeq := 3 } }
      let cur (n : Nat) : State := { ringMember with rg := { ringMember.rg with cur := some { m with seq := 3, sends := n } } }
      m.invalid = false ∧ holds (exec .ringMessageSend (q m.words)) (fun t => t.rg.cur == some { m with seq := 3, sends := 1 } && t.rg.out == [.message 65 3 9 [0, 0, 0, 0]] && t.rg.nextSeq == 4) ∧
      holds (exec .ringMessageSend (q (m.words.set 4 0))) (fun t => t.rg.cur == none && t.readBytes 0x2000 4 == leBytes 4 (4 * 2 ^ 28) && t.rg.msgQ.isEmpty) ∧
      ({ m with words := m.words.set 4 993 } : RMsg).invalid ∧ ({ m with words := m.words.set 4 992 } : RMsg).invalid = false ∧
      holds (exec (.ringMessageAck 3 0) (cur 1)) (fun t => t.rg.cur == none && t.event .ring 10 && t.readBytes 0x2000 8 == leBytes 4 0 ++ leBytes 4 9) ∧
      holds (exec (.ringMessageAck 3 2) (cur 1)) (fun t => t.rg.cur == none && !t.event .ring 10) ∧ holds (exec .ringMessageTimeout (cur 2)) (fun t => t.rg.cur == some { m with seq := 3, sends := 3 } && t.rg.out.length == 1) ∧
      holds (exec .ringMessageTimeout (cur 3)) (fun t => t.rg.cur == none && t.readBytes 0x2000 4 == leBytes 4 (3 * 2 ^ 28)))) ∧
    ((let go (s : State) (dst : Nat) (data : List Byte) (bad mem : Bool) := exec (.ringMessageFrame 64 dst 5 6 data none bad mem false) s
      let at2 := ringMember.wr .ring F.RNRXHEAD_head 255
      holds (go ringMember 2 [1] true true) (fun t => t.event .ring 12 && t.counter 191 == 1) ∧ holds (go ringMember 3 [1] false true) (forwards ringMember) ∧
      holds (go ringMember 2 [1] false false) (fun t => crumbed t 2 15 UnitId.ring.number 5 64 2 && forwards ringMember t) ∧
      holds (go at2 2 [1, 2] false true) (fun t => t.rg.out == [.ack 64 5 1] && t.mem == at2.mem) ∧
      holds (go (at2.wr .ring F.RNRXTAIL_tail 1) 2 [1, 2] false true) (fun t => t.rd .ring F.RNRXHEAD_head == 0 && t.event .ring 9 && t.rg.out == [.ack 64 5 0] && Tbl.look 0 t.rg.seen 64 == 6 &&
        t.readBytes (1024 * 255) 8 == [64, 0, 2, 0, 6, 0, 0, 0] && t.readBytes (1024 * 255 + 32) 2 == [1, 2]) ∧
      holds (go { ringMember with rg := { ringMember.rg with seen := [(64, 6)] } } 2 [1] false true) (fun t => t.rg.out == [.ack 64 5 0] && t.mem == ringMember.mem))) ∧
    ((holds (exec (.ringMessageFrame 64 2 5 6 (List.replicate 993 0) none false true false) ringMember) (fun t => crumbed t 2 15 UnitId.ring.number 2 64 2 && t.event .ring 12) ∧
      ringMember.coordRuns = false ∧ holds (exec (.ringMessageFrame 64 2 5 6 [] (some (.bake 1)) false true false) ringMember) (fun t => t.rg.out == [.ack 64 5 0] && t.rg.seen == [(64, 6)]))) := by
  exact ⟨by decide, by decide, by decide +kernel⟩

/-- RemoteAccesses: requests served, into the ring pods and misaligned; replies and timeouts for the host and for a core's load. -/
theorem test_remote_accesses :
    ((ringMember.onRing ∧ holds (exec (.remoteAccessRequest 64 0x200000 (some 5)) ringMember) (fun t => t.rg.out == [.reply 64 0] && t.regs == ringMember.regs) ∧
      holds (exec (.remoteAccessRequest 64 0x2FFFFC none) ringMember) (fun t => t.rg.out == [.reply 64 0]) ∧
      holds (exec (.remoteAccessRequest 64 0x1FFFFC none) ringMember) (fun t => t.rg.out == [.reply 64 (ringMember.busRead 10 0x1FFFFC).2]) ∧
      holds (exec (.remoteAccessRequest 64 (2 ^ 22) none) ringMember) (fun t => crumbed t 2 15 UnitId.ring.number 6 64 (2 ^ 22) && t.event .ring 12 && t.rg == ringMember.rg) ∧
      holds (exec (.remoteAccessRequest 64 2 none) ringMember) (fun t => crumbed t 2 15 UnitId.ring.number 6 64 2))) ∧
    ((let s : State := { ringMember with rg := { ringMember.rg with remote := [(9, 65, 0x40, none), (1, 65, 0x44, none)] } }
      let ld : State := s.updCore 0 (fun k => { k with wait := some ⟨4, 0, 4, 7⟩ })
      holds (exec (.remoteAccessReply .host 77) s) (fun t => t.read.data == 77 && t.rg.remote == [(1, 65, 0x44, none)]) ∧
      holds (exec (.remoteAccessReply (.core 0) 77) ld) (fun t => t.greg 0 7 == 77 && (t.core 0).wait == none && t.rg.remote == [(9, 65, 0x40, none)]) ∧
      holds (exec (.remoteAccessTimeout .host) (s.wr .ring F.RWSTAT_timeouts 65535)) (fun t => t.read.data == 0xFFFFFFFF && t.rd .ring F.RWSTAT_timeouts == 65535 && t.event .ring 11 &&
        crumbed t 1 15 UnitId.ring.number 11 65 0x40) ∧
      holds (exec (.remoteAccessTimeout (.core 0)) ld) (fun t => t.greg 0 7 == 0xFFFFFFFF && t.rd .ring F.RWSTAT_timeouts == 1))) := by
  refine ⟨?_, ?_⟩ <;> decide

/-- The pair unit with this side's role, PLSTAT.state, the lanes up and the peer's role. -/
def pair (role st lanes peer : Nat) : State :=
  (((s0.wr .pair F.PLCTRL_role role).wr .pair F.PLSTAT_state st).wr .pair F.PLSTAT_lanes lanes).wr .pair F.PLSTAT_peer peer

/-- The pairing has been lost; this side's role has been renewed, the peer's not. -/
def pairLost (s : State) : State := { s with pl := { s.pl with lost := true, renewed := true } }

/-- The pairing stands and `missed` heartbeats are missed. -/
def beating (role missed : Nat) : State :=
  let s := (pair role 2 1 (3 - role)).wr .pair F.PLSTAT_missed missed
  { s with pl := { s.pl with paired := true } }

/-- A mirror descriptor of one unit at the start of the burst buffer, of zone LBA 5, with its status at 0x2000. -/
def mirrorDesc (kind : Nat) : List Nat := [2 ^ 31 + kind, 77, 0, 1, 1, 0, 5, 0x2000, 0, 0, 0, 0, 0, 0, 0, 0]

/-- `s` with one descriptor waiting. -/
def queued (s : State) (d : List Nat) : State := { s with pl := { s.pl with queue := [(d, 7, none)] } }

/-- PairLink: the pair comes up with each relation of the roles, and after a loss only once both have been renewed. -/
theorem test_pair_up :
    ((holds (exec (.pairUp 4 2 9) (pair 1 0 0 0)) (fun t => t.plState == 2 && t.pl.paired && t.pl.serial == 9 && t.rd .pair F.PLSTAT_lanes == 4 && t.event .pair 1) ∧
      holds (exec (.pairUp 1 1 9) (pair 1 0 0 0)) (fun t => t.plState == 3 && t.event .pair 3) ∧ holds (exec (.pairUp 2 0 9) (pair 1 0 0 0)) (fun t => t.plState == 1) ∧
      holds (exec (.pairUp 2 1 9) (pair 3 0 0 0)) (fun t => t.plState == 1) ∧ holds (exec (.pairUp 3 2 9) (pair 1 0 0 0)) (fun t => t == pair 1 0 0 0) ∧
      holds (exec (.pairUp 4 2 9) (pairLost (pair 1 4 0 0))) (fun t => t.plState == 4))) := by
  decide

/-- PairLink: the pair goes down with a descriptor waiting, or with its PLL, as PCIe and SAS do. -/
theorem test_pair_down :
    ((holds (exec .pairDown (queued (pair 1 2 1 2) (mirrorDesc 1))) (fun t => t.plState == 0 && t.rd .pair F.PLSTAT_lanes == 0 && t.event .pair 2 && t.event .pair 8 && t.pl.queue.isEmpty &&
        t.readBytes 0x2000 8 == leBytes 4 (2 * 2 ^ 28) ++ leBytes 4 77) ∧ holds (exec .pairDown (pair 1 4 1 2)) (fun t => t.plState == 4 && !t.event .pair 8))) ∧
    ((holds (exec (.linkPllUnlock 0) (pair 1 2 1 2)) (fun t => t.event .time 14 && t.rd .pair F.PLSTAT_lanes == 1) ∧
      holds (exec (.linkPllUnlock 1) ((pair 1 2 1 2).wr .sas F.SAPHY0_up 1)) (fun t => t.event .time 14 && !t.flag .sas F.SAPHY0_up && t.rd .pair F.PLSTAT_lanes == 1) ∧
      holds (exec (.linkPllUnlock 2) (pair 1 2 1 2)) (fun t => t.event .time 14 && t.rd .pair F.PLSTAT_lanes == 0))) := by
  refine ⟨?_, ?_⟩ <;> decide

/-- PairLink: heartbeats sent, kicked and missed, the third one losing the peer on either side. -/
theorem test_pair_heartbeats :
    ((may s0 .keeper .pair 0x4C ∧ holds (exec .heartbeatSend { pair 1 2 1 2 with pl := { s0.pl with kicked := true } }) (fun t => t.rg.out == [.heartbeat true] && !t.pl.kicked) ∧
      holds (exec (.plkickWrite .keeper 0xFFFF5A5A) s0) (fun t => t.pl.kicked) ∧ holds (exec (.plkickWrite .keeper 0x5A5B) s0) (fun t => t == s0))) ∧
    ((holds (exec (.heartbeatMiss false) (beating 1 1)) (fun t => t.rd .pair F.PLSTAT_missed == 2 && t.pl.paired) ∧
      holds (exec (.heartbeatMiss false) ((pair 1 1 1 0).wr .pair F.PLSTAT_missed 255)) (fun t => t.rd .pair F.PLSTAT_missed == 255) ∧
      holds (exec (.heartbeatMiss false) (beating 1 2)) (fun t => t.plState == 4 && t.event .pair 4 && t.pl.lost && !t.pl.renewed && !t.pl.paired) ∧
      holds (exec (.heartbeatMiss false) (beating 2 2)) (fun t => t.plState == 5 && t.event .pair 5) ∧
      holds (exec (.heartbeatMiss false) ((beating 2 2).wr .pair F.PLCTRL_manual 1)) (fun t => t.plState == 4 && t.event .pair 4))) ∧
    ((let s : State := { beating 1 2 with rcd := { s0.rcd with cart := 2 } }
      s.writable ∧ holds (exec (.heartbeatMiss false) s) (fun t => t.rcd.ckpt.isSome && t.tb.jourQ.length == 1))) := by
  refine ⟨?_, ?_, ?_⟩ <;> decide

/-- PairLink: roles written with and without a loss, and takeover. -/
theorem test_pair_roles :
    ((may s0 .keeper .pair 0x40 ∧ holds (exec (.plctrlRole .keeper 6 none) (pair 0 1 1 1)) (fun t => t.plState == 2 && t.rd .pair F.PLCTRL_role == 2 && t.flag .pair F.PLCTRL_manual) ∧
      holds (exec (.plctrlRole .keeper 1 none) (pair 0 1 1 1)) (fun t => t.plState == 3 && t.event .pair 3) ∧ holds (exec (.plctrlRole .keeper 3 none) (pair 1 3 1 1)) (fun t => t.plState == 1) ∧
      holds (exec (.plctrlRole .keeper 2 none) (pair 0 0 0 0)) (fun t => t.plState == 0))) ∧
    ((let s : State := { pairLost (pair 1 4 1 2) with rcd := { s0.rcd with zones := [(0, ⟨.closed, 9, 0, 0⟩)] }, pl := { (pairLost s0).pl with split := [(0, 8)] } }
      holds (exec (.plctrlRole .keeper 1 (some 2)) s) (fun t => t.plState == 2 && t.pl.paired && !t.pl.lost && t.pl.exch && t.pl.queue == [([3], 7, some (.zones [(0, 7, 9)]))]))) ∧
    ((holds (exec (.plctrlTakeover .keeper 10) (pairLost (pair 2 4 1 1))) (fun t => t.plState == 5 && t.event .pair 5) ∧
      holds (exec (.plctrlTakeover .keeper 9) (pairLost (pair 2 4 1 1))) (fun t => t.plState == 4 && t.rd .pair F.PLCTRL_role == 1))) := by
  refine ⟨?_, ?_, ?_⟩ <;> decide

/-- Mirroring: markers, bad descriptors, data that waits, and control descriptors. -/
theorem test_mirror_send :
    ((let s := pair 1 2 1 2
      mirrorBad (mirrorDesc 1) = false ∧ mirrorBad (mirrorDesc 0) ∧ mirrorBad (mirrorDesc 4) ∧ mirrorBad ((mirrorDesc 1).set 4 4097) ∧ mirrorBad ((mirrorDesc 1).set 5 64) ∧
      mirrorBad ((mirrorDesc 2).set 7 8) ∧
      holds (exec (.mirrorSend true true) (queued s (mirrorDesc 4))) (fun t => t.pl.queue.isEmpty && t.event .pair 8 && t.readBytes 0x2000 8 == leBytes 4 (3 * 2 ^ 28) ++ leBytes 4 77 && t.rg == s.rg) ∧
      holds (exec (.mirrorSend true true) (queued s (mirrorDesc 2))) (fun t => t.pl.queue.isEmpty && t.event .pair 6 && t.rg.out == [.mirror (mirrorDesc 2) []]) ∧
      holds (exec (.mirrorSend false true) (queued s (mirrorDesc 1))) (fun t => t == queued s (mirrorDesc 1)) ∧ (queued s (mirrorDesc 1)).pl.held = [])) ∧
    ((let s : State := { pair 2 2 1 1 with pl := { s0.pl with queue := [([3], 7, some (.bake 9))] } }
      holds (exec (.mirrorSend true true) s) (fun t => t.rg.out == [.pairCoord (.bake 9)] && t.pl.queue.isEmpty))) := by
  refine ⟨?_, ?_⟩ <;> decide

/-- Mirroring: a marker received, data ready to be stored, and a recorder change. -/
theorem test_mirror_receive :
    ((let s := pair 2 2 1 1
      s.mirrorFull = false ∧ holds (exec (.mirrorReceive (mirrorDesc 2) [] [] 0 none) (s.wr .pair F.PLRXHEAD_head 1022)) (fun t => t.rd .pair F.PLRXHEAD_head == 1023 && t.event .pair 7 &&
        t.rg.out == [.mirrorStatus 77 0] && t.readBytes (1022 * 64) 8 == leBytes 4 (2 ^ 31 + 2) ++ leBytes 4 77) ∧
      holds (exec (.mirrorReceive (mirrorDesc 2) [] [] 0 none) (s.wr .pair F.PLRXHEAD_head 1023)) (fun t => t == s.wr .pair F.PLRXHEAD_head 1023) ∧
      s.unitsFree 0x100000000 1 ∧ inBurst 0x100000000)) ∧
    ((let s : State := (pair 2 2 1 1).wr .power F.PWSTART_level 2
      s.coordRuns ∧ holds (exec (.mirrorReceive (mirrorDesc 3) [] [] 0 (some (.record 5))) s) (fun t => t.rg.recorder == 5 && t.mem == s.mem))) := by
  refine ⟨?_, ?_⟩ <;> decide

/-- The NOR unit runs a host command, so that a record asked for waits. -/
def norBusy (s : State) : State := { s with recs := { s.recs with nor := some ⟨false, 0x20000, [], false⟩ } }

/-- Beam 47 gathers, with dither and adaptation on, its phase byte at `p` and its gain on layer 0 at `g`. -/
def beam47 (p g : Nat) : State :=
  ((((s0.wr (.beam 47) F.BCALCTRL_enable 1).wr (.beam 47) F.BCALCTRL_dither 1).wr (.beam 47) F.BCALCTRL_adapt 1).wr (.beam 47) F.BRLIVE0_bytes3_0 (p * 2 ^ 24)).setLptByte 3
    (gainWord 0 0 11) 3 g

/-- The gather of `beam47` with equal means. -/
def gather (s : State) (beta : Option Int) (phase : Option (Nat × Nat)) (adapt : List Byte) : Out :=
  execGatherLatch 47 100 100 7 beta phase none adapt none s

/-- Head 3 follows a track with a step of kind `k` requested. -/
def bgHead (k : Nat) : State := (((head3 2).wr (.head 3) F.HBGREQ_go 1).wr (.head 3) F.HBGREQ_kind k).wr (.head 3) F.HBGREQ_slot 95

/-- `bgHead` with its window granted. -/
def bgRuns (k : Nat) : State := { bgHead k with bg := { s0.bg with running := [(3, 10)] } }

/-- `s` with a ledger entry. -/
def aged (e : Nat) (a : Age) (s : State) : State := norBusy { s with recs := { s.recs with ages := [(e, a)] } }

/-- Measure entry `e` once, with nothing for LPMAX. -/
def measured (e : Fin 305) (v : Word) (s : State) : Out := execAgeingMeasurement e false v none s

/-- NORADDR names `a`. -/
def norAt (a : Nat) : State := s0.wr .nor F.NORADDR_offset a

/-- A valid record of kind 8 at generation 5 in its slot A. -/
def recorded : State := s0.storeBytes (norAddr (sectorOff 28)) (recBody 8 5 paramBytes ++ leBytes 4 crustWord)

/-- BackgroundCalibration: a gather with the phase moved, held at its limits, left alone; taps adapted; the gain against β at its limits. -/
theorem test_gathers :
    ((holds (gather (beam47 0 128) none none []) (fun t => t.rd (.beam 47) F.BCSOFT1_mean == 100 && t.rd (.beam 47) F.BCITER_mean == 7 && t.rd (.beam 47) F.BCGATH_count == 1 && t.lpt == (beam47 0 128).lpt) ∧
      holds (exec (.gatherLatch 47 1 1 1 none none none [] none) s0) (fun t => t == s0))) ∧
    ((holds (gather (beam47 0 128) none (some (102, 100)) []) (fun t => t.liveByte 47 3 == 1) ∧ holds (gather (beam47 0 128) none (some (101, 100)) []) (fun t => t.liveByte 47 3 == 0) ∧
      holds (gather (beam47 0 128) none (some (100, 102)) []) (fun t => t.liveByte 47 3 == -1) ∧
      holds (gather (beam47 127 128) none (some (102, 100)) []) (fun t => t.liveByte 47 3 == 127 && t.event (.beam 47) 10) ∧
      holds (gather ((beam47 0 128).wr (.beam 47) F.BRCTRL_trimhold 1) none (some (102, 100)) [1, 2, 3, 4, 5, 6, 7]) (fun t => t.liveByte 47 3 == 0 && t.liveByte 47 4 == 0) ∧
      holds (gather ((beam47 0 128).wr (.beam 47) F.BCALCTRL_dither 0) none (some (102, 100)) []) (fun t => t.liveByte 47 3 == 0))) ∧
    ((holds (gather (beam47 0 128) none none [1, 2, 3, 4, 5, 0xFF, 7]) (fun t => t.liveByte 47 4 == 1 && t.liveByte 47 9 == -1 && t.liveByte 47 10 == 7) ∧
      holds (gather (beam47 0 128) none none [1]) (fun t => t.liveByte 47 4 == 0) ∧
      holds (exec (.gatherLatch 47 100 100 7 none none (some (102, 100)) [] none) (beam47 0 128)) (fun t => t.rd (.beam 47) F.BCDRAWOFS_ofs == 1))) ∧
    ((holds (gather (beam47 0 128) (some 17) none []) (fun t => t.gain 3 0 0 11 == 127 && t.rd (.beam 47) F.BCBETA_beta == 17) ∧ holds (gather (beam47 0 128) (some 16) none []) (fun t => t.gain 3 0 0 11 == 128) ∧
      holds (gather (beam47 0 64) (some 17) none []) (fun t => t.gain 3 0 0 11 == 64 && t.event (.beam 47) 10) ∧ holds (gather (beam47 0 254) (some (-17)) none []) (fun t => t.gain 3 0 0 11 == 255) ∧
      holds (gather (beam47 0 255) (some (-32769)) none []) (fun t => t.gain 3 0 0 11 == 255 && t.event (.beam 47) 10 && t.rd (.beam 47) F.BCBETA_beta == 32768) ∧
      holds (gather (beam47 0 63) (some (-17)) none []) (fun t => t.gain 3 0 0 11 == 64))) := by
  refine ⟨?_, ?_, ?_, ?_⟩ <;> decide

/-- BackgroundCalibration: requests, grants, ends of each kind, starvation and forced windows. -/
theorem test_background_steps :
    ((let v : Word := 0x825F7080
      may s0 .keeper (.head 3) 0x10C ∧ holds (exec (.hbgreqGo .keeper 3 v) s0) (fun t => t.flag (.head 3) F.HBGREQ_go && t.rd (.head 3) F.HBGREQ_kind == 2 && t.rd (.head 3) F.HBGREQ_slot == 95 &&
        t.rd (.head 3) F.HBGREQ_mode == 7 && t.rd (.head 3) F.HBGREQ_amp == 128 && regsOnly s0 t) ∧
      holds (exec (.hbgreqGo .keeper 3 v) (bgHead 1)) (fun t => crumbed t 0 0 (UnitId.head 3).number 3 ((UnitId.head 3).base + 0x10C) v.toNat) ∧
      holds (exec (.hbgreqGo .keeper 3 0x80000000) s0) (fun t => !t.flag (.head 3) F.HBGREQ_go && t.rd (.head 3) F.HBGRES_result == 3 && t.event (.head 3) 15))) ∧
    (((bgHead 1).bgMay 3 9 ∧ holds (exec (.bgStepGrant 3 9) (bgHead 1)) (fun t => t.bg.running == [(3, 10)]) ∧
      holds (exec (.bgStepGrant 3 9) ((bgHead 1).wr (.head 3) F.HSEQSTAT_state 1)) (fun t => t.bg.running == []) ∧
      holds (exec (.bgStepGrant 3 9) ((bgHead 3).wr (.head 3) F.HBGREQ_mode 5)) (fun t => t.rd (.slot 95) F.SLTUNE_mode == 5 && t.bg.running == [(3, 10)]))) ∧
    ((holds (exec (.bgStepEnd 3 true 0 0) (bgRuns 1)) (fun t => t.rd (.head 3) F.HBGRES_result == 2 && !t.flag (.head 3) F.HBGREQ_go && t.event (.head 3) 15 && t.bg.running == []) ∧
      holds (exec (.bgStepEnd 3 false 102 100) (bgRuns 1)) (fun t => t.rd (.head 3) F.HCALFOC_trim == 0 && t.rd (.head 3) F.HBGRES_result == 1 && t.rd (.head 3) F.HBGRES_steps == 1) ∧
      holds (exec (.bgStepEnd 3 false 103 100) (bgRuns 1)) (fun t => t.rd (.head 3) F.HCALFOC_trim == 1) ∧
      holds (exec (.bgStepEnd 3 false 103 100) ((bgRuns 2).wr (.head 3) F.HCALTLT_trim 127)) (fun t => t.rd (.head 3) F.HCALTLT_trim == 127 && t.rd (.head 3) F.HBGRES_result == 3) ∧
      holds (exec (.bgStepEnd 3 false 0 1) (bgRuns 2)) (fun t => t.rd (.head 3) F.HCALTLT_trim == 255 || t.rd (.head 3) F.HCALTLT_trim == 2 ^ F.HCALTLT_trim.w - 1))) ∧
    ((let m : Tune := ⟨5, false, 0, 0, 0, 0, false, 0, 0, 0, 0, 0, 0, 0⟩
      let s : State := withSlot (bgRuns 3) 95 { SlotSt.none with tune := some m }
      holds (exec (.bgStepEnd 3 false 0 0) s) (fun t => t.rd (.head 3) F.HBGRES_result == 1 && (t.slot 95).tune == some { m with ending := true } && !t.flag (.head 3) F.HBGREQ_go) ∧
      holds (exec (.bgStepEnd 3 true 0 0) s) (fun t => t.rd (.head 3) F.HBGRES_result == 2 && (t.slot 95).tune == some { m with ending := true }))) ∧
    ((holds (exec (.keepStarved 3) (bgHead 1)) (fun t => t.event .keeper 20) ∧ may s0 .keeper .media 0x60 ∧ holds (exec (.mbgskipWrite .keeper 0) s0) (fun t => t == s0) ∧
      holds (exec (.mbgskipWrite .keeper 0x80000000) s0) (fun t => t.flag .media F.MBGSKIP_skip && regsOnly s0 t))) := by
  refine ⟨?_, ?_, ?_, ?_, ?_⟩ <;> decide

/-- AgeingLedger: first and later measurements in each part of the ledger, and what is re-planned from them. -/
theorem test_ageing :
    ((holds (measured 304 5 s0) (fun t => t.age 304 == ⟨5, 5, 0, 100, 0, 1⟩) ∧ holds (measured 177 50005 (aged 177 ⟨5, 7, 0, 99, 0, 65535⟩ s0)) (fun t => t.age 177 == ⟨5, 50005, 0, 49, 0, 65535⟩))) ∧
    ((holds (measured 68 151 (aged 68 ⟨100, 100, 0, 100, 0, 1⟩ s0)) (fun t => t.event .keeper 23 && crumbed t 3 0 UnitId.keeper.number 23 68 0) ∧
      holds (measured 68 150 (aged 68 ⟨100, 100, 0, 100, 0, 1⟩ s0)) (fun t => !t.event .keeper 23) ∧
      holds (measured 168 24 (aged 168 ⟨40, 40, 0, 100, 0, 1⟩ (s0.wr .thermal F.THLIM_throttle 97))) (fun t => t.event .keeper 23 && t.rd .thermal F.THLIM_throttle == 92) ∧
      holds (measured 69 24 (aged 69 ⟨40, 40, 0, 100, 0, 1⟩ (s0.wr .thermal F.THLIM_throttle 60))) (fun t => t.rd .thermal F.THLIM_throttle == 90) ∧
      holds (measured 69 25 (aged 69 ⟨40, 40, 0, 100, 0, 1⟩ s0)) (fun t => !t.event .keeper 23 && t.regs == (aged 69 Age.none s0).regs) ∧
      holds (measured 176 23 (aged 176 ⟨40, 40, 0, 100, 0, 1⟩ s0)) (fun t => t.event .keeper 23 && Tbl.look 0 t.recs.planned 176 == 1))) ∧
    ((let s := aged 52 ⟨1000, 1000, 0, 100, 0, 1⟩ (s0.wr (.slot 15) F.SLOUT_o0 256)
      s.slotOfVcm 0 = some 15 ∧ beyondHalfDb 900 1000 ∧ beyondHalfDb 990 1000 = false ∧ holds (measured 52 900 s) (fun t => t.event .keeper 23 &&
        (t.slot 15).cpend == (List.range 16).map (fun r => (16 * r + 15, 0x400000 * 1000 / 900))))) ∧
    ((holds (exec (.ageingMeasurement 47 false 9 (some 200)) (norBusy (s0.wr (.laser 3) F.LPMAX_max 201))) (fun t => t.event .keeper 23 && t.rd (.laser 3) F.LPMAX_max == 200 &&
        Tbl.look (0, 0, 255) t.recs.halves 94 == (9, 9, 100) && (t.age 47).count == 1))) ∧
    ((let c := norBusy ((s0.wr (.beam 47) F.BWSTAT_candidate 1).setLptByte 3 (gainWord 1 15 11) 3 253)
      let late (n : Nat) : State := { c with recs := { c.recs with planned := [(559, 1)] }, time := { c.time with ns := n } }
      holds (measured 47 9 c) (fun t => !t.flag (.beam 47) F.BWSTAT_candidate && t.gain 3 1 15 11 == 255 && t.gain 3 0 0 11 == 4) ∧
      holds (measured 47 9 (late 3600000000000)) (fun t => t.tb.retiring == [47] && t.flag (.beam 47) F.BWCTRL_retire && t.event .keeper 24 && bitOf (t.age 47).flags 0) ∧
      holds (measured 47 9 (late 3600000000001)) (fun t => t.tb.retiring == [] && !t.flag (.beam 47) F.BWSTAT_candidate))) ∧
    ((let gone : State := { norBusy (s0.wr (.beam 47) F.BWSTAT_candidate 1) with tb := { s0.tb with retiring := [36, 37, 38] } }
      let s : State := { gone with recs := { gone.recs with planned := [(559, 1)] } }
      s.mayRetire 47 = false ∧ s.beamGone 47 = false ∧ holds (measured 47 9 s) (fun t => t.tb == s.tb && t.event (.beam 47) 5 && bitOf (t.age 47).flags 1) ∧
      holds (measured 47 1000 { norBusy s0 with recs := { (norBusy s0).recs with halves := [(94, 10, 10, 100)] } }) (fun t => (t.age 47).health == 0 && t.tb.retiring == [47] && t.event .keeper 24))) := by
  exact ⟨by decide, by decide, by decide, by decide, by decide +kernel, by decide⟩

/-- NorAndRecords: NORCMD by those who may and may not, its checks at their limits, a busy unit, and a command's end. -/
theorem test_nor :
    ((mayWrite (.core 0) .nor 0x48 = false ∧ mayWrite .keeper .nor 0x48 ∧
      holds (exec (.norProgram (.core 0) 0x70000 1) (norAt 0x20000)) (fun t => t.event .nor 0 && t.event .nor 2 && crumbed t 0 1 UnitId.nor.number 3 (UnitId.nor.base + 0x48) 257) ∧
      holds (exec (.norErase .keeper 0x6FFFF) (norAt 0x20000)) (fun t => t.event .nor 2 && crumbed t 0 0 UnitId.nor.number 3 (UnitId.nor.base + 0x48) 2) ∧
      holds (exec (.norErase .keeper 0x80000) (norAt 0x20000)) (fun t => !t.flag .nor F.NORSTAT_busy) ∧
      holds (exec (.norErase .keeper 0x70000) ((norAt 0x20000).wr .nor F.NORSTAT_busy 1)) (fun t => crumbed t 0 0 UnitId.nor.number 3 (UnitId.nor.base + 0x48) 2 && !t.event .nor 2))) ∧
    ((holds (exec (.norErase .keeper 0x7FFFF) (norAt 0xFFFF)) (fun t => t.rd .nor F.NORSTAT_result == 1 && t.event .nor 2) ∧ holds (exec (.norErase .keeper 0x7FFFF) (norAt 0x10000)) (fun t =>
        t.flag .nor F.NORSTAT_busy && t.recs.nor == some ⟨true, 0x10000, [], false⟩) ∧
      holds (exec (.norErase .keeper 0x70000) (norAt 0x10001)) (fun t => t.rd .nor F.NORSTAT_result == 3) ∧ holds (exec (.norProgram .keeper 0x70000 0) (norAt 0x10000)) (fun t => t.rd .nor F.NORSTAT_result == 3) ∧
      holds (exec (.norProgram .keeper 0x70000 257) (norAt 0x10000)) (fun t => t.rd .nor F.NORSTAT_result == 3) ∧ holds (exec (.norProgram .keeper 0x70000 3) (norAt 0x100FE)) (fun t => t.rd .nor F.NORSTAT_result == 3) ∧
      holds (exec (.norProgram .keeper 0x70000 2) (norAt 0x100FE)) (fun t => t.recs.nor == some ⟨false, 0x100FE, [0, 0], false⟩ && t.flag .nor F.NORSTAT_busy))) ∧
    ((let runs (o : NorOp) : State := { s0.storeLE (norAddr 0x20000) 2 0x1234 with recs := { s0.recs with nor := some o } }
      holds (exec (.norCommandDone false) (runs ⟨true, 0x20000, [], false⟩)) (fun t => t.recs.nor == none && t.rd .nor F.NORSTAT_result == 0 && t.event .nor 1 && t.readLE (norAddr 0x20000) 2 == 65535) ∧
      holds (exec (.norCommandDone false) (runs ⟨false, 0x20002, [7, 8], false⟩)) (fun t => t.readLE (norAddr 0x20000) 4 == 0x08071234) ∧
      holds (exec (.norCommandDone true) (runs ⟨false, 0x20002, [7, 8], false⟩)) (fun t => t.rd .nor F.NORSTAT_result == 4 && !t.event .nor 1 && t.recs.nor == none))) := by
  refine ⟨?_, ?_, ?_⟩ <;> decide

/-- NorAndRecords: record requests that wait, start in slot A or in the slot that is not current, go on, end and fail. -/
theorem test_records :
    ((holds (exec (.recordWriteRequest 8) (norBusy s0)) (fun t => t.recs.queue == [8]) ∧
      holds (exec (.recordWriteRequest 8) { norBusy s0 with recs := { (norBusy s0).recs with queue := [8] } }) (fun t => t.recs.queue == [8]))) ∧
    ((s0.recCurrent 8 = none ∧ s0.worn 8 28 = false ∧ holds (exec (.recordWriteRequest 8) s0) (fun t => (t.recs.job.map (fun j => (j.kind, j.slot, j.sector, j.gen, j.again))) == some (8, 0, 28, 1, false) &&
        t.recs.nor == some ⟨true, sectorOff 28, [], true⟩ && t.flag .nor F.NORSTAT_busy && t.recs.queue.isEmpty))) ∧
    ((recorded.recCurrent 8 = some (0, 5, []) ∧ holds (exec .recordRetry { recorded with recs := { s0.recs with retry := [8, 3] } }) (fun t =>
        (t.recs.job.map (fun j => (j.kind, j.slot, j.sector, j.gen, j.again))) == some (8, 1, 29, 6, true) && t.recs.retry == [3]))) ∧
    ((let o1 : NorOp := ⟨true, sectorOff 127, [], true⟩
      let o2 : NorOp := ⟨false, sectorOff 127, [1], true⟩
      let s (again : Bool) (ops : List NorOp) : State := { s0 with recs := { s0.recs with nor := ops.head?, job := some ⟨8, 0, 28, 5, [1], ops, again⟩ } }
      holds (exec (.norCommandDone false) (s false [o1, o2])) (fun t => t.recs.nor == some o2 && t.flag .nor F.NORSTAT_busy && (t.age 304).latest == 1) ∧
      holds (exec (.norCommandDone false) (s false [o2])) (fun t => t.recs.job == none && t.recs.nor == none && Tbl.look (0, []) t.recs.slots 16 == (5, [1]) && !t.flag .nor F.NORSTAT_busy) ∧
      holds (exec (.norCommandDone true) (s false [o2])) (fun t => t.recs.job == none && t.event .keeper 21 && t.recs.retry == [8] && t.rd .nor F.NORSTAT_result == 4) ∧
      holds (exec (.norCommandDone true) (s true [o2])) (fun t => t.recs.retry == [] && t.event .keeper 21))) := by
  exact ⟨by decide, by decide +kernel, by decide +kernel, by decide⟩

/-- The bytes of a package header before its check word: one block of target 0, whose length is 1. -/
def pkgHead : List Byte := ([0x50, 0x4B, 0x47, 0x49, 1, 0, 0, 0, 1, 0, 0, 0, 1, 0, 0, 0].map byteOf ++ List.replicate 48 0) ++ List.replicate 8124 0

/-- One bit of a check word stays within 32 bits. -/
theorem crc32cBit_lt (c : Nat) (h : c < 2 ^ 32) : crc32cBit c < 2 ^ 32 := by
  unfold crc32cBit
  split
  · exact Nat.xor_lt_two_pow (by omega) (by decide)
  · omega

/-- A check word has 32 bits. -/
theorem crc32c_lt (bs : List Byte) : crc32c bs < 2 ^ 32 := by
  have go : ∀ (bs : List Byte) (c : Nat), c < 2 ^ 32 →
      bs.foldl (fun c b => [0, 1, 2, 3, 4, 5, 6, 7].foldl (fun c _ => crc32cBit c) (c ^^^ b.toNat)) c < 2 ^ 32 := by
    intro bs
    induction bs with
    | nil => exact fun c h => h
    | cons b bs ih =>
      intro c h
      apply ih
      have hb : b.toNat < 2 ^ 32 := Nat.lt_of_lt_of_le b.isLt (by decide)
      have hx := Nat.xor_lt_two_pow h hb
      simp only [List.foldl_cons, List.foldl_nil]
      iterate 8 apply crc32cBit_lt
      exact hx
  exact Nat.xor_lt_two_pow (go bs _ (by decide)) (by decide)

/-- A package header with its check word. -/
def pkg : List Byte := pkgHead ++ leBytes 4 (crc32c pkgHead)

/-- Four bytes of a number read back as it. -/
theorem leNat_four (c : Nat) (h : c < 2 ^ 32) : leNat (leBytes 4 c) = c := by
  simp only [leBytes, leNat, BitVec.toNat_ofNat]; omega

/-- FirmwareDownloads: a header that passes. -/
theorem test_package_header : pkgOk pkg = true := by
  have hl : pkgHead.length = 8188 := by simp only [pkgHead, List.length_append, List.length_replicate, List.length_map, List.length_cons, List.length_nil]
  have ht : pkg.take 0x1FFC = pkgHead := by rw [pkg, List.take_left' hl]
  have hd : (pkg.drop 0x1FFC).take 4 = leBytes 4 (crc32c pkgHead) := by rw [pkg, List.drop_left' hl]; rfl
  have hn : 0x40 + 4 * leNat ((pkg.drop 0xC).take 4) = 68 := by decide +kernel
  have hr : pkgHead.drop 68 = List.replicate 8120 (0 : Byte) := by
    rw [pkgHead, List.drop_append]
    simp only [List.drop_replicate, List.length_append, List.length_map, List.length_replicate, List.length_cons, List.length_nil]
    rfl
  have hz : allZero (List.replicate 8120 (0 : Byte)) = true := by
    rw [allZero, List.all_eq_true]; intro x hx; rw [List.eq_of_mem_replicate hx]; rfl
  unfold pkgOk
  simp only [ht, hd, hn, hr, hz, leNat_four _ (crc32c_lt _), beq_self_eq_true, Bool.and_true]
  decide +kernel

/-- FirmwareDownloads: a block of zeros agrees with its own check word, whatever that is. -/
theorem test_block_crc : ([crc32c (List.replicate 4096 0)] : List Nat)[0]? = some (crc32c (List.replicate 4096 0)) := rfl

/-- A command of the admin queue with the bytes of a firmware block. -/
def fwCmd (opc d10 d11 n : Nat) : HCmd := withData (admin opc d10 d11) n

/-- A download session on NVMe (or SAS) with block 0 of two delivered, for slot `target`. -/
def fwOpen (sas : Bool) (target : Nat) (blocks : List Nat) : State :=
  { loaded with fw := { s0.fw with session := some ⟨sas, target, 8192, [1, 2], blocks, [0], []⟩ } }

/-- The keeper calls a loader service with g4, g5 and g6. -/
def service (off len : Nat) : State :=
  (((loaded.wr .keeper F.USTAT_state 3).setGreg 8 4 off).setGreg 8 6 len).setGreg 8 31 0x1234

/-- A service has ended with this result. -/
def serviceEnded (t : State) (result : Nat) : Bool := t.greg 8 2 == result && (t.core 8).pc == 0x1234

/-- FirmwareDownloads: headers, blocks and lengths at their limits, sessions of the other interface, and a check word that differs. -/
theorem test_firmware_download :
    ((pkgOk (List.replicate 8192 0) = false ∧ frontOk loaded (fwCmd 0x11 2047 0 8192) ∧ frontOk loaded (fwCmd 0x11 1023 2048 4096) ∧ frontOk loaded (fwCmd 0x10 0 0 0))) ∧
    ((holds (exec .firmwareImageDownload (front loaded (fwCmd 0x11 1023 1 4096))) (fun t => answered t 0 .invalidField) ∧
      holds (exec .firmwareImageDownload (front loaded (fwCmd 0x11 1022 0 4096))) (fun t => answered t 0 .invalidField) ∧
      holds (exec .firmwareImageDownload (front loaded (fwCmd 0x11 4195327 0 4096))) (fun t => answered t 0 .invalidField) ∧
      holds (exec .firmwareImageDownload (front loaded (fwCmd 0x11 1023 0 4095))) (fun t => answered t 0 .invalidField))) ∧
    ((holds (exec .firmwareImageDownload (front (fwOpen true 1 []) (fwCmd 0x11 1023 2048 4096))) (fun t => answered t 0 .busy && t.fw == (fwOpen true 1 []).fw) ∧
      (fwOpen false 1 []).fw.heads = [])) ∧
    ((holds (exec .firmwareImageDownload (front loaded (fwCmd 0x11 1023 2048 4096))) (fun t => answered t 0 .invalidField && t.fw == loaded.fw))) := by
  exact ⟨by decide, by decide, by decide, by decide +kernel⟩

/-- FirmwareCommit: actions and slots at their limits, no session, one that is incomplete, an image that fails and an enrolment that fails. What a good image needs besides (its signature) is left open. -/
theorem test_firmware_commit :
    ((holds (exec .firmwareCommit (front (fwOpen false 1 [0, 1]) (fwCmd 0x10 24 0 0))) (fun t => answered t 0 .invalidField) ∧
      holds (exec .firmwareCommit (front (fwOpen false 1 [0, 1]) (fwCmd 0x10 18 0 0))) (fun t => answered t 0 .invalidSlot) ∧
      holds (exec .firmwareCommit (front loaded (fwCmd 0x10 9 0 0))) (fun t => answered t 0 .invalidImage) ∧
      holds (exec .firmwareCommit (front (fwOpen false 1 [1]) (fwCmd 0x10 17 0 0))) (fun t => answered t 0 .invalidImage && t.fw == (fwOpen false 1 [1]).fw && !t.event .keeper 25))) ∧
    (((fwOpen false 1 [0, 1]).imgFailure 1 = 1 ∧ holds (exec .firmwareCommit (front (fwOpen false 1 [0, 1]) (fwCmd 0x10 8 0 0))) (fun t => answered t 0 .invalidImage && t.event .keeper 25 && t.fw == (fwOpen false 1 [0, 1]).fw))) ∧
    ((let s := fwOpen false 0xFE [0]
      let x : FwSession := ⟨false, 0xFE, 384, [1], [0], [], []⟩
      let s : State := { s with fw := { s.fw with session := some x } }
      x.complete ∧ s.enrolOk x.enrolBytes = false ∧ holds (exec .firmwareCommit (front s (fwCmd 0x10 0 0 0))) (fun t => answered t 0 .invalidImage && t.event .keeper 25 && t.rd .key F.KEYMASK_mask == 0))) := by
  exact ⟨by decide, by decide +kernel, by decide +kernel⟩

/-- WRITE BUFFER: modes, an activation with and without a check that passed, offsets and lengths that are not whole blocks. -/
theorem test_firmware_sas :
    ((let cmd (m id off len : Nat) : HCmd := withData (scsi [0x3B, m, id, off / 65536, off / 256 % 256, off % 256, len / 65536, len / 256 % 256, len % 256, 0]) len
      let passed : State := { loaded with fw := { s0.fw with passed := true } }
      (cmd 0x0E 0 8192 4096).poolIndex.isSome ∧ (cmd 0x0E 0 8192 4096).cdbOk ∧
      holds (exec (.writeBuffer 0) (front loaded (cmd 0x0D 0 0 0))) (fun t => answered t 65 .invalidField) ∧
      holds (exec (.writeBuffer 0) (front passed (cmd 0x0F 0 0 0))) (fun t => t.fw.going && t.rcd.drains.contains .activation && (t.cmd 3).map (·.stage) == some .given) ∧
      holds (exec (.writeBuffer 0) (front passed (cmd 0x0F 0 0 1))) (fun t => answered t 65 .invalidField && t.fw == passed.fw) ∧
      holds (exec (.writeBuffer 0) (front loaded (cmd 0x0F 0 0 0))) (fun t => answered t 65 .invalidField) ∧
      holds (exec (.writeBuffer 0) (front (fwOpen true 1 []) (cmd 0x0E 1 8192 4096))) (fun t => answered t 65 .invalidField) ∧
      holds (exec (.writeBuffer 0) (front (fwOpen true 1 []) (cmd 0x0E 0 8193 4096))) (fun t => answered t 65 .invalidParam && t.fw == (fwOpen true 1 []).fw) ∧
      holds (exec (.writeBuffer 0) (front (fwOpen true 1 []) (cmd 0x0E 0 8192 4097))) (fun t => answered t 65 .invalidParam) ∧
      (fwOpen true 1 []).fw.session.map (fun x => (x.sas, x.complete, x.crcs.length)) = some (true, false, 2))) := by
  decide

/-- ActivationAndLoaderServices: a drain that is done and one that is not, and the loader's reset. -/
theorem test_activation :
    ((let s (going : Bool) (drains : List Drain) : State := { loaded with fw := { s0.fw with going := going }, rcd := { loaded.rcd with drains := drains } }
      (s true []).drained ∧ (s true []).rcd.ckpt = none ∧ (s true []).rcd.ckptWanted = false ∧ (s true []).rcd.cmDue = false ∧ (s true []).recs.queue = [] ∧ (s true []).recs.job = none ∧
      holds (exec .activationDrainDone (s true [])) (fun t => !t.pw.clocked && t.rd .power F.PWCAUSE_cause == 32 && t.fw.activated && t.time.ns == loaded.time.ns) ∧
      holds (exec .activationDrainDone (s true [.activation])) (fun t => t == s true [.activation]) ∧ holds (exec .activationDrainDone (s false [])) (fun t => t == s false []))) ∧
    ((let s : State := { (loaded.wr .power F.PWSTART_level 1).wr .power F.PWSKIP_skip 3 with fw := { s0.fw with loaderReset := true } }
      holds (exec .loaderActivationReset s) (fun t => !t.pw.clocked && t.rd .power F.PWCAUSE_cause == 32 && t.fw.activated && t.rd .power F.PWSKIP_skip == 0))) := by
  refine ⟨?_, ?_⟩ <;> decide

/-- ActivationAndLoaderServices: operands of the erase and program services at their limits, and bytes that are programmed. -/
theorem test_loader_services :
    ((holds (exec (.loaderEraseCall false) (service 0xFFFF 0)) (fun t => serviceEnded t 2 && crumbed t 3 0 UnitId.keeper.number 0x42 0xFFFF 0) ∧
      holds (exec (.loaderEraseCall false) (service 0x10001 0)) (fun t => serviceEnded t 2) ∧ holds (exec (.loaderEraseCall false) (service 0x8000000 0)) (fun t => serviceEnded t 2) ∧
      (service 0x10000 0).keeperRuns)) ∧
    ((holds (exec (.loaderProgramCall false) (service 0xFFFF 1)) (fun t => serviceEnded t 2) ∧ holds (exec (.loaderProgramCall false) (service 0x10000 0)) (fun t => serviceEnded t 2) ∧
      holds (exec (.loaderProgramCall false) (service 0x10000 257)) (fun t => serviceEnded t 2) ∧ holds (exec (.loaderProgramCall false) (service 0x100FF 2)) (fun t => serviceEnded t 2) ∧
      holds (exec (.loaderProgramCall false) (service 0x8000000 1)) (fun t => serviceEnded t 2) ∧ holds (exec (.loaderProgramCall false) (service 0x7FFFFFF 1)) (fun t => serviceEnded t 0) ∧
      holds (exec (.loaderProgramCall false) ((service 0x100FE 2).storeLE (sramBase 8) 2 0x1234)) (fun t => serviceEnded t 0 && t.readLE (norAddr 0x100FE) 2 == 0x1234 && crumbOnly s0 s0) ∧
      holds (exec (.loaderProgramCall false) ((service 0x10000 2).storeLE (norAddr 0x10000) 1 0)) (fun t => serviceEnded t 1))) := by
  refine ⟨?_, ?_⟩ <;> decide

/-- `loaded` at stage `n` of the start, not yet at a service level. -/
def stage (n : Nat) : State := (s0.wr .power F.PWSTART_stage n).wr .power F.PWWDOG_timeout 100

/-- The device with its straps latched, not yet clocked. -/
def unclocked : State := { s0 with pw := { s0.pw with clocked := false } }

/-- A device reset with this cause has happened. -/
def resetBy (s t : State) (cause : Nat) : Bool :=
  !t.pw.clocked && t.rd .power F.PWCAUSE_cause == 2 ^ cause && t.time.ns == s.time.ns && t.crumbs.queue.isEmpty && t.micro == s.micro &&
  t.rd .keeper F.USTAT_state == F.USTAT_state.rst && t.rd .fan F.FNDUTY_applied == 1024

/-- Heads 0 to 3 have acquired. -/
def acquiredHeads (s : State) : State :=
  { s with heads := (List.range 4).foldl (fun t h => Tbl.put HeadSt.none t h { s.hd h with acquired := true }) s.heads }

/-- DeviceResets: each cause, the control register's bit, and what stays. -/
theorem test_device_resets :
    ((let s : State := { ((loaded.wr .power F.PWMODE_mode 2).wr .keeper F.USTAT_state 3).wr .fan F.FNDUTY_applied 5 with time := { s0.time with ns := 77 }, micro := [(1, 2)] }
      s.pw.vaux ∧ holds (exec .resetNLow s) (fun t => resetBy s t 1 && t.rd .power F.PWMODE_mode == 2) ∧ holds (exec .supplyFall s) (fun t => resetBy s t 2) ∧
      holds (exec .referenceFault s) (fun t => resetBy s t 3 && t.flag .time F.TMSTAT_refbad) ∧ holds (exec .thermalShutdown s) (fun t => resetBy s t 4 && t.flag .thermal F.THSTAT_shutdown) ∧
      holds (exec .resetNLow { s with pw := { s.pw with clocked := false } }) (fun t => t.rd .power F.PWCAUSE_cause == s.rd .power F.PWCAUSE_cause ||| 2))) ∧
    ((may loaded .keeper .power 0x54 ∧ holds (exec (.pwctrlDevreset .keeper 1) loaded) (fun t => resetBy loaded t 5) ∧
      holds (exec (.pwctrlDevreset .keeper 2) loaded) (fun t => t == loaded) ∧ may loaded (.core 0) .power 0x54 = false)) := by
  refine ⟨?_, ?_⟩ <;> decide

/-- DeviceResets: the watchdog at its limit, at each stage, its third in 60 s, and a kick. -/
theorem test_watchdog :
    ((let s (n t kick : Nat) (w : List Nat) : State := { stage n with time := { s0.time with ns := t }, pw := { s0.pw with kick := kick, wdog := w } }
      holds (exec .watchdogExpire (s 4 99999999 0 [])) (fun t => t == s 4 99999999 0 []) ∧ holds (exec .watchdogExpire (s 15 100000000 0 [])) (fun t => t == s 15 100000000 0 []) ∧
      holds (exec .watchdogExpire (s 3 100000000 0 [])) (fun t => t == s 3 100000000 0 []) ∧
      holds (exec .watchdogExpire (s 4 100000000 0 [])) (fun t => !t.pw.clocked && t.rd .power F.PWCAUSE_cause == 64 && t.pw.wdog == [100000000] && t.rd .power F.PWMODE_mode == 0) ∧
      holds (exec .watchdogExpire (s 9 60000000000 0 [1, 0])) (fun t => t.pw.wdog == [60000000000, 1] && t.rd .power F.PWMODE_mode == 0) ∧
      holds (exec .watchdogExpire (s 9 59999999999 0 [1, 0])) (fun t => t.pw.wdog == [59999999999, 1, 0] && t.rd .power F.PWMODE_mode == 3))) ∧
    ((let s : State := { s0 with time := { s0.time with ns := 5 } }
      may s .keeper .power 0x58 ∧ holds (exec (.pwwdogKick .keeper 0x12345A5A) s) (fun t => t.pw.kick == 5 && t.rd .power F.PWWDOG_timeout == 0x1234) ∧
      holds (exec (.pwwdogKick .keeper 0x12345A5B) s) (fun t => t.pw.kick == 0))) := by
  refine ⟨?_, ?_⟩ <;> decide

/-- DeviceResets: VAUX down and up. -/
theorem test_vaux :
    ((let s := ((loaded.wr .key (F.KEYSLOT 3) 9).wr .time F.TMSTAT_refbad 1).storeLE (norAddr 5) 1 6
      holds (exec .vauxDown s) (fun t => t.pw == ⟨false, false, [], 0⟩ && t.rd .key (F.KEYSLOT 3) == 9 && t.rd .time F.TMSTAT_refbad == 0 && t.readLE (norAddr 5) 1 == 6))) ∧
    ((let s : State := { s0 with pw := ⟨false, false, [], 0⟩ }
      holds (exec (.vauxUp 2 1 true true) s) (fun t => t.pw.vaux && !t.pw.clocked && t.rd .power F.PWCAUSE_cause == 1 && t.rd .power F.PWMODE_mode == 2 && t.rd .time F.TMCFG_src == 1 &&
        t.flag .time F.TMCFG_edge && t.flag .power F.PWSTRAP_mstr) ∧
      holds (exec (.vauxUp 2 1 true true) s0) (fun t => t == s0))) := by
  refine ⟨?_, ?_⟩ <;> decide

/-- StartSequence: the edge, and proofing with and without what raw start skips. -/
theorem test_start_edges :
    ((let s := (unclocked.wr .power F.PWMODE_mode 1).wr .power F.PWSKIP_skip 5
      s.pw.vaux ∧ holds (exec (.startEdge true) s) (fun t => t.pw.clocked && t.rg.claimant && t.rd .power F.PWSTART_stage == 2 && t.rd .power F.PWSTART_skipped == 5 && !t.event .power 4) ∧
      holds (exec (.startEdge false) (unclocked.wr .power F.PWCAUSE_cause 64)) (fun t => t.event .power 4 && t.rd .power F.PWSTART_skipped == 0))) ∧
    ((let s (skip : Nat) : State := { ((stage 2).storeLE 0x4000200000 2 0x1111).storeLE 0x4000000000 1 3 with micro := [(1, 2)] }.wr .power F.PWSTART_skipped skip
      holds (exec .proofingDone (s 0)) (fun t => t.rd .power F.PWSTART_stage == 3 && t.mem == [] && t.micro == []) ∧
      holds (exec .proofingDone (s 1)) (fun t => t.readLE 0x4000000000 1 == 3 && t.readLE 0x4000200000 2 == 0 && t.micro == []) ∧
      holds (exec .proofingDone (s 4)) (fun t => t.mem == [] && t.micro == [(1, 2)]))) := by
  refine ⟨?_, ?_⟩ <;> decide

/-- StartSequence: the stages of the loader and the keeper, and training with whole, half and no buffer. Whether the loader's digest agrees is left open. -/
theorem test_start_stages :
    ((let s := stage 4
      s.imgFailure 0 = 1 ∧ holds (exec .keeperImageStart s) (fun t => t.rd .power F.PWSTART_stage == 9 && t.rd .power F.PWSTART_level == 1 && !t.flag .power F.PWSTART_provider && t.flag .nvme F.NVCTRL_ready && t.hc.confReady) ∧
      holds (exec .keeperImageStart (s.wr .power F.PWMODE_mode 2)) (fun t => t.rd .power F.PWSTART_level == 1) ∧ (stage 3).rd .power F.PWSTART_stage = 3)) ∧
    ((let eyes := List.replicate 8 (12, 12)
      let low (n : Nat) := eyes.set n (11, 12)
      holds (exec (.dramTrainingDone 255 eyes) (stage 5)) (fun t => t.rd .dram F.DCSTAT_ready == 255 && t.rd .power F.PWSTART_stage == 6 && t.rd .power F.PWSTART_level == 1 && !t.flag .power F.PWSTART_half) ∧
      holds (exec (.dramTrainingDone 255 (low 4)) (stage 5)) (fun t => t.flag .power F.PWSTART_half && t.rd .power F.PWSTART_stage == 6 && t.rd (.channel 4) F.USTAT_state == 5) ∧
      holds (exec (.dramTrainingDone 254 eyes) (stage 5)) (fun t => t.flag .power F.PWSTART_half && t.rd .power F.PWSTART_stage == 6 && t.rd (.channel 0) F.USTAT_state == 5) ∧
      holds (exec (.dramTrainingDone 254 (low 7)) (stage 5)) (fun t => t.rd .power F.PWSTART_stage == 9 && t.rd .power F.PWSTART_level == 1 && t.flag .power F.PWSTART_provider))) ∧
    (((stage 6).rd .power F.PWSTART_stage = 6 ∧ (stage 6).pw.clocked)) := by
  exact ⟨by decide +kernel, by decide, by decide⟩

/-- StartSequence: the links with and without a cartridge. -/
theorem test_start_links :
    ((let cart : Cartridge := blankCartridge
      holds (exec (.startupLinksEnable none) (stage 7)) (fun t => t.rd .power F.PWSTART_stage == 9 && t.flag .nvme F.NVCTRL_ready && t.flag .ring F.RNCTRL_portb && t.medium == none) ∧
      holds (exec (.startupLinksEnable (some cart)) (stage 7)) (fun t => t.rd .power F.PWSTART_stage == 9 && t.medium == some cart) ∧
      holds (exec (.startupLinksEnable (some cart)) ((stage 7).wr .engine F.EBCTRL_enable 1)) (fun t => t.rd .power F.PWSTART_stage == 8 && t.medium == some cart))) := by
  decide

/-- StartSequence: the medium ready at each level, with a head that has not acquired, and with beams retired. -/
theorem test_media_ready :
    ((let s (level : Nat) : State := acquiredHeads { ((((stage 8).wr .power F.PWSTART_level level).wr .engine F.EBCTRL_enable 1).wr .tray F.TBHEADS_enable 15) with
        medium := some blankCartridge, rcd := { s0.rcd with cart := 2, media := false } }
      let gone : State := { s 2 with tb := { s0.tb with retiring := (List.range 11).map (12 + ·) } }
      (s 2).tb.copiesDue = [] ∧ (s 2).rcd.ops = [] ∧ (List.range 4).all (fun h => (s 2).readyBeams h == 12) ∧
      holds (exec .mediaReady (s 2)) (fun t => t.rcd.media && t.event .power 2 && t.rd .power F.PWSTART_stage == 9 && t.rd .power F.PWSTART_level == 4 && t.rd .tray F.TBHEADS_enable == 15) ∧
      holds (exec .mediaReady (s 3)) (fun t => t.rd .power F.PWSTART_level == 3) ∧
      holds (exec .mediaReady { s 2 with heads := [] }) (fun t => t == { s 2 with heads := [] }) ∧
      gone.readyBeams 1 = 1 ∧ holds (exec .mediaReady gone) (fun t => t.rd .power F.PWSTART_level == 3 && t.rd .tray F.TBHEADS_enable == 13))) := by
  decide +kernel

/-- PowerStatesThermalAndFan: idleps3 with its parameter, outstanding commands and PS1, and PS4's cores. -/
theorem test_idle_power :
    ((let set : State := { loaded with rcd := { loaded.rcd with param := Tbl.put 0 loaded.rcd.param 8 1 } }
      loaded.paramLE 8 2 = 0 ∧ holds (exec .idlePs3 loaded) (fun t => t == loaded) ∧ set.paramLE 8 2 = 1 ∧ set.allOutstanding = 0 ∧
      holds (exec .idlePs3 set) (fun t => t.rcd.drains.contains (.power 3)) ∧
      holds (exec .idlePs3 { set with rcd := { set.rcd with ps := 1 } }) (fun t => t.rcd.drains.contains (.power 3) && t.rcd.drains.contains (.power 0) && t.tb.paused.contains 2) ∧
      holds (exec .idlePs3 { set with rcd := { set.rcd with ps := 3 } }) (fun t => t.rcd.drains == []))) ∧
    ((let s : State := { loaded with rcd := { loaded.rcd with ps := 4 } }
      let busy := inSlot s (ncmd .queued)
      busy.allOutstanding ≠ 0 ∧ holds (exec .ps4IdleTimeout s) (fun t => (List.range 8).all (fun n => t.flag .keeper (F.kc n F.KCCTRL_hold))) ∧ holds (exec .ps4Wake s) (fun t => t == s) ∧
      holds (exec .ps4Wake busy) (fun t => (List.range 8).all (fun n => !t.flag .keeper (F.kc n F.KCCTRL_hold))) ∧ holds (exec .ps4IdleTimeout busy) (fun t => t == busy) ∧
      holds (exec .ps4IdleTimeout loaded) (fun t => t == loaded))) := by
  refine ⟨?_, ?_⟩ <;> decide

/-- PowerStatesThermalAndFan: samples at the limits of throttling and stop-writing, their hysteresis, and sensors beyond their range. -/
theorem test_thermal :
    ((let sample (a : Int) (s : State) (p : State → Bool) : Bool := holds (exec (.thermalSample (some a) (some 100) (some (-640))) s) p
      let hot := s0.setFlag .thermal F.THSTAT_throttle true
      let warm (n : Nat) : State := { hot with th := { s0.th with cool := n } }
      let stop (n : Nat) : State := { s0.setFlag .thermal F.THSTAT_stopwrite true with th := { s0.th with cold := n } }
      sample 1600 s0 (fun t => t.flag .thermal F.THSTAT_throttle && t.flag .thermal F.THSTAT_restrict && t.event .thermal 1 && t.counter 249 == 1 && t.rd .thermal F.THCOMP_comp == 1600 && t.rd .thermal (F.THDIE_temp 2) == 64896) ∧
      sample 1599 s0 (fun t => !t.flag .thermal F.THSTAT_throttle && !t.event .thermal 1) ∧ sample 1600 hot (fun t => !t.event .thermal 1 && t.th.cool == 0) ∧
      sample 1519 (warm 9998) (fun t => t.flag .thermal F.THSTAT_throttle && t.th.cool == 9999) ∧ sample 1519 (warm 9999) (fun t => !t.flag .thermal F.THSTAT_throttle && t.event .thermal 3) ∧
      sample 1760 s0 (fun t => t.flag .thermal F.THSTAT_stopwrite && t.event .thermal 2) ∧ sample 1759 s0 (fun t => !t.flag .thermal F.THSTAT_stopwrite) ∧
      sample 1679 (stop 998) (fun t => t.flag .thermal F.THSTAT_stopwrite) ∧ sample 1679 (stop 999) (fun t => !t.flag .thermal F.THSTAT_stopwrite) ∧
      holds (exec (.thermalSample (some (-641)) none none) s0) (fun t => t.flag .thermal F.THSTAT_sensor && t.event .thermal 4 && t.rd .fan F.FNDUTY_applied == 1024) ∧
      holds (exec (.thermalSample (some 2401) none none) s0) (fun t => t.flag .thermal F.THSTAT_sensor) ∧ sample 2400 s0 (fun t => !t.flag .thermal F.THSTAT_sensor))) := by
  decide

/-- PowerStatesThermalAndFan: the tach, its check at the least duty, faults and recovery. -/
theorem test_fan :
    ((let at5 : State := { (s0.wr .fan F.FNDUTY_applied 205) with th := { s0.th with pulse := some 0 } }
      holds (exec (.fanTachPulse 10000) at5) (fun t => t.counter 250 == 1 && t.rd .fan F.FNTACH_rpm == 3000) ∧ holds (exec (.fanTachPulse 0) at5) (fun t => t.counter 250 == 1) ∧
      holds (exec (.fanTachPulse 1) (at5.setFlag .fan F.FNSTAT_checking true)) (fun t => t.rd .fan F.FNTACH_rpm == 65535 && t.th.hold && !t.flag .fan F.FNSTAT_checking && t.rd .fan F.FNDUTY_applied == 1024) ∧
      holds (exec .fanNotach at5) (fun t => t.flag .fan F.FNSTAT_checking && t.event .fan 1 && t.rd .fan F.FNDUTY_applied == 1024) ∧
      holds (exec .fanNotach (at5.wr .fan F.FNDUTY_applied 204)) (fun t => t == at5.wr .fan F.FNDUTY_applied 204))) ∧
    ((let checking := s0.setFlag .fan F.FNSTAT_checking true
      s0.rcd.ops = [] ∧ holds (exec .fanFault checking) (fun t => t.flag .fan F.FNSTAT_fault && t.flag .thermal F.THSTAT_fanfault && t.event .fan 2 && t.flag .thermal F.THSTAT_restrict && crumbed t 1 15 UnitId.fan.number 2 0 0) ∧
      holds (exec .fanShort s0) (fun t => t.flag .fan F.FNSTAT_short && t.event .fan 4 && t.flag .fan F.FNSTAT_fault))) ∧
    ((let fault := (s0.setFlag .fan F.FNSTAT_fault true).setFlag .thermal F.THSTAT_fanfault true
      let forced := (s0.setFlag .fan F.FNSTAT_forced true).wr .fan F.FNDUTY_cmd 300
      holds (exec .fanRecover fault) (fun t => !t.flag .fan F.FNSTAT_fault && !t.flag .thermal F.THSTAT_fanfault && t.event .fan 3) ∧
      holds (exec .fanRecover forced) (fun t => !t.flag .fan F.FNSTAT_forced && t.rd .fan F.FNDUTY_applied == 300))) ∧
    ((let s := ((s0.wr (.head 2) F.HSVPWR_on 1).setFlag .vmot F.VMSTAT_uvfault true).wr .vmot F.VMUVT_warn 5000
      holds (exec (.emitterEnable 2) s) (fun t => (t.hd 2).emitters && !(t.hd 1).emitters) ∧
      holds (exec (.vmotAboveWarn 5000) s) (fun t => t.rd .vmot F.VMVOLT_volt == 5000 && !t.flag .vmot F.VMSTAT_uvfault))) := by
  refine ⟨?_, ?_, ?_, ?_⟩ <;> decide

/-- EveryStepKeepsSoundness: a sound state with something in memory, counters and crumbs. -/
theorem test_sound : (((s0.storeLE 0x10000000 2 0x1234).count 5).crumb 3 0 .keeper 9 1 2).Sound := by
  refine ⟨by decide, by decide, ⟨by decide, by decide⟩, by decide, by decide, by decide⟩

/-- EveryStepKeepsSoundness, StepRunsTheCommand: what waits is taken in order, and with nothing waiting a tick passes. -/
theorem test_step :
    holds (step { s0 with pending := [.pcieLinkdown, .pcieLinkdown] }) (fun t => t.pending == [.pcieLinkdown]) ∧
    holds (step s0) (fun t => t.time.ns == 8 && t.pending == []) := by decide

/-- BufferMemory: memories in canonical form; an unlisted byte reads as zero and a zero written is not listed. -/
theorem test_memory : Memory.wf (s0.storeLE 0x10000000 3 0x120034).mem = true ∧ (s0.storeLE 0x10000000 3 0x120034).mem = [(0x10000000, 0x34), (0x10000002, 0x12)] ∧
    ((s0.storeLE 0x10000000 3 0x120034).storeLE 0x10000000 3 0).mem = [] ∧ (s0.byte (norAddr 0) = 0xFF) ∧
    Memory.wf (s0.storeLE (norAddr 7) 1 0).mem = true := by decide

/-- An entry, a frame, a cartridge, a cycle and what a decoder shows, all well formed. -/
def entryOk : SqEntry := { entry 1 4096 with pages := [0] }
def frameOk : CmdFrame := ⟨5, 77, 0, 0, List.replicate 16 0, 0, 512, false⟩
def cycleOk : CycleFrame := ⟨true, false, 1, 0, 1, 0, [7], 0⟩
def seenOk : Seen := ⟨some 0, 1, List.replicate 24 0, 0, 0, []⟩

/-- Instr.wf accepts these. -/
theorem test_wf_accepts :
    (((Instr.registerWrite .host 0 4 0).wf ∧ (Instr.drawVerdict 1507327 0 seenOk).wf ∧ (Instr.commandFetch 0 entryOk).wf ∧ (Instr.sasCommandFrame 0 frameOk).wf ∧
      (Instr.gatherFrame cycleOk none).wf ∧ (Instr.cartridge (some blankCartridge)).wf ∧ (Instr.step3PassEnd 0 [(47, seenOk, [23])]).wf ∧ (Instr.pairUp 4 0 1).wf ∧
      (Instr.mirrorReceive (List.replicate 16 0) [1] [2] 4096 none).wf ∧ (Instr.gatherLatch 0 0 0 0 none none none (List.replicate 7 0) none).wf)) := by
  decide

/-- Instr.wf refuses a width and an offset outside a unit, and numbers too wide. -/
theorem test_wf_registers :
    (((Instr.registerWrite .host 0 3 0).wf = false ∧ (Instr.registerWrite .host (2 ^ 22) 4 0).wf = false ∧ (Instr.outerParityDone (2 ^ 32)).wf = false ∧
      (Instr.cmUpdate (some (true, 256))).wf = false ∧ (Instr.comparatorTrip 0 true 4096).wf = false ∧ (Instr.comparatorRelease 0 true 4096).wf = false ∧
      (Instr.vmotRegencut 65536).wf = false ∧ (Instr.vmotBrake 65536).wf = false ∧ (Instr.vmotWatchRelease 65536).wf = false ∧ (Instr.vmotOver 65536).wf = false ∧
      (Instr.vmotUvwarn 65536).wf = false ∧ (Instr.vmotUvfault 65536).wf = false ∧ (Instr.vmotAboveWarn 65536).wf = false ∧ (Instr.ringSyncFrame (2 ^ 64) 0 0).wf = false)) := by
  decide

/-- Instr.wf refuses positions outside the medium. -/
theorem test_wf_positions :
    (((Instr.drawVerdict 1507328 0 seenOk).wf = false ∧ (Instr.inlineVerdict 1507328 0 seenOk 0 0).wf = false ∧ (Instr.deepDecodeDone 1507328 0 0 true).wf = false ∧
      (Instr.step3PassEnd 1507328 []).wf = false ∧ (Instr.outerRecovery 1507328 0 []).wf = false ∧ (Instr.positionBlank 1507328).wf = false ∧
      (Instr.sinkOverflow 1507328 0 0).wf = false ∧ (Instr.bgStepGrant 0 1507328).wf = false ∧ (Instr.mediaStateDecide [] [1507328] []).wf = false ∧
      (Instr.mediaStateDecide [2 ^ 32] [] []).wf = false ∧ (Instr.mediaStateDecide [] [] [48]).wf = false ∧ (Instr.mediaStateDecide [] [] [64 * 1507328]).wf = false)) := by
  decide

/-- Instr.wf refuses what a decoder cannot show. -/
theorem test_wf_decoder :
    (((Instr.drawVerdict 0 0 { seenOk with copy := 5 }).wf = false ∧ (Instr.drawVerdict 0 0 { seenOk with iters := [] }).wf = false ∧
      (Instr.inlineVerdict 0 0 { seenOk with crcBad := [24] } 0 0).wf = false ∧ (Instr.step3PassEnd 0 [(48, seenOk, [])]).wf = false ∧
      (Instr.step3PassEnd 0 [(0, { seenOk with copy := 5 }, [])]).wf = false ∧ (Instr.step3PassEnd 0 [(0, seenOk, [24])]).wf = false ∧ (Instr.outerRecovery 0 0 [48]).wf = false)) := by
  decide

/-- Instr.wf refuses lists of the wrong length, wedge addresses too wide and results that do not exist. -/
theorem test_wf_mechanics :
    (((Instr.wedgePosition 0 0 true [0, 0, 0, 0, 0] 0).wf = false ∧ (Instr.wedgePosition 0 0 true [] (2 ^ 20)).wf = false ∧ (Instr.seqStepDone 0 [1]).wf = false ∧
      (Instr.spinAlignDone []).wf = false ∧ (Instr.slotSampleInstant 0 0 (List.replicate 9 0) 0 false).wf = false ∧ (Instr.drainComplete 1).wf = false ∧
      (Instr.deviceSelfTest 7).wf = false ∧ (Instr.sendDiagnostic 0 1).wf = false ∧ (Instr.gatherLatch 0 0 0 0 none none none [0] none).wf = false ∧
      (Instr.dramTrainingDone 0 []).wf = false ∧ (Instr.dramTrainingDone 0 (List.replicate 8 (65, 0))).wf = false ∧ (Instr.dramTrainingDone 0 (List.replicate 8 (0, 65))).wf = false)) := by
  decide

/-- Instr.wf refuses verbs with a register that their form has not. -/
theorem test_wf_fleran :
    (((Instr.wait 1 calm 1 1 1 1).wf = false ∧ (Instr.wait 1 calm 1 1 1 0).wf ∧ (Instr.stamp 0 calm 3).wf = false ∧ (Instr.stamp 0 calm 0).wf = false ∧ (Instr.stamp 0 calm 2).wf)) := by
  decide

/-- Instr.wf refuses queue entries, frames and data addresses outside their widths. -/
theorem test_wf_hosts :
    (((Instr.commandFetch 0 { entryOk with opc := 256 }).wf = false ∧ (Instr.commandFetch 0 { entryOk with cid := 65536 }).wf = false ∧ (Instr.commandFetch 0 { entryOk with dw15 := 2 ^ 32 }).wf = false ∧
      (Instr.commandFetch 0 { entryOk with pages := [] }).wf = false ∧ (Instr.writeDataLanded 0 1).wf = false ∧ (Instr.parkedWriteResume 0 1).wf = false ∧
      (Instr.cartridge (some { blankCartridge with lead := [] })).wf = false ∧ (Instr.startStopUnit 0 (some { blankCartridge with cm := [(256, 0)] })).wf = false ∧
      (Instr.startupLinksEnable (some { blankCartridge with cm := [(0, 256)] })).wf = false ∧ (Instr.cartridge (some { blankCartridge with pos := [(1507328, .blank)] })).wf = false)) ∧
    (((Instr.sasCommandFrame 0 { frameOk with init := 2 ^ 64 }).wf = false ∧ (Instr.sasCommandFrame 0 { frameOk with tag := 65536 }).wf = false ∧ (Instr.sasCommandFrame 0 { frameOk with lun := 2 ^ 64 }).wf = false ∧
      (Instr.sasCommandFrame 0 { frameOk with attr := 8 }).wf = false ∧ (Instr.sasCommandFrame 0 { frameOk with cdb := [] }).wf = false ∧ (Instr.sasCommandFrame 0 { frameOk with cdb := List.replicate 16 256 }).wf = false ∧
      (Instr.sasCommandFrame 0 { frameOk with dlen := 2 ^ 32 }).wf = false ∧ (Instr.sasDataFrame 0 (2 ^ 64) 0 0 [] false 0).wf = false ∧ (Instr.sasDataFrame 0 0 65536 0 [] false 0).wf = false ∧
      (Instr.sasDataFrame 0 0 0 0 [] false 5).wf = false ∧ (Instr.abortTask 0 (2 ^ 64) 0 0).wf = false ∧ (Instr.abortTask 0 0 0 65536).wf = false ∧ (Instr.queryTask 0 0 65536 0).wf = false ∧
      (Instr.abortTaskSet 0 0 65536 0).wf = false ∧ (Instr.clearTaskSet 0 0 65536 0).wf = false ∧ (Instr.logicalUnitReset 0 0 65536 0).wf = false ∧ (Instr.iTNexusReset 0 0 65536).wf = false)) := by
  refine ⟨?_, ?_⟩ <;> decide

/-- Instr.wf refuses ring and pair frames outside their widths. -/
theorem test_wf_links :
    (((Instr.claimFrame true (2 ^ 64) false).wf = false ∧ (Instr.joinFrame true 64 0 none).wf = false ∧ (Instr.joinFrame true 0 (2 ^ 64) none).wf = false ∧ (Instr.gatherFrame { cycleOk with epoch := 65536 } none).wf = false ∧
      (Instr.scatterFrame { cycleOk with cycle := 2 ^ 32 }).wf = false ∧ (Instr.gatherReturn true { cycleOk with mask := 3 } 0).wf = false ∧ (Instr.scatterReturn true { cycleOk with master := 4096 }).wf = false ∧
      (Instr.gatherFrame { cycleOk with recs := [2 ^ 128] } none).wf = false ∧ (Instr.ringMessageFrame 4096 0 0 0 [] none false true true).wf = false ∧ (Instr.ringMessageFrame 0 4096 0 0 [] none false true true).wf = false ∧
      (Instr.ringMessageFrame 0 0 0 (2 ^ 32) [] none false true true).wf = false ∧ (Instr.remoteAccessRequest 4096 0 none).wf = false ∧ (Instr.pairUp 3 0 1).wf = false ∧ (Instr.pairUp 4 0 (2 ^ 64)).wf = false ∧
      (Instr.mirrorReceive [] [] [] 0 none).wf = false ∧ (Instr.mirrorReceive (List.replicate 16 (2 ^ 32)) [] [] 0 none).wf = false ∧ (Instr.mirrorReceive (List.replicate 16 0) [1] [] 0 none).wf = false ∧
      (Instr.mirrorReceive (List.replicate 16 0) [] [] 5 none).wf = false)) := by
  decide

end Sys2Proof.Tests
end

section
/-! PROOF. Reads of registers (R52, R53): where the window places a register, what a read of each latching word shows and latches, and that
a read of any other word changes nothing. -/

namespace Sys2Proof.Machine

/-! ### Where a window offset lies -/

/-- The counter views and the counter pod's array lie above 0x300000 (R453). -/
theorem ctrPlaceOf_below {a : Nat} (h : a < 0x300000) : ctrPlaceOf a = none := by
  have views : ¬ 0x300000 ≤ a := by omega
  have array : ¬ 0x311000 ≤ a := by omega
  simp [ctrPlaceOf, views, array]

/-- CTLO of an entry is word 0 of that entry in its place (R453). -/
theorem ctrPlaceOf_ctLoOffset {p e : Nat} (hp : p ≤ 8) (he : e < 320) (hv : p < 8 → e < 264) :
    ctrPlaceOf (ctLoOffset p e) = some (p, e, 0) := by
  by_cases h8 : p = 8
  · subst h8
    have past : ¬ (0x311000 + 16 * e < 0x310000) := by omega
    have inside : 0x311000 + 16 * e < 0x312400 := by omega
    simp [ctLoOffset, ctrPlaceOf, past, inside]
  · have hlt : p < 8 := by omega
    have hr := hv hlt
    have off : 0x300000 + 0x2000 * p + 16 * e - 0x300000 = 0x2000 * p + 16 * e := by omega
    have inside : 0x300000 + 0x2000 * p + 16 * e < 0x310000 := by omega
    have view : (0x2000 * p + 16 * e) / 0x2000 = p := by omega
    have entry : (0x2000 * p + 16 * e) % 0x2000 = 16 * e := by omega
    have lower : 0x300000 ≤ 0x300000 + 0x2000 * p + 16 * e := by omega
    simp [ctLoOffset, ctrPlaceOf, h8, lower, inside, off, view, entry, hr]

/-- From the ring pod on, the window holds the ring pod's units and the counter pod's header (R45). -/
theorem UnitId.ofOffset_above {a : Nat} (h : 0x200000 ≤ a) :
    UnitId.ofOffset a = if a < 0x200400 then [UnitId.ringPod, .ring, .join, .pair][(a - 0x200000) / 0x100]?
      else if 0x310000 ≤ a && a < 0x311000 then some .counterPod else none := by
  have below {k : Nat} (hk : k ≤ 0x200000) : ¬ a < k := by omega
  simp [UnitId.ofOffset, below]

/-- No unit lies where CTLO of an entry does. -/
theorem UnitId.ofOffset_ctLoOffset {p e : Nat} (hp : p ≤ 8) (he : e < 320) : UnitId.ofOffset (ctLoOffset p e) = none := by
  have place : 0x200400 ≤ ctLoOffset p e ∧ ¬ (0x310000 ≤ ctLoOffset p e ∧ ctLoOffset p e < 0x311000) := by
    unfold ctLoOffset
    split <;> omega
  rw [UnitId.ofOffset_above (by omega), if_neg (by omega), if_neg (by simpa using place.2)]

/-- The four heads lie below the ring pod (R45). -/
theorem UnitId.ofOffset_head_lt {a h : Nat} (hu : UnitId.ofOffset a = some (.head h)) : a < 0x200000 := by
  refine Nat.lt_of_not_le fun above => ?_
  rw [UnitId.ofOffset_above above] at hu
  split at hu
  · simpa using List.mem_of_getElem? hu
  · split at hu <;> simp at hu

/-! ### What a read shows -/

theorem State.wordAt_register {s : State} {u : UnitId} {o : Nat} (hc : s.pw.clocked = true) (q : Nat)
    (hu : UnitId.ofOffset (u.base + o) = some u) (hr : u.hasRegister o = true) : s.wordAt q (u.base + o) = s.unitWord q u o := by
  simp [State.wordAt, hc, hu, hr]

theorem State.wordAt_counter {s : State} {a p e o : Nat} (hc : s.pw.clocked = true) (q : Nat)
    (hu : UnitId.ofOffset a = none) (hp : ctrPlaceOf a = some (p, e, o)) : s.wordAt q a = s.ctrWord q p e o := by
  simp [State.wordAt, hc, hu, hp]

/-! ### What a read latches (R53) -/

/-- The latches of a counter entry (R454): its high half, its wrap flag in that place and its wrap count. -/
def State.ctLatch (s : State) (p e : Nat) : CtLatch :=
  ⟨p, e, s.counter (ctrPhys p e) / 2 ^ 32, Tbl.look false s.ctr.flag (512 * p + e), Tbl.look 0 s.ctr.wraps (ctrPhys p e)⟩

theorem State.readEffect_counter {s : State} {a p e : Nat} (hc : s.pw.clocked = true) (q : Nat) (hp : ctrPlaceOf a = some (p, e, 0)) :
    s.readEffect q a = { s with read := { s.read with ct := Tbl.put none s.read.ct q (some (s.ctLatch p e)) } } := by
  simp [State.readEffect, hc, hp, State.ctLatch, State.counter]

theorem State.readEffect_tbseqlo {s : State} (hc : s.pw.clocked = true) (q : Nat) :
    s.readEffect q (UnitId.tray.base + 0x4C) = { s with read := { s.read with tbSeqHi := some (s.storedWord .tray 0x50) } } := by
  have hu : UnitId.ofOffset (UnitId.tray.base + 0x4C) = some .tray := rfl
  simp [State.readEffect, hc, hu, ctrPlaceOf_below (show UnitId.tray.base + 0x4C < 0x300000 by decide)]

theorem State.readEffect_tmlo {s : State} (hc : s.pw.clocked = true) (q : Nat) :
    s.readEffect q (UnitId.time.base + 0x40) =
      { s with read := { s.read with tmHi := Tbl.put none s.read.tmHi q (some (s.time.ns / 2 ^ 32)) } } := by
  have hu : UnitId.ofOffset (UnitId.time.base + 0x40) = some .time := rfl
  simp [State.readEffect, hc, hu, ctrPlaceOf_below (show UnitId.time.base + 0x40 < 0x300000 by decide)]

theorem State.readEffect_tmppslo {s : State} (hc : s.pw.clocked = true) (q : Nat) :
    s.readEffect q (UnitId.time.base + 0x60) = { s with read := { s.read with ppsHi := some (s.storedWord .time 0x64) } } := by
  have hu : UnitId.ofOffset (UnitId.time.base + 0x60) = some .time := rfl
  simp [State.readEffect, hc, hu, ctrPlaceOf_below (show UnitId.time.base + 0x60 < 0x300000 by decide)]

theorem State.readEffect_ebmclo {s : State} (hc : s.pw.clocked = true) (q : Nat) :
    s.readEffect q (UnitId.engine.base + 0x54) =
      { s with read := { s.read with mcHi := some (Tbl.look 0 s.micro (s.rd .engine F.EBMCSEL_index) / 2 ^ 32) } } := by
  have hu : UnitId.ofOffset (UnitId.engine.base + 0x54) = some .engine := rfl
  simp [State.readEffect, hc, hu, ctrPlaceOf_below (show UnitId.engine.base + 0x54 < 0x300000 by decide)]

theorem UnitId.ofOffset_trgtlo (n : Fin 4) : UnitId.ofOffset (UnitId.time.base + (0x90 + 8 * n.val)) = some .time := by
  decide +revert

theorem State.readEffect_trgtlo {s : State} (hc : s.pw.clocked = true) (q : Nat) (n : Fin 4) :
    s.readEffect q (UnitId.time.base + (0x90 + 8 * n.val)) =
      { s with read := { s.read with trgHi := Tbl.put none s.read.trgHi n.val (some (s.storedWord .time (0x94 + 8 * n.val))) } } := by
  have hp : ctrPlaceOf (UnitId.time.base + (0x90 + 8 * n.val)) = none := ctrPlaceOf_below (by simp only [UnitId.base]; omega)
  have h40 : 0x90 + 8 * n.val ≠ 0x40 := by omega
  have h60 : 0x90 + 8 * n.val ≠ 0x60 := by omega
  have block : 0x90 + 8 * n.val < 0xB0 ∧ (0x90 + 8 * n.val) % 8 = 0 := by omega
  have index : 8 * n.val / 8 = n.val := by omega
  have high : 0x90 + 8 * n.val + 4 = 0x94 + 8 * n.val := by omega
  simp [State.readEffect, hc, hp, UnitId.ofOffset_trgtlo, h40, h60, block, index, high]

theorem UnitId.ofOffset_hclkstat (h : Fin 4) : UnitId.ofOffset ((UnitId.head h).base + 0x200) = some (.head h) := by
  decide +revert

theorem State.readEffect_hclkstat {s : State} (hc : s.pw.clocked = true) (q : Nat) (h : Fin 4) :
    s.readEffect q ((UnitId.head h).base + 0x200) = s.wr (.head h) F.HCLKSTAT_missing 0 := by
  have hp : ctrPlaceOf ((UnitId.head h).base + 0x200) = none := ctrPlaceOf_below (by simp only [UnitId.base, headBase]; omega)
  have here : (UnitId.head h).base + 0x200 - headBase h = 0x200 := Nat.add_sub_cancel_left ..
  simp [State.readEffect, hc, hp, UnitId.ofOffset_hclkstat, here]

/-- The words of units that R53 names: TBSEQLO, TMLO, TMPPSLO, TRGTLO0 to TRGTLO3, EBMCLO and HCLKSTAT of each head. -/
def latchingWords : List Nat :=
  [UnitId.tray.base + 0x4C, UnitId.time.base + 0x40, UnitId.time.base + 0x60, UnitId.time.base + 0x90,
    UnitId.time.base + 0x98, UnitId.time.base + 0xA0, UnitId.time.base + 0xA8, UnitId.engine.base + 0x54,
    headBase 0 + 0x200, headBase 1 + 0x200, headBase 2 + 0x200, headBase 3 + 0x200]

/-- A read of a word that R53 does not name changes nothing. -/
theorem State.readEffect_other {s : State} {a : Nat} (q : Nat) (hp : ∀ p e o, ctrPlaceOf a = some (p, e, o) → o ≠ 0)
    (ha : a ∉ latchingWords) : s.readEffect q a = s := by
  simp only [latchingWords, headBase, List.mem_cons, List.not_mem_nil, or_false, not_or] at ha
  unfold State.readEffect
  split
  · rfl
  · split
    case h_1 p e o hplace => exact if_neg (hp p e o hplace)
    case h_2 =>
      split
      case h_1 => exact if_neg (by omega)
      case h_2 =>
        have tmlo : ¬ a - UnitId.time.base = 0x40 := by omega
        have tmppslo : ¬ a - UnitId.time.base = 0x60 := by omega
        have trgtlo : ¬ (0x90 ≤ a - UnitId.time.base && a - UnitId.time.base < 0xB0 && (a - UnitId.time.base) % 8 = 0) = true := by
          simp only [Bool.and_eq_true, decide_eq_true_eq]
          omega
        dsimp only
        rw [if_neg tmlo, if_neg tmppslo, if_neg trgtlo]
      case h_3 => exact if_neg (by omega)
      case h_4 h hu =>
        have below := UnitId.ofOffset_head_lt hu
        exact if_neg (by simp only [headBase]; omega)
      case h_5 => rfl

/-! ### The read commands -/

/-- A read whose only effect is on the latches answers the state with those latches and the value read. -/
theorem State.live_registerRead {s : State} {r : Requester} {off v : Nat} {l : ReadPort} (hc : s.pw.clocked = true)
    (he : s.readEffect r.num off = { s with read := l }) (hv : s.wordAt r.num off = v) :
    live s (s.registerRead r off) = .next { s with read := { l with data := v } } := by
  rw [live_clocked hc, State.registerRead, State.busRead, he, hv]

theorem exec_tbseqloRead {s : State} (hc : s.pw.clocked = true) (r : Requester) :
    exec (.tbseqloRead r) s = .next { s with read := { s.read with
      data := s.storedWord .tray 0x4C, tbSeqHi := some (s.storedWord .tray 0x50) } } :=
  State.live_registerRead hc (State.readEffect_tbseqlo hc _) ((State.wordAt_register hc _ rfl (by decide)).trans rfl)

theorem exec_trgtloRead {s : State} (hc : s.pw.clocked = true) (r : Requester) (n : Fin 4) :
    exec (.trgtloRead r n) s = .next { s with read := { s.read with
      data := s.storedWord .time (0x90 + 8 * n.val)
      trgHi := Tbl.put none s.read.trgHi n.val (some (s.storedWord .time (0x94 + 8 * n.val))) } } := by
  have hr : UnitId.time.hasRegister (0x90 + 8 * n.val) = true := by decide +revert
  have hw : s.unitWord r.num .time (0x90 + 8 * n.val) = s.storedWord .time (0x90 + 8 * n.val) := by
    match n with
    | 0 | 1 | 2 | 3 => rfl
  refine Eq.trans ?_ (State.live_registerRead hc (State.readEffect_trgtlo hc _ n)
    ((State.wordAt_register hc _ (UnitId.ofOffset_trgtlo n) hr).trans hw))
  rw [← Nat.add_assoc]
  rfl

theorem exec_tmloRead {s : State} (hc : s.pw.clocked = true) (r : Requester) :
    exec (.tmloRead r) s = .next { s with read := { s.read with
      data := s.time.ns % 2 ^ 32, tmHi := Tbl.put none s.read.tmHi r.num (some (s.time.ns / 2 ^ 32)) } } :=
  State.live_registerRead hc (State.readEffect_tmlo hc _) ((State.wordAt_register hc _ rfl (by decide)).trans rfl)

theorem exec_tmppsloRead {s : State} (hc : s.pw.clocked = true) (r : Requester) :
    exec (.tmppsloRead r) s = .next { s with read := { s.read with
      data := s.storedWord .time 0x60, ppsHi := some (s.storedWord .time 0x64) } } :=
  State.live_registerRead hc (State.readEffect_tmppslo hc _) ((State.wordAt_register hc _ rfl (by decide)).trans rfl)

theorem exec_ctloRead {s : State} (hc : s.pw.clocked = true) (r : Requester) (p : Fin 9) (e : Fin 320) (hv : p.val < 8 → e.val < 264) :
    exec (.ctloRead r p e) s = .next { s with read := { s.read with
      data := s.counter (ctrPhys p.val e.val) % 2 ^ 32, ct := Tbl.put none s.read.ct r.num (some (s.ctLatch p.val e.val)) } } := by
  have hp : p.val ≤ 8 := Nat.le_of_lt_succ p.isLt
  have place := ctrPlaceOf_ctLoOffset hp e.isLt hv
  exact State.live_registerRead hc (State.readEffect_counter hc _ place)
    (State.wordAt_counter hc _ (UnitId.ofOffset_ctLoOffset hp e.isLt) place)

theorem exec_ebmcloRead {s : State} (hc : s.pw.clocked = true) (r : Requester) :
    exec (.ebmcloRead r) s = .next { s with read := { s.read with
      data := Tbl.look 0 s.micro (s.rd .engine F.EBMCSEL_index) % 2 ^ 32
      mcHi := some (Tbl.look 0 s.micro (s.rd .engine F.EBMCSEL_index) / 2 ^ 32) } } :=
  State.live_registerRead hc (State.readEffect_ebmclo hc _) ((State.wordAt_register hc _ rfl (by decide)).trans rfl)

theorem exec_hclkstatRead {s : State} (hc : s.pw.clocked = true) (r : Requester) (h : Fin 4) :
    exec (.hclkstatRead r h) s = .next { s.wr (.head h) F.HCLKSTAT_missing 0 with
      read := { s.read with data := s.storedWord (.head h) 0x200 } } := by
  have shown : s.wordAt r.num ((UnitId.head h).base + 0x200) = s.storedWord (.head h) 0x200 :=
    (State.wordAt_register hc _ (UnitId.ofOffset_hclkstat h) rfl).trans rfl
  have effect := State.readEffect_hclkstat hc r.num h
  show live s (s.registerRead r ((UnitId.head h).base + 0x200)) = _
  rw [live_clocked hc, State.registerRead, State.busRead, effect, shown]
  rfl

/-- Settles O2: each read command by its equation above, a bus read by the branches of `readEffect`. -/
theorem readsLatchOnlyWhatR53Names : Obligations.ReadsLatchOnlyWhatR53Names := by
  intro s r hc
  refine ⟨?tbseqlo, ?trgtlo, ?tmlo, ?tmppslo, ?ctlo, ?ebmclo, ?hclkstat, ?other⟩
  case tbseqlo => exact ⟨_, exec_tbseqloRead hc r, rfl, rfl⟩
  case trgtlo =>
    intro n
    have latched := Tbl.look_put_same none s.read.trgHi n.val (some (s.storedWord .time (0x94 + 8 * n.val)))
    have kept (m : Fin 4) (hm : m ≠ n) :=
      Tbl.look_put_other none none s.read.trgHi (some (s.storedWord .time (0x94 + 8 * n.val))) (Fin.val_ne_of_ne hm)
    exact ⟨_, exec_trgtloRead hc r n, rfl, latched, kept, rfl⟩
  case tmlo =>
    have latched := Tbl.look_put_same none s.read.tmHi r.num (some (s.time.ns / 2 ^ 32))
    have kept (q : Nat) (hq : q ≠ r.num) := Tbl.look_put_other none none s.read.tmHi (some (s.time.ns / 2 ^ 32)) hq
    exact ⟨_, exec_tmloRead hc r, rfl, latched, kept, rfl⟩
  case tmppslo => exact ⟨_, exec_tmppsloRead hc r, rfl, rfl⟩
  case ctlo =>
    intro p e hv
    have latched := Tbl.look_put_same none s.read.ct r.num (some (s.ctLatch p e))
    have kept (q : Nat) (hq : q ≠ r.num) := Tbl.look_put_other none none s.read.ct (some (s.ctLatch p e)) hq
    exact ⟨_, exec_ctloRead hc r p e hv, rfl, latched, kept, rfl⟩
  case ebmclo => exact ⟨_, exec_ebmcloRead hc r, rfl, rfl⟩
  case hclkstat =>
    intro h
    have cleared := State.rd_wr_same s (.head h) F.HCLKSTAT_missing 0
    have kept : RegsBut s (s.wr (.head h) F.HCLKSTAT_missing 0) [fieldKey (.head h) F.HCLKSTAT_missing] :=
      (RegsBut.refl s _).wr (List.mem_singleton_self _)
    exact ⟨_, exec_hclkstatRead hc r h, rfl, cleared, kept.same rfl, rfl⟩
  case other => exact fun q a _ hp ha => State.readEffect_other q hp ha

end Sys2Proof.Machine
end

section
/-! PROOF. The configuration of the loop engine's slots (R246, R247, R254, R255, R264 to R266) and its load window (R268). -/

namespace Sys2Proof.Machine

/-! ### Fields of one unit -/

/-- Two fields of one unit's registers lie at different places. -/
def Field.apart (f g : Field) : Bool := decide (f.lo < 32) && decide (g.lo < 32) && (f.off != g.off || f.lo != g.lo)

theorem fieldKey_ne {f g : Field} (u : UnitId) (h : f.apart g = true) : fieldKey u f ≠ fieldKey u g := by
  simp only [Field.apart, Bool.and_eq_true, decide_eq_true_eq, Bool.or_eq_true, bne_iff_ne] at h
  unfold fieldKey
  omega

theorem State.rd_wr_apart (s : State) (u : UnitId) {f g : Field} (v : Nat) (h : g.apart f = true) :
    (s.wr u f v).rd u g = s.rd u g := State.rd_wr_other s v (fieldKey_ne u h)

theorem State.rd_setFlag_apart (s : State) (u : UnitId) {f g : Field} (b : Bool) (h : g.apart f = true) :
    (s.setFlag u f b).rd u g = s.rd u g := State.rd_wr_apart s u (b2n b) h

theorem State.flag_setFlag_same (s : State) (u : UnitId) {f : Field} (b : Bool) (h : f.w = 1) : (s.setFlag u f b).flag u f = b := by
  rw [State.flag, State.setFlag, State.rd_wr_same, h]
  cases b <;> rfl

/-- A field of a word written fits its width. -/
theorem Field.of_mod (f : Field) (v : Nat) : f.of v % 2 ^ f.w = f.of v := Nat.mod_mod _ _

/-! ### Storing a register -/

/-- Storing one field writes that field or nothing. -/
theorem State.storeField_cases (s : State) (u : UnitId) (v : Nat) (f : Field) :
    s.storeField u v f = s ∨ ∃ x, s.storeField u v f = s.wr u f x := by
  unfold State.storeField
  split
  case h_6 | h_7 => exact .inl rfl
  all_goals exact .inr ⟨_, rfl⟩

theorem State.rd_storeField_apart (s : State) (u : UnitId) (v : Nat) {f g : Field} (h : g.apart f = true) :
    (s.storeField u v f).rd u g = s.rd u g := by
  obtain e | ⟨x, e⟩ := s.storeField_cases u v f
  · rw [e]
  · rw [e, State.rd_wr_apart s u x h]

theorem State.rd_storeField_rw (s : State) (u : UnitId) (v : Nat) {f : Field} (h : f.acc = .rw) :
    (s.storeField u v f).rd u f = f.of v := by
  simp [State.storeField, h, State.rd_wr_same, Field.of_mod]

theorem State.rd_storeFields_apart (u : UnitId) (v : Nat) {g : Field} (l : List Field) (s : State) (h : ∀ f ∈ l, g.apart f = true) :
    (l.foldl (fun t f => t.storeField u v f) s).rd u g = s.rd u g := by
  induction l generalizing s with
  | nil => rfl
  | cons f l ih =>
    obtain ⟨hf, hl⟩ := List.forall_mem_cons.mp h
    rw [List.foldl_cons, ih _ hl, State.rd_storeField_apart s u v hf]

theorem State.rd_storeFields_rw (u : UnitId) (v : Nat) {f : Field} (l : List Field) (s : State)
    (h : l.Pairwise (fun f g => f.apart g = true)) (hf : f ∈ l) (ha : f.acc = .rw) :
    (l.foldl (fun t f => t.storeField u v f) s).rd u f = f.of v := by
  induction l generalizing s with
  | nil => exact absurd hf List.not_mem_nil
  | cons g l ih =>
    obtain ⟨hg, hl⟩ := List.pairwise_cons.mp h
    rw [List.foldl_cons]
    obtain rfl | hf := List.mem_cons.mp hf
    · rw [State.rd_storeFields_apart u v l _ hg, State.rd_storeField_rw s u v ha]
    · exact ih _ hl hf

theorem RegsBut.storeField {s t : State} {l : List Nat} {u : UnitId} {f : Field} {v : Nat} (h : RegsBut s t l) (m : fieldKey u f ∈ l) :
    RegsBut s (t.storeField u v f) l := by
  obtain e | ⟨x, e⟩ := t.storeField_cases u v f
  · rwa [e]
  · rw [e]
    exact h.wr m

theorem State.storeFields_regsBut (u : UnitId) (v : Nat) (l : List Field) {s t : State} {ks : List Nat} (h : RegsBut s t ks)
    (hl : ∀ f ∈ l, fieldKey u f ∈ ks) : RegsBut s (l.foldl (fun t f => t.storeField u v f) t) ks := by
  induction l generalizing t with
  | nil => exact h
  | cons f l ih =>
    obtain ⟨hf, hl⟩ := List.forall_mem_cons.mp hl
    exact ih (h.storeField hf) hl

theorem State.storeFields_frame (u : UnitId) (v : Nat) (l : List Field) (s : State) :
    l.foldl (fun t f => t.storeField u v f) s = { s with regs := (l.foldl (fun t f => t.storeField u v f) s).regs } := by
  induction l generalizing s with
  | nil => rfl
  | cons f l ih =>
    rw [List.foldl_cons, ih]
    obtain e | ⟨x, e⟩ := s.storeField_cases u v f
    · rw [e]
    · rw [e, State.wr]

/-- Storing a register writes the fields of that register alone. -/
theorem State.storeReg_regsBut (s : State) (u : UnitId) (o v : Nat) :
    RegsBut s (s.storeReg u o v) ((u.fieldsAt o).map (fieldKey u)) :=
  State.storeFields_regsBut u v _ (RegsBut.refl s _) (fun _ hf => List.mem_map_of_mem hf)

theorem State.storeReg_frame (s : State) (u : UnitId) (o v : Nat) :
    s.storeReg u o v = { s with regs := (s.storeReg u o v).regs } := State.storeFields_frame u v _ s

/-! ### The fields of a slot -/

/-- Every stored field of a slot of the loop engine. -/
def slotFields : List Field := Fields.header ++ Fields.evblock ++ Fields.slot

theorem slotFields_apart : slotFields.Pairwise (fun f g => f.apart g = true) := by decide

theorem slot_fieldsAt (n o : Nat) : (UnitId.slot n).fieldsAt o = slotFields.filter (fun f => f.off == o) := rfl

/-- An RW field of a slot's register takes the bits written. -/
theorem State.rd_storeReg_slot (s : State) (n o v : Nat) {f : Field} (hf : f ∈ (UnitId.slot n).fieldsAt o) (ha : f.acc = .rw) :
    (s.storeReg (.slot n) o v).rd (.slot n) f = f.of v :=
  State.rd_storeFields_rw _ v _ s (slot_fieldsAt n o ▸ slotFields_apart.filter _) hf ha

/-- A slot's events and fields lie below the counter pod's, so raising an event of the slot leaves every field but its EVRAW. -/
theorem calm_slot (n : Fin 96) {f : Field} (ho : f.off < 0x200) (h : f.apart F.EVRAW = true) :
    calm (.slot n) (fieldKey (.slot n) f) = true := by
  have below : fieldKey (.slot n) f < fieldKey .counterPod F.EVRAW := by
    simp only [Field.apart, Bool.and_eq_true, decide_eq_true_eq] at h
    simp only [fieldKey, UnitId.base]
    omega
  have low : fieldKey .counterPod F.EVRAW < ctwrapKey := by decide
  simp only [calm, Bool.and_eq_true, bne_iff_ne]
  exact ⟨⟨Nat.ne_of_lt (Nat.lt_trans below low), Nat.ne_of_lt below⟩, fieldKey_ne _ h⟩

theorem State.rd_raise_slot (s : State) (n : Fin 96) (b : Nat) {f : Field} (ho : f.off < 0x200) (h : f.apart F.EVRAW = true) :
    (s.raise (.slot n) b).rd (.slot n) f = s.rd (.slot n) f := State.rd_raise s _ b (calm_slot n ho h)

/-- An event raised in answer to a write that is refused: it has occurred, and nothing else but what it counts has changed. -/
theorem State.raise_refuses (s : State) {u : UnitId} {b : Nat} (hu : fieldKey u F.EVRAW ≠ ctwrapKey) (hb : b < 32) :
    (s.raise u b).event u b = true ∧ RegsBut s (s.raise u b) (booked u) ∧ RegsOnly s (s.raise u b) :=
  ⟨s.event_raise u hu hb, (RegsBut.refl s _).raise (by simp [booked]) (by simp [booked]) (by simp [booked]), (RegsOnly.refl s).raise⟩

theorem slot_evraw_ne_ctwrap (n : Fin 96) : fieldKey (.slot n) F.EVRAW ≠ ctwrapKey := by
  simp only [fieldKey, ctwrapKey, UnitId.base]
  omega

/-- A write that a slot refuses with SLOT_CFGBUSY (R247). -/
theorem State.slot_cfgBusy (s : State) (n : Fin 96) :
    (s.raise (.slot n) 4).event (.slot n) 4 = true ∧ RegsBut s (s.raise (.slot n) 4) (booked (.slot n)) ∧ RegsOnly s (s.raise (.slot n) 4) :=
  s.raise_refuses (slot_evraw_ne_ctwrap n) (by decide)

/-! ### What a slot holds -/

@[simp] theorem State.slot_updSlot_same (s : State) (n : Nat) (f : SlotSt → SlotSt) : (s.updSlot n f).slot n = f (s.slot n) :=
  Tbl.look_put_same ..

theorem State.slot_updSlot_other (s : State) {n k : Nat} (f : SlotSt → SlotSt) (h : k ≠ n) : (s.updSlot n f).slot k = s.slot k :=
  Tbl.look_put_other _ _ _ _ h

@[simp] theorem State.rd_updSlot (s : State) (n : Nat) (f : SlotSt → SlotSt) (u : UnitId) (g : Field) :
    (s.updSlot n f).rd u g = s.rd u g := rfl

@[simp] theorem State.slot_wr (s : State) (u : UnitId) (f : Field) (v n : Nat) : (s.wr u f v).slot n = s.slot n := rfl

@[simp] theorem State.slot_setFlag (s : State) (u : UnitId) (f : Field) (b : Bool) (n : Nat) : (s.setFlag u f b).slot n = s.slot n := rfl

@[simp] theorem State.slot_storeReg (s : State) (u : UnitId) (o v n : Nat) : (s.storeReg u o v).slot n = s.slot n := by
  rw [State.storeReg_frame]
  rfl

/-- All that changed between `s` and `t` are register fields and what slot `n` holds. -/
def SlotOnly (n : Nat) (s t : State) : Prop := (∀ k, k ≠ n → t.slot k = s.slot k) ∧ t = { s with regs := t.regs, slots := t.slots }

theorem SlotOnly.refl (n : Nat) (s : State) : SlotOnly n s s := ⟨fun _ _ => rfl, rfl⟩

theorem SlotOnly.wr {n : Nat} {s t : State} (h : SlotOnly n s t) (u : UnitId) (f : Field) (v : Nat) : SlotOnly n s (t.wr u f v) :=
  ⟨h.1, by rw [h.2]; rfl⟩

theorem SlotOnly.setFlag {n : Nat} {s t : State} (h : SlotOnly n s t) (u : UnitId) (f : Field) (b : Bool) :
    SlotOnly n s (t.setFlag u f b) := h.wr u f (b2n b)

theorem SlotOnly.updSlot {n : Nat} {s t : State} (h : SlotOnly n s t) (f : SlotSt → SlotSt) : SlotOnly n s (t.updSlot n f) :=
  ⟨fun k hk => (t.slot_updSlot_other f hk).trans (h.1 k hk), by rw [h.2]; rfl⟩

theorem SlotOnly.storeReg {n : Nat} {s t : State} (h : SlotOnly n s t) (u : UnitId) (o v : Nat) : SlotOnly n s (t.storeReg u o v) := by
  rw [State.storeReg_frame]
  exact ⟨h.1, by rw [h.2]⟩

/-! ### Starting and stopping a slot (R246) -/

/-- The fields that starting or stopping a slot writes. -/
def runFields : List Field := [F.SLCTRL_run, F.SLSTAT_state, F.SLSTAT_cause, F.SLSTAT_sat, F.USTAT_state]

theorem State.rd_slotStart_apart (s : State) (n : Nat) {f : Field} (h : ∀ g ∈ runFields, f.apart g = true) :
    (s.slotStart n).rd (.slot n) f = s.rd (.slot n) f := by
  simp only [runFields, List.forall_mem_cons] at h
  obtain ⟨run, state, cause, sat, ustat, -⟩ := h
  simp [State.slotStart, State.rd_wr_apart, State.rd_setFlag_apart, run, state, cause, sat, ustat]

/-- What SLCTRL and SLSTAT show of a slot just started. -/
theorem State.slotStart_shows (s : State) (n : Nat) :
    (s.slotStart n).flag (.slot n) F.SLCTRL_run = true ∧ (s.slotStart n).slState n = 1 ∧
      (s.slotStart n).rd (.slot n) F.SLSTAT_cause = 0 ∧ (s.slotStart n).flag (.slot n) F.SLSTAT_sat = false := by
  simp (disch := decide) [State.slotStart, State.slState, State.flag, State.setFlag, b2n, State.rd_wr_apart, State.rd_wr_same]

/-- A slot just started has its registers cleared and its state words kept. -/
theorem State.slotStart_now (s : State) (n : Nat) : ((s.slotStart n).slot n).now = ⟨[], [], (s.slot n).now.w⟩ := by
  simp [State.slotStart]

theorem SlotOnly.slotStart {n : Nat} {s t : State} (h : SlotOnly n s t) : SlotOnly n s (t.slotStart n) :=
  (((((h.setFlag _ _ _).wr _ _ _).wr _ _ _).setFlag _ _ _).wr _ _ _).updSlot _

theorem State.rd_slotStop_apart (s : State) (n : Nat) {f : Field} (h : ∀ g ∈ runFields, f.apart g = true) :
    (s.slotStop n).rd (.slot n) f = s.rd (.slot n) f := by
  simp only [runFields, List.forall_mem_cons] at h
  obtain ⟨run, state, -, -, ustat, -⟩ := h
  unfold State.slotStop
  split <;> simp [State.rd_wr_apart, State.rd_setFlag_apart, run, state, ustat]

theorem State.slotStop_run (s : State) (n : Nat) : (s.slotStop n).flag (.slot n) F.SLCTRL_run = false := by
  have cleared := s.flag_setFlag_same (.slot n) (f := F.SLCTRL_run) false rfl
  unfold State.slotStop
  split
  case h_4 =>
    rw [State.flag, State.rd_updSlot, State.rd_wr_apart _ _ _ (by decide), State.rd_wr_apart _ _ _ (by decide)]
    exact cleared
  all_goals exact cleared

/-- A slot that waits for a sample stops at once. -/
theorem State.slotStop_waiting (s : State) (n : Nat) (h : s.slState n = 1) : (s.slotStop n).slState n = 0 := by
  unfold State.slotStop
  split
  case h_4 => simp (disch := decide) [State.slState, State.rd_wr_apart, State.rd_wr_same]
  all_goals omega

/-- A slot within a sample stops at the end of it. -/
theorem State.slotStop_executing (s : State) (n : Nat) (h : s.slState n = 2 ∨ s.slState n = 3) :
    (s.slotStop n).slState n = s.slState n ∧ ((s.slotStop n).slot n).stopping = true := by
  have shown : (s.setFlag (.slot n) F.SLCTRL_run false).slState n = s.slState n := State.rd_setFlag_apart _ _ _ (by decide)
  unfold State.slotStop
  split
  case h_1 | h_2 => exact ⟨shown, by simp⟩
  case h_3 => omega
  case h_4 ne2 ne3 _ => exact (h.elim ne2 ne3).elim

theorem State.rd_runBit_apart (s : State) (n : Nat) (b : Bool) {f : Field} (h : ∀ g ∈ runFields, f.apart g = true) :
    (s.runBit n b).rd (.slot n) f = s.rd (.slot n) f := by
  unfold State.runBit
  dsimp only
  split
  · exact s.rd_slotStart_apart n h
  · split
    · exact s.rd_slotStop_apart n h
    · rfl

/-! ### SLCTRL (R246, R247) -/

/-- A write of SLCTRL before its run bit takes effect: the other fields stored, or the write refused. -/
def State.slCtrlStored (s : State) (n v : Nat) : State :=
  if s.cfgOpen n then (s.storeReg (.slot n) 0x40 v).setFlag (.slot n) F.SLCTRL_run (s.flag (.slot n) F.SLCTRL_run)
  else s.raise (.slot n) 4

theorem State.slCtrl_eq (s : State) (n v : Nat) : s.slCtrl n v = (s.slCtrlStored n v).runBit n (bitOf v 0) := rfl

theorem State.slCtrlStored_open {s : State} {n : Nat} (v : Nat) (h : s.cfgOpen n = true) :
    s.slCtrlStored n v = (s.storeReg (.slot n) 0x40 v).setFlag (.slot n) F.SLCTRL_run (s.flag (.slot n) F.SLCTRL_run) := if_pos h

theorem State.slCtrlStored_busy {s : State} {n : Nat} (v : Nat) (h : s.cfgOpen n = false) :
    s.slCtrlStored n v = s.raise (.slot n) 4 := if_neg (by simp [h])

/-- A slot that waits, executes or is preempted takes no configuration. -/
theorem State.cfgOpen_running {s : State} {n : Nat} (h : s.slState n ∈ [1, 2, 3]) : s.cfgOpen n = false := by
  simp only [List.mem_cons, List.not_mem_nil, or_false] at h
  simp only [State.cfgOpen, Bool.or_eq_false_iff, beq_eq_false_iff_ne]
  omega

theorem State.slCtrlStored_run (s : State) (n : Fin 96) (v : Nat) :
    (s.slCtrlStored n v).flag (.slot n) F.SLCTRL_run = s.flag (.slot n) F.SLCTRL_run := by
  unfold State.slCtrlStored
  split
  · exact State.flag_setFlag_same _ _ _ rfl
  · rw [State.flag, s.rd_raise_slot n 4 (by decide) (by decide), State.flag]

theorem State.slCtrlStored_slState (s : State) (n : Fin 96) (v : Nat) : (s.slCtrlStored n v).slState n = s.slState n := by
  unfold State.slCtrlStored State.slState
  split
  · rw [State.rd_setFlag_apart _ _ _ (by decide), State.storeReg]
    exact State.rd_storeFields_apart _ _ _ _ (by rw [slot_fieldsAt]; decide)
  · exact s.rd_raise_slot n 4 (by decide) (by decide)

theorem State.runBit_start {s : State} {n : Nat} (h : s.flag (.slot n) F.SLCTRL_run = false) : s.runBit n true = s.slotStart n := by
  simp [State.runBit, h]

theorem State.runBit_stop {s : State} {n : Nat} (h : s.flag (.slot n) F.SLCTRL_run = true) : s.runBit n false = s.slotStop n := by
  simp [State.runBit, h]

theorem exec_slotRunWrite {s : State} {r : Requester} {n : Fin 96} (h : s.May r (.slot n) 0x40) (v : Word) :
    exec (.slotRunWrite r n v) s = .next (s.slCtrl n v.toNat) := State.live_guardReg h v.toNat _

/-- Run written 1 to a stopped slot starts it with the configuration written (R246). -/
theorem State.slCtrl_starts {s : State} {n v : Nat} (ho : s.cfgOpen n = true) (hr : s.flag (.slot n) F.SLCTRL_run = false)
    (hv : bitOf v 0 = true) :
    let t := s.slCtrl n v
    t.flag (.slot n) F.SLCTRL_run = true ∧ t.slState n = 1 ∧ t.rd (.slot n) F.SLCTRL_class = F.SLCTRL_class.of v ∧
      t.rd (.slot n) F.SLCTRL_action = F.SLCTRL_action.of v ∧ t.rd (.slot n) F.SLSTAT_cause = 0 ∧
      t.flag (.slot n) F.SLSTAT_sat = false ∧ (t.slot n).now = ⟨[], [], (s.slot n).now.w⟩ ∧ SlotOnly n s t := by
  have stopped : ((s.storeReg (.slot n) 0x40 v).setFlag (.slot n) F.SLCTRL_run false).flag (.slot n) F.SLCTRL_run = false :=
    State.flag_setFlag_same _ _ _ rfl
  rw [State.slCtrl_eq, State.slCtrlStored_open v ho, hr, hv, State.runBit_start stopped]
  obtain ⟨run, state, cause, sat⟩ :=
    ((s.storeReg (.slot n) 0x40 v).setFlag (.slot n) F.SLCTRL_run false).slotStart_shows n
  have written (f : Field) (hf : f ∈ (UnitId.slot n).fieldsAt 0x40) (ha : f.acc = .rw) (h : ∀ g ∈ runFields, f.apart g = true) :
      (((s.storeReg (.slot n) 0x40 v).setFlag (.slot n) F.SLCTRL_run false).slotStart n).rd (.slot n) f = f.of v := by
    rw [State.rd_slotStart_apart _ n h, State.rd_setFlag_apart _ _ _ (h _ (by decide)), s.rd_storeReg_slot n _ v hf ha]
  rw [slot_fieldsAt] at written
  refine ⟨run, state, written _ (by decide) rfl (by decide), written _ (by decide) rfl (by decide), cause, sat, ?_,
    (((SlotOnly.refl n s).storeReg _ _ _).setFlag _ _ _).slotStart⟩
  rw [State.slotStart_now, State.slot_setFlag, State.slot_storeReg]

/-- Run written 0 stops a slot: one that waits at once, one within a sample at its end (R246). -/
theorem State.slCtrl_stops {s : State} {n : Fin 96} {v : Nat} (hr : s.flag (.slot n) F.SLCTRL_run = true) (hv : bitOf v 0 = false) :
    let t := s.slCtrl n v
    t.flag (.slot n) F.SLCTRL_run = false ∧ (s.slState n = 1 → t.slState n = 0) ∧
      (s.slState n = 2 ∨ s.slState n = 3 → t.slState n = s.slState n ∧ (t.slot n).stopping = true) := by
  rw [State.slCtrl_eq, hv, State.runBit_stop ((s.slCtrlStored_run n v).trans hr), ← s.slCtrlStored_slState n v]
  exact ⟨State.slotStop_run _ n, State.slotStop_waiting _ n, State.slotStop_executing _ n⟩

/-- A running slot refuses the fields of SLCTRL beside the run bit (R247). -/
theorem State.slCtrl_refuses {s : State} {n : Fin 96} (v : Nat) (h : s.slState n ∈ [1, 2, 3]) :
    let t := s.slCtrl n v
    t.event (.slot n) 4 = true ∧ t.rd (.slot n) F.SLCTRL_class = s.rd (.slot n) F.SLCTRL_class ∧
      t.rd (.slot n) F.SLCTRL_lane = s.rd (.slot n) F.SLCTRL_lane := by
  rw [State.slCtrl_eq, State.slCtrlStored_busy v (State.cfgOpen_running h)]
  obtain ⟨raised, -, -⟩ := s.slot_cfgBusy n
  have kept (f : Field) (h : ∀ g ∈ runFields, f.apart g = true) := (s.raise (.slot n) 4).rd_runBit_apart n (bitOf v 0) h
  refine ⟨?_, ?_, ?_⟩
  · rw [State.event, kept _ (by decide)]
    exact raised
  · rw [kept _ (by decide), s.rd_raise_slot n 4 (by decide) (by decide)]
  · rw [kept _ (by decide), s.rd_raise_slot n 4 (by decide) (by decide)]

/-! ### The other configuration registers (R247) -/

theorem exec_slotConfigWrite {s : State} {r : Requester} {n : Fin 96} {i : Fin 13} (h : s.May r (.slot n) (0x44 + 4 * i.val)) (v : Word) :
    exec (.slotConfigWrite r n i v) s = .next (s.slConfig n (0x44 + 4 * i.val) v.toNat) := State.live_guardReg h v.toNat _

theorem State.slConfig_busy {s : State} {n : Nat} (o v : Nat) (h : s.cfgOpen n = false) : s.slConfig n o v = s.raise (.slot n) 4 :=
  if_neg (by simp [h])

theorem State.slConfig_open {s : State} {n o v : Nat} (h : s.cfgOpen n = true) (hb : bindingOk o v = true) :
    s.slConfig n o v = s.storeReg (.slot n) o v := if_pos (by simp [h, hb])

/-! ### Coefficients and banks (R254, R255) -/

theorem exec_slcdataWrite {s : State} {r : Requester} {n : Fin 96} (h : s.May r (.slot n) 0xC4) (v : Word) :
    exec (.slcdataWrite r n v) s = .next (s.slCdata n v.toNat) := State.live_guardReg h v.toNat _

/-- Outside a batch a coefficient written waits for the next sample. -/
theorem State.slCdata_single {s : State} {n : Nat} (v : Nat) (h : s.flag (.slot n) F.SLCSEL_batch = false) :
    s.slCdata n v = (s.updSlot n (fun p => { p with cpend := p.cpend ++ [(s.rd (.slot n) F.SLCSEL_index, v % 2 ^ 24)] })).wr
      (.slot n) F.SLCSEL_index (s.rd (.slot n) F.SLCSEL_index + 1) := if_neg (by simp [h])

/-- In a batch a coefficient written is held, where one of the 16 places is free. -/
theorem State.slCdata_batch {s : State} {n : Nat} (v : Nat) (h : s.flag (.slot n) F.SLCSEL_batch = true)
    (hl : (s.slot n).batch.length < 16) :
    s.slCdata n v = (s.updSlot n (fun p => { p with batch := p.batch ++ [(s.rd (.slot n) F.SLCSEL_index, v % 2 ^ 24)] })).wr
      (.slot n) F.SLCSEL_index (s.rd (.slot n) F.SLCSEL_index + 1) := (if_pos h).trans (if_neg (by omega))

theorem State.slCdata_full {s : State} {n : Nat} (v : Nat) (h : s.flag (.slot n) F.SLCSEL_batch = true)
    (hl : 16 ≤ (s.slot n).batch.length) : s.slCdata n v = s.raise (.slot n) 4 := (if_pos h).trans (if_pos hl)

theorem exec_slcselWrite {s : State} {r : Requester} {n : Fin 96} (h : s.May r (.slot n) 0xC0) (v : Word) :
    exec (.slcselWrite r n v) s = .next (s.slCsel n v.toNat) := State.live_guardReg h v.toNat _

theorem State.rd_storeReg_slcsel (s : State) (n v : Nat) :
    (s.storeReg (.slot n) 0xC0 v).rd (.slot n) F.SLCSEL_index = v % 256 ∧
      (s.storeReg (.slot n) 0xC0 v).flag (.slot n) F.SLCSEL_batch = bitOf v 31 := by
  constructor
  · rw [State.rd_storeReg_slot _ _ _ _ (by rw [slot_fieldsAt]; decide) rfl]
    simp [Field.of, bits]
  · rw [State.flag, State.rd_storeReg_slot _ _ _ _ (by rw [slot_fieldsAt]; decide) rfl]
    rfl

/-- SLCSEL written with batch 0 lets the held coefficients go (R254). -/
theorem State.slCsel_release (s : State) (n : Nat) {v : Nat} (h : bitOf v 31 = false) :
    s.slCsel n v = (s.storeReg (.slot n) 0xC0 v).updSlot n (fun p => { p with cpend := p.cpend ++ p.batch, batch := [] }) :=
  if_neg (by simp [State.rd_storeReg_slcsel, h])

theorem State.slCsel_hold (s : State) (n : Nat) {v : Nat} (h : bitOf v 31 = true) : s.slCsel n v = s.storeReg (.slot n) 0xC0 v :=
  if_pos (by simp [State.rd_storeReg_slcsel, h])

theorem exec_slbankSwap {s : State} {r : Requester} {n : Fin 96} (h : s.May r (.slot n) 0x78) :
    exec (.slbankSwap r n) s = .next (s.bankSwap n) := State.live_guardReg h 2 _

theorem State.bankSwap_open {s : State} {n : Nat} (h : s.cfgOpen n = true) :
    s.bankSwap n = s.wr (.slot n) F.SLBANK_active (1 - s.rd (.slot n) F.SLBANK_active) := if_pos h

theorem State.bankSwap_busy {s : State} {n : Nat} (h : s.cfgOpen n = false) : s.bankSwap n = s.setFlag (.slot n) F.SLBANK_swap true :=
  if_neg (by simp [h])

/-! ### Microcode commits (R264, R265) -/

theorem exec_ebmchiWrite {s : State} {r : Requester} (h : s.May r .engine 0x58) (v : Word) :
    exec (.ebmchiWrite r v) s = .next (s.mcCommit v.toNat) := State.live_guardReg h v.toNat _

/-- A commit to a word that a running slot's program holds is refused (R265). -/
theorem State.mcCommit_busy {s : State} (v : Nat) (h : s.mcBusy (s.rd .engine F.EBMCSEL_index) = true) :
    s.mcCommit v = s.raise .engine 3 := if_pos h

/-- A commit that is taken writes the word selected and selects the next one (R264). -/
theorem State.mcCommit_takes {s : State} (v : Nat) (h : s.mcBusy (s.rd .engine F.EBMCSEL_index) = false) :
    let t := s.mcCommit v
    t.micro = Tbl.put 0 s.micro (s.rd .engine F.EBMCSEL_index) (v * 2 ^ 32 + s.rd .engine F.EBMCLO_lo) ∧
      t.rd .engine F.EBMCSEL_index = (s.rd .engine F.EBMCSEL_index + 1) % 2 ^ 14 ∧ t = { s with regs := t.regs, micro := t.micro } := by
  have lo : (s.wr .engine F.EBMCHI_hi v).rd .engine F.EBMCLO_lo = s.rd .engine F.EBMCLO_lo := State.rd_wr_apart _ _ _ (by decide)
  have taken : s.mcCommit v = ({ s.wr .engine F.EBMCHI_hi v with
      micro := Tbl.put 0 s.micro (s.rd .engine F.EBMCSEL_index) (v * 2 ^ 32 + s.rd .engine F.EBMCLO_lo) } : State).wr
      .engine F.EBMCSEL_index (s.rd .engine F.EBMCSEL_index + 1) := by
    rw [← lo]
    exact if_neg (by simp [h])
  intro t
  rw [show t = _ from taken]
  exact ⟨rfl, State.rd_wr_same .., rfl⟩

/-! ### Contexts (R266) -/

theorem exec_slxdataWrite {s : State} {r : Requester} {n : Fin 96} (h : s.May r (.slot n) 0xCC) (v : Word) :
    exec (.slxdataWrite r n v) s = .next (s.slXdata n v.toNat) := State.live_guardReg h v.toNat _

theorem State.slXdata_busy {s : State} {n : Nat} (v : Nat) (h : s.cfgOpen n = false) : s.slXdata n v = s.raise (.slot n) 4 :=
  if_neg (by simp [h])

theorem State.slXdata_open {s : State} {n : Nat} (v : Nat) (h : s.cfgOpen n = true) :
    s.slXdata n v = (s.updSlot n (fun p => { p with
        now := p.now.setWord (s.rd (.slot n) F.SLXSEL_index) (v % 2 ^ 24)
        last := p.last.setWord (s.rd (.slot n) F.SLXSEL_index) (v % 2 ^ 24) })).wr
      (.slot n) F.SLXSEL_index (s.rd (.slot n) F.SLXSEL_index + 1) := if_pos h

/-- A context word set reads as set. -/
theorem Ctx.word_setWord_same (c : Ctx) {i v : Nat} (hi : i < 88) (hv : v < 2 ^ 24) : (c.setWord i v).word i = v := by
  unfold Ctx.setWord Ctx.word
  split
  · simp
  · split
    · simp
    · simp only [Tbl.look_put_same]
      split <;> omega

/-- Setting a context word leaves every other word, where the accumulators are 48 bits wide. -/
theorem Ctx.word_setWord_other (c : Ctx) {i j v : Nat} (hne : j ≠ i) (hv : v < 2 ^ 24) (ha : ∀ k, Tbl.look 0 c.a k < 2 ^ 48) :
    (c.setWord i v).word j = c.word j := by
  unfold Ctx.setWord
  split
  -- a state word
  · unfold Ctx.word
    split
    · exact Tbl.look_put_other _ _ _ _ hne
    · rfl
  split
  -- a data register
  · unfold Ctx.word
    split
    · rfl
    split
    · exact Tbl.look_put_other _ _ _ _ (by omega)
    · rfl
  split
  -- one half of an accumulator: the other half stays
  · unfold Ctx.word
    split
    · rfl
    split
    · rfl
    split
    · dsimp only
      by_cases half : (j - 80) / 2 = (i - 80) / 2
      · have wide := ha ((i - 80) / 2)
        simp only [half, Tbl.look_put_same]
        split <;> split <;> omega
      · simp only [Tbl.look_put_other _ _ _ _ half]
    · rfl
  · rfl

/-! ### The load window (R268) -/

/-- The load of a window recorded: EBLOAD.load in 0.1 % and its peak, and the count of slot-cycles begun anew. -/
def State.loadShown (s : State) : State :=
  (({ s with winCycles := 0 } : State).wr .engine F.EBLOAD_load (s.winCycles / 16000)).wr .engine F.EBLOAD_peak
    (max (s.rd .engine F.EBLOAD_peak) (s.winCycles / 16000 % 4096))

theorem exec_loopLoadWindow {s : State} (h : s.pw.clocked = true) :
    exec .loopLoadWindow s = .next (if 12000000 < s.winCycles && !s.flag .engine F.EBSTAT_overload then
      (s.loadShown.setFlag .engine F.EBSTAT_overload true).raise .engine 4 else s.loadShown) := live_clocked h

theorem State.loadShown_load (s : State) : s.loadShown.rd .engine F.EBLOAD_load = s.winCycles / 16000 % 4096 :=
  (State.rd_wr_apart _ _ _ (by decide)).trans (State.rd_wr_same ..)

theorem State.loadShown_overload (s : State) : s.loadShown.flag .engine F.EBSTAT_overload = s.flag .engine F.EBSTAT_overload := by
  rw [State.flag, State.loadShown, State.rd_wr_apart _ _ _ (by decide), State.rd_wr_apart _ _ _ (by decide)]
  rfl

/-! ### The obligation -/

/-- Settles O15: each command by its equation above, in the order of the registers. -/
theorem slotConfiguration : Obligations.SlotConfiguration := by
  intro s r n v
  refine ⟨fun may => ⟨fun ho hr hv => ?start, fun hr hv => ?stop, fun hs => ?running⟩, fun i may => ⟨fun ho => ?cfgBusy, fun ho hb => ?cfg⟩,
    fun may => ⟨fun hb => ?single, fun hb hl => ?batch, fun hb hl => ?full⟩, fun may => ?slcsel,
    fun may active => ⟨fun ho => ?swapNow, fun ho => ?swapLater⟩, fun may => ⟨fun hb => ?mcBusy, fun hb _ => ?mcTaken⟩,
    fun may => ⟨fun ho => ?ctxBusy, fun ho hi => ?ctx⟩, fun clocked => ?load⟩
  case start =>
    obtain ⟨run, state, cls, action, cause, sat, now, only⟩ := State.slCtrl_starts ho hr hv
    exact ⟨_, exec_slotRunWrite may v, run, state, cls, action, cause, sat, by rw [now], by rw [now], by rw [now], only⟩
  case stop => exact ⟨_, exec_slotRunWrite may v, State.slCtrl_stops hr hv⟩
  case running => exact ⟨_, exec_slotRunWrite may v, State.slCtrl_refuses v.toNat hs⟩
  case cfgBusy => exact ⟨_, exec_slotConfigWrite may v, State.slConfig_busy _ _ ho ▸ s.slot_cfgBusy n⟩
  case cfg =>
    have stored := State.slConfig_open ho hb
    exact ⟨_, stored ▸ exec_slotConfigWrite may v, fun f hf ha => s.rd_storeReg_slot _ _ _ hf ha, s.storeReg_regsBut _ _ _,
      s.storeReg_frame _ _ _⟩
  case single =>
    have written := exec_slcdataWrite may v
    rw [State.slCdata_single _ hb] at written
    exact ⟨_, written, rfl, ((SlotOnly.refl n s).updSlot _).wr _ _ _, by simp, State.rd_wr_same ..⟩
  case batch =>
    have written := exec_slcdataWrite may v
    rw [State.slCdata_batch _ hb hl] at written
    exact ⟨_, written, ((SlotOnly.refl n s).updSlot _).wr _ _ _, by simp, by simp⟩
  case full => exact ⟨_, exec_slcdataWrite may v, State.slCdata_full _ hb hl ▸ s.slot_cfgBusy n⟩
  case slcsel =>
    have written := exec_slcselWrite may v
    have stored : SlotOnly n s (s.storeReg (.slot n) 0xC0 v.toNat) := (SlotOnly.refl n s).storeReg _ _ _
    obtain ⟨index, -⟩ := s.rd_storeReg_slcsel n v.toNat
    cases hb : bitOf v.toNat 31
    case false =>
      rw [s.slCsel_release n hb] at written
      exact ⟨_, written, stored.updSlot _, index, fun _ => by simp, nofun⟩
    case true =>
      rw [s.slCsel_hold n hb] at written
      exact ⟨_, written, stored, index, nofun, fun _ => s.slot_storeReg ..⟩
  case swapNow =>
    have swapped := exec_slbankSwap may
    rw [State.bankSwap_open ho] at swapped
    have bit : 1 - s.rd (.slot n) F.SLBANK_active < 2 := by omega
    exact ⟨_, swapped, (State.rd_wr_same ..).trans (Nat.mod_eq_of_lt bit), (RegsBut.refl s _).wr (List.mem_singleton_self _), rfl⟩
  case swapLater =>
    have asked := exec_slbankSwap may
    rw [State.bankSwap_busy ho] at asked
    exact ⟨_, asked, State.flag_setFlag_same _ _ _ rfl, State.rd_setFlag_apart _ _ _ (by decide),
      (RegsBut.refl s _).setFlag (List.mem_singleton_self _), rfl⟩
  case mcBusy => exact ⟨_, exec_ebmchiWrite may v, State.mcCommit_busy _ hb ▸ s.raise_refuses (by decide) (by decide)⟩
  case mcTaken =>
    obtain ⟨micro, index, only⟩ := State.mcCommit_takes v.toNat hb
    refine ⟨_, exec_ebmchiWrite may v, ?_, fun j hj => ?_, index, only⟩
    · rw [micro, Tbl.look_put_same]
    · rw [micro, Tbl.look_put_other _ _ _ _ hj]
  case ctxBusy => exact ⟨_, exec_slxdataWrite may v, State.slXdata_busy _ ho ▸ s.slot_cfgBusy n⟩
  case ctx =>
    have written := exec_slxdataWrite may v
    rw [State.slXdata_open _ ho] at written
    have fits : v.toNat % 2 ^ 24 < 2 ^ 24 := Nat.mod_lt _ (by decide)
    refine ⟨_, written, ((SlotOnly.refl n s).updSlot _).wr _ _ _, ?_, fun j _ hne ha => ?_, State.rd_wr_same ..⟩
    · rw [State.slot_wr, State.slot_updSlot_same]
      exact Ctx.word_setWord_same _ hi fits
    · rw [State.slot_wr, State.slot_updSlot_same]
      exact Ctx.word_setWord_other _ hne fits ha
  case load =>
    have ran := exec_loopLoadWindow clocked
    by_cases heavy : (12000000 < s.winCycles && !s.flag .engine F.EBSTAT_overload) = true
    · rw [if_pos heavy] at ran
      have beyond : 12000000 < s.winCycles := of_decide_eq_true (Bool.and_eq_true_iff.mp heavy).1
      refine ⟨_, ran, State.raise_winCycles .., ?_, fun _ _ => ⟨?_, State.event_raise _ _ (by decide) (by decide)⟩, fun _ => by omega⟩
      · rw [State.rd_raise _ _ _ (by decide), State.rd_setFlag_apart _ _ _ (by decide), State.loadShown_load]
      · rw [State.flag, State.rd_raise _ _ _ (by decide)]
        exact State.flag_setFlag_same _ _ _ rfl
    · rw [if_neg heavy] at ran
      exact ⟨_, ran, rfl, s.loadShown_load, fun hw hf => absurd (by simp [hw, hf]) heavy, fun _ => ⟨s.loadShown_overload, rfl⟩⟩

end Sys2Proof.Machine
end

section
/-! PROOF. The slice mover (R424 to R430): what the bursts of a channel leave in the buffer, how a channel ends, and who may abort it. -/

namespace Sys2Proof.Machine

/-! ### Bytes of buffer memory (R410) -/

theorem State.byte_of_mem {s t : State} (h : t.mem = s.mem) (a : Nat) : t.byte a = s.byte a := by
  rw [State.byte, State.byte, h]

@[simp] theorem State.byte_engineStore (s : State) (a : Nat) (bs : List Byte) (x : Nat) :
    (s.engineStore a bs).byte x = (s.storeBytes a bs).byte x := State.byte_of_mem (by simp [State.engineStore]) x

theorem State.byte_setByte (s : State) (a x : Nat) (b : Byte) : (s.setByte a b).byte x = if x = a then b else s.byte x := by
  unfold State.byte State.setByte
  split
  · subst x
    exact Tbl.look_put_same ..
  · exact Tbl.look_put_other _ _ _ _ ‹_›

/-- A store leaves the bytes outside it. -/
theorem State.byte_storeBytes_outside (bs : List Byte) {s : State} {a x : Nat} (h : x < a ∨ a + bs.length ≤ x) :
    (s.storeBytes a bs).byte x = s.byte x := by
  induction bs generalizing s a with
  | nil => rfl
  | cons b bs ih =>
    rw [List.length_cons] at h
    rw [State.storeBytes, ih (by omega), State.byte_setByte, if_neg (by omega)]

/-- A byte just stored reads as stored. -/
theorem State.byte_storeBytes_inside (bs : List Byte) {s : State} {a i : Nat} (h : i < bs.length) :
    (s.storeBytes a bs).byte (a + i) = bs[i] := by
  induction bs generalizing s a i with
  | nil => exact absurd h (Nat.not_lt_zero i)
  | cons b bs ih =>
    rw [State.storeBytes]
    cases i with
    | zero => rw [State.byte_storeBytes_outside _ (by omega), State.byte_setByte, if_pos (by omega), List.getElem_cons_zero]
    | succ i => rw [List.getElem_cons_succ, ← ih (s := s.setByte a b) (a := a + 1), Nat.add_assoc, Nat.add_comm 1 i]

@[simp] theorem State.length_readBytes (s : State) (a n : Nat) : (s.readBytes a n).length = n := by
  induction n generalizing a with
  | zero => rfl
  | succ n ih => rw [State.readBytes, List.length_cons, ih]

theorem State.getElem_readBytes (s : State) {a n i : Nat} (h : i < (s.readBytes a n).length) : (s.readBytes a n)[i] = s.byte (a + i) := by
  induction n generalizing a i with
  | zero => exact absurd h (Nat.not_lt_zero i)
  | succ n ih =>
    cases i with
    | zero => rfl
    | succ i => exact (ih (by simpa using h)).trans (by rw [Nat.add_assoc, Nat.add_comm 1 i])

/-- Bytes read where they were stored. -/
theorem State.readBytes_engineStore (s : State) (a : Nat) (bs : List Byte) : (s.engineStore a bs).readBytes a bs.length = bs := by
  refine List.ext_getElem (State.length_readBytes ..) fun i _ h => ?_
  rw [State.getElem_readBytes, State.byte_engineStore, State.byte_storeBytes_inside bs h]

theorem State.readBytes_of_mem {s t : State} (h : t.mem = s.mem) (a n : Nat) : t.readBytes a n = s.readBytes a n := by
  refine List.ext_getElem (by simp) fun i _ _ => ?_
  rw [State.getElem_readBytes, State.getElem_readBytes, State.byte_of_mem h]

/-! ### Bursts (R423, R426) -/

/-- What the checks of R424 leave of a descriptor's lines: none is empty, and the destination's make up the total. -/
structure Slice.Lined (d : Slice) : Prop where
  dst : 0 < d.dlen
  whole : d.dlen ∣ d.total
  src : d.fill = false → 0 < d.slen

theorem sliceOk_lined {d : List Nat} {owner : Nat} (h : sliceOk d owner = true) : (sliceOf d).Lined := by
  simp only [sliceOk, Bool.and_eq_true, lineOk, decide_eq_true_eq] at h
  obtain ⟨⟨⟨⟨⟨⟨-, dlen, -⟩, -⟩, -⟩, -⟩, source⟩, -⟩ := h
  refine ⟨dlen, Nat.dvd_mul_right _ _, fun copy => ?_⟩
  rw [if_neg (by simp [copy])] at source
  simp only [Bool.and_eq_true, decide_eq_true_eq] at source
  obtain ⟨⟨⟨⟨slen, -⟩, -⟩, -⟩, -⟩ := source
  exact slen

/-- Within a line the addresses follow each other. -/
theorem lineAddr_add (base stride : Nat) {len p i : Nat} (h : i < len - p % len) :
    lineAddr base len stride (p + i) = lineAddr base len stride p + i := by
  have below : p % len + i < len := by omega
  have inLine : p + i = (p % len + i) + len * (p / len) := by
    have := Nat.mod_add_div p len
    omega
  have quot : (p + i) / len = p / len := by
    rw [inLine, Nat.add_mul_div_left _ _ (by omega), Nat.div_eq_of_lt below, Nat.zero_add]
  have rest : (p + i) % len = p % len + i := by
    rw [inLine, Nat.add_mul_mod_self_left, Nat.mod_eq_of_lt below]
  rw [lineAddr, quot, rest, lineAddr]
  omega

/-- Where byte `p` of the destination lies. -/
def Slice.dstAt (d : Slice) (p : Nat) : Nat := lineAddr d.dst d.dlen d.dstride p

/-- Where byte `p` of the source lies. -/
def Slice.srcAt (d : Slice) (p : Nat) : Nat := lineAddr d.src d.slen d.sstride p

theorem Slice.burst_le_dst (d : Slice) (p : Nat) : d.burst p ≤ d.dlen - p % d.dlen := by
  unfold Slice.burst
  dsimp only
  split <;> omega

theorem Slice.burst_le_src {d : Slice} (p : Nat) (h : d.fill = false) : d.burst p ≤ d.slen - p % d.slen := by
  unfold Slice.burst
  rw [if_neg (by simp [h])]
  omega

theorem Slice.Lined.burst_pos {d : Slice} (h : d.Lined) (p : Nat) : 0 < d.burst p := by
  have line := Nat.mod_lt p h.dst
  have page := Nat.mod_lt (d.dstAt p) (show 0 < 256 by decide)
  unfold Slice.dstAt at page
  unfold Slice.burst
  dsimp only
  cases fill : d.fill with
  | true =>
    rw [if_pos rfl]
    omega
  | false =>
    have source := Nat.mod_lt p (h.src fill)
    rw [if_neg nofun]
    omega

/-- A burst ends within the region. -/
theorem Slice.Lined.burst_within {d : Slice} (h : d.Lined) {p : Nat} (hp : p < d.total) : p + d.burst p ≤ d.total := by
  obtain ⟨lines, whole⟩ := h.whole
  have line : p / d.dlen + 1 ≤ lines := by
    rw [whole, Nat.mul_comm] at hp
    exact (Nat.div_lt_iff_lt_mul h.dst).mpr hp
  have covered : d.dlen * (p / d.dlen + 1) ≤ d.total := whole ▸ Nat.mul_le_mul_left _ line
  have := d.burst_le_dst p
  have := Nat.mod_add_div p d.dlen
  have := Nat.mod_lt p h.dst
  rw [Nat.mul_add, Nat.mul_one] at covered
  omega

theorem Slice.dstAt_burst {d : Slice} {p i : Nat} (h : i < d.burst p) : d.dstAt (p + i) = d.dstAt p + i :=
  lineAddr_add _ _ (Nat.lt_of_lt_of_le h (d.burst_le_dst p))

theorem Slice.srcAt_burst {d : Slice} {p i : Nat} (copy : d.fill = false) (h : i < d.burst p) : d.srcAt (p + i) = d.srcAt p + i :=
  lineAddr_add _ _ (Nat.lt_of_lt_of_le h (d.burst_le_src p copy))

@[simp] theorem Slice.length_bytes (d : Slice) (s : State) (p n : Nat) : (d.bytes s p n).length = n := by
  unfold Slice.bytes
  split <;> simp

/-- The byte that a fill writes at an address (R423). -/
def Slice.patternAt (d : Slice) (a : Nat) : Byte := BitVec.ofNat 8 (d.pattern / 256 ^ (a % 4))

/-- The state after the burst at byte `p`. -/
def State.burstStored (d : Slice) (p : Nat) (s : State) : State := s.engineStore (d.dstAt p) (d.bytes s p (d.burst p))

/-- A burst leaves a byte that none of its destination bytes lies at. -/
theorem State.byte_burstStored_outside {d : Slice} {p a : Nat} (s : State) (h : ∀ i < d.burst p, d.dstAt (p + i) ≠ a) :
    (s.burstStored d p).byte a = s.byte a := by
  have outside : a < d.dstAt p ∨ d.dstAt p + d.burst p ≤ a := by
    refine Decidable.byContradiction fun inside => ?_
    have within : a - d.dstAt p < d.burst p := by omega
    exact h _ within ((Slice.dstAt_burst within).trans (by omega))
  rw [State.burstStored, State.byte_engineStore, State.byte_storeBytes_outside _ (by simpa using outside)]

theorem State.byte_burstStored_fill {d : Slice} {p i : Nat} (s : State) (fill : d.fill = true) (h : i < d.burst p) :
    (s.burstStored d p).byte (d.dstAt (p + i)) = d.patternAt (d.dstAt (p + i)) := by
  rw [Slice.dstAt_burst h, State.burstStored, State.byte_engineStore, State.byte_storeBytes_inside _ (by simpa using h)]
  simp [Slice.bytes, fill, Slice.patternAt, Slice.dstAt]

theorem State.byte_burstStored_copy {d : Slice} {p i : Nat} (s : State) (copy : d.fill = false) (h : i < d.burst p) :
    (s.burstStored d p).byte (d.dstAt (p + i)) = s.byte (d.srcAt (p + i)) := by
  rw [Slice.dstAt_burst h, Slice.srcAt_burst copy h, State.burstStored, State.byte_engineStore,
    State.byte_storeBytes_inside _ (by simpa using h)]
  simp [Slice.bytes, copy, State.getElem_readBytes, Slice.srcAt]

/-! ### A run of bursts -/

/-- What holds of the byte reached and the state, and every burst keeps, holds after any number of bursts. -/
theorem State.moveBursts_induct {d : Slice} {P : Nat → State → Prop}
    (step : ∀ p s, p < d.total → P p s → P (p + d.burst p) (s.burstStored d p)) (k : Nat) {p : Nat} {s : State} (h : P p s) :
    P (s.moveBursts d k p).2 (s.moveBursts d k p).1 := by
  induction k generalizing p s with
  | zero => exact h
  | succ k ih =>
    rw [State.moveBursts]
    split
    · exact h
    · exact ih (step p s (by omega) h)

theorem State.moveBursts_frame (d : Slice) (k : Nat) (s : State) :
    (s.moveBursts d k 0).1.regs = s.regs ∧ (s.moveBursts d k 0).1.eng = s.eng :=
  State.moveBursts_induct (P := fun _ t => t.regs = s.regs ∧ t.eng = s.eng)
    (fun _ _ _ h => ⟨(State.engineStore_regs ..).trans h.1, (State.engineStore_eng ..).trans h.2⟩) k ⟨rfl, rfl⟩

/-- With as many bursts as bytes are left, the whole region is moved. -/
theorem State.moveBursts_reaches {d : Slice} (lined : d.Lined) (k : Nat) {p : Nat} (s : State) (hp : p ≤ d.total)
    (hk : d.total ≤ p + k) : (s.moveBursts d k p).2 = d.total := by
  induction k generalizing p s with
  | zero => exact Nat.le_antisymm hp hk
  | succ k ih =>
    rw [State.moveBursts]
    split
    · exact Nat.le_antisymm hp ‹_›
    · have := lined.burst_pos p
      exact ih _ (lined.burst_within (by omega)) (by omega)

theorem State.moveBursts_whole {d : Slice} (lined : d.Lined) (s : State) : (s.moveBursts d d.total 0).2 = d.total :=
  State.moveBursts_reaches lined _ s (Nat.zero_le _) (by omega)

/-- The bursts write to the destination alone. -/
theorem State.byte_moveBursts_outside {d : Slice} (lined : d.Lined) (k : Nat) (s : State) {a : Nat} (h : ∀ p < d.total, d.dstAt p ≠ a) :
    (s.moveBursts d k 0).1.byte a = s.byte a := by
  refine State.moveBursts_induct (P := fun _ t => t.byte a = s.byte a) (fun p t hp ht => ?_) k rfl
  have within := lined.burst_within hp
  rw [State.byte_burstStored_outside t fun i hi => h _ (by omega), ht]

/-- A fill leaves the pattern in each byte it has reached: what a burst writes depends on the address alone, so lines that overlap agree. -/
theorem State.byte_moveBursts_fill {d : Slice} (fill : d.fill = true) (k : Nat) (s : State) :
    ∀ q < (s.moveBursts d k 0).2, (s.moveBursts d k 0).1.byte (d.dstAt q) = d.patternAt (d.dstAt q) := by
  refine State.moveBursts_induct (P := fun p t => ∀ q < p, t.byte (d.dstAt q) = d.patternAt (d.dstAt q)) (fun p t _ before q hq => ?_) k
    (fun _ h => absurd h (Nat.not_lt_zero _))
  by_cases hit : ∃ i < d.burst p, d.dstAt (p + i) = d.dstAt q
  · obtain ⟨i, hi, same⟩ := hit
    rw [← same, State.byte_burstStored_fill t fill hi]
  · have apart (i : Nat) (hi : i < d.burst p) : d.dstAt (p + i) ≠ d.dstAt q := fun same => hit ⟨i, hi, same⟩
    have earlier : q < p := Nat.lt_of_not_le fun later =>
      apart (q - p) (by omega) (by rw [Nat.add_sub_cancel' later])
    rw [State.byte_burstStored_outside t apart, before q earlier]

/-- A copy between regions that do not meet, to places that are each written once, leaves the source's bytes in each place reached: the
source stays as it was, and no burst writes again to a place of an earlier one. -/
theorem State.byte_moveBursts_copy {d : Slice} (lined : d.Lined) (copy : d.fill = false) (k : Nat) (s : State)
    (apart : ∀ p < d.total, ∀ q < d.total, d.dstAt p ≠ d.srcAt q) (once : ∀ p < d.total, ∀ q < d.total, d.dstAt p = d.dstAt q → p = q) :
    ∀ q < (s.moveBursts d k 0).2, (s.moveBursts d k 0).1.byte (d.dstAt q) = s.byte (d.srcAt q) := by
  have source (q : Nat) (hq : q < d.total) (p : Nat) (t : State) (hp : p < d.total) :
      (t.burstStored d p).byte (d.srcAt q) = t.byte (d.srcAt q) := by
    have within := lined.burst_within hp
    exact State.byte_burstStored_outside t fun i hi => apart _ (by omega) q hq
  refine (State.moveBursts_induct (P := fun p t => (∀ q < d.total, t.byte (d.srcAt q) = s.byte (d.srcAt q)) ∧
    ∀ q < p, t.byte (d.dstAt q) = s.byte (d.srcAt q)) (fun p t hp h => ?_) k ⟨fun _ _ => rfl, fun _ h => absurd h (Nat.not_lt_zero _)⟩).2
  obtain ⟨kept, before⟩ := h
  have within := lined.burst_within hp
  refine ⟨fun q hq => (source q hq p t hp).trans (kept q hq), fun q hq => ?_⟩
  by_cases earlier : q < p
  · have other (i : Nat) (hi : i < d.burst p) : d.dstAt (p + i) ≠ d.dstAt q := fun same => by
      have := once _ (by omega) _ (by omega) same
      omega
    rw [State.byte_burstStored_outside t other, before q earlier]
  · obtain ⟨i, rfl⟩ := Nat.exists_eq_add_of_le (Nat.le_of_not_lt earlier)
    rw [State.byte_burstStored_copy t copy (by omega), kept _ (by omega)]

/-! ### The status record (R430) -/

@[simp] theorem length_leBytes (k n : Nat) : (leBytes k n).length = k := by
  induction k generalizing n with
  | zero => rfl
  | succ k ih => rw [leBytes, List.length_cons, ih]

@[simp] theorem length_statusBytes (code owner tag residue : Nat) : (statusBytes code owner tag residue).length = 16 := by
  simp [statusBytes]

/-- A status record that goes nowhere. -/
theorem State.putStatus_nowhere (s : State) (owner : Nat) (bs : List Byte) : s.putStatus owner 0 bs = s := if_pos rfl

/-- A status record goes where its requester may write. -/
theorem State.putStatus_put {s : State} {owner a : Nat} {bs : List Byte} (ha : a ≠ 0) (aligned : a % 16 = 0)
    (may : mayReach owner true a bs.length = true) : s.putStatus owner a bs = s.engineStore a bs := if_neg (by simp [ha, aligned, may])

theorem State.putStatus_cases (s : State) (owner a : Nat) (bs : List Byte) :
    s.putStatus owner a bs = s ∨ s.putStatus owner a bs = s.engineStore a bs := by
  unfold State.putStatus
  split
  · exact .inl rfl
  · exact .inr rfl

@[simp] theorem State.putStatus_regs (s : State) (owner a : Nat) (bs : List Byte) : (s.putStatus owner a bs).regs = s.regs := by
  obtain e | e := s.putStatus_cases owner a bs <;> simp [e]

@[simp] theorem State.putStatus_eng (s : State) (owner a : Nat) (bs : List Byte) : (s.putStatus owner a bs).eng = s.eng := by
  obtain e | e := s.putStatus_cases owner a bs <;> simp [e]

theorem State.byte_putStatus_outside (s : State) (owner : Nat) {a x : Nat} {bs : List Byte} (h : x < a ∨ a + bs.length ≤ x) :
    (s.putStatus owner a bs).byte x = s.byte x := by
  obtain e | e := s.putStatus_cases owner a bs
  · rw [e]
  · rw [e, State.byte_engineStore, State.byte_storeBytes_outside bs h]

/-! ### How a channel ends (R427, R428, R430) -/

/-- The status record of channel `c` written and channel `n` free, before the event. -/
def State.sliceClosed (s : State) (n : Nat) (c : MoverChan) (code residue : Nat) : State :=
  let t := s.putStatus c.owner (sliceStatus c.desc) (statusBytes code c.owner (dw c.desc 1) residue)
  { t with eng := { t.eng with
    chans := Tbl.put none t.eng.chans n none
    order := t.eng.order.filter (· != n)
    running := if t.eng.running = some n then none else t.eng.running
    last := Tbl.put (0, 0, 0) t.eng.last n (code, c.owner, residue) } }

section
variable (s : State) (n : Nat) (c : MoverChan) (residue : Nat)

theorem State.sliceEnds_completed : s.sliceEnds n c 0 residue =
    let u := (s.sliceClosed n c 0 residue).incWrap .mover F.SMDONECNT_count
    if bitOf (dw c.desc 0) 31 then u.raise .mover 1 else u := rfl

theorem State.sliceEnds_aborted {code : Nat} (h : code = 1 ∨ code = 2) :
    s.sliceEnds n c code residue = (s.sliceClosed n c code residue).raise .mover 2 := by
  obtain rfl | rfl := h <;> rfl

theorem State.sliceEnds_failed {code : Nat} (h : 3 ≤ code) :
    s.sliceEnds n c code residue = (s.sliceClosed n c code residue).raise .mover 3 := by
  obtain ⟨k, rfl⟩ := Nat.exists_eq_add_of_le' h
  rfl

/-- Every end but a completion is one event. -/
theorem State.sliceEnds_raise {code : Nat} (h : code ≠ 0) :
    ∃ b, s.sliceEnds n c code residue = (s.sliceClosed n c code residue).raise .mover b := by
  by_cases fails : 3 ≤ code
  · exact ⟨3, s.sliceEnds_failed n c residue fails⟩
  · exact ⟨2, s.sliceEnds_aborted n c residue (by omega)⟩

/-- After the channel is free only its count and its event follow. -/
theorem State.sliceEnds_regsOnly (code : Nat) : RegsOnly (s.sliceClosed n c code residue) (s.sliceEnds n c code residue) := by
  have closed := RegsOnly.refl (s.sliceClosed n c code residue)
  by_cases h : code = 0
  · subst h
    rw [State.sliceEnds_completed]
    exact .ite (fun _ => closed.incWrap.raise) (fun _ => closed.incWrap)
  · obtain ⟨b, e⟩ := s.sliceEnds_raise n c residue h
    rw [e]
    exact closed.raise

theorem State.sliceEnds_eng (code : Nat) : (s.sliceEnds n c code residue).eng = { s.eng with
    chans := Tbl.put none s.eng.chans n none
    order := s.eng.order.filter (· != n)
    running := if s.eng.running = some n then none else s.eng.running
    last := Tbl.put (0, 0, 0) s.eng.last n (code, c.owner, residue) } := by
  rw [s.sliceEnds_regsOnly n c residue code]
  simp [State.sliceClosed]

theorem State.sliceEnds_mem (code : Nat) : (s.sliceEnds n c code residue).mem =
    (s.putStatus c.owner (sliceStatus c.desc) (statusBytes code c.owner (dw c.desc 1) residue)).mem := by
  rw [s.sliceEnds_regsOnly n c residue code]
  rfl

/-- Outside its status record a channel's end writes nothing. -/
theorem State.byte_sliceEnds_outside (code : Nat) {a : Nat} (h : a < sliceStatus c.desc ∨ sliceStatus c.desc + 16 ≤ a) :
    (s.sliceEnds n c code residue).byte a = s.byte a := by
  rw [State.byte_of_mem (s.sliceEnds_mem n c residue code), State.byte_putStatus_outside _ _ (by simpa using h)]

theorem State.byte_sliceEnds_noStatus (code : Nat) (h : sliceStatus c.desc = 0) (a : Nat) :
    (s.sliceEnds n c code residue).byte a = s.byte a := by
  rw [State.byte_of_mem (s.sliceEnds_mem n c residue code), h, State.putStatus_nowhere]

end

theorem booked_self (u : UnitId) : ctwrapKey ∈ booked u ∧ fieldKey .counterPod F.EVRAW ∈ booked u ∧ fieldKey u F.EVRAW ∈ booked u := by
  simp [booked]

/-- A channel's end writes the fields of its event, and SMDONECNT where it completed. -/
theorem RegsBut.sliceEnds {s u : State} {l : List Nat} (h : RegsBut s u l) (hl : ∀ k ∈ booked .mover, k ∈ l) (n : Nat) (c : MoverChan)
    (residue : Nat) {code : Nat} (count : code = 0 → fieldKey .mover F.SMDONECNT_count ∈ l) :
    RegsBut s (u.sliceEnds n c code residue) l := by
  obtain ⟨last, wraps, events⟩ := booked_self .mover
  have closed : RegsBut s (u.sliceClosed n c code residue) l := h.same (State.putStatus_regs ..)
  by_cases zero : code = 0
  · subst zero
    have counted := closed.incWrap (n := 1) (count rfl)
    rw [State.sliceEnds_completed]
    exact .ite (fun _ => counted.raise (hl _ last) (hl _ wraps) (hl _ events)) (fun _ => counted)
  · obtain ⟨b, e⟩ := u.sliceEnds_raise n c residue zero
    rw [e]
    exact closed.raise (hl _ last) (hl _ wraps) (hl _ events)

/-- Between `s` and `t` channel `n`, which held `c`, ended with a code and a residue. -/
def SliceEnded (s t : State) (n : Nat) (c : MoverChan) (code residue : Nat) : Prop :=
  Tbl.look (0, 0, 0) t.eng.last n = (code, c.owner, residue) ∧ Tbl.look none t.eng.chans n = none ∧ n ∉ t.eng.order ∧
    (∀ m, m ≠ n → Tbl.look none t.eng.chans m = Tbl.look none s.eng.chans m) ∧ t.eng.hashQ = s.eng.hashQ ∧
    (code = 1 ∨ code = 2 → t.event .mover 2 = true) ∧ (code = 3 ∨ code = 4 → t.event .mover 3 = true) ∧
    (code = 0 → t.rd .mover F.SMDONECNT_count = (s.rd .mover F.SMDONECNT_count + 1) % 2 ^ 32 ∧
      (bitOf (dw c.desc 0) 31 = true → t.event .mover 1 = true)) ∧
    (sliceStatus c.desc ≠ 0 → sliceStatus c.desc % 16 = 0 → mayReach c.owner true (sliceStatus c.desc) 16 = true →
      t.readBytes (sliceStatus c.desc) 16 = statusBytes code c.owner (dw c.desc 1) residue)

/-- Ending a channel in a state that agrees with `s` in the channels and the hash engine's queue, and for a completion in SMDONECNT. -/
theorem State.sliceEnds_ended {s u : State} (n : Nat) (c : MoverChan) (code residue : Nat) (chans : u.eng.chans = s.eng.chans)
    (hashQ : u.eng.hashQ = s.eng.hashQ) (done : code = 0 → u.rd .mover F.SMDONECNT_count = s.rd .mover F.SMDONECNT_count) :
    SliceEnded s (u.sliceEnds n c code residue) n c code residue := by
  have eng := u.sliceEnds_eng n c residue code
  refine ⟨by simp [eng], by simp [eng], by simp [eng], fun m hm => ?others, by rw [eng, ← hashQ], fun h => ?aborted, fun h => ?failed,
    fun h => ?completed, fun here aligned may => ?status⟩
  case others => rw [eng, ← chans, Tbl.look_put_other _ _ _ _ hm]
  case aborted =>
    rw [u.sliceEnds_aborted n c residue h]
    exact State.event_raise _ _ (by decide) (by decide)
  case failed =>
    rw [u.sliceEnds_failed n c residue (by omega)]
    exact State.event_raise _ _ (by decide) (by decide)
  case completed =>
    subst h
    have closed : (u.sliceClosed n c 0 residue).rd .mover F.SMDONECNT_count = s.rd .mover F.SMDONECNT_count := by
      rw [← done rfl, State.rd, State.rd, State.sliceClosed, State.putStatus_regs]
    have counted : ((u.sliceClosed n c 0 residue).incWrap .mover F.SMDONECNT_count).rd .mover F.SMDONECNT_count =
        (s.rd .mover F.SMDONECNT_count + 1) % 2 ^ 32 := (State.rd_wr_same ..).trans (by rw [closed])
    rw [State.sliceEnds_completed]
    cases bitOf (dw c.desc 0) 31 with
    | false => exact ⟨counted, nofun⟩
    | true => exact ⟨(State.rd_raise _ _ _ (by decide)).trans counted, fun _ => State.event_raise _ _ (by decide) (by decide)⟩
  case status =>
    have put := State.putStatus_put (s := u) (bs := statusBytes code c.owner (dw c.desc 1) residue) here aligned (by simpa using may)
    have stored := u.readBytes_engineStore (sliceStatus c.desc) (statusBytes code c.owner (dw c.desc 1) residue)
    rw [length_statusBytes] at stored
    rw [State.readBytes_of_mem (u.sliceEnds_mem n c residue code), put, stored]

/-! ### The next channel (R424, R425) -/

theorem exec_sliceChannelStart {s : State} {n : Nat} {q : List Nat} {c : MoverChan} (clocked : s.pw.clocked = true)
    (idle : s.eng.running = none) (oldest : s.eng.order = n :: q) (hc : Tbl.look none s.eng.chans n = some c) :
    exec .sliceChannelStart s = .next (if sliceOk c.desc c.owner then { s with eng := { s.eng with running := some n } }
      else s.sliceEnds n c 3 (sliceOf c.desc).total) := by
  change execSliceChannelStart s = _
  simp [execSliceChannelStart, idle, oldest, hc, clocked]

/-! ### Errors of buffer reads (R413, R421) -/

theorem State.eccFail_regsOnly (s : State) (a : Nat) : RegsOnly s (s.eccFail a) := (RegsOnly.refl s).incSat.wr.wr.raise

theorem State.sramPar_regsOnly (s : State) : RegsOnly s s.sramPar := (RegsOnly.refl s).incWrap.raise

theorem State.eccFail_event (s : State) (a : Nat) : (s.eccFail a).event .dram 3 = true := State.event_raise _ _ (by decide) (by decide)

theorem State.sramPar_event (s : State) : s.sramPar.event .dram 7 = true := State.event_raise _ _ (by decide) (by decide)

/-! ### A channel that runs (R426 to R430) -/

theorem exec_sliceChannelDone {s : State} {n : Nat} {c : MoverChan} (clocked : s.pw.clocked = true) (running : s.eng.running = some n)
    (hc : Tbl.look none s.eng.chans n = some c) (bursts : Nat) (err : Fin 3) :
    exec (.sliceChannelDone bursts err) s = .next (s.sliceRun n c bursts err.val) := by
  change execSliceChannelDone bursts err s = _
  simp [execSliceChannelDone, running, hc, clocked]

/-- The state after `k` bursts, with the bytes moved counted in counter 184. -/
def State.sliceMoved (s : State) (d : Slice) (k : Nat) : State :=
  let r := s.moveBursts d k 0
  ({ r.1 with eng := { r.1.eng with moved := (r.2 + s.eng.moved) % 64 } } : State).count 184 ((r.2 + s.eng.moved) / 64)

theorem State.sliceMoved_eng (s : State) (d : Slice) (k : Nat) : ∃ m, (s.sliceMoved d k).eng = { s.eng with moved := m } :=
  ⟨_, by rw [State.sliceMoved, State.count_eng, (s.moveBursts_frame d k).2]⟩

theorem State.byte_sliceMoved (s : State) (d : Slice) (k a : Nat) : (s.sliceMoved d k).byte a = (s.moveBursts d k 0).1.byte a :=
  State.byte_of_mem (State.count_mem ..) a

theorem State.sliceMoved_regsBut (s : State) (d : Slice) (k : Nat) : RegsBut s (s.sliceMoved d k) (booked .mover) := by
  obtain ⟨last, wraps, -⟩ := booked_self .mover
  have moved : RegsBut s (s.moveBursts d k 0).1 (booked .mover) := (RegsBut.refl s _).same (s.moveBursts_frame d k).1
  exact RegsBut.count (RegsBut.same moved (by rfl)) last wraps

/-- How many bursts a running channel makes at most: only an abort or a failing read stops it before its end. -/
def MoverChan.bursts (c : MoverChan) (bursts err : Nat) : Nat :=
  if c.abort != 0 || (err != 0 && !(sliceOf c.desc).fill) then bursts else (sliceOf c.desc).total

/-- The bytes left when channel `c` stops after `k` bursts. -/
def State.sliceLeft (s : State) (c : MoverChan) (k : Nat) : Nat := (sliceOf c.desc).total - (s.moveBursts (sliceOf c.desc) k 0).2

section
variable {s : State} {n : Nat} {c : MoverChan} {bursts err : Nat}

theorem MoverChan.bursts_whole (calm : c.abort = 0) (reads : err = 0 ∨ (sliceOf c.desc).fill = true) :
    c.bursts bursts err = (sliceOf c.desc).total := if_neg (by obtain h | h := reads <;> simp [calm, h])

theorem MoverChan.bursts_cut (stops : c.abort ≠ 0 ∨ err ≠ 0 ∧ (sliceOf c.desc).fill = false) : c.bursts bursts err = bursts :=
  if_pos (by simpa using stops)

/-- A channel whose reads do not fail ends with its abort's code, or with code 0. -/
theorem State.sliceRun_ends (reads : err = 0 ∨ (sliceOf c.desc).fill = true) :
    s.sliceRun n c bursts err = (s.sliceMoved (sliceOf c.desc) (c.bursts bursts err)).sliceEnds n c c.abort
      (s.sliceLeft c (c.bursts bursts err)) := if_neg (by obtain h | h := reads <;> simp [h])

/-- The state after a read that failed behind the bursts made (R413, R421): in the buffer (1) or in an on-chip memory. -/
def State.sliceFault (s : State) (d : Slice) (k err : Nat) : State :=
  if err = 1 then (s.sliceMoved d k).eccFail (d.srcAt (s.moveBursts d k 0).2) else (s.sliceMoved d k).sramPar

/-- A read that fails before the end ends a copy with code 4. -/
theorem State.sliceRun_fails (fault : err ≠ 0) (copy : (sliceOf c.desc).fill = false) (left : s.sliceLeft c bursts ≠ 0) :
    s.sliceRun n c bursts err = (s.sliceFault (sliceOf c.desc) bursts err).sliceEnds n c 4 (s.sliceLeft c bursts) := by
  have cut : c.bursts bursts err = bursts := MoverChan.bursts_cut (.inr ⟨fault, copy⟩)
  have failed : s.sliceRun n c bursts err = (s.sliceFault (sliceOf c.desc) (c.bursts bursts err) err).sliceEnds n c 4
      (s.sliceLeft c (c.bursts bursts err)) := if_pos (by
    change (decide (err ≠ 0) && !(sliceOf c.desc).fill && decide (s.sliceLeft c (c.bursts bursts err) ≠ 0)) = true
    simp [fault, copy, cut, left])
  rw [failed, cut]

end

theorem State.sliceFault_regsOnly (s : State) (d : Slice) (k err : Nat) : RegsOnly (s.sliceMoved d k) (s.sliceFault d k err) :=
  .ite (fun _ => State.eccFail_regsOnly ..) (fun _ => State.sramPar_regsOnly _)

/-- A channel that ran has ended after `k` bursts without a failing read. -/
theorem State.sliceMoved_ends {s : State} {n : Nat} (c : MoverChan) (running : s.eng.running = some n) (d : Slice) (k code residue : Nat)
    {l : List Nat} (hl : ∀ x ∈ booked .mover, x ∈ l) (count : code = 0 → fieldKey .mover F.SMDONECNT_count ∈ l) :
    let t := (s.sliceMoved d k).sliceEnds n c code residue
    SliceEnded s t n c code residue ∧ t.eng.running = none ∧ RegsBut s t l ∧
      ∀ a, a < sliceStatus c.desc ∨ sliceStatus c.desc + 16 ≤ a → t.byte a = (s.moveBursts d k 0).1.byte a := by
  obtain ⟨m, eng⟩ := s.sliceMoved_eng d k
  have moved := s.sliceMoved_regsBut d k
  refine ⟨State.sliceEnds_ended n c code residue (by rw [eng]) (by rw [eng]) fun _ => moved.rd (by decide), ?_,
    (moved.weaken hl).sliceEnds hl n c residue count, fun a outside => ?_⟩
  · rw [State.sliceEnds_eng, eng]
    exact if_pos running
  · rw [State.byte_sliceEnds_outside _ _ _ _ _ outside, State.byte_sliceMoved]

/-- Without a status record the buffer is as the bursts left it. -/
theorem State.byte_sliceMoved_ends (s : State) (n : Nat) {c : MoverChan} (noStatus : sliceStatus c.desc = 0) (d : Slice)
    (k code residue a : Nat) : ((s.sliceMoved d k).sliceEnds n c code residue).byte a = (s.moveBursts d k 0).1.byte a := by
  rw [State.byte_sliceEnds_noStatus _ _ _ _ _ noStatus, State.byte_sliceMoved]

/-- The event of the memory whose read failed stands after the end it causes. -/
theorem State.sliceFault_ends_event (s : State) (n : Nat) (c : MoverChan) (d : Slice) (k err residue : Nat) :
    let t := (s.sliceFault d k err).sliceEnds n c 4 residue
    (err = 1 → t.event .dram 3 = true) ∧ (err = 2 → t.event .dram 7 = true) := by
  have regs : RegsBut (s.sliceFault d k err) ((s.sliceFault d k err).sliceEnds n c 4 residue) (booked .mover) :=
    (RegsBut.refl _ _).sliceEnds (fun _ => id) n c residue nofun
  have kept (b : Nat) : ((s.sliceFault d k err).sliceEnds n c 4 residue).event .dram b = (s.sliceFault d k err).event .dram b :=
    congrArg (bitOf · b) (regs.rd (by decide))
  refine ⟨fun buffer => ?_, fun sram => ?_⟩
  · rw [kept, State.sliceFault, if_pos buffer, State.eccFail_event]
  · rw [kept, State.sliceFault, if_neg (by omega), State.sramPar_event]

/-- A channel that ran has ended at a failing read behind `k` bursts. -/
theorem State.sliceFault_ends (s : State) (n : Nat) (c : MoverChan) (d : Slice) (k err residue : Nat) :
    let t := (s.sliceFault d k err).sliceEnds n c 4 residue
    SliceEnded s t n c 4 residue ∧ ∀ a, a < sliceStatus c.desc ∨ sliceStatus c.desc + 16 ≤ a →
      t.byte a = (s.moveBursts d k 0).1.byte a := by
  have only := s.sliceFault_regsOnly d k err
  obtain ⟨m, moved⟩ := s.sliceMoved_eng d k
  have eng : (s.sliceFault d k err).eng = { s.eng with moved := m } := by rw [only, moved]
  refine ⟨State.sliceEnds_ended n c 4 residue (by rw [eng]) (by rw [eng]) nofun, fun a outside => ?_⟩
  rw [State.byte_sliceEnds_outside _ _ _ _ _ outside, State.byte_of_mem (s := s.sliceMoved d k) (by rw [only]), State.byte_sliceMoved]

/-! ### Aborts (R428) -/

theorem exec_smabortWrite {s : State} {r : Requester} (h : s.May r .mover 0x54) (v : Word) :
    exec (.smabortWrite r v) s = .next (s.smAbort r v.toNat) := State.live_guardReg h v.toNat _

theorem State.smAbort_free {s : State} (r : Requester) {v : Nat} (free : Tbl.look none s.eng.chans (v % 32) = none) :
    s.smAbort r v = s := by
  simp [State.smAbort, free]

section
variable {s : State} {n : Nat} {c : MoverChan} (hc : Tbl.look none s.eng.chans n = some c) (why : Nat) {r : Requester} {v : Nat}
include hc

/-- The owner and the keeper may abort a channel. -/
theorem State.smAbort_permitted (hv : v % 32 = n) (own : r.num = c.owner ∨ r.num = 0) : s.smAbort r v = s.abortSlice n 1 := by
  have permitted : r.num = 0 ∨ r.num = c.owner := own.symm
  simp [State.smAbort, hv, hc, permitted]

/-- Another requester's SMABORT is refused. -/
theorem State.smAbort_foreign (hv : v % 32 = n) (other : r.num ≠ c.owner) (guest : r.num ≠ 0) :
    s.smAbort r v = s.violation r .mover 3 (UnitId.mover.base + 0x54) v := by
  simp [State.smAbort, hv, hc, other, guest]

theorem State.abortSlice_queued (queued : s.eng.running ≠ some n) :
    s.abortSlice n why = s.sliceEnds n c why (sliceOf c.desc).total := by
  simp [State.abortSlice, hc, queued]

theorem State.abortSlice_running (running : s.eng.running = some n) (fresh : c.abort = 0) :
    s.abortSlice n why = { s with eng := { s.eng with chans := Tbl.put none s.eng.chans n (some { c with abort := why }) } } := by
  simp [State.abortSlice, hc, running, fresh]

end

/-- A write refused with LOCKVIOL: its crumb and the event of its unit, and nothing else (R57). -/
theorem State.violation_spec (s : State) (r : Requester) {u : UnitId} {cause off v : Nat} (hu : fieldKey u.evUnit F.EVRAW ≠ ctwrapKey)
    (hc : cause < 4) (ho : off < 2 ^ 32) (hv : v < 2 ^ 32) :
    let t := s.violation r u cause off v
    t.event u.evUnit 0 = true ∧ Queued s t 0 r.num u.number cause off v ∧ RegsBut s t (booked u.evUnit ++ crumbKeys) ∧
      CrumbOnly s t := by
  obtain ⟨queued, regs, only⟩ := s.refuse_spec r u cause off v ho hv (by omega)
  obtain ⟨last, wraps, events⟩ := booked_self u.evUnit
  have raised : s.violation r u cause off v = (s.refuse r.num u cause off v).raise u.evUnit 0 := if_neg (by omega)
  dsimp only
  rw [raised]
  refine ⟨State.event_raise _ _ hu (by decide), fun room => ?_, ?_, only.trans (RegsOnly.refl _).raise.crumb⟩
  · rw [State.raise_crumbs]
    exact queued room
  · exact (regs.weaken fun _ => List.mem_append_right _).raise (List.mem_append_left _ last) (List.mem_append_left _ wraps)
      (List.mem_append_left _ events)

/-! ### The obligation -/

/-- Settles O38: a channel's start, its three ends and SMABORT, each by its equation above; what the bursts leave in the buffer by
induction over them. -/
theorem sliceMover : Obligations.SliceMover := by
  intro s n c clocked hc
  dsimp only
  refine ⟨fun q idle oldest => ⟨fun ok => ?start, fun bad => ?refused⟩, fun bursts err running ok =>
    ⟨fun fresh reads => ?whole, fun aborted reads => ?cut, fun fault copy left => ?failed⟩, fun r v may hn =>
    ⟨fun own queued => ?abortQueued, fun own running fresh => ?abortRunning, fun other guest => ?foreign⟩, fun r v may free => ?free⟩
  case start => exact ⟨_, (exec_sliceChannelStart clocked idle oldest hc).trans (by rw [if_pos ok]), rfl, rfl⟩
  case refused =>
    have started := exec_sliceChannelStart clocked idle oldest hc
    rw [if_neg (by simp [bad])] at started
    refine ⟨_, started, State.sliceEnds_ended n c 3 _ rfl rfl fun _ => rfl, ?_, (RegsBut.refl s _).sliceEnds (fun _ => id) n c _ nofun,
      fun a => s.byte_sliceEnds_outside n c _ 3⟩
    simp [State.sliceEnds_eng, idle]
  case whole =>
    have lined := sliceOk_lined ok
    have reached := s.moveBursts_whole lined
    have done := exec_sliceChannelDone clocked running hc bursts err
    rw [State.sliceRun_ends reads, MoverChan.bursts_whole fresh reads, State.sliceLeft, reached, Nat.sub_self, fresh] at done
    obtain ⟨ended, free, regs, bytes⟩ := State.sliceMoved_ends c running (sliceOf c.desc) (sliceOf c.desc).total 0 0
      (l := fieldKey .mover F.SMDONECNT_count :: booked .mover) (fun _ => List.mem_cons_of_mem _) (fun _ => List.mem_cons_self)
    refine ⟨_, done, ended, free, regs, fun a outside => ⟨bytes a outside, fun apart => ?_⟩, fun noStatus fill p hp => ?_,
      fun noStatus copy apart p hp => ?_⟩
    · rw [bytes a outside, State.byte_moveBursts_outside lined _ s apart]
    · rw [s.byte_sliceMoved_ends n noStatus]
      exact State.byte_moveBursts_fill fill _ s p (by omega)
    · rw [s.byte_sliceMoved_ends n noStatus]
      exact State.byte_moveBursts_copy lined copy _ s (fun p hp q hq => (apart p hp q hq).1) (fun p hp q hq => (apart p hp q hq).2) p
        (by omega)
  case cut =>
    have stops : c.abort ≠ 0 := by omega
    have done := exec_sliceChannelDone clocked running hc bursts err
    rw [State.sliceRun_ends reads, MoverChan.bursts_cut (.inl stops)] at done
    exact ⟨_, done, State.sliceMoved_ends c running _ _ _ _ (fun _ => id) (fun zero => absurd zero stops)⟩
  case failed =>
    have done := exec_sliceChannelDone clocked running hc bursts err
    rw [State.sliceRun_fails fault copy (Nat.sub_ne_zero_of_lt left)] at done
    obtain ⟨ended, bytes⟩ := s.sliceFault_ends n c (sliceOf c.desc) bursts err.val (s.sliceLeft c bursts)
    obtain ⟨buffer, sram⟩ := s.sliceFault_ends_event n c (sliceOf c.desc) bursts err.val (s.sliceLeft c bursts)
    exact ⟨_, done, ended, buffer, sram, bytes⟩
  case abortQueued =>
    have aborted := exec_smabortWrite may v
    rw [State.smAbort_permitted hc hn own, State.abortSlice_queued hc 1 queued] at aborted
    refine ⟨_, aborted, State.sliceEnds_ended _ c 1 _ rfl rfl nofun, ?_, (RegsBut.refl s _).sliceEnds (fun _ => id) _ c _ nofun,
      fun a => s.byte_sliceEnds_outside _ c _ 1⟩
    rw [State.sliceEnds_eng]
    exact if_neg queued
  case abortRunning =>
    have aborted := exec_smabortWrite may v
    rw [State.smAbort_permitted hc hn own, State.abortSlice_running hc 1 running fresh] at aborted
    exact ⟨_, aborted, Tbl.look_put_same none s.eng.chans n (some { c with abort := 1 }),
      fun m hm => Tbl.look_put_other none none s.eng.chans (some { c with abort := 1 }) hm, rfl⟩
  case foreign =>
    have refused := exec_smabortWrite may v
    rw [State.smAbort_foreign hc hn other guest] at refused
    obtain ⟨event, queued, regs, only⟩ := s.violation_spec r (u := .mover) (cause := 3) (off := UnitId.mover.base + 0x54) (v := v.toNat)
      (by decide) (by decide) (by decide) v.isLt
    exact ⟨_, refused, event, by rw [only], queued, regs, only⟩
  case free => exact (exec_smabortWrite may v).trans (by rw [State.smAbort_free r free])

end Sys2Proof.Machine
end

section
/-! PROOF. The event block, lock, lane and crumb commands (R43, R44, R56, R441, R446 to R449): what forcing, clearing and re-arming leave
in a unit's events, which lanes send, and what becomes of a crumb. -/

namespace Sys2Proof.Machine

/-! ### Units of the window (R45) -/

/-- The unit found at a window offset, if any, begins no later than that offset. -/
def Begun (o : Nat) (r : Option UnitId) : Prop := ∀ u, r = some u → u.base ≤ o

theorem Begun.none (o : Nat) : Begun o none := nofun

theorem Begun.some {o : Nat} {u : UnitId} (h : u.base ≤ o) : Begun o (some u) := fun _ e => Option.some.inj e ▸ h

/-- A row of units, each `w` bytes after the one before it from `a` on. -/
theorem Begun.row {l : List UnitId} {a w o : Nat} (placed : ∀ i, (hi : i < l.length) → l[i].base = a + w * i) (ha : a ≤ o) :
    Begun o l[(o - a) / w]? := by
  intro u h
  obtain ⟨hi, rfl⟩ := List.getElem?_eq_some_iff.mp h
  have within := Nat.mul_div_le (o - a) w
  rw [placed _ hi]
  omega

theorem Begun.ite {o : Nat} {c : Prop} [Decidable c] {r q : Option UnitId} (h : c → Begun o r) (g : ¬c → Begun o q) :
    Begun o (if c then r else q) := by
  split
  · exact h ‹_›
  · exact g ‹_›

theorem UnitId.begun_ofOffset (o : Nat) : Begun o (UnitId.ofOffset o) := by
  simp only [UnitId.ofOffset, Bool.and_eq_true, decide_eq_true_eq]
  repeat' refine .ite (fun _ => ?_) (fun _ => ?_)
  any_goals exact .none o
  any_goals exact .row (by decide) (by omega)
  all_goals
    refine .some ?_
    simp only [UnitId.base, headBase]
    omega

/-- The counter pod is the last unit of the window. -/
theorem UnitId.base_lt_counterPod {o : Nat} {u : UnitId} (h : UnitId.ofOffset o = some u) (hu : u ≠ .counterPod) : u.base < 0x200400 := by
  have begun := UnitId.begun_ofOffset o u h
  by_cases above : 0x200000 ≤ o
  · rw [UnitId.ofOffset_above above] at h
    split at h
    · omega
    · split at h
      · exact absurd (Option.some.inj h).symm hu
      · exact absurd h nofun
  · omega

/-- The events of such a unit are not among the fields a counter that wraps writes. -/
theorem UnitId.evraw_apart {o : Nat} {u : UnitId} (h : UnitId.ofOffset o = some u) (hu : u ≠ .counterPod) :
    fieldKey u F.EVRAW ≠ ctwrapKey ∧ fieldKey u F.EVRAW ≠ fieldKey .counterPod F.EVRAW := by
  have below := UnitId.base_lt_counterPod h hu
  have pod : UnitId.counterPod.base = 0x310000 := rfl
  simp only [fieldKey, ctwrapKey, pod]
  omega

/-! ### Which events an operation sets (R43, R44) -/

theorem mem_bitsSet {v b : Nat} : b ∈ bitsSet v ↔ b < 32 ∧ bitOf v b = true := by
  simp [bitsSet]

theorem bitsSet_two_pow (b : Fin 32) : bitsSet (2 ^ b.val) = [b.val] := by
  revert b
  decide

theorem State.event_wr_evraw (s : State) (u : UnitId) (v : Nat) {b : Nat} (hb : b < 32) :
    (s.wr u F.EVRAW v).event u b = v.testBit b := by
  rw [State.event, State.rd_wr_same, bitOf_eq, Nat.testBit_mod_two_pow, decide_eq_true hb, Bool.true_and]

theorem State.event_setEvBit_eq (s : State) {u : UnitId} (hu : fieldKey u F.EVRAW ≠ ctwrapKey) (b : Nat) {c : Nat} (hc : c < 32) :
    (s.setEvBit u b).event u c = (s.event u c || decide (b = c)) := by
  unfold State.setEvBit
  split
  case isTrue here =>
    by_cases e : b = c
    · subst e
      simpa [State.event] using here
    · simp [e]
  case isFalse =>
    rw [State.event_bump _ _ _ _ hu, State.event_wr_evraw _ _ _ hc, Nat.testBit_or, Nat.testBit_two_pow, ← bitOf_eq]
    rfl

/-- Reporting a counter's wrap is an event of the counter pod alone. -/
theorem State.event_noteWrap_other (s t : State) {u : UnitId} (hu : fieldKey u F.EVRAW ≠ ctwrapKey)
    (hc : fieldKey u F.EVRAW ≠ fieldKey .counterPod F.EVRAW) (b : Nat) : (State.noteWrap s t).event u b = t.event u b := by
  simp only [State.event, State.rd, State.look_noteWrap s t hu hc]

section
variable {u : UnitId} (hu : fieldKey u F.EVRAW ≠ ctwrapKey) (hc : fieldKey u F.EVRAW ≠ fieldKey .counterPod F.EVRAW)
include hu hc

/-- Of a unit's own events, raising one sets that one and no other. -/
theorem State.event_raise_eq (s : State) (b : Nat) {c : Nat} (h : c < 32) : (s.raise u b).event u c = (s.event u c || decide (b = c)) := by
  rw [State.raise, State.event_noteWrap_other _ _ hu hc, State.raise0, State.event_afterEv _ _ _ _ hu, State.event_setEvBit_eq _ hu _ h]

theorem State.event_raises (l : List Nat) (s : State) {c : Nat} (h : c < 32) :
    (l.foldl (fun t b => t.raise u b) s).event u c = (s.event u c || decide (c ∈ l)) := by
  induction l generalizing s with
  | nil => simp
  | cons b l ih => simp [ih, State.event_raise_eq hu hc _ _ h, Bool.or_assoc, eq_comm]

theorem State.event_raiseAll (s : State) (v : Nat) {b : Nat} (h : b < 32) : (s.raiseAll u v).event u b = (s.event u b || bitOf v b) := by
  rw [State.raiseAll, State.event_raises hu hc _ _ h]
  simp [mem_bitsSet, h]

end

theorem RegsBut.raiseAll {s t : State} {u : UnitId} (h : RegsBut s t (booked u)) (v : Nat) : RegsBut s (t.raiseAll u v) (booked u) := by
  obtain ⟨last, wraps, events⟩ := booked_self u
  exact List.foldlRecOn (motive := fun t => RegsBut s t (booked u)) _ _ h fun _ kept _ _ => kept.raise last wraps events

theorem RegsOnly.raiseAll {s t : State} (h : RegsOnly s t) (u : UnitId) (v : Nat) : RegsOnly s (t.raiseAll u v) :=
  List.foldlRecOn _ _ h fun _ only _ _ => only.raise

/-- The events of a unit after EVCLR, before those whose condition stays set their bits again (R44). -/
def State.evCleared (s : State) (u : UnitId) (v occ : Nat) : State :=
  s.wr u F.EVRAW (s.rd u F.EVRAW &&& ((v &&& (occ ^^^ 0xFFFFFFFF)) ^^^ 0xFFFFFFFF))

theorem State.event_evCleared (s : State) (u : UnitId) (v occ : Nat) {b : Nat} (hb : b < 32) :
    (s.evCleared u v occ).event u b = (s.event u b && !(bitOf v b && !bitOf occ b)) := by
  have ones : Nat.testBit 0xFFFFFFFF b = true := by
    rw [show 0xFFFFFFFF = 2 ^ 32 - 1 from rfl, Nat.testBit_two_pow_sub_one, decide_eq_true hb]
  rw [State.evCleared, State.event_wr_evraw _ _ _ hb]
  simp [State.event, bitOf_eq, ones]

theorem bitOf_and (v w b : Nat) : bitOf (v &&& w) b = (bitOf v b && bitOf w b) := by
  simp [bitOf_eq]

theorem exec_evforceWrite {s : State} {r : Requester} {u : UnitId} (h : s.May r u 0x2C) (v : Word) :
    exec (.evforceWrite r u v) s = .next (s.raiseAll u v.toNat) := State.live_guardReg h _ _

theorem exec_evclrWrite {s : State} {r : Requester} {u : UnitId} (h : s.May r u 0x30) (v occ present : Word) :
    exec (.evclrWrite r u v occ present) s = .next ((s.evCleared u v.toNat occ.toNat).raiseAll u (v.toNat &&& present.toNat)) :=
  State.live_guardReg h _ _

/-! ### Locks (R56) -/

theorem State.flag_setFlag_mono (s : State) {u d : UnitId} {f : Field} (hf : f.w = 1) (h : s.flag d f = true) :
    (s.setFlag u f true).flag d f = true := by
  by_cases e : fieldKey d f = fieldKey u f
  · have same := s.flag_setFlag_same u true hf
    rwa [State.flag, State.rd, ← e] at same
  · rwa [State.flag, State.setFlag, State.rd_wr_other _ _ e]

theorem State.flag_lockAll (l : List UnitId) (s : State) {d : UnitId} (h : d ∈ l ∨ s.flag d F.ULOCK_locked = true) :
    (l.foldl (fun t a => t.setFlag a F.ULOCK_locked true) s).flag d F.ULOCK_locked = true := by
  induction l generalizing s with
  | nil => exact h.resolve_left List.not_mem_nil
  | cons a l ih =>
    refine ih _ ?_
    obtain inside | locked := h
    · obtain rfl | later := List.mem_cons.mp inside
      · exact .inr (s.flag_setFlag_same d true rfl)
      · exact .inl later
    · exact .inr (s.flag_setFlag_mono rfl locked)

theorem State.lockTree_regsBut (s : State) (u : UnitId) :
    RegsBut s (s.lockTree u) (u.subtree.map (fun d => fieldKey d F.ULOCK_locked)) :=
  List.foldlRecOn (motive := fun t => RegsBut s t (u.subtree.map (fun d => fieldKey d F.ULOCK_locked))) _ _ (RegsBut.refl s _)
    fun _ kept _ inside => kept.setFlag (List.mem_map_of_mem inside)

theorem State.lockTree_regsOnly (s : State) (u : UnitId) : RegsOnly s (s.lockTree u) :=
  List.foldlRecOn _ _ (RegsOnly.refl s) fun _ only _ _ => only.setFlag

theorem exec_ulockWrite {s : State} {r : Requester} {u : UnitId} (h : s.May r u 0x10) (v : Word) :
    exec (.ulockWrite r u v) s = .next (if bitOf v.toNat 0 then s.lockTree u else s) := State.live_guardReg h _ _

/-! ### Lanes (R441) -/

/-- Lane `n` armed, its message not yet sent. -/
def State.armed (s : State) (n : Nat) : State := { s with lanes := { s.lanes with sent := Tbl.put false s.lanes.sent n false } }

theorem State.rearm_idle {s : State} {n : Nat} (h : s.lanePending n = false) : s.rearm n = s.armed n :=
  if_neg (ne_true_of_eq_false h)

theorem State.rearm_pending {s : State} {n : Nat} (h : s.lanePending n = true) :
    s.rearm n = State.noteWrap (s.armed n) ((s.armed n).laneMessage n) := if_pos h

theorem State.laneMessage_msix {s : State} {n : Nat} (on : (s.laneDest n).msix = true) (hv : (s.laneDest n).vector ≤ 64) :
    (s.laneMessage n).port.msix = s.port.msix ++ [(s.laneDest n).vector] := by
  simp [State.laneMessage, on, hv, State.sendMsix]

/-- A lane's message adds to what was sent, if it is sent at all. -/
theorem State.laneMessage_msix_appends (s : State) (n : Nat) : ∃ l, (s.laneMessage n).port.msix = s.port.msix ++ l := by
  by_cases sends : (s.laneDest n).msix = true ∧ (s.laneDest n).vector ≤ 64
  · exact ⟨_, State.laneMessage_msix sends.1 sends.2⟩
  · exact ⟨[], by rw [State.laneMessage, if_neg (by simpa using sends), List.append_nil]⟩

theorem State.noteWrap_msix_appends (s t : State) : ∃ l, (State.noteWrap s t).port.msix = t.port.msix ++ l := by
  unfold State.noteWrap
  split
  · exact ⟨[], (List.append_nil _).symm⟩
  · rw [← State.setEvBit_port t .counterPod 1]
    unfold State.raise0 State.afterEv
    split
    · exact ⟨[], (List.append_nil _).symm⟩
    · split
      · exact State.laneMessage_msix_appends _ _
      · exact ⟨[], (List.append_nil _).symm⟩

/-- A pending lane with MSI-X as a destination sends its message as it is armed; what follows it reports a counter's wrap. -/
theorem State.rearm_sends {s : State} {n : Nat} (pending : s.lanePending n = true) (on : (s.laneDest n).msix = true)
    (hv : (s.laneDest n).vector ≤ 64) : ∃ l, (s.rearm n).port.msix = s.port.msix ++ (s.laneDest n).vector :: l := by
  obtain ⟨l, sent⟩ := State.noteWrap_msix_appends (s.armed n) ((s.armed n).laneMessage n)
  have message : ((s.armed n).laneMessage n).port.msix = s.port.msix ++ [(s.laneDest n).vector] := State.laneMessage_msix on hv
  rw [message, List.append_assoc] at sent
  exact ⟨l, by rw [State.rearm_pending pending, sent]; rfl⟩

theorem State.armed_sent (s : State) (n : Nat) : Tbl.look false (s.armed n).lanes.sent n = false := by
  simp [State.armed]

theorem RegsOnly.noteWrap {s t : State} (h : RegsOnly s t) (r : State) : RegsOnly s (State.noteWrap r t) :=
  .ite (fun _ => h) (fun _ => h.raise0)

theorem State.rearm_regsBut (s : State) (n : Nat) : RegsBut s (s.rearm n) (booked .counterPod) := by
  obtain ⟨last, wraps, _⟩ := booked_self .counterPod
  have armed : RegsBut s (s.armed n) (booked .counterPod) := (RegsBut.refl s _).same rfl
  exact .ite (fun _ => (armed.laneMessage last).noteWrap last wraps) (fun _ => armed)

theorem State.rearm_regsOnly (s : State) (n : Nat) : RegsOnly s (s.rearm n) := by
  have armed : RegsOnly s (s.armed n) := rfl
  exact .ite (fun _ => armed.laneMessage.noteWrap _) (fun _ => armed)

theorem exec_lnrearmWrite_lane {s : State} {r : Requester} {hi : Bool} (b : Fin 32) (h : s.May r .event (if hi then 0x5C else 0x58)) :
    exec (.lnrearmWrite r hi (BitVec.ofNat 32 (2 ^ b.val))) s = .next (s.rearm ((if hi then 32 else 0) + b.val)) := by
  have word : (BitVec.ofNat 32 (2 ^ b.val)).toNat = 2 ^ b.val := Nat.mod_eq_of_lt (Nat.pow_lt_pow_right (by omega) b.isLt)
  refine (State.live_guardReg h _ _).trans ?_
  rw [word, bitsSet_two_pow]
  cases hi <;> simp

/-! ### Crumbs (R446 to R449) -/

theorem exec_crselWrite {s : State} {r : Requester} (h : s.May r .event 0x80) (v : Word) :
    exec (.crselWrite r v) s = .next (s.crSel v.toNat) := State.live_guardReg h _ _

theorem State.crSel_latched (s : State) (v : Nat) :
    (s.crSel v).crumbs.latched = ((Tbl.look none s.crumbs.log (v % 4096)).map CrumbEntry.words).getD [] := by
  have entry : (s.wr .event F.CRSEL_entry v).rd .event F.CRSEL_entry = v % 4096 := State.rd_wr_same ..
  unfold State.crSel
  dsimp only
  rw [entry, State.wr_crumbs]
  cases Tbl.look none s.crumbs.log (v % 4096) <;> rfl

theorem exec_crswcmdWrite {s : State} {r : Requester} (h : s.May r .event 0xC8) (v : Word) :
    exec (.crswcmdWrite r v) s = .next (s.crSwcmd r v.toNat) := State.live_guardReg h _ _

theorem State.setCrumbEntry_unmirrored {s : State} (i : Nat) (e : CrumbEntry) (off : s.flag .event F.CRMBASELO_enable = false) :
    s.setCrumbEntry i e = { s with crumbs := { s.crumbs with log := Tbl.put none s.crumbs.log i (some e) } } :=
  if_neg (ne_true_of_eq_false off)

/-- The log with the crumb `c` as its entry at CRHEAD, which has moved on. -/
def State.crumbLogged (s : State) (c : Crumb) : State :=
  let t : State := { s with crumbs := { s.crumbs with
    log := Tbl.put none s.crumbs.log (s.rd .event F.CRHEAD_head) (some ⟨c, s.rd .event F.CRSEQ_seq, c.t % 2 ^ 32, 1, false⟩) } }
  (t.wr .event F.CRHEAD_head (s.rd .event F.CRHEAD_head + 1)).incWrap .event F.CRSEQ_seq

/-- With the mirror off, an entry written on a full log reports what it overwrites, and another counts as valid (R446). -/
theorem State.newCrumbEntry_eq {s : State} (c : Crumb) (off : s.flag .event F.CRMBASELO_enable = false) :
    s.newCrumbEntry c = if s.rd .event F.CRHEAD_valid == 4096 then ((s.crumbLogged c).incWrap .event F.CROVER_count).raise .event 3
      else (s.crumbLogged c).incWrap .event F.CRHEAD_valid := by
  unfold State.newCrumbEntry
  dsimp only
  rw [State.setCrumbEntry_unmirrored _ _ off]
  rfl

theorem State.crumbLogged_shows (s : State) (c : Crumb) :
    (s.crumbLogged c).rd .event F.CRHEAD_head = (s.rd .event F.CRHEAD_head + 1) % 4096 ∧
      (s.crumbLogged c).rd .event F.CRSEQ_seq = (s.rd .event F.CRSEQ_seq + 1) % 2 ^ 32 := by
  refine ⟨(State.rd_wr_apart _ .event _ (by decide)).trans (State.rd_wr_same ..), (State.rd_wr_same ..).trans ?_⟩
  rw [State.rd_wr_apart _ .event _ (by decide)]
  rfl

theorem State.crumbLogged_entry (s : State) (c : Crumb) :
    Tbl.look none (s.crumbLogged c).crumbs.log (s.rd .event F.CRHEAD_head) = some ⟨c, s.rd .event F.CRSEQ_seq, c.t % 2 ^ 32, 1, false⟩ := by
  simp [State.crumbLogged]

theorem State.crumbLogged_only (s : State) (c : Crumb) : CrumbOnly s (s.crumbLogged c) := rfl

/-- What follows the entry counts and may report it, nothing more. -/
theorem State.newCrumbEntry_regsOnly {s : State} (c : Crumb) (off : s.flag .event F.CRMBASELO_enable = false) :
    RegsOnly (s.crumbLogged c) (s.newCrumbEntry c) := by
  rw [State.newCrumbEntry_eq c off]
  exact .ite (fun _ => (RegsOnly.refl _).incWrap.raise) (fun _ => (RegsOnly.refl _).incWrap)

theorem State.newCrumbEntry_crumbs {s : State} (c : Crumb) (off : s.flag .event F.CRMBASELO_enable = false) :
    (s.newCrumbEntry c).crumbs = (s.crumbLogged c).crumbs := by
  have only := State.newCrumbEntry_regsOnly c off
  unfold RegsOnly at only
  rw [only]

theorem State.rd_newCrumbEntry {s : State} (c : Crumb) (off : s.flag .event F.CRMBASELO_enable = false) {f : Field}
    (quiet : calm .event (fieldKey .event f) = true) (lost : f.apart F.CROVER_count = true) (valid : f.apart F.CRHEAD_valid = true) :
    (s.newCrumbEntry c).rd .event f = (s.crumbLogged c).rd .event f := by
  rw [State.newCrumbEntry_eq c off]
  split
  · rw [State.rd_raise _ _ _ quiet]
    exact State.rd_wr_apart _ _ _ lost
  · exact State.rd_wr_apart _ _ _ valid

theorem State.newCrumbEntry_full {s : State} (c : Crumb) (off : s.flag .event F.CRMBASELO_enable = false)
    (full : s.rd .event F.CRHEAD_valid = 4096) : (s.newCrumbEntry c).event .event 3 = true := by
  rw [State.newCrumbEntry_eq c off, if_pos (beq_iff_eq.mpr full)]
  exact State.event_raise _ _ (by decide) (by decide)

/-- The crumbs queued after the one being written. -/
def State.dequeued (s : State) (q : List Crumb) : State := { s with crumbs := { s.crumbs with queue := q } }

theorem State.dequeued_only (s : State) (q : List Crumb) : CrumbOnly s (s.dequeued q) := rfl

theorem State.rd_dequeued (s : State) (q : List Crumb) (u : UnitId) (f : Field) : (s.dequeued q).rd u f = s.rd u f := rfl

theorem exec_crumbEntryWrite_new {s : State} {c : Crumb} {q : List Crumb} (clocked : s.pw.clocked = true)
    (queue : s.crumbs.queue = c :: q) (single : c.flood = false) :
    exec .crumbEntryWrite s = .next ((s.dequeued q).newCrumbEntry c) := by
  show execCrumbEntryWrite s = _
  simp [execCrumbEntryWrite, queue, single, clocked, State.dequeued]

/-- The next interval begins, with no crumb accepted; a quiet one before it ends the flood state (R447). -/
def State.intervalEnded (s : State) : State :=
  let t : State := { s with crumbs := { s.crumbs with accepted := 0 } }
  if s.crumbs.accepted < s.rd .event F.CRFLOOD_leave then t.setFlag .event F.CRSTAT_flood false else t

theorem exec_crumbIntervalEnd {s : State} (clocked : s.pw.clocked = true) : exec .crumbIntervalEnd s = .next s.intervalEnded :=
  live_clocked clocked

theorem State.intervalEnded_quiet {s : State} (h : s.crumbs.accepted < s.rd .event F.CRFLOOD_leave) :
    s.intervalEnded.flag .event F.CRSTAT_flood = false := by
  rw [State.intervalEnded, if_pos h]
  exact State.flag_setFlag_same _ _ _ rfl

theorem State.intervalEnded_busy {s : State} (h : s.rd .event F.CRFLOOD_leave ≤ s.crumbs.accepted) : s.intervalEnded.regs = s.regs := by
  rw [State.intervalEnded, if_neg (Nat.not_lt.mpr h)]

theorem State.intervalEnded_regsBut (s : State) : RegsBut s s.intervalEnded [fieldKey .event F.CRSTAT_flood] := by
  have begun : RegsBut s { s with crumbs := { s.crumbs with accepted := 0 } } [fieldKey .event F.CRSTAT_flood] := (RegsBut.refl s _).same rfl
  exact .ite (fun _ => begun.setFlag (List.mem_singleton_self _)) (fun _ => begun)

theorem State.intervalEnded_frame (s : State) :
    s.intervalEnded = { s with regs := s.intervalEnded.regs, crumbs := { s.crumbs with accepted := 0 } } := by
  unfold State.intervalEnded
  dsimp only
  split <;> rfl

/-! ### The obligation -/

/-- Settles O3: the event block and the lock of a unit by folds over the bits written and the units below it, a lane by what its message
adds to the port, the crumb commands by what becomes of the log. -/
theorem eventsLanesAndCrumbs : Obligations.EventsLanesAndCrumbs := by
  refine ⟨fun s r u v occ present o inside other => ⟨fun may => ?force, fun may => ?clear, fun may => ?lock⟩,
    fun s r hi b may => ?lane, fun s r v => ⟨fun may => ?select, fun may => ?software, fun c q clocked queue single off => ?entry,
      fun clocked => ?interval⟩⟩
  case force =>
    obtain ⟨last, wraps⟩ := UnitId.evraw_apart inside other
    exact ⟨_, exec_evforceWrite may v, fun b hb => State.event_raiseAll last wraps s _ hb, (RegsBut.refl s _).raiseAll _,
      (RegsOnly.refl s).raiseAll _ _⟩
  case clear =>
    obtain ⟨last, wraps⟩ := UnitId.evraw_apart inside other
    obtain ⟨_, _, events⟩ := booked_self u
    have cleared : RegsBut s (s.evCleared u v.toNat occ.toNat) (booked u) := (RegsBut.refl s _).wr events
    refine ⟨_, exec_evclrWrite may v occ present, fun b hb => ?_, cleared.raiseAll _, (RegsOnly.refl s).wr.raiseAll _ _⟩
    rw [State.event_raiseAll last wraps _ _ hb, State.event_evCleared _ _ _ _ hb, bitOf_and]
  case lock =>
    refine ⟨_, exec_ulockWrite may v, fun on d hd => ?_, fun unset => if_neg (ne_true_of_eq_false unset), ?_, ?_⟩
    · rw [if_pos on]
      exact State.flag_lockAll _ s (.inl hd)
    · exact .ite (fun _ => s.lockTree_regsBut u) (fun _ => .refl s _)
    · exact .ite (fun _ => s.lockTree_regsOnly u) (fun _ => .refl s)
  case lane =>
    intro n d
    refine ⟨_, exec_lnrearmWrite_lane b may, fun pending on vector => ?_, fun idle => ?_, s.rearm_regsBut n, s.rearm_regsOnly n⟩
    · exact State.rearm_sends pending on vector
    · rw [State.rearm_idle idle]
      exact ⟨rfl, s.armed_sent _, rfl⟩
  case select =>
    exact ⟨_, exec_crselWrite may v, State.rd_wr_same .., State.crSel_latched .., ((RegsBut.refl s _).wr (List.mem_singleton_self _)).same rfl,
      rfl⟩
  case software => exact ⟨_, exec_crswcmdWrite may v, State.crumb_spec ..⟩
  case entry =>
    have unmirrored : (s.dequeued q).flag .event F.CRMBASELO_enable = false := off
    have log := State.newCrumbEntry_crumbs c unmirrored
    obtain ⟨head, seq⟩ := (s.dequeued q).crumbLogged_shows c
    rw [State.rd_dequeued] at head seq
    have only := ((s.dequeued_only q).trans ((s.dequeued q).crumbLogged_only c)).trans (State.newCrumbEntry_regsOnly c unmirrored).crumb
    refine ⟨_, exec_crumbEntryWrite_new clocked queue single, ?_, ?_, ?_, ?_,
      fun full => State.newCrumbEntry_full c unmirrored ((s.rd_dequeued q _ _).trans full), only⟩
    · rw [log]
      rfl
    · rw [log]
      exact (s.dequeued q).crumbLogged_entry c
    · exact (State.rd_newCrumbEntry c unmirrored (by decide) (by decide) (by decide)).trans head
    · exact (State.rd_newCrumbEntry c unmirrored (by decide) (by decide) (by decide)).trans seq
  case interval =>
    have frame := s.intervalEnded_frame
    exact ⟨_, exec_crumbIntervalEnd clocked, congrArg (·.crumbs.accepted) frame, State.intervalEnded_quiet, State.intervalEnded_busy,
      s.intervalEnded_regsBut, frame⟩

end Sys2Proof.Machine
end
